-- ==== Sys2Proof/Word.lean ====
section
/-! DEFINITION. The plain word types of the HX9 model.

Registers, command words and records that the manual lays out bit by bit are held as naturals whose bit
`i` is the manual's bit `[i]`; every operation that writes one reduces it to its width. Bytes of memory and
FP32 words, which the manual stores and moves as bits, are bit vectors. -/

namespace Sys2Proof

/-- One byte of device memory or of an operand store. -/
abbrev Byte := BitVec 8

/-- One FP32 word (R68): sign, 8 exponent bits, 23 mantissa bits. -/
abbrev F32 := BitVec 32

end Sys2Proof
end

