-- ==== Sys2Proof/Machine/Operands.lean ====
section
/-! DEFINITION. The operand forms that commands carry: flits, messages, packets, frames and the other records
that arrive at the device's edge, as the fields the manual gives them. -/

namespace Sys2Proof.Machine

/-- The acknowledgement and credit fields that every flit carries (R406, R408). -/
structure FlitAck where
  astream : Nat
  aseq : Nat
  nak : Bool
  avalid : Bool
  cvc : Nat
  credit : Nat
  deriving DecidableEq, Repr

/-- A DATA flit as it arrives (R406), with the CRC it carries; `fec` is false when it overlaps an uncorrectable codeword
(R400). -/
structure DataFlit where
  stream : Nat
  seq : Nat
  ack : FlitAck
  fvc : Nat
  msgoff : Nat
  /-- The fifteen 16 B units of the payload, first unit first. -/
  units : List Nat
  crc : Nat
  fec : Bool
  deriving DecidableEq, Repr

/-- The payload of a CROAK or CROAK-REPLY (R428). -/
structure CroakBody where
  devid : Nat
  quad : Nat
  role : Nat
  pstate : Nat
  cseq : Nat
  mclive : Nat
  deriving DecidableEq, Repr

/-- What a quad's training finds (R404): the peer's TRAIN fields and the lanes that lock at each rate. -/
structure TrainInfo where
  peerDev : Nat
  peerQuad : Nat
  peerRole : Nat
  /-- The peer's rate cap in Gbit/s. -/
  peerCap : Nat
  peerVersion : Nat
  /-- Lanes that lock at 200, 100 and 50 Gbit/s. -/
  lanes200 : Nat
  lanes100 : Nat
  lanes50 : Nat
  deriving DecidableEq, Repr

/-- A Relay message: its 16 B header (R418) and its body. -/
structure RelayMsg where
  header : Nat
  body : List Byte
  deriving DecidableEq, Repr

/-- A piece of a reduced gradient (R355). -/
structure Piece where
  entry : Nat
  use : Nat
  step : Nat
  place : Nat
  off : Nat
  vals : List F32
  deriving DecidableEq, Repr

/-- A request record of a REQ frame (R666): device address, bytes, requester, tag, and whether data follows. -/
structure BridgeReq where
  addr : Nat
  len : Nat
  requester : Nat
  tag : Nat
  write : Bool
  deriving DecidableEq, Repr

/-- A record of an engine that holds SECDED check bits of its own (R618): a slot of a version ring and a binding record
(R349), a parked piece of an entry's use and place (R372), a bucket's match, with what has landed of it, and a multicast's
retention (R472), a route store slot, a tag's pending contents and an expert's placement (R493). -/
inductive EccRec where
  | slot (entry slot : Nat)
  | binding (ctx tag : Nat)
  | parked (entry use step place : Nat)
  | match_ (bucket step place : Nat)
  | retention (entry ver origin : Nat)
  | route (key : Nat)
  | pending (layer : Nat) (bwd : Bool) (tag : Nat)
  | placement (layer expert : Nat)
  deriving DecidableEq, Repr

/-- Storage whose check bits have changed since it was written (R618): a word of device memory, with two wrong bits or one,
a semaphore's word, a queued descriptor, an entry of the active or the idle scale tables, a mask descriptor of a cluster, a
resident entry of an inbound queue, a received unit of a Relay message, or an engine record. -/
inductive Upset where
  | word (addr : Nat) (two : Bool)
  | sem (cluster num : Nat)
  | descriptor (fe queue pos : Nat)
  | pair (entry : Nat) (active : Bool)
  | mask (cluster slot : Nat)
  | entry (queue pos : Nat)
  | relay (quad vc pos : Nat)
  | record (r : EccRec)
  deriving DecidableEq, Repr

/-- The payload words, 0 to 31, of a frame that SECDED cannot correct where they arrive (R670). -/
abbrev BadWords := List Nat

/-- The payload of a WDATA or RDATA frame (R666) with the words of it that arrive uncorrectable (R670). -/
structure BridgeData where
  bytes : List Byte
  ue : BadWords
  deriving DecidableEq, Repr

/-- A line read that returns to fetch engine `fe` (R245): `waited` cycles a class of its requests was ready with no free
slot (R271). -/
structure LineReturn where
  fe : Nat
  waited : Nat
  deriving DecidableEq, Repr

/-- A record of a SIG frame (R666): a semaphore signal, a conversion report to a ledger entry, or a unit notice. -/
inductive BridgeSig where
  | signal (cluster num amount ctx : Nat)
  | report (entry amax flags step : Nat)
  | notice (code arg : Nat)
  deriving DecidableEq, Repr

/-- What a start-up step finds (R701): its duration, whether it passed, and by step: images with an uncorrectable word
while reading (4), bundles by (direction, bundle, failed wires, clock, valid or parity failed) (6), the highest rate in
Mbit/s at which each site passes, 0 for none (7), the unit that failed (5, 6, 8, 9), `SnPortState` (11). -/
structure StartInfo where
  us : Nat
  pass : Bool
  badReads : List Nat
  bundles : List (Nat × Nat × List Nat × Bool)
  sites : List Nat
  unit : Nat
  port : Nat
  deriving DecidableEq, Repr

/-- What the outside or a unit's own measure supplies to an operation carried out for firmware: what the management
controller has read of idle sequencers and held engines (R614), and how many fuses program before one fails (R650). -/
structure OpInfo where
  seqIdle : Nat
  feHeld : Nat
  fuses : Nat
  deriving DecidableEq, Repr

end Sys2Proof.Machine
end

