-- ==== Sys2Proof/Machine/Bits.lean ====
section
/-! DEFINITION. Bit fields, byte order and small number helpers shared by every unit of the model. -/

namespace Sys2Proof.Machine

/-- The field `[hi:lo]` of a word, as the manual writes bit fields. -/
def fld (v hi lo : Nat) : Nat := (v >>> lo) % 2 ^ (hi + 1 - lo)

/-- Bit `[i]` of a word. -/
def bitAt (v i : Nat) : Bool := (v >>> i) % 2 == 1

/-- `v` with its field `[hi:lo]` replaced by `x` (cut to the field's width). -/
def setFld (v hi lo x : Nat) : Nat :=
  (v >>> (hi + 1)) <<< (hi + 1) + (x % 2 ^ (hi + 1 - lo)) <<< lo + v % 2 ^ lo

/-- `v` with bit `[i]` set to `b`. -/
def setBit (v i : Nat) (b : Bool) : Nat := setFld v i i (if b then 1 else 0)

/-- A Boolean as the bit the manual writes. -/
def b2n (b : Bool) : Nat := if b then 1 else 0

/-- The smallest natural `q` with `a ≤ q·b` (`b` positive). -/
def ceilDiv (a b : Nat) : Nat := (a + b - 1) / b

/-- `x` cut to `w` bits. -/
def trunc (w x : Nat) : Nat := x % 2 ^ w

/-- A saturating sum in `w` bits: counters saturate and do not wrap. -/
def satAdd (w a b : Nat) : Nat := min (a + b) (2 ^ w - 1)

/-- A field whose table is MSB-first inside an `n`-byte frame read as one bit string, byte 0 holding the
most significant bits (R534). -/
def beField (bytes : List Byte) : Nat := bytes.foldl (fun a b => a * 256 + b.toNat) 0

/-- The value of a byte list carried little-endian (R528). DEDUCED, log 5. -/
def leVal : List Byte → Nat
  | [] => 0
  | b :: bs => b.toNat + 256 * leVal bs

/-- The `n` little-endian bytes of a value (R528). -/
def leBytes : Nat → Nat → List Byte
  | 0, _ => []
  | n + 1, v => BitVec.ofNat 8 v :: leBytes n (v / 256)

/-- The `n` bytes of a value, most significant first (R534). -/
def beBytes (n v : Nat) : List Byte := (leBytes n v).reverse

/-- The number of bits set in the low `n` bits. -/
def popCount : Nat → Nat → Nat
  | 0, _ => 0
  | n + 1, v => b2n (bitAt v n) + popCount n v

/-- The positions of the bits set in the low `n` bits, lowest first. -/
def setBits (n v : Nat) : List Nat := (List.range n).filter (bitAt v)

/-- A two's complement reading of the low `w` bits. -/
def toSigned (w v : Nat) : Int :=
  if v % 2 ^ w < 2 ^ (w - 1) then (v % 2 ^ w : Nat) else (v % 2 ^ w : Nat) - (2 ^ w : Nat)

/-- The low `w` bits of an integer. -/
def ofSigned (w : Nat) (i : Int) : Nat := (i % (2 ^ w : Nat)).toNat

/-- The sum of a list of naturals. -/
def sumN (l : List Nat) : Nat := l.foldl (· + ·) 0

/-- Replace the element at place `i`, leaving the list as it is when there is none. -/
def setAt {α : Type} : List α → Nat → α → List α
  | [], _, _ => []
  | _ :: xs, 0, y => y :: xs
  | x :: xs, i + 1, y => x :: setAt xs i y

/-- Bring a list to exactly `n` elements, padding with `d`. -/
def padTo {α : Type} (n : Nat) (d : α) (l : List α) : List α := (l ++ List.replicate n d).take n

end Sys2Proof.Machine
end

