-- ==== Sys2Proof/Machine/Number.lean ====
section
/-! DEFINITION. The element formats of chapter 03: encodings, exact values, the one rounding of a
conversion, special values and Microscaling blocks. Exact values are signed ratios of naturals, so every
rounding below is the single rounding the manual asks for (R73). -/

namespace Sys2Proof.Machine

/-- An exact value: NaN, an infinity, or a sign with a ratio of naturals (a zero keeps its sign). -/
inductive Fx where
  | nan
  | inf (neg : Bool)
  | fin (neg : Bool) (num den : Nat)
  deriving DecidableEq, Repr

/-- The element formats of R68. -/
inductive Fmt where
  | fp32 | bf16 | fp16 | e5m2 | e4m3 | e3m2 | e2m3 | e2m1
  deriving DecidableEq, Repr

/-- Exponent bits (R68). -/
def ebits : Fmt → Nat
  | .fp32 => 8 | .bf16 => 8 | .fp16 => 5 | .e5m2 => 5 | .e4m3 => 4 | .e3m2 => 3 | .e2m3 => 2 | .e2m1 => 2

/-- Mantissa bits (R68). -/
def mbits : Fmt → Nat
  | .fp32 => 23 | .bf16 => 7 | .fp16 => 10 | .e5m2 => 2 | .e4m3 => 3 | .e3m2 => 2 | .e2m3 => 3 | .e2m1 => 1

/-- Exponent bias (R68). -/
def fbias : Fmt → Nat
  | .fp32 => 127 | .bf16 => 127 | .fp16 => 15 | .e5m2 => 15 | .e4m3 => 7 | .e3m2 => 3 | .e2m3 => 1 | .e2m1 => 1

/-- Width in bits. -/
def fwidth (f : Fmt) : Nat := 1 + ebits f + mbits f

/-- Whether the all-ones exponent holds infinities and NaNs, as in IEEE 754. -/
def hasInf : Fmt → Bool
  | .fp32 | .bf16 | .fp16 | .e5m2 => true
  | _ => false

/-- The largest finite magnitude, as a code without sign. -/
def maxCode : Fmt → Nat
  | .fp32 => 0x7F7FFFFF | .bf16 => 0x7F7F | .fp16 => 0x7BFF | .e5m2 => 0x7B | .e4m3 => 0x7E
  | .e3m2 => 0x1F | .e2m3 => 0x1F | .e2m1 => 0x7

/-- The canonical NaN (R71); formats without NaN have no use for it. -/
def nanCode : Fmt → Nat
  | .fp32 => 0x7FC00000 | .bf16 => 0x7FC0 | .fp16 => 0x7E00 | .e5m2 => 0x7E | .e4m3 => 0x7F
  | _ => 0

/-- `m · 2^x` as an exact value of the given sign. -/
def fxScale (neg : Bool) (m : Nat) (x : Int) : Fx :=
  if 0 ≤ x then .fin neg (m * 2 ^ x.toNat) 1 else .fin neg m (2 ^ (-x).toNat)

/-- The exact value of an encoding (R68, R70). -/
def fdecode (f : Fmt) (c : Nat) : Fx :=
  let neg := bitAt c (ebits f + mbits f)
  let e := fld c (ebits f + mbits f - 1) (mbits f)
  let m := c % 2 ^ mbits f
  if hasInf f && e == 2 ^ ebits f - 1 then
    if m == 0 then .inf neg else .nan
  else if f == .e4m3 && e == 15 && m == 7 then .nan
  else if e == 0 then fxScale neg m (1 - (fbias f : Int) - mbits f)
  else fxScale neg (2 ^ mbits f + m) ((e : Int) - fbias f - mbits f)

/-- The value of an E8M0 block scale (R69). -/
def e8m0 (x : Nat) : Fx := if x % 256 = 255 then .nan else fxScale false 1 ((x % 256 : Nat) - (127 : Int))

/-! ### Exact arithmetic -/

/-- Whether an exact value is a NaN. -/
def isNan : Fx → Bool
  | .nan => true
  | _ => false

/-- Whether an exact value is infinite. -/
def isInf : Fx → Bool
  | .inf _ => true
  | _ => false

/-- Whether an exact value is finite. -/
def isFin : Fx → Bool
  | .fin .. => true
  | _ => false

/-- Whether an exact value is a zero of either sign. -/
def isZero : Fx → Bool
  | .fin _ n _ => n == 0
  | _ => false

/-- The sign of a value (false for NaN). -/
def fxSign : Fx → Bool
  | .nan => false
  | .inf s => s
  | .fin s _ _ => s

/-- The negation of a value. -/
def fxNeg : Fx → Fx
  | .nan => .nan
  | .inf s => .inf (!s)
  | .fin s n d => .fin (!s) n d

/-- The magnitude of a value. -/
def fxAbs : Fx → Fx
  | .nan => .nan
  | .inf _ => .inf false
  | .fin _ n d => .fin false n d

/-- The exact product; infinity times zero is NaN (R29). -/
def fxMul : Fx → Fx → Fx
  | .nan, _ => .nan
  | _, .nan => .nan
  | .inf s, .inf t => .inf (s != t)
  | .inf s, .fin t n _ => if n = 0 then .nan else .inf (s != t)
  | .fin s n _, .inf t => if n = 0 then .nan else .inf (s != t)
  | .fin s n d, .fin t m e => .fin (s != t) (n * m) (d * e)

/-- The exact sum; opposite infinities give NaN (R29), an exact zero of opposite signs is +0. -/
def fxAdd : Fx → Fx → Fx
  | .nan, _ => .nan
  | _, .nan => .nan
  | .inf s, .inf t => if s = t then .inf s else .nan
  | .inf s, .fin .. => .inf s
  | .fin .., .inf t => .inf t
  | .fin s n d, .fin t m e =>
    let a := n * e
    let b := m * d
    if s = t then .fin s (a + b) (d * e)
    else if a = b then .fin false 0 1
    else if b < a then .fin s (a - b) (d * e)
    else .fin t (b - a) (d * e)

/-- The exact difference. -/
def fxSub (a b : Fx) : Fx := fxAdd a (fxNeg b)

/-- The exact quotient, with the IEEE 754 special values. -/
def fxDiv : Fx → Fx → Fx
  | .nan, _ => .nan
  | _, .nan => .nan
  | .inf _, .inf _ => .nan
  | .inf s, .fin t _ _ => .inf (s != t)
  | .fin s _ _, .inf t => .fin (s != t) 0 1
  | .fin s n d, .fin t m e =>
    if m = 0 then (if n = 0 then .nan else .inf (s != t)) else .fin (s != t) (n * e) (d * m)

/-- `x < y` on non-NaN values; false when either is NaN. -/
def fxLt : Fx → Fx → Bool
  | .nan, _ => false
  | _, .nan => false
  | .inf s, .inf t => s && !t
  | .inf s, .fin .. => s
  | .fin .., .inf t => !t
  | .fin s n d, .fin t m e =>
    if s then (if t then m * d < n * e else decide (0 < n ∨ 0 < m))
    else (if t then false else n * e < m * d)

/-- Numeric equality of two non-NaN values (+0 equals −0). -/
def fxEq : Fx → Fx → Bool
  | .nan, _ => false
  | _, .nan => false
  | .inf s, .inf t => s == t
  | .fin s n d, .fin t m e => (n * e == m * d) && (s == t || n == 0)
  | _, _ => false

/-- The larger of two non-NaN values; NaN propagates. -/
def fxMax (a b : Fx) : Fx := if isNan a || isNan b then .nan else if fxLt a b then b else a

/-- The smaller of two non-NaN values; NaN propagates. -/
def fxMin (a b : Fx) : Fx := if isNan a || isNan b then .nan else if fxLt b a then b else a

/-- A natural as an exact value. -/
def fxNat (n : Nat) : Fx := .fin false n 1

/-- `2^x` as an exact value. -/
def fxPow2 (x : Int) : Fx := fxScale false 1 x

/-- `floor(log2(n/d))` for positive `n` and `d`. -/
def floorLog2 (n d : Nat) : Int :=
  let k : Int := (Nat.log2 n : Int) - Nat.log2 d
  if 0 ≤ k then (if d * 2 ^ k.toNat ≤ n then k else k - 1)
  else (if d ≤ n * 2 ^ (-k).toNat then k else k - 1)

/-! ### The one rounding (R73 to R80) -/

/-- The rounding modes of R74. -/
inductive Rm where
  | rne | rtz | sr
  deriving DecidableEq, Repr

/-- The mode a 2-bit field selects (R74); 0b11 is reserved. -/
def rmOf : Nat → Option Rm
  | 0 => some .rne
  | 1 => some .rtz
  | 2 => some .sr
  | _ => none

/-- The sticky conversion flags of R91. -/
structure CFlags where
  ovf : Bool
  unf : Bool
  nan : Bool
  inf : Bool
  deriving DecidableEq, Repr

/-- No flag set. -/
def noFlags : CFlags := ⟨false, false, false, false⟩

/-- The OR of two flag sets. -/
def orFlags (a b : CFlags) : CFlags := ⟨a.ovf || b.ovf, a.unf || b.unf, a.nan || b.nan, a.inf || b.inf⟩

/-- The flags as the four bits of R94's CFLAGS: OVF 3, UNF 2, NAN 1, INF 0. -/
def flagBits (f : CFlags) : Nat := 8 * b2n f.ovf + 4 * b2n f.unf + 2 * b2n f.nan + b2n f.inf

/-- The multiple of the quantum chosen by the rounding mode, for a discarded part `rem/den` above `t`
(R74, R75); `r` is the 16-bit random value. -/
def roundUnit (rm : Rm) (r t rem den : Nat) : Nat :=
  match rm with
  | .rne => if 2 * rem > den ∨ (2 * rem = den ∧ t % 2 = 1) then t + 1 else t
  | .rtz => t
  | .sr => if r < (2 ^ 16 * rem) / den then t + 1 else t

/-- A finite magnitude rounded with an unbounded exponent: the code as if the exponent field had no top
(subnormals included). -/
def roundMag (f : Fmt) (rm : Rm) (r num den : Nat) : Nat :=
  if num = 0 then 0
  else
    let emin : Int := 1 - fbias f
    let q : Int := max (floorLog2 num den) emin - mbits f
    let n := if 0 ≤ q then num else num * 2 ^ (-q).toNat
    let d := if 0 ≤ q then den * 2 ^ q.toNat else den
    let t := roundUnit rm r (n / d) (n % d) d
    (q - (emin - mbits f)).toNat * 2 ^ mbits f + t

/-- The sign bit of a format, set when `neg`. -/
def signCode (f : Fmt) (neg : Bool) : Nat := if neg then 2 ^ (ebits f + mbits f) else 0

/-- The code of an infinity (formats with infinities only). -/
def infCode (f : Fmt) (neg : Bool) : Nat := signCode f neg + (2 ^ ebits f - 1) * 2 ^ mbits f

/-- The result of a finite overflow (R78). -/
def ovfCode (f : Fmt) (rm : Rm) (sat : Bool) (neg : Bool) : Nat :=
  if rm = .rtz ∨ sat then signCode f neg + maxCode f
  else if hasInf f then infCode f neg
  else if f = .e4m3 then nanCode f
  else signCode f neg + maxCode f

/-- One conversion: the exact value `x` rounded once into format `f` (R73 to R80), with its flags (R91). -/
def convert (f : Fmt) (rm : Rm) (r : Nat) (sat : Bool) (x : Fx) : Nat × CFlags :=
  match x with
  | .nan => (if hasInf f || f == .e4m3 then nanCode f else 0, { noFlags with nan := true })
  | .inf s =>
    if hasInf f then (infCode f s, noFlags)
    else if f = .e4m3 then
      (if sat then signCode f s + maxCode f else nanCode f, { noFlags with inf := true })
    else (signCode f s + maxCode f, { noFlags with inf := true })
  | .fin s n d =>
    let c := roundMag f rm r n d
    if maxCode f < c then (ovfCode f rm sat s, { noFlags with ovf := true })
    else (signCode f s + c, { noFlags with unf := decide (0 < n ∧ c = 0) })

/-- The FP32 word of an exact value, rounded once by round-to-nearest-even. -/
def toF32 (x : Fx) : F32 := BitVec.ofNat 32 (convert .fp32 .rne 0 false x).1

/-- The exact value of an FP32 word. -/
def ofF32 (v : F32) : Fx := fdecode .fp32 v.toNat

/-- FP32 addition, rounded once. -/
def f32Add (a b : F32) : F32 := toF32 (fxAdd (ofF32 a) (ofF32 b))

/-- FP32 subtraction, rounded once. -/
def f32Sub (a b : F32) : F32 := toF32 (fxSub (ofF32 a) (ofF32 b))

/-- FP32 multiplication, rounded once. -/
def f32Mul (a b : F32) : F32 := toF32 (fxMul (ofF32 a) (ofF32 b))

/-- FP32 division, rounded once. -/
def f32Div (a b : F32) : F32 := toF32 (fxDiv (ofF32 a) (ofF32 b))

/-- FP32 fused multiply-add, rounded once. -/
def f32Fma (a b c : F32) : F32 := toF32 (fxAdd (fxMul (ofF32 a) (ofF32 b)) (ofF32 c))

/-- FP32 +0. -/
def f32Zero : F32 := 0#32

/-- FP32 1.0. -/
def f32One : F32 := 0x3F800000#32

/-- The canonical FP32 NaN (R71). -/
def f32Nan : F32 := 0x7FC00000#32

/-- FP32 ±∞. -/
def f32Inf (neg : Bool) : F32 := BitVec.ofNat 32 (infCode .fp32 neg)

/-- The larger of two words that hold non-negative FP32 values or +∞, by value. -/
def f32AmaxFold (a b : F32) : F32 := if fxLt (ofF32 a) (ofF32 b) then b else a

/-- Integer square root by bisection on `k` bits: the largest `x` with `x·x ≤ n`. -/
def isqrtLoop : Nat → Nat → Nat → Nat
  | 0, x, _ => x
  | k + 1, x, n => if (x + 2 ^ k) * (x + 2 ^ k) ≤ n then isqrtLoop k (x + 2 ^ k) n else isqrtLoop k x n

/-- The largest `x` with `x·x ≤ n`. -/
def isqrt (n : Nat) : Nat := isqrtLoop (Nat.log2 n / 2 + 1) 0 n

/-- The square root of a non-negative ratio rounded once to FP32. The ratio is scaled by a power of four so
that its integer root has at least 31 bits; a sticky half-step keeps an inexact root from meeting a tie. -/
def sqrtF32 (n d : Nat) : F32 :=
  if n = 0 then f32Zero
  else
    let s : Int := (64 - floorLog2 n d) / 2
    let up := 2 ^ s.toNat
    let dn := 2 ^ (-s).toNat
    let p := n * up * up
    let q := d * dn * dn
    let x := isqrt (p / q)
    if x * x * q = p then toF32 (.fin false (x * dn) up)
    else toF32 (.fin false ((2 * x + 1) * dn) (2 * up))

/-! ### Microscaling blocks (R87 to R90) -/

/-- The exponent of the element format's largest normal (R88). -/
def emaxOf : Fmt → Int
  | .e4m3 => 8 | .e5m2 => 15 | .e3m2 => 4 | .e2m3 => 2 | .e2m1 => 2
  | _ => 0

/-- The largest magnitude of a list of finite values. -/
def amaxOf (xs : List Fx) : Fx := xs.foldl (fun a x => fxMax a (fxAbs x)) (.fin false 0 1)

/-- R88: one block of exact, already scaled values with their random values; the answer is the E8M0 scale,
the element codes and the flags. -/
def mxQuantize (f : Fmt) (rm : Rm) (rs : List Nat) (xs : List Fx) : Nat × List Nat × CFlags :=
  if xs.any (fun x => isNan x || isInf x) then
    (255, xs.map (fun _ => 0), ⟨false, false, xs.any isNan, xs.any isInf⟩)
  else
    match amaxOf xs with
    | .fin _ n d =>
      if n = 0 then (0, xs.map (fun x => signCode f (fxSign x)), noFlags)
      else
        let x0 := floorLog2 n d - emaxOf f
        let xc := min (max x0 (-127)) 127
        let qs := (xs.zip rs).map (fun p => convert f rm p.2 true (fxMul p.1 (fxPow2 (-xc))))
        let fl := qs.foldl (fun a q => orFlags a q.2) noFlags
        ((xc + 127).toNat, qs.map Prod.fst, { fl with ovf := decide (127 < x0) })
    | _ => (255, xs.map (fun _ => 0), noFlags)

/-! ### Format codes (R47) -/

/-- The element format of a format code, and whether it is a Microscaling format (R47). -/
def fmtOfCode : Nat → Option (Fmt × Bool)
  | 0 => some (.fp32, false)
  | 1 => some (.bf16, false)
  | 2 => some (.fp16, false)
  | 3 => some (.e4m3, false)
  | 4 => some (.e5m2, false)
  | 5 => some (.e3m2, false)
  | 6 => some (.e2m3, false)
  | 7 => some (.e2m1, false)
  | 8 => some (.e4m3, true)
  | 9 => some (.e5m2, true)
  | 10 => some (.e3m2, true)
  | 11 => some (.e2m3, true)
  | 12 => some (.e2m1, true)
  | _ => none

/-- `fmax` of each target format code, as an exact value (R96). -/
def fmaxOf (code : Nat) : Option Fx :=
  match fmtOfCode code with
  | none => none
  | some (_, true) => some (fxNat 1)
  | some (f, false) => some (fdecode f (maxCode f))

end Sys2Proof.Machine
end

