-- ==== Sys2Proof/Machine/StateExchange.lean ====
section
/-! DEFINITION. State of the expert exchange (chapter 16). -/

namespace Sys2Proof.Machine

/-- A doorbell that the exchange has not taken (R480). -/
structure ExBell where
  layer : Nat
  combine : Bool
  bwd : Bool
  tag : Nat
  step : Nat
  a0 : Nat
  /-- Another amount than 1, or rung by another cluster than rank 0. -/
  bad : Bool
  deriving DecidableEq, Repr

/-- An assignment entry (R479). -/
structure ExEntry where
  expert : Nat
  pos : Nat
  drop : Bool
  gate : F32
  deriving DecidableEq, Repr

/-- A tag open in the exchange, per layer and kind (R491). -/
structure ExTag where
  layer : Nat
  bwd : Bool
  tag : Nat
  /-- A0 of the task, once its dispatch doorbell has been taken. -/
  a0 : Option Nat
  /-- NTOK·K entries, token-major (R479). -/
  entries : List ExEntry
  /-- Counts that have arrived, per source rank (64 slots each). -/
  counts : Tab (List Nat)
  /-- Rows, or parts of rows, landed at ROFF. -/
  landed : List Nat
  /-- Rows in the pending region, oldest first: key and bytes. -/
  pend : List (Nat × List Byte)
  /-- Result rows or parts in the pending region. -/
  results : Tab (List Byte)
  /-- DND has been signalled; the combine doorbell has been taken; tokens whose output row is written. -/
  dispatched : Bool
  combined : Bool
  written : List Nat
  deriving DecidableEq, Repr

/-- The expert exchange. -/
structure Ex where
  bells : List ExBell
  tags : List ExTag
  /-- Window base and receipt map, by `2·layer + kind` (R491). -/
  windows : Tab (Nat × Nat)
  /-- Route store: tag and entries by `256·layer + slot` (R481). -/
  routes : Tab (Nat × List ExEntry)
  deriving DecidableEq, Repr

/-- The exchange after reset. -/
def exReset : Ex := { bells := [], tags := [], windows := [], routes := [] }

/-- A tag before anything of it has arrived. -/
def exTagReset (layer : Nat) (bwd : Bool) (tag : Nat) : ExTag :=
  { layer, bwd, tag, a0 := none, entries := [], counts := [], landed := [], pend := [], results := [], dispatched := false
    combined := false, written := [] }

end Sys2Proof.Machine
end

