-- ==== Sys2Proof/Machine/StateCompute.lean ====
section
/-! DEFINITION. State of the tensor units, the shadow units and the numerics supervisor (chapters 02 and 04). -/

namespace Sys2Proof.Machine

/-- What a replayed tile reloads into one leapfrog half (R110), or the widened BF16 chunk that takes its
place (R114). -/
structure Reload where
  /-- Names the reload; the SWAP it gates carries the same number. -/
  id : Nat
  /-- The recorded LOAD descriptors of the half, in their original order (R109). -/
  loads : List Nat
  /-- The reload has been handed to the fetch engine. -/
  issued : Bool
  /-- The first reload of its replay or recomputation (R110 step 2), and the half its writes go to, fixed when it is
  handed over. -/
  first : Bool := false
  half : Nat := 0
  /-- A BF16 recomputation chunk: the recorded MMA whose operands are widened. -/
  widen : Bool
  mma : Nat
  /-- First contraction index and length of the widened chunk. -/
  k0 : Nat
  klen : Nat
  /-- The inverse scales read when the tile opened. -/
  ia : F32
  ib : F32
  deriving DecidableEq, Repr

/-- One entry of a TU command queue (R45): the 128-bit command, the stage context and tadpole tag it was
issued for, and for a replay's SWAP the reload it waits for (R110). -/
structure TuEntry where
  word : Nat
  ctx : Nat
  tag : Nat
  /-- The command belongs to a replay or a BF16 recomputation (R118). -/
  replay : Bool
  /-- The command belongs to a BF16 recomputation (R114). -/
  fallback : Bool
  reload : Option Reload
  /-- The number of the tile that a replay's command belongs to (R109). -/
  tile : Nat := 0
  deriving DecidableEq, Repr

/-- What one leapfrog half of an operand store holds (R32). -/
structure StoreHalf where
  /-- The bytes, by byte address 0 to 524,287; 0 where nothing is listed. -/
  bytes : Tab Byte
  /-- Which LOAD wrote each 4 B word. -/
  owner : Tab Nat
  /-- The LOADs whose writes the half holds, by their order (R109). -/
  loads : List (Nat × Nat)
  /-- Words written as copies of an uncorrectable word (R625). -/
  ue : List Nat := []
  deriving DecidableEq, Repr

/-- One piece of a tile's record (R109): what the half held when it was first read, and the MMAs run on it. -/
structure TileChunk where
  /-- The TU's count of swaps when the half was read. -/
  swapNo : Nat
  loads : List Nat
  mmas : List Nat
  deriving DecidableEq, Repr

/-- One accumulator bank of a TU with the tile it accumulates (R23, R53, R56). -/
structure Bank where
  /-- FP32 accumulators; position (m, n) at key `64·m + n`, +0 where nothing is listed. -/
  acc : Tab F32
  /-- An accumulation is in progress. -/
  isOpen : Bool
  /-- The accumulation has ended and the bank waits to drain. -/
  draining : Bool
  /-- The MMA that opened the accumulation and the one that performed its last step. -/
  opener : Nat
  last : Nat
  /-- The inverse scales read when the opening MMA issued (R53). -/
  ia : F32
  ib : F32
  /-- Total contraction length of the accumulation (R121). -/
  ktotal : Nat
  ovf : Bool
  nang : Bool
  nani : Bool
  infi : Bool
  ce : Bool
  ue : Bool
  /-- The shadow unit took the sample (R61). -/
  sampled : Bool
  /-- The tile holds a replay slot (R109). -/
  slotted : Bool
  /-- The tile is a BF16 recomputation (R114). -/
  fallback : Bool
  /-- The recorded commands and descriptors of the tile (R109). -/
  chunks : List TileChunk
  ctx : Nat
  tag : Nat
  /-- The tile's number in its TU, which a replay of it keeps (R109). -/
  tile : Nat
  deriving DecidableEq, Repr

/-- One tensor unit. -/
structure Tu where
  queue : List TuEntry
  /-- The active leapfrog half; none before the first SWAP of a stage context (R42). -/
  active : Option Nat
  half0 : StoreHalf
  half1 : StoreHalf
  bank0 : Bank
  bank1 : Bank
  /-- Empty signals owed for the half last left, and whether a release is outstanding (R43). -/
  owed : List Nat
  releasing : Bool
  /-- Swaps executed since reset. -/
  swaps : Nat
  /-- A FENCE is waiting (R45). -/
  fencing : Bool
  /-- The stage context whose later commands are not executed (R49). -/
  dead : Option Nat
  /-- The next number for a LOAD's record. -/
  nextLoad : Nat
  /-- The next number for a tile. -/
  nextTile : Nat
  /-- What the recorded LOADs of a BF16 recomputation bring, before it is widened (R114). -/
  scratch : StoreHalf
  deriving DecidableEq, Repr

/-- A cluster's shadow unit (R61, R120). -/
structure Shadow where
  busy : Bool
  tu : Nat
  bank : Nat
  /-- Products copied for each position `16·i + j` of the sub-block, in k order, as FP32 words. -/
  products : Tab (List F32)
  ktotal : Nat
  /-- Either operand was FP16 (R121). -/
  fp16 : Bool
  opener : Nat
  /-- The drained values and live positions of the sampled tile, once it has passed (R123). -/
  drained : Option (List (Nat × F32))
  descale : F32
  tid : Nat
  tag : Nat
  ctx : Nat
  deriving DecidableEq, Repr

/-- One entry of the scale ledger (R94). INVS is always the exact inverse of S and is computed from it. -/
structure LedgerEntry where
  policy : Nat
  fmt : Nat
  margin : Nat
  hlen : Nat
  backoff : Bool
  tch : Bool
  s : F32
  runamax : F32
  hcount : Nat
  head : Nat
  ovtiles : Nat
  laststep : Nat
  cflags : Nat
  /-- Slot i of HIST; +0 where nothing is listed. -/
  hist : Tab F32
  deriving DecidableEq, Repr

/-- One torpor slot (R131). -/
structure TorporSlot where
  live : Nat
  zeros : Nat
  silent : Nat
  ftrip : Bool
  rpt : Bool
  deriving DecidableEq, Repr

/-- The numerics supervisor and ledger engines. -/
structure Sup where
  ledger : Tab LedgerEntry
  /-- The active and idle copies of the scale tables (R93); both halves' tables hold the same values. -/
  active : Tab (F32 × F32)
  idle : Tab (F32 × F32)
  /-- What an unlisted scale-table pair reads as. -/
  tableReset : F32 × F32
  /-- Entries whose pair has uncorrectable check bits in the active and in the idle copy (R137). -/
  badActive : List Nat
  badIdle : List Nat
  /-- Entries that stage contexts have named in the current step: (entry, context) (R137). -/
  named : List (Nat × Nat)
  /-- Ledger engines that have finished the boundary's close_step (R104). -/
  enginesDone : Nat
  torpor : Tab TorporSlot
  /-- Replay slots taken, per cluster: (TU, tile number) (R109). -/
  slots : Tab (List (Nat × Nat))
  /-- Slots whose tile has passed its check and may be freed, per cluster. -/
  passed : Tab (List (Nat × Nat))
  /-- Tiles waiting for a slot, per cluster, oldest first: (TU, bank). -/
  waiting : Tab (List (Nat × Nat))
  /-- Scale rebuild was commanded for the next boundary (R135). -/
  rebuildPending : Bool
  /-- Checked mode in force (R167). -/
  checked : Bool
  /-- Disagreements per TU in the current step (R124). -/
  disagree : Tab Nat
  /-- The disagreement log, newest first (R125). -/
  shadowLog : List Nat
  /-- Step closed last by close_step; a report for it or an earlier step is late (R100). -/
  closed : Option Nat
  deriving DecidableEq, Repr

/-- A tile the supervisor presents to the vector chain (R53, R108, R111). -/
structure Tile where
  tu : Nat
  bank : Nat
  /-- Drained values; position (m, n) at key `64·m + n`, +0 where nothing is listed. -/
  vals : Tab F32
  status : Nat
  /-- The replay count attached (R111). -/
  rpl : Nat
  /-- The MMA with DRN, which makes positions live (R58). -/
  last : Nat
  ctx : Nat
  tag : Nat
  deriving DecidableEq, Repr

/-- An empty half (R39). -/
def emptyHalf : StoreHalf := { bytes := [], owner := [], loads := [] }

/-- A free bank. -/
def freeBank : Bank :=
  { acc := [], isOpen := false, draining := false, opener := 0, last := 0, ia := f32One, ib := f32One,
    ktotal := 0, ovf := false, nang := false, nani := false, infi := false, ce := false, ue := false,
    sampled := false, slotted := false, fallback := false, chunks := [], ctx := 0, tag := 0, tile := 0 }

/-- A TU after reset. -/
def tuReset : Tu :=
  { queue := [], active := none, half0 := emptyHalf, half1 := emptyHalf, bank0 := freeBank,
    bank1 := freeBank, owed := [], releasing := false, swaps := 0, fencing := false, dead := none,
    nextLoad := 0, nextTile := 0, scratch := emptyHalf }

/-- A free shadow unit. -/
def shadowFree : Shadow :=
  { busy := false, tu := 0, bank := 0, products := [], ktotal := 0, fp16 := false, opener := 0,
    drained := none, descale := f32One, tid := 0, tag := 0, ctx := 0 }

/-- A ledger entry after reset (R94). -/
def ledgerReset : LedgerEntry :=
  { policy := 0, fmt := 3, margin := 0, hlen := 16, backoff := true, tch := false, s := f32One,
    runamax := f32Zero, hcount := 0, head := 0, ovtiles := 0, laststep := 0, cflags := 0, hist := [] }

/-- A torpor slot after reset (R131). -/
def torporReset : TorporSlot := { live := 0, zeros := 0, silent := 0, ftrip := false, rpt := false }

/-- The supervisor after reset. -/
def supReset : Sup :=
  { ledger := [], active := [], idle := [], tableReset := (f32One, f32One), badActive := [], badIdle := [], named := [], enginesDone := 0, torpor := [],
    slots := [], passed := [], waiting := [], rebuildPending := false, checked := false, disagree := [],
    shadowLog := [], closed := none }

end Sys2Proof.Machine
end

