-- ==== Sys2Proof/Machine/StateMemory.lean ====
section
/-! DEFINITION. State of the two memory tiers, translation, the fetch engines and the semaphore bank
(chapters 07 and 08). -/

namespace Sys2Proof.Machine

/-- A near-memory cache line's tag (R204). The data of a line is held once, in the memory list. -/
structure CacheTag where
  /-- Far line address (device address of its first byte). -/
  line : Nat
  dirty : Bool
  recent : Bool
  /-- A STREAM hit made the line the first to evict (R205). -/
  evictFirst : Bool
  deriving DecidableEq, Repr

/-- A fill outstanding (R206) and the writes held for it, in arrival order: (device address, byte). -/
structure Fill where
  line : Nat
  held : List (Nat × Byte)
  deriving DecidableEq, Repr

/-- A record of the fault queue (R224), by its fields. -/
structure FaultRec where
  fid : Nat
  cause : Nat
  fe : Nat
  write : Bool
  ctx : Nat
  step : Nat
  jaddr : Nat
  /-- The activation the descriptor has in its engine. -/
  item : Nat := 0
  deriving DecidableEq, Repr

/-- A cached translation (R219): job page base, page size, the leaf entry. -/
structure Cached where
  base : Nat
  size : Nat
  entry : Nat
  deriving DecidableEq, Repr

/-- Near and far memory, the near-memory cache and translation. -/
structure Mem where
  /-- Device memory bytes by device address, rising, none equal to what an unlisted byte reads as (`memBase`). -/
  bytes : List (Nat × Byte)
  /-- Near memory that changed between scratch and cache (R207), newest first: first address, bytes, draw. -/
  swapped : List (Nat × Nat × Nat)
  /-- Device addresses (multiples of 4) of words whose check bits are uncorrectable (R195, R625). -/
  ue : List Nat
  /-- Words with one wrong bit, which a read corrects (R230, R618). -/
  ce : List Nat
  /-- Engine records whose check bits are uncorrectable (R618). -/
  badRecs : List EccRec
  /-- Far sites whose PLL has lost lock: every access to them is uncorrectable (R696). -/
  badSites : List Nat
  /-- Cache tags per set: key `half·2^20 + set`, each a way-indexed table (R204). -/
  tags : Tab (Tab CacheTag)
  fills : List Fill
  /-- The fault queue: row 0 to 15 (R224). -/
  faults : Tab FaultRec
  nextFid : Nat
  /-- Fetch engines holding a faulted access for want of a slot, oldest first (R225). -/
  faultHold : List FaultRec
  /-- Cached translations per fetch engine. -/
  tlb : Tab (List Cached)
  /-- Invalidates in progress: job address and length (R220). -/
  invalidating : List (Nat × Nat)
  /-- Far memory initialisation has been started, and has finished (R703). -/
  farInitStarted : Bool
  farInitDone : Bool
  /-- The next line of each scrubber: tiers 0 to 3, sites at 16 and up (R620). -/
  scrub : Tab Nat
  /-- Scrub passes of the tiers or sites completed since the last 0x0D82 of their kind (R623). -/
  scrubPass : Tab Nat
  /-- Bytes of each spill region in use, as allocated blocks (base, length) per half (R227). -/
  spill : Tab (List (Nat × Nat))
  deriving DecidableEq, Repr

/-- A descriptor in a fetch engine's queue (R242). -/
structure FdEntry where
  desc : Nat
  ctx : Nat
  task : Nat
  /-- Start of the task, in ns of the management clock (R264). -/
  start : Nat
  /-- For a reload: the TU it writes and the reload it belongs to. -/
  tu : Nat
  reload : Option Reload
  /-- The EMPTYS wait has been taken (a record that re-enters its queue, R263, R266). -/
  wdone : Bool
  /-- Order of issue by the stage sequencers. -/
  num : Nat := 0
  /-- The check bits of the queue entry are uncorrectable (R261). -/
  bad : Bool := false
  /-- The deadline has been missed and counted (R264). -/
  missed : Bool := false
  deriving DecidableEq, Repr

/-- A request of a descriptor with MRG = 1 that later ones may share (R251): its activation, direction, hint, aligned device
line and the range it covers. -/
structure MergeReq where
  queue : Nat
  seq : Nat
  write : Bool
  hint : Nat
  line : Nat
  lo : Nat
  hi : Nat
  deriving DecidableEq, Repr

/-- An active descriptor (R267). -/
structure FdActive where
  entry : FdEntry
  /-- Queue: 0 reload, 1 operand, 2 chain, 3 write. -/
  queue : Nat
  /-- Order of activation within the engine. -/
  seq : Nat
  /-- The leapfrog half fixed for each TU named, by TU bit (R239). -/
  halves : Tab Nat
  /-- The number of this LOAD in each TU's record (R109). -/
  ids : Tab Nat
  /-- Bytes that host window reads have brought, by `window·2^64 + offset` (R221). -/
  hostBytes : Tab Byte
  /-- A host window read is outstanding. -/
  hostWait : Bool
  /-- The engine's read slots were taken; the transfer goes on when one frees (R245). -/
  stalled : Bool
  /-- First byte and end of the last request on each side (R250). -/
  srcReq : Nat × Nat
  dstReq : Nat × Nat
  /-- Device bytes that a request shared with the last one on the destination side has already written (R251). -/
  shared : Nat × Nat := (0, 0)
  fid : Nat
  fault : Bool
  susp : Bool
  ready : Bool
  /-- All data moved. -/
  moved : Bool
  sigheld : Bool
  /-- Host window writes to be made again after their queue pair failed: (window, offset, job address, bytes). -/
  redo : List (Nat × Nat × Nat × List Byte)
  deriving DecidableEq, Repr

/-- A reduction record that the engine could not write for a translation fault (R223, R281). -/
structure RecWrite where
  ctx : Nat
  task : Nat
  jaddr : Nat
  bytes : List Byte
  fid : Nat
  item : Nat
  deriving DecidableEq, Repr

/-- One fetch engine. -/
structure Fe where
  /-- Queues 0 reload, 1 operand, 2 chain, 3 write. Entries beyond a queue's depth are held by the unit that
  sent them until one frees. -/
  queues : Tab (List FdEntry)
  /-- Reload descriptors held for want of room in the reload queue (R242). -/
  held : List FdEntry
  active : List FdActive
  nextSeq : Nat
  /-- Line reads outstanding (R245). -/
  reads : Nat
  /-- Requests that an active descriptor of the same queue may share (R251). -/
  recent : List MergeReq
  /-- A DRAIN at the head of all four queues is waiting to complete (R269). -/
  draining : Option FdEntry
  /-- DRAINs that have completed and wait on EMPTYS, oldest first (R269). -/
  drainWait : List FdEntry
  /-- Stage contexts whose later descriptors are not started (R241). -/
  dead : List Nat
  /-- Reduction records held at a translation fault, oldest first. -/
  recs : List RecWrite := []
  deriving DecidableEq, Repr

/-- A wait blocked on a semaphore (R255, R256). -/
structure SemWaiter where
  req : Nat
  amount : Nat
  deriving DecidableEq, Repr

/-- One semaphore (R254). -/
structure Sem where
  count : Nat
  waits : List SemWaiter
  /-- The check bits of the word are uncorrectable (R261). -/
  bad : Bool := false
  deriving DecidableEq, Repr

/-- Memory after reset. DESIGN CHOICE, log 8. -/
def memReset : Mem :=
  { bytes := [], swapped := [], ue := [], ce := [], badRecs := [], badSites := [], tags := [], fills := [], faults := [], nextFid := 1, faultHold := [], tlb := [],
    invalidating := [], farInitStarted := false, farInitDone := false, scrub := [], scrubPass := [],
    spill := [] }

/-- A fetch engine after reset. -/
def feReset : Fe := { queues := [], held := [], active := [], nextSeq := 0, reads := 0, recent := [], draining := none, drainWait := [], dead := [] }

/-- A semaphore after reset. -/
def semReset : Sem := { count := 0, waits := [] }

end Sys2Proof.Machine
end

