-- ==== Sys2Proof/Machine/StateSched.lean ====
section
/-! DEFINITION. State of the stage sequencer (chapter 09): stage contexts, tasks, cluster sequencers and the
step boundary. -/

namespace Sys2Proof.Machine

/-- The state of a stage context, as `SsContextState` numbers it (R297). -/
inductive CtxState where
  | disabled | swappedOut | resident | running | stopping | stopped
  deriving DecidableEq, Repr

/-- The job state (R295, R297). -/
inductive JobState where
  | idle | running | stopping | halted
  deriving DecidableEq, Repr

/-- Where a task stands on one cluster (R280 to R289). -/
structure Place where
  /-- The task has begun on this cluster. -/
  begun : Bool
  /-- Program position, in 16 B words from the image base. -/
  pc : Nat
  /-- A0 to A14, 48 bits each. -/
  regs : List Nat
  /-- Open loops, innermost first: (word after the LOOP, further runs). -/
  loops : List (Nat × Nat)
  /-- The semaphore a WAIT is blocked on. -/
  waiting : Option Nat
  /-- A TU command or a LOAD has issued since the last YIELD (R288). -/
  busySince : Bool
  /-- A switch is wanted at the next switch point (R288). -/
  switchWanted : Bool
  /-- The late wait that asked for the switch: semaphore key and amount (R288). -/
  late : Option (Nat × Nat)
  /-- EMIT has issued, with the numbers that the cluster's next pass and the next descriptor had then (R284). -/
  emitIssued : Bool
  emitMark : Nat × Nat
  ended : Bool
  /-- Suspended records and queued descriptors taken from the engine (R263, R289). -/
  records : List FdActive
  queued : List (Nat × FdEntry)
  /-- Blocked waits of the task's descriptors and of its WAIT, by semaphore key, and waits that have succeeded and are not
  yet used (R259). -/
  waits : List (Nat × SemWaiter) := []
  grants : List (Nat × Nat) := []
  deriving DecidableEq, Repr

/-- A started, unfinished task (R286). -/
structure Task where
  id : Nat
  ctx : Nat
  /-- The task is a backward. -/
  bwd : Bool
  tag : Nat
  /-- The micro-batch's place in its step (A3). -/
  place : Nat
  /-- The step in which the task was dequeued. -/
  step : Nat
  /-- Inbound and outbound buffers (A0, A1). -/
  inAddr : Nat
  outAddr : Nat
  /-- The spawn entry that was dequeued (512 bits, R301). -/
  entry : Nat
  /-- When the context manager dequeued the tag, in ns (R264). -/
  start : Nat
  places : Tab Place
  /-- Bytes of the outbound slot, and data bytes written into it (R301, R306). -/
  outBytes : Nat
  wrote : Nat
  /-- The outbound entry has been written (R284). -/
  emitted : Bool
  deriving DecidableEq, Repr

/-- A stage context (R273 to R279, R296). -/
structure Ctx where
  st : CtxState
  frame : Option Nat
  /-- The frame is being filled or emptied by a swap (R276). -/
  swapping : Bool
  /-- Order in which contexts last ran (R275). -/
  lastRan : Nat
  /-- FWD and BWD tasks started in the current step (R290). -/
  fwd : Nat
  bwd : Nat
  /-- FWD less BWD tasks since the job started (R292). -/
  inflight : Nat
  /-- The context has reached its step end. -/
  atEnd : Bool
  /-- The event that caused the stop (R296). -/
  cause : Nat
  /-- A swap-out was refused in this step (R277). -/
  refused : Bool
  /-- The program image has been loaded into the clusters since the job began. -/
  loaded : Bool
  /-- From the image header: length in bytes, word offsets of (FWD, BWD) per rank, A6 to A14 (R278). -/
  imgLen : Nat
  imgRouts : List (Nat × Nat)
  imgRegs : List Nat
  /-- Spill blocks held while swapped out: (half, base, length), the context record first. -/
  spilled : List (Nat × Nat × Nat)
  deriving DecidableEq, Repr

/-- The phase of the step boundary (R294). -/
inductive Phase where
  | stepRunning | draining | worked
  deriving DecidableEq, Repr

/-- The stage sequencer. -/
structure Seq where
  ctxs : Tab Ctx
  tasks : List Task
  /-- The task each cluster works on, by task identifier. -/
  current : Tab Nat
  nextTask : Nat
  runOrder : Nat
  /-- Contexts waiting for a frame, in the order in which they became ready (R275). -/
  frameWait : List Nat
  /-- Job semaphore words, configuration words and mask descriptors saved for a context and cluster
  (key `16·context + cluster`) (R259, R289). -/
  savedSems : Tab (Tab Sem)
  /-- Context whose job semaphores the cluster's bank holds. -/
  bankOwner : Tab Nat
  /-- Task switches in progress, per cluster: 1 waiting for the FENCEs, 2 for the DRAIN (R289). -/
  switching : Tab Nat
  /-- TUs that are still to get a FENCE, and engines a DRAIN, for want of room in their queues (R722). -/
  owedFences : List Nat := []
  owedDrains : List Nat := []
  /-- The number the next issued descriptor gets. -/
  nextDesc : Nat
  phase : Phase
  /-- The boundary's version wait has passed its timeout once (R294). -/
  timedOut : Bool
  /-- A cut was captured at this boundary (R294 step 5). -/
  cutHeld : Bool
  step : Nat
  job : JobState
  /-- STOP has been commanded (R295). -/
  stopPending : Bool
  /-- State has been written back from a cut and START keeps it (R316, R591). -/
  restored : Bool
  /-- The cache shares of the two halves with which the last job started (R207): half 0 and 16 times half 1. -/
  shares : Nat
  deriving DecidableEq, Repr

/-- A task's place on a cluster before it begins. -/
def placeReset : Place :=
  { begun := false, pc := 0, regs := [], loops := [], waiting := none, busySince := false,
    switchWanted := false, late := none, emitIssued := false, emitMark := (0, 0), ended := false, records := [], queued := [] }

/-- A context after reset. -/
def ctxReset : Ctx :=
  { st := .disabled, frame := none, swapping := false, lastRan := 0, fwd := 0, bwd := 0, inflight := 0,
    atEnd := false, cause := 0, refused := false, loaded := false, imgLen := 0,
    imgRouts := [], imgRegs := [], spilled := [] }

/-- The sequencer after reset. -/
def seqReset : Seq :=
  { ctxs := [], tasks := [], current := [], nextTask := 1, runOrder := 0, frameWait := [], savedSems := [],
    bankOwner := [], switching := [], nextDesc := 0, phase := .stepRunning, timedOut := false, cutHeld := false, step := 0, job := .idle,
    stopPending := false, restored := false, shares := 0x22 }

end Sys2Proof.Machine
end

