-- ==== Sys2Proof/Machine/StateSpawn.lean ====
section
/-! DEFINITION. State of the spawn queues (chapter 10), the weight version store (chapter 11), the update path
(chapter 12) and the collective engine (chapter 15). -/

namespace Sys2Proof.Machine

/-- A receive slot of an inbound queue (R304, R306). -/
structure RecvSlot where
  /-- Lent to the sender, its entry not yet arrived. -/
  granted : Bool
  /-- The tag of the first data write to the lent slot. -/
  tag : Option Nat
  /-- Holds an entry whose task has not completed. -/
  busy : Bool
  deriving DecidableEq, Repr

/-- An inbound queue (R307, R312). -/
structure SpawnQ where
  low : Nat
  rcvd : Nat
  /-- Entries present in arrival order, resident ones first, each 512 bits (R301). -/
  resident : List Nat
  /-- Device addresses of the spilled ones, and the place in the spill area that the next takes. -/
  spilled : List Nat
  spillNext : Nat := 0
  /-- Resident entries whose check bits are uncorrectable (R318). -/
  bad : List Nat := []
  slots : Tab RecvSlot
  /-- Grants this context holds for sending this queue's KIND: (slot address, slot bytes), oldest first. -/
  held : List (Nat × Nat)
  /-- The sequence number the next post gets, and its value at START (HEAD forward queues, R300, R314). -/
  headK : Nat
  headK0 : Nat
  deriving DecidableEq, Repr

/-- The spawn queues. -/
structure Sq where
  queues : Tab SpawnQ
  /-- Spawn data writes sent to other devices and not yet answered: (context, task, identifier). -/
  writesOut : List (Nat × Nat × Nat)
  nextWrite : Nat
  /-- Queues of the entries present, in arrival order over all queues (R286). -/
  arrivals : List Nat
  deriving DecidableEq, Repr

/-- One slot of a version ring (R324). -/
structure VSlot where
  ver : Option Nat
  /-- 0 EMPTY, 1 OWNWRITE, 2 OWNDONE, 3 COMPLETE, 4 MOLTING. -/
  state : Nat
  lrel : Bool
  holdq : Bool
  refs : Nat
  /-- Started tasks that use the gathered copy; GUSE is their number. -/
  users : List Nat
  /-- The step in which the own shard was handed over; none when it was not. -/
  step : Option Nat
  cmask : Nat
  rmask : Nat
  pnmask : Nat
  deriving DecidableEq, Repr

/-- A GATH that has not been signalled (R341, R342). -/
structure Gwait where
  ver : Nat
  ctx : Nat
  cluster : Nat
  sem : Nat
  deriving DecidableEq, Repr

/-- The ring, current version and view of one parameter entry. -/
structure WvEntry where
  slots : Tab VSlot
  cur : Option Nat
  /-- The version whose buffer the view maps, and the one a remap in progress will map (R340). -/
  view : Option Nat
  remap : Option Nat
  waits : List Gwait
  deriving DecidableEq, Repr

/-- A gathered copy in the gather cache (R341, R344). -/
structure Gbuf where
  entry : Nat
  ver : Nat
  /-- Pieces (half, device address, bytes) in buffer order. -/
  parts : List (Nat × Nat × Nat)
  /-- Bytes still to land, and whether the gather has been reported complete. -/
  missing : Nat
  complete : Bool
  lastUsed : Nat
  /-- Shards that a multicast is to supply and unicast therefore does not read (R464). -/
  pushed : List Nat
  deriving DecidableEq, Repr

/-- The weight version store. -/
structure Wv where
  entries : Tab WvEntry
  /-- Binding records by `2^24·context + tag`: the slot of each list position, and the step of the tag's FWD
  (R328, R356). -/
  tags : Tab (List Nat × Nat)
  bufs : List Gbuf
  /-- Allocations that wait, oldest first: (entry, version) (R345). -/
  allocWait : List (Nat × Nat)
  useClock : Nat
  deriving DecidableEq, Repr

/-- One of an update entry's two accumulator buffers (R357, R376). -/
structure UpBuf where
  step : Nat
  /-- 0 free, 1 filling, 2 waiting, 3 applying. -/
  st : Nat
  /-- NEXT and the elements of place NEXT already added, per use. -/
  next : Tab Nat
  added : Tab Nat
  deriving DecidableEq, Repr

/-- The update path's state for one parameter entry (R376). -/
structure UpEntry where
  t : Nat
  lastv : Nat
  b0 : UpBuf
  b1 : UpBuf
  parked : List Piece
  /-- Pieces of the last place taken inside the apply (R362). -/
  fused : List Piece
  /-- The hyperparameter set and clip factor the apply in progress uses. -/
  hyper : Nat
  cf : F32
  /-- The first step whose apply has not ended, when no buffer holds a step (R455). -/
  applied : Nat
  /-- An uncorrectable error has stopped the entry's apply until a restore (R372). -/
  stopped : Bool := false
  deriving DecidableEq, Repr

/-- The update path. -/
structure Up where
  entries : Tab UpEntry
  /-- Clip factors formed: (group, step, factor). -/
  clips : List (Nat × Nat × F32)
  /-- Totals handed over and not yet turned into a factor: (group, step, rank, total). -/
  totals : List (Nat × Nat × Nat × F32)
  /-- The oldest step whose clip factor is not yet formed, per group (R456). -/
  clipStep : Tab Nat
  /-- A cut is being captured: no apply starts (R371). -/
  heldForCut : Bool
  deriving DecidableEq, Repr

/-- A bucket's staged contribution (R449). -/
structure Staging where
  bucket : Nat
  step : Nat
  place : Nat
  half : Nat
  base : Nat
  bytes : Nat
  /-- Ranks announced to, and the bytes each has still to read. -/
  left : Tab Nat
  announced : Bool
  deriving DecidableEq, Repr

/-- A match at an owner (R451 to R455). -/
structure Match where
  bucket : Nat
  step : Nat
  place : Nat
  /-- Ranks whose ANNOUNCE has been recorded. -/
  ranks : List Nat
  /-- Chunks whose landing space is allocated, per rank: key `rank·2^32 + chunk`, the bytes still to land. -/
  shares : Tab Nat
  /-- Landed bytes: key `rank`, byte table by offset in the part (signs, then scales). -/
  data : Tab (Tab Byte)
  delivered : List Nat
  /-- Pieces taken of each chunk whose delivery was held (R453). -/
  taken : Tab Nat
  deriving DecidableEq, Repr

/-- What an outstanding READ is for (R459). -/
inductive CeReadFor where
  | gather (entry ver rank off : Nat)
  | share (bucket step place rank chunk off : Nat)
  deriving DecidableEq, Repr

/-- An outstanding READ. -/
structure CeRead where
  unit : Nat
  /-- Sent with its index and lap; a READ waits while 4,096 of its unit are outstanding. -/
  sent : Bool
  ridx : Nat
  rlap : Nat
  what : CeReadFor
  /-- Destination device, FLOW, SPACE and the 128-bit body. -/
  dst : Nat
  flow : Nat
  space : Nat
  body : Nat
  len : Nat
  /-- 8,192 B pieces landed. -/
  got : List Nat
  deriving DecidableEq, Repr

/-- A multicast this device sends to its children (R463 to R466). -/
structure Mcast where
  entry : Nat
  ver : Nat
  origin : Nat
  /-- Children by rank with the bytes each has acknowledged. -/
  acks : Tab Nat
  /-- Bytes sent to the children, and bytes the shard has. -/
  sent : Nat
  total : Nat
  deriving DecidableEq, Repr

/-- An open digest (R470). -/
structure Digest where
  step : Nat
  bucket : Nat
  peer : Nat
  sent : Bool
  places : Nat
  xor : Nat
  bytes : Nat
  deriving DecidableEq, Repr

/-- A BKT that waits for the task's earlier passes (R21, R280). -/
structure BktWait where
  cluster : Nat
  task : Nat
  bucket : Nat
  step : Nat
  place : Nat
  /-- On each cluster of the context, the number its next pass had (R21). -/
  before : List (Nat × Nat)
  deriving DecidableEq, Repr

/-- The collective engine. -/
structure Ce where
  staging : List Staging
  matches_ : List Match
  /-- BKTs issued and not yet handed off, oldest first. -/
  buckets : List BktWait
  reads : List CeRead
  /-- READs sent so far: the next index is this modulo 65,536, its lap the quotient modulo 256. -/
  nextIdx : Nat
  mcasts : List Mcast
  /-- Bytes of pushed shards landed: (entry, version, origin, count). -/
  pushedGot : List (Nat × Nat × Nat × Nat)
  /-- Members removed until the next boundary: (group, rank) (R466). -/
  removed : List (Nat × Nat)
  digests : List Digest
  deriving DecidableEq, Repr

/-- A queue after reset. -/
def spawnQReset : SpawnQ :=
  { low := 0, rcvd := 0, resident := [], spilled := [], slots := [], held := [], headK := 0, headK0 := 0 }

/-- A receive slot before it is lent. -/
def recvSlotReset : RecvSlot := { granted := false, tag := none, busy := false }

/-- The spawn queues after reset. -/
def sqReset : Sq := { queues := [], writesOut := [], nextWrite := 0, arrivals := [] }

/-- An EMPTY slot (R326). -/
def vslotReset : VSlot :=
  { ver := none, state := 0, lrel := false, holdq := false, refs := 0, users := [], step := none, cmask := 0
    rmask := 0, pnmask := 0 }

/-- A parameter entry before START. -/
def wvEntryReset : WvEntry := { slots := [], cur := none, view := none, remap := none, waits := [] }

/-- The version store after reset. -/
def wvReset : Wv := { entries := [], tags := [], bufs := [], allocWait := [], useClock := 0 }

/-- A free accumulator buffer. -/
def upBufReset : UpBuf := { step := 0, st := 0, next := [], added := [] }

/-- An update entry before START. -/
def upEntryReset : UpEntry :=
  { t := 0, lastv := 0, b0 := upBufReset, b1 := upBufReset, parked := [], fused := [], hyper := 0, cf := 0x3F800000#32
    applied := 0 }

/-- The update path after reset. -/
def upReset : Up := { entries := [], clips := [], totals := [], clipStep := [], heldForCut := false }

/-- The collective engine after reset. -/
def ceReset : Ce :=
  { staging := [], matches_ := [], buckets := [], reads := [], nextIdx := 0, mcasts := [], pushedGot := []
    removed := [], digests := [] }

end Sys2Proof.Machine
end

