-- ==== Sys2Proof/Machine/StateHealth.lean ====
section
/-! DEFINITION. State of the health monitor and the snapshot engine (chapter 21) and of recovery (chapter 22). -/

namespace Sys2Proof.Machine

/-- Bytes of memory a cut holds (R580): kind, item, address (a job address for kinds 0x12 and 0x80, a device address
otherwise) and the bytes. -/
structure CutMem where
  kind : Nat
  item : Nat
  addr : Nat
  bytes : List Byte
  deriving DecidableEq, Repr

/-- A per-device cut (R578, R580, R587): its marker, its manifest, the records and the memory items. -/
structure Cut where
  step : Nat
  jobTag : Nat
  devid : Nat
  /-- The manifest's generation CRC, effective stepping and firmware version. -/
  genCrc : Nat
  stepping : Nat
  firmware : Nat
  ctxs : Tab Ctx
  sems : Tab Sem
  savedSems : Tab (Tab Sem)
  sq : Sq
  wv : Wv
  up : Up
  ledger : Tab LedgerEntry
  active : Tab (F32 × F32)
  idle : Tab (F32 × F32)
  torpor : Tab TorporSlot
  enableMap : Nat
  /-- `SupShadowTileCount` of every TU that has counted (R132). -/
  shadowCounts : Tab Nat
  rebuild : Nat
  roff : Nat
  seed : Nat
  dataBase : Nat
  dataPerStep : Nat
  ce : Ce
  ex : Ex
  mem : List CutMem
  deriving DecidableEq, Repr

/-- A slot of the drive (R587): the cut written to it and its directory's COMPLETE. -/
structure DriveCut where
  cut : Cut
  complete : Bool
  deriving DecidableEq, Repr

/-- The health monitor (R572 to R574). R, x and the armed levels are objects. -/
structure Hm where
  /-- Counter rows as they stood at the last boundary, by object key. -/
  last : Tab Nat
  /-- 1 ms intervals with a hot sensor since the boundary, and the sum of `HmExternal` writes. -/
  hot : Nat
  external : F32
  deriving DecidableEq, Repr

/-- Phases of a flush (R588). -/
inductive FlushPhase where
  | writing | syncing | verifying | directory
  deriving DecidableEq, Repr

/-- A flush to the drive: the cut, its slot, its phase and the segments left in it. -/
structure Flush where
  cut : Cut
  slot : Nat
  phase : FlushPhase
  left : Nat
  deriving DecidableEq, Repr

/-- The snapshot engine. -/
structure Sn where
  /-- The cut in the reserve whose hold has not ended. -/
  captured : Option Cut
  flush : Option Flush
  mirror : Option Cut
  /-- The hold in progress has raised 0x4C13 (R584). -/
  waited : Bool
  slot0 : Option DriveCut
  slot1 : Option DriveCut
  /-- The slot of the newest complete cut. -/
  newest : Option Nat
  /-- A restore in progress: its record (R589). -/
  restoring : Option Nat
  deriving DecidableEq, Repr

/-- The role a device takes under a recovery record (R603). -/
inductive Role where
  | chosen | failed | other | survivor
  deriving DecidableEq, Repr

/-- The recovery controller. `RcState`, the spare rows' states and the aliases are objects. -/
structure Rc where
  /-- The record that runs, its role here, and whether a survivor has begun its restore. -/
  active : Option (Nat × Role × Bool)
  queue : List Nat
  /-- Records that have ended here and wait for START to close them (R602). -/
  ended : List Nat
  /-- A dropped record left every device stopped at this cut (R611). -/
  stoppedAt : Option Nat
  /-- The row of the spare table the open records use, and the step their restore brought this device to. -/
  row : Nat
  restoredAt : Option Nat
  /-- The last step to replay in checked mode (R609). -/
  replay : Option Nat
  /-- Checked mode forced by the recovery (R607, R609). -/
  forced : Bool
  wedged : Bool
  deriving DecidableEq, Repr

/-- The health monitor after reset. -/
def hmReset : Hm := { last := [], hot := 0, external := 0#32 }

/-- The snapshot engine after reset; what the drive holds is outside the device and stays. -/
def snReset : Sn :=
  { captured := none, flush := none, mirror := none, waited := false, slot0 := none, slot1 := none, newest := none
    restoring := none }

/-- Recovery after reset. -/
def rcReset : Rc :=
  { active := none, queue := [], ended := [], stoppedAt := none, row := 0, restoredAt := none, replay := none
    forced := false, wedged := false }

end Sys2Proof.Machine
end

