-- ==== Sys2Proof/Syntax.lean ====
section
/-! DEFINITION. The commands of the HX9: one constructor per row of the command table, with its operands. -/

namespace Sys2Proof

/-- A command: a write or read of the device's registers, an operation of one of its protocols, or an event of one of its
units. -/
inductive Instr where
/-- R45. A TU takes a NOP command from its queue and does nothing. -/
  | tuNop (tu : Nat)
/-- R46. A TU executes an MMA command: it accumulates over K into the selected bank, with masking, replay scaling and
  optional shadow sampling. -/
  | mma (tu waited : Nat) (ecc : List (Nat × Bool))
/-- R42. A TU waits on the named full semaphores and then makes the other leapfrog half active. -/
  | swap (tu waited : Nat)
/-- R43. When the last read of a left half leaves the read pipeline, the TU signals that half's empty semaphores. -/
  | halfRelease (tu : Nat)
/-- R45. A TU takes a FENCE command and begins waiting for earlier MMAs and owed signals. -/
  | fence (tu : Nat)
/-- R113. A FENCE completes once every earlier MMA has drained, every empty signal is raised and no replay is
  outstanding. -/
  | fenceDone (tu : Nat)
/-- R53. A bank drains 128 descaled rows and a status word to the supervisor and vector chain, holding while the
  receiver is not ready. -/
  | tileDrain (tu bank held slotWait : Nat)
/-- R109. A replay slot frees and a drain held for lack of a slot resumes. -/
  | replaySlotFree (cluster : Nat)
/-- R123. The shadow unit finishes its sub-block and compares it with the drained values, logging and counting
  disagreements. -/
  | shadowCompare (cluster : Nat)
/-- R66. A write of 1 to a subsystem's counter-clear object clears its counters and raises its clear event. -/
  | counterClear (idx value : Nat)
/-- R98. A conversion report reaches a ledger entry's home, which folds its amax and flags. -/
  | conversionReport (entry : Nat) (amax : F32) (flags step : Nat)
/-- R104. Once both ledger engines have finished, both scale tables swap their active and idle copies at one instant.
  -/
  | scaleTableSwap
/-- R135. A write of 1 commands scale rebuild, at once when idle or at the next boundary. -/
  | scaleRebuildStart (value : Nat)
/-- R148. A vector chain pass opens on a drained tile or a memory block, is checked, and runs the element through all
  eight stages. -/
  | vcPass (vc src : Nat) (ecc : Bool) (mismatch held : Nat)
/-- R164. Once the fetch engine accepts a tile's last output write, the chain signals its write semaphore. -/
  | writeSemaphoreSignal (vc src : Nat)
/-- R187. A document start table reload completes and the held pass proceeds. -/
  | docTableLoaded (vc : Nat)
/-- R206. A near-memory cache fill lands and held writes to the line are applied in arrival order. -/
  | cacheFillLands (line : Nat)
/-- R245. A line read returns to a fetch engine, freeing one of its outstanding read slots. -/
  | lineReadReturn (ret : Machine.LineReturn)
/-- R225. A fault queue slot frees and a held faulting fetch engine posts its record. -/
  | faultQueueSlotFree (fe waited : Nat)
/-- R220. A write names a job address range whose cached translations are to be dropped; the reply is pending. -/
  | xlatInvalidate (addr len : Nat)
/-- R220. Every overlapping cached translation has been dropped and its accesses have taken effect, and the invalidate
  completes. -/
  | xlatInvalidateDone
/-- R226. A FID written to XlatResume frees its slot and the fetch engine translates again. -/
  | xlatResume (fid : Nat)
/-- R226. A FID written to XlatFail frees its slot, ends the descriptor without signal and stops the context. -/
  | xlatFail (fid : Nat)
/-- R721. A NOP descriptor becomes active after its wait, completes at once and signals in queue order. -/
  | fdNop (fe : Nat)
/-- R239. A LOAD becomes active and writes its elements into the idle operand store halves of the masked TUs. -/
  | fdLoad (fe : Nat) (reload : Bool)
/-- R723. A JOIN descriptor becomes active and feeds join values to the chain's join port. -/
  | fdJoin (fe : Nat)
/-- R282. A SRC descriptor becomes active and feeds one memory-sourced block to the chain. -/
  | fdSrc (fe : Nat)
/-- R236. A STORE descriptor becomes active and writes the chain's output port to memory. -/
  | fdStore (fe : Nat)
/-- R236. A COPY descriptor becomes active and copies memory to memory. -/
  | fdCopy (fe : Nat)
/-- R269. A DRAIN enters all four queues and blocks later descriptors until it completes. -/
  | fdDrain (fe : Nat)
/-- R722. A DRAIN's conditions all hold; it waits on EMPTYS and signals FULLS. -/
  | fdDrainDone (fe : Nat)
/-- R244. All writes of a descriptor take effect and it signals FULLS in queue order. -/
  | descriptorComplete (fe queue : Nat)
/-- R264. In paced mode a descriptor passes its DLN deadline incomplete and the miss is counted. -/
  | deadlineMiss (fe slot : Nat)
/-- R255. A signal adds its amount to a semaphore's count at the bank's settle. -/
  | semSignal (cluster num amount ctx : Nat)
/-- R255. A unit presents a wait of amount n on a semaphore of its cluster. -/
  | semWait (cluster num amount requester : Nat)
/-- R256. A blocked wait succeeds in arrival order once the count suffices, and the count is reduced. -/
  | semWaitSucceed (cluster num : Nat)
/-- R262. A wait blocked for SemLateCycles becomes late and is reported to the stage sequencer. -/
  | lateWait (cluster num : Nat)
/-- R280. A cluster sequencer issues a NOP program command. -/
  | progNop (cluster : Nat)
/-- R280. The sequencer issues a TU command word to each TU in TMASK, setting SHD and SHP unless SHOWN. -/
  | progTu (cluster : Nat)
/-- R280. The sequencer issues a fetch descriptor with register-adjusted addresses into the engine's queue. -/
  | progFd (cluster : Nat)
/-- R281. The sequencer opens a vector chain pass with slot, mask and position settings. -/
  | progPass (cluster : Nat)
/-- R280. The sequencer waits on a semaphore and issues nothing more until the wait succeeds. -/
  | progWait (cluster : Nat)
/-- R280. The sequencer signals a semaphore of any cluster. -/
  | progSig (cluster : Nat)
/-- R280. The sequencer sets an address register. -/
  | progSeta (cluster : Nat)
/-- R280. The sequencer adds a signed value to an address register modulo 2^48. -/
  | progAdda (cluster : Nat)
/-- R280. The sequencer opens a loop run count times. -/
  | progLoop (cluster : Nat)
/-- R280. The sequencer closes the innermost loop, repeating or leaving it. -/
  | progEndl (cluster : Nat)
/-- R287. The sequencer passes a switch point, where a pending switch may be made. -/
  | progYield (cluster : Nat)
/-- R341. A GATH asks the version store for the gathered parameter at the task's bound version. -/
  | progGath (cluster : Nat)
/-- R280. The sequencer issues a BKT for a bucket of the task. -/
  | progBkt (cluster : Nat)
/-- R284. An EMIT is issued and completes on its cluster when every earlier write of the task has taken effect. -/
  | progEmit (cluster : Nat)
/-- R280. The routine ends on this cluster. -/
  | progEnd (cluster : Nat)
/-- R284. When EMIT has completed on every cluster, the manager writes the outbound spawn entry. -/
  | emitComplete (task : Nat)
/-- R284. A task completes on all its clusters and its grants, references and records are released. -/
  | taskComplete (task : Nat)
/-- R286. A ready task is selected and dequeued for all clusters of its context, starting it. -/
  | taskDequeue (cluster held idle : Nat)
/-- R275. A context with a ready task is given a free frame, evicting a candidate if needed. -/
  | frameAssign (ctx waited : Nat)
/-- R276. A swap-in has read back the context record, semaphores, configuration table and mask descriptors. -/
  | swapInDone (ctx : Nat)
/-- R289. At a switch point the cluster fences, suspends and drains, saves the outgoing task and loads the incoming
  one. -/
  | taskSwitch (cluster : Nat)
/-- R295. START sets the step to SsStartStep and admits tasks, after the offset and generation checks. -/
  | jobStart
/-- R295. STOP makes the next step boundary end with the job idle. -/
  | jobStop
/-- R295. HALT stops every context and leaves the job halted. -/
  | jobHalt
/-- R293. A context reaches its step end and admits no further task. -/
  | stepEnd (ctx : Nat)
/-- R270. All contexts are at step end; DRAINs and FENCEs are placed on every engine and TU. -/
  | boundaryBegin
/-- R294. With drains done and step versions present, close_step, torpor tests, staged generation and table swap run.
  -/
  | boundaryWork
/-- R390. SsStep and ROFF become n + 1, counts reset and tasks of the next step are admitted. -/
  | stepAdvance (us : Nat)
/-- R294. The version wait of a boundary passes SsBoundaryTimeout and 0x8608 is raised. -/
  | boundaryTimeout
/-- R296. After a unit fault every unit has finished for the context, which becomes stopped with event 0x8603. -/
  | contextStopped (ctx : Nat)
/-- R502. A write sets, replaces or cancels the step whose closing boundary stops the job. -/
  | stopAtStep (step : Nat)
/-- R307. An arriving spawn entry is accepted, or discarded as duplicate, stale, misrouted or ahead of window. -/
  | sqEntryReceive (queue entry : Nat)
/-- R306. A spawn data write lands in a granted receive slot or is discarded. -/
  | sqDataWrite (queue tag addr src id : Nat) (bytes : List Byte)
/-- R304. A grant carrying a slot address arrives and is held for sending. -/
  | sqGrantReceive (ctx kind addr bytes : Nat)
/-- R314. A post forms a HEAD context forward entry for micro-batch k, or is refused. -/
  | sqPost (record : Nat)
/-- R312. A queue whose resident count fell to half refills from spill, oldest first. -/
  | spillRefill (queue : Nat)
/-- R327. A commit notice for a version is accepted, held in PNMASK or discarded, possibly completing the version. -/
  | commitNotice (entry version rank : Nat)
/-- R334. A release notice sets its rank's bit in RMASK. -/
  | releaseNotice (entry version rank : Nat)
/-- R334. With the slot released by every member, the molt engine drops the version's gathered copies. -/
  | molt (entry slot : Nat)
/-- R336. A molt finishes, the slot empties, PNMASK moves in and a waiting hand-over proceeds. -/
  | moltFinish (entry slot : Nat)
/-- R340. A view remap completes once every fetch engine has dropped its translations, and waiting GATHs are served.
  -/
  | viewRemapDone (entry waited : Nat)
/-- R345. A gather cache allocation that waited finds an evictable buffer and proceeds. -/
  | gcAllocate (entry waited : Nat)
/-- R341. A gather completes and the store signals every waiting gather-done semaphore. -/
  | gatherDone (entry version : Nat)
/-- R338. A write releases every tag record of a stopped context. -/
  | releaseContext (ctx : Nat)
/-- R358. A piece is added to its accumulator, parked, held or discarded by its place and step. -/
  | pieceReceive (piece : Machine.Piece) (waited : Nat)
/-- R361. When all conditions hold the apply begins, handing over the next version slot. -/
  | applyStart (entry waited : Nat)
/-- R325. The last element of the version copy is written; the slot becomes OWNDONE and a commit notice is sent. -/
  | applyDone (entry : Nat)
/-- R365. With a clip group's entries complete, the device total is formed and sent to the collective engine. -/
  | clipFactor (group : Nat)
/-- R386. A write fills COUNT elements with random values of one distribution while idle. -/
  | rngFill (record : Nat)
/-- R388. A fill completes or stops at an unusable page, and its reply is sent. -/
  | rngFillDone
/-- R389. A probe write makes the probe object return the generator block and draw at a position. -/
  | rngProbe (select : Nat)
/-- R404. A quad steps through signal detect, FEC lock, TRAIN exchange, credit set-up and first croak. -/
  | quadTrain (quad : Nat) (info : Machine.TrainInfo)
/-- R404. A quad not up within RelayTrainTimeout is down. -/
  | trainTimeout (quad : Nat)
/-- R434. A write retrains the named quads from step 1 of bring-up. -/
  | quadRetrain (mask : Nat)
/-- R434. A retrain that has not ended within 1 ms leaves the quad down. -/
  | retrainTimeout (quad : Nat)
/-- R409. A DATA flit is accepted, discarded as duplicate, or discarded with a NAK. -/
  | dataFlit (quad : Nat) (flit : Machine.DataFlit)
/-- R410. A CTRL flit delivers acknowledgements, NAKs and credits. -/
  | ctrlFlit (quad : Nat) (ack : Machine.FlitAck)
/-- R408. An IDLE flit's ack and credit fields are taken. -/
  | idleFlit (quad : Nat) (ack : Machine.FlitAck)
/-- R428. A CROAK arrives and the link hardware answers with a CROAK-REPLY. -/
  | croak (quad : Nat) (body : Machine.CroakBody)
/-- R432. A CROAK-REPLY answers a croak, updating peer state and checking its device ID. -/
  | croakReply (quad : Nat) (body : Machine.CroakBody)
/-- R433. A LANE-DROP flit names a new lane mask, which both ends switch to. -/
  | laneDrop (quad mask : Nat)
/-- R433. A lane loses lock or exceeds the symbol error threshold and a LANE-DROP is sent. -/
  | laneDropDetect (quad lane : Nat)
/-- R430. All active lanes of a quad lose signal and the quad becomes down. -/
  | laneSignalLoss (quad : Nat)
/-- R410. The 1 us acknowledgement interval expires with flits unacknowledged and an ack is sent. -/
  | ackTimer (quad : Nat)
/-- R411. The oldest unacknowledged flit sees no progress for 8 us and the sender replays. -/
  | replayTimeout (quad : Nat)
/-- R415. The 1 us credit return interval expires while credits are owed. -/
  | creditReturnTimer (quad : Nat)
/-- R417. A channel without credit past the stall limit raises 0x4912. -/
  | creditStall (quad vc ns : Nat)
/-- R428. Every 16 us an up quad sends a CROAK. -/
  | croakTimer (quad : Nat)
/-- R429. A croak reply window closes unanswered; the third miss makes the quad peer-lost. -/
  | croakWindowClose (quad : Nat)
/-- R423. A message header is buffered and the message is delivered locally or forwarded on a chosen quad. -/
  | messageRoute (quad vc : Nat)
/-- R462. An UNREACH ends the operation that sent the request, and the contexts concerned stop. -/
  | unreachReceive (header : Nat)
/-- R450. Once a BKT's earlier passes are accepted, the engine announces the bucket to every owning rank. -/
  | bucketHandoff (cluster : Nat)
/-- R449. A bucket's staging for a step and place is allocated, holding the pass when there is no room. -/
  | stagingAllocate (bucket step place waited : Nat)
/-- R456. An ANNOUNCE is accepted within its lap window and reads for the part are issued, or it is discarded. -/
  | announce (src bucket lap place fver : Nat)
/-- R461. A READ of a version slot or staged part is served with READ-DATA or an error status. -/
  | read (src rlap ridx space flow body : Nat)
/-- R459. READ-DATA matching an outstanding READ lands, or is discarded as stale. -/
  | readData (src rlap ridx status chunk : Nat) (bytes : List Byte)
/-- R452. When every rank's share of a chunk has landed, it is decoded, summed in rank order and delivered as pieces.
  -/
  | chunkFold (bucket step place chunk waited : Nat)
/-- R464. A multicast data message lands in a prefetch buffer and is forwarded to children. -/
  | mdata (src pid version origin off : Nat) (bytes : List Byte)
/-- R465. A child's cumulative acknowledgement frees retained multicast bytes. -/
  | mack (src pid version origin count : Nat)
/-- R466. A removed node reads its missing shard bytes from the origin by unicast. -/
  | fetch (src pid version origin : Nat)
/-- R466. The retention buffer stays full past CeLagLimit and the lagging child is removed. -/
  | autotomy (group us : Nat)
/-- R467. A CLIP total arrives, and when all ranks are in, Q and the clip factor are formed. -/
  | clip (src group lap : Nat) (total : F32)
/-- R481. A dispatch doorbell makes the exchange select experts, write assignments and send rows and counts. -/
  | dispatchDoorbell (layer waited : Nat)
/-- R486. A combine doorbell sends each counted expert output row back to its source rank. -/
  | combineDoorbell (layer : Nat)
/-- R484. Token rows arrive and land at ROFF or in the pending region. -/
  | expertRows (src layer : Nat) (bwd : Bool) (tag slot pos part : Nat) (bytes : List Byte) (waited : Nat)
/-- R485. A COUNT message from a rank arrives. -/
  | expertCount (src layer : Nat) (bwd : Bool) (tag : Nat) (counts : List Nat)
/-- R487. Result rows arrive, and each token whose results are all present gets its output row. -/
  | expertResult (src layer : Nat) (bwd : Bool) (tag slot pos part : Nat) (bytes : List Byte) (waited : Nat)
/-- R485. All counts and rows for a tag have landed and DND is signalled. -/
  | dispatchDone (layer : Nat) (bwd : Bool) (tag : Nat)
/-- R488. All output rows are written and results acknowledged, and DNC is signalled. -/
  | combineDone (layer : Nat) (bwd : Bool) (tag : Nat)
/-- R507. A host lane loses lock or alignment and the link goes down. -/
  | hpLinkDown
/-- R507. The host link finishes training again. -/
  | hpLinkUp
/-- R510. A class 0 or 1 frame enters the management queue, or is discarded when it is full. -/
  | mgmtQueueFrame (cls src : Nat) (payload : List Byte)
/-- R509. An ARP or neighbour solicitation for the device's address is answered. -/
  | arpRequest (v6 : Bool) (target requester : Nat)
/-- R516. An RDMA WRITE is key-checked, translated and applied, or refused with a NAK. -/
  | rdmaWrite (qp op psn va rkey len : Nat) (bytes : List Byte) (ce : Bool)
/-- R516. An RDMA READ is key-checked, translated and answered, or refused with a NAK. -/
  | rdmaRead (qp psn va rkey len busy : Nat) (ce : Bool)
/-- R518. An ACK or NAK arrives for a queue pair and advances or retransmits. -/
  | rdmaAck (qp kind psn : Nat)
/-- R517. A read response for a host window READ lands. -/
  | readResponse (qp psn : Nat) (bytes : List Byte) (ce : Bool)
/-- R513. A CNP halves the queue pair's transmit rate. -/
  | cnpReceive (qp : Nat)
/-- R513. 55 us without a CNP raises the queue pair's rate by 1/16 of the link rate. -/
  | rateIncrease (qp : Nat)
/-- R518. A queue pair's ACK timeout expires and it retransmits go-back-N or enters error. -/
  | retransmitTimeout (qp : Nat)
/-- R512. A PFC pause halts transmission of classes on that priority. -/
  | pfcPause (prio quanta : Nat)
/-- R512. Every half quanta period above the mark the port sends the pause again. -/
  | pfcPauseRefresh (prio used : Nat)
/-- R512. A transmit pause passes HpPfcStormUs and 0x4B07 is raised. -/
  | pfcStorm (prio : Nat)
/-- R519. A write returns a queue pair to ready with its IPSN and drops outstanding work. -/
  | qpReset (qp : Nat)
/-- R520. A Sync message is timestamped and used to measure offset. -/
  | ptpSync (domain src seq : Nat) (twoStep : Bool) (origin rx : Nat)
/-- R520. A Follow_Up supplies the two-step Sync origin time. -/
  | ptpFollowUp (domain src seq origin : Nat)
/-- R520. A Delay_Resp completes a path delay measurement and the clock is stepped or slewed. -/
  | ptpDelayResp (domain src seq t4 : Nat)
/-- R520. An Announce feeds the best time transmitter choice. -/
  | ptpAnnounce (domain : Nat) (dataset : List Nat)
/-- R522. Three Announce intervals pass without the time transmitter and the clock enters holdover. -/
  | ptpAnnounceTimeout
/-- R539. At each 1 us tick the controller takes queued requests and serves them by precedence. -/
  | syseridTick (info : Machine.OpInfo)
/-- R536. A READ operation returns an object's value in force. -/
  | syseridRead (node seq idx sub : Nat)
/-- R529. A READ-STAGED operation returns the staged value or the value in force. -/
  | syseridReadStaged (node seq idx sub : Nat)
/-- R529. A WRITE to an object without its own row stages, applies or refuses the value by access right. -/
  | syseridWrite (node seq idx sub len value : Nat) (info : Machine.OpInfo)
/-- R543. A pending operation ends and a COMPLETE frame with its result is sent. -/
  | pendingComplete (ticket : Nat)
/-- R543. An unacknowledged COMPLETE is sent again after 100 us. -/
  | completeResend (ticket : Nat)
/-- R543. An ACK acknowledges every COMPLETE sent for its request. -/
  | ackComplete (node seq : Nat)
/-- R543. A pending operation shows no progress for SyStallTimeout and completes WEDGED. -/
  | stallTimeout (ticket seqIdle feHeld : Nat)
/-- R549. A subscriber acknowledges events up to an ESEQ and delivery continues. -/
  | ackEvents (row eseq : Nat)
/-- R549. 200 us without progress resends events, stalling the subscriber after 16 resends. -/
  | eventResend (row : Nat)
/-- R549. A stalled subscriber is tried again every 100 ms. -/
  | subscriberRetry (row : Nat)
/-- R555. A write runs the combined consistency check on the staging set. -/
  | genCheck (value : Nat)
/-- R556. A consistency check finishes and GenCheckResult is written. -/
  | genCheckDone
/-- R558. A commit with WHEN now is checked and applied between ticks while idle. -/
  | commitNow (record : Nat)
/-- R561. A commit is armed to apply at the boundary that closes step AT. -/
  | commitAtBoundary (record : Nat)
/-- R560. A commit is armed to apply at PTP time AT. -/
  | commitAtTime (record : Nat)
/-- R566. A rollback to the previous generation's values is checked and applied now. -/
  | rollbackNow (record : Nat)
/-- R566. A rollback is armed for the boundary that closes step AT. -/
  | rollbackAtBoundary (record : Nat)
/-- R566. A rollback is armed for PTP time AT. -/
  | rollbackAtTime (record : Nat)
/-- R564. A write discards the armed generation, returning its records to staging. -/
  | genCancel (value : Nat)
/-- R554. A write empties the staging set. -/
  | stageDiscard (value : Nat)
/-- R561. PTP time reaches AT and the armed generation is re-checked and applied. -/
  | armedTimeApply
/-- R567. Storing a generation in boot flash completes or fails. -/
  | genStoreDone (ok : Bool)
/-- R572. A write adds a value to the external risk input. -/
  | hmExternal (value : Nat)
/-- R575. A write sets, keeps the earlier of, or cancels the pending cut step. -/
  | cutAtStep (step : Nat)
/-- R583. At boundary step 5, after any earlier flush ends, the engine copies every item into the reserves. -/
  | cutCapture
/-- R584. The last item is in the reserve, the hold ends and the flush begins. -/
  | captureDone (us : Nat)
/-- R586. An NVMe command completion advances the flush, verify or restore. -/
  | nvmeCompletion (ok : Bool)
/-- R588. The directory block write completes and the cut is complete on the drive. -/
  | cutComplete (ok : Bool)
/-- R597. The mirror copy of a cut finishes writing its directory block, or fails. -/
  | mirrorDone (ok : Bool)
/-- R589. A write starts restoring a cut from the drive or a host window while idle. -/
  | snRestore (record : Nat)
/-- R591. The restore writes every kind and sets SsStartStep to S + 1. -/
  | restoreDone (image : Option Machine.Cut) (bad : List (Nat × Nat × Bool))
/-- R600. A recovery record is accepted, queued or refused. -/
  | rcRecover (record : Nat)
/-- R602. A recovery record starts on a device, choosing a spare and the device's role. -/
  | recordStart
/-- R607. Once the spare carries the failed device's ID, it retrains and restores through the mirror window. -/
  | axolotlFill
/-- R612. A write declares the device wedged. -/
  | wedgeCapture (value seqIdle feHeld : Nat)
/-- R612. The fabric probe goes unanswered for 10 ms and the device becomes wedged. -/
  | fabricProbeTimeout (seqIdle feHeld : Nat)
/-- R620. A scrubber interval expires and one line is read, corrected words written back. -/
  | scrubLine (unit : Nat) (upsets : List Machine.Upset)
/-- R628. A write selects a unit's polynomial and fold and resets its running value. -/
  | cvConfig (unit value : Nat)
/-- R629. One byte is fed into a check-value unit. -/
  | cvFeed8 (value : Nat)
/-- R629. A half-word is fed into a check-value unit. -/
  | cvFeed16 (value : Nat)
/-- R629. A word is fed into a check-value unit. -/
  | cvFeed32 (value : Nat)
/-- R630. A write starts a scan of device memory into a unit. -/
  | cvScan (record : Nat)
/-- R631. A scan folds its last byte, or stops at an uncorrectable word with ERR. -/
  | cvScanDone (unit : Nat)
/-- R632. A unit applies its fold and final XOR, writes the result and resets. -/
  | cvFinish (unit : Nat)
/-- R634. A write loads a unit's running state and clears ERR. -/
  | cvStateLoad (unit value : Nat)
/-- R639. Privileged code writes a compare channel's unit or EXPECT. -/
  | cvCompareSet (channel value : Nat)
/-- R649. A write blows a root key slot's revocation fuse. -/
  | revokeKey (slot : Nat)
/-- R650. A write raises the rollback floor by blowing fuses. -/
  | rollbackCommit (value good : Nat)
/-- R651. A write erases an image region. -/
  | flashErase (image : Nat)
/-- R651. A write programs data into an image region. -/
  | flashWrite (bytes : List Byte)
/-- R651. A write applies the boot checks to an image region. -/
  | imageVerify (image : Nat)
/-- R651. A write sets the preferred image in the older boot record copy. -/
  | bootPrefer (image : Nat)
/-- R651. An erase, program, verify or boot record write on the flash completes. -/
  | flashOperationDone (region : Nat) (ok : Bool)
/-- R654. A nonce write forms and signs a new attestation report. -/
  | attestNonce (nonce : Nat)
/-- R655. A signed JTAG challenge answer unlocks debug and disables the identity keys. -/
  | debugUnlock (slot : Nat) (ok : Bool)
/-- R666. A REQ frame of request records arrives over the tandem bridge. -/
  | bridgeReq (dir bundle seq ord : Nat) (recs : List Machine.BridgeReq) (ok : Bool)
/-- R666. A WDATA frame delivers write data for a REQ record. -/
  | bridgeWdata (dir bundle seq ord tag : Nat) (data : Machine.BridgeData) (ok : Bool)
/-- R666. A SIG frame delivers semaphore signals, ledger reports and notices. -/
  | bridgeSig (dir bundle seq ord : Nat) (recs : List Machine.BridgeSig) (ok : Bool)
/-- R666. An RDATA frame delivers tagged read data. -/
  | bridgeRdata (dir bundle seq ord tag : Nat) (data : Machine.BridgeData) (ok : Bool)
/-- R666. A WACK frame delivers write completions. -/
  | bridgeWack (dir bundle seq ord : Nat) (tags : List Nat) (ok : Bool)
/-- R668. An ACK frame acknowledges bundles, returns credits and triggers replays on NAK. -/
  | bridgeAck (dir bundle : Nat) (words : List (Nat × Bool)) (credReq credRsp : Nat) (ok : Bool)
/-- R668. Every 16 fabric cycles with frames unacknowledged a half sends an ACK frame. -/
  | bridgeAckTimer (dir : Nat)
/-- R675. A bundle retrain ends, reassigning wires or disabling the bundle. -/
  | bundleRetrainDone (dir bundle : Nat) (fails : List Nat) (ctl : Bool) (seqIdle feHeld : Nat)
/-- R685. The input monitor samples voltage and current every 1 us. -/
  | inputSample (millivolts milliamps : Nat)
/-- R686. The input below 38.0 V for 5 us stops every unit and holds reset. -/
  | powerFail
/-- R686. The input at or above 39.0 V for 10 ms causes a power-fail recovery reset. -/
  | powerRestore
/-- R687. The input above 52.0 V for 5 us trips the device. -/
  | overvoltageTrip
/-- R689. Every 100 us the power duty is lowered or raised by one sixteenth. -/
  | dutyAdjust
/-- R690. Every 10 us the die sensors are read and the thermal duty adjusted. -/
  | sensorSample (temps : List F32)
/-- R692. A sensor at 115 C asserts THERMTRIP_N and powers down the core rails. -/
  | thermalTrip
/-- R696. A reference input shows no edge for 1 us and is declared lost. -/
  | refclkLoss (which seqIdle feHeld : Nat)
/-- R696. A PLL loses lock with the effect its domain gives. -/
  | pllUnlock (which seqIdle feHeld : Nat)
/-- R712. RESET_N low for 1 us or more resets the device. -/
  | pinReset
/-- R700. A write of 1 requests a device reset after the tick's replies. -/
  | resetCommand (value : Nat)
/-- R700. 100 us after a reset command the reset takes effect. -/
  | resetTakeEffect
/-- R698. The management watchdog is not serviced in time and the device resets. -/
  | watchdogExpiry
/-- R701. A start-up step passes and the next one begins. -/
  | startupStep (info : Machine.StartInfo)
/-- R701. A start-up step exceeds its budget and fails. -/
  | startupTimeout (us unit : Nat)
/-- R703. Far memory initialisation completes on every site and scrubbing starts. -/
  | farInitDone
/-- R715. The BYPASS instruction selects the one-bit bypass register. -/
  | jtagBypass
/-- R716. The IDCODE instruction shifts out the device identification register. -/
  | jtagIdcode
/-- R715. SAMPLE/PRELOAD samples the 1.8 V CMOS lands and loads the output cells. -/
  | jtagSamplePreload (lands cells : Nat)
/-- R717. EXTEST drives the output cells onto the lands while RESET_N is low. -/
  | jtagExtest (lands : Nat)
/-- R715. EXTEST_PULSE runs the IEEE 1149.6 pulse test of the AC-coupled lanes. -/
  | jtagExtestPulse (lands : Nat)
/-- R715. EXTEST_TRAIN runs the IEEE 1149.6 train test of the AC-coupled lanes. -/
  | jtagExtestTrain (lands : Nat)
/-- R306. A Relay WRITE-DONE response arrives at the sender, telling it that spawn data writes have taken effect at
  the receiver, so EMIT may complete and the entry be sent. -/
  | writeDone (ctx id : Nat)
/-- R276. A context swap-out finishes writing its record and semaphore words to the spill region, freeing the frame
  for the waiting context. -/
  | swapOutDone (ctx : Nat)
/-- R698. The 44 V input rises past 39.0 V with both references active for 1 ms, and the device performs a power-on
  reset with cause 1. -/
  | powerOnReset
/-- R698. RESET_N rises after being held low, releasing the device from reset into start-up step 1 and returning
  EXTEST lands to functional control. -/
  | resetNRelease
/-- R512. The quanta of a received IEEE 802.1Qbb pause run out and transmission on that priority resumes. -/
  | pauseQuantaExpiry (prio : Nat)
/-- R509. A received host-port frame that matches no classification row is discarded and counted in HpRxDiscarded. -/
  | unmatchedFrame
  deriving DecidableEq, Repr

end Sys2Proof
end

