-- ==== Sys2Proof/Decode.lean ====
section
/-! DEFINITION. Commands from words. The HX9's command table gives its rows no bits: no word spells a command. -/

namespace Sys2Proof

/-- The command a word spells by the table's bits: none, for no row has bits. DESIGN CHOICE, log 4. -/
def decodeTableWord (_nbits _w : Nat) : Option Instr := none

end Sys2Proof
end

