-- ==== Sys2Proof/Machine/Random.lean ====
section
/-! DEFINITION. The generator of the random units (R380 to R382): Philox-4×32-10. -/

namespace Sys2Proof.Machine

/-- A counter or output of four 32-bit words. -/
structure Quad32 where
  x0 : Nat
  x1 : Nat
  x2 : Nat
  x3 : Nat
  deriving DecidableEq, Repr

/-- The rounds of R380: `n` rounds left, key `(k0, k1)`. -/
def philoxRounds : Nat → Quad32 → Nat → Nat → Quad32
  | 0, c, _, _ => c
  | n + 1, c, k0, k1 =>
    let p0 := 0xd2511f53 * c.x0
    let p1 := 0xcd9e8d57 * c.x2
    philoxRounds n ⟨(p1 >>> 32) ^^^ c.x1 ^^^ k0, p1 % 2 ^ 32, (p0 >>> 32) ^^^ c.x3 ^^^ k1, p0 % 2 ^ 32⟩
      ((k0 + 0x9e3779b9) % 2 ^ 32) ((k1 + 0xbb67ae85) % 2 ^ 32)

/-- Key and counter of R381 from the seed, stream, step and block index. -/
def rngBlock (seed stream step b : Nat) : Quad32 :=
  philoxRounds 10 ⟨b % 2 ^ 32, fld b 46 45 * 2 ^ 25 + (stream % 4096) * 2 ^ 13 + fld b 44 32, step % 2 ^ 32,
    fld step 63 32⟩ (seed % 2 ^ 32) (fld seed 63 32)

/-- The output as one 128-bit value, x0 lowest (R382). -/
def quadVal (q : Quad32) : Nat := q.x0 + q.x1 * 2 ^ 32 + q.x2 * 2 ^ 64 + q.x3 * 2 ^ 96

/-- Word `i` of a block. -/
def quadWord (q : Quad32) (i : Nat) : Nat := fld (quadVal q) (32 * i + 31) (32 * i)

/-- The 16-bit draw at a 48-bit position (R382). -/
def draw16 (seed stream step p : Nat) : Nat :=
  let q := p % 2 ^ 48
  fld (quadVal (rngBlock seed stream step (q >>> 3))) (16 * (q % 8) + 15) (16 * (q % 8))

end Sys2Proof.Machine
end

