-- ==== Sys2Proof/Machine/Crc.lean ====
section
/-! DEFINITION. The CRCs of the check-value units (R627) and the CRC-32C of a Relay flit (R406, R407). -/

namespace Sys2Proof.Machine

/-! ### The CRCs (R627) -/

/-- Width, polynomial, reflected, initial value and final XOR of a POLY. -/
structure Poly where
  width : Nat
  poly : Nat
  refl : Bool
  init : Nat
  xorOut : Nat
  deriving DecidableEq, Repr

/-- R627. A reflected polynomial is written with its bits reversed. -/
def polyOf : Nat → Poly
  | 0 => { width := 32, poly := 0xEDB88320, refl := true, init := 0xFFFFFFFF, xorOut := 0xFFFFFFFF }
  | 1 => { width := 32, poly := 0x82F63B78, refl := true, init := 0xFFFFFFFF, xorOut := 0xFFFFFFFF }
  | 2 => { width := 64, poly := 0x42F0E1EBA9EA3693, refl := false, init := 0, xorOut := 0 }
  | _ => { width := 16, poly := 0x1021, refl := false, init := 0xFFFF, xorOut := 0 }

/-- One bit step of a CRC. -/
def crcBit (p : Poly) (r : Nat) : Nat :=
  if p.refl then (if r % 2 = 1 then (r / 2) ^^^ p.poly else r / 2)
  else if 2 ^ (p.width - 1) ≤ r then (r * 2 % 2 ^ p.width) ^^^ p.poly
  else r * 2

/-- One byte into a CRC. -/
def crcByte (p : Poly) (r : Nat) (b : Byte) : Nat :=
  let r1 := if p.refl then r ^^^ b.toNat else r ^^^ (b.toNat * 2 ^ (p.width - 8))
  (List.range 8).foldl (fun x _ => crcBit p x) r1

/-- Bytes into a CRC. -/
def crcBytes (p : Poly) (r : Nat) (bs : List Byte) : Nat := bs.foldl (crcByte p) r

/-- A whole CRC of bytes. -/
def crcOf (p : Poly) (bs : List Byte) : Nat := crcBytes p p.init bs ^^^ p.xorOut

/-! ### Flits (R406, R407) -/

/-- The 96 header bits of a flit, bits [2047:1952] (R406): type, stream, SEQ, the acknowledgement and credit fields, FVC and
MSGOFF. -/
def flitHeader (ftype stream seq : Nat) (a : FlitAck) (fvc msgoff : Nat) : Nat :=
  ftype % 16 * 2 ^ 92 + stream % 16 * 2 ^ 88 + seq % 4096 * 2 ^ 76 + a.astream % 16 * 2 ^ 72 + a.aseq % 4096 * 2 ^ 60 +
    a.nak.toNat * 2 ^ 59 + a.avalid.toNat * 2 ^ 58 + a.cvc % 4 * 2 ^ 56 + a.credit % 8192 * 2 ^ 43 + fvc % 4 * 2 ^ 41 +
    msgoff % 16 * 2 ^ 37

/-- The CRC-32C over bytes 0 to 251 of a flit: its header, then its payload of fifteen 16 B units, the first unit in the
highest bits (R407). DEDUCED, log 98. -/
def flitCrc (header : Nat) (units : List Nat) : Nat :=
  crcOf (polyOf 1) (beBytes 12 header ++ ((List.range 15).flatMap (fun i => beBytes 16 (units.getD i 0))))

/-- The flit passes: it overlaps no uncorrectable codeword (R400), and its CRC is that of the bytes that came (R409). -/
def flitOk (f : DataFlit) : Bool :=
  f.fec && f.crc == flitCrc (flitHeader 1 f.stream f.seq f.ack f.fvc f.msgoff) f.units

end Sys2Proof.Machine
end

