-- ==== Sys2Proof/Config.lean ====
section
/-! DEFINITION. What one HX9 fixes and the manual does not: free values and functions. Each is opaque, so no
proof can see a value of it and every statement holds whatever it is. Each is named in the assumption log. -/

namespace Sys2Proof

/-- The drained value of a live position of a tile that read an uncorrectable word (R65), by draw and
position. DESIGN CHOICE, log 1. -/
opaque Config.ueTileValue : Nat → Nat → F32

/-- The shadow unit's sum of FP32 products, in an order of its own (R120). DESIGN CHOICE, log 15. -/
opaque Config.shadowSum : List F32 → F32

/-- Which word within the bound of R150 or R387 a function gives: by the function's FUNC code (15 for the cosine of
`RngFill`) and its operands. DESIGN CHOICE, log 19. -/
opaque Config.funcPick : Nat → F32 → F32 → Nat

/-- x · GELUT′(j) (code 12) and x · SILU′(j) (code 13) at an infinite operand, which R149 to R151 do not state.
DESIGN CHOICE, log 19. -/
opaque Config.funcAtInf : Nat → F32 → F32 → F32

/-- The E8M0 scale of an MX block a pass reads from memory or joins: the spec does not say where the chain reads
it (R82, R143, R282). By draw and block number. DESIGN CHOICE, log 18. -/
opaque Config.portScale : Nat → Nat → Nat

/-- A byte of near memory that changed between scratch and cache and was not written since (R207): by draw and device
address. -/
opaque Config.swappedByte : Nat → Nat → Byte

/-- The bytes of the device region past the ledger homes, by draw and device address: working structures whose contents R197
does not give. DESIGN CHOICE, log 21. -/
opaque Config.deviceByte : Nat → Nat → Byte

/-- The values of a record fold over a record that is not of MAXSUM form (R180), by draw and row. -/
opaque Config.badRecord : Nat → Nat → F32 × F32

/-- Byte of the 512 B context record that a swap-out writes, whose layout the manual does not give (R276): by draw and
place. DESIGN CHOICE, log 40. -/
opaque Config.contextRecord : Nat → Nat → Byte

/-- Two requests of one queue to one line fall within `FeMergeWindow` fabric cycles of one another (R251), by draw.
DESIGN CHOICE, log 89. -/
opaque Config.inMergeWindow : Nat → Bool

/-- The frequency correction a measured offset leads to, within 100 ppm (R522): by draw, in parts per 10^9 above
−100,000, taken modulo 200,001. DESIGN CHOICE, log 52. -/
opaque Config.ptpSlew : Nat → Nat

/-- The check identifier that the device description file lists for a rule (R556). DESIGN CHOICE, log 55. -/
opaque Config.checkId : Nat → Nat

/-- The device description file marks a G-class object T: it may take effect at a PTP time (R559).
DESIGN CHOICE, log 55. -/
opaque Config.timeMark : Nat → Bool

/-- Bytes of a record segment of a cut, whose encoding the manual does not give (R580, R587), by the cut's step and the
segment. -/
opaque Config.recordBytes : Nat → Nat → Nat

/-- SHA-256 of bytes, and ECDSA P-256 verification of a signature under a public key over bytes: standards the manual
names and does not repeat (R644, R645). DESIGN CHOICE, log 22. -/
opaque Config.sha256 : List Byte → Nat
opaque Config.ecdsaOk : Nat → List Byte → Nat → Bool

/-- Secrets of the device: the signature of a report under the alias key of a measurement, that key's public half and
its certificate (R653, R654). -/
opaque Config.aliasSign : Nat → List Byte → Nat
opaque Config.aliasPub : Nat → Nat
opaque Config.aliasCert : Nat → Nat

/-- The debug challenge, new at each reset (R655), by draw. -/
opaque Config.challenge : Nat → Nat

/-- The version nibble of IDCODE for a stepping other than A1 and B0 (R716). -/
opaque Config.idcodeNibble : Nat → Nat

end Sys2Proof
end

