-- ==== Sys2Proof/Machine/Objects.lean ====
section
/-! DEFINITION. The object dictionary's tables (chapter 19 and the object table of every chapter): index,
subindex rows, access right, value bytes, default and commit class of each of the 507 objects. -/

namespace Sys2Proof.Machine

/-- Access rights (R529). -/
inductive Access where
  | ro | rw | rs | wo | const
  deriving DecidableEq, Repr

/-- Commit classes (R530). -/
inductive CommitClass where
  | i | g | j | p
  deriving DecidableEq, Repr

/-- One row of an object table: subindices `lo` to `hi`, `bytes` per value (R527). -/
structure ObjRow where
  idx : Nat
  lo : Nat
  hi : Nat
  acc : Access
  bytes : Nat
  isBool : Bool
  dflt : Nat
  cls : CommitClass
  deriving DecidableEq, Repr

/-- A row in short form. -/
abbrev row (idx lo hi : Nat) (acc : Access) (bytes : Nat) (isBool : Bool) (dflt : Nat) (cls : CommitClass) :
    ObjRow := { idx, lo, hi, acc, bytes, isBool, dflt, cls }

/-- Rows 0x1000 to 0x2031 of the object tables. -/
def objRows00 : List ObjRow := [
  row 0x1000 0 0 .const 16 false 0x6874696c6f6c50 .p,
  row 0x1001 0 0 .const 16 false 0x395848207261746e6548 .p,
  row 0x1002 0 0 .const 32 false 0x0 .p,
  row 0x1003 0 0 .const 32 false 0x0 .p,
  row 0x1004 0 0 .ro 1 false 0x0 .p,
  row 0x1005 1 2 .ro 1 false 0x0 .p,
  row 0x1006 0 0 .ro 4 false 0x0 .p,
  row 0x1007 0 0 .ro 1 false 0x0 .p,
  row 0x1008 0 0 .ro 32 false 0x0 .p,
  row 0x1009 0 0 .const 1 false 0x1 .p,
  row 0x100a 0 0 .ro 8 false 0x0 .i,
  row 0x1100 0 0 .const 1 false 0x40 .p,
  row 0x1101 0 0 .const 2 false 0x400 .p,
  row 0x1102 0 0 .rs 4 false 0x186a0 .g,
  row 0x1103 0 0 .ro 1 false 0x0 .i,
  row 0x1110 0 0 .ro 8 false 0x0 .i,
  row 0x1111 0 0 .ro 4 false 0x0 .i,
  row 0x1112 0 0 .ro 4 false 0x0 .i,
  row 0x1113 0 0 .ro 4 false 0x0 .i,
  row 0x1114 0 0 .ro 4 false 0x0 .i,
  row 0x1115 0 0 .ro 4 false 0x0 .i,
  row 0x1120 1 4 .rw 32 false 0x0 .i,
  row 0x1121 0 0 .ro 4 false 0x0 .i,
  row 0x1122 0 0 .rw 4 false 0x0 .i,
  row 0x1123 0 0 .ro 32 false 0x0 .i,
  row 0x1124 0 0 .ro 4 false 0x0 .i,
  row 0x1125 1 4 .ro 8 false 0x0 .i,
  row 0x1130 0 0 .wo 1 false 0x0 .i,
  row 0x2000 0 0 .ro 4 false 0x0 .i,
  row 0x2001 0 0 .ro 4 false 0x0 .i,
  row 0x2002 0 0 .ro 4 false 0x0 .i,
  row 0x2003 0 0 .const 4 false 0x1000000 .p,
  row 0x2010 0 0 .ro 4 false 0x0 .i,
  row 0x2011 0 0 .ro 4 false 0x0 .i,
  row 0x2012 0 0 .ro 8 false 0x0 .i,
  row 0x2013 0 0 .wo 1 false 0x0 .i,
  row 0x2020 0 0 .wo 1 false 0x0 .i,
  row 0x2021 0 0 .ro 32 false 0x0 .i,
  row 0x2030 0 0 .wo 32 false 0x0 .i,
  row 0x2031 0 0 .wo 1 false 0x0 .i]

/-- Rows 0x2032 to 0x4050 of the object tables. -/
def objRows01 : List ObjRow := [
  row 0x2032 0 0 .wo 32 false 0x0 .i,
  row 0x2033 0 0 .ro 32 false 0x0 .i,
  row 0x2040 0 0 .rw 4 false 0x0 .i,
  row 0x2050 1 16 .ro 24 false 0x0 .i,
  row 0x2060 1 2 .ro 8 false 0x0 .i,
  row 0x3000 0 0 .const 1 false 0x80 .p,
  row 0x3001 0 0 .const 4 false 0x800040 .p,
  row 0x3002 0 0 .const 4 false 0x100000 .p,
  row 0x3003 0 0 .const 1 false 0x40 .p,
  row 0x3004 0 0 .ro 1 true 0x0 .p,
  row 0x3010 0 0 .rs 2 false 0x1fff .g,
  row 0x3011 0 0 .rs 4 false 0x3e8 .g,
  row 0x3020 1 128 .ro 8 false 0x0 .i,
  row 0x3021 1 128 .ro 8 false 0x0 .i,
  row 0x3022 1 128 .ro 8 false 0x0 .i,
  row 0x3023 1 128 .ro 8 false 0x0 .i,
  row 0x3024 1 128 .ro 4 false 0x0 .i,
  row 0x3025 1 128 .ro 4 false 0x0 .i,
  row 0x3026 1 128 .ro 4 false 0x0 .i,
  row 0x3030 0 0 .wo 1 false 0x0 .i,
  row 0x4000 0 0 .const 1 false 0x10 .p,
  row 0x4001 0 0 .const 2 false 0x200 .p,
  row 0x4002 0 0 .const 2 false 0x100 .p,
  row 0x4003 0 0 .ro 1 true 0x0 .i,
  row 0x4004 0 0 .rs 1 true 0x0 .g,
  row 0x4010 0 0 .rw 2 false 0x0 .i,
  row 0x4011 0 0 .ro 32 false 0x0 .i,
  row 0x4020 1 16 .ro 8 false 0x0 .i,
  row 0x4021 1 16 .ro 8 false 0x0 .i,
  row 0x4022 1 16 .ro 8 false 0x0 .i,
  row 0x4023 1 16 .ro 8 false 0x0 .i,
  row 0x4024 1 16 .ro 4 false 0x0 .i,
  row 0x4025 1 16 .ro 4 false 0x0 .i,
  row 0x4026 1 16 .ro 4 false 0x0 .i,
  row 0x4027 1 16 .ro 4 false 0x0 .i,
  row 0x4028 1 16 .ro 4 false 0x0 .i,
  row 0x4029 1 16 .ro 4 false 0x0 .i,
  row 0x4030 0 0 .rs 1 false 0xb .g,
  row 0x4040 0 0 .wo 1 false 0x0 .i,
  row 0x4050 0 0 .const 4 false 0x100000 .p]

/-- Rows 0x4051 to 0x5060 of the object tables. -/
def objRows02 : List ObjRow := [
  row 0x4051 0 0 .const 1 false 0x10 .p,
  row 0x4052 0 0 .const 1 false 0x10 .p,
  row 0x4053 0 0 .rw 2 false 0x0 .i,
  row 0x4054 0 0 .ro 32 false 0x0 .i,
  row 0x4055 0 0 .rs 1 false 0x3 .g,
  row 0x4060 1 16 .ro 8 false 0x0 .i,
  row 0x4061 1 16 .ro 8 false 0x0 .i,
  row 0x4062 1 16 .ro 8 false 0x0 .i,
  row 0x4063 1 16 .ro 8 false 0x0 .i,
  row 0x4064 1 16 .ro 8 false 0x0 .i,
  row 0x4065 1 16 .ro 8 false 0x0 .i,
  row 0x4070 0 0 .wo 1 false 0x0 .i,
  row 0x5000 0 0 .const 4 false 0x10000 .p,
  row 0x5001 0 0 .const 2 false 0x1000 .p,
  row 0x5002 0 0 .const 1 false 0x4 .p,
  row 0x5003 0 0 .ro 1 true 0x0 .i,
  row 0x5010 0 0 .rw 2 false 0x0 .i,
  row 0x5011 0 0 .ro 160 false 0x0 .i,
  row 0x5012 0 0 .rs 34 false 0x0 .g,
  row 0x5020 0 0 .rs 1 true 0x1 .g,
  row 0x5021 0 0 .rs 2 false 0x20 .g,
  row 0x5022 0 0 .ro 2 false 0x0 .i,
  row 0x5023 0 0 .wo 1 false 0x0 .i,
  row 0x5030 0 0 .rs 1 false 0x6 .g,
  row 0x5031 0 0 .rs 1 false 0x0 .g,
  row 0x5032 0 0 .rs 1 false 0x3 .g,
  row 0x5033 1 128 .ro 8 false 0x0 .i,
  row 0x5034 1 128 .ro 4 false 0x0 .i,
  row 0x5035 1 16 .ro 32 false 0x0 .i,
  row 0x5036 1 128 .ro 4 false 0x0 .i,
  row 0x5040 1 3 .ro 8 false 0x0 .i,
  row 0x5041 0 0 .ro 8 false 0x0 .i,
  row 0x5042 0 0 .ro 8 false 0x0 .i,
  row 0x5043 0 0 .ro 8 false 0x0 .i,
  row 0x5050 0 0 .rs 4 false 0xf3e58 .g,
  row 0x5051 0 0 .rs 2 false 0x40 .g,
  row 0x5052 0 0 .rw 2 false 0x0 .i,
  row 0x5053 0 0 .ro 24 false 0x0 .i,
  row 0x5054 0 0 .rs 512 false 0x0 .g,
  row 0x5060 0 0 .ro 4 false 0x0 .i]

/-- Rows 0x5070 to 0x6802 of the object tables. -/
def objRows03 : List ObjRow := [
  row 0x5070 0 0 .wo 1 false 0x0 .i,
  row 0x6000 0 0 .const 1 false 0x40 .p,
  row 0x6001 0 0 .const 1 false 0x10 .p,
  row 0x6002 0 0 .const 1 false 0x8 .p,
  row 0x6010 1 64 .rs 32 false 0x0 .j,
  row 0x6011 1 64 .ro 4 false 0x0 .i,
  row 0x6012 1 64 .ro 8 false 0x0 .i,
  row 0x6020 0 0 .ro 8 false 0x0 .i,
  row 0x6021 0 0 .rs 8 false 0x0 .j,
  row 0x6022 0 0 .wo 1 false 0x0 .i,
  row 0x6023 0 0 .ro 1 false 0x0 .i,
  row 0x6024 0 0 .rs 4 false 0x2710 .g,
  row 0x6025 0 0 .ro 4 false 0x0 .i,
  row 0x6026 0 0 .rw 8 false 0x0 .i,
  row 0x6030 1 16 .ro 8 false 0x0 .i,
  row 0x6031 1 16 .ro 8 false 0x0 .i,
  row 0x6032 1 64 .ro 4 false 0x0 .i,
  row 0x6033 0 0 .ro 8 false 0x0 .i,
  row 0x6040 0 0 .wo 1 false 0x0 .i,
  row 0x6100 0 0 .const 2 false 0x800 .p,
  row 0x6101 0 0 .const 1 false 0x40 .p,
  row 0x6102 0 0 .const 2 false 0x100 .p,
  row 0x6103 0 0 .rs 4 false 0x0 .j,
  row 0x6110 1 64 .rs 64 false 0x0 .j,
  row 0x6111 1 128 .ro 48 false 0x0 .i,
  row 0x6112 0 0 .rw 2 false 0x0 .i,
  row 0x6113 0 0 .ro 64 false 0x0 .i,
  row 0x6120 1 64 .ro 4 false 0x0 .i,
  row 0x6121 0 0 .wo 16 false 0x0 .i,
  row 0x6130 1 128 .ro 4 false 0x0 .i,
  row 0x6131 1 128 .ro 4 false 0x0 .i,
  row 0x6132 1 128 .ro 4 false 0x0 .i,
  row 0x6133 1 128 .ro 4 false 0x0 .i,
  row 0x6134 1 128 .ro 4 false 0x0 .i,
  row 0x6135 1 128 .ro 8 false 0x0 .i,
  row 0x6136 0 0 .ro 4 false 0x0 .i,
  row 0x6140 0 0 .wo 1 false 0x0 .i,
  row 0x6800 0 0 .const 2 false 0x1000 .p,
  row 0x6801 0 0 .const 1 false 0x8 .p,
  row 0x6802 0 0 .const 2 false 0x100 .p]

/-- Rows 0x6810 to 0x6945 of the object tables. -/
def objRows04 : List ObjRow := [
  row 0x6810 0 0 .rw 2 false 0x0 .i,
  row 0x6811 0 0 .ro 64 false 0x0 .i,
  row 0x6812 0 0 .rs 66 false 0x0 .j,
  row 0x6813 0 0 .ro 384 false 0x0 .i,
  row 0x6814 0 0 .ro 4 false 0x0 .i,
  row 0x6820 1 64 .rs 514 false 0x0 .j,
  row 0x6821 0 0 .rw 4 false 0x0 .i,
  row 0x6822 0 0 .ro 96 false 0x0 .i,
  row 0x6823 0 0 .wo 1 false 0x0 .i,
  row 0x6830 1 2 .rs 8 false 0x0 .j,
  row 0x6831 1 2 .rs 8 false 0x0 .j,
  row 0x6832 1 2 .ro 8 false 0x0 .i,
  row 0x6840 0 0 .ro 8 false 0x0 .i,
  row 0x6841 0 0 .ro 8 false 0x0 .i,
  row 0x6842 1 2 .ro 8 false 0x0 .i,
  row 0x6843 0 0 .ro 8 false 0x0 .i,
  row 0x6844 0 0 .ro 8 false 0x0 .i,
  row 0x6845 0 0 .ro 8 false 0x0 .i,
  row 0x6846 0 0 .ro 8 false 0x0 .i,
  row 0x6847 0 0 .ro 8 false 0x0 .i,
  row 0x6848 0 0 .ro 4 false 0x0 .i,
  row 0x6850 0 0 .wo 1 false 0x0 .i,
  row 0x6900 0 0 .const 2 false 0x80 .p,
  row 0x6901 0 0 .const 2 false 0x40 .p,
  row 0x6902 0 0 .const 1 false 0x40 .p,
  row 0x6910 0 0 .rw 2 false 0x0 .i,
  row 0x6911 0 0 .ro 64 false 0x0 .i,
  row 0x6912 0 0 .rs 66 false 0x0 .j,
  row 0x6913 0 0 .ro 40 false 0x0 .i,
  row 0x6920 1 64 .rs 128 false 0x0 .g,
  row 0x6921 1 15 .rs 8 false 0x0 .g,
  row 0x6930 1 2 .rs 8 false 0x18400000000 .j,
  row 0x6931 1 2 .rs 8 false 0x10000000 .j,
  row 0x6932 1 2 .ro 8 false 0x0 .i,
  row 0x6940 0 0 .ro 8 false 0x0 .i,
  row 0x6941 0 0 .ro 8 false 0x0 .i,
  row 0x6942 0 0 .ro 8 false 0x0 .i,
  row 0x6943 1 2 .ro 8 false 0x0 .i,
  row 0x6944 0 0 .ro 4 false 0x0 .i,
  row 0x6945 0 0 .ro 4 false 0x0 .i]

/-- Rows 0x6946 to 0x8033 of the object tables. -/
def objRows05 : List ObjRow := [
  row 0x6946 0 0 .ro 4 false 0x0 .i,
  row 0x6950 0 0 .wo 1 false 0x0 .i,
  row 0x7000 0 0 .const 1 false 0x10 .p,
  row 0x7001 0 0 .const 1 false 0x60 .p,
  row 0x7002 0 0 .const 4 false 0x10402020 .p,
  row 0x7003 0 0 .const 2 false 0xfff .p,
  row 0x7010 0 0 .rs 2 false 0x853 .g,
  row 0x7011 0 0 .rs 1 false 0x10 .g,
  row 0x7012 0 0 .rs 1 false 0x8 .g,
  row 0x7013 0 0 .rs 1 false 0x0 .g,
  row 0x7014 0 0 .rs 4 false 0x708 .g,
  row 0x7020 1 16 .ro 8 false 0x0 .i,
  row 0x7021 1 16 .ro 8 false 0x0 .i,
  row 0x7022 1 16 .ro 8 false 0x0 .i,
  row 0x7023 1 16 .ro 8 false 0x0 .i,
  row 0x7024 1 16 .ro 4 false 0x0 .i,
  row 0x7025 1 16 .ro 4 false 0x0 .i,
  row 0x7026 1 16 .ro 8 false 0x0 .i,
  row 0x7030 0 0 .rw 1 false 0x0 .i,
  row 0x7031 1 16 .ro 104 false 0x0 .i,
  row 0x7040 0 0 .rw 2 false 0x0 .i,
  row 0x7041 0 0 .ro 4 false 0x0 .i,
  row 0x7042 1 16 .ro 8 false 0x0 .i,
  row 0x7050 0 0 .wo 1 false 0x0 .i,
  row 0x8000 0 0 .const 8 false 0x200000000 .p,
  row 0x8001 0 0 .const 8 false 0x12a05f20000 .p,
  row 0x8002 1 2 .rs 1 false 0x2 .j,
  row 0x8003 0 0 .const 4 false 0x4000000 .p,
  row 0x8010 0 0 .rs 2 false 0x29ab .p,
  row 0x8011 0 0 .rs 2 false 0x1900 .p,
  row 0x8012 0 0 .ro 2 false 0x0 .p,
  row 0x8013 0 0 .ro 1 false 0x0 .p,
  row 0x8014 1 16 .ro 4 false 0x0 .p,
  row 0x8020 1 2 .rs 8 false 0x18000000000 .j,
  row 0x8021 1 2 .rs 8 false 0x400000000 .j,
  row 0x8022 1 2 .ro 8 false 0x0 .i,
  row 0x8030 0 0 .rs 8 false 0x0 .j,
  row 0x8031 0 0 .rs 1 true 0x1 .j,
  row 0x8032 0 0 .const 2 false 0x100 .p,
  row 0x8033 0 0 .wo 16 false 0x0 .i]

/-- Rows 0x8034 to 0x9013 of the object tables. -/
def objRows06 : List ObjRow := [
  row 0x8034 1 16 .ro 32 false 0x0 .i,
  row 0x8035 0 0 .wo 2 false 0x0 .i,
  row 0x8036 0 0 .wo 2 false 0x0 .i,
  row 0x8040 1 64 .rs 32 false 0x0 .g,
  row 0x8050 1 4 .ro 4 false 0x0 .i,
  row 0x8051 1 4 .ro 4 false 0x0 .i,
  row 0x8052 1 16 .ro 4 false 0x0 .i,
  row 0x8053 1 16 .ro 4 false 0x0 .i,
  row 0x8054 0 0 .ro 8 false 0x0 .i,
  row 0x8055 1 2 .ro 24 false 0x0 .i,
  row 0x8056 1 2 .ro 8 false 0x0 .i,
  row 0x8057 0 0 .ro 8 false 0x0 .i,
  row 0x8060 0 0 .rs 4 false 0x3e8 .g,
  row 0x8070 0 0 .wo 1 false 0x0 .i,
  row 0x8100 0 0 .const 1 false 0x18 .p,
  row 0x8101 0 0 .rs 1 false 0xc .p,
  row 0x8102 0 0 .rs 1 false 0x8 .g,
  row 0x8103 0 0 .ro 1 false 0x0 .p,
  row 0x8104 0 0 .ro 4 false 0x0 .p,
  row 0x8105 0 0 .ro 4 false 0x0 .p,
  row 0x8110 1 24 .ro 8 false 0x0 .i,
  row 0x8111 1 24 .ro 8 false 0x0 .i,
  row 0x8112 1 24 .const 8 false 0x0 .p,
  row 0x8113 1 24 .const 8 false 0x0 .p,
  row 0x8120 1 2 .ro 8 false 0x0 .i,
  row 0x8121 1 2 .ro 4 false 0x0 .i,
  row 0x8122 1 2 .ro 4 false 0x0 .i,
  row 0x8123 1 2 .ro 4 false 0x0 .i,
  row 0x8124 1 2 .ro 4 false 0x0 .i,
  row 0x8130 0 0 .wo 1 false 0x0 .i,
  row 0x9000 0 0 .const 1 false 0x40 .p,
  row 0x9001 0 0 .const 2 false 0x800 .p,
  row 0x9002 0 0 .const 2 false 0x2000 .p,
  row 0x9003 0 0 .const 1 false 0x10 .p,
  row 0x9004 0 0 .const 1 false 0x3 .p,
  row 0x9005 0 0 .const 1 false 0x1 .p,
  row 0x9010 0 0 .rs 2 false 0x0 .j,
  row 0x9011 0 0 .rs 4 false 0xffaa5500 .p,
  row 0x9012 0 0 .rs 2 false 0xffff .p,
  row 0x9013 0 0 .rs 1 false 0xc8 .p]

/-- Rows 0x9014 to 0xa023 of the object tables. -/
def objRows07 : List ObjRow := [
  row 0x9014 0 0 .rs 1 false 0x32 .p,
  row 0x9015 0 0 .rs 2 false 0x1f4 .p,
  row 0x9016 0 0 .rs 4 false 0x30301010 .p,
  row 0x9017 0 0 .rs 1 false 0x10 .g,
  row 0x9018 0 0 .rs 1 false 0x10 .g,
  row 0x9019 0 0 .rs 4 false 0x3e8 .g,
  row 0x901a 0 0 .rs 4 false 0x30d40 .g,
  row 0x9020 0 0 .rw 2 false 0x0 .i,
  row 0x9021 0 0 .ro 4 false 0x0 .i,
  row 0x9022 0 0 .rs 6 false 0x0 .g,
  row 0x9030 1 16 .ro 8 false 0x0 .i,
  row 0x9031 1 16 .ro 8 false 0x0 .i,
  row 0x9032 1 16 .ro 8 false 0x0 .i,
  row 0x9033 1 16 .ro 4 false 0x0 .i,
  row 0x9034 1 16 .ro 4 false 0x0 .i,
  row 0x9035 1 64 .ro 8 false 0x0 .i,
  row 0x9036 1 16 .ro 4 false 0x0 .i,
  row 0x9037 1 16 .ro 8 false 0x0 .i,
  row 0x9038 1 16 .ro 4 false 0x0 .i,
  row 0x9039 1 64 .ro 2 false 0x0 .i,
  row 0x9050 0 0 .ro 4 false 0x0 .i,
  row 0x9051 0 0 .ro 16 false 0x0 .i,
  row 0x9052 0 0 .ro 512 false 0x0 .i,
  row 0x9060 0 0 .wo 2 false 0x0 .i,
  row 0x9061 0 0 .wo 1 false 0x0 .i,
  row 0xa000 0 0 .const 2 false 0x400 .p,
  row 0xa001 0 0 .const 2 false 0x1000 .p,
  row 0xa002 0 0 .const 2 false 0x100 .p,
  row 0xa003 0 0 .const 2 false 0x1000 .p,
  row 0xa010 0 0 .rw 2 false 0x0 .i,
  row 0xa011 0 0 .ro 128 false 0x0 .i,
  row 0xa012 0 0 .rs 130 false 0x0 .j,
  row 0xa013 0 0 .rw 2 false 0x0 .i,
  row 0xa014 0 0 .ro 16 false 0x0 .i,
  row 0xa015 0 0 .rs 18 false 0x0 .j,
  row 0xa016 0 0 .rs 1 false 0x1 .j,
  row 0xa020 1 2 .rs 8 false 0x0 .j,
  row 0xa021 1 2 .rs 8 false 0x4000000 .j,
  row 0xa022 1 2 .rs 8 false 0x0 .j,
  row 0xa023 1 2 .rs 8 false 0x1000000 .j]

/-- Rows 0xa026 to 0xb000 of the object tables. -/
def objRows08 : List ObjRow := [
  row 0xa026 0 0 .rs 8 false 0x0 .j,
  row 0xa027 0 0 .rs 4 false 0x10000 .j,
  row 0xa030 0 0 .rs 4 false 0x400000 .g,
  row 0xa031 0 0 .rs 4 false 0x1f4 .g,
  row 0xa040 0 0 .ro 4 false 0x0 .i,
  row 0xa050 0 0 .ro 8 false 0x0 .i,
  row 0xa051 0 0 .ro 8 false 0x0 .i,
  row 0xa052 0 0 .ro 8 false 0x0 .i,
  row 0xa053 0 0 .ro 4 false 0x0 .i,
  row 0xa054 0 0 .ro 4 false 0x0 .i,
  row 0xa055 0 0 .ro 4 false 0x0 .i,
  row 0xa056 0 0 .ro 4 false 0x0 .i,
  row 0xa057 1 2 .ro 8 false 0x0 .i,
  row 0xa058 0 0 .ro 4 false 0x0 .i,
  row 0xa059 0 0 .ro 4 false 0x0 .i,
  row 0xa060 0 0 .ro 16 false 0x0 .i,
  row 0xa070 0 0 .wo 1 false 0x0 .i,
  row 0xa800 0 0 .const 2 false 0x100 .p,
  row 0xa801 0 0 .const 1 false 0x40 .p,
  row 0xa802 0 0 .const 1 false 0x8 .p,
  row 0xa810 0 0 .rw 1 false 0x0 .i,
  row 0xa811 0 0 .ro 64 false 0x0 .i,
  row 0xa812 0 0 .rs 65 false 0x0 .j,
  row 0xa815 0 0 .rs 132 false 0x0 .j,
  row 0xa816 0 0 .rw 4 false 0x0 .i,
  row 0xa817 0 0 .ro 1 false 0x0 .j,
  row 0xa818 0 0 .ro 4 false 0x0 .j,
  row 0xa820 1 2 .rs 8 false 0x0 .j,
  row 0xa821 1 2 .rs 8 false 0x2000000 .j,
  row 0xa822 0 0 .rs 8 false 0x0 .j,
  row 0xa823 0 0 .rs 2 false 0x100 .j,
  row 0xa850 0 0 .ro 8 false 0x0 .i,
  row 0xa851 0 0 .ro 8 false 0x0 .i,
  row 0xa852 0 0 .ro 8 false 0x0 .i,
  row 0xa853 0 0 .ro 4 false 0x0 .i,
  row 0xa854 0 0 .ro 4 false 0x0 .i,
  row 0xa855 0 0 .ro 4 false 0x0 .i,
  row 0xa856 0 0 .ro 8 false 0x0 .i,
  row 0xa860 0 0 .wo 1 false 0x0 .i,
  row 0xb000 0 0 .const 1 false 0x8 .p]

/-- Rows 0xb001 to 0xc100 of the object tables. -/
def objRows09 : List ObjRow := [
  row 0xb001 0 0 .ro 6 false 0x0 .p,
  row 0xb010 0 0 .rs 1 false 0x0 .p,
  row 0xb011 0 0 .ro 1 false 0x0 .i,
  row 0xb020 0 0 .rs 4 false 0x0 .g,
  row 0xb021 0 0 .rs 16 false 0x0 .g,
  row 0xb022 0 0 .rs 2 false 0x0 .g,
  row 0xb023 0 0 .rs 2 false 0x1d10 .g,
  row 0xb024 0 0 .rs 8 false 0x8422831a07380630 .g,
  row 0xb025 0 0 .rs 1 false 0x18 .g,
  row 0xb026 0 0 .rs 4 false 0x2710 .g,
  row 0xb030 1 128 .rs 32 false 0x0 .g,
  row 0xb031 1 128 .ro 4 false 0x0 .i,
  row 0xb032 1 64 .rs 24 false 0x0 .g,
  row 0xb033 0 0 .wo 1 false 0x0 .i,
  row 0xb040 0 0 .rs 1 false 0x0 .g,
  row 0xb041 0 0 .ro 8 false 0x0 .i,
  row 0xb042 0 0 .ro 1 false 0x0 .i,
  row 0xb043 0 0 .rs 4 false 0x3e8 .g,
  row 0xb044 0 0 .ro 4 false 0x0 .i,
  row 0xb050 0 0 .ro 8 false 0x0 .i,
  row 0xb051 0 0 .ro 8 false 0x0 .i,
  row 0xb052 0 0 .ro 4 false 0x0 .i,
  row 0xb053 0 0 .ro 4 false 0x0 .i,
  row 0xb054 0 0 .ro 4 false 0x0 .i,
  row 0xb055 0 0 .ro 4 false 0x0 .i,
  row 0xb056 0 0 .ro 4 false 0x0 .i,
  row 0xb060 0 0 .wo 1 false 0x0 .i,
  row 0xc000 0 0 .ro 4 false 0x0 .i,
  row 0xc001 0 0 .ro 4 false 0x0 .i,
  row 0xc002 1 13 .rs 4 false 0x0 .g,
  row 0xc003 1 13 .ro 8 false 0x0 .i,
  row 0xc004 0 0 .rs 4 false 0x3f666666 .g,
  row 0xc005 0 0 .rs 12 false 0x430000004200000041000000 .g,
  row 0xc006 0 0 .rs 1 false 0x4 .g,
  row 0xc007 0 0 .rs 4 false 0x32 .g,
  row 0xc008 0 0 .rs 1 true 0x1 .g,
  row 0xc009 0 0 .wo 4 false 0x0 .i,
  row 0xc00a 0 0 .rs 1 false 0x5f .g,
  row 0xc00b 0 0 .ro 1 false 0x7 .i,
  row 0xc100 0 0 .rw 8 false 0x0 .i]

/-- Rows 0xc101 to 0xce20 of the object tables. -/
def objRows10 : List ObjRow := [
  row 0xc101 0 0 .rs 8 false 0x0 .j,
  row 0xc102 1 2 .rs 8 false 0x0 .j,
  row 0xc103 1 2 .rs 8 false 0x0 .j,
  row 0xc104 1 64 .rs 16 false 0x0 .j,
  row 0xc105 0 0 .rs 8 false 0x0 .j,
  row 0xc106 0 0 .rs 8 false 0x0 .j,
  row 0xc107 0 0 .rs 1 true 0x0 .g,
  row 0xc108 0 0 .ro 4 false 0x0 .i,
  row 0xc110 0 0 .ro 1 false 0x0 .i,
  row 0xc111 0 0 .ro 32 false 0x0 .i,
  row 0xc112 0 0 .ro 8 false 0x0 .i,
  row 0xc120 0 0 .wo 16 false 0x0 .i,
  row 0xc121 0 0 .ro 32 false 0x0 .i,
  row 0xc130 0 0 .ro 4 false 0x0 .i,
  row 0xc131 0 0 .ro 4 false 0x0 .i,
  row 0xc132 0 0 .ro 4 false 0x0 .i,
  row 0xc140 0 0 .wo 1 false 0x0 .i,
  row 0xc200 0 0 .const 1 false 0x10 .p,
  row 0xc201 1 16 .rs 2 false 0x0 .g,
  row 0xc202 1 16 .ro 1 false 0x0 .i,
  row 0xc203 0 0 .rw 2 false 0xffff .i,
  row 0xc204 0 0 .rs 1 false 0xff .j,
  row 0xc206 0 0 .ro 16 false 0x0 .i,
  row 0xc210 0 0 .wo 24 false 0x0 .i,
  row 0xc211 0 0 .ro 4 false 0x0 .i,
  row 0xc212 1 4 .ro 24 false 0x0 .i,
  row 0xc215 1 16 .ro 4 false 0x0 .i,
  row 0xc220 0 0 .ro 256 false 0x0 .i,
  row 0xc221 0 0 .wo 1 false 0x0 .i,
  row 0xc230 0 0 .ro 4 false 0x0 .i,
  row 0xc240 0 0 .wo 1 false 0x0 .i,
  row 0xce00 0 0 .const 2 false 0x1000 .p,
  row 0xce01 0 0 .const 1 false 0x8 .p,
  row 0xce10 0 0 .rs 8 false 0x0 .j,
  row 0xce11 0 0 .rs 8 false 0x0 .j,
  row 0xce12 0 0 .rs 8 false 0x0 .j,
  row 0xce13 0 0 .rs 4 false 0x1 .j,
  row 0xce14 0 0 .rs 1 true 0x1 .j,
  row 0xce15 0 0 .rw 8 false 0x0 .i,
  row 0xce20 0 0 .ro 32 false 0x0 .i]

/-- Rows 0xce21 to 0xd821 of the object tables. -/
def objRows11 : List ObjRow := [
  row 0xce21 0 0 .ro 4 false 0x0 .i,
  row 0xce30 0 0 .rw 16 false 0x0 .i,
  row 0xce31 0 0 .ro 18 false 0x0 .i,
  row 0xce40 0 0 .wo 40 false 0x0 .i,
  row 0xce41 0 0 .ro 8 false 0x0 .i,
  row 0xce42 0 0 .ro 8 false 0x0 .i,
  row 0xd000 0 0 .const 1 false 0x4 .p,
  row 0xd001 1 4 .const 32 false 0x0 .p,
  row 0xd002 0 0 .ro 1 false 0x0 .i,
  row 0xd003 0 0 .wo 1 false 0x0 .i,
  row 0xd010 0 0 .ro 4 false 0x0 .p,
  row 0xd013 0 0 .wo 1 false 0x0 .i,
  row 0xd014 0 0 .wo 4096 false 0x0 .i,
  row 0xd015 0 0 .wo 1 false 0x0 .i,
  row 0xd016 1 2 .ro 8 false 0x0 .i,
  row 0xd017 0 0 .wo 1 false 0x0 .i,
  row 0xd020 0 0 .ro 1 false 0x0 .i,
  row 0xd021 0 0 .wo 1 false 0x0 .i,
  row 0xd030 0 0 .const 64 false 0x0 .p,
  row 0xd031 0 0 .const 1024 false 0x0 .p,
  row 0xd032 0 0 .ro 64 false 0x0 .p,
  row 0xd033 0 0 .ro 512 false 0x0 .p,
  row 0xd040 0 0 .wo 32 false 0x0 .i,
  row 0xd041 0 0 .ro 256 false 0x0 .i,
  row 0xd050 0 0 .ro 1 false 0x0 .i,
  row 0xd051 0 0 .ro 32 false 0x0 .i,
  row 0xd800 0 0 .const 1 false 0x8 .p,
  row 0xd801 0 0 .const 1 false 0x8 .p,
  row 0xd802 1 8 .rw 4 false 0x0 .i,
  row 0xd803 1 8 .rw 24 false 0x0 .i,
  row 0xd804 0 0 .wo 2 false 0x0 .i,
  row 0xd805 0 0 .wo 4 false 0x0 .i,
  row 0xd806 0 0 .wo 8 false 0x0 .i,
  row 0xd807 0 0 .wo 16 false 0x0 .i,
  row 0xd808 0 0 .wo 1 false 0x0 .i,
  row 0xd809 1 8 .ro 16 false 0x0 .i,
  row 0xd80a 1 8 .ro 16 false 0x0 .i,
  row 0xd80b 0 0 .ro 4 false 0x0 .i,
  row 0xd820 0 0 .rs 4 false 0x100 .g,
  row 0xd821 0 0 .rs 4 false 0x40 .g]

/-- Rows 0xd822 to 0xe040 of the object tables. -/
def objRows12 : List ObjRow := [
  row 0xd822 1 4 .ro 4 false 0x0 .i,
  row 0xd823 1 16 .ro 4 false 0x0 .i,
  row 0xd824 0 0 .ro 8 false 0x0 .i,
  row 0xd825 0 0 .ro 4 false 0x0 .i,
  row 0xd826 0 0 .ro 4 false 0x0 .i,
  row 0xd830 0 0 .wo 1 false 0x0 .i,
  row 0xe000 0 0 .ro 1 false 0x0 .i,
  row 0xe001 0 0 .ro 1 false 0x0 .i,
  row 0xe002 1 12 .ro 4 false 0x0 .i,
  row 0xe003 0 0 .ro 1 false 0x0 .i,
  row 0xe004 0 0 .wo 1 false 0x0 .i,
  row 0xe010 0 0 .ro 4 false 0x0 .i,
  row 0xe011 0 0 .ro 4 false 0x0 .i,
  row 0xe012 0 0 .ro 4 false 0x0 .i,
  row 0xe013 0 0 .rs 2 false 0xc80 .g,
  row 0xe014 0 0 .ro 1 false 0x10 .i,
  row 0xe015 0 0 .ro 8 false 0x0 .i,
  row 0xe020 1 18 .ro 4 false 0x0 .i,
  row 0xe021 0 0 .rs 1 false 0x64 .g,
  row 0xe022 0 0 .rs 1 false 0x6c .g,
  row 0xe023 0 0 .const 1 false 0x73 .p,
  row 0xe024 0 0 .ro 1 false 0x0 .i,
  row 0xe025 0 0 .ro 4 false 0x0 .i,
  row 0xe030 0 0 .ro 4 false 0x0 .i,
  row 0xe031 0 0 .rs 1 false 0x0 .p,
  row 0xe032 0 0 .rs 4 false 0x3e8 .g,
  row 0xe040 1 2 .ro 8 false 0x0 .i]

/-- Every object of the dictionary (R526, R532). -/
def objTable : List ObjRow :=
  objRows00 ++ objRows01 ++ objRows02 ++ objRows03 ++ objRows04 ++ objRows05 ++ objRows06 ++ objRows07 ++ objRows08 ++ objRows09 ++ objRows10 ++ objRows11 ++ objRows12

/-- The row that lists `idx:sub`, if the dictionary has the object (R526). -/
def objRow (idx sub : Nat) : Option ObjRow :=
  objTable.find? (fun r => r.idx == idx && decide (r.lo ≤ sub) && decide (sub ≤ r.hi))

/-- The row that lists any subindex of `idx`. -/
def objRowOf (idx : Nat) : Option ObjRow := objTable.find? (fun r => r.idx == idx)

/-- The hyperparameter set of R375 with its Reset column. -/
def hyperDefault : Nat :=
  1 <<< 1020 + 0x3F666666 <<< 960 + 0x3F7FBE77 <<< 928 + 0x322BCC77 <<< 896 + 0x3F666666 <<< 832 +
    0x3F800000 <<< 800

/-- The default weights of R572's table, rounded to FP32 (RNE). -/
def riskWeight : Nat → Nat
  | 1 => 0x3C23D70A | 2 => 0x42800000 | 3 => 0x3F800000 | 4 => 0x3F000000 | 5 => 0x41000000
  | 6 => 0x3D4CCCCD | 7 => 0x3CA3D70A | 8 => 0x40800000 | 9 => 0x3F800000 | 10 => 0x41800000
  | 11 => 0x3DCCCCCD | 12 => 0x40000000 | 13 => 0x3F800000
  | _ => 0

/-- The value an object holds after reset until a stored or committed generation changes it (R531). Objects
whose rows differ are listed first; `dflt` covers every other row. DESIGN CHOICE, log 6. -/
def objDefault (idx sub : Nat) : Nat :=
  if idx = 0x6920 then hyperDefault
  else if idx = 0xC002 then riskWeight sub
  else if idx = 0x6930 then (if sub = 2 then 0x028400000000 else 0x018400000000)
  else if idx = 0x6110 ∧ sub ≠ 0 then 16 <<< 291 + 16 <<< 284
  else if idx = 0x8020 then (if sub = 2 then 0x028000000000 else 0x018000000000)
  else match objRowOf idx with
    | some r => r.dflt
    | none => 0

/-- Value bytes of an object's rows. -/
def objBytes (idx : Nat) : Nat :=
  match objRowOf idx with
  | some r => r.bytes
  | none => 8

/-- The key of `idx:sub` in the tables of object values. -/
def okey (idx sub : Nat) : Nat := idx * 256 + sub

end Sys2Proof.Machine
end

