-- ==== Sys2Proof/Machine/StateCheck.lean ====
section
/-! DEFINITION. State of the check-value units (chapter 23). -/

namespace Sys2Proof.Machine

/-- A check-value unit (R627 to R636). Its configuration is the object `CvConfig`. -/
structure CvUnit where
  run : Nat
  foldAddr : Nat
  seq : Nat
  count : Nat
  err : Bool
  /-- A scan that runs: device address and bytes. -/
  scan : Option (Nat × Nat)
  /-- `CvResult` (R636). -/
  result : Nat
  deriving DecidableEq, Repr

/-- The check-value units and the rows of the compare channels (R637). -/
structure Cv where
  units : Tab CvUnit
  channels : Tab Nat
  deriving DecidableEq, Repr

/-- A unit after reset: POLY 0b00 with its initial value (R627, R634). -/
def cvUnitReset : CvUnit :=
  { run := 0xFFFFFFFF, foldAddr := 0, seq := 0, count := 0, err := false, scan := none, result := 0 }

/-- The units after reset. -/
def cvReset : Cv := { units := [], channels := [] }

end Sys2Proof.Machine
end

