-- ==== Sys2Proof/Machine/StateCommon.lean ====
section
/-! DEFINITION. State shared by every unit: raised events (R547, R548), subscribers (R549) and the record of
what the device has sent. -/

namespace Sys2Proof.Machine

/-- One event record (R547). -/
structure EvRec where
  code : Nat
  eseq : Nat
  time : Nat
  step : Nat
  arg0 : Nat
  arg1 : Nat
  deriving DecidableEq, Repr

/-- Delivery to one subscriber row (R549). -/
structure Subscriber where
  /-- ESEQ of the first record not yet acknowledged, and of the first not yet sent. -/
  base : Nat
  next : Nat
  /-- Resends without progress. -/
  resends : Nat
  stalled : Bool
  deriving DecidableEq, Repr

/-- The event log and its delivery. -/
structure Ev where
  /-- The last 4,096 records, oldest first (R548). -/
  log : List EvRec
  eseq : Nat
  subs : Tab Subscriber
  /-- Events already raised in the current step, with the unit they name ("once per … per step"). -/
  onceStep : List (Nat × Nat)
  /-- The second of the device's uptime in which an event "at most once per second" was last raised, plus 1. -/
  onceSec : Tab Nat
  /-- Corrected errors of the last second per event and unit: (uptime in ns, count), oldest first. -/
  window : Tab (List (Nat × Nat))
  /-- Events raised since the last boundary, per code, for the risk inputs (R572). -/
  counts : Tab Nat
  deriving DecidableEq, Repr

/-- What the device sends, in order. Fields are the manual's, most significant first where a record is meant. -/
inductive OutMsg where
  /-- The status a Syserid write of a command object is answered with (R537). -/
  | status (idx sub status : Nat)
  /-- An operation that was answered PENDING has ended (R543): the object, the unit or region it named, its status. -/
  | done (idx unit status : Nat)
  /-- One reply record with its value (R536). -/
  | reply (node seq idx sub status ticket value : Nat)
  /-- A COMPLETE frame (R543). -/
  | complete (node seq ticket status value : Nat)
  /-- An EVENT frame to a subscriber row: the ESEQs it carries (R549). -/
  | eventFrame (row : Nat) (eseqs : List Nat)
  /-- A frame on the host port: kind, fields, payload. -/
  | host (kind : Nat) (fields : List Nat) (payload : List Byte)
  /-- A flit on a Relay quad: kind (R408), fields. -/
  | flit (quad kind : Nat) (fields : List Nat)
  /-- A message handed to the Relay for a destination: kind (R419), fields, payload. -/
  | msg (dst kind : Nat) (fields : List Nat) (payload : List Byte)
  /-- A frame on the tandem bridge. -/
  | bridge (dir kind : Nat) (fields : List Nat)
  /-- A command on the snapshot port (R586). -/
  | nvme (kind : Nat) (fields : List Nat)
  /-- A level or word on a pin or the JTAG output. -/
  | pin (which value : Nat)
  deriving DecidableEq, Repr

/-- No events. -/
def evReset : Ev := { log := [], eseq := 0, subs := [], onceStep := [], onceSec := [], window := [], counts := [] }

end Sys2Proof.Machine
end

