-- ==== Sys2Proof/Machine/StateGen.lean ====
section
/-! DEFINITION. State of the configuration generations (chapter 20) and of the Syserid protocol (chapter 19). -/

namespace Sys2Proof.Machine

/-- An armed commit or rollback (R558, R566). -/
structure Armed where
  /-- The record written to `GenCommit` or `GenRollback` (R557). -/
  raw : Nat
  rollback : Bool
  /-- The records of the staging set it took (R558); empty for a rollback. -/
  recs : Tab Nat
  deriving DecidableEq, Repr

/-- A slot of the boot flash (R567): its header is valid and its body lists values by staging key. -/
structure GenSlot where
  valid : Bool
  /-- The slot holds a header at all (R569). -/
  header : Bool
  gen : Nat
  vals : Tab Nat
  deriving DecidableEq, Repr

/-- A store in progress or queued (R567). -/
structure GenStore where
  gen : Nat
  vals : Tab Nat
  deriving DecidableEq, Repr

/-- Configuration generations. Values are listed by staging key: `index·2^32 + subindex·2^24 + key` (R720). -/
structure Gn where
  staged : Tab Nat
  /-- P values of the current generation that wait for the next reset (R562), by staging key. -/
  pendingP : Tab Nat
  current : Nat
  /-- The previous generation: its number and the values that differ from their defaults. -/
  previous : Option (Nat × Tab Nat)
  armed : Option Armed
  /-- A `GenCheck` whose result is formed and not yet reported. -/
  checking : Option Nat
  /-- The store in progress, the stores behind it, and GenState's store field (R570). -/
  storing : Option GenStore
  queue : List GenStore
  storeState : Nat
  /-- `GenHistory`, newest first. -/
  history : List Nat
  slot0 : GenSlot
  slot1 : GenSlot
  deriving DecidableEq, Repr

/-- One result record of a reply (R536): index, subindex, STATUS, TICKET, value bytes and value. -/
structure OpReply where
  idx : Nat
  sub : Nat
  status : Nat
  ticket : Nat
  len : Nat
  value : Nat
  deriving DecidableEq, Repr

/-- A pending operation, or one whose COMPLETE waits for its ACK (R543). -/
structure SyPend where
  ticket : Nat
  node : Nat
  seq : Nat
  src : Nat
  idx : Nat
  sub : Nat
  /-- The unit or region the operation names. -/
  unit : Nat
  /-- How many messages the device had sent when the operation became pending. -/
  mark : Nat
  /-- The final status, once the operation has ended, and how often its COMPLETE has been sent. -/
  final : Option Nat
  sends : Nat
  deriving DecidableEq, Repr

/-- An entry of the reply cache (R544). -/
structure SyCache where
  node : Nat
  seq : Nat
  /-- The request's content. -/
  content : List Byte
  time : Nat
  reply : List OpReply
  deriving DecidableEq, Repr

/-- The Syserid protocol. -/
structure Sy where
  pend : List SyPend
  nextTicket : Nat
  /-- The reply cache, oldest first. -/
  cache : List SyCache
  deriving DecidableEq, Repr

/-- An empty flash slot. -/
def genSlotReset : GenSlot := { valid := false, header := false, gen := 0, vals := [] }

/-- Generations after reset, with no valid slot (R569). -/
def gnReset : Gn :=
  { staged := [], pendingP := [], current := 0, previous := none, armed := none, checking := none, storing := none
    queue := [], storeState := 0, history := [], slot0 := genSlotReset, slot1 := genSlotReset }

/-- Syserid after reset. -/
def syReset : Sy := { pend := [], nextTicket := 1, cache := [] }

end Sys2Proof.Machine
end

