-- ==== Sys2Proof/Machine/StateHost.lean ====
section
/-! DEFINITION. State of the host Ethernet port (chapter 18). -/

namespace Sys2Proof.Machine

/-- A request a queue pair has sent and not seen acknowledged (R517, R518). -/
structure QpReq where
  psn : Nat
  packets : Nat
  read : Bool
  raddr : Nat
  rkey : Nat
  len : Nat
  payload : List Byte
  /-- Who asked: unit (a fetch engine below 16, 32 the snapshot engine) and its own number. -/
  unit : Nat
  item : Nat
  /-- Window and offset of a host window access. -/
  win : Nat
  off : Nat
  /-- Job address the access came from. -/
  jaddr : Nat := 0
  /-- Response packets of a READ that have landed. -/
  got : Nat := 0
  deriving DecidableEq, Repr

/-- A queue pair (R515 to R519). -/
structure Qp where
  err : Bool
  /-- PSNs have been loaded from IPSN since the row was enabled. -/
  started : Bool
  sendPsn : Nat
  expPsn : Nat
  retries : Nat
  reqs : List QpReq
  /-- READs waiting for MAXRD to allow them. -/
  queued : List QpReq
  /-- The WRITE that consecutive accesses of a descriptor to one window are being joined into (R517). -/
  joining : Option QpReq
  /-- Transmit rate in 1/2^32 of the link rate (R513). -/
  rate : Nat
  /-- Uptime of the last decrease and of the last CNP sent, ns. -/
  lastDecrease : Option Nat
  lastCnpSent : Option Nat
  /-- A NAK Sequence Error has been sent for the expected PSN (R518). -/
  nakSent : Bool
  /-- Bytes of a WRITE in progress still to come: (job address of the next byte, bytes left). -/
  writing : Option (Nat × Nat)
  deriving DecidableEq, Repr

/-- A priority of flow control (R512). -/
structure Pfc where
  /-- Transmission paused by the peer, and since when (uptime, ns). -/
  paused : Bool
  since : Nat
  /-- This port has the peer paused. -/
  sent : Bool
  deriving DecidableEq, Repr

/-- The PTP clock (R520 to R522). -/
structure Ptp where
  state : Nat
  /-- Last measured offset, ns. -/
  offset : Int
  /-- Consecutive Sync intervals with |offset| below 100 ns. -/
  good : Nat
  /-- A two-step Sync waiting for its Follow_Up: (sequence, receive time). -/
  sync : Option (Nat × Nat)
  /-- Origin and receive time of the last complete Sync. -/
  t1 : Nat
  t2 : Nat
  haveSync : Bool
  /-- Mean path delay, ns. -/
  delay : Int
  /-- Time at which the outstanding Delay_Req left, and its sequence. -/
  delayReq : Option (Nat × Nat)
  reqSeq : Nat
  /-- Rate correction in parts per 10^9 (R522), and the fraction of a nanosecond it has added up to, in 1/10^6 ns. -/
  slew : Int
  frac : Int
  /-- The chosen time transmitter's Announce data set, lower is better; none when there is none. -/
  best : Option (List Nat)
  deriving DecidableEq, Repr

/-- A frame in the management queue (R510): class 0 or 1, the sender's address and port as one number, the UDP
payload. -/
structure MgmtFrame where
  cls : Nat
  src : Nat
  payload : List Byte
  deriving DecidableEq, Repr

/-- A frame to transmit: its kind, fields and payload. -/
structure TxFrame where
  kind : Nat
  fields : List Nat
  payload : List Byte
  deriving DecidableEq, Repr

/-- The host port. -/
structure Hp where
  linkUp : Bool
  qps : Tab Qp
  pfc : Tab Pfc
  ptp : Ptp
  /-- The management queue: frames taken from the MAC and not yet served (R510). -/
  queue : List MgmtFrame
  /-- Frames queued for transmit while the link is down or their priority is paused (R507, R512), oldest first. -/
  txq : List TxFrame
  deriving DecidableEq, Repr

/-- A queue pair before use. -/
def qpReset0 : Qp :=
  { err := false, started := false, sendPsn := 0, expPsn := 0, retries := 0, reqs := [], queued := [], joining := none,
    rate := 2 ^ 32, lastDecrease := none, lastCnpSent := none, nakSent := false, writing := none }

/-- A priority after reset. -/
def pfcReset : Pfc := { paused := false, since := 0, sent := false }

/-- PTP after reset: free-running (R522). -/
def ptpReset : Ptp :=
  { state := 0, offset := 0, good := 0, sync := none, t1 := 0, t2 := 0, haveSync := false, delay := 0,
    delayReq := none, reqSeq := 0, slew := 0, frac := 0, best := none }

/-- The host port after reset. -/
def hpReset : Hp := { linkUp := false, qps := [], pfc := [], ptp := ptpReset, queue := [], txq := [] }

end Sys2Proof.Machine
end

