-- ==== Sys2Proof/Machine/StatePower.lean ====
section
/-! DEFINITION. State of the security block (chapter 24), the tandem bridge (chapter 25), and of power, clocks, reset
and JTAG (chapters 26 and 27). -/

namespace Sys2Proof.Machine

/-! ### Security block -/

/-- An operation on the boot flash in progress (R651). -/
inductive FlashOp where
  | erase (image : Nat)
  | program (image off : Nat) (data : List Byte)
  | verify (image : Nat)
  | prefer (image : Nat)
  deriving DecidableEq, Repr

/-- The security block and the boot flash's images and boot records. Fuses are objects. -/
structure Sec where
  /-- Bytes programmed since the last erase, by offset in the image region; an unlisted byte is erased. -/
  img0 : Tab Byte
  img1 : Tab Byte
  /-- The boot record copies that are valid: (SEQ, PREFER) (R643). -/
  rec0 : Option (Nat × Nat)
  rec1 : Option (Nat × Nat)
  ops : List FlashOp
  /-- Of the running image: security version, root key slot, measurement (R644). -/
  svn : Nat
  keyIdx : Nat
  meas : Nat
  /-- The uptime at which the last attestation report was formed (R654). -/
  signedAt : Option Nat := none
  deriving DecidableEq, Repr

/-! ### Tandem bridge -/

/-- What a sequenced frame carries (R666). -/
inductive BrBody where
  | req (recs : List BridgeReq)
  | wdata (tag : Nat) (bytes : List Byte) (ue : BadWords)
  | sig (recs : List BridgeSig)
  | rdata (tag : Nat) (bytes : List Byte) (ue : BadWords)
  | wack (tags : List Nat)
  deriving DecidableEq, Repr

/-- A sequenced frame with its order number (R665). -/
structure BrFrame where
  ord : Nat
  body : BrBody
  deriving DecidableEq, Repr

/-- One bundle of one direction (R667 to R675, R682). -/
structure Bundle where
  /-- 0 disabled, 1 training, 2 up, 3 retraining. -/
  state : Nat
  /-- Failed wires F, rising. -/
  failed : List Nat
  ctlFail : Bool
  retrains : Nat
  /-- Sender: the next SEQ, the replay buffer with each frame's SEQ, replays that started at the same frame. -/
  nextSeq : Nat
  replay : List (Nat × BrFrame)
  replays : Nat
  replayAt : Nat
  /-- Receiver: the SEQ expected, and whether the next ACK carries a NAK. -/
  expected : Nat
  nak : Bool
  deriving DecidableEq, Repr

/-- One direction: eastbound from half 0 to half 1, or westbound. -/
structure BrDir where
  bundles : Tab Bundle
  /-- Sender: next ORD per class (request, response), the bundle that took the last frame, credits, frames waiting. -/
  ordReq : Nat
  ordRsp : Nat
  last : Nat
  credReq : Nat
  credRsp : Nat
  waiting : List BrFrame
  /-- Receiver: next ORD to present per class, frames held for it, frames whose credit is owed. -/
  nextReq : Nat
  nextRsp : Nat
  held : List BrFrame
  owedReq : Nat
  owedRsp : Nat
  /-- Write requests presented whose data has not all come: (tag, address of the next byte, bytes still to come). -/
  writes : List (Nat × Nat × Nat)
  /-- Tags of requests that crossed in this direction and are not yet answered, with what is still to come. -/
  open_ : List (Nat × Nat)
  /-- The request records those answers belong to (R626). -/
  asked : List BridgeReq
  /-- The direction has raised 0x8843 since it fell below the minimum. -/
  low : Bool
  deriving DecidableEq, Repr

/-! ### Power, clocks, reset, JTAG -/

/-- The JTAG instruction in force (R715). -/
inductive JtagIr where
  | idcode | bypass | sample | extest | pulse | train
  deriving DecidableEq, Repr

/-- Power, clocks, reset and JTAG. -/
structure Pw where
  /-- RESET_N is low; the input has failed; the device has tripped. -/
  resetLow : Bool
  failed : Bool
  tripped : Bool
  /-- A reset command waits its 100 µs (R700). -/
  resetDue : Bool
  /-- SerDes PLLs that have lost lock, as PLL_UNLOCK numbers them: 22 to 37 the quads, 38 to 41 the host lane pairs. They
recover only through a reset (R696). -/
  lostPlls : List Nat
  /-- The last 1,000 samples of input power, in µW, newest first (R685). -/
  samples : List Nat
  /-- µs spent outside 40 V to 50 V without a break. -/
  bandUs : Nat
  /-- Power duty and thermal duty in sixteenths (R689, R690), and 100 µs periods at the floor above the cap. -/
  duty : Nat
  thermDuty : Nat
  floorTicks : Nat
  /-- Sensor samples since the thermal duty last moved, and in the present 1 ms interval; a hot one among them. -/
  thermTick : Nat
  msTick : Nat
  hotSeen : Bool
  /-- The JTAG instruction, the bypass bit, the output cells and the last sample of the lands. -/
  ir : JtagIr
  bypass : Nat
  cells : Nat
  lands : Nat
  deriving DecidableEq, Repr

/-- The security block with blank flash. DESIGN CHOICE, log 64. -/
def secReset : Sec :=
  { img0 := [], img1 := [], rec0 := none, rec1 := none, ops := [], svn := 0, keyIdx := 0, meas := 0 }

/-- A bundle before training. -/
def bundleReset : Bundle :=
  { state := 0, failed := [], ctlFail := false, retrains := 0, nextSeq := 0, replay := [], replays := 0, replayAt := 256
    expected := 0, nak := false }

/-- A direction before training; each class has credits for the 512 frames of its receive queue (R668). -/
def brDirReset : BrDir :=
  { bundles := [], ordReq := 0, ordRsp := 0, last := 23, credReq := 512, credRsp := 512, waiting := [], nextReq := 0
    nextRsp := 0, held := [], owedReq := 0, owedRsp := 0, writes := [], open_ := [], asked := [], low := false }

/-- Power after reset. -/
def pwReset : Pw :=
  { resetLow := false, failed := false, tripped := false, resetDue := false, lostPlls := [], samples := [], bandUs := 0, duty := 16
    thermDuty := 16, floorTicks := 0, thermTick := 0, msTick := 0, hotSeen := false, ir := .idcode, bypass := 0, cells := 0
    lands := 0 }

end Sys2Proof.Machine
end

