-- ==== Sys2Proof/Machine/StateRelay.lean ====
section
/-! DEFINITION. State of the Relay links (chapter 14). -/

namespace Sys2Proof.Machine

/-- A DATA flit held for sending or replay (R409, R411). -/
structure TxFlit where
  seq : Nat
  vc : Nat
  msgoff : Nat
  units : List Nat
  deriving DecidableEq, Repr

/-- A stream of DATA flits; its number is that of the quad it belongs to (R409, R435). -/
structure Stream where
  nextSeq : Nat
  /-- The replay buffer: sent and not acknowledged, oldest first (R411). -/
  unacked : List TxFlit
  /-- Flits that wait for a credit, for buffer space or for the quad. -/
  waiting : List TxFlit
  /-- The quad that carries the stream, its own unless it has moved (R435). -/
  carrier : Option Nat
  /-- Consecutive replays that started at the same flit, and that flit's SEQ (R411). -/
  replays : Nat
  replayAt : Nat
  deriving DecidableEq, Repr

/-- What a receiver keeps for one stream of one peer (R409, R410). -/
structure RxStream where
  expected : Nat
  nakSent : Bool
  /-- Flits accepted since the last acknowledgement. -/
  unacked : Nat
  deriving DecidableEq, Repr

/-- One quad (R397, R437). -/
structure Quad where
  /-- 0 disabled, 1 training, 2 up, 3 retraining, 4 peer-lost, 5 down. -/
  state : Nat
  rate : Nat
  lmask : Nat
  peerDev : Nat
  peerQ : Nat
  pver : Nat
  pstate : Nat
  /-- The quad has trained since reset. -/
  trained : Bool
  /-- Disabled by R432, which counts for R431. -/
  idChanged : Bool
  /-- Credits held per virtual channel (R415). -/
  credits : Tab Nat
  /-- Credits owed to the peer per virtual channel, and the channel next in rotation. -/
  owed : Tab Nat
  rotate : Nat
  /-- Received 16 B units not yet taken, per virtual channel (R419). -/
  rx : Tab (List Nat)
  /-- The places in them, per virtual channel, whose SECDED check bits are uncorrectable (R413). -/
  rxBad : Tab (List Nat) := []
  /-- Units of a flit's buffer taken so far, per virtual channel: a credit is owed per 15. -/
  taken : Tab Nat
  cseq : Nat
  /-- The croak whose reply window is open. -/
  croakOut : Option Nat
  misses : Nat
  /-- The lane mask this end has sent in the present croak period (R433). -/
  dropSent : Option Nat
  dropped : Nat
  deriving DecidableEq, Repr

/-- The Relay links. -/
structure Rl where
  quads : Tab Quad
  streams : Tab Stream
  /-- Expected SEQ by `16·peer + stream` (R409). -/
  rx : Tab RxStream
  /-- What this device's own croaks report as MCLIVE (R428). -/
  mclive : Nat
  /-- Devices whose messages are dropped on arrival (R604). -/
  fenced : List Nat
  deriving DecidableEq, Repr

/-- A stream at its start. -/
def streamReset : Stream :=
  { nextSeq := 0, unacked := [], waiting := [], carrier := none, replays := 0, replayAt := 4096 }

/-- A receiver's record at its start. -/
def rxReset : RxStream := { expected := 0, nakSent := false, unacked := 0 }

/-- A quad after reset. -/
def quadReset : Quad :=
  { state := 0, rate := 0, lmask := 0, peerDev := 0, peerQ := 0, pver := 0, pstate := 0, trained := false
    idChanged := false, credits := [], owed := [], rotate := 0, rx := [], taken := [], cseq := 0
    croakOut := none, misses := 0, dropSent := none, dropped := 0 }

/-- The Relay links after reset. -/
def rlReset : Rl := { quads := [], streams := [], rx := [], mclive := 0, fenced := [] }

end Sys2Proof.Machine
end

