-- ==== Sys2Proof/Machine/StateVector.lean ====
section
/-! DEFINITION. State of the vector chains (chapters 05 and 06). -/

namespace Sys2Proof.Machine

/-- A block a JOIN or SRC descriptor feeds to a port (R282, R723). -/
structure PortBlock where
  /-- The descriptor (R235), which gives the block's shape. -/
  desc : Nat
  ctx : Nat
  /-- Order of activation in its engine. -/
  seq : Nat
  /-- Unit bytes in visiting order, packed FP6 expanded. -/
  data : List Byte
  /-- Every element has been delivered. -/
  full : Bool
  deriving DecidableEq, Repr

/-- Output of a pass on the chain's output port, taken by STORE descriptors in order. -/
structure OutBlock where
  data : List Byte
  /-- Places in `data` of bytes of a discarded 32-element group, which are not written (R166). -/
  lost : List Nat
  ctx : Nat
  /-- Lane group of the pass (0 to 7 for TUs, 8 for a memory block) and its write semaphore (R164). -/
  src : Nat
  sem : Nat
  /-- The task, and whether the primary output goes to the outbound spawn buffer (DEST 0b001, R306). -/
  task : Nat
  spawn : Bool
  /-- The pass it comes from. -/
  num : Nat := 0
  deriving DecidableEq, Repr

/-- An opened pass waiting for its tile or block (R281). -/
structure Pass where
  /-- Order of issue in the chain. -/
  num : Nat
  slot : Nat
  /-- Lane group: 0 to 7 a TU of the cluster, 8 a memory-sourced block. -/
  src : Nat
  ctx : Nat
  /-- Task identifier, tag, the step of the tag's FWD and its place (R356, R379). -/
  task : Nat
  tag : Nat
  step : Nat
  place : Nat
  /-- Mask slot when MEN is set. -/
  mask : Option Nat
  qpos : Nat
  kpos : Nat
  srec : Bool
  jrec : Bool
  /-- A[RREG] + ROFF: the reduction output, or the slice of a compressed pass. -/
  red : Nat
  /-- Which partial of its reduction output this pass gives, counted in issue order. -/
  block : Nat
  /-- Random position base, A[PREG] + 8,192·j for lane j of TSEL (R383). -/
  pos : Nat
  /-- Draw of the free values that its elements may need, and pieces already handed to the update path (R359). -/
  draw : Nat := 0
  given : Nat := 0
  /-- Its bitmap bytes have been read (R189). -/
  read : Bool := false
  deriving DecidableEq, Repr

/-- A reduction state (R177, R178): value, second value, live count, infinities, NaN seen. -/
structure RedState where
  m : F32
  l : F32
  n : Nat
  ninf : Nat
  nan : Bool
  deriving DecidableEq, Repr

/-- A running reduction (R153, R174, R175). -/
structure Running where
  task : Nat
  red : Nat
  /-- Next block to fold. -/
  next : Nat
  /-- The running state of each row. -/
  rows : List RedState
  /-- Parked partials: (block, rows). -/
  parked : List (Nat × List RedState)
  deriving DecidableEq, Repr

/-- The document start table a chain keeps (R187). -/
structure DocTable where
  addr : Nat
  count : Nat
  entries : List Nat
  /-- A reload that has not finished: (DADDR, DCOUNT). -/
  loading : Option (Nat × Nat)
  deriving DecidableEq, Repr

/-- One vector chain. -/
structure Vc where
  /-- Configuration words by slot (R146) and mask descriptors by slot (R185). -/
  config : Tab Nat
  masks : Tab Nat
  passes : List Pass
  nextPass : Nat
  srcs : List PortBlock
  joins : List PortBlock
  outs : List OutBlock
  running : List Running
  doc : DocTable
  /-- Write semaphores owed: (lane group, semaphore, context), oldest first (R164). -/
  owed : List (Nat × Nat × Nat)
  /-- Mask slots whose check bits are uncorrectable (R192). -/
  badMasks : List Nat := []
  deriving DecidableEq, Repr

/-- What an unwritten configuration word (VER, R146) and mask descriptor (BSZ and KEND, R185) hold at reset. -/
def configReset : Nat := 1 <<< 248
def maskReset : Nat := 6 <<< 247 + 2 ^ 20 <<< 226

/-- A vector chain after reset. -/
def vcReset : Vc :=
  { config := [], masks := [], passes := [], nextPass := 0, srcs := [], joins := [], outs := [], running := []
    doc := { addr := 0, count := 0, entries := [], loading := none }, owed := [] }

end Sys2Proof.Machine
end

