-- ==== Sys2Proof/Machine/StateDev.lean ====
section
/-! DEFINITION. The device: every unit's state, the object values in force, the record of what was sent. -/

namespace Sys2Proof.Machine

/-- The whole HX9 but for the queue of waiting commands. -/
structure Dev where
  /-- Object values in force and counters, by `256·index + subindex`; an unlisted object holds its default. -/
  objs : Tab Nat
  /-- Keyed objects in force (R720): key `index·2^24 + key`. -/
  keyed : Tab Nat
  /-- Nanoseconds since the last reset, and the PTP time of day (R523). -/
  uptime : Nat
  ptp : Nat
  ev : Ev
  out : List OutMsg
  /-- The model's own counter of free values. -/
  freeCtr : Nat
  tus : Tab Tu
  shadows : Tab Shadow
  sup : Sup
  /-- Tiles presented to the vector chains and not yet taken, one per TU (R54, R141). -/
  tiles : Tab Tile
  vcs : Tab Vc
  mem : Mem
  fes : Tab Fe
  /-- Semaphores by `4096·cluster + number` (R253). -/
  sems : Tab Sem
  /-- Waits that have succeeded and are not yet used by their unit: (semaphore key, requester). -/
  grants : List (Nat × Nat)
  seq : Seq
  hp : Hp
  rl : Rl
  sq : Sq
  wv : Wv
  up : Up
  ce : Ce
  ex : Ex
  /-- An `RngFill` whose reply is pending: its 320-bit record (R386). -/
  fill : Option Nat
  gn : Gn
  sy : Sy
  hm : Hm
  sn : Sn
  rc : Rc
  cv : Cv
  sec : Sec
  east : BrDir
  west : BrDir
  pw : Pw
  deriving DecidableEq, Repr

end Sys2Proof.Machine
end

