-- ==== Sys2Proof/Machine/Ops.lean ====
section
/-! DEFINITION. The named operations every unit shares: object values and counters, events, semaphores, unit
faults, memory bytes and the near-memory cache. -/

namespace Sys2Proof.Machine

/-! ### Object values and counters -/

/-- The value an object holds: the value in force, or its default (R531). -/
def cfg (d : Dev) (idx sub : Nat) : Nat := tget (objDefault idx sub) d.objs (okey idx sub)

/-- Give an object a value. -/
def setObj (d : Dev) (idx sub v : Nat) : Dev := { d with objs := tset d.objs (okey idx sub) v }

/-- Add `n` to a counter, which saturates at the top of its type and does not wrap. -/
def bump (d : Dev) (idx sub n : Nat) : Dev :=
  setObj d idx sub (satAdd (8 * objBytes idx) (cfg d idx sub) n)

/-- Add to one U64 of a counter row that holds several (`NearCacheStats`). -/
def bumpPart (d : Dev) (idx sub part n : Nat) : Dev :=
  let v := cfg d idx sub
  setObj d idx sub (setFld v (64 * part + 63) (64 * part)
    (satAdd 64 (fld v (64 * part + 63) (64 * part)) n))

/-! ### Events -/

/-- Record something the device sends. DESIGN CHOICE, log 3. -/
def send (d : Dev) (m : OutMsg) : Dev := { d with out := d.out ++ [m] }

/-- The second of the uptime. -/
def upSecond (d : Dev) : Nat := d.uptime / 1000000000

/-- A subscriber row is in use (R549). -/
def subEnabled (d : Dev) (row : Nat) : Bool := bitAt (cfg d 0x1120 row) 255

/-- Some active subscriber has not yet acknowledged event `eseq`. -/
def undelivered (d : Dev) (eseq : Nat) : Bool :=
  [1, 2, 3, 4].any (fun r =>
    match tfind d.ev.subs r with
    | some s => subEnabled d r && !s.stalled && decide (s.base ≤ eseq)
    | none => false)

/-- The record an event makes (R547). -/
def newRec (d : Dev) (code arg0 arg1 : Nat) : EvRec :=
  { code, eseq := d.ev.eseq, time := d.ptp, step := trunc 32 d.seq.step, arg0 := trunc 48 arg0, arg1 := trunc 64 arg1 }

/-- The log with one record more, and the record it overwrites: it keeps the last 4,096 (R548). -/
def pushLog (l : List EvRec) (r : EvRec) : List EvRec := if 4096 ≤ l.length then l.tail ++ [r] else l ++ [r]
def overwritten (l : List EvRec) : List EvRec := if 4096 ≤ l.length then l.take 1 else []

/-- Append one record to the event log and count it when a record is overwritten undelivered. -/
def logEvent (d : Dev) (code arg0 arg1 : Nat) : Dev :=
  let lost := ((overwritten d.ev.log).filter (fun e => undelivered d e.eseq)).length
  let d1 := { d with ev := { d.ev with
    log := pushLog d.ev.log (newRec d code arg0 arg1), eseq := trunc 32 (d.ev.eseq + 1),
    counts := tset d.ev.counts code (tget 0 d.ev.counts code + 1) } }
  if lost = 0 then d1 else bump d1 0x1124 0 lost

/-- Raise an event at most once per second of the uptime. -/
def raiseSec (d : Dev) (code arg0 arg1 : Nat) : Dev :=
  if tget 0 d.ev.onceSec code = upSecond d + 1 then d
  else logEvent { d with ev := { d.ev with onceSec := tset d.ev.onceSec code (upSecond d + 1) } } code arg0 arg1

/-- Raise an event: log it, and raise 0x4102 when a record was overwritten undelivered (R548). -/
def raise (d : Dev) (code arg0 arg1 : Nat) : Dev :=
  let d1 := logEvent d code arg0 arg1
  if cfg d1 0x1124 0 = cfg d 0x1124 0 then d1 else raiseSec d1 0x4102 0 0

/-- Raise an event once per step for each `key`. -/
def raiseOnce (d : Dev) (code key arg0 arg1 : Nat) : Dev :=
  if d.ev.onceStep.contains (code, key) then d
  else raise { d with ev := { d.ev with onceStep := (code, key) :: d.ev.onceStep } } code arg0 arg1

/-- Raise an event once per named unit per step. -/
def raiseStep (d : Dev) (code unit arg1 : Nat) : Dev := raiseOnce d code unit unit arg1

/-- The corrected errors of one unit in the second that ends now. -/
def lastSecond (d : Dev) (key : Nat) : List (Nat × Nat) :=
  (tget [] d.ev.window key).filter (fun e => decide (d.uptime < e.1 + 1000000000))

/-- Count `n` corrected errors of unit `unit` and raise `code` when those of the last second come to exceed `limit`.
DESIGN CHOICE, log 87. -/
def ceNote (d : Dev) (code unit limit n : Nat) : Dev :=
  let key := code * 65536 + unit
  let w := lastSecond d key
  let c := sumN (w.map Prod.snd)
  let d1 := { d with ev := { d.ev with window := tset d.ev.window key (w ++ [(d.uptime, n)]) } }
  if c ≤ limit ∧ limit < c + n then raise d1 code unit (c + n) else d1

/-- Draw the number of the next free value. DESIGN CHOICE, log 1. -/
def nextFree (d : Dev) : Nat × Dev := (d.freeCtr, { d with freeCtr := d.freeCtr + 1 })

/-! ### Per-unit records -/

/-- Tensor unit `t` (global index). -/
def tuAt (d : Dev) (t : Nat) : Tu := tget tuReset d.tus t

/-- Replace tensor unit `t`. -/
def setTu (d : Dev) (t : Nat) (u : Tu) : Dev := { d with tus := tset d.tus t u }

/-- The shadow unit of a cluster. -/
def shadowAt (d : Dev) (c : Nat) : Shadow := tget shadowFree d.shadows c

/-- Replace a cluster's shadow unit. -/
def setShadow (d : Dev) (c : Nat) (u : Shadow) : Dev := { d with shadows := tset d.shadows c u }

/-- Fetch engine `f`. -/
def feAt (d : Dev) (f : Nat) : Fe := tget feReset d.fes f

/-- Replace fetch engine `f`. -/
def setFe (d : Dev) (f : Nat) (e : Fe) : Dev := { d with fes := tset d.fes f e }

/-- Stage context `c`. -/
def ctxAt (d : Dev) (c : Nat) : Ctx := tget ctxReset d.seq.ctxs c

/-- Replace stage context `c`. -/
def setCtx (d : Dev) (c : Nat) (x : Ctx) : Dev := { d with seq := { d.seq with ctxs := tset d.seq.ctxs c x } }

/-- The started task with identifier `id`. -/
def taskAt (d : Dev) (id : Nat) : Option Task := d.seq.tasks.find? (fun t => t.id == id)

/-- The task a cluster works on. -/
def currentTask (d : Dev) (cluster : Nat) : Option Task := (tfind d.seq.current cluster).bind (taskAt d)

/-- The stage context a cluster works for; 64 when it works for none. -/
def clusterCtx (d : Dev) (cluster : Nat) : Nat :=
  match currentTask d cluster with
  | some t => t.ctx
  | none => 64

/-- Replace a started task. -/
def setTask (d : Dev) (t : Task) : Dev :=
  { d with seq := { d.seq with tasks := d.seq.tasks.map (fun u => if u.id = t.id then t else u) } }

/-! ### Semaphores (R253 to R257) -/

/-- The key of a semaphore. -/
def semKey (cluster num : Nat) : Nat := cluster * 4096 + num

/-- A semaphore's word. -/
def semAt (d : Dev) (k : Nat) : Sem := tget semReset d.sems k

/-- Replace a semaphore. -/
def setSem (d : Dev) (k : Nat) (s : Sem) : Dev := { d with sems := tset d.sems k s }

/-- A semaphore's word as SemRead gives it (R254). -/
def semWord (s : Sem) : Nat :=
  match s.waits with
  | w :: _ => 2 ^ 31 + w.req % 16 * 2 ^ 27 + (w.amount - 1) % 16 * 2 ^ 23 + s.count
  | [] => s.count

/-- A context at work: it can still be stopped (R296). -/
def ctxLive (x : Ctx) : Bool := x.st == .resident || x.st == .running || x.st == .swappedOut

/-- Take back the waits and unused grants of the requesters that `p` picks by number on one cluster's semaphores. -/
def dropWaits (d : Dev) (cluster : Nat) (p : Nat → Bool) : Dev :=
  { d with
    sems := d.sems.map (fun e =>
      if e.1 / 4096 = cluster then (e.1, { e.2 with waits := e.2.waits.filter (fun w => !p (w.req % 16)) }) else e)
    grants := d.grants.filter (fun g => !(g.1 / 4096 == cluster && p (g.2 % 16))) }

/-- The blocked waits of those requesters, by semaphore key, and the waits that have succeeded for them and are not yet
used. -/
def waitsOf (d : Dev) (cluster : Nat) (p : Nat → Bool) : List (Nat × SemWaiter) :=
  (d.sems.filter (fun e => e.1 / 4096 == cluster)).flatMap (fun e => (e.2.waits.filter (fun w => p (w.req % 16))).map (fun w => (e.1, w)))
def grantsOf (d : Dev) (cluster : Nat) (p : Nat → Bool) : List (Nat × Nat) :=
  d.grants.filter (fun g => g.1 / 4096 == cluster && p (g.2 % 16))

/-- Put saved waits back ahead of the waits that have arrived since, and saved grants (R259). -/
def putWaits (d : Dev) (ws : List (Nat × SemWaiter)) (gs : List (Nat × Nat)) : Dev :=
  { d with
    sems := ws.reverse.foldl (fun t w => tmod semReset t w.1 (fun s => { s with waits := w.2 :: s.waits })) d.sems
    grants := gs ++ d.grants }

/-- R296 steps 1, 2 and 4 on one fetch engine: queued descriptors of the context are discarded, active ones
end without signalling. DESIGN CHOICE, log 80. -/
def feDropCtx (e : Fe) (ctx : Nat) : Fe :=
  { e with
    queues := e.queues.map (fun q => (q.1, q.2.filter (fun x => x.ctx != ctx)))
    held := e.held.filter (fun x => x.ctx != ctx)
    drainWait := e.drainWait.filter (fun x => x.ctx != ctx)
    recs := e.recs.filter (fun r => r.ctx != ctx)
    active := e.active.filter (fun a => a.entry.ctx != ctx) }

/-- R296 step 2 on one TU: queued commands of the context are discarded. DESIGN CHOICE, log 80. -/
def tuDropCtx (u : Tu) (ctx : Nat) : Tu := { u with queue := u.queue.filter (fun x => x.ctx != ctx) }

/-- A unit fault that names a stage context (R296): the context is stopping, its queued work is discarded. -/
def unitFault (d : Dev) (ctx code : Nat) : Dev :=
  let x := ctxAt d ctx
  if ctx < 64 ∧ ctxLive x then
    let d1 := setCtx d ctx { x with st := .stopping, cause := code }
    { d1 with
      tus := d1.tus.map (fun e => (e.1, tuDropCtx e.2 ctx))
      fes := d1.fes.map (fun e => (e.1, feDropCtx e.2 ctx)) }
  else d

/-- Raise an event and stop the stage context it names. DESIGN CHOICE, log 80. -/
def raiseFault (d : Dev) (code arg0 arg1 ctx : Nat) : Dev := unitFault (raise d code arg0 arg1) ctx code

/-! ### Contexts and the entries they bind (R273, R350) -/

/-- The row of a stage context. -/
def ctxRow (d : Dev) (c : Nat) : Nat := cfg d 0x6010 (c + 1)

def ctxEn (d : Dev) (c : Nat) : Bool := decide (c < 64) && bitAt (ctxRow d c) 255

/-- The enabled contexts. -/
def enabledCtxs (d : Dev) : List Nat := (List.range 64).filter (ctxEn d)

/-- The binding list of a context (R350): entry numbers in list order. -/
def bindList (d : Dev) (c : Nat) : List Nat :=
  let v := cfg d 0x6820 (c + 1)
  (List.range (min 256 (fld v 15 0))).map (fun i => fld v (16 * i + 31) (16 * i + 16))

/-- The contexts that bind a parameter entry. -/
def binders (d : Dev) (e : Nat) : List Nat := (enabledCtxs d).filter (fun c => (bindList d c).contains e)

/-- Every context that binds the entry stops (R296). -/
def stopBinders (d : Dev) (e code : Nat) : Dev := (binders d e).foldl (fun x c => unitFault x c code) d

/-! ### Engine records (R618) -/

/-- The check bits of an engine record are uncorrectable. -/
def eccBad (d : Dev) (k : EccRec) : Bool := d.mem.badRecs.contains k

/-- A record that is written whole, or that ends, has no error. -/
def endRec (d : Dev) (k : EccRec) : Dev := { d with mem := { d.mem with badRecs := d.mem.badRecs.filter (fun x => x != k) } }

/-- No record of the engines has an error: all are written anew. -/
def endRecs (d : Dev) : Dev := { d with mem := { d.mem with badRecs := [] } }

/-- Read a record that belongs to parameter entry `e`: an uncorrectable error raises `code`, and R7 applies to every context
that binds the entry (R349, R372, R472). -/
def readRec (d : Dev) (k : EccRec) (code e arg : Nat) : Dev :=
  if eccBad d k then stopBinders (raise d code e arg) e code else d

/-- An access to a semaphore whose word is uncorrectable raises 0x8704, and R7 applies to the context (R261).
DESIGN CHOICE, log 88. -/
def semRead (d : Dev) (cluster num ctx : Nat) : Dev :=
  if (semAt d (semKey cluster num)).bad then raiseFault d 0x8704 cluster num ctx else d

/-- A signal of `amount` (R255); past 65,535 the count saturates and the context stops (R257). Number 0xFFF
names no semaphore. DESIGN CHOICE, log 24. -/
def semSignal (d0 : Dev) (cluster num amount ctx : Nat) : Dev :=
  if num = 0xFFF then d0
  else
    let d := semRead d0 cluster num ctx
    let k := semKey cluster num
    let s := semAt d k
    if 65535 < s.count + amount then
      raiseFault (setSem d k { s with count := 65535 }) 0x8702 cluster num ctx
    else setSem d k { s with count := s.count + amount }

/-- One wait of `amount` by requester `req` (R255, R256): a wait that already succeeded is used up; a wait that
can succeed at once is taken; otherwise it blocks behind the waits before it. The answer is whether the
requester may proceed. DEDUCED, log 35. -/
def semTake (d0 : Dev) (cluster num req amount : Nat) : Bool × Dev :=
  if num = 0xFFF then (true, d0)
  else
    let d := semRead d0 cluster num (clusterCtx d0 cluster)
    let k := semKey cluster num
    let s := semAt d k
    if d.grants.contains (k, req) then (true, { d with grants := d.grants.erase (k, req) })
    else if s.waits.any (fun w => w.req == req) then (false, d)
    else if s.waits.isEmpty ∧ amount ≤ s.count then (true, setSem d k { s with count := s.count - amount })
    else (false, setSem d k { s with waits := s.waits ++ [{ req, amount }] })

/-- Keep a wait that succeeded for a unit that cannot yet use it. -/
def keepGrant (d : Dev) (cluster num req : Nat) : Dev :=
  if num = 0xFFF then d else { d with grants := d.grants ++ [(semKey cluster num, req)] }

/-- Waits on up to two semaphores, each of amount 1; a number named twice is waited on once (R42). -/
def semTakeBoth (d : Dev) (cluster a b req : Nat) : Bool × Dev :=
  let r1 := semTake d cluster a req 1
  let r2 := if a = b then (r1.1, r1.2) else semTake r1.2 cluster b req 1
  if r1.1 && r2.1 then (true, r2.2)
  else
    let d1 := if r1.1 && a != b then keepGrant r2.2 cluster a req else r2.2
    let d2 := if r2.1 && a != b then keepGrant d1 cluster b req else d1
    (false, d2)

/-! ### Device memory (R196 to R206) -/

/-- Bytes of one half's near window (R198). -/
def nearSize : Nat := 0x100000000

/-- Bytes of one half's far memory (R198). -/
def farSize : Nat := 640000000000

/-- The device region at the bottom of each near window (R197). -/
def deviceRegion : Nat := 0x04000000

/-- Base of far memory of a half (R199). -/
def farBase (half : Nat) : Nat := 0x010000000000 * (half + 1)

/-- Where a device address lies (R198): near memory of a half with its offset, far memory of a half with its
offset, or a reserved range. -/
inductive Region where
  | near (half off : Nat)
  | far (half off : Nat)
  | reserved
  deriving DecidableEq, Repr

/-- R198. -/
def regionOf (a : Nat) : Region :=
  if a < 2 * nearSize then .near (a / nearSize) (a % nearSize)
  else if farBase 0 ≤ a ∧ a < farBase 0 + farSize then .far 0 (a - farBase 0)
  else if farBase 1 ≤ a ∧ a < farBase 1 + farSize then .far 1 (a - farBase 1)
  else .reserved

/-- The cache share of a half in eighths (R200). -/
def cacheShare (d : Dev) (half : Nat) : Nat := cfg d 0x8002 (half + 1)

/-- The offset at which the cache part of a half's window starts (R200). -/
def cacheStart (d : Dev) (half : Nat) : Nat := max deviceRegion ((8 - cacheShare d half) * 0x20000000)

/-- Near scratch holds all of `off .. off + n - 1` of a half: above the device region, below the cache part. -/
def inScratch (d : Dev) (half off n : Nat) : Bool := decide (deviceRegion ≤ off ∧ off + n ≤ cacheStart d half)

/-- `n` bytes at device address `a` may be accessed by the job (R197, R198, R201). -/
def accessible (d : Dev) (a n : Nat) : Bool :=
  match regionOf a with
  | .near h off => inScratch d h off n
  | .far _ off => decide (off + n ≤ farSize)
  | .reserved => false

/-- The half that owns a device address (0 for a reserved one). -/
def ownerHalf (a : Nat) : Nat :=
  match regionOf a with
  | .near h _ => h
  | .far h _ => h
  | .reserved => 0

/-- The far line (device address of its first byte) an address lies in, when it is far. -/
def farLine (a : Nat) : Option Nat :=
  match regionOf a with
  | .far h off => some (farBase h + off / 256 * 256)
  | _ => none

/-- The latest byte held for an address by an outstanding fill (R206). -/
def heldByte (fs : List Fill) (a : Nat) : Option Byte :=
  (fs.filterMap (fun f => (f.held.reverse.find? (fun e => e.1 == a)).map Prod.snd)).head?

/-- What a byte reads as that no write has reached: 0, but an undefined value where near memory has changed between
scratch and cache (R207). DESIGN CHOICE, log 7. DESIGN CHOICE, log 8. -/
def memBase (m : Mem) (a : Nat) : Byte :=
  match m.swapped.find? (fun r => decide (r.1 ≤ a ∧ a < r.1 + r.2.1)) with
  | some r => Config.swappedByte r.2.2 a
  | none => 0#8

/-- The byte a read of device memory gives: a held write, else the stored byte, else what an unwritten byte reads as.
DESIGN CHOICE, log 75. -/
def memByte (m : Mem) (a : Nat) : Byte := (heldByte m.fills a).getD (tget (memBase m a) m.bytes a)

/-- `n` bytes from `a`. -/
def memRead (m : Mem) (a n : Nat) : List Byte := (List.range n).map (fun i => memByte m (a + i))

/-- A little-endian value of `n` bytes at `a`. -/
def memVal (m : Mem) (a n : Nat) : Nat := leVal (memRead m a n)

/-- Store bytes by address, keeping the canonical form; `base` is what an unlisted byte reads as. -/
def putBytes (base : Nat → Byte) (t : List (Nat × Byte)) : List (Nat × Byte) → List (Nat × Byte)
  | [] => t
  | (a, b) :: rest => putBytes base (tput (base a) t a b) rest

/-- Bytes with their addresses from `a` on. -/
def addrBytes : Nat → List Byte → List (Nat × Byte)
  | _, [] => []
  | a, b :: bs => (a, b) :: addrBytes (a + 1) bs

/-- A word is wholly covered by a write of `n` bytes at `a`. -/
def wordWhole (a n w : Nat) : Bool := decide (a ≤ w ∧ w + 4 ≤ a + n)

/-- Write bytes at `a`. A byte of a line with a fill outstanding is held for the fill (R206); a whole-word write
ends an uncorrectable word, a partial one does not (R195). -/
def memWrite (m : Mem) (a : Nat) (bs : List Byte) : Mem :=
  let es := addrBytes a bs
  let isHeld := fun (x : Nat) => m.fills.any (fun f => f.line ≤ x && decide (x < f.line + 256))
  { m with
    bytes := putBytes (memBase m) m.bytes (es.filter (fun e => !isHeld e.1))
    fills := m.fills.map (fun f =>
      { f with held := f.held ++ es.filter (fun e => decide (f.line ≤ e.1 ∧ e.1 < f.line + 256)) })
    ue := m.ue.filter (fun w => !wordWhole a bs.length w)
    ce := m.ce.filter (fun w => !wordWhole a bs.length w) }

/-- Mark words uncorrectable: they hold copies of words that were read so (R625). -/
def markUe (m : Mem) (ws : List Nat) : Mem := { m with ue := m.ue ++ ws.filter (fun w => !m.ue.contains w) }

/-- The words that `n` bytes at `a` touch. -/
def wordsOf (a n : Nat) : List Nat := if n = 0 then [] else (List.range ((a + n - 1) / 4 + 1 - a / 4)).map (fun i => 4 * (a / 4 + i))

/-- Write a copy of data that was read as uncorrectable: its words keep uncorrectable check bits (R625). -/
def memWriteBad (m : Mem) (a : Nat) (bs : List Byte) : Mem :=
  markUe (memWrite m a bs) (wordsOf a bs.length)

/-- The global site of a far address (R199). -/
def siteOf (a : Nat) : Option Nat :=
  match regionOf a with
  | .far h off => some (8 * h + off / 256 % 8)
  | _ => none

/-- The first word of each line of a range that lies on a site whose PLL has lost lock (R696). -/
def siteWords (m : Mem) (a n : Nat) : List Nat :=
  if m.badSites.isEmpty ∨ n = 0 then []
  else
    ((List.range ((a + n - 1) / 256 + 1 - a / 256)).map (fun i => max (a / 4 * 4) ((a / 256 + i) * 256))).filter
      (fun w => (siteOf w).any (fun s => m.badSites.contains s))

/-- The uncorrectable words among `n` bytes at `a`. -/
def ueIn (m : Mem) (a n : Nat) : List Nat := m.ue.filter (fun w => decide (w < a + n ∧ a < w + 4)) ++ siteWords m a n

/-- An uncorrectable word that a unit consumes from a gathered buffer also raises 0x8684, and R7 applies to every context
that binds the entry (R349). -/
def noteGathered (d : Dev) (w : Nat) : Dev :=
  (d.wv.bufs.filter (fun b => b.parts.any (fun p => decide (p.2.1 ≤ w ∧ w < p.2.1 + p.2.2)))).foldl
    (fun x b => stopBinders (raise x 0x8684 b.entry w) b.entry 0x8684) d

/-- Consume data: each uncorrectable word raises 0x8803 or 0x8805 and R7 applies (R231); it is counted per
tier (R196) or per site (R199). -/
def noteUe (d : Dev) (ctx : Nat) : List Nat → Dev
  | [] => d
  | w :: ws =>
    let d1 := match regionOf w with
      | .near h off => noteGathered (raiseFault (bump d 0x8051 (2 * h + off / 256 % 2 + 1) 1) 0x8803 w 0 ctx) w
      | .far h off => raiseFault (bump d 0x8053 (8 * h + off / 256 % 8 + 1) 1) 0x8805 w 0 ctx
      | .reserved => d
    noteUe d1 ctx ws

/-- A word read with one wrong bit is delivered corrected and counted per tier or site; the count of the last second
may pass the threshold (R230). -/
def noteCorrected (d : Dev) (w : Nat) : Dev :=
  match regionOf w with
  | .near h off => ceNote (bump d 0x8050 (2 * h + off / 256 % 2 + 1) 1) 0x4802 (2 * h + off / 256 % 2) (cfg d 0x8060 0) 1
  | .far h off => ceNote (bump d 0x8052 (8 * h + off / 256 % 8 + 1) 1) 0x4804 (8 * h + off / 256 % 8) (cfg d 0x8060 0) 1
  | .reserved => d

/-- The words with one wrong bit among `n` bytes at `a`. -/
def ceIn (m : Mem) (a n : Nat) : List Nat := m.ce.filter (fun w => decide (w < a + n ∧ a < w + 4))

/-- Single wrong bits in the words read are corrected, counted and written back (R230, R618). -/
def noteCorrects (d : Dev) (a n : Nat) : Dev :=
  let d1 := (ceIn d.mem a n).foldl noteCorrected d
  { d1 with mem := { d1.mem with ce := d1.mem.ce.filter (fun w => !(ceIn d.mem a n).contains w) } }

/-- What every read of device memory by a unit does with its check bits: wrong bits are corrected, counted and written
back (R230, R618), uncorrectable words are reported (R231). -/
def noteRead (d : Dev) (ctx a n : Nat) : Dev := noteUe (noteCorrects d a n) ctx (ueIn d.mem a n)

/-! ### The near-memory cache (R202 to R207). The bytes of a line are held once, in `Mem.bytes`; the cache
holds tags, so results never depend on it. -/

/-- Sets of a half's cache. DEDUCED, log 76. -/
def cacheSets (d : Dev) (half : Nat) : Nat := (nearSize - cacheStart d half) / 4096

/-- Key of the set a far line belongs to. DEDUCED, log 76. -/
def cacheKey (d : Dev) (line : Nat) : Nat :=
  let h := ownerHalf line
  h * 0x100000 + (line - farBase h) / 256 % cacheSets d h

/-- The tags of the set a line belongs to, by way. -/
def cacheSet (d : Dev) (line : Nat) : Tab CacheTag := tget [] d.mem.tags (cacheKey d line)

/-- The way that holds a line. -/
def cacheWay (s : Tab CacheTag) (line : Nat) : Option Nat := (s.find? (fun e => e.2.line == line)).map Prod.fst

/-- The way to fill: a free one, else one made first to evict, else the lowest not recently used, else way 0
(R204). -/
def victimWay (s : Tab CacheTag) : Nat :=
  match (List.range 16).find? (fun w => (tfind s w).isNone) with
  | some w => w
  | none =>
    match s.find? (fun e => e.2.evictFirst) with
    | some e => e.1
    | none =>
      match s.find? (fun e => !e.2.recent) with
      | some e => e.1
      | none => 0

/-- Mark a way recently used; when every way of the set is, the others become not recently used. -/
def touchWay (s : Tab CacheTag) (w : Nat) (t : CacheTag) : Tab CacheTag :=
  let s1 := tset s w { t with recent := true, evictFirst := false }
  if s1.length = 16 ∧ s1.all (fun e => e.2.recent) then
    s1.map (fun e => (e.1, { e.2 with recent := e.1 == w }))
  else s1

/-- A line leaves the cache: a dirty one is written back, each uncorrectable word in it is reported (R231). -/
def writeBack (d : Dev) (t : CacheTag) : Dev :=
  if t.dirty then
    (ueIn d.mem t.line 256).foldl (fun x w => raise x 0x8805 w 0) (bumpPart d 0x8055 (ownerHalf t.line + 1) 2 1)
  else d

/-- Replace the tags of a line's set. -/
def setCacheSet (d : Dev) (line : Nat) (s : Tab CacheTag) : Dev :=
  { d with mem := { d.mem with tags := tset d.mem.tags (cacheKey d line) s } }

/-- Allocate a line. -/
def cacheAllocate (d : Dev) (line : Nat) (dirty : Bool) : Dev :=
  let s := cacheSet d line
  let w := victimWay s
  let d1 := match tfind s w with
    | some t => writeBack d t
    | none => d
  setCacheSet d1 line (touchWay s w { line, dirty, recent := true, evictFirst := false })

/-- One access to a far line with hint `hint` (0 ALLOC, 1 STREAM, 2 EVICT; R205). `whole` says that a write
covers the full line. A read miss or a partial write miss that allocates leaves its fill outstanding; an access while
a fill of the line is outstanding allocates nothing more (R206).
DESIGN CHOICE, log 75. -/
def cacheAccess (d : Dev) (line hint : Nat) (write whole : Bool) : Dev :=
  let h := ownerHalf line
  if cacheShare d h = 0 then d
  else
    let s := cacheSet d line
    match cacheWay s line with
    | some w =>
      let t := tget { line, dirty := false, recent := false, evictFirst := false } s w
      let d1 := bumpPart d 0x8055 (h + 1) 0 1
      let t1 := { t with dirty := t.dirty || write }
      if hint = 2 ∧ t1.dirty then setCacheSet (writeBack d1 t1) line (tdel s w)
      else if hint = 1 then setCacheSet d1 line (tset s w { t1 with recent := false, evictFirst := true })
      else setCacheSet d1 line (touchWay s w t1)
    | none =>
      let d1 := bumpPart d 0x8055 (h + 1) 1 1
      if hint ≠ 0 ∨ d1.mem.fills.any (fun f => f.line == line) then d1
      else if write && whole then cacheAllocate d1 line true
      else { d1 with mem := { d1.mem with fills := d1.mem.fills ++ [{ line, held := [] }] } }

/-- What is known of the request that an access belongs to (R250): the lines at its start that an earlier access of the
same request has already gone to, whether the request covers a full line, the bytes of the request directly before and
after the access that are already written, and whether the data was read as uncorrectable (R625). -/
structure Acc where
  skip : Nat := 0
  whole : Bool := false
  before : Nat := 0
  after : Nat := 0
  bad : Bool := false
  deriving DecidableEq, Repr

/-- The far lines `n` bytes at `a` touch. -/
def linesOf (a n : Nat) : List Nat :=
  if n = 0 then []
  else
    match farLine a with
    | none => []
    | some l => (List.range ((a + n - 1 - l) / 256 + 1)).map (fun i => l + 256 * i)

/-- Far lines accessed one by one, but for those that the request has already gone to. -/
def cacheLines (d : Dev) (a n hint : Nat) (write : Bool) (q : Acc := {}) : Dev :=
  ((linesOf a n).drop q.skip).foldl
    (fun e l => cacheAccess e l hint write (q.whole || decide (a ≤ l ∧ l + 256 ≤ a + n))) d

/-- Bytes served to a requester in the other half are counted (R212); units that belong to no half are numbered 2.
DESIGN CHOICE, log 23. -/
def noteRemote (d : Dev) (half a n : Nat) : Dev :=
  if ownerHalf a = half ∨ 2 ≤ half then d else bump d 0x8056 (ownerHalf a + 1) n

/-- One read of device memory by a unit of half `half` for `ctx`: through the home cache (R202), counted when the other
half serves it (R212), its check bits looked at (R230, R231). The answer is the bytes. -/
def readThrough (d : Dev) (half ctx hint a n : Nat) (q : Acc := {}) : List Byte × Dev :=
  (memRead d.mem a n, noteRead (noteRemote (cacheLines d a n hint false q) half a n) ctx a n)

/-- The check bits of words that one request has written whole are fresh (R195, R250, R252). -/
def endBad (m : Mem) (a n : Nat) : Mem :=
  { m with ue := m.ue.filter (fun w => !wordWhole a n w), ce := m.ce.filter (fun w => !wordWhole a n w) }

/-- One write of device memory by a unit of half `half`. -/
def writeThrough (d : Dev) (half hint a : Nat) (bs : List Byte) (q : Acc := {}) : Dev :=
  let d1 := noteRemote (cacheLines d a bs.length hint true q) half a bs.length
  { d1 with mem :=
      if q.bad then memWriteBad d1.mem a bs
      else endBad (memWrite d1.mem a bs) (a - q.before) (q.before + bs.length + q.after) }

/-- The job may make this access: the range is its own (R198, R201), and the hint of a far access is defined (R205). -/
def accessOk (d : Dev) (hint a n : Nat) : Bool := accessible d a n && (hint != 3 || (farLine a).isNone)

/-- A checked read of device memory by a unit of half `half` working for `ctx`: an access the job may not make
raises 0x8810 and stops the context (R198, R205). DESIGN CHOICE, log 24. -/
def unitRead (d : Dev) (half ctx hint a n : Nat) (q : Acc := {}) : Option (List Byte) × Dev :=
  if accessOk d hint a n then (some (readThrough d half ctx hint a n q).1, (readThrough d half ctx hint a n q).2)
  else (none, raiseFault d 0x8810 a 0 ctx)

/-- A checked write of device memory. DESIGN CHOICE, log 24. -/
def unitWrite (d : Dev) (half ctx hint a : Nat) (bs : List Byte) (q : Acc := {}) : Dev :=
  if accessOk d hint a bs.length then writeThrough d half hint a bs q else raiseFault d 0x8810 a 0 ctx

/-- A write by a unit of the half that owns the address into the device's own structures, outside the job's checks. -/
def devWrite (d : Dev) (a : Nat) (bs : List Byte) : Dev := writeThrough d (ownerHalf a) 0 a bs

/-- A read by a unit of the half that owns the address, outside the job's checks. -/
def devRead (d : Dev) (ctx a n : Nat) : List Byte × Dev := readThrough d (ownerHalf a) ctx 0 a n

/-- Read several ranges for a unit of half `half`: whether every word of them could be delivered. -/
def readRanges (d : Dev) (half ctx : Nat) (zs : List (Nat × Nat)) : Bool × Dev :=
  zs.foldl (fun s z => (s.1 && (ueIn s.2.mem z.1 z.2).isEmpty, (readThrough s.2 half ctx 0 z.1 z.2).2)) (true, d)

/-- The words of a copy at `b` whose source words, of `n` bytes at `a`, are uncorrectable (R625). -/
def copyUe (m : Mem) (a n b : Nat) : List Nat := (ueIn m a n).map (fun w => (b + w - a) / 4 * 4)

/-! ### Spill regions (R227 to R229) -/

/-- Spill bytes in use on a half. -/
def spillUsed (d : Dev) (half : Nat) : Nat := sumN ((tget [] d.mem.spill half).map Prod.snd)

/-- The lowest free place for `n` bytes among allocated blocks that rise from `base`. -/
def firstGap (base n : Nat) : List (Nat × Nat) → Nat
  | [] => base
  | (a, l) :: rest => if base + n ≤ a then base else firstGap (max base (a + l)) n rest

/-- Insert a block in address order. -/
def insertBlock (b : Nat × Nat) : List (Nat × Nat) → List (Nat × Nat)
  | [] => [b]
  | c :: rest => if b.1 < c.1 then b :: c :: rest else c :: insertBlock b rest

/-- Show how much of a half's spill region is in use; past 7/8 raises 0x4808 once per step (R229). -/
def spillShow (d : Dev) (half : Nat) : Dev :=
  let used := spillUsed d half
  let d1 := setObj d 0x8022 (half + 1) used
  if cfg d 0x8021 (half + 1) * 7 < used * 8 then raiseStep d1 0x4808 half used else d1

/-- Allocate `n` spill bytes on a half (R229): the base, or none with event 0x8809 when it does not fit; past
7/8 use raises 0x4808 once per step. -/
def spillAlloc (d : Dev) (half n : Nat) : Option Nat × Dev :=
  let base := cfg d 0x8020 (half + 1)
  let size := cfg d 0x8021 (half + 1)
  let a := firstGap base n (tget [] d.mem.spill half)
  if base + size < a + n then (none, raise d 0x8809 half n)
  else
    let d1 := { d with mem := { d.mem with
      spill := tset d.mem.spill half (insertBlock (a, n) (tget [] d.mem.spill half)) } }
    (some a, spillShow d1 half)

/-- Free a spill block. -/
def spillFree (d : Dev) (half a : Nat) : Dev :=
  let d1 := { d with mem := { d.mem with
    spill := tset d.mem.spill half ((tget [] d.mem.spill half).filter (fun b => b.1 != a)) } }
  setObj d1 0x8022 (half + 1) (spillUsed d1 half)

end Sys2Proof.Machine
end

