-- ==== Sys2Proof/Machine/Rows.lean ====
section
/-! DEFINITION. The configured rows the scheduling units read: stage contexts, spawn links, parameter, update,
group and bucket entries, and route entries, by the fields of their tables. -/

namespace Sys2Proof.Machine

/-! ### Stage contexts (R273) -/

def ctxSched (d : Dev) (c : Nat) : Nat := fld (ctxRow d c) 254 253
def ctxPin (d : Dev) (c : Nat) : Bool := bitAt (ctxRow d c) 252
def ctxHead (d : Dev) (c : Nat) : Bool := bitAt (ctxRow d c) 251
def ctxTail (d : Dev) (c : Nat) : Bool := bitAt (ctxRow d c) 250
def ctxStage (d : Dev) (c : Nat) : Nat := fld (ctxRow d c) 249 240
def ctxCmask (d : Dev) (c : Nat) : Nat := fld (ctxRow d c) 239 224
def ctxWarm (d : Dev) (c : Nat) : Nat := fld (ctxRow d c) 223 216
def ctxM (d : Dev) (c : Nat) : Nat := fld (ctxRow d c) 215 200 + 1
def ctxGroup (d : Dev) (c : Nat) : Nat := fld (ctxRow d c) 199 196
def ctxVord (d : Dev) (c : Nat) : Nat := fld (ctxRow d c) 195 192
def ctxChunk (d : Dev) (c : Nat) : Nat := fld (ctxRow d c) 191 184 + 1
def ctxImage (d : Dev) (c : Nat) : Nat := fld (ctxRow d c) 47 0

/-- The clusters of a context, lowest first. -/
def ctxClusters (d : Dev) (c : Nat) : List Nat := setBits 16 (ctxCmask d c)

/-- The rank of a cluster in a context (R278). -/
def clusterRank (d : Dev) (c g : Nat) : Nat := popCount g (ctxCmask d c % 2 ^ g)

/-- The half of a context's lowest cluster. -/
def ctxHalf (d : Dev) (c : Nat) : Nat := (ctxClusters d c).headD 0 / 8

/-- The contexts of an interleave group. -/
def groupCtxs (d : Dev) (g : Nat) : List Nat :=
  (enabledCtxs d).filter (fun c => ctxSched d c == 1 && ctxGroup d c == g)

/-! ### Spawn links (R303) -/

/-- The row of a context's links. -/
def linkRow (d : Dev) (c : Nat) : Nat := cfg d 0x6110 (c + 1)

/-- Base, slot bytes and slot count of the receive pool of queue kind `k`. -/
def poolBase (d : Dev) (c k : Nat) : Nat := if k = 0 then fld (linkRow d c) 511 464 else fld (linkRow d c) 422 375
def poolSlot (d : Dev) (c k : Nat) : Nat := if k = 0 then fld (linkRow d c) 463 432 else fld (linkRow d c) 374 343
def poolCount (d : Dev) (c k : Nat) : Nat := if k = 0 then fld (linkRow d c) 431 423 else fld (linkRow d c) 342 334
def poolRes (d : Dev) (c k : Nat) : Nat := if k = 0 then fld (linkRow d c) 297 291 else fld (linkRow d c) 290 284

/-- This device's ID (R497). -/
def ownDev (d : Dev) : Nat := cfg d 0x9010 0

/-- The configured sender of queue kind `k` of a context: (device, context, KIND) (R304, R309). -/
def queuePeer (d : Dev) (c k : Nat) : Option (Nat × Nat × Nat) :=
  if !ctxEn d c then none
  else if k = 0 then (if ctxHead d c then none else some (fld (linkRow d c) 315 304, fld (linkRow d c) 303 298, 0))
  else if ctxTail d c then some (ownDev d, c, 0)
  else some (fld (linkRow d c) 333 322, fld (linkRow d c) 321 316, 1)

/-- Where the entry of a task goes: (device, context, queue kind); none for a BWD of a HEAD context (R284). -/
def emitDest (d : Dev) (c : Nat) (bwd : Bool) : Option (Nat × Nat × Nat) :=
  if bwd then (if ctxHead d c then none else some (fld (linkRow d c) 315 304, fld (linkRow d c) 303 298, 1))
  else if ctxTail d c then some (ownDev d, c, 1)
  else some (fld (linkRow d c) 333 322, fld (linkRow d c) 321 316, 0)

/-- Where the spill area of inbound queue `q` lies: the areas of a half's enabled contexts follow one another from the start
of its spill region (R312, R313). DESIGN CHOICE, log 90. -/
def spillArea (d : Dev) (q : Nat) : Nat :=
  let h := ctxHalf d (q / 2)
  cfg d 0x8020 (h + 1) + 16384 * (2 * ((enabledCtxs d).filter (fun c => ctxHalf d c == h && decide (c < q / 2))).length + q % 2)

/-! ### Keyed entries (R720) -/

/-- What a keyed entry reads before it is committed: its fields' Reset columns (R94, R321, R373, R439). -/
def keyedDefault (idx : Nat) : Nat :=
  if idx = 0x5012 then 3 <<< 25 + 16 <<< 16 + 1 <<< 15 + 0x3F800000 <<< 32 + 0x3F800000 <<< 64
  else if idx = 0x6812 then 2 <<< 483
  else if idx = 0x6912 then 1 <<< 510 + 1 <<< 501
  else if idx = 0xA012 then 2 <<< 1007
  else if idx = 0xA812 then 1 <<< 471 + 1 <<< 467 + 1 <<< 463
  else 0

/-- The keyed entry `key` of stage object `idx` in force. -/
def keyedAt (d : Dev) (idx key : Nat) : Nat := tget (keyedDefault idx) d.keyed (idx * 2 ^ 24 + key)

/-- The keys of stage object `idx` that hold a committed entry. -/
def keyedKeys (d : Dev) (idx : Nat) : List Nat :=
  (d.keyed.filter (fun e => e.1 / 2 ^ 24 == idx)).map (fun e => e.1 % 2 ^ 24)

/-! ### Parameter entries (R321) -/

def parRow (d : Dev) (e : Nat) : Nat := keyedAt d 0x6812 e
def parEn (d : Dev) (e : Nat) : Bool := bitAt (parRow d e) 511
def parPid (d : Dev) (e : Nat) : Nat := fld (parRow d e) 510 487
def parRing (d : Dev) (e : Nat) : Nat := fld (parRow d e) 486 483
def parGhalf (d : Dev) (e : Nat) : Nat := fld (parRow d e) 482 481
def parPref (d : Dev) (e : Nat) : Bool := bitAt (parRow d e) 480
def parVfmt (d : Dev) (e : Nat) : Nat := fld (parRow d e) 479 476
def parRank (d : Dev) (e : Nat) : Nat := fld (parRow d e) 475 470
def parNmem (d : Dev) (e : Nat) : Nat := fld (parRow d e) 469 464
def parGroup (d : Dev) (e : Nat) : Nat := fld (parRow d e) 463 448
def parVbase (d : Dev) (e : Nat) : Nat := fld (parRow d e) 447 400
def parVbytes (d : Dev) (e : Nat) : Nat := fld (parRow d e) 399 368
def parGjaddr (d : Dev) (e : Nat) : Nat := fld (parRow d e) 367 320
def parGbytes (d : Dev) (e : Nat) : Nat := fld (parRow d e) 319 288
def parVpte (d : Dev) (e : Nat) : Nat := fld (parRow d e) 287 240
def parVinit (d : Dev) (e : Nat) : Nat := fld (parRow d e) 239 208

/-- The enabled parameter entries. -/
def enabledPars (d : Dev) : List Nat := (keyedKeys d 0x6812).filter (parEn d)

/-- The enabled entry that holds a parameter number. -/
def parOf (d : Dev) (pid : Nat) : Option Nat := (enabledPars d).find? (fun e => parPid d e == pid)

/-! ### Update entries (R373) and hyperparameter sets (R375) -/

def updRow (d : Dev) (e : Nat) : Nat := keyedAt d 0x6912 e
def updOpt (d : Dev) (e : Nat) : Nat := fld (updRow d e) 511 510
def updHset (d : Dev) (e : Nat) : Nat := fld (updRow d e) 509 504
def updRm (d : Dev) (e : Nat) : Nat := fld (updRow d e) 503 502
def updSat (d : Dev) (e : Nat) : Bool := bitAt (updRow d e) 501
def updUses (d : Dev) (e : Nat) : Nat := fld (updRow d e) 500 499
def updClipg (d : Dev) (e : Nat) : Nat := fld (updRow d e) 498 495
def updVtsen (d : Dev) (e : Nat) : Bool := bitAt (updRow d e) 494
def updVts (d : Dev) (e : Nat) : Nat := fld (updRow d e) 493 478
def updStream (d : Dev) (e : Nat) : Nat := fld (updRow d e) 477 466
def updExp (d : Dev) (e : Nat) : Nat := fld (updRow d e) 465 450
def updEoff (d : Dev) (e : Nat) : Nat := fld (updRow d e) 449 410
def updNelem (d : Dev) (e : Nat) : Nat := fld (updRow d e) 409 378
def updMbase (d : Dev) (e : Nat) : Nat := fld (updRow d e) 377 330
def updM1base (d : Dev) (e : Nat) : Nat := fld (updRow d e) 329 282
def updM2base (d : Dev) (e : Nat) : Nat := fld (updRow d e) 281 234
def updAbase (d : Dev) (e : Nat) : Nat := fld (updRow d e) 233 186

/-! ### Groups (R439) and buckets (R441) -/

def grpRow (d : Dev) (g : Nat) : Nat := keyedAt d 0xA012 g
def grpEn (d : Dev) (g : Nat) : Bool := bitAt (grpRow d g) 1023
def grpNmem (d : Dev) (g : Nat) : Nat := fld (grpRow d g) 1022 1017
def grpRank (d : Dev) (g : Nat) : Nat := fld (grpRow d g) 1016 1011
def grpMcast (d : Dev) (g : Nat) : Bool := bitAt (grpRow d g) 1010
def grpFan (d : Dev) (g : Nat) : Nat := fld (grpRow d g) 1009 1007
def grpMember (d : Dev) (g r : Nat) : Nat := fld (grpRow d g) (12 * r + 11) (12 * r)

/-- The members of a group in rank order. -/
def grpMembers (d : Dev) (g : Nat) : List Nat := (List.range (grpNmem d g + 1)).map (grpMember d g)

/-- The rank of a device in a group. -/
def grpRankOf (d : Dev) (g dev : Nat) : Option Nat := (List.range (grpNmem d g + 1)).find? (fun r => grpMember d g r == dev)

def bktRow (d : Dev) (b : Nat) : Nat := keyedAt d 0xA015 b
def bktEn (d : Dev) (b : Nat) : Bool := bitAt (bktRow d b) 127
def bktPent (d : Dev) (b : Nat) : Nat := fld (bktRow d b) 126 115
def bktUse (d : Dev) (b : Nat) : Nat := fld (bktRow d b) 114 113
def bktHalf (d : Dev) (b : Nat) : Nat := fld (bktRow d b) 112 112
def bktRb0 (d : Dev) (b : Nat) : Nat := fld (bktRow d b) 111 96
def bktNrb (d : Dev) (b : Nat) : Nat := fld (bktRow d b) 95 80
def bktCblk (d : Dev) (b : Nat) : Nat := fld (bktRow d b) 79 64
def bktShrows (d : Dev) (b : Nat) : Nat := fld (bktRow d b) 63 40
def bktRows (d : Dev) (b : Nat) : Nat := fld (bktRow d b) 39 16

/-- Blocks of a bucket (R444). -/
def bktNblk (d : Dev) (b : Nat) : Nat := bktNrb d b * 32 * bktCblk d b

/-- The group of a bucket's parameter. -/
def bktGroup (d : Dev) (b : Nat) : Nat := parGroup d (bktPent d b)

/-- Rows a rank owns (R442): first, and one past the last. -/
def rankRows (d : Dev) (b r : Nat) : Nat × Nat := (r * bktShrows d b, min ((r + 1) * bktShrows d b) (bktRows d b))

/-- The block range of the part of owner `r` in a bucket's arrays (R450): first block and number of blocks. -/
def bktPart (d : Dev) (b r : Nat) : Nat × Nat :=
  let rs := rankRows d b r
  let lo := max (rs.1 / 4) (32 * bktRb0 d b)
  let hi := min (ceilDiv rs.2 4) (32 * (bktRb0 d b + bktNrb d b))
  ((lo - 32 * bktRb0 d b) * bktCblk d b, (hi - lo) * bktCblk d b)

/-- Ranks whose rows meet a bucket's row-blocks, lowest first. -/
def bktOwners (d : Dev) (b : Nat) : List Nat :=
  (List.range (grpNmem d (bktGroup d b) + 1)).filter (fun r => decide (0 < (bktPart d b r).2))

/-- A context's program reads: the value of a little-endian word of device memory. -/
def word32 (d : Dev) (a : Nat) : Nat := memVal d.mem a 4

end Sys2Proof.Machine
end

