-- ==== Sys2Proof/Machine/Relay.lean ====
section
/-! DEFINITION. Relay links (chapter 14): flits and their streams, credits, training, croaks, lane and quad
failure, and the routing of messages. -/

namespace Sys2Proof.Machine

/-! ### Records -/

/-- Quad `q`. -/
def quadAt (d : Dev) (q : Nat) : Quad := tget quadReset d.rl.quads q

/-- Replace quad `q`. -/
def setQuad (d : Dev) (q : Nat) (x : Quad) : Dev := { d with rl := { d.rl with quads := tset d.rl.quads q x } }

/-- Stream `s` of this device. -/
def streamAt (d : Dev) (s : Nat) : Stream := tget streamReset d.rl.streams s

/-- Replace stream `s`. -/
def setStream (d : Dev) (s : Nat) (x : Stream) : Dev := { d with rl := { d.rl with streams := tset d.rl.streams s x } }

/-- What is kept for stream `s` of peer `p`. -/
def rxAt (d : Dev) (p s : Nat) : RxStream := tget rxReset d.rl.rx (16 * p + s)

/-- Replace it. -/
def setRx (d : Dev) (p s : Nat) (x : RxStream) : Dev := { d with rl := { d.rl with rx := tset d.rl.rx (16 * p + s) x } }

/-- The configured role of a quad (R401). -/
def quadRole (d : Dev) (q : Nat) : Nat := fld (cfg d 0x9011 0) (2 * q + 1) (2 * q)

/-- The role a quad trains against (R402). -/
def pairedRole : Nat → Nat
  | 0 => 1
  | 1 => 0
  | r => r

/-- Flits of channel `vc` in `RelayCreditSplit` (R414). -/
def splitCredits (d : Dev) (vc : Nat) : Nat := 64 * fld (cfg d 0x9016 0) (31 - 8 * vc) (24 - 8 * vc)

/-- Quads in state up. -/
def upQuads (d : Dev) : List Nat := (List.range 16).filter (fun q => (quadAt d q).state == 2)

/-! ### Sending flits (R406 to R411, R415) -/

/-- The stream of a quad's peer with acknowledgements due, if any. -/
def ackDue (d : Dev) (q : Nat) : Option Nat :=
  (List.range 16).find? (fun s => decide (0 < (rxAt d (quadAt d q).peerDev s).unacked))

/-- The channel whose credits are returned next: in rotation across successive headers (R415).
DESIGN CHOICE, log 45. -/
def creditNext (x : Quad) : Option Nat :=
  ((List.range 4).map (fun i => (x.rotate + i) % 4)).find? (fun v => decide (0 < tget 0 x.owed v))

/-- The acknowledgement and credit fields of the next flit a quad sends; what they carry is no longer due. -/
def takeHead (d : Dev) (q : Nat) (nakOf : Option Nat) : FlitAck × Dev :=
  let x := quadAt d q
  let s := nakOf.orElse (fun _ => ackDue d q)
  let r := rxAt d x.peerDev (s.getD 0)
  let d1 := match s with
    | some k => setRx d x.peerDev k { r with unacked := 0 }
    | none => d
  let c := creditNext x
  let n := min 8191 (tget 0 x.owed (c.getD 0))
  let d2 := match c with
    | some v => setQuad d1 q { x with owed := tset x.owed v (tget 0 x.owed v - n), rotate := (v + 1) % 4 }
    | none => d1
  ({ astream := s.getD 0, aseq := if s.isSome then (r.expected + 4095) % 4096 else 0, nak := nakOf.isSome
     avalid := s.isSome, cvc := c.getD 0, credit := if c.isSome then n else 0 }, d2)

/-- The header's fields as the record of sent flits shows them. -/
def ackFields (a : FlitAck) : List Nat := [a.astream, a.aseq, b2n a.nak, b2n a.avalid, a.cvc, a.credit]

/-- The payload of a croak (R428) as units: what a flit of another unsequenced type carries the manual does not lay out.
DEDUCED, log 98. -/
def croakUnits : List Nat → List Nat
  | [dev, quad, role, pstate, cseq, mclive] =>
    [dev % 4096 * 2 ^ 116 + quad % 16 * 2 ^ 112 + role % 4 * 2 ^ 110 + pstate % 4 * 2 ^ 108 + cseq % 65536 * 2 ^ 92 +
      mclive % 65536 * 2 ^ 76]
  | _ => []

/-- Send an unsequenced flit of type `kind` (R408) with its CRC (R407). DEDUCED, log 98. -/
def sendFlit (d : Dev) (q kind : Nat) (nakOf : Option Nat) (fields : List Nat) : Dev :=
  let h := takeHead d q nakOf
  send h.2 (.flit q kind (ackFields h.1 ++ fields ++ [flitCrc (flitHeader kind 0 0 h.1 0 15) (croakUnits fields)]))

/-- Put one DATA flit of stream `s` on quad `q`, with its CRC (R407). -/
def putFlit (d : Dev) (q s : Nat) (f : TxFlit) : Dev :=
  let h := takeHead d q none
  bump (send h.2 (.flit q 1 (ackFields h.1 ++ [s, f.seq, f.vc, f.msgoff] ++ f.units ++
    [flitCrc (flitHeader 1 s f.seq h.1 f.vc f.msgoff) f.units]))) 0x9031 (q + 1) 1

/-- The quad that carries stream `s`. -/
def carrierOf (d : Dev) (s : Nat) : Nat := (streamAt d s).carrier.getD s

/-- Send waiting flits of stream `s` while its channel has credit and the replay buffer has room. -/
def pumpStream : Nat → Nat → Dev → Dev
  | 0, _, d => d
  | fuel + 1, s, d =>
    let x := streamAt d s
    let q := carrierOf d s
    let u := quadAt d q
    match x.waiting.find? (fun f => decide (0 < tget 0 u.credits f.vc)) with
    | none => d
    | some f =>
      if u.state = 2 ∧ x.unacked.length < cfg d 0x9001 0 then
        let g := { f with seq := x.nextSeq }
        let d1 := setStream d s { x with nextSeq := (x.nextSeq + 1) % 4096, unacked := x.unacked ++ [g]
                                         waiting := x.waiting.erase f }
        let d2 := setQuad d1 q { u with credits := tset u.credits f.vc (tget 0 u.credits f.vc - 1) }
        pumpStream fuel s (putFlit d2 q s g)
      else d

/-- Send what can be sent of every stream that quad `q` carries. -/
def pumpQuad (d : Dev) (q : Nat) : Dev :=
  ((List.range 16).filter (fun s => carrierOf d s == q)).foldl
    (fun x s => pumpStream ((streamAt x s).waiting.length + 1) s x) d

/-- The 16 B units of a message: header, then the padded body (R418, R419). -/
def msgUnits (m : RelayMsg) : List Nat :=
  m.header :: (List.range (ceilDiv m.body.length 16)).map (fun i => leVal ((m.body.drop (16 * i)).take 16))

/-- Cut a message into flit payloads of 15 units; unused units are 0. DESIGN CHOICE, log 45. -/
def cutFlits (vc : Nat) : Nat → Bool → List Nat → List TxFlit
  | 0, _, _ => []
  | fuel + 1, first, us =>
    if us.isEmpty then []
    else { seq := 0, vc, msgoff := if first then 0 else 15, units := padTo 15 0 us } :: cutFlits vc fuel false (us.drop 15)

/-- Hand a message to quad `q` for sending. -/
def queueMsg (d : Dev) (q : Nat) (m : RelayMsg) : Dev :=
  let vc := 2 * fld m.header 121 121 + fld m.header 120 120
  let us := msgUnits m
  let s := streamAt d q
  pumpQuad (setStream d q { s with waiting := s.waiting ++ cutFlits vc (us.length + 1) true us }) (carrierOf d q)

/-! ### Routing (R418 to R427) -/

/-- Form a message header (R418). -/
def msgHeader (kind role rsp vl dst src hops flow len arg : Nat) : Nat :=
  kind % 16 * 2 ^ 124 + role % 4 * 2 ^ 122 + rsp % 2 * 2 ^ 121 + vl % 2 * 2 ^ 120 + dst % 4096 * 2 ^ 108 +
    src % 4096 * 2 ^ 96 + hops % 256 * 2 ^ 88 + flow % 256 * 2 ^ 80 + len % 1024 * 2 ^ 70 + arg % 2 ^ 64

/-- The route entry of a destination (R422). -/
def routeOf (d : Dev) (dst : Nat) : Nat := keyedAt d 0x9022 dst

/-- KIND is one of R420. -/
def kindOk (k : Nat) : Bool := decide (1 ≤ k ∧ k ≤ 10)

/-- The peer's bit in `RelayPeerDownMap`. -/
def peerDown (d : Dev) (dev : Nat) : Bool := bitAt (cfg d 0x9052 0) dev

/-- The device whose route entry a destination uses: the spare of its alias, or itself (R606). -/
def aliasOf (d : Dev) (dst : Nat) : Nat :=
  match (List.range 16).find? (fun i => bitAt (cfg d 0xC215 (i + 1)) 31 && fld (cfg d 0xC215 (i + 1)) 27 16 == dst) with
  | some i => fld (cfg d 0xC215 (i + 1)) 11 0
  | none => dst

/-- The quads that may carry a message now (R423). -/
def usableQuads (d : Dev) (h : Nat) : List Nat :=
  (setBits 16 (fld (routeOf d (aliasOf d (fld h 119 108))) 31 16)).filter
    (fun q => quadRole d q == fld h 123 122 && (quadAt d q).state == 2)

/-- The choice of R423. DESIGN CHOICE, log 45. -/
def chooseQuad (d : Dev) (h : Nat) : Option Nat :=
  let qs := usableQuads d h
  if qs.isEmpty then none else qs[(fld h 107 96 + 7 * fld h 119 108 + 31 * fld h 87 80) % qs.length]?

/-- Deliver a message to its unit on this device: it is recorded, and comes back as that unit's command. -/
def deliverMsg (d : Dev) (m : RelayMsg) : Dev :=
  send d (.msg (ownDev d) (fld m.header 127 124) [m.header] m.body)

/-- Count a drop and keep the header (R426). -/
def noteDrop (d : Dev) (h : Nat) : Dev :=
  raiseStep (setObj (bump d 0x9050 0 1) 0x9051 0 h) 0x4910 (fld h 119 108) h

/-- Send a formed message on its way: deliver it, choose a quad, or drop it (R423, R426). `transit` says that it
came from a quad, so that HOPS and the dateline are applied (R424, R425). -/
def forwardMsg (d : Dev) (m : RelayMsg) (transit : Bool) : Option Dev :=
  let h := m.header
  let dst := fld h 119 108
  if !kindOk (fld h 127 124) then none
  else if dst = ownDev d then some (deliverMsg d m)
  else if !bitAt (routeOf d (aliasOf d dst)) 15 || peerDown d (aliasOf d dst) || (transit && fld h 95 88 == 0) then none
  else
    match chooseQuad d h with
    | none => none
    | some q =>
      let h1 := if transit then setFld h 95 88 (fld h 95 88 - 1) else h
      let h2 := if bitAt (routeOf d (aliasOf d dst)) 14 then setFld h1 120 120 1 else h1
      some (queueMsg d q { m with header := h2 })

/-- The UNREACH that answers a dropped request (R426). -/
def unreachMsg (d : Dev) (h : Nat) : RelayMsg :=
  { header := msgHeader 0xA (fld h 123 122) 1 0 (fld h 107 96) (ownDev d) (cfg d 0x9018 0) (fld h 87 80) 0 (fld h 127 64)
    body := [] }

/-- Drop a message (R426). -/
def dropMsg (d : Dev) (h : Nat) : Dev :=
  let d1 := noteDrop d h
  if bitAt h 121 then d1
  else
    match forwardMsg d1 (unreachMsg d1 h) false with
    | some d2 => d2
    | none => noteDrop d1 (unreachMsg d1 h).header

/-- Route one message (R423 to R426); an arriving message of a fenced device is dropped (R604). -/
def routeMsg (d : Dev) (m : RelayMsg) (transit : Bool) : Dev :=
  if transit && d.rl.fenced.contains (fld m.header 107 96) then dropMsg d m.header
  else match forwardMsg d m transit with
  | some d1 => d1
  | none =>
    let d0 := if transit && fld m.header 95 88 == 0 && fld m.header 119 108 != ownDev d && kindOk (fld m.header 127 124) then
        raiseStep d 0x8911 0 m.header else d
    dropMsg d0 m.header

/-- A unit of this device sends a message (R419): `role` its ROLE, `arg` and `body` its own. -/
def relaySend (d : Dev) (dst kind role rsp flow arg : Nat) (body : List Byte) : Dev :=
  routeMsg d { header := msgHeader kind role rsp 0 dst (ownDev d) (cfg d 0x9018 0) flow (ceilDiv body.length 16) arg
               body } false

/-- Take the first whole message from a channel's received units; filler units before it are dropped. -/
def takeMsg : Nat → List Nat → Option (RelayMsg × List Nat × Nat)
  | _, [] => none
  | n, h :: us =>
    if h = 0 then takeMsg (n + 1) us
    else
      let len := fld h 79 70
      if us.length < len then none
      else some ({ header := h, body := (us.take len).flatMap (leBytes 16) }, us.drop len, n + len + 1)

/-- R423: a whole message of channel `vc` of quad `q` is taken from the receive buffer, with the filler up to the next
message, and routed; freed flit buffers owe their credits (R415). The SECDED bits formed over its words on receipt are
verified as they are read (R413): with an uncorrectable word the message is not passed on, and the word is reported (R624,
R626). DESIGN CHOICE, log 97. -/
def messageRoute (d : Dev) (q vc : Nat) : Dev :=
  let x := quadAt d q
  match takeMsg 0 (tget [] x.rx vc) with
  | none => d
  | some (m, rest, used) =>
    let tail := rest.dropWhile (fun u => u == 0)
    let gone := used + (rest.length - tail.length)
    let t := tget 0 x.taken vc + gone
    let marks := tget [] x.rxBad vc
    let d1 := setQuad d q { x with rx := tset x.rx vc tail, taken := tset x.taken vc (t % 15)
                                   owed := tset x.owed vc (tget 0 x.owed vc + t / 15)
                                   rxBad := tset x.rxBad vc ((marks.filter (fun i => decide (gone ≤ i))).map (fun i => i - gone)) }
    if marks.any (fun i => decide (i < used)) then raise (bump d1 0xD826 0 1) 0x8D85 q 0 else routeMsg d1 m true

/-! ### Quad state, peers and moved streams (R429 to R435) -/

/-- `RelayQuadStatus` (R437). -/
def quadStatus (d : Dev) (q : Nat) : Nat :=
  let x := quadAt d q
  if x.trained then
    x.state * 2 ^ 61 + x.rate * 2 ^ 59 + quadRole d q * 2 ^ 57 + x.lmask * 2 ^ 53 + x.peerDev * 2 ^ 41 + x.peerQ * 2 ^ 37 +
      x.pver * 2 ^ 33 + x.pstate * 2 ^ 31
  else x.state * 2 ^ 61 + quadRole d q * 2 ^ 57

/-- A quad that no longer serves its peer (R431). -/
def quadLost (x : Quad) : Bool := x.state == 4 || x.state == 5 || (x.state == 0 && x.idChanged)

/-- R431: a peer none of whose quads is left is down. -/
def peerCheck (d : Dev) (q : Nat) : Dev :=
  let x := quadAt d q
  let qs := (List.range 16).filter (fun i => (quadAt d i).trained && (quadAt d i).peerDev == x.peerDev)
  if x.trained && qs.all (fun i => quadLost (quadAt d i)) && !peerDown d x.peerDev then
    raise (setObj d 0x9052 0 (cfg d 0x9052 0 + 2 ^ x.peerDev)) 0x8920 x.peerDev x.pstate
  else d

/-- R435: stream `s` moves to the lowest up quad of the same role to the same peer; its unacknowledged flits go
first, unchanged. With no such quad its flits are discarded. -/
def moveStream (d : Dev) (q s : Nat) : Dev :=
  let x := streamAt d s
  let dest := (upQuads d).find? (fun i => i != q && quadRole d i == quadRole d q && (quadAt d i).peerDev == (quadAt d q).peerDev)
  match dest with
  | none => setStream d s { x with unacked := [], waiting := [] }
  | some t =>
    let d1 := x.unacked.foldl (fun y f => putFlit y t s f) (setStream d s { x with carrier := some t })
    pumpStream ((streamAt d1 s).waiting.length + 1) s d1

/-- The quad's streams move, and the peer may be down. -/
def quadFail (d : Dev) (q : Nat) : Dev :=
  let ss := (List.range 16).filter (fun s => carrierOf d s == q)
  peerCheck (ss.foldl (fun x s => moveStream x q s) d) q

/-- A quad becomes down (R435). -/
def quadDown (d : Dev) (q : Nat) : Dev :=
  quadFail (raise (setQuad d q { quadAt d q with state := 5, croakOut := none }) 0x8906 q 0) q

/-- A quad retrains (R434). -/
def quadRetrainOne (d : Dev) (q : Nat) : Dev :=
  raise (setQuad d q { quadAt d q with state := 3, croakOut := none, misses := 0 }) 0x4905 q 0

/-- Send every unacknowledged flit of the streams on quad `q` again, oldest first (R411), from the flit after
`aseq` of stream `s`. -/
def replayStream (d : Dev) (q s : Nat) : Dev :=
  let x := streamAt d s
  match x.unacked with
  | [] => d
  | f :: _ =>
    let n := if x.replayAt = f.seq then x.replays + 1 else 1
    let d1 := bump (setStream d s { x with replays := n, replayAt := f.seq }) 0x9034 (q + 1) 1
    let d2 := x.unacked.foldl (fun y g => putFlit y q s g) d1
    if cfg d 0x9017 0 ≤ n then quadRetrainOne d2 q else d2

/-- Flits of `l` left when everything up to `aseq` has been accepted. -/
def ackedOff (aseq : Nat) (l : List TxFlit) : List TxFlit :=
  l.filter (fun f => decide (0 < (f.seq + (4096 - aseq)) % 4096 ∧ (f.seq + (4096 - aseq)) % 4096 ≤ 2048))

/-- The ack and credit fields of an arriving flit (R408 to R411, R415). -/
def takeAck (d : Dev) (q : Nat) (a : FlitAck) : Dev :=
  let x := quadAt d q
  let d1 := setQuad d q { x with credits := tset x.credits a.cvc (tget 0 x.credits a.cvc + a.credit) }
  let d2 :=
    if a.avalid then
      let s := streamAt d1 a.astream
      let left := ackedOff a.aseq s.unacked
      let s1 := if left.length < s.unacked.length then { s with unacked := left, replays := 0, replayAt := 4096 } else s
      let d3 := setStream d1 a.astream s1
      if a.nak then replayStream d3 (carrierOf d3 a.astream) a.astream else d3
    else d1
  pumpQuad d2 q

/-! ### Flits (R408 to R411) -/

/-- R410: the acknowledgement interval expires with flits unacknowledged. -/
def ackTimer (d : Dev) (q : Nat) : Dev :=
  if (quadAt d q).state = 2 ∧ (ackDue d q).isSome then sendFlit d q 2 none [] else d

/-- R415: the credit return interval expires while credits are owed. -/
def creditReturnTimer (d : Dev) (q : Nat) : Dev :=
  if (quadAt d q).state = 2 ∧ (creditNext (quadAt d q)).isSome then sendFlit d q 2 none [] else d

/-- R409: a DATA flit arrives. Its payload words are taken, and SECDED bits formed over them, only once its CRC has passed
(R413). -/
def dataFlit (d : Dev) (q : Nat) (f : DataFlit) : Dev :=
  let u := quadAt d q
  if u.state ≠ 2 then d
  else
    let ok := flitOk f
    let d0 := if ok then takeAck d q f.ack else d
    let p := u.peerDev
    let r := rxAt d0 p f.stream
    let behind := (r.expected + (4096 - f.seq)) % 4096
    if ok ∧ f.seq = r.expected then
      let x := quadAt d0 q
      let d1 := setQuad d0 q { x with rx := tset x.rx f.fvc (tget [] x.rx f.fvc ++ padTo 15 0 f.units) }
      let d2 := bump d1 0x9032 (q + 1) 1
      let d3 := setRx d2 p f.stream { expected := (f.seq + 1) % 4096, nakSent := false, unacked := r.unacked + 1 }
      if 64 ≤ r.unacked + 1 then sendFlit d3 q 2 none [] else d3
    else if ok ∧ 1 ≤ behind ∧ behind ≤ 2048 then bump d0 0x9033 (q + 1) 1
    else
      let d1 := bump d0 0x9033 (q + 1) 1
      if r.nakSent then d1
      else sendFlit (setRx d1 p f.stream { r with nakSent := true }) q 2 (some f.stream) []

/-- R410, R415: a CTRL flit carries acknowledgements, NAKs and credits. -/
def ctrlFlit (d : Dev) (q : Nat) (a : FlitAck) : Dev := if (quadAt d q).state = 2 then takeAck d q a else d

/-- R408: an IDLE flit's ack and credit fields are taken. -/
def idleFlit (d : Dev) (q : Nat) (a : FlitAck) : Dev := if (quadAt d q).state = 2 then takeAck d q a else d

/-- R411: the oldest unacknowledged flit of a stream on quad `q` has seen no progress for 8 µs. -/
def replayTimeout (d : Dev) (q : Nat) : Dev :=
  if (quadAt d q).state ≠ 2 then d
  else
    match (List.range 16).find? (fun s => carrierOf d s == q && !(streamAt d s).unacked.isEmpty) with
    | some s => replayStream d q s
    | none => d

/-- R417: a channel has been without credit for `ns`, longer than the limit. -/
def creditStall (d : Dev) (q vc ns : Nat) : Dev :=
  if (quadAt d q).state = 2 ∧ tget 0 (quadAt d q).credits vc = 0 then
    let d1 := bump d 0x9037 (q + 1) ns
    if cfg d 0x9019 0 * 1000 < ns then raiseStep d1 0x4912 (4 * q + vc) ns else d1
  else d

/-! ### Training (R402 to R405, R434) -/

/-- The lane mask to use among lanes that lock: four, a pair, one (R404). -/
def pickLanes (m : Nat) : Option Nat :=
  if m % 16 = 15 then some 15
  else if fld m 1 0 = 3 then some 3
  else if fld m 3 2 = 3 then some 12
  else ((List.range 4).find? (bitAt m)).map (fun i => 2 ^ i)

/-- Rate code of a rate in Gbit/s (R437). -/
def rateCode (g : Nat) : Nat := if g = 200 then 0 else if g = 100 then 1 else 2

/-- The rate and lanes a quad trains at: from the lower cap down to the floor (R404). -/
def pickRate (cap floor : Nat) (t : TrainInfo) : Option (Nat × Nat) :=
  ([(200, t.lanes200), (100, t.lanes100), (50, t.lanes50)].filter (fun r => decide (r.1 ≤ cap ∧ floor ≤ r.1))).findSome?
    (fun r => (pickLanes r.2).map (fun m => (r.1, m)))

/-- A stream starts again at SEQ 0; what was unacknowledged is sent again from there (R404).
DESIGN CHOICE, log 45. -/
def restartStream (d : Dev) (q : Nat) : Dev :=
  let x := streamAt d q
  setStream d q { x with nextSeq := 0, unacked := [], waiting := x.unacked ++ x.waiting, carrier := none, replays := 0
                         replayAt := 4096 }

/-- Route the whole messages that wait on channel `vc` of a quad. -/
def drainRx (q vc : Nat) : Nat → Dev → Dev
  | 0, d => d
  | fuel + 1, d => if (takeMsg 0 (tget [] (quadAt d q).rx vc)).isSome then drainRx q vc fuel (messageRoute d q vc) else d

/-- What a quad accepted before it trains again goes on to its units; the rest of the receive buffer is given up (R417,
R435). DESIGN CHOICE, log 45. -/
def settleRx (d : Dev) (q : Nat) : Dev :=
  [0, 1, 2, 3].foldl (fun x vc => drainRx q vc (tget [] (quadAt x q).rx vc).length x) d

/-- R404: quad `q` steps through bring-up with what its training finds, unless its clock is lost (R696). -/
def quadTrain (d0 : Dev) (q : Nat) (t : TrainInfo) : Dev :=
  let d := settleRx d0 q
  let x := quadAt d q
  if !(decide (q < 16) && bitAt (cfg d0 0x9012 0) q && !d0.pw.lostPlls.contains (22 + q) && ((quadAt d0 q).state == 1 || (quadAt d0 q).state == 3)) then d0
  else if t.peerRole ≠ pairedRole (quadRole d q) ∨ t.peerDev = ownDev d then
    raise (setQuad d q { x with state := 0, idChanged := false }) 0x8902 q t.peerDev
  else
    let cap := min (cfg d 0x9013 0) t.peerCap
    match pickRate cap (cfg d 0x9014 0) t with
    | none => d0
    | some (rate, mask) =>
      let y := { x with state := 2, rate := rateCode rate, lmask := mask, peerDev := t.peerDev, peerQ := t.peerQuad
                        pver := min t.peerVersion (cfg d 0x9005 0), trained := true, idChanged := false
                        credits := [0, 1, 2, 3].foldl (fun c v => tset c v (splitCredits d v)) [], owed := [], taken := []
                        misses := 0, croakOut := none, dropSent := none, dropped := 0, rx := [], rxBad := [] }
      let d1 := restartStream (setQuad d q y) q
      let d2 := setRx d1 t.peerDev t.peerQuad rxReset
      let d3 := if peerDown d2 t.peerDev then setObj d2 0x9052 0 (cfg d2 0x9052 0 - 2 ^ t.peerDev) else d2
      let d4 := if mask ≠ 15 ∨ rate < cfg d 0x9013 0 then raise d3 0x4903 q (rate * 16 + mask) else d3
      pumpQuad d4 q

/-- R404: a quad not up in time is down. -/
def trainTimeout (d : Dev) (q : Nat) : Dev :=
  if (quadAt d q).state = 1 then quadDown (raise d 0x4901 q 0) q else d

/-- R434: firmware retrains the quads of a mask. -/
def quadRetrain (d : Dev) (mask : Nat) : Dev :=
  send ((setBits 16 (mask % 65536)).foldl (fun x q => if bitAt (cfg x 0x9012 0) q then quadRetrainOne x q else x) d)
    (.status 0x9060 0 0)

/-- R434: a retrain that has not ended within 1 ms leaves the quad down. -/
def retrainTimeout (d : Dev) (q : Nat) : Dev := if (quadAt d q).state = 3 then quadDown d q else d

/-! ### Croaks (R428 to R432) -/

/-- PSTATE of this device (R612): 1 wedged, 2 recovery not idle, 3 the job is stopping. -/
def pstateNow (d : Dev) : Nat :=
  if d.rc.wedged then 1 else if fld (cfg d 0xC211 0) 31 28 ≠ 0 then 2 else if d.seq.job = .stopping then 3 else 0

/-- The payload this device's croaks carry. -/
def croakFields (d : Dev) (q cseq : Nat) : List Nat := [ownDev d, q, quadRole d q, pstateNow d, cseq, d.rl.mclive]

/-- What a croak or a reply says about the peer (R432). -/
def croakPeer (d : Dev) (q : Nat) (b : CroakBody) : Dev :=
  let x := quadAt d q
  if b.devid ≠ x.peerDev then
    quadFail (raise (setQuad d q { x with state := 0, idChanged := true, croakOut := none }) 0x8922 q b.devid) q
  else
    let d1 := setQuad d q { x with pstate := b.pstate }
    if b.pstate = 1 then raiseStep d1 0x8921 x.peerDev q else d1

/-- R428: a CROAK arrives and is answered; the answer does not wait for the fabric. -/
def croak (d : Dev) (q : Nat) (b : CroakBody) : Dev :=
  if (quadAt d q).state = 2 then croakPeer (sendFlit d q 4 none (croakFields d q b.cseq)) q b else d

/-- R428, R429, R432: a CROAK-REPLY answers the croak whose CSEQ it echoes. -/
def croakReply (d : Dev) (q : Nat) (b : CroakBody) : Dev :=
  let x := quadAt d q
  if x.state ≠ 2 then d
  else if x.croakOut = some b.cseq then
    croakPeer (setQuad d q { x with croakOut := none, misses := if b.devid = x.peerDev then 0 else x.misses }) q b
  else croakPeer d q b

/-- R428: every 16 µs an up quad sends a CROAK. -/
def croakTimer (d : Dev) (q : Nat) : Dev :=
  let x := quadAt d q
  if x.state = 2 then
    sendFlit (setQuad d q { x with cseq := (x.cseq + 1) % 65536, croakOut := some x.cseq, dropSent := none }) q 3 none
      (croakFields d q x.cseq)
  else d

/-- R429: a reply window closes unanswered; the third in a row makes the quad peer-lost. -/
def croakWindowClose (d : Dev) (q : Nat) : Dev :=
  let x := quadAt d q
  if x.state = 2 ∧ x.croakOut.isSome then
    let d1 := bump (setQuad d q { x with croakOut := none, misses := x.misses + 1 }) 0x9038 (q + 1) 1
    if cfg d 0x9004 0 ≤ x.misses + 1 then quadFail (setQuad d1 q { quadAt d1 q with state := 4 }) q else d1
  else d

/-! ### Lanes (R430, R433) -/

/-- Switch to a lane mask: the quad goes on with fewer lanes. -/
def useLanes (d : Dev) (q mask lane : Nat) : Dev :=
  let x := quadAt d q
  raise (setQuad d q { x with lmask := mask, dropped := x.dropped ||| (x.lmask - (x.lmask &&& mask)) }) 0x4904 q lane

/-- R433: a LANE-DROP flit names a new lane mask. When this end has sent one in the same croak period, that of the
lower device ID governs. -/
def laneDrop (d : Dev) (q mask : Nat) : Dev :=
  let x := quadAt d q
  let lane := 4 * q + ((List.range 4).find? (fun j => bitAt x.lmask j && !bitAt mask j)).getD 0
  if x.state ≠ 2 ∨ mask % 16 = 0 then d
  else
    match x.dropSent with
    | some m => if ownDev d < x.peerDev then d else if m = mask % 16 then d else useLanes d q (mask % 16) lane
    | none => useLanes d q (mask % 16) lane

/-- R433: a lane of an up quad is dropped at this end, which names the new mask to the peer. -/
def laneDropDetect (d : Dev) (q lane : Nat) : Dev :=
  let x := quadAt d q
  if x.state = 2 ∧ lane < 4 ∧ bitAt x.lmask lane then
    match pickLanes (x.lmask - 2 ^ lane) with
    | some m =>
      let d1 := useLanes d q m (4 * q + lane)
      sendFlit (setQuad d1 q { quadAt d1 q with dropSent := some m }) q 6 none [m]
    | none => quadDown d q
  else d

/-- R430: all active lanes of a quad lose signal. -/
def laneSignalLoss (d : Dev) (q : Nat) : Dev :=
  if [1, 2, 3].contains (quadAt d q).state then quadDown d q else d

/-- `RelayLaneStatus` of lane `l` (R436): active, locked and dropped. -/
def laneStatus (d : Dev) (l : Nat) : Nat :=
  let x := quadAt d (l / 4)
  let on := x.state == 2 && bitAt x.lmask (l % 4)
  b2n on * 2 ^ 15 + b2n on * 2 ^ 14 + b2n (bitAt x.dropped (l % 4)) * 2 ^ 13

end Sys2Proof.Machine
end

