-- ==== Sys2Proof/Machine/TensorUnits.lean ====
section
/-! DEFINITION. The tensor units (chapter 02): operand blocks, accumulation, leapfrog halves, commands. -/

namespace Sys2Proof.Machine

/-! ### Operand blocks (R32 to R38) -/

/-- An operand block of an MMA: format, orientation, first line, rows R (128 for A, 64 for B), contraction
length. -/
structure Block where
  fmt : Fmt
  mx : Bool
  t : Bool
  addr : Nat
  rows : Nat
  k : Nat
  deriving DecidableEq, Repr

/-- Stored element width in bytes; FP4 counts as 1 (R33). -/
def storedWidth (f : Fmt) : Nat := if f = .fp32 then 4 else if f = .bf16 ∨ f = .fp16 then 2 else 1

/-- Element lines E (R35). -/
def elementLines (b : Block) : Nat :=
  let w := storedWidth b.fmt
  if b.fmt = .e2m1 then
    if b.t then b.k / 2 * (b.rows / 64) else ceilDiv b.k 128 * b.rows
  else
    if b.t then b.k * b.rows * w / 64 else ceilDiv (b.k * w) 64 * b.rows

/-- Scale lines S (R36). -/
def scaleLines (b : Block) : Nat := if b.mx then b.k / 32 * (b.rows / 64) else 0

/-- Byte address, in the active half, of element (row, k) (R35). -/
def elemAddr (b : Block) (row k : Nat) : Nat :=
  let w := storedWidth b.fmt
  if b.fmt = .e2m1 then
    if b.t then (b.addr + k / 2 * (b.rows / 64) + row / 64) * 64 + row % 64
    else (b.addr + k / 128 * b.rows + row) * 64 + k / 2 % 64
  else
    if b.t then (b.addr + k * (b.rows * w / 64) + row * w / 64) * 64 + row * w % 64
    else (b.addr + k * w / 64 * b.rows + row) * 64 + k * w % 64

/-- Byte address of the block scale of (row, k) (R36). -/
def scaleAddr (b : Block) (row k : Nat) : Nat :=
  (b.addr + elementLines b + k / 32 * (b.rows / 64) + row / 64) * 64 + row % 64

/-- A byte of a half. -/
def storeByte (h : StoreHalf) (a : Nat) : Byte := tget 0#8 h.bytes a

/-- The code of element (row, k) as the store holds it (R34). -/
def elemCode (h : StoreHalf) (b : Block) (row k : Nat) : Nat :=
  let a := elemAddr b row k
  if b.fmt = .e2m1 then fld (storeByte h a).toNat (4 * (k % 2) + 3) (4 * (k % 2))
  else if fwidth b.fmt = 6 then (storeByte h a).toNat % 64
  else leVal ((List.range (storedWidth b.fmt)).map (fun i => storeByte h (a + i)))

/-- The exact value of element (row, k) without its block scale. -/
def elemValue (h : StoreHalf) (b : Block) (row k : Nat) : Fx := fdecode b.fmt (elemCode h b row k)

/-- The block scale of element (row, k); 1 for a format without block scales (R27). -/
def elemScale (h : StoreHalf) (b : Block) (row k : Nat) : Fx :=
  if b.mx then e8m0 (storeByte h (scaleAddr b row k)).toNat else fxNat 1

/-- Element (row, k) times its block scale. -/
def scaledElem (h : StoreHalf) (b : Block) (row k : Nat) : Fx := fxMul (elemValue h b row k) (elemScale h b row k)

/-- An address that keeps R37. -/
def blockFits (b : Block) : Bool := b.addr % 64 == 0 && decide (b.addr + elementLines b + scaleLines b ≤ 8192)

/-! ### MMA fields (R46) -/

def mmaK (w : Nat) : Nat := (fld w 74 67 + 1) * 32
def mmaAcc (w : Nat) : Bool := bitAt w 109
def mmaBank (w : Nat) : Nat := fld w 108 108
def mmaDrn (w : Nat) : Bool := bitAt w 107
def mmaRpl (w : Nat) : Nat := fld w 106 105
def mmaShd (w : Nat) : Bool := bitAt w 103
def mmaShp (w : Nat) : Nat := fld w 102 98
def mmaTsa (w : Nat) : Nat := fld w 40 25
def mmaTsb (w : Nat) : Nat := fld w 24 9
def mmaNosc (w : Nat) : Bool := bitAt w 8
def mmaTid (w : Nat) : Nat := fld w 7 0

/-- The A block (R46). -/
def blockA (w : Nat) (f : Fmt × Bool) : Block :=
  { fmt := f.1, mx := f.2, t := bitAt w 111, addr := fld w 66 54, rows := 128, k := mmaK w }

/-- The B block (R46). -/
def blockB (w : Nat) (f : Fmt × Bool) : Block :=
  { fmt := f.1, mx := f.2, t := bitAt w 110, addr := fld w 53 41, rows := 64, k := mmaK w }

/-- Head slots along M. -/
def headSlots (w : Nat) : Nat := 2 ^ fld w 84 83

/-- Row m is live (R58). -/
def rowLive (w m : Nat) : Bool := decide (m ≤ fld w 97 91) && bitAt (fld w 82 75) (m * headSlots w / 128)

/-- Column n is live (R58). -/
def colLive (w n : Nat) : Bool := decide (n ≤ fld w 90 85)

/-- The live rows of an MMA, rising. -/
def liveRows (w : Nat) : List Nat := (List.range 128).filter (rowLive w)

/-- The live columns of an MMA, rising. -/
def liveCols (w : Nat) : List Nat := (List.range 64).filter (colLive w)

/-- The live positions of an MMA as (m, n), row by row. -/
def livePositions (w : Nat) : List (Nat × Nat) := (liveRows w).flatMap (fun m => (liveCols w).map (fun n => (m, n)))

/-! ### Accumulation (R23 to R31) -/

/-- What one accumulation gives: the accumulator, and the flags OVF and NANG. -/
structure CellRun where
  acc : F32
  ovf : Bool
  nang : Bool
  deriving DecidableEq, Repr

/-- One accumulation step: the exact sum of the accumulator and the step's products, rounded once (R26).
`clean` says that no element or scale of the step is NaN. -/
def cellStep (c : CellRun) (ps : List Fx) (clean : Bool) : CellRun :=
  let a := ofF32 c.acc
  let s := toF32 (ps.foldl fxAdd a)
  { acc := s
    ovf := c.ovf || (isFin a && ps.all isFin && isInf (ofF32 s))
    nang := c.nang || (isNan (ofF32 s) && !isNan a && clean) }

/-- The steps of one cell over K: `f k` is the scaled product and `ok k` whether its operands are free of NaN;
`pair` takes two k at a time (the FP4 class). -/
def cellSteps (pair : Bool) (f : Nat → Fx) (ok : Nat → Bool) (c : CellRun) : List Nat → CellRun
  | [] => c
  | [k] => cellStep c [f k] (ok k)
  | k :: l :: ks =>
    if pair then cellSteps pair f ok (cellStep c [f k, f l] (ok k && ok l)) ks
    else cellSteps pair f ok (cellStep (cellStep c [f k] (ok k)) [f l] (ok l)) ks

/-- The accumulator key of a position. -/
def posKey (m n : Nat) : Nat := 64 * m + n

/-- The product of position (m, n) at k, scaled by the block scales and 2^(−4·r) (R27, R31). -/
def cellProduct (h : StoreHalf) (a b : Block) (r m n k : Nat) : Fx :=
  fxMul (fxMul (scaledElem h a m k) (scaledElem h b n k)) (fxPow2 (-(4 * r : Nat)))

/-- No operand of the product is NaN. -/
def productClean (h : StoreHalf) (a b : Block) (m n k : Nat) : Bool :=
  !isNan (scaledElem h a m k) && !isNan (scaledElem h b n k)

/-- What an MMA makes of one cell's accumulator. -/
def cellRun (h : StoreHalf) (a b : Block) (w m n : Nat) (acc : F32) : CellRun :=
  cellSteps (a.fmt == .e2m1 && b.fmt == .e2m1) (cellProduct h a b (mmaRpl w) m n) (productClean h a b m n)
    { acc, ovf := false, nang := false } (List.range (mmaK w))

/-- All live cells of an MMA, with the OR of their flags. -/
def accumulate (h : StoreHalf) (a b : Block) (w : Nat) (t : Tab F32) : Tab F32 × Bool × Bool :=
  (livePositions w).foldl (fun s p =>
    let c := cellRun h a b w p.1 p.2 (tget f32Zero s.1 (posKey p.1 p.2))
    (tset s.1 (posKey p.1 p.2) c.acc, s.2.1 || c.ovf, s.2.2 || c.nang)) (t, false, false)

/-- Some element of the given rows of a block satisfies `p`. -/
def anyElem (b : Block) (rows : List Nat) (p : Nat → Nat → Bool) : Bool :=
  rows.any (fun m => (List.range b.k).any (p m))

/-- The 4 B word `w` of the half holds an element of the given rows (R63). -/
def readsWord (b : Block) (rows : List Nat) (w : Nat) : Bool :=
  anyElem b rows (fun m k => elemAddr b m k / 4 == w)

/-! ### Validity (R48) -/

/-- The format of code `c`, when it is defined and enabled. -/
def enabledFmt (d : Dev) (c : Nat) : Option (Fmt × Bool) :=
  if bitAt (cfg d 0x3010 0) c then fmtOfCode c else none

/-- A TU's bank. -/
def tuBank (u : Tu) (b : Nat) : Bank := if b = 0 then u.bank0 else u.bank1

/-- Replace a TU's bank. -/
def setBank (u : Tu) (b : Nat) (x : Bank) : Tu := if b = 0 then { u with bank0 := x } else { u with bank1 := x }

/-- A half of the operand store. -/
def tuHalf (u : Tu) (h : Nat) : StoreHalf := if h = 0 then u.half0 else u.half1

/-- Replace a half. -/
def setHalf (u : Tu) (h : Nat) (x : StoreHalf) : Tu :=
  if h = 0 then { u with half0 := x } else { u with half1 := x }

/-- The blocks of an MMA that R48 finds valid on this TU; none for an invalid one. -/
def mmaBlocks (d : Dev) (u : Tu) (w : Nat) : Option (Block × Block) :=
  match enabledFmt d (fld w 119 116), enabledFmt d (fld w 115 112) with
  | some fa, some fb =>
    let bk := tuBank u (mmaBank w)
    let ok := blockFits (blockA w fa) && blockFits (blockB w fb) && decide (fld w 82 75 < 2 ^ headSlots w) &&
      (!mmaAcc w || (bk.isOpen && mmaShd w == mmaShd bk.opener)) && u.active.isSome
    if ok then some (blockA w fa, blockB w fb) else none
  | _, _ => none

/-- Discard the command at the head of a TU's queue. -/
def tuPop (u : Tu) : Tu := { u with queue := u.queue.tail }

/-- An invalid command: discarded, 0x8302, the context's later commands do not execute and it stops (R49). -/
def tuInvalid (d : Dev) (t : Nat) (e : TuEntry) : Dev :=
  raiseFault (setTu d t { tuPop (tuAt d t) with dead := some e.ctx }) 0x8302 t (mmaTid e.word) e.ctx

/-- The command at the head of a TU's queue when it may execute: one of a context whose commands are no longer
executed is taken out first (R49). -/
def tuHead (u : Tu) : Option TuEntry :=
  match u.queue.find? (fun e => u.dead != some e.ctx) with
  | some e => if u.fencing && !e.replay then none else some e
  | none => none

/-- Drop entries of the dead context ahead of the first command that executes. -/
def tuSkip (u : Tu) : Tu := { u with queue := u.queue.dropWhile (fun e => u.dead == some e.ctx) }

/-! ### Scale tables (R93) -/

/-- The active (S, INVS) pair of a ledger entry. -/
def scalePair (d : Dev) (e : Nat) : F32 × F32 := tget d.sup.tableReset d.sup.active e

/-! ### NOP -/

/-- R45: a NOP at the head of the queue is taken and does nothing. -/
def tuNop (d : Dev) (t : Nat) : Dev :=
  let u := tuSkip (tuAt d t)
  match tuHead u with
  | some e => if fld e.word 127 120 = 0 then setTu d t (tuPop u) else d
  | none => d

/-! ### MMA -/

/-- An MMA class of FP32 (R24). -/
def isFp32Class (w : Nat) : Bool := fld w 119 116 == 0 || fld w 115 112 == 0

/-- Steps of an MMA: two k each in the FP4 class (R24). -/
def mmaSteps (a b : Block) (w : Nat) : Nat := if a.fmt = .e2m1 ∧ b.fmt = .e2m1 then mmaK w / 2 else mmaK w

/-- BF16 of an exact value, by RNE. -/
def toBf16 (x : Fx) : Fx := fdecode .bf16 (convert .bf16 .rne 0 false x).1

/-- One FP32 product of the shadow unit (R120): each element in BF16, block scales and replay factor exact. -/
def shadowProduct (h : StoreHalf) (a b : Block) (w m n k : Nat) : F32 :=
  let va := if rowLive w m then elemValue h a m k else .fin false 0 1
  let vb := if colLive w n then elemValue h b n k else .fin false 0 1
  let sa := if rowLive w m then elemScale h a m k else fxNat 1
  let sb := if colLive w n then elemScale h b n k else fxNat 1
  toF32 (fxMul (fxMul (fxMul (toBf16 va) (toBf16 vb)) (fxMul sa sb)) (fxPow2 (-(4 * mmaRpl w : Nat))))

/-- The position `16·i + j` of the sub-block SHP names: rows 16·g + i, columns 16·j' + j (R61). -/
def shadowPos (shp p : Nat) : Nat × Nat := (16 * (shp / 4) + p / 16, 16 * (shp % 4) + p % 16)

/-- Copy an MMA's products into the shadow unit that sampled its accumulation (R61). -/
def shadowCopy (s : Shadow) (h : StoreHalf) (a b : Block) (w : Nat) : Shadow :=
  { s with
    products := (List.range 256).foldl (fun t p =>
      let q := shadowPos (mmaShp s.opener) p
      tset t p (tget [] t p ++ (List.range (mmaK w)).map (shadowProduct h a b w q.1 q.2))) s.products
    ktotal := s.ktotal + mmaK w
    fp16 := s.fp16 || a.fmt == .fp16 || b.fmt == .fp16 }

/-- The shadow unit holds a sample of the tile in this bank. -/
def shadowHas (d : Dev) (t b : Nat) : Bool :=
  let s := shadowAt d (t / 8)
  s.busy && s.tu == t && s.bank == b && s.drained.isNone

/-- A sample whose tile is replayed (R118) or never drains is dropped, and the unit is free. -/
def shadowDrop (d : Dev) (t b : Nat) : Dev := if shadowHas d t b then setShadow d (t / 8) shadowFree else d

/-- Sampling at the MMA that opens an accumulation (R61, R62): whether the sample is taken, and the device. -/
def shadowOpen (d : Dev) (t : Nat) (e : TuEntry) : Bool × Dev :=
  if mmaShd e.word && !e.replay then
    let c := t / 8
    if !(shadowAt d c).busy && !isFp32Class e.word then
      (true, setShadow d c { shadowFree with busy := true, tu := t, bank := mmaBank e.word, opener := e.word,
                                             tag := e.tag, ctx := e.ctx })
    else (false, bump d 0x3024 (t + 1) 1)
  else (false, d)

/-- A tile takes a replay slot of its cluster when it opens, or waits for one (R109). -/
def slotOpen (d : Dev) (t b tile : Nat) : Bool × Dev :=
  let c := t / 8
  let l := tget [] d.sup.slots c
  if l.length < 4 then (true, { d with sup := { d.sup with slots := tset d.sup.slots c (l ++ [(t, tile)]) } })
  else (false, { d with sup := { d.sup with
    waiting := tset d.sup.waiting c (tget [] d.sup.waiting c ++ [(t, b)]) } })

/-- Which tile an MMA with ACC = 0 opens, whether it holds a replay slot, and the device (R109): a replay goes on with its
own tile's number and slot, an accumulation begun anew before it drained with those of its bank. -/
def tileOpen (d : Dev) (t : Nat) (e : TuEntry) (k : Bank) : Nat × Bool × Dev :=
  if e.replay then (e.tile, true, d)
  else if k.isOpen then (k.tile, k.slotted, d)
  else
    let u := tuAt d t
    let r := slotOpen (setTu d t { u with nextTile := u.nextTile + 1 }) t (mmaBank e.word) u.nextTile
    (u.nextTile, r)

/-- A stage context has named a ledger entry in the current step (R137). -/
def nameEntry (d : Dev) (e ctx : Nat) : Dev :=
  if d.sup.named.contains (e, ctx) then d else { d with sup := { d.sup with named := (e, ctx) :: d.sup.named } }

/-- An uncorrectable error in a ledger home copy or a scale table (R137): 0x8541, and R7 applies to every context that has
named the entry in the current step. -/
def entryUe (d : Dev) (e : Nat) : Dev :=
  (d.sup.named.filter (fun n => n.1 == e)).foldl (fun x n => unitFault x n.2 0x8541) (raise d 0x8541 e d.seq.step)

/-- A unit working for `ctx` takes the pair of entry `e` from the active copy of the scale table (R93, R137). -/
def pairRead (d : Dev) (e ctx : Nat) : Dev :=
  let d1 := nameEntry d e ctx
  if d1.sup.badActive.contains e then entryUe d1 e else d1

/-- The MMA that opens an accumulation takes ia and ib (R53); one with NOSC = 1 takes none. -/
def openPairs (d : Dev) (e : TuEntry) : Dev :=
  if mmaNosc e.word then d
  else
    let d1 := pairRead d (mmaTsa e.word) e.ctx
    if mmaTsa e.word = mmaTsb e.word then d1 else pairRead d1 (mmaTsb e.word) e.ctx

/-- The bank an MMA with ACC = 0 starts from. -/
def bankOpen (d : Dev) (e : TuEntry) (sampled slotted : Bool) (tile : Nat) : Bank :=
  { freeBank with
    isOpen := true, opener := e.word, ia := (scalePair d (mmaTsa e.word)).2, ib := (scalePair d (mmaTsb e.word)).2
    sampled := sampled, slotted := slotted, fallback := e.fallback, ctx := e.ctx, tag := e.tag, tile := tile }

/-- Record an MMA in its tile (R109): the descriptors of a half when the tile first reads it. -/
def recordMma (u : Tu) (h : StoreHalf) (w : Nat) (cs : List TileChunk) : List TileChunk :=
  match cs.reverse with
  | c :: rest =>
    if c.swapNo = u.swaps then (({ c with mmas := c.mmas ++ [w] }) :: rest).reverse
    else cs ++ [{ swapNo := u.swaps, loads := h.loads.map Prod.snd, mmas := [w] }]
  | [] => [{ swapNo := u.swaps, loads := h.loads.map Prod.snd, mmas := [w] }]

/-- Operand-store errors an MMA meets (R63 to R65): `ecc` lists (word of the active half, uncorrectable). Only
words with a live element count; the answer is how many are corrected and how many are not. -/
def eccHits (a b : Block) (w : Nat) (ecc : List (Nat × Bool)) : Nat × Nat :=
  let hit := ecc.filter (fun e => readsWord a (liveRows w) e.1 || readsWord b (liveCols w) e.1)
  ((hit.filter (fun e => !e.2)).length, (hit.filter (fun e => e.2)).length)

/-- Count an MMA's operand-store errors, and stop its context for an uncorrectable one (R64, R65). -/
def noteEcc (d : Dev) (t : Nat) (e : TuEntry) (ce ue : Nat) : Dev :=
  let d1 := if ce = 0 then d else ceNote (bump d 0x3025 (t + 1) ce) 0x4305 t (cfg d 0x3011 0) ce
  if ue = 0 then d1 else raiseFault (bump d1 0x3026 (t + 1) ue) 0x8304 t (mmaTid e.word) e.ctx

/-- MXFP6 used while 0x3004 reads 0: 0x4301 once per generation, naming the TU and the TID (R67). -/
def noteMxfp6 (d : Dev) (t w : Nat) : Dev :=
  let six := fun c => c == 10 || c == 11
  if (six (fld w 119 116) || six (fld w 115 112)) && cfg d 0x3004 0 == 0 then
    if tget 0 d.ev.onceSec 0x4301 = cfg d 0x2000 0 + 1 then d
    else raise { d with ev := { d.ev with onceSec := tset d.ev.onceSec 0x4301 (cfg d 0x2000 0 + 1) } } 0x4301 t (mmaTid w)
  else d

/-- The bank after an MMA. -/
def bankAfter (u : Tu) (h : StoreHalf) (a b : Block) (w : Nat) (bk : Bank) (ce ue : Nat) : Bank :=
  let r := accumulate h a b w bk.acc
  { bk with
    acc := r.1, ovf := bk.ovf || r.2.1, nang := bk.nang || r.2.2
    nani := bk.nani || anyElem a (liveRows w) (fun m k => isNan (scaledElem h a m k)) ||
      anyElem b (liveCols w) (fun n k => isNan (scaledElem h b n k))
    infi := bk.infi || anyElem a (liveRows w) (fun m k => isInf (elemValue h a m k)) ||
      anyElem b (liveCols w) (fun n k => isInf (elemValue h b n k))
    ce := bk.ce || decide (0 < ce), ue := bk.ue || decide (0 < ue)
    ktotal := bk.ktotal + mmaK w, last := w, isOpen := !mmaDrn w, draining := mmaDrn w
    chunks := recordMma u h w bk.chunks }

/-- Execute a valid MMA (R46): accumulate over K into its bank. -/
def mmaRun (d : Dev) (t : Nat) (u : Tu) (e : TuEntry) (a b : Block) (ecc : List (Nat × Bool)) : Dev :=
  let w := e.word
  let h := tuHalf u (u.active.getD 0)
  let d0 := setTu d t (tuPop u)
  let op := if mmaAcc w then (tuBank u (mmaBank w), d0) else openBank d0 t e (tuBank u (mmaBank w))
  let c := t / 8
  let d2 := if op.1.sampled then setShadow op.2 c (shadowCopy (shadowAt op.2 c) h a b w) else op.2
  let n := eccHits a b w (ecc ++ h.ue.map (fun x => (x, true)))
  let d3 := setTu d2 t (setBank (tuAt d2 t) (mmaBank w) (bankAfter u h a b w op.1 n.1 n.2))
  let d4 := bump (bump d3 0x3020 (t + 1) 1) 0x3021 (t + 1) (mmaSteps a b w)
  noteEcc (noteMxfp6 d4 t w) t e n.1 n.2
where
  /-- A new accumulation: the sample, the tile's number and slot, and the inverse scales (R53, R61, R109). -/
  openBank (d : Dev) (t : Nat) (e : TuEntry) (k : Bank) : Bank × Dev :=
    let so := shadowOpen (shadowDrop d t (mmaBank e.word)) t e
    let tl := tileOpen so.2 t e k
    (bankOpen d e so.1 tl.2.1 tl.1, openPairs tl.2.2 e)

/-- The MMA at the head of a TU's queue (R46, R48 to R65). `waited` cycles were spent on a draining bank (R50);
while the bank still drains nothing happens. -/
def mma (d : Dev) (t waited : Nat) (ecc : List (Nat × Bool)) : Dev :=
  let u := tuSkip (tuAt d t)
  match tuHead u with
  | none => d
  | some e =>
    if 3 < fld e.word 127 120 then tuInvalid d t e
    else if fld e.word 127 120 = 1 then
      match mmaBlocks d u e.word with
      | none => tuInvalid d t e
      | some ab =>
        if !mmaAcc e.word && (tuBank u (mmaBank e.word)).draining then d
        else mmaRun (if mmaAcc e.word then d else bump d 0x3023 (t + 1) waited) t u e ab.1 ab.2 ecc
    else d

/-! ### SWAP, HALF_RELEASE and FENCE -/

/-- The reload a replay's SWAP waits for has been issued and has left the fetch engine. -/
def reloadDone (d : Dev) (t : Nat) (r : Reload) : Bool :=
  let f := feAt d (t / 8)
  r.issued && !((tget [] f.queues 0 ++ f.held).any (fun x => x.reload.any (fun y => y.id == r.id))) &&
    !(f.active.any (fun a => a.entry.reload.any (fun y => y.id == r.id)))

/-- The empty semaphores a SWAP owes for the half it leaves; one named twice is signalled once (R42). -/
def swapEmpties (w : Nat) : List Nat :=
  let a := fld w 95 84
  let b := fld w 83 72
  (if a = 0xFFF then [] else [a]) ++ (if b = 0xFFF ∨ b = a then [] else [b])

/-- Make the other half active (R42): the first SWAP after a stage context starts makes half 0 active, and leaves no
half, so it owes no empty semaphore (R43). DESIGN CHOICE, log 82. -/
def swapHalf (u : Tu) (owe : List Nat) : Tu :=
  match u.active with
  | none => { tuPop u with active := some 0, swaps := u.swaps + 1 }
  | some h => { tuPop u with active := some (1 - h), owed := u.owed ++ owe, releasing := true, swaps := u.swaps + 1 }

/-- The SWAP at the head of a TU's queue (R42): it waits on each named full semaphore and changes half. A
replay's SWAP waits for its reload instead (R110). -/
def swap (d : Dev) (t waited : Nat) : Dev :=
  let u := tuSkip (tuAt d t)
  match tuHead u with
  | none => d
  | some e =>
    if fld e.word 127 120 = 2 then
      match e.reload with
      | some r => if reloadDone d t r then setTu d t (swapHalf u []) else d
      | none =>
        let g := semTakeBoth d (t / 8) (fld e.word 119 108) (fld e.word 107 96) (t % 8)
        if g.1 then bump (setTu g.2 t (swapHalf u (swapEmpties e.word))) 0x3022 (t + 1) waited else g.2
    else d

/-- The half that a LOAD becoming active writes in TU `t` (R239): the idle one; before the first SWAP half 0, the half
that SWAP makes active. DESIGN CHOICE, log 81. -/
def idleHalf (u : Tu) : Nat :=
  match u.active with
  | none => 0
  | some h => 1 - h

/-- A reload queue takes the entries held for want of room, oldest first, as far as its 16 entries go (R242). -/
def takeHeld (e : Fe) : Fe :=
  let n := 16 - (tget [] e.queues 0).length
  { e with queues := tset e.queues 0 (tget [] e.queues 0 ++ e.held.take n), held := e.held.drop n }

/-- One element widened to BF16: q × (1/s) × 2^(X − 127), rounded once by RNE (R114). -/
def widenElem (h : StoreHalf) (b : Block) (inv : F32) (row k : Nat) : List Byte :=
  leBytes 2 (convert .bf16 .rne 0 false (fxMul (scaledElem h b row k) (ofF32 inv))).1

/-- Write one widened operand into a half in the layout of `nb` (R114). -/
def widenBlock (src dst : StoreHalf) (b nb : Block) (inv : F32) (k0 klen : Nat) : StoreHalf :=
  (List.range b.rows).foldl (fun h m => (List.range klen).foldl (fun x k =>
    { x with bytes := (addrBytes (elemAddr nb m k) (widenElem src b inv m (k0 + k))).foldl
              (fun t e => tset t e.1 e.2) x.bytes }) h) dst

/-- The operands of one BF16 chunk, which the recorded LOADs have brought, are widened into the half of the reload (R114).
DEDUCED, log 14. -/
def widenReload (d : Dev) (t : Nat) (r : Reload) : Dev :=
  match fmtOfCode (fld r.mma 119 116), fmtOfCode (fld r.mma 115 112) with
  | some fa, some fb =>
    let u := tuAt d t
    let na : Block := { fmt := .bf16, mx := false, t := false, addr := 0, rows := 128, k := r.klen }
    let nb : Block := { fmt := .bf16, mx := false, t := true, addr := 4096, rows := 64, k := r.klen }
    let h1 := widenBlock u.scratch { emptyHalf with bytes := (tuHalf u r.half).bytes } (blockA r.mma fa) na r.ia r.k0 r.klen
    setTu d t (setHalf { u with scratch := emptyHalf } r.half (widenBlock u.scratch h1 (blockB r.mma fb) nb r.ib r.k0 r.klen))
  | _, _ => d

/-- Hand a reload to the fetch engine: its LOADs enter the reload queue as it has room (R110 step 2, R242, R246). A
widened reload of a half that no LOAD wrote is complete at once. -/
def issueReload (d : Dev) (t : Nat) (r : Reload) (ctx : Nat) : Dev :=
  let f := feAt d (t / 8)
  let one := fun (ds : Nat) => ({ desc := ds, ctx, task := fld ds 705 698, start := 0, tu := t,
                                  reload := some r, wdone := true } : FdEntry)
  let d1 := setFe d (t / 8) (takeHeld { f with held := f.held ++ r.loads.map one })
  if r.widen && r.loads.isEmpty then widenReload d1 t r else d1

/-- A reload may start (R110 steps 2 and 4): the first of a replay at a release after the overflow was seen, or at once
when the queue held no SWAP then; a later one when its SWAP is the next. DEDUCED, log 14. -/
def reloadDue (q : List TuEntry) (released : Bool) (r : Reload) : Bool :=
  (r.first && released) ||
    (match q.find? (fun e => fld e.word 127 120 == 2) with
    | some e => e.reload.any (fun y => y.id == r.id)
    | none => false)

/-- The first reload in the queue that has not started starts, once no release is outstanding and it may.
DEDUCED, log 14. -/
def nextReload (d : Dev) (t : Nat) (released : Bool) : Dev :=
  let u := tuAt d t
  if u.releasing then d
  else
    match u.queue.find? (fun e => e.reload.any (fun r => !r.issued)) with
    | some e =>
      match e.reload with
      | some r =>
        if reloadDue u.queue released r then
          let r1 := { r with issued := true, half := idleHalf u }
          let q := u.queue.map (fun x => if x.reload.any (fun y => y.id == r.id) then { x with reload := some r1 } else x)
          issueReload (setTu d t { u with queue := q }) t r1 e.ctx
        else d
      | none => d
    | none => d

/-- R43: when the last read of a half that was left has left the read pipeline, its empty semaphores are
signalled. -/
def halfRelease (d : Dev) (t : Nat) : Dev :=
  let u := tuAt d t
  if u.releasing then
    let d1 := setTu d t { u with owed := [], releasing := false }
    nextReload (u.owed.foldl (fun x n => semSignal x (t / 8) n 1 (clusterCtx x (t / 8))) d1) t true
  else d

/-- R45: a FENCE at the head of the queue begins to wait. It stays at the head until it completes, so that a
replay is placed ahead of it (R110 step 3). DEDUCED, log 13. -/
def fence (d : Dev) (t : Nat) : Dev :=
  let u := tuSkip (tuAt d t)
  match u.queue with
  | e :: _ => if fld e.word 127 120 = 3 then setTu d t { u with fencing := true } else d
  | [] => d

/-- A bank holds nothing that has not drained. -/
def bankIdle (b : Bank) : Bool := !b.isOpen && !b.draining

/-- R45, R113: a FENCE completes when every earlier MMA has drained, every empty signal owed has been raised
and no replay of the TU is outstanding. DEDUCED, log 13. -/
def fenceDone (d : Dev) (t : Nat) : Dev :=
  let u := tuAt d t
  if u.fencing && bankIdle u.bank0 && bankIdle u.bank1 && !u.releasing && u.queue.all (fun e => !e.replay) then
    setTu d t { tuPop u with fencing := false }
  else d

end Sys2Proof.Machine
end

