-- ==== Sys2Proof/Machine/Supervisor.lean ====
section
/-! DEFINITION. The numerics supervisor (chapter 04): tile drain and overflow replay, shadow checks, the scale
ledger, the torpor detector and scale rebuild. -/

namespace Sys2Proof.Machine

/-! ### Drain (R53 to R57) -/

/-- The tile descale d of a bank (R53): NOSC of the MMA that opened the accumulation decides. DESIGN CHOICE, log 83. -/
def tileDescale (b : Bank) : F32 := if mmaNosc b.opener then f32One else f32Mul b.ia b.ib

/-- The drained value of a live position (R53); free after an uncorrectable word (R65). -/
def drainValue (b : Bank) (draw m n : Nat) : F32 :=
  if b.ue then Config.ueTileValue draw (posKey m n)
  else f32Mul (tget f32Zero b.acc (posKey m n)) (tileDescale b)

/-- The drained values at the live positions of the MMA with DRN (R53, R58). -/
def drainValues (b : Bank) (draw : Nat) : Tab F32 :=
  (livePositions b.last).foldl (fun t p => tset t (posKey p.1 p.2) (drainValue b draw p.1 p.2)) []

/-- AMAX over drained values (R56). -/
def amaxF32 (t : Tab F32) : F32 :=
  t.foldl (fun a e => if isNan (ofF32 e.2) then a else f32AmaxFold a (toF32 (fxAbs (ofF32 e.2)))) f32Zero

/-- OVFD: a live value is infinite from a finite accumulator (R56). -/
def drainOvfd (b : Bank) (t : Tab F32) : Bool :=
  t.any (fun e => isInf (ofF32 e.2) && isFin (ofF32 (tget f32Zero b.acc e.1)))

/-- The tile status word (R56); SHP is the opening MMA's, whose sub-block the shadow unit samples (R61).
DESIGN CHOICE, log 84. -/
def statusWord (b : Bank) (t : Tab F32) : Nat :=
  mmaTid b.last <<< 56 + mmaRpl b.last <<< 54 + b2n b.ovf <<< 53 + b2n (drainOvfd b t) <<< 52 +
    b2n b.nang <<< 51 + b2n b.nani <<< 50 + b2n b.infi <<< 49 + b2n b.sampled <<< 48 +
    mmaShp b.opener <<< 43 + b2n b.ce <<< 42 + b2n b.ue <<< 41 + b2n (livePositions b.last).isEmpty <<< 40 +
    (amaxF32 t).toNat

/-- OVF of a status word. -/
def statusOvf (s : Nat) : Bool := bitAt s 53

/-! ### The ledger -/

/-- Ledger entry `e`. -/
def ledgerAt (d : Dev) (e : Nat) : LedgerEntry := tget ledgerReset d.sup.ledger e

/-- Replace ledger entry `e`. -/
def setLedger (d : Dev) (e : Nat) (x : LedgerEntry) : Dev :=
  { d with sup := { d.sup with ledger := tset d.sup.ledger e x } }

/-- The exact inverse of a power of two. -/
def f32Inverse (s : F32) : F32 := toF32 (fxDiv (fxNat 1) (ofF32 s))

/-- Count a tile whose first attempt overflowed (R101). -/
def noteOvtile (d : Dev) (e : Nat) : Dev :=
  let x := ledgerAt d e
  setLedger d e { x with ovtiles := satAdd 32 x.ovtiles 1 }

/-- R101 for a tile that names `a` and `b`. -/
def noteOvtiles (d : Dev) (w : Nat) : Dev :=
  if mmaNosc w then d
  else
    let d1 := noteOvtile d (mmaTsa w)
    if mmaTsa w = mmaTsb w then d1 else noteOvtile d1 (mmaTsb w)

/-- Boundaries left in scale rebuild. -/
def rebuildLeft (d : Dev) : Nat := cfg d 0x5022 0

/-- Overflow replay is enabled (R116). -/
def replayOn (d : Dev) : Bool := cfg d 0x5020 0 == 1 || decide (0 < rebuildLeft d) || d.sup.checked

/-! ### Replay (R108 to R116) -/

/-- Where in the queue a replay goes (R110 step 3): ahead of the first SWAP that makes half `h` active at a
point where bank `b` is free; failing that, ahead of the first FENCE or at the end. `cur` is the half active
and `opened` whether the bank's accumulation is in progress at this point. DEDUCED, log 14. -/
def replayPoint (h b : Nat) : Option Nat → Bool → List TuEntry → Option Nat
  | _, _, [] => none
  | cur, opened, e :: rest =>
    let op := fld e.word 127 120
    let nxt := match cur with
      | none => 0
      | some x => 1 - x
    if op = 2 ∧ nxt = h ∧ opened = false then some 0
    else
      let cur' := if op = 2 then some nxt else cur
      let op' := if op = 1 ∧ mmaBank e.word = b then !mmaDrn e.word else opened
      (replayPoint h b cur' op' rest).map (· + 1)

/-- Ahead of the first FENCE, or at the end. -/
def fencePoint (q : List TuEntry) : Nat :=
  match q.findIdx? (fun e => fld e.word 127 120 == 3) with
  | some i => i
  | none => q.length

/-- Insert entries at place `i`. -/
def insertAt (i : Nat) (es q : List TuEntry) : List TuEntry := q.take i ++ es ++ q.drop i

/-- The half the first reload of a replay goes to: the first the TU releases after the overflow is seen (R110
step 2). -/
def reloadHalf (u : Tu) : Nat :=
  match u.active with
  | none => 0
  | some a => if u.releasing then 1 - a else a

/-- A replay's SWAP: it names no semaphore and waits for its reload. -/
def replaySwap (b : Bank) (r : Reload) (fb : Bool) : TuEntry :=
  { word := 2 <<< 120 + 0xFFFFFFFFFFFF <<< 72, ctx := b.ctx, tag := b.tag, replay := true, fallback := fb, reload := some r
    tile := b.tile }

/-- A recorded MMA as a replay issues it: RPL = r and SHD = 0, every other field unchanged (R110 step 3). -/
def replayMma (w r : Nat) : Nat := setFld (setFld w 106 105 r) 103 103 0

/-- The number of the `i`-th reload of attempt `r` of a tile. -/
def reloadId (b : Bank) (t r i : Nat) : Nat := ((b.tile * 128 + t) * 8 + r) * 2 ^ 32 + i

/-- The entries of a replay with count `r`: per half of the tile, its SWAP and its MMAs. DEDUCED, log 14. -/
def replayEntries (b : Bank) (t r : Nat) : Nat → List TileChunk → List TuEntry
  | _, [] => []
  | i, c :: cs =>
    replaySwap b { id := reloadId b t r i, loads := c.loads, issued := false, first := i == 0
                   widen := false, mma := 0, k0 := 0, klen := 0, ia := b.ia, ib := b.ib } false ::
      c.mmas.map (fun w => { word := replayMma w r, ctx := b.ctx, tag := b.tag, replay := true,
                             fallback := false, reload := none, tile := b.tile }) ++
      replayEntries b t r (i + 1) cs

/-- The chunks of one recorded MMA for the BF16 recomputation: at most 1,024 contraction elements each
(R114). -/
def fallbackPieces (loads : List Nat) (w : Nat) : List (List Nat × Nat × Nat × Nat) :=
  (List.range (ceilDiv (mmaK w) 1024)).map (fun i => (loads, w, 1024 * i, min 1024 (mmaK w - 1024 * i)))

/-- The MMA of one BF16 chunk (R114): FMTA = FMTB = 1, TA = 0, TB = 1, NOSC = 1, RPL = 0, SHD = 0. -/
def fallbackMma (w klen : Nat) (first last : Bool) : Nat :=
  let a := setFld (setFld (setFld (setFld w 119 112 0x11) 111 110 1) 109 109 (b2n !first)) 107 107 (b2n last)
  setFld (setFld (setFld (setFld (setFld (setFld a 106 105 0) 103 103 0) 74 67 (klen / 32 - 1)) 66 54 0) 53 41 4096) 8 8 1

/-- The entries of a BF16 recomputation. DEDUCED, log 14. -/
def fallbackEntries (b : Bank) (t : Nat) (ps : List (List Nat × Nat × Nat × Nat)) : List TuEntry :=
  (List.range ps.length).flatMap (fun i =>
    match ps[i]? with
    | none => []
    | some p =>
      [replaySwap b { id := reloadId b t 4 i, loads := p.1, issued := false, first := i == 0, widen := true
                      mma := p.2.1, k0 := p.2.2.1, klen := p.2.2.2
                      ia := if mmaNosc b.opener then f32One else b.ia
                      ib := if mmaNosc b.opener then f32One else b.ib } true,
       { word := fallbackMma p.2.1 p.2.2.2 (i == 0) (i + 1 == ps.length), ctx := b.ctx, tag := b.tag,
         replay := true, fallback := true, reload := none, tile := b.tile }])

/-- Put a replay's or recomputation's entries into a TU's queue (R110 step 3). DEDUCED, log 14. -/
def insertReplay (u : Tu) (b : Nat) (es : List TuEntry) : Tu :=
  let h := reloadHalf u
  let i := match replayPoint h b u.active false u.queue with
    | some i => i
    | none => fencePoint u.queue
  { u with queue := insertAt i es u.queue }

/-! ### TILE_DRAIN -/

/-- The tile keeps waiting for a replay slot (R109): `waited` cycles are counted, and 0x4504 names the TU once a step. -/
def slotWaitNote (d : Dev) (t waited : Nat) : Dev := raiseOnce (bump d 0x5043 0 waited) 0x4504 0 t waited

/-- The slot of tile `tile` may now be freed. -/
def slotPassed (d : Dev) (t tile : Nat) : Dev :=
  { d with sup := { d.sup with passed := tset d.sup.passed (t / 8) (tget [] d.sup.passed (t / 8) ++ [(t, tile)]) } }

/-- Give the shadow unit the drained values of the tile it sampled (R123). -/
def shadowGive (d : Dev) (t b : Nat) (bk : Bank) (vals : Tab F32) : Dev :=
  if shadowHas d t b then
    let s := shadowAt d (t / 8)
    let ps := (List.range 256).filterMap (fun p =>
      let q := shadowPos (mmaShp bk.opener) p
      if rowLive bk.last q.1 && colLive bk.last q.2 then some (p, tget f32Zero vals (posKey q.1 q.2)) else none)
    setShadow d (t / 8) { s with drained := some ps, descale := tileDescale bk, tid := mmaTid bk.last,
                                 ktotal := bk.ktotal }
  else d

/-- The bank is free and its drain semaphore is signalled (R54). -/
def drainEnd (d : Dev) (t b : Nat) (bk : Bank) : Dev :=
  semSignal (setTu d t (setBank (tuAt d t) b freeBank)) (t / 8) (0xF00 + 2 * (t % 8) + b) 1 bk.ctx

/-- Mark a tile for replay with `r` (R110) or for BF16 recomputation (R114): its rows are discarded. -/
def tileReplay (d : Dev) (t b : Nat) (bk : Bank) : Dev :=
  let r := mmaRpl bk.last
  let d1 := shadowDrop (if r = 0 then noteOvtiles d bk.opener else d) t b
  let d2 := if r = 3 then raise (bump (bump d1 0x5041 0 1) 0x5040 3 1) 0x4502 t (mmaTid bk.last) else d1
  let es := if r = 3 then fallbackEntries bk t (bk.chunks.flatMap (fun c => c.mmas.flatMap (fallbackPieces c.loads)))
    else replayEntries bk t (r + 1) 0 bk.chunks
  let d3 := drainEnd d2 t b bk
  nextReload (setTu d3 t (insertReplay (tuAt d3 t) b es)) t false

/-- Pass a tile to the vector chain (R108, R111, R112). -/
def tilePass (d : Dev) (t b : Nat) (bk : Bank) (vals : Tab F32) (status : Nat) : Dev :=
  let r := mmaRpl bk.last
  let d1 := if 0 < r then bump d 0x5040 r 1 else d
  let d2 := if statusOvf status then
      (if bk.fallback then raise (bump d1 0x5042 0 1) 0x8503 t (mmaTid bk.last)
       else noteOvtilesFirst d1 r bk)
    else d1
  let d3 := if bitAt status 52 then raiseStep d2 0x4506 t (mmaTid bk.last) else d2
  let d4 := { d3 with tiles := tset d3.tiles t { tu := t, bank := b, vals, status, rpl := r, last := bk.last,
                                                 ctx := bk.ctx, tag := bk.tag } }
  let d5 := slotPassed (shadowGive d4 t b bk vals) t bk.tile
  semSignal (drainEnd d5 t b bk) (t / 8) (0xF10 + t % 8) 1 bk.ctx
where
  /-- An overflow passed with replay disabled (R101, R116). -/
  noteOvtilesFirst (d : Dev) (r : Nat) (bk : Bank) : Dev :=
    raiseStep (if r = 0 then noteOvtiles d bk.opener else d) 0x4505 t (mmaTid bk.last)

/-- R53 to R56, R108 to R117: a bank whose accumulation has ended drains. `held` cycles were spent on a receiver
that was not ready and `slotWait` cycles on a replay slot; while either holds, the tile stays in its bank. -/
def tileDrain (d : Dev) (t b held slotWait : Nat) : Dev :=
  let bk := tuBank (tuAt d t) b
  if !bk.draining then d
  else if !bk.slotted then slotWaitNote d t slotWait
  else
    let d0 := if bk.ue then (nextFree d).2 else d
    let vals := drainValues bk d.freeCtr
    let status := statusWord bk vals
    if !ctxLive (ctxAt d bk.ctx) && decide (bk.ctx < 64) && (ctxAt d bk.ctx).st != .disabled then
      drainEnd (slotPassed (shadowDrop d0 t b) t bk.tile) t b bk
    else if bk.ovf && replayOn d && !bk.fallback then tileReplay d0 t b bk
    else if (tfind d.tiles t).isSome then bump d 0x4022 (t / 8 + 1) held
    else tilePass d0 t b bk vals status

/-- R109: a slot whose tile has passed its check frees, and the oldest tile waiting takes it. -/
def replaySlotFree (d : Dev) (c : Nat) : Dev :=
  match tget [] d.sup.passed c with
  | [] => d
  | p :: rest =>
    let d1 := { d with sup := { d.sup with passed := tset d.sup.passed c rest
                                           slots := tset d.sup.slots c ((tget [] d.sup.slots c).erase p) } }
    match tget [] d1.sup.waiting c with
    | [] => d1
    | q :: ws =>
      let u := tuAt d1 q.1
      let d2 := { d1 with sup := { d1.sup with waiting := tset d1.sup.waiting c ws
                                               slots := tset d1.sup.slots c (tget [] d1.sup.slots c ++ [(q.1, (tuBank u q.2).tile)]) } }
      setTu d2 q.1 (setBank u q.2 { tuBank u q.2 with slotted := true })

/-! ### Shadow comparison (R120 to R125) -/

/-- A finite T and a finite S agree within τ (R121). -/
def shadowTau (d : Dev) (s : Shadow) (a : F32) : Fx :=
  let av := ofF32 a
  let t1 := fxMul (fxMul av (fxNat s.ktotal)) (fxPow2 (-22 + (cfg d 0x5031 0 : Int)))
  let t2 := fxAdd t1 (fxMul (fxNat s.ktotal) (fxPow2 (-149)))
  if s.fp16 then fxAdd t2 (fxMul av (fxPow2 (-7))) else t2

/-- R121, R122: T and S agree. -/
def shadowAgree (tau t s : Fx) : Bool :=
  match t, s with
  | .nan, .nan => true
  | .nan, _ => false
  | _, .nan => false
  | .inf a, .inf b => a == b
  | .inf a, .fin b n e => a == b && !fxLt (.fin false n e) (fxPow2 127)
  | .fin a n e, .inf b => a == b && !fxLt (.fin false n e) (fxPow2 127)
  | x, y => !fxLt tau (fxAbs (fxSub x y))

/-- The shadow unit's S and A at a position, both times the descale (R120). DESIGN CHOICE, log 15. -/
def shadowSums (s : Shadow) (p : Nat) : F32 × F32 :=
  let ps := tget [] s.products p
  (f32Mul (Config.shadowSum ps) s.descale,
   f32Mul (Config.shadowSum (ps.map (fun x => toF32 (fxAbs (ofF32 x))))) s.descale)

/-- The positions of a sample that disagree, as (position, T, S, τ). -/
def shadowBad (d : Dev) (s : Shadow) (ps : List (Nat × F32)) : List (Nat × F32 × F32 × Fx) :=
  ps.filterMap (fun e =>
    let v := shadowSums s e.1
    let tau := shadowTau d s v.2
    if shadowAgree tau (ofF32 e.2) (ofF32 v.1) then none else some (e.1, e.2, v.1, tau))

/-- The log record of a sample (R125). -/
def shadowRecord (d : Dev) (s : Shadow) (n : Nat) (x : Nat × F32 × F32 × Fx) : Nat :=
  let q := shadowPos (mmaShp s.opener) x.1
  trunc 32 d.seq.step <<< 224 + trunc 24 s.tag <<< 200 + s.tu <<< 192 + s.tid <<< 184 + q.1 <<< 176 +
    q.2 <<< 168 + min n 255 <<< 160 + x.2.1.toNat <<< 128 + x.2.2.1.toNat <<< 96 + (toF32 x.2.2.2).toNat <<< 64

/-- R123, R124: the shadow unit compares its sub-block with the drained values. -/
def shadowCompare (d : Dev) (c : Nat) : Dev :=
  let s := shadowAt d c
  match s.drained with
  | none => d
  | some ps =>
    let d1 := bump (setShadow d c shadowFree) 0x5033 (s.tu + 1) 1
    let bad := shadowBad d s ps
    match bad with
    | [] => d1
    | x :: _ =>
      let n := bad.length
      let old := tget 0 d1.sup.disagree s.tu
      let lim := cfg d 0x5032 0
      let d2 := bump d1 0x5034 (s.tu + 1) n
      let d3 := { d2 with sup := { d2.sup with
        disagree := tset d2.sup.disagree s.tu (old + n)
        shadowLog := ((shadowRecord d s n x) :: d2.sup.shadowLog).take 16 } }
      let d4 := raiseStep d3 0x4510 s.tu n
      if 0 < lim ∧ old < lim ∧ lim ≤ old + n then raiseFault d4 0x8511 s.tu (old + n) s.ctx else d4

/-! ### Conversion reports and scale choice (R98 to R105) -/

/-- Device address of an entry's home copy (R92, R197). -/
def ledgerHome (e : Nat) : Nat := e % 2 * nearSize + e / 2 * 160

/-- A ledger entry (R94). -/
def ledgerWord (x : LedgerEntry) : Nat :=
  sumN ((List.range 32).map (fun i => (tget f32Zero x.hist i).toNat * 2 ^ (32 * i + 256))) +
    x.cflags % 16 * 2 ^ 224 + trunc 32 x.laststep * 2 ^ 192 + trunc 32 x.ovtiles * 2 ^ 160 + x.head * 2 ^ 134 +
    x.hcount * 2 ^ 128 + x.runamax.toNat * 2 ^ 96 + (f32Inverse x.s).toNat * 2 ^ 64 + x.s.toNat * 2 ^ 32 +
    x.policy * 2 ^ 29 + x.fmt * 2 ^ 25 + x.margin * 2 ^ 22 + x.hlen * 2 ^ 16 + b2n x.backoff * 2 ^ 15 + b2n x.tch * 2 ^ 14

/-- A ledger engine reads an entry's home copy (R137). -/
def homeRead (d : Dev) (e : Nat) : Dev := if (ueIn d.mem (ledgerHome e) 160).isEmpty then d else entryUe d e

/-- R98 to R100: a report reaches the entry's home; one of a closed step is dropped. -/
def conversionReport (d0 : Dev) (e : Nat) (amax : F32) (flags step : Nat) : Dev :=
  if step < d0.seq.step ∨ d0.sup.closed = some step then raiseOnce (bump d0 0x5060 0 1) 0x4540 0 e step
  else
    let d := homeRead d0 e
    let x := ledgerAt d e
    setLedger d e { x with runamax := f32AmaxFold x.runamax amax, cflags := x.cflags ||| flags % 16, tch := true }

/-- `fmax` of a target format code as an exact value (R96). -/
def ledgerFmax (code : Nat) : Fx := (fmaxOf code).getD (fxNat 1)

/-- The newest `n` history values (R102). -/
def histWindow (x : LedgerEntry) (n : Nat) : List F32 :=
  (List.range n).map (fun i => tget f32Zero x.hist ((x.head + 32 - i) % 32))

/-- The step's history push and the clearing of its running fields (R102). -/
def closePush (x : LedgerEntry) : LedgerEntry :=
  let y := if x.tch then
      { x with head := (x.head + 1) % 32, hist := tset x.hist ((x.head + 1) % 32) x.runamax
               hcount := min (x.hcount + 1) 32 }
    else x
  { y with runamax := f32Zero, ovtiles := 0, cflags := 0, tch := false }

/-- The exponent k chosen by R102 before clamping; none when the scale does not change. -/
def closeK (x : LedgerEntry) (ovf : Nat) (rebuild : Bool) : Option Int :=
  let wm := if x.policy = 1 ∧ rebuild = false then some (x.hlen, x.margin)
    else if x.policy = 1 ∨ x.policy = 2 then some (1, x.margin + 1) else none
  match wm with
  | none => none
  | some (window, margin) =>
    let n := min window x.hcount
    if n = 0 then none
    else
      match (histWindow x n).foldl (fun a v => fxMax a (ofF32 v)) (.fin false 0 1), ledgerFmax x.fmt with
      | .fin _ a b, .fin _ f g =>
        if a = 0 then none
        else some (floorLog2 (f * b) (g * a) - margin - (if x.backoff ∧ 0 < ovf then 1 else 0))
      | _, _ => none

/-- R102's close_step of one entry: the entry, and whether the scale was clamped. -/
def closeStep (x : LedgerEntry) (step : Nat) (rebuild : Bool) : LedgerEntry × Bool :=
  let y := closePush x
  match closeK y x.ovtiles rebuild with
  | none => (y, false)
  | some k =>
    let kc := min (max k (-126)) 126
    let s := toF32 (fxPow2 kc)
    ({ y with s := s, laststep := if s = y.s then y.laststep else trunc 32 step }, decide (kc ≠ k))

/-- The pair of an entry for the scale tables. -/
def pairOf (x : LedgerEntry) : F32 × F32 := (x.s, f32Inverse x.s)

/-- Write an entry's pair into the idle copy (R104), with fresh check bits. -/
def writeIdle (d : Dev) (e : Nat) (p : F32 × F32) : Dev :=
  { d with sup := { d.sup with idle := tset d.sup.idle e p, badIdle := d.sup.badIdle.filter (fun x => x != e) } }

/-- Write a pair into both copies of both tables (R105, R107, R135), with fresh check bits. -/
def writeBoth (d : Dev) (e : Nat) (p : F32 × F32) : Dev :=
  { d with sup := { d.sup with
    idle := tset d.sup.idle e p, active := tset d.sup.active e p
    badIdle := d.sup.badIdle.filter (fun x => x != e), badActive := d.sup.badActive.filter (fun x => x != e) } }

/-- close_step on one home entry; its pair is written into the idle copy, a MIRROR entry's as it stands (R104, R107). -/
def closeEntry (d0 : Dev) (e : Nat) : Dev :=
  let d := homeRead d0 e
  let r := closeStep (ledgerAt d e) d.seq.step (decide (0 < rebuildLeft d))
  let d1 := setLedger d e r.1
  let d2 := if r.2 then raiseStep d1 0x4543 e 0 else d1
  writeIdle d2 e (pairOf r.1)

/-- close_step over all home entries of both halves, in increasing index order (R102, R103). An entry no unit
has touched keeps its reset value, and close_step leaves it so. DEDUCED, log 16. -/
def closeAll (d : Dev) : Dev :=
  let d1 := (d.sup.ledger.map Prod.fst).foldl closeEntry d
  { d1 with sup := { d1.sup with enginesDone := 2, closed := some d.seq.step } }

/-- R104: once both ledger engines have finished, both tables swap their copies at one instant. DEDUCED, log 16. -/
def scaleTableSwap (d : Dev) : Dev :=
  if d.sup.enginesDone = 2 then
    { d with sup := { d.sup with active := d.sup.idle, idle := d.sup.active, enginesDone := 0
                                 badActive := d.sup.badIdle, badIdle := d.sup.badActive } }
  else d

/-- R95, R107: a MIRROR entry takes the pair that a dequeued tag carries; another entry keeps its own. -/
def mirrorWrite (d : Dev) (e : Nat) (s inv : F32) : Dev :=
  if (ledgerAt d e).policy = 3 then writeBoth (setLedger d e { ledgerAt d e with s := s }) e (s, inv) else d

/-! ### Scale rebuild (R133 to R135) -/

/-- S of an entry's record in the generation in force (R138), 1.0 when none was staged. -/
def ledgerStagedS (d : Dev) (e : Nat) : F32 :=
  match tfind d.keyed (0x5012 * 0x1000000 + e) with
  | some v => BitVec.ofNat 32 (fld v 63 32)
  | none => f32One

/-- An entry as scale rebuild leaves it (R133). -/
def rebuildEntry (d : Dev) (e : Nat) (x : LedgerEntry) : LedgerEntry :=
  if x.policy = 1 ∨ x.policy = 2 then
    { x with s := f32One, hcount := 0, runamax := f32Zero, ovtiles := 0, cflags := 0 }
  else if x.policy = 0 then { x with s := ledgerStagedS d e }
  else x

/-- Enter scale rebuild (R133): `both` writes the pairs into both copies, otherwise into the idle one. -/
def enterRebuild (d : Dev) (both : Bool) : Dev :=
  let d1 := (d.sup.ledger.map Prod.fst).foldl (fun x e =>
    let y := rebuildEntry x e (ledgerAt x e)
    let x1 := setLedger x e y
    if y.policy = 3 then x1 else if both then writeBoth x1 e (pairOf y) else writeIdle x1 e (pairOf y)) d
  raise (setObj { d1 with sup := { d1.sup with rebuildPending := false } } 0x5022 0 (cfg d1 0x5021 0)) 0x4530 0
    (cfg d1 0x5021 0)

/-- R135: a write to SupScaleRebuildStart; while the job is halted it acts as when idle. DESIGN CHOICE, log 86. -/
def scaleRebuildStart (d : Dev) (v : Nat) : Dev :=
  let d1 := send d (.status 0x5023 0 0)
  if v ≠ 1 then d1
  else if d.seq.job = .running ∨ d.seq.job = .stopping then
    { d1 with sup := { d1.sup with rebuildPending := true } }
  else enterRebuild d1 true

/-- The rebuild count at a boundary (R134, R135): a rebuild entered here is not counted; a later boundary lowers
the count, and 0 ends rebuild. -/
def rebuildTick (d : Dev) : Dev :=
  if d.sup.rebuildPending then enterRebuild d false
  else if 0 < rebuildLeft d then
    let d1 := setObj d 0x5022 0 (rebuildLeft d - 1)
    if rebuildLeft d = 1 then raise d1 0x0531 0 0 else d1
  else d

/-! ### Torpor (R126 to R131) -/

/-- Slot `s` takes part (R127). -/
def torporOn (d : Dev) (s : Nat) : Bool := bitAt (cfg d 0x5054 0) s

/-- A report of a pass to a torpor slot (R126, R127). -/
def torporReport (d : Dev) (s live zeros : Nat) : Dev :=
  if torporOn d s then
    let x := tget torporReset d.sup.torpor s
    let y := { x with live := satAdd 64 x.live live, zeros := satAdd 64 x.zeros zeros, rpt := true }
    { d with sup := { d.sup with torpor := tset d.sup.torpor s y } }
  else d

/-- The boundary tests of one slot (R128, R129) and the clearing of its step (R131). -/
def torporSlot (d : Dev) (s : Nat) : Dev :=
  let x := tget torporReset d.sup.torpor s
  let on := torporOn d s
  let trip := decide (cfg d 0x5050 0 * x.live < x.zeros * 1000000)
  let silent := (decide (0 < x.live) && x.zeros == x.live) || !x.rpt
  let ftrip := if on && decide (0 < x.live) then trip else x.ftrip
  let d1 := if on && decide (0 < x.live) && trip && !x.ftrip then raise d 0x4520 s x.zeros else d
  let n := if silent then satAdd 32 x.silent 1 else 0
  let cnt := if on then n else x.silent
  let d2 := if on && silent && n % cfg d 0x5051 0 == 0 && n != x.silent then raise d1 0x8521 s n else d1
  let y : TorporSlot := { live := 0, zeros := 0, silent := cnt, ftrip, rpt := false }
  { d2 with sup := { d2.sup with torpor := tset d2.sup.torpor s y } }

/-- The torpor tests of every slot, lowest first. A slot that is disabled and lists nothing stays so. -/
def torporTests (d : Dev) : Dev :=
  ((List.range 4096).filter (fun s => torporOn d s || (tfind d.sup.torpor s).isSome)).foldl torporSlot d

end Sys2Proof.Machine
end

