-- ==== Sys2Proof/Machine/HostQp.lean ====
section
/-! DEFINITION. Queue pairs of the host port as requester (R515 to R519), which host windows, the snapshot
engine's mirror and restores use. -/

namespace Sys2Proof.Machine

/-- Queue pair `i`. -/
def qpAt (d : Dev) (i : Nat) : Qp := tget qpReset0 d.hp.qps i

/-- Replace queue pair `i`. -/
def setQp (d : Dev) (i : Nat) (q : Qp) : Dev := { d with hp := { d.hp with qps := tset d.hp.qps i q } }

/-- The configuration row of queue pair `i` (R515). -/
def qpRow (d : Dev) (i : Nat) : Nat := cfg d 0xB030 (i + 1)

/-- The row is in use. -/
def qpEnabled (d : Dev) (i : Nat) : Bool := bitAt (qpRow d i) 255

/-- Queue pair index of a device QPN, 128 when it names none (R515). -/
def qpIndex (qpn : Nat) : Nat := if 0x100 ≤ qpn ∧ qpn < 0x180 then qpn - 0x100 else 128

/-- A queue pair in use loads both PSNs from IPSN before its first packet (R515). -/
def qpStart (d : Dev) (i : Nat) : Qp :=
  let q := qpAt d i
  if q.started then q
  else { q with started := true, sendPsn := fld (qpRow d i) 51 28, expPsn := fld (qpRow d i) 51 28 }

/-- PMTU in bytes. -/
def qpMtu (d : Dev) (i : Nat) : Nat := 256 * 2 ^ (max 1 (min 5 (fld (qpRow d i) 27 25)) - 1)

/-- A device QPN names no queue pair in use, or one in error (R222 cause 0x03). -/
def qpUnusable (d : Dev) (qpn : Nat) : Bool := !qpEnabled d (qpIndex qpn) || (qpAt d (qpIndex qpn)).err

/-- READs outstanding. -/
def readsOut (q : Qp) : Nat := (q.reqs.filter (fun r => r.read)).length

/-- A priority. -/
def pfcAt (d : Dev) (p : Nat) : Pfc := tget pfcReset d.hp.pfc p

/-- The traffic class of a frame (R509, R515): an ARP answer is of class 0, PTP of class 1, a queue pair's of its TC;
a MAC control frame is of none (4). -/
def txClass (d : Dev) (f : TxFrame) : Nat :=
  if f.kind = 1 then 0
  else if f.kind = 9 then 1
  else if f.kind = 8 then 4
  else fld (qpRow d (f.fields.headD 0)) 254 253

/-- A frame stays queued: the link is down (R507), or the priority its class is marked with is paused (R511, R512). -/
def txHeld (d : Dev) (f : TxFrame) : Bool :=
  let c := txClass d f
  !d.hp.linkUp || (decide (c < 4) && (pfcAt d (fld (cfg d 0xB024 0) (16 * c + 10) (16 * c + 8))).paused)

/-- Frames of a class that use up a share of `n` bytes, and those after them. -/
def txShare : Nat → List TxFrame → List TxFrame × List TxFrame
  | _, [] => ([], [])
  | n, f :: fs =>
    if n = 0 then ([], f :: fs)
    else
      let r := txShare (n - max 1 f.payload.length) fs
      (f :: r.1, r.2)

/-- Weighted round robin between two classes, `a` and `b` the bytes of a turn. DESIGN CHOICE, log 101. -/
def txRounds (a b : Nat) : Nat → List TxFrame → List TxFrame → List TxFrame
  | 0, xs, ys => xs ++ ys
  | n + 1, xs, ys =>
    if xs.isEmpty || ys.isEmpty then xs ++ ys
    else
      let x := txShare a xs
      let y := txShare b ys
      x.1 ++ y.1 ++ txRounds a b n x.2 y.2

/-- The order in which frames that wait leave: MAC control, class 1, class 0, then classes 2 and 3 by their weights in
units of 4,096 B (R511). DESIGN CHOICE, log 101. -/
def txOrder (d : Dev) (fs : List TxFrame) : List TxFrame :=
  let of := fun (c : Nat) => fs.filter (fun f => txClass d f == c)
  let w := fun (c : Nat) => 4096 * fld (cfg d 0xB024 0) (16 * c + 15) (16 * c + 12)
  of 4 ++ of 1 ++ of 0 ++ txRounds (w 2) (w 3) fs.length (of 2) (of 3)

/-- Frames that nothing holds leave the host port, and are counted (R511, R524). DESIGN CHOICE, log 101. -/
def txDrain (d : Dev) : Dev :=
  let go := txOrder d (d.hp.txq.filter (fun f => !txHeld d f))
  go.foldl (fun x f => send (bump x 0xB051 0 1) (.host f.kind f.fields f.payload))
    { d with hp := { d.hp with txq := d.hp.txq.filter (txHeld d) } }

/-- A frame is queued for transmit, and leaves unless its class is held (R507, R511, R512). -/
def hostSend (d : Dev) (kind : Nat) (fields : List Nat) (payload : List Byte) : Dev :=
  txDrain { d with hp := { d.hp with txq := d.hp.txq ++ [{ kind, fields, payload }] } }

/-- The packet of a request as it leaves: kind 2 WRITE, 3 READ. -/
def reqFrame (d : Dev) (i : Nat) (r : QpReq) : Dev :=
  hostSend d (if r.read then 3 else 2) [i, fld (qpRow d i) 252 229, r.psn, r.raddr, r.rkey, r.len] r.payload

/-- Send a request on queue pair `i`; a READ waits while MAXRD + 1 are outstanding (R515). -/
def qpSend (d : Dev) (i : Nat) (r : QpReq) : Dev :=
  let q := qpStart d i
  if r.read && decide (fld (qpRow d i) 16 13 + 1 ≤ readsOut q) then setQp d i { q with queued := q.queued ++ [r] }
  else
    let n := max 1 (ceilDiv r.len (qpMtu d i))
    let r1 := { r with psn := q.sendPsn, packets := n }
    reqFrame (setQp d i { q with reqs := q.reqs ++ [r1], sendPsn := (q.sendPsn + n) % 2 ^ 24 }) i r1

/-- The WRITE that queue pair `i` is joining leaves. -/
def flushJoin (d : Dev) (i : Nat) : Dev :=
  match (qpAt d i).joining with
  | some r => qpSend (setQp d i { qpAt d i with joining := none }) i r
  | none => d

/-- Every WRITE being joined leaves. DEDUCED, log 34. -/
def flushWrites (d : Dev) : Dev := d.hp.qps.foldl (fun x e => flushJoin x e.1) d

/-- An access to a host window `row` (R221): at RADDR plus the offset, with the window's key. -/
def windowReq (row : Nat) (r : QpReq) : QpReq := { r with raddr := fld row 191 128 + r.off, rkey := fld row 223 192 }

/-- Post an access to a host window `row`. -/
def hostPost (d : Dev) (row : Nat) (r : QpReq) : Dev :=
  let i := qpIndex (fld row 247 224)
  qpSend (flushJoin d i) i (windowReq row r)

/-- `r` goes on where `a` ends, for the same descriptor and window, within 65,536 B (R517). -/
def joins (a r : QpReq) : Bool :=
  a.unit == r.unit && a.item == r.item && a.win == r.win && a.off + a.len == r.off && a.jaddr + a.len == r.jaddr &&
    decide (a.len + r.len ≤ 65536)

/-- Join a descriptor's write to a host window to the ones before it, or begin another WRITE (R517).
DEDUCED, log 34. -/
def joinPost (d : Dev) (row : Nat) (r : QpReq) : Dev :=
  let i := qpIndex (fld row 247 224)
  let fresh := fun (x : Dev) => setQp x i { qpAt x i with joining := some (windowReq row r) }
  match (qpAt d i).joining with
  | some a =>
    if joins a r then setQp d i { qpAt d i with joining := some { a with len := a.len + r.len, payload := a.payload ++ r.payload } }
    else fresh (flushJoin d i)
  | none => fresh d

/-- Requests of one asker are outstanding or queued on some queue pair. DEDUCED, log 34. -/
def hostPending (d : Dev) (unit item : Nat) : Bool :=
  d.hp.qps.any (fun e => (e.2.reqs ++ e.2.queued).any (fun r => r.unit == unit && r.item == item))

end Sys2Proof.Machine
end

