-- ==== Sys2Proof/Machine/Translate.lean ====
section
/-! DEFINITION. Address translation (R216 to R226): the table walk, cached translations, host windows and the
fault queue. -/

namespace Sys2Proof.Machine

/-- What a translation gives: a device address with its cache hint, a place in a host window, or the cause of a
fault (R222). -/
inductive Xlat where
  | dev (addr hint : Nat)
  | host (win off hint : Nat)
  | fault (cause : Nat)
  deriving DecidableEq, Repr

/-- Two ranges overlap. -/
def overlaps (a n b m : Nat) : Bool := decide (a < b + m ∧ b < a + n)

/-- The range meets a spill region (R227) or a snapshot reserve (R582). -/
def inSpillOrReserve (d : Dev) (a n : Nat) : Bool :=
  [1, 2].any (fun h => overlaps a n (cfg d 0x8020 h) (cfg d 0x8021 h) || overlaps a n (cfg d 0xC102 h) (cfg d 0xC103 h))

/-- A page or a table may lie at `a .. a + n - 1` (R218). -/
def placeable (d : Dev) (a n : Nat) : Bool := accessible d a n && !inSpillOrReserve d a n

/-- A host window's row (R221). -/
def hostWindow (d : Dev) (w : Nat) : Nat := cfg d 0x8040 (w + 1)

/-- Page size of a level: 0 root, 1 second, 2 third (R216). -/
def pageSize : Nat → Nat
  | 0 => 0x40000000
  | 1 => 0x200000
  | _ => 0x10000

/-- Bytes of the table a KIND 0b01 entry of level `l` points at. -/
def nextTableBytes : Nat → Nat
  | 0 => 512 * 8
  | _ => 32 * 8

/-- ADDR of an entry as an address (R217). -/
def entryAddr (e : Nat) : Nat := fld e 47 8 * 256

/-- R218: the entry of level `l` is invalid. -/
def entryInvalid (d : Dev) (l e : Nat) : Bool :=
  let kind := fld e 63 62
  fld e 52 48 != 0 || fld e 7 0 != 0 || (kind != 3 && fld e 58 53 != 0) ||
  (kind == 1 && (l == 2 || !placeable d (entryAddr e) (nextTableBytes l))) ||
  (kind == 2 && (entryAddr e % pageSize l != 0 || !placeable d (entryAddr e) (pageSize l))) ||
  (kind == 3 && (entryAddr e % pageSize l != 0 ||
    decide (fld (hostWindow d (fld e 58 53)) 127 64 < entryAddr e + pageSize l)))

/-- What a page entry of size `size` gives for an access at page offset `off` (R217, R222). -/
def leafXlat (d : Dev) (e off : Nat) (write : Bool) : Xlat :=
  let hint := fld e 60 59
  if fld e 63 62 = 2 then
    if write && !bitAt e 61 then .fault 1 else .dev (entryAddr e + off) hint
  else
    let w := hostWindow d (fld e 58 53)
    if write && (!bitAt e 61 || !bitAt w 254) then .fault 1
    else if !bitAt w 255 || qpUnusable d (fld w 247 224) then .fault 3
    else .host (fld e 58 53) (entryAddr e + off) hint

/-- Index of a job address in the table of a level (R216). -/
def tableIndex (l j : Nat) : Nat :=
  match l with
  | 0 => fld j 47 30
  | 1 => fld j 29 21
  | _ => fld j 20 16

/-- Walk from the table at `t` of level `l`; `fuel` bounds the levels left. The answer is the leaf's level and
entry, or a cause (R222). -/
def walk (d : Dev) (j : Nat) : Nat → Nat → Nat → Except Nat (Nat × Nat)
  | 0, _, _ => .error 2
  | fuel + 1, l, t =>
    let a := t + 8 * tableIndex l j
    let e := memVal d.mem a 8
    if !(ueIn d.mem a 8).isEmpty then .error 4
    else if entryInvalid d l e then .error 2
    else if fld e 63 62 = 0 then .error 0
    else if fld e 63 62 = 1 then walk d j fuel (l + 1) (entryAddr e)
    else .ok (l, e)

/-- The root table keeps the placement rule (R222 cause 0x02). -/
def rootOk (d : Dev) : Bool := placeable d (cfg d 0x8030 0) (262144 * 8)

/-- The cached translation of fetch engine `f` that covers `j` (R219). DESIGN CHOICE, log 77. -/
def cachedAt (d : Dev) (f j : Nat) : Option Cached :=
  (tget [] d.mem.tlb f).find? (fun c => decide (c.base ≤ j ∧ j < c.base + c.size))

/-- Cache a translation; the oldest of 256 goes. DESIGN CHOICE, log 77. -/
def cachePut (d : Dev) (f : Nat) (c : Cached) : Dev :=
  let l := tget [] d.mem.tlb f ++ [c]
  { d with mem := { d.mem with tlb := tset d.mem.tlb f (l.drop (l.length - 256)) } }

/-- The half of a unit that translates: fetch engines 0 to 15 lie in their cluster's half, the management controller (16)
and the host port (17) in half 0 (R660), and the snapshot engine (18) in each (R583). -/
def xlatHalf (f : Nat) : Nat := if f < 16 then f / 8 else if f = 18 then 2 else 0

/-- The far lines a walk reads through the home cache (R219); what the other half serves is counted (R212). -/
def walkTouch (d : Dev) (f j : Nat) : Nat → Nat → Nat → Dev
  | 0, _, _ => d
  | fuel + 1, l, t =>
    let a := t + 8 * tableIndex l j
    let e := memVal d.mem a 8
    let d1 := noteCorrects (noteRemote (cacheLines d a 8 0 false) (xlatHalf f) a 8) a 8
    if fld e 63 62 = 1 ∧ entryInvalid d l e = false then walkTouch d1 f j fuel (l + 1) (entryAddr e) else d1

/-- Translate job address `j` for fetch engine `f` (R216 to R222). -/
def translate (d : Dev) (f j : Nat) (write : Bool) : Xlat × Dev :=
  if cfg d 0x8031 0 = 0 then (.dev j 0, d)
  else
    match cachedAt d f j with
    | some c => (leafXlat d c.entry (j - c.base) write, d)
    | none =>
      if !rootOk d then (.fault 2, d)
      else
        let d1 := walkTouch d f j 3 0 (cfg d 0x8030 0)
        match walk d j 3 0 (cfg d 0x8030 0) with
        | .error c => (.fault c, d1)
        | .ok (l, e) =>
          let size := pageSize l
          match leafXlat d e (j % size) write with
          | .fault c => (.fault c, d1)
          | x => (x, cachePut d1 f { base := j - j % size, size, entry := e })

/-! ### The fault queue (R223 to R226) -/

/-- The lowest free row of the fault queue. -/
def freeFaultRow (d : Dev) : Option Nat := (List.range 16).find? (fun r => (tfind d.mem.faults r).isNone)

/-- The FID after `n` (R223). -/
def fidAfter (n : Nat) : Nat := if n = 0xFFFF then 1 else n + 1

/-- Post a fault record in row `r` with the next FID; the answer is the FID. -/
def postFault (d : Dev) (r : Nat) (x : FaultRec) : Nat × Dev :=
  let fid := d.mem.nextFid
  let d1 := { d with mem := { d.mem with
    faults := tset d.mem.faults r { x with fid := fid }, nextFid := fidAfter fid } }
  let d2 := bump d1 0x8057 0 1
  (fid, raise d2 (if x.cause = 0 then 0x0820 else 0x8821) x.fe fid)

/-- A faulting engine posts its record, or holds it while the queue is full (R225): the FID, 0 while held. -/
def faultArrive (d : Dev) (x : FaultRec) : Nat × Dev :=
  match freeFaultRow d with
  | some r => postFault d r x
  | none => (0, raiseStep { d with mem := { d.mem with faultHold := d.mem.faultHold ++ [x] } } 0x4822 0 x.fe)

/-- The row that holds a FID. -/
def faultRow (d : Dev) (fid : Nat) : Option (Nat × FaultRec) := d.mem.faults.find? (fun e => e.2.fid == fid)

/-- Free a row. -/
def freeRow (d : Dev) (r : Nat) : Dev := { d with mem := { d.mem with faults := tdel d.mem.faults r } }

/-! ### Bytes through translation -/

/-- What a read through translation gives: the bytes, a fault with its cause and job address, or the host window
place whose data has not come. -/
inductive ReadRes where
  | bytes (bs : List Byte)
  | fault (cause jaddr : Nat)
  | wait (win off : Nat)
  | bad (addr : Nat)
  deriving DecidableEq, Repr

/-- Pieces of `n` bytes at `j` that do not cross a 64 KiB page boundary. -/
def pagePieces (j n : Nat) : List (Nat × Nat) :=
  let first := 0x10000 - j % 0x10000
  if n ≤ first then [(j, n)] else [(j, first), ((j + first) % 2 ^ 48, n - first)]

/-- The effective hint: the descriptor's when HOV is set, else the page's (R235). -/
def effHint (hov : Option Nat) (page : Nat) : Nat := hov.getD page

/-- Read one piece of job memory for engine `f` working for `ctx`; `hb` holds bytes that host windows gave. -/
def readPiece (d : Dev) (f ctx : Nat) (hov : Option Nat) (hb : Tab Byte) (j n : Nat) (q : Acc := {}) : ReadRes × Dev :=
  match translate d f j false with
  | (.fault c, d1) => (.fault c j, d1)
  | (.host w off _, d1) =>
    if (List.range n).all (fun i => (tfind hb (w * 2 ^ 64 + off + i)).isSome) then
      (.bytes ((List.range n).map (fun i => tget 0#8 hb (w * 2 ^ 64 + off + i))), d1)
    else (.wait w off, d1)
  | (.dev a h, d1) =>
    match unitRead d1 (f / 8) ctx (effHint hov h) a n q with
    | (some bs, d2) => (.bytes bs, d2)
    | (none, d2) => (.bad a, d2)

/-- Read several pieces in order, stopping at the first that cannot be read. -/
def readPieces (d : Dev) (f ctx : Nat) (hov : Option Nat) (hb : Tab Byte) (q : Acc) : List (Nat × Nat) → ReadRes × Dev
  | [] => (.bytes [], d)
  | (j, n) :: rest =>
    match readPiece d f ctx hov hb j n q with
    | (.bytes bs, d1) =>
      match readPieces d1 f ctx hov hb {} rest with
      | (.bytes cs, d2) => (.bytes (bs ++ cs), d2)
      | r => r
    | r => r

/-- Read `n` bytes of job memory. -/
def jobRead (d : Dev) (f ctx : Nat) (hov : Option Nat) (hb : Tab Byte) (j n : Nat) (q : Acc := {}) : ReadRes × Dev :=
  readPieces d f ctx hov hb q (pagePieces j n)

/-- Numbers from here on are those of askers of a fetch engine that are no descriptors. -/
def noDescriptor : Nat := 2 ^ 64

/-- Write one piece of job memory (a host window page becomes a RoCE WRITE, R221; those of a descriptor are joined, R517). -/
def writePiece (d : Dev) (f ctx item : Nat) (hov : Option Nat) (j : Nat) (bs : List Byte) (q : Acc := {}) : ReadRes × Dev :=
  match translate d f j true with
  | (.fault c, d1) => (.fault c j, d1)
  | (.host w off _, d1) =>
    let r : QpReq := { psn := 0, packets := 0, read := false, raddr := 0, rkey := 0, len := bs.length, payload := bs, unit := f
                       item, win := w, off, jaddr := j }
    (.bytes [], if item < noDescriptor then joinPost d1 (hostWindow d w) r else hostPost d1 (hostWindow d w) r)
  | (.dev a h, d1) =>
    (if accessOk d1 (effHint hov h) a bs.length then .bytes [] else .bad a, unitWrite d1 (f / 8) ctx (effHint hov h) a bs q)

/-- Write bytes of job memory; every piece is translated before any is written, so that a faulting element makes
no access (R265). -/
def jobWrite (d : Dev) (f ctx item : Nat) (hov : Option Nat) (j : Nat) (bs : List Byte) (q : Acc := {}) : ReadRes × Dev :=
  match pagePieces j bs.length with
  | [(a, n), (b, _)] =>
    match translate d f b true with
    | (.fault c, d1) =>
      match translate d f a true with
      | (.fault c', d2) => (.fault c' a, d2)
      | _ => (.fault c b, d1)
    | _ =>
      match writePiece d f ctx item hov a (bs.take n) q with
      | (.bytes _, d1) => writePiece d1 f ctx item hov b (bs.drop n) { q with skip := 0, before := 0, after := 0 }
      | r => r
  | _ => writePiece d f ctx item hov j bs q

/-- The first cause and job address at which the translation of `n` bytes at `j` faults, if any: nothing is accessed
(R265). -/
def jobFault (d : Dev) (f j n : Nat) (write : Bool) : Option (Nat × Nat) × Dev :=
  (pagePieces j n).foldl (fun s p =>
    match s.1 with
    | some x => (some x, s.2)
    | none =>
      match translate s.2 f p.1 write with
      | (.fault c, d1) => (some (c, p.1), d1)
      | (_, d1) => (none, d1)) (none, d)

/-- The device address and hint of a byte of job memory, when it lies in device memory. -/
def jobDevice (d : Dev) (f : Nat) (hov : Option Nat) (j : Nat) (write : Bool) : Option (Nat × Nat) :=
  match translate d f j write with
  | (.dev a h, _) => some (a, effHint hov h)
  | _ => none

end Sys2Proof.Machine
end

