-- ==== Sys2Proof/Machine/Spawn.lean ====
section
/-! DEFINITION. Spawn queues and tadpole tags (chapter 10): grants, data writes into receive slots, the window
check on arriving entries, posts, spill and dequeue. -/

namespace Sys2Proof.Machine

/-! ### Entries (R299, R301) -/

/-- The sequence number of a tag: LAP and INDEX read as one number (R299). -/
def entTag (e : Nat) : Nat := fld e 511 488
def entKind (e : Nat) : Nat := fld e 487 487
def entMiren (e : Nat) : Bool := bitAt e 486
def entSrcdev (e : Nat) : Nat := fld e 475 464
def entSrcctx (e : Nat) : Nat := fld e 463 458
def entPlace (e : Nat) : Nat := fld e 447 432
def entSlot (e : Nat) : Nat := fld e 399 352
def entCookie (e : Nat) : Nat := fld e 239 176

/-- A spawn entry from its fields (R301). DESIGN CHOICE, log 43. -/
def mkEntry (tag kind srcstage srcdev srcctx place step slot bytes cookie : Nat) : Nat :=
  tag % 2 ^ 24 * 2 ^ 488 + kind % 2 * 2 ^ 487 + srcstage % 1024 * 2 ^ 476 + srcdev % 4096 * 2 ^ 464 + srcctx % 64 * 2 ^ 458 +
    place % 65536 * 2 ^ 432 + step % 2 ^ 32 * 2 ^ 400 + slot % 2 ^ 48 * 2 ^ 352 + bytes % 2 ^ 32 * 2 ^ 320 +
    cookie % 2 ^ 64 * 2 ^ 176

/-- Add the mirror pair to an entry (R302). -/
def withMirror (e idx : Nat) (p : F32 × F32) : Nat :=
  e + 2 ^ 486 + idx % 65536 * 2 ^ 304 + p.1.toNat * 2 ^ 272 + p.2.toNat * 2 ^ 240

/-! ### Queues -/

/-- Inbound queue `q` = 2·context + kind. -/
def sqAt (d : Dev) (q : Nat) : SpawnQ := tget spawnQReset d.sq.queues q

/-- Replace a queue. -/
def setSq (d : Dev) (q : Nat) (x : SpawnQ) : Dev := { d with sq := { d.sq with queues := tset d.sq.queues q x } }

/-- The number of the receive slot a job address lies in; none outside the pool. -/
def slotOf (d : Dev) (q a : Nat) : Option Nat :=
  let b := poolBase d (q / 2) (q % 2)
  let n := poolSlot d (q / 2) (q % 2)
  if b ≤ a ∧ n ≠ 0 ∧ (a - b) / n < poolCount d (q / 2) (q % 2) then some ((a - b) / n) else none

/-- The job address of receive slot `i`. -/
def slotAddr (d : Dev) (q i : Nat) : Nat := poolBase d (q / 2) (q % 2) + i * poolSlot d (q / 2) (q % 2)

/-- A receive slot of a queue. -/
def recvSlot (d : Dev) (q i : Nat) : RecvSlot := tget recvSlotReset (sqAt d q).slots i

/-- Replace a receive slot. -/
def setRecvSlot (d : Dev) (q i : Nat) (x : RecvSlot) : Dev :=
  let s := sqAt d q
  setSq d q { s with slots := tset s.slots i x }

/-- The queue a task of a context is dequeued from. -/
def taskQueue (c : Nat) (bwd : Bool) : Nat := 2 * c + b2n bwd

/-! ### Grants (R304, R305) -/

/-- A grant is held for sending KIND `kind` from context `c` (R304): its address and the slot's bytes. -/
def holdGrant (d : Dev) (c kind addr bytes : Nat) : Dev :=
  let q := 2 * (c % 64) + kind % 2
  let s := sqAt d q
  setSq d q { s with held := s.held ++ [(addr, bytes)] }

/-- R304: a grant arrives from a peer device. DESIGN CHOICE, log 43. -/
def sqGrantReceive (d : Dev) (c kind addr bytes : Nat) : Dev := holdGrant d c kind addr bytes

/-- Lend slot `i` of a queue to its sender: forward grants go upstream, backward grants downstream, over the
fabric inside one device (R304, R19). -/
def lendSlot (d : Dev) (q i : Nat) : Dev :=
  match queuePeer d (q / 2) (q % 2) with
  | none => d
  | some (dev, c, kind) =>
    let d1 := setRecvSlot d q i { granted := true, tag := none, busy := false }
    let a := slotAddr d q i
    let n := poolSlot d (q / 2) (q % 2)
    if dev = ownDev d then holdGrant d1 c kind a n
    else relaySend d1 dev 4 (q % 2) 0 (c % 256) (c % 64 * 2 ^ 58 + kind * 2 ^ 57 + a % 2 ^ 48) (leBytes 4 n)

/-- The grants held that no started task has taken: a task's grant is spent when its entry is written (R305). -/
def freeGrants (d : Dev) (c : Nat) (bwd : Bool) : List (Nat × Nat) :=
  (sqAt d (taskQueue c bwd)).held.filter (fun g =>
    d.seq.tasks.all (fun t => !(t.ctx == c && t.bwd == bwd && !t.emitted && t.outAddr == g.1)))

/-- The grant condition of R305. -/
def hasGrant (d : Dev) (c : Nat) (bwd : Bool) : Bool := (emitDest d c bwd).isNone || !(freeGrants d c bwd).isEmpty

/-- The grant a task takes at its start (R305): the address and slot bytes of the oldest, 0 where no grant is needed. -/
def taskGrant (d : Dev) (c : Nat) (bwd : Bool) : Nat × Nat :=
  if (emitDest d c bwd).isNone then (0, 0) else (freeGrants d c bwd).headD (0, 0)

/-- A task's entry is written: its grant is spent (R305). -/
def spendGrant (d : Dev) (t : Task) : Dev :=
  let q := taskQueue t.ctx t.bwd
  setSq d q { sqAt d q with held := (sqAt d q).held.eraseP (fun g => g.1 == t.outAddr) }

/-- Fresh queues at START: LOW of each queue, then one grant per slot in increasing slot order (R304, R308).
DESIGN CHOICE, log 42. -/
def sqStart (d : Dev) : Dev :=
  let d0 := { d with sq := sqReset }
  let qs := (enabledCtxs d).flatMap (fun c => [2 * c, 2 * c + 1])
  let d1 := qs.foldl (fun x q =>
    let low := if q % 2 = 0 ∧ ctxHead d (q / 2) then 0 else cfg d 0x6103 0 % 2 ^ 24
    setSq x q { spawnQReset with low }) d0
  qs.foldl (fun x q => (List.range (poolCount d (q / 2) (q % 2))).foldl (fun y i => lendSlot y q i) x) d1

/-! ### Discards (R307, R309, R306) -/

/-- Count a discarded entry or write and raise its event once per queue per step, with its tag. -/
def sqDiscard (d : Dev) (q idx code tag : Nat) : Dev := raiseStep (bump d idx (q + 1) 1) code q tag

/-- Distance of a tag above LOW (R307). -/
def tagDist (low tag : Nat) : Nat := (tag + (2 ^ 24 - low)) % 2 ^ 24

/-- Shift the window past what has been received (R308). -/
def slideWindow : Nat → Nat → Nat → Nat × Nat
  | 0, low, m => (low, m)
  | fuel + 1, low, m => if m % 2 = 1 then slideWindow fuel ((low + 1) % 2 ^ 24) (m / 2) else (low, m)

/-- The entry that lies at a place of a spill area. -/
def spilledEntry (d : Dev) (a : Nat) : Nat := memVal d.mem a 64

/-- The entries present in a queue, in arrival order (R312). -/
def presentEntries (d : Dev) (q : Nat) : List Nat := (sqAt d q).resident ++ (sqAt d q).spilled.map (spilledEntry d)

/-- Write an entry at the end of a queue's spill area (R312). -/
def spillEntry (d : Dev) (q e : Nat) : Dev :=
  let s := sqAt d q
  let a := spillArea d q + 64 * (s.spillNext % 256)
  setSq (devWrite d a (leBytes 64 e)) q { s with spilled := s.spilled ++ [a], spillNext := s.spillNext + 1 }

/-- Put an accepted entry in its queue: resident, or spilled once the resident part is full (R312).
DEDUCED, log 44. -/
def admitEntry (d : Dev) (q e : Nat) : Dev :=
  let s := sqAt d q
  let r := tagDist s.low (entTag e)
  let w := slideWindow 257 s.low (s.rcvd + 2 ^ r)
  let s1 := { s with low := w.1, rcvd := w.2 }
  let fits := s.spilled.isEmpty && decide (s.resident.length < poolRes d (q / 2) (q % 2))
  let d0 := if fits then setSq d q { s1 with resident := s1.resident ++ [e] } else spillEntry (setSq d q s1) q e
  let d1 := { d0 with sq := { d0.sq with arrivals := d0.sq.arrivals ++ [q] } }
  let d2 := match slotOf d q (entSlot e) with
    | some i => setRecvSlot d1 q i { recvSlot d q i with granted := false, busy := true }
    | none => d1
  if fits then d2 else bump d2 0x6135 (q + 1) 1

/-- The window and lap check of R307. -/
def windowCheck (d : Dev) (q e : Nat) : Dev :=
  let s := sqAt d q
  let t := entTag e
  let r := tagDist s.low t
  if 8388608 ≤ r then sqDiscard d q 0x6130 0x4620 t
  else if 256 ≤ r then
    unitFault (raise (bump d 0x6132 (q + 1) 1) 0x8622 q t) (q / 2) 0x8622
  else if bitAt s.rcvd r then sqDiscard d q 0x6131 0x4621 t
  else admitEntry d q e

/-- R307, R309: an entry arrives at queue `q`. -/
def sqEntryReceive (d : Dev) (q e : Nat) : Dev :=
  if queuePeer d (q / 2) (q % 2) = some (entSrcdev e, entSrcctx e, entKind e) then windowCheck d q e
  else sqDiscard d q 0x6133 0x4623 (entTag e)

/-! ### Data writes (R306) -/

/-- A data write lands in a lent slot, or is discarded. -/
def recvWrite (d : Dev) (q tag a : Nat) (bs : List Byte) : Dev :=
  let s := sqAt d q
  let r := tagDist s.low tag
  match slotOf d q a with
  | some i =>
    let x := recvSlot d q i
    if x.granted && (x.tag.isNone || x.tag == some tag) && decide (r < 256) && !bitAt s.rcvd r then
      let d1 := setRecvSlot d q i { x with tag := some tag }
      match jobWrite d1 ((ctxClusters d (q / 2)).headD 0) (q / 2) (noDescriptor + 1) none a bs with
      | (.fault _ _, _) => sqDiscard d q 0x6134 0x4624 tag
      | (_, d2) => d2
    else sqDiscard d q 0x6134 0x4624 tag
  | none => sqDiscard d q 0x6134 0x4624 tag

/-- R306: a spawn data write arrives from another device; its WRITE-DONE names identifier `id`.
DESIGN CHOICE, log 43. -/
def sqDataWrite (d : Dev) (q tag a src id : Nat) (bs : List Byte) : Dev :=
  relaySend (recvWrite d q tag a bs) src 2 (q % 2) 1 (q / 2 % 256) id []

/-- A unit of task `t` writes its outbound buffer (R306): local slots are written over the fabric, others through
the stage quads. -/
def spawnWrite (d : Dev) (t : Task) (j : Nat) (bs : List Byte) : Dev :=
  if j < t.outAddr ∨ t.outAddr + t.outBytes < j + bs.length then raiseFault d 0x8625 t.ctx j t.ctx
  else
    let d1 := setTask d { t with wrote := t.wrote + bs.length }
    match emitDest d t.ctx t.bwd with
    | none => d1
    | some (dev, c, k) =>
      if dev = ownDev d then recvWrite d1 (2 * c + k) t.tag j bs
      else
        let id := d1.sq.nextWrite
        let d2 := { d1 with sq := { d1.sq with writesOut := d1.sq.writesOut ++ [(t.ctx, t.id, id)], nextWrite := id + 1 } }
        relaySend d2 dev 1 (if t.bwd then 0 else 1) 0 (c % 256)
          (c % 64 * 2 ^ 58 + k * 2 ^ 57 + t.tag * 2 ^ 32 + id % 2 ^ 32) (leBytes 16 j ++ bs)

/-- R306: a WRITE-DONE tells the sender that a write has taken effect at the receiver. -/
def writeDone (d : Dev) (c id : Nat) : Dev :=
  { d with sq := { d.sq with writesOut := d.sq.writesOut.filter (fun w => !(w.1 == c && w.2.2 == id)) } }

/-! ### EMIT's entry (R284, R301, R302) -/

/-- The outbound entry of a task. -/
def outEntry (d : Dev) (t : Task) : Nat :=
  let e := mkEntry t.tag (b2n t.bwd) (ctxStage d t.ctx) (ownDev d) t.ctx (entPlace t.entry) d.seq.step t.outAddr t.wrote
    (entCookie t.entry)
  let l := linkRow d t.ctx
  if t.bwd then
    if bitAt l 218 then withMirror e (fld l 234 219) (scalePair d (fld l 250 235)) else e
  else if bitAt l 251 then withMirror e (fld l 267 252) (scalePair d (fld l 283 268)) else e

/-- Send a task's entry where R284 says; its grant is spent. -/
def sendEntry (d0 : Dev) (t : Task) : Dev :=
  match emitDest d0 t.ctx t.bwd with
  | none => d0
  | some (dev, c, k) =>
    let d := spendGrant d0 t
    if dev = ownDev d then sqEntryReceive d (2 * c + k) (outEntry d t)
    else relaySend d dev 3 (if t.bwd then 0 else 1) 0 (c % 256) (c % 64 * 2 ^ 58 + k * 2 ^ 57) (leBytes 64 (outEntry d t))

/-! ### Posts (R300, R314, R315, R392) -/

/-- The slot the next post of a HEAD context takes. -/
def headSlot (d : Dev) (c : Nat) : Nat := (sqAt d (2 * c)).headK % max 1 (poolCount d c 0)

/-- The context is an enabled HEAD context with slots, and that slot is free (R315). -/
def headFree (d : Dev) (c : Nat) : Bool :=
  ctxEn d c && ctxHead d c && poolCount d c 0 != 0 && !(recvSlot d (2 * c) (headSlot d c)).busy

/-- `RngCheckResult` (R393) for step `n` with the supplied position. -/
def rngCheckWord (d : Dev) (n supplied : Nat) (post : Bool) : Nat :=
  let base := cfg d 0xCE12 0
  let per := cfg d 0xCE13 0
  let e := (base + n * per) % 2 ^ 64
  let pass := e == supplied
  let m := (supplied + (2 ^ 64 - base)) % 2 ^ 64
  let diff : Int := (n : Int) - (m / per : Nat)
  let lim : Int := 2147483647
  let ds := if pass then 0 else if per = 0 ∨ m % per ≠ 0 then 0x80000000
    else ofSigned 32 (max (-lim) (min lim diff))
  n * 2 ^ 192 + e * 2 ^ 128 + supplied * 2 ^ 64 + ds * 2 ^ 32 + b2n post * 2 + b2n pass

/-- Count and report a refused post. -/
def postRefused (d : Dev) (c : Nat) : Dev := send (raiseStep (bump d 0x6136 0 1) 0x4626 0 c) (.status 0x6121 0 6)

/-- R314: a record written to `SqPost`. DEDUCED, log 44. -/
def sqPost (d : Dev) (r : Nat) : Dev :=
  let c := fld r 127 122
  let q := 2 * c
  let s := sqAt d q
  if fld r 121 96 ≠ 0 then send d (.status 0x6121 0 5)
  else if !headFree d c then postRefused d c
  else
    let m := ctxM d c
    let place := (s.headK - s.headK0) % m
    let n := (cfg d 0x6021 0 + (s.headK - s.headK0) / m) % 2 ^ 64
    let check := place == 0 && cfg d 0xCE14 0 == 1
    let w := rngCheckWord d n (fld r 63 0) true
    let d1 := if check then setObj d 0xCE20 0 w else d
    if check && w % 2 == 0 then
      send (raise (bump d1 0xCE21 0 1) 0x8CE2 c (fld r 63 0)) (.status 0x6121 0 6)
    else
      let e := mkEntry (s.headK % 2 ^ 24) 0 (ctxStage d c) (ownDev d) c place d.seq.step (slotAddr d q (headSlot d c))
        (fld r 95 64) (fld r 63 0)
      let d2 := setSq d1 q { s with headK := s.headK + 1 }
      send (windowCheck d2 q e) (.status 0x6121 0 0)

/-! ### Dequeue, completion, spill (R304, R311, R312) -/

/-- The entry at the head of a queue, when it is resident. -/
def sqHead (d : Dev) (q : Nat) : Option Nat := (sqAt d q).resident.head?

/-- Take the head of a queue; the mirror pair it carries is written (R107, R302). An entry with an uncorrectable error is
lost: 0x8627, and R7 applies to the context (R318). DESIGN CHOICE, log 90. -/
def sqDequeue (d : Dev) (q : Nat) : Dev :=
  let s := sqAt d q
  match s.resident with
  | [] => d
  | e :: rest =>
    let d0 := setSq d q { s with resident := rest, bad := s.bad.erase e }
    let d1 := { d0 with sq := { d0.sq with arrivals := d0.sq.arrivals.erase q } }
    if s.bad.contains e then raiseFault d1 0x8627 q (entTag e) (q / 2)
    else if entMiren e then
      let i := fld e 319 304
      if (ledgerAt d i).policy = 3 then
        mirrorWrite d1 i (BitVec.ofNat 32 (fld e 303 272)) (BitVec.ofNat 32 (fld e 271 240))
      else raiseStep d1 0x4629 q (entTag e)
    else d1

/-- R304: the task that dequeued a slot's entry has completed: the slot is lent again, or is free for posts. -/
def slotDone (d : Dev) (q a : Nat) : Dev :=
  match slotOf d q a with
  | some i => lendSlot (setRecvSlot d q i recvSlotReset) q i
  | none => d

/-- R312: a queue whose resident count has fallen to half its limit refills from spill, oldest first. -/
def spillRefill (d : Dev) (q : Nat) : Dev :=
  let s := sqAt d q
  let lim := poolRes d (q / 2) (q % 2)
  if s.spilled.isEmpty || decide (lim < 2 * s.resident.length) then d
  else
    (s.spilled.take (lim - s.resident.length)).foldl (fun x a => refillOne x q a) d
where
  /-- One entry is read back; one read as uncorrectable is so in the entry store too (R318). -/
  refillOne (d : Dev) (q a : Nat) : Dev :=
    let s := sqAt d q
    let e := spilledEntry d a
    let bad := !(ueIn d.mem a 64).isEmpty
    let x := (devRead d 64 a 64).2
    setSq x q { s with resident := s.resident ++ [e], spilled := s.spilled.erase a, bad := if bad then s.bad ++ [e] else s.bad }

/-- `SqQueueState` (R317). DESIGN CHOICE, log 70. -/
def queueState (d : Dev) (q : Nat) : Nat :=
  let s := sqAt d q
  let gout := (s.slots.filter (fun e => e.2.granted)).length
  s.low * 2 ^ 360 + s.rcvd * 2 ^ 104 + (s.resident.length + s.spilled.length) * 2 ^ 95 + s.resident.length * 2 ^ 88 +
    s.spilled.length * 2 ^ 79 + gout * 2 ^ 70 + s.held.length * 2 ^ 61

end Sys2Proof.Machine
end

