-- ==== Sys2Proof/Machine/Fetch.lean ====
section
/-! DEFINITION. Fetch engines and the semaphore bank (chapter 08): descriptors, queues, transfers, faults,
drains, waits. -/

namespace Sys2Proof.Machine

/-! ### Descriptor fields (R235) -/

def fdOp (d : Nat) : Nat := fld d 767 760
def fdNdim (d : Nat) : Nat := fld d 759 757
def fdEsz (d : Nat) : Nat := fld d 756 755
def fdTumask (d : Nat) : Nat := fld d 749 742
def fdFulls (d : Nat) : Nat := fld d 741 726
def fdEmptys (d : Nat) : Nat := fld d 721 710
def fdTask (d : Nat) : Nat := fld d 705 698
def fdSaddr (d : Nat) : Nat := fld d 639 592
def fdDaddr (d : Nat) : Nat := fld d 591 544
def fdCount (d i : Nat) : Nat := fld d (16 * i + 463) (16 * i + 448)
def fdStart (d i : Nat) : Nat := fld d (16 * i + 47) (16 * i + 32)
def fdSstr (d i : Nat) : Int := toSigned 32 (fld d (32 * i + 287) (32 * i + 256))
def fdDstr (d i : Nat) : Int := toSigned 32 (fld d (32 * i + 127) (32 * i + 96))

/-- The hint a descriptor forces (R235). -/
def fdHint (d : Nat) : Option Nat := if bitAt d 753 then some (fld d 752 751) else none

/-- Source unit in bytes (R237). -/
def unitSrc (d : Nat) : Nat := if fdEsz d = 3 then 3 else 2 ^ fdEsz d

/-- Destination unit: a packed FP6 group is 4 B on the operand store and vector chain sides (R237, R238). -/
def unitDst (d : Nat) : Nat :=
  if fdEsz d = 3 then (if fdOp d = 1 ∨ fdOp d = 2 ∨ fdOp d = 3 then 4 else 3) else 2 ^ fdEsz d

/-- Dimensions in use. -/
def fdDims (d : Nat) : List Nat := List.range (fdNdim d)

/-- OP's queue (R236): 1 operand, 2 chain, 3 write; a reserved OP enters the operand queue. -/
def fdQueue (op : Nat) : Nat := if op = 2 ∨ op = 3 then 2 else if op = 4 ∨ op = 5 then 3 else 1

/-- Depth of each queue (R242). -/
def queueDepth : Nat → Nat
  | 0 => 16
  | 1 => 64
  | _ => 32

/-! ### Validity (R240) -/

/-- The bits that R721 lists for an OP, as (hi, lo) fields. -/
def usedFields (d : Nat) : List (Nat × Nat) :=
  let sem := [(721, 710), (709, 706), (741, 726), (725, 722)]
  let common := [(759, 757), (756, 755), (753, 753), (752, 751), (750, 750), (697, 678)]
  let counts := (fdDims d).flatMap (fun i => [(16 * i + 463, 16 * i + 448), (16 * i + 47, 16 * i + 32)])
  let sstr := ((fdDims d).filter (fun i => i != 0)).map (fun i => (32 * i + 287, 32 * i + 256))
  let dstr := ((fdDims d).filter (fun i => i != 0)).map (fun i => (32 * i + 127, 32 * i + 96))
  [(767, 760), (705, 698)] ++ sem ++
    (match fdOp d with
    | 1 => common ++ [(754, 754), (749, 742), (639, 592), (591, 544)] ++ counts ++ sstr ++ dstr
    | 2 => common ++ [(639, 592)] ++ counts ++ sstr
    | 3 => common ++ [(639, 592)] ++ counts ++ sstr
    | 4 => common ++ [(591, 544)] ++ counts ++ dstr
    | 5 => common ++ [(639, 592), (591, 544)] ++ counts ++ sstr ++ dstr
    | _ => [])

/-- Every bit outside the used fields is 0 (R235, R721). -/
def unusedZero (d : Nat) : Bool := (usedFields d).foldl (fun v f => setFld v f.1 f.2 0) d == 0

/-- The farthest reach of a LOAD's destination: (lowest, one past the highest) byte, as integers. -/
def loadReach (d : Nat) : Int × Int :=
  let run : Int := ((fdCount d 0 + 1) * unitDst d : Nat)
  ((fdDims d).filter (fun i => i != 0)).foldl (fun r i =>
    let s := fdDstr d i * (fdCount d i : Int)
    (r.1 + min s 0, r.2 + max s 0)) ((fdDaddr d : Int), (fdDaddr d : Int) + run)

/-- R239: runs on 4 B boundaries of whole 4 B words, inside the half. -/
def loadShape (d : Nat) : Bool :=
  let r := loadReach d
  fdTumask d != 0 && fdDaddr d % 4 == 0 &&
    ((fdDims d).filter (fun i => i != 0)).all (fun i => fdDstr d i % 4 == 0 || fdCount d i == 0) &&
    (fdCount d 0 + 1) * unitDst d % 4 == 0 && decide (0 ≤ r.1) && decide (r.2 ≤ 524288)

/-- Addresses and strides are multiples of the element unit on their side (R240). -/
def alignedUnits (d : Nat) : Bool :=
  let op := fdOp d
  let src := op == 1 || op == 2 || op == 3 || op == 5
  let dst := op == 1 || op == 4 || op == 5
  let inner := (fdDims d).filter (fun i => i != 0)
  let okS := fdSaddr d % unitSrc d == 0 && inner.all (fun i => fdSstr d i % (unitSrc d : Int) == 0)
  let okD := fdDaddr d % unitDst d == 0 && inner.all (fun i => fdDstr d i % (unitDst d : Int) == 0)
  if fdEsz d = 3 then (op != 1 || okD) else (!src || okS) && (!dst || okD)

/-- A descriptor the stage sequencer supplied is valid (R240); a replay's reload may carry WID. -/
def fdValid (d : Nat) (reload : Bool) : Bool :=
  let op := fdOp d
  let mover := op == 1 || op == 2 || op == 3 || op == 4 || op == 5
  decide (op ≤ 6) && (!mover || (decide (1 ≤ fdNdim d) && decide (fdNdim d ≤ 6))) && unusedZero d &&
    (reload || !bitAt d 754) && (fdDims d).all (fun i => decide (fdStart d i ≤ fdCount d i)) && alignedUnits d &&
    (op != 1 || loadShape d) && !(bitAt d 753 && fld d 752 751 == 3) &&
    !(decide (0xF00 ≤ fdFulls d % 4096) && decide (fdFulls d % 4096 ≤ 0xFFE))

/-- Bits that one element of a block takes on a port: an FP4 code 4, any other its stored width, a record 128
(R238, R282). -/
def portBits (f : Fmt) : Nat := if f = .e2m1 then 4 else 8 * storedWidth f

/-- Columns of a memory-sourced block or of a join's shape: elements of one run along dimension 0, each unit giving those
it holds (R282). -/
def blockCols (ds bits : Nat) : Nat := (fdCount ds 0 + 1) * (8 * unitDst ds) / bits

/-- Rows of a memory-sourced block (R282). -/
def blockRows (ds : Nat) : Nat :=
  ((fdDims ds).filter (fun i => i != 0)).foldl (fun n i => n * (fdCount ds i + 1)) 1

/-- The block of a SRC is at most 8,192 elements of `bits` bits (R282). -/
def srcFits (ds bits : Nat) : Bool := decide (blockCols ds bits * blockRows ds ≤ 8192)

/-- Bits of an element of the source that the pass takes. -/
def passBits (w : Nat) (srec : Bool) : Nat :=
  if srec then 128
  else match fmtOfCode (fld w 245 242) with
    | some (f, _) => portBits f
    | none => 0

/-- Bits of an element of the next block to enter the source port, when the pass that takes it has opened. -/
def nextSrcBits (v : Vc) : Option Nat :=
  ((v.passes.filter (fun p => p.src == 8))[v.srcs.length]?).map (fun p => passBits (tget configReset v.config p.slot) p.srec)

/-! ### Positions (R237) -/

/-- The position a transfer is at. -/
def fdPos (d : Nat) : List Nat := (List.range 6).map (fdStart d)

/-- Record a position in START5 to START0. -/
def setPos (d : Nat) (p : List Nat) : Nat :=
  (List.range 6).foldl (fun v i => setFld v (16 * i + 47) (16 * i + 32) (p.getD i 0)) d

/-- One step of the odometer from dimension `i`; none past the last element. -/
def posCarry (d : Nat) : Nat → Nat → List Nat → Option (List Nat)
  | 0, _, _ => none
  | fuel + 1, i, p =>
    let x := p.getD i 0 + 1
    if x ≤ fdCount d i then some (setAt p i x)
    else if i + 1 < fdNdim d then posCarry d fuel (i + 1) (setAt p i 0)
    else none

/-- The position after `p`. -/
def nextPos (d : Nat) (p : List Nat) : Option (List Nat) := posCarry d 6 0 p

/-- Source job address of the element at `p`, modulo 2^48. -/
def srcAt (d : Nat) (p : List Nat) : Nat :=
  ofSigned 48 ((fdDims d).foldl (fun a i => if i = 0 then a else a + (p.getD i 0 : Int) * fdSstr d i)
    ((fdSaddr d + p.getD 0 0 * unitSrc d : Nat) : Int))

/-- Destination address of the element at `p`. -/
def dstAt (d : Nat) (p : List Nat) : Nat :=
  ofSigned 48 ((fdDims d).foldl (fun a i => if i = 0 then a else a + (p.getD i 0 : Int) * fdDstr d i)
    ((fdDaddr d + p.getD 0 0 * unitDst d : Nat) : Int))

/-- Elements a descriptor has in all. -/
def elemTotal (d : Nat) : Nat := (fdDims d).foldl (fun n i => n * (fdCount d i + 1)) 1

/-- A packed group of four FP6 elements, one to a byte (R238). -/
def expandFp6 (bs : List Byte) : List Byte :=
  let v := leVal bs
  (List.range 4).map (fun i => BitVec.ofNat 8 (fld v (6 * i + 5) (6 * i)))

/-- Four FP6 bytes packed into three (R238). -/
def packFp6 (bs : List Byte) : List Byte :=
  leBytes 3 ((List.range 4).foldl (fun v i => v + ((bs.getD i 0#8).toNat % 64) * 2 ^ (6 * i)) 0)

/-- The unit as the destination sees it. -/
def unitOut (d : Nat) (bs : List Byte) : List Byte := if unitDst d = 4 ∧ fdEsz d = 3 then expandFp6 bs else bs

/-! ### Vector chain ports -/

/-- Vector chain `c`. -/
def vcAt (d : Dev) (c : Nat) : Vc := tget vcReset d.vcs c

/-- Replace vector chain `c`. -/
def setVc (d : Dev) (c : Nat) (v : Vc) : Dev := { d with vcs := tset d.vcs c v }

/-- Add unit bytes to the port block of activation `seq`. -/
def feedBlock (seq : Nat) (bs : List Byte) (l : List PortBlock) : List PortBlock :=
  l.map (fun b => if b.seq = seq then { b with data := b.data ++ bs } else b)

/-- Mark the port block of activation `seq` complete. -/
def fillBlock (seq : Nat) (l : List PortBlock) : List PortBlock :=
  l.map (fun b => if b.seq = seq then { b with full := true } else b)

/-- Take `n` bytes from the front of the output port; none while fewer are there. A block whose last byte is
taken owes its write semaphore (R164). -/
def takeOut (v : Vc) (n : Nat) : Option (List Byte × Vc) :=
  match v.outs with
  | [] => none
  | o :: rest =>
    if o.data.length < n then none
    else if o.data.length = n then
      some (o.data, { v with outs := rest, owed := if o.sem = 0xFFF then v.owed else v.owed ++ [(o.src, o.sem, o.ctx)] })
    else
      let o1 := { o with data := o.data.drop n, lost := (o.lost.filter (fun k => decide (n ≤ k))).map (fun k => k - n) }
      some (o.data.take n, { v with outs := o1 :: rest })

/-- The next `n` bytes of the output port hold an element of a discarded group (R166). DEDUCED, log 47. -/
def outLost (v : Vc) (n : Nat) : Bool :=
  match v.outs with
  | o :: _ => o.lost.any (fun k => decide (k < n))
  | [] => false

/-! ### Operand store writes (R40, R41, R239) -/

/-- Drop LOADs that own no word of the half any more, but for `id` (R109). -/
def pruneLoads (h : StoreHalf) (id : Nat) : StoreHalf :=
  { h with loads := h.loads.filter (fun l => l.1 == id || h.owner.any (fun e => e.2 == l.1)) }

/-- Write one unit, at most 4 bytes, into a half at byte address `a` for LOAD `id`; `bad` says that it was read as
uncorrectable, which its word then stays until it is written again (R625). -/
def halfWrite (h : StoreHalf) (id a : Nat) (bs : List Byte) (bad : Bool) : StoreHalf :=
  let kept := if a % 4 = 0 then h.ue.filter (fun w => w != a / 4) else h.ue
  { h with
    bytes := (addrBytes a bs).foldl (fun t e => tset t e.1 e.2) h.bytes
    owner := tset h.owner (a / 4) id
    ue := if bad && !kept.contains (a / 4) then kept ++ [a / 4] else kept }

/-- One unit of a fetch write to the half fixed for TU `t`; a write that finds the half active is discarded, and 0x8303 is
raised once for each, `fresh` at its first unit (R41). -/
def storeWrite (d : Dev) (t half id a : Nat) (bs : List Byte) (fresh bad : Bool) : Dev :=
  let u := tuAt d t
  if u.active = some half then (if fresh then raise d 0x8303 t half else d)
  else setTu d t (setHalf u half (halfWrite (tuHalf u half) id a bs bad))

/-- The TUs a LOAD names, as global indices. -/
def loadTus (f d : Nat) : List Nat := (setBits 8 (fdTumask d)).map (fun i => 8 * f + i)

/-! ### Active descriptors -/

/-- Replace the active descriptor of activation `seq`. -/
def setActive (d : Dev) (f : Nat) (a : FdActive) : Dev :=
  let e := feAt d f
  setFe d f { e with active := e.active.map (fun x => if x.seq = a.seq then a else x) }

/-! ### Requests (R247, R250 to R252) -/

/-- Bytes that a request going over `r` covers next to it in the same 256 B line (R250). -/
def reqJoins (r p : Nat × Nat) : Bool := r.1 / 256 == p.1 / 256 && (r.2 == p.1 || r.1 == p.2)

/-- Two ranges as one. -/
def spanOf (r p : Nat × Nat) : Nat × Nat := (min r.1 p.1, max r.2 p.2)

/-- The parts of a unit of `n` bytes at `j` by 256 B line, in the order in which they continue request `r`. -/
def unitParts (r : Nat × Nat) (j n : Nat) : List (Nat × Nat) :=
  let k := 256 - j % 256
  if n ≤ k then [(j, j + n)]
  else if r.1 = j + n then [(j + k, j + n), (j, j + k)]
  else [(j, j + k), (j + k, j + n)]

/-- What making a unit's requests gives: the new requests, the parts at its start that need none, the request it ends in,
and what a request shared with it has already written. -/
structure Asked where
  slots : Nat
  skip : Nat
  req : Nat × Nat
  shared : Nat × Nat
  dev : Dev
  deriving DecidableEq, Repr

/-- An active descriptor's request at job address `j` shares one of an earlier descriptor of its queue: both carry
MRG = 1, line, direction and hint agree, and both fall in the merge window, which the model leaves to the machine (R251).
DESIGN CHOICE, log 89. -/
def mergeWith (d : Dev) (f : Nat) (a : FdActive) (write : Bool) (j : Nat) : Option MergeReq × Dev :=
  if !bitAt a.entry.desc 750 || cfg d 0x7012 0 == 0 then (none, d)
  else
    match jobDevice d f (fdHint a.entry.desc) j write with
    | none => (none, d)
    | some (x, h) =>
      match (feAt d f).recent.find? (fun m => m.queue == a.queue && m.seq != a.seq && m.write == write && m.hint == h &&
          m.line == x / 256 * 256 && (feAt d f).active.any (fun b => b.seq == m.seq)) with
      | none => (none, d)
      | some m => (if Config.inMergeWindow (nextFree d).1 then some m else none, (nextFree d).2)

/-- The requests that the next unit of a descriptor makes after request `r` (R250, R251); each one that is shared is
counted and needs no slot. -/
def askUnit (d : Dev) (f : Nat) (a : FdActive) (write : Bool) (r : Nat × Nat) (j n : Nat) : Asked :=
  (unitParts r j n).foldl (fun s p =>
    let skip := if s.slots = 0 then s.skip + 1 else s.skip
    if reqJoins s.req p then { s with req := spanOf s.req p, skip }
    else
      let m := mergeWith s.dev f a write p.1
      match m.1 with
      | some x => { s with req := p, skip, shared := (x.lo, x.hi), dev := bump m.2 0x7023 (f + 1) 1 }
      | none => { s with slots := s.slots + 1, req := p, shared := (0, 0), dev := m.2 })
    { slots := 0, skip := 0, req := r, shared := a.shared, dev := d }

/-- Keep the request that a unit at job address `j` belongs to, for later descriptors with MRG = 1 (R251). -/
def keepRequest (d : Dev) (f : Nat) (a : FdActive) (write : Bool) (r : Nat × Nat) (j : Nat) : Dev :=
  if !bitAt a.entry.desc 750 || cfg d 0x7012 0 == 0 then d
  else
    match jobDevice d f (fdHint a.entry.desc) j write with
    | none => d
    | some (x, h) =>
      let m : MergeReq := { queue := a.queue, seq := a.seq, write, hint := h, line := x / 256 * 256, lo := x - (j - r.1)
                            hi := x + (r.2 - j) }
      let e := feAt d f
      setFe d f { e with recent := e.recent.filter (fun y =>
        e.active.any (fun b => b.seq == y.seq) && !(y.seq == m.seq && y.write == write && y.line == m.line)) ++ [m] }

/-- How far the request over `r` that the unit at position `p` belongs to goes on (R250); `at_` gives the units' job
addresses. -/
def reqReach (ds n : Nat) (at_ : List Nat → Nat) : Nat → List Nat → Nat × Nat → Nat × Nat
  | 0, _, r => r
  | fuel + 1, p, r =>
    match nextPos ds p with
    | none => r
    | some q =>
      match (unitParts r (at_ q) n).head? with
      | some x => if reqJoins r x then reqReach ds n at_ fuel q (spanOf r x) else r
      | none => r

/-- What is known of a write's request (R195, R205, R250, R252): `r` is the request before this unit, `s` what asking for the
unit gave. -/
def writeAcc (d : Dev) (f : Nat) (a : FdActive) (p : List Nat) (r : Nat × Nat) (s : Asked) (j n : Nat) (bad : Bool) : Acc :=
  let before := if r.2 = j ∧ j % 256 ≠ 0 then j - r.1 else 0
  let after := if r.1 = j + n ∧ (j + n) % 256 ≠ 0 then r.2 - (j + n) else 0
  let e := reqReach a.entry.desc n (dstAt a.entry.desc) 256 p s.req
  let own : Acc := { skip := s.skip, whole := decide (e.2 - e.1 = 256), before, after, bad }
  match jobDevice d f (fdHint a.entry.desc) j true with
  | some (x, _) =>
    if s.shared.1 < s.shared.2 ∧ s.shared.1 ≤ x + n + after ∧ x ≤ s.shared.2 + before then
      { own with before := max before (x - s.shared.1), after := max after (s.shared.2 - (x + n)) }
    else own
  | none => own

/-- Count moved bytes in their class (R247, R271): remote when the page is not in this half. -/
def noteBytes (d : Dev) (f j n : Nat) (write : Bool) : Dev :=
  let local_ := match translate d f j write with
    | (.dev a _, _) => ownerHalf a == f / 8
    | _ => false
  if local_ then bump d (if write then 0x7021 else 0x7020) (f + 1) n else bump d 0x7022 (f + 1) n

/-- A transfer stops at a translation fault (R223, R265): its record holds the restart point. -/
def stopAtFault (d : Dev) (f : Nat) (a : FdActive) (cause j : Nat) (write : Bool) : Dev :=
  let x : FaultRec := { fid := 0, cause, fe := f, write, ctx := a.entry.ctx, step := trunc 32 d.seq.step, jaddr := j
                        item := a.seq }
  let r := faultArrive d x
  setActive r.2 f { a with fault := true, fid := r.1 }

/-- What one element's move did. -/
inductive Moved where
  | ok (a : FdActive)
  | stop (a : FdActive)
  | fault (cause jaddr : Nat) (write : Bool)
  | gone
  deriving DecidableEq, Repr

/-- Bytes of the elements that follow each other in source memory from position `p` on: `n` so far, at most 65,536.
DEDUCED, log 34. -/
def runBytes (ds : Nat) : Nat → List Nat → Nat → Nat
  | 0, _, n => n
  | fuel + 1, p, n =>
    match nextPos ds p with
    | none => n
    | some q =>
      if 65536 < n + unitSrc ds ∨ srcAt ds q ≠ srcAt ds p + unitSrc ds then n else runBytes ds fuel q (n + unitSrc ds)

/-- Bytes from job address `j` to the end of its page. -/
def pageLeft (d : Dev) (f j : Nat) : Nat :=
  match cachedAt d f j with
  | some c => c.base + c.size - j
  | none => 0

/-- Ask for the bytes of a host window that an element needs (R221), joined with the consecutive ones after it in the page
(R517). DEDUCED, log 34. -/
def askHost (d : Dev) (f : Nat) (a : FdActive) (p : List Nat) (win off : Nat) : Dev :=
  let ds := a.entry.desc
  let len := max (unitSrc ds) (min (runBytes ds 65536 p (unitSrc ds)) (pageLeft d f (srcAt ds p)))
  hostPost d (hostWindow d win) { psn := 0, packets := 0, read := true, raddr := 0, rkey := 0, len, payload := []
                                  unit := f, item := a.seq, win, off, jaddr := srcAt ds p }

/-- Write one unit of a STORE or COPY to memory; `bad` says that it was read as uncorrectable. -/
def putUnit (d : Dev) (f : Nat) (a : FdActive) (p : List Nat) (bs : List Byte) (bad : Bool) : Moved × Dev :=
  let ds := a.entry.desc
  let j := dstAt ds p
  match jobFault d f j bs.length true with
  | (some x, d1) => (.fault x.1 x.2 true, d1)
  | (none, d0) =>
    let s := askUnit d0 f a true a.dstReq j bs.length
    match jobWrite s.dev f a.entry.ctx a.seq (fdHint ds) j bs (writeAcc d0 f a p a.dstReq s j bs.length bad) with
    | (.bytes _, d1) =>
      (.ok { a with dstReq := s.req, shared := s.shared }, noteBytes (keepRequest d1 f a true s.req j) f j bs.length true)
    | (_, d1) => (.gone, d1)

/-- A reload that is widened: what it brings is gathered before it is converted (R114). -/
def widens (x : FdEntry) : Bool := x.reload.any (fun r => r.widen)

/-- Deliver one source unit: to the operand store, to a port, or to memory. -/
def deliver (d : Dev) (f : Nat) (a : FdActive) (p : List Nat) (bs : List Byte) (fresh bad : Bool) : Moved × Dev :=
  let ds := a.entry.desc
  let out := unitOut ds bs
  match fdOp ds with
  | 1 =>
    if widens a.entry then
      let u := tuAt d a.entry.tu
      (.ok a, setTu d a.entry.tu { u with scratch := halfWrite u.scratch 0 (dstAt ds p) out bad })
    else
      (.ok a, (loadTus f ds).foldl (fun x t =>
        storeWrite x t (tget 0 a.halves t) (tget 0 a.ids t) (dstAt ds p) out fresh bad) d)
  | 2 => let v := vcAt d f; (.ok a, setVc d f { v with joins := feedBlock a.seq out v.joins })
  | 3 => let v := vcAt d f; (.ok a, setVc d f { v with srcs := feedBlock a.seq out v.srcs })
  | _ => putUnit d f a p out bad

/-- The task whose outbound spawn buffer the front output block goes to (DEST 0b001, R306). -/
def outTask (d : Dev) (f : Nat) : Option Task :=
  match (vcAt d f).outs with
  | o :: _ => if o.spawn then taskAt d o.task else none
  | [] => none

/-- Move the element at position `p` (R237, R265). A COPY translates both addresses before it moves anything. -/
def moveElem (d : Dev) (f : Nat) (a : FdActive) (p : List Nat) : Moved × Dev :=
  let ds := a.entry.desc
  if fdOp ds = 4 then
    let n := if fdEsz ds = 3 then 4 else unitDst ds
    match takeOut (vcAt d f) n with
    | none => (.stop { a with stalled := true }, d)
    | some (bs, v) =>
      let out := if fdEsz ds = 3 then packFp6 bs else bs
      let j := dstAt ds p
      if outLost (vcAt d f) n then (.ok a, setVc d f v)
      else
      match outTask d f with
      | some t =>
        let d1 := spawnWrite (setVc d f v) t j out
        if ctxLive (ctxAt d1 a.entry.ctx) then (.ok a, d1) else (.gone, d1)
      | none =>
      match putUnit d f a p out false with
      | (.ok a1, d1) => (.ok a1, setVc d1 f v)
      | r => r
  else moveRead d f a p
where
  /-- An element that is read from memory: no access is made unless every address of it translates. -/
  moveRead (d : Dev) (f : Nat) (a : FdActive) (p : List Nat) : Moved × Dev :=
    let ds := a.entry.desc
    let j := srcAt ds p
    let n := unitSrc ds
    let src := jobFault d f j n false
    let dst := if fdOp ds = 5 ∧ src.1 = none then jobFault src.2 f (dstAt ds p) (unitDst ds) true else (none, src.2)
    match src.1, dst.1 with
    | some x, _ => (.fault x.1 x.2 false, src.2)
    | none, some x => (.fault x.1 x.2 true, dst.2)
    | none, none => readUnit dst.2 f a p j n
  /-- Read the unit at `j` once a slot is free for its requests (R245), and deliver it. -/
  readUnit (d : Dev) (f : Nat) (a : FdActive) (p : List Nat) (j n : Nat) : Moved × Dev :=
    let ds := a.entry.desc
    let s := askUnit d f a false a.srcReq j n
    if decide (0 < s.slots) && decide (1024 < (feAt d f).reads + s.slots) then (.stop { a with stalled := true }, d)
    else
      match jobRead s.dev f a.entry.ctx (fdHint ds) a.hostBytes j n { skip := s.skip } with
      | (.wait w off, _) => (.stop { a with hostWait := true }, askHost d f a p w off)
      | (.bytes bs, d1) =>
        let e := feAt d1 f
        let d2 := keepRequest (setFe d1 f { e with reads := e.reads + s.slots }) f a false s.req j
        let bad := (jobDevice d f (fdHint ds) j false).any (fun x => !(ueIn d.mem x.1 n).isEmpty)
        match deliver d2 f { a with srcReq := s.req } p bs (decide (0 < s.slots)) bad with
        | (.ok a2, d3) => (.ok a2, noteBytes d3 f j n false)
        | r => r
      | (_, d1) => (.gone, d1)

/-- What ends a transfer whose last element has moved. -/
def finishMove (d : Dev) (f : Nat) (a : FdActive) : Dev :=
  let d1 := setActive d f { a with moved := true, stalled := false, hostWait := false }
  match fdOp a.entry.desc with
  | 1 => if widens a.entry then d1 else (loadTus f a.entry.desc).foldl (fun x t =>
      let u := tuAt x t
      let h := tget 0 a.halves t
      setTu x t (setHalf u h (pruneLoads (tuHalf u h) (tget 0 a.ids t)))) d1
  | 2 => let v := vcAt d1 f; setVc d1 f { v with joins := fillBlock a.seq v.joins }
  | 3 => let v := vcAt d1 f; setVc d1 f { v with srcs := fillBlock a.seq v.srcs }
  | _ => d1

/-- A descriptor whose context has been stopped ends with its current request (R296 step 4): the element at `q` would
begin another. -/
def endsHere (d : Dev) (f : Nat) (a : FdActive) (q : List Nat) : Bool :=
  let ds := a.entry.desc
  let r := if fdOp ds = 4 then a.dstReq else a.srcReq
  let j := if fdOp ds = 4 then dstAt ds q else srcAt ds q
  !((feAt d f).active.any (fun x => x.seq == a.seq)) && !((unitParts r j (unitSrc ds)).all (reqJoins r))

/-- Move elements from position `p` on, at most `fuel` of them, up to a fault or a wait. DESIGN CHOICE, log 33. -/
def moveFrom (f : Nat) : Nat → Dev → FdActive → List Nat → Dev
  | 0, d, a, _ => setActive d f a
  | fuel + 1, d, a, p =>
    match moveElem d f a p with
    | (.ok a1, d1) =>
      match nextPos a.entry.desc p with
      | none => finishMove d1 f a1
      | some q =>
        let a2 := { a1 with entry := { a1.entry with desc := setPos a1.entry.desc q } }
        if endsHere d1 f a2 q then d1 else moveFrom f fuel d1 a2 q
    | (.stop a1, d1) => setActive d1 f a1
    | (.fault c j w, d1) => stopAtFault d1 f a c j w
    | (.gone, d1) => d1

/-- Start or go on with an active descriptor's transfer from its restart point. DESIGN CHOICE, log 33. -/
def runActive (d : Dev) (f : Nat) (a : FdActive) : Dev :=
  flushWrites (moveFrom f (elemTotal a.entry.desc) d { a with stalled := false, hostWait := false, fault := false, fid := 0 }
    (fdPos a.entry.desc))

/-! ### Signals in queue order (R244) -/

/-- Take the leading descriptors of a queue whose data is complete. -/
def heldPrefix : List FdActive → List FdActive
  | [] => []
  | a :: rest => if a.sigheld then a :: heldPrefix rest else []

/-- The active descriptors of one queue, in activation order. -/
def activeOf (e : Fe) (q : Nat) : List FdActive := e.active.filter (fun a => a.queue == q)

/-- What a descriptor does as its turn to signal comes: it signals FULLS, and the last of a widened reload has its operands
converted (R114). -/
def turnCome (d : Dev) (a : FdActive) : Dev :=
  let n := fdFulls a.entry.desc
  match a.entry.reload with
  | none => semSignal d (n / 4096) (n % 4096) (fld a.entry.desc 725 722 + 1) a.entry.ctx
  | some r => if r.widen && reloadDone d a.entry.tu { r with issued := true } then widenReload d a.entry.tu r else d

/-- The requester number of the heads of the queues, by queue, and of DRAINs: all show as the fetch engine (R256). -/
def headReq (q : Nat) : Nat := 8 + 16 * q

/-- Heads that have taken their wait and are not yet active. -/
def grantedHeads (d : Dev) (f : Nat) : Nat :=
  ((List.range 4).filter (fun q => d.grants.any (fun g => g.1 / 4096 == f && g.2 == headReq q))).length

/-- A head may try its wait: fewer than `FeRunAhead` descriptors are active or about to be, and no DRAIN is in the way
(R243). -/
def mayTry (d : Dev) (f : Nat) : Bool :=
  decide ((feAt d f).active.length + grantedHeads d f < cfg d 0x7011 0) && (feAt d f).draining.isNone

/-- The head of queue `q` tries its blocked wait again (R243). -/
def retryHead (d : Dev) (f q : Nat) : Dev :=
  match (tget [] (feAt d f).queues q).head? with
  | none => d
  | some x =>
    let k := semKey f (fdEmptys x.desc)
    let s := semAt d k
    match s.waits with
    | w :: rest =>
      if w.req = headReq q ∧ w.amount ≤ s.count ∧ mayTry d f then
        keepGrant (setSem d k { s with count := s.count - w.amount, waits := rest }) f (fdEmptys x.desc) w.req
      else d
    | [] => d

/-- Raise the signals that no earlier descriptor of the queue holds back; the heads try their waits again, the reload queue
first and then the operand, chain and write queues (R243). -/
def releaseSignals (d : Dev) (f q : Nat) : Dev :=
  let ready := heldPrefix (activeOf (feAt d f) q)
  let e := feAt d f
  let d1 := setFe d f { e with active := e.active.filter (fun a => !(ready.any (fun r => r.seq == a.seq))) }
  if ready.isEmpty then d else [0, 1, 2, 3].foldl (fun x i => retryHead x f i) (ready.foldl turnCome d1)

/-- The writes of an active descriptor have all taken effect: it signals, or holds its signal (R244). -/
def completeActive (d : Dev) (f : Nat) (a : FdActive) : Dev :=
  releaseSignals (setActive d f { a with sigheld := true }) f a.queue

/-! ### Activation (R241, R243, R246) -/

/-- TUs whose operand-queue LOADs wait for a replay's reloads (R246): one has still to be handed over, or is queued or
active. -/
def replayHeld (d : Dev) (f : Nat) : Nat → Bool := fun t =>
  let e := feAt d f
  (tuAt d t).queue.any (fun x => x.reload.any (fun r => !r.issued)) ||
    (tget [] e.queues 0 ++ e.held).any (fun x => x.tu == t) ||
    e.active.any (fun a => a.entry.reload.isSome && a.entry.tu == t)

/-- A head may become active: one that has taken its wait when there was room (R243), or one that may try it. -/
def mayActivate (d : Dev) (f q : Nat) : Bool :=
  mayTry d f || ((feAt d f).draining.isNone && d.grants.any (fun g => g.1 / 4096 == f && g.2 == headReq q))

/-- Remove the head of a queue; a reload held for want of room takes the place (R242). -/
def popQueue (d : Dev) (f q : Nat) : Dev :=
  let e := feAt d f
  let e1 := { e with queues := tset e.queues q (tget [] e.queues q).tail }
  setFe d f (if q = 0 then takeHeld e1 else e1)

/-- An invalid descriptor at the head: discarded, 0x8701 names engine, queue and TASK, the context stops (R241). -/
def fdInvalid (d : Dev) (f q : Nat) (x : FdEntry) : Dev :=
  let d1 := popQueue d f q
  let e := feAt d1 f
  raiseFault (setFe d1 f { e with dead := x.ctx :: e.dead }) 0x8701 f (q * 256 + fld x.desc 705 698) x.ctx

/-- The check bits of the queue entry at the head are uncorrectable (R261): 0x8704 names engine, queue and TASK, the
descriptor is lost and R7 applies. DESIGN CHOICE, log 88. -/
def fdBad (d : Dev) (f q : Nat) (x : FdEntry) : Dev :=
  raiseFault (popQueue d f q) 0x8704 f (q * 256 + fld x.desc 705 698) x.ctx

/-- Record a LOAD in each TU it writes and fix the half it writes there (R109, R239); a reload's half is fixed when it is
handed over (R110). -/
def bindLoad (d : Dev) (f : Nat) (a : FdActive) : FdActive × Dev :=
  (loadTus f a.entry.desc).foldl (fun s t =>
    let u := tuAt s.2 t
    let h := match a.entry.reload with
      | some r => r.half
      | none => idleHalf u
    let hf := tuHalf u h
    let u1 := { setHalf u h { hf with loads := hf.loads ++ [(u.nextLoad, a.entry.desc)] } with nextLoad := u.nextLoad + 1 }
    ({ s.1 with halves := tset s.1.halves t h, ids := tset s.1.ids t u.nextLoad }, setTu s.2 t u1)) (a, d)

/-- The active record of a descriptor that has just taken its wait. -/
def newActive (x : FdEntry) (q seq : Nat) : FdActive :=
  { entry := { x with wdone := true }, queue := q, seq, halves := [], ids := [], hostBytes := [], hostWait := false
    stalled := false, srcReq := (2 ^ 64, 2 ^ 64), dstReq := (2 ^ 64, 2 ^ 64), fid := 0, fault := false, susp := false, ready := false
    moved := false, sigheld := false, redo := [] }

/-- A head that has taken its wait leaves the queue and becomes active. -/
def activate (d : Dev) (f q : Nat) (x : FdEntry) : FdActive × Dev :=
  let d1 := popQueue d f q
  let e := feAt d1 f
  let a := newActive x q e.nextSeq
  let b := if fdOp x.desc = 1 && !widens x then bindLoad d1 f a else (a, d1)
  let e2 := feAt b.2 f
  (b.1, setFe b.2 f { e2 with active := e2.active ++ [b.1], nextSeq := e2.nextSeq + 1 })

/-- The head of queue `q` with one of the given OPs tries to become active: `go` runs it. -/
def headActivate (d : Dev) (f q : Nat) (ops : List Nat) (go : FdActive → Dev → Dev) : Dev :=
  match tget [] (feAt d f).queues q with
  | [] => d
  | x :: _ =>
    if !(ops.contains (fdOp x.desc)) && decide (fdOp x.desc ≤ 6) then d
    else if (feAt d f).dead.contains x.ctx then popQueue d f q
    else if x.bad then fdBad d f q x
    else if !fdValid x.desc x.reload.isSome || (fdOp x.desc == 3 && (nextSrcBits (vcAt d f)).any (fun b => !srcFits x.desc b)) then
      fdInvalid d f q x
    else if !mayActivate d f q then d
    else if q == 1 && fdOp x.desc == 1 && (loadTus f x.desc).any (replayHeld d f) then d
    else
      let w := if x.wdone then (true, d) else semTake d f (fdEmptys x.desc) (headReq q) (fld x.desc 709 706 + 1)
      if w.1 then
        let b := activate w.2 f q x
        go b.1 b.2
      else w.2

/-- R721: a NOP waits, completes at once and signals in queue order. -/
def fdNop (d : Dev) (f : Nat) : Dev := headActivate d f 1 [0] (fun a x => completeActive x f { a with moved := true })

/-- R239: a LOAD from the operand queue. -/
def fdLoadOperand (d : Dev) (f : Nat) : Dev := headActivate d f 1 [1] (fun a x => runActive x f a)

/-! ### Reloads (R110, R114, R246) -/

/-- The descriptor a reload runs: the recorded LOAD into one TU only. -/
def reloadDesc (ds t : Nat) : Nat :=
  setFld (setFld (setFld ds 749 742 (2 ^ (t % 8))) 741 726 0x0FFF) 721 710 0xFFF

/-- R110, R246: the head of the reload queue runs. -/
def fdLoadReload (d : Dev) (f : Nat) : Dev :=
  match tget [] (feAt d f).queues 0 with
  | [] => d
  | x :: _ =>
    if x.bad then fdBad d f 0 x
    else if !mayTry d f || x.reload.isNone then d
    else
      let b := activate d f 0 { x with desc := reloadDesc x.desc x.tu }
      runActive b.2 f b.1

/-- R239: a LOAD becomes active and writes its elements; `reload` picks the reload queue. -/
def fdLoad (d : Dev) (f : Nat) (reload : Bool) : Dev := if reload then fdLoadReload d f else fdLoadOperand d f

/-- Open the port block of a JOIN or SRC and run it. -/
def fdJoin (d : Dev) (f : Nat) : Dev :=
  headActivate d f 2 [2] (fun a x =>
    let v := vcAt x f
    runActive (setVc x f { v with joins := v.joins ++ [{ desc := a.entry.desc, ctx := a.entry.ctx, seq := a.seq,
                                                          data := [], full := false }] }) f a)

/-- R282: a SRC feeds one memory-sourced block. -/
def fdSrc (d : Dev) (f : Nat) : Dev :=
  headActivate d f 2 [3] (fun a x =>
    let v := vcAt x f
    runActive (setVc x f { v with srcs := v.srcs ++ [{ desc := a.entry.desc, ctx := a.entry.ctx, seq := a.seq,
                                                        data := [], full := false }] }) f a)

/-- R236: a STORE writes the output port to memory. -/
def fdStore (d : Dev) (f : Nat) : Dev := headActivate d f 3 [4] (fun a x => runActive x f a)

/-- R236: a COPY moves memory to memory. -/
def fdCopy (d : Dev) (f : Nat) : Dev := headActivate d f 3 [5] (fun a x => runActive x f a)

/-- R245: a line read returns; a transfer that was held for a read slot, or for output data, goes on. `waited` cycles a class
of requests was ready with no free slot (R247, R271). DESIGN CHOICE, log 33. -/
def lineReadReturn (d0 : Dev) (f waited : Nat) : Dev :=
  let d := bump d0 0x7026 (f + 1) waited
  let e := feAt d f
  if e.reads = 0 then d
  else
    let d1 := setFe d f { e with reads := e.reads - 1 }
    match (feAt d1 f).active.find? (fun a => a.stalled && fdOp a.entry.desc != 4) with
    | some a => runActive d1 f a
    | none => d1

/-- Give the STOREs that were short of output their data, oldest first. -/
def resumeStores (d : Dev) (f : Nat) : Dev :=
  match (feAt d f).active.find? (fun a => a.stalled && fdOp a.entry.desc == 4) with
  | some a => runActive d f a
  | none => d

/-- R244: all writes of a descriptor have taken effect; it signals FULLS in queue order. A write through a host
window takes effect at its ACK (R517). -/
def descriptorComplete (d : Dev) (f q : Nat) : Dev :=
  match (activeOf (feAt d f) q).find? (fun a => a.moved && !a.sigheld && !hostPending d f a.seq) with
  | some a => completeActive d f a
  | none => d

/-! ### Drain (R269) -/

/-- A DRAIN heads all four queues: it begins to wait, and blocks every later descriptor. -/
def fdDrain (d : Dev) (f : Nat) : Dev :=
  let e := feAt d f
  match [0, 1, 2, 3].map (fun q => (tget [] e.queues q).head?) with
  | [some a, some b, some c, some x] =>
    if e.draining.isNone && fdOp a.desc == 6 && a.reload.isNone && fdOp b.desc == 6 && fdOp c.desc == 6 && fdOp x.desc == 6 then
      if fdValid a.desc false then
        setFe d f { e with draining := some a
                           queues := e.queues.map (fun q => (q.1, q.2.tail)) }
      else fdInvalid (setFe d f { e with queues := e.queues.map (fun q => (q.1, if q.1 = 0 then q.2 else q.2.tail)) }) f 0 a
    else d
  | _ => d

/-- The oldest DRAIN that has completed waits on EMPTYS and signals FULLS (R269). -/
def drainSignal (d : Dev) (f : Nat) : Dev :=
  match (feAt d f).drainWait with
  | x :: rest =>
    let w := semTake d f (fdEmptys x.desc) (headReq 4) (fld x.desc 709 706 + 1)
    if w.1 then
      let e := feAt w.2 f
      let n := fdFulls x.desc
      semSignal (setFe w.2 f { e with drainWait := rest }) (n / 4096) (n % 4096) (fld x.desc 725 722 + 1) x.ctx
    else w.2
  | [] => d

/-- A suspended descriptor of this engine is held with its task. -/
def suspendedAt (d : Dev) (f : Nat) : Bool :=
  d.seq.tasks.any (fun t => (tfind t.places f).any (fun p => !p.records.isEmpty))

/-- R269, R722: a DRAIN completes when every earlier descriptor has completed, and the descriptors behind it may become
active; it then waits on EMPTYS and signals FULLS. -/
def fdDrainDone (d : Dev) (f : Nat) : Dev :=
  let e := feAt d f
  match e.draining with
  | some x =>
    if e.active.isEmpty && e.recs.isEmpty && !suspendedAt d f then drainSignal (setFe d f { e with draining := none, drainWait := e.drainWait ++ [x] }) f
    else drainSignal d f
  | none => drainSignal d f

/-- The DRAIN the stage sequencer places itself: it names no semaphore. -/
def drainDesc : Nat := 6 <<< 760 + 0x0FFF <<< 726 + 0xFFF <<< 710

/-- A DRAIN enters all four queues (R269, R722). -/
def placeDrain (d : Dev) (f ctx : Nat) : Dev :=
  let e := feAt d f
  let x : FdEntry := { desc := drainDesc, ctx, task := 0, start := 0, tu := 128, reload := none, wdone := false }
  setFe d f { e with queues := [0, 1, 2, 3].foldl (fun q i => tset q i (tget [] q i ++ [x])) e.queues }

/-! ### Deadlines and faults -/

/-- Change the descriptors of engine `f` wherever they are: active, queued, or held with a suspended task. -/
def mapEntries (d : Dev) (f : Nat) (g : FdEntry → FdEntry) : Dev :=
  let e := feAt d f
  let act := fun (l : List FdActive) => l.map (fun a => { a with entry := g a.entry })
  let d1 := setFe d f { e with active := act e.active, queues := e.queues.map (fun q => (q.1, q.2.map g)) }
  { d1 with seq := { d1.seq with tasks := d1.seq.tasks.map (fun t => { t with places := t.places.map (fun p =>
    if p.1 = f then (f, { p.2 with records := act p.2.records, queued := p.2.queued.map (fun y => (y.1, g y.2)) }) else p) }) } }

/-- The descriptors of engine `f` that have not completed. -/
def entriesOf (d : Dev) (f : Nat) : List FdEntry :=
  let e := feAt d f
  (e.active.filter (fun a => !a.sigheld)).map (fun a => a.entry) ++ e.queues.flatMap Prod.snd ++
    d.seq.tasks.flatMap (fun t => (t.places.filter (fun p => p.1 == f)).flatMap (fun p =>
      (p.2.records.filter (fun a => !a.sigheld)).map (fun a => a.entry) ++ p.2.queued.map Prod.snd))

/-- R264: in paced mode the descriptor issued as number `slot`, with DLN, has not completed in time: it is counted once. -/
def deadlineMiss (d : Dev) (f slot : Nat) : Dev :=
  match (entriesOf d f).find? (fun x => x.num == slot && x.reload.isNone) with
  | some x =>
    let dln := fld x.desc 697 678
    if cfg d 0x7013 0 = 1 ∧ dln ≠ 0 ∧ x.missed = false ∧ x.start + dln * 64 ≤ d.uptime then
      let mark := fun (y : FdEntry) => if y.num = slot ∧ y.reload = none then { y with missed := true } else y
      raiseStep (bump (mapEntries d f mark) 0x7024 (f + 1) 1) 0x4703 f (fdTask x.desc)
    else d
  | none => d

/-- R225: a slot of the fault queue is free and the oldest held record of engine `f` is posted. -/
def faultQueueSlotFree (d : Dev) (f waited : Nat) : Dev :=
  match d.mem.faultHold.find? (fun x => x.fe == f), freeFaultRow d with
  | some x, some r =>
    let d1 := { d with mem := { d.mem with faultHold := d.mem.faultHold.erase x } }
    let p := postFault (bump d1 0x8054 0 waited) r x
    let own := fun (a : FdActive) => if a.seq = x.item ∧ a.fault then { a with fid := p.1 } else a
    let e := feAt p.2 f
    let d2 := setFe p.2 f { e with active := e.active.map own
                                   recs := e.recs.map (fun y => if y.item = x.item then { y with fid := p.1 } else y) }
    { d2 with seq := { d2.seq with tasks := d2.seq.tasks.map (fun t => { t with places := t.places.map (fun y =>
      if y.1 = f then (f, { y.2 with records := y.2.records.map own }) else y) }) } }
  | _, _ => d

/-- Make again the host window writes that a failed queue pair lost, then go on (R519). -/
def resumeActive (d : Dev) (f : Nat) (a : FdActive) : Dev :=
  match a.redo with
  | [] => if a.moved then setActive d f { a with fault := false, fid := 0 } else runActive d f a
  | (w, _, j, _) :: _ =>
    if !bitAt (hostWindow d w) 255 || qpUnusable d (fld (hostWindow d w) 247 224) then stopAtFault d f a 3 j true
    else
      let d1 := a.redo.foldl (fun x r =>
        hostPost x (hostWindow x r.1) { psn := 0, packets := 0, read := false, raddr := 0, rkey := 0, len := r.2.2.2.length
                                        payload := r.2.2.2, unit := f, item := a.seq, win := r.1, off := r.2.1, jaddr := r.2.2.1 }) d
      let a1 := { a with redo := [], fault := false, fid := 0 }
      if a.moved then setActive d1 f a1 else runActive d1 f a1

/-- Write a reduction record through the cluster's fetch engine (R281); one that faults is held as any engine write
(R223). -/
def putRecord (d : Dev) (f ctx task j : Nat) (bs : List Byte) : Dev :=
  match jobWrite d f ctx noDescriptor none j bs with
  | (.fault cause jf, d1) =>
    let e := feAt d1 f
    let r := faultArrive d1 { fid := 0, cause, fe := f, write := true, ctx, step := trunc 32 d.seq.step, jaddr := jf, item := e.nextSeq }
    let y := feAt r.2 f
    setFe r.2 f { y with nextSeq := y.nextSeq + 1
                         recs := y.recs ++ [{ ctx, task, jaddr := j, bytes := bs, fid := r.1, item := e.nextSeq }] }
  | (.bytes _, d1) => noteBytes d1 f j bs.length true
  | (_, d1) => d1

/-- Take a held record out of its engine. -/
def dropRecord (d : Dev) (f fid : Nat) : Dev :=
  let e := feAt d f
  setFe d f { e with recs := e.recs.filter (fun y => y.fid != fid) }

/-- R226, R268: resume frees the slot and the engine translates the restart element again; a descriptor whose
task is switched out is marked READY instead. A FID not in the queue is ignored. -/
def xlatResume (d : Dev) (fid : Nat) : Dev :=
  let d0 := send d (.status 0x8035 0 0)
  match faultRow d fid with
  | none => d0
  | some (r, x) =>
    let d1 := freeRow d0 r
    match (feAt d1 x.fe).active.find? (fun a => a.fault && a.fid == fid), (feAt d1 x.fe).recs.find? (fun y => y.fid == fid) with
    | some a, _ => resumeActive d1 x.fe a
    | none, some y => putRecord (dropRecord d1 x.fe fid) x.fe y.ctx y.task y.jaddr y.bytes
    | none, none =>
      { d1 with seq := { d1.seq with tasks := d1.seq.tasks.map (fun t =>
        { t with places := t.places.map (fun p => (p.1, { p.2 with
          records := p.2.records.map (fun a => if a.fault && a.fid == fid then { a with ready := true } else a) })) }) } }

/-- R226, R268: fail frees the slot, raises 0x8823 and stops the context; the descriptor ends without signalling
and later descriptors of its queue then signal. -/
def xlatFail (d : Dev) (fid : Nat) : Dev :=
  let d0 := send d (.status 0x8036 0 0)
  match faultRow d fid with
  | none => d0
  | some (r, x) =>
    let d1 := dropRecord (freeRow d0 r) x.fe fid
    let e := feAt d1 x.fe
    let d2 := setFe d1 x.fe { e with active := e.active.filter (fun a => !(a.fault && a.fid == fid)) }
    let d3 := [0, 1, 2, 3].foldl (fun y q => releaseSignals y x.fe q) d2
    raiseFault d3 0x8823 x.fe fid x.ctx

/-- R220: a write names a range whose cached translations are to be dropped; its reply is pending. -/
def xlatInvalidate (d : Dev) (a n : Nat) : Dev :=
  send { d with mem := { d.mem with invalidating := d.mem.invalidating ++ [(a, n)] } } (.status 0x8033 0 1)

/-- An access through a host window that was made with the translation of a job address of the range is outstanding. -/
def windowBusy (d : Dev) (a n : Nat) : Bool :=
  d.hp.qps.any (fun e => (e.2.reqs ++ e.2.queued ++ e.2.joining.toList).any (fun r =>
    decide (r.unit < 16) && overlaps a n r.jaddr r.len))

/-- R220: every cached translation that overlaps a range named is dropped; once the accesses made with them have taken effect,
the invalidates complete. -/
def xlatInvalidateDone (d : Dev) : Dev :=
  if d.mem.invalidating.isEmpty then d
  else
    let hit := fun (c : Cached) => d.mem.invalidating.any (fun r => overlaps r.1 r.2 c.base c.size)
    let d1 := { d with mem := { d.mem with tlb := d.mem.tlb.map (fun e => (e.1, e.2.filter (fun c => !hit c))) } }
    if d.mem.invalidating.any (fun r => windowBusy d r.1 r.2) then d1
    else send { d1 with mem := { d1.mem with invalidating := [] } } (.done 0x8033 0 0)

/-! ### The cache fill (R206) -/

/-- A fill lands: its line is allocated, and the writes held for it are applied in arrival order. -/
def cacheFillLands (d : Dev) (line : Nat) : Dev :=
  match d.mem.fills.find? (fun f => f.line == line) with
  | none => d
  | some x =>
    let d1 := cacheAllocate d line (!x.held.isEmpty)
    { d1 with mem := { d1.mem with
      fills := d1.mem.fills.filter (fun f => f.line != line), bytes := putBytes (memBase d1.mem) d1.mem.bytes x.held } }

/-! ### Semaphore commands (R255 to R262) -/

/-- R255: a unit signals a semaphore. Numbers above 0xFFE name none. -/
def semSignalCmd (d : Dev) (cluster num amount ctx : Nat) : Dev := semSignal d cluster num amount ctx

/-- R255: a unit presents a wait. It is taken at once when nothing is before it and the count suffices; otherwise
it blocks. -/
def semWaitCmd (d : Dev) (cluster num amount req : Nat) : Dev :=
  let r := semTake d cluster num req amount
  if r.1 then keepGrant r.2 cluster num req else r.2

/-- R256: the oldest blocked wait succeeds once the count suffices, and the count is reduced; a descriptor at the head of
its queue takes no count while the active limit is reached (R243). DEDUCED, log 35. -/
def semWaitSucceed (d : Dev) (cluster num : Nat) : Dev :=
  let k := semKey cluster num
  let s := semAt d k
  match s.waits with
  | w :: rest =>
    if w.amount ≤ s.count ∧ (w.req % 16 ≠ 8 ∨ w.req = headReq 4 ∨ mayTry d cluster) then
      keepGrant (setSem d k { s with count := s.count - w.amount, waits := rest }) cluster num w.req
    else d
  | [] => d

end Sys2Proof.Machine
end

