-- ==== Sys2Proof/Machine/Func.lean ====
section
/-! DEFINITION. The FUNC results that R150 and R387 fix within a bound: the exact function in fixed point of 512
fraction bits (its error lies below 2^−350, far below 2^−140 and one ulp), and the choice of one FP32 word
within the bound, which the manual leaves to the machine. DESIGN CHOICE, log 19. -/

namespace Sys2Proof.Machine

/-! ### Fixed point -/

/-- The fraction bits of a fixed-point value. -/
def fixBits : Nat := 512

/-- 1.0 in fixed point. -/
def fixOne : Int := 2 ^ fixBits

/-- The fixed-point value of a finite exact value (0 for the others); exact for every FP32 value. -/
def fixOf : Fx → Int
  | .fin s n d => let v : Int := (n * 2 ^ fixBits / d : Nat); if s then -v else v
  | _ => 0

/-- The product. -/
def fixMul (a b : Int) : Int := a * b / fixOne

/-- The quotient. -/
def fixDiv (a b : Int) : Int := a * fixOne / b

/-- `a` held within ±`n`. -/
def fixClamp (n : Nat) (a : Int) : Int := max (-(n * fixOne)) (min (n * fixOne) a)

/-- `fuel` further terms of a series whose term `k` is the last one times `x` over `den k`. -/
def seriesLoop (den : Nat → Int) : Nat → Nat → Int → Int → Int → Int
  | 0, _, _, _, acc => acc
  | fuel + 1, k, x, t, acc =>
    let t' := fixMul t x / den k
    if t' = 0 then acc else seriesLoop den fuel (k + 1) x t' (acc + t')

/-- `a` squared `k` times. -/
def squareLoop : Nat → Int → Int
  | 0, a => a
  | k + 1, a => squareLoop k (fixMul a a)

/-- e^x for |x| held to 600: the series at x/2^16, squared sixteen times. -/
def fixExp (x : Int) : Int :=
  squareLoop 16 (seriesLoop (fun k => k) 80 1 (fixClamp 600 x / 2 ^ 16) fixOne fixOne)

/-- The sum of `s^k · z^(2k+1) / (2k+1)` over `fuel` terms, with `zz = s · z²`. -/
def oddLoop : Nat → Nat → Int → Int → Int → Int
  | 0, _, _, _, acc => acc
  | fuel + 1, k, zz, p, acc => oddLoop fuel (k + 1) zz (fixMul p zz) (acc + p / (2 * k + 1))

/-- Artanh of `z`, |z| ≤ 1/3. -/
def fixArtanh (z : Int) : Int := oddLoop 180 0 (fixMul z z) z 0

/-- Arctan of `1/n`, n ≥ 5. -/
def fixArctanInv (n : Int) : Int := oddLoop 125 0 (-(fixOne / (n * n))) (fixOne / n) 0

/-- π by Machin's formula. -/
def fixPi : Int := 16 * fixArctanInv 5 - 4 * fixArctanInv 239

/-- ln 2. -/
def fixLn2 : Int := 2 * fixArtanh (fixOne / 3)

/-- ln(n/d) of a positive ratio: the exponent times ln 2, and the series at the significand. -/
def fixLn (n d : Nat) : Int :=
  let e := floorLog2 n d
  let m : Int := (n * 2 ^ (fixBits + (-e).toNat) / (d * 2 ^ e.toNat) : Nat)
  e * fixLn2 + 2 * fixArtanh (fixDiv (m - fixOne) (m + fixOne))

/-- √(n/d). -/
def fixSqrt (n d : Nat) : Int := (isqrt (n * 2 ^ (2 * fixBits) / d) : Nat)

/-- σ(x) = 1 / (1 + e^−x) (R149). -/
def fixSigm (x : Int) : Int := fixDiv fixOne (fixOne + fixExp (-x))

/-- tanh(x) (R149). -/
def fixTanh (x : Int) : Int :=
  let e := fixExp (2 * fixClamp 300 x)
  fixDiv (e - fixOne) (e + fixOne)

/-- erf(x/√2), |x| held to 20: the series of positive terms √(2/π) · e^(−x²/2) · Σ x^(2k+1) / (1·3·…·(2k+1)). -/
def fixErf (x : Int) : Int :=
  let c := fixClamp 20 x
  let xx := fixMul c c
  let s := seriesLoop (fun k => 2 * (k : Int) + 1) 1200 1 xx c c
  let k := fixSqrt (2 * 2 ^ fixBits) fixPi.toNat
  fixMul (fixMul k (fixExp (-(xx / 2)))) s

/-- 2·0.7978845608·(x + 0.044715·x³), |x| held to 100 (R149). -/
def gelutArg (x : Int) : Int :=
  let c := fixClamp 100 x
  let cube := fixMul c (fixMul c c)
  2 * 7978845608 * (c + 44715 * cube / 1000000) / 10000000000

/-- GELUT (R149): 0.5·(1 + tanh y) is σ(2y). -/
def fixGelut (x : Int) : Int := fixMul x (fixSigm (gelutArg x))

/-- The derivative of GELUT, |x| held to 100, outside which it is 0 or 1 within 2^−500. -/
def fixGelutD (x : Int) : Int :=
  let c := fixClamp 100 x
  let s := fixSigm (gelutArg c)
  let slope := 2 * 7978845608 * (fixOne + 3 * 44715 * fixMul c c / 1000000) / 10000000000
  s + fixMul (fixMul c slope) (fixMul s (fixOne - s))

/-- SILU (R149). -/
def fixSilu (x : Int) : Int := fixMul x (fixSigm x)

/-- The derivative of SILU, |x| held to 600. -/
def fixSiluD (x : Int) : Int :=
  let c := fixClamp 600 x
  let s := fixSigm c
  fixMul s (fixOne + fixMul c (fixOne - s))

/-- GELUE (R149). -/
def fixGelue (x : Int) : Int := fixMul x (fixOne + fixErf x) / 2

/-- cos(2π·u) for `u` below 1. -/
def fixCosTurn (u : Int) : Int :=
  let a := fixMul (2 * fixPi) u
  seriesLoop (fun k => (2 * (k : Int) - 1) * (2 * k)) 140 1 (-(fixMul a a)) fixOne fixOne

/-! ### The choice within the bound -/

/-- FP32 words in order of value: −0 next below +0. -/
def f32Key (v : F32) : Int :=
  if v.toNat < 2 ^ 31 then v.toNat else 2 ^ 31 - 1 - (v.toNat : Int)

/-- The word at a place in that order; none past the infinities. -/
def f32AtKey (k : Int) : Option F32 :=
  let mag := if 0 ≤ k then k.toNat else (-1 - k).toNat
  if 0x7F800000 < mag then none else some (BitVec.ofNat 32 (if 0 ≤ k then mag else 2 ^ 31 + mag))

/-- One ulp of FP32 at the value `a`, in fixed point. -/
def fixUlp (a : Int) : Int :=
  let e : Int := if a = 0 then -126 else max (-126) (floorLog2 a.natAbs (2 ^ fixBits))
  2 ^ (e - 23 + fixBits).toNat

/-- The FP32 word `v` lies within `n` ulp of `a`, or within `tiny` (R150); an infinity counts as 2^128. -/
def f32Within (n : Nat) (tiny a : Int) (v : F32) : Bool :=
  let w : Int := match ofF32 v with
    | .inf s => if s then -(2 ^ 128 * fixOne) else 2 ^ 128 * fixOne
    | x => fixOf x
  !isNan (ofF32 v) && decide (((w - a).natAbs : Int) ≤ max (n * fixUlp a) tiny)

/-- The rounded value, moved by the machine's choice `pick` to a neighbour that is still within the bound.
DESIGN CHOICE, log 19. -/
def f32Near (n : Nat) (tiny a : Int) (pick : Nat) : F32 :=
  let y := toF32 (.fin (decide (a < 0)) a.natAbs (2 ^ fixBits))
  match f32AtKey (f32Key y + (pick % 1029 : Nat) - 514) with
  | some v => if f32Within n tiny a v then v else y
  | none => y

/-- A result within 2 ulp of `a` (R150). DESIGN CHOICE, log 19. -/
def near2 (a : Int) (pick : Nat) : F32 := f32Near 2 0 a pick

/-- A result within 4 ulp of `a`, or within 2^−140 (R150). DESIGN CHOICE, log 19. -/
def near4 (a : Int) (pick : Nat) : F32 := f32Near 4 (2 ^ (fixBits - 140)) a pick

end Sys2Proof.Machine
end

