-- ==== Sys2Proof/Machine/Vector.lean ====
section
/-! DEFINITION. The stages of a vector chain (chapter 05) and its reductions and masks (chapter 06). -/

namespace Sys2Proof.Machine

/-! ### Configuration word fields (R146) -/

def cwSrc (w : Nat) : Nat := fld w 247 246
def cwJen (w : Nat) : Bool := bitAt w 241
def cwJfmt (w : Nat) : Nat := fld w 240 237
def cwJbc (w : Nat) : Nat := fld w 236 235
def cwAlu1 (w : Nat) : Nat := fld w 234 227
def cwFunc (w : Nat) : Nat := fld w 226 219
def cwAlu2 (w : Nat) : Nat := fld w 218 211
def cwRed (w : Nat) : Nat := fld w 210 207
def cwRax (w : Nat) : Bool := bitAt w 206
def cwOfmt (w : Nat) : Nat := fld w 205 202
def cwSat (w : Nat) : Bool := bitAt w 198
def cwTsen (w : Nat) : Bool := bitAt w 197
def cwTs (w : Nat) : Nat := fld w 196 181
def cwStream (w : Nat) : Nat := fld w 180 169
def cwSen (w : Nat) : Bool := bitAt w 168
def cwCmp (w : Nat) : Bool := bitAt w 161
def cwTen (w : Nat) : Bool := bitAt w 160
def cwDest (w : Nat) : Nat := fld w 147 145
def cwC0 (w : Nat) : F32 := BitVec.ofNat 32 (fld w 127 96)
def cwC1 (w : Nat) : F32 := BitVec.ofNat 32 (fld w 95 64)
def cwC2 (w : Nat) : F32 := BitVec.ofNat 32 (fld w 63 32)
def cwC3 (w : Nat) : F32 := BitVec.ofNat 32 (fld w 31 0)

/-- ALU codes that use the join value. -/
def aluUsesJ (c : Nat) : Bool := [1, 2, 4, 5, 9, 10, 12].contains c

/-- FUNC codes that use the join value. -/
def funcUsesJ (c : Nat) : Bool := [11, 12, 13].contains c

/-- DROP's C2 lies in [0, 1) (R147). -/
def dropOk (w : Nat) : Bool :=
  match ofF32 (cwC2 w) with
  | .fin s n d => (!s || n == 0) && decide (n < d)
  | _ => false

/-- A configuration word is valid (R147). -/
def configValid (w : Nat) : Bool :=
  let src := cwSrc w
  let dest := cwDest w
  fld w 255 248 == 1 && src != 3 && fld w 163 162 != 3 && decide (dest ≤ 4) &&
  decide (cwAlu1 w ≤ 12) && decide (cwAlu2 w ≤ 12) && decide (cwFunc w ≤ 14) && decide (cwRed w ≤ 8) &&
  fld w 200 199 != 3 &&
  (src == 0 || (fmtOfCode (fld w 245 242)).isSome) && (!cwJen w || (fmtOfCode (cwJfmt w)).isSome) &&
  (cwCmp w || dest == 4 || (fmtOfCode (cwOfmt w)).isSome) && (!cwSen w || decide (fld w 167 164 ≤ 7)) &&
  (cwJen w || (!aluUsesJ (cwAlu1 w) && !aluUsesJ (cwAlu2 w) && !funcUsesJ (cwFunc w))) &&
  (cwFunc w != 14 || dropOk w) && (!cwCmp w || (src == 0 && dest == 2 && cwJen w)) &&
  (!cwTen w || cwCmp w || dest == 3) && (dest != 3 || (src == 0 && cwOfmt w == 0 && !cwTsen w && !cwSen w))

/-! ### Ranked comparison (R719) -/

/-- `a` ranks below `b`, with −0 below +0. -/
def rankLt (a b : Fx) : Bool := fxLt a b || (isZero a && isZero b && fxSign a && !fxSign b)

/-- The higher-ranked of two values; NaN when either is NaN. -/
def rankMax (a b : F32) : F32 :=
  if isNan (ofF32 a) || isNan (ofF32 b) then f32Nan else if rankLt (ofF32 a) (ofF32 b) then b else a

/-- The lower-ranked of two values; NaN when either is NaN. -/
def rankMin (a b : F32) : F32 :=
  if isNan (ofF32 a) || isNan (ofF32 b) then f32Nan else if rankLt (ofF32 b) (ofF32 a) then b else a

/-! ### The catalog (R149 to R152) -/

/-- One ALU operation with constants `a`, `b` (R149). -/
def aluOp (code : Nat) (x j a b : F32) : F32 :=
  let vx := ofF32 x
  let vj := ofF32 j
  let va := ofF32 a
  match code with
  | 0 => x
  | 1 => f32Add x j
  | 2 => f32Mul x j
  | 3 => f32Fma a x b
  | 4 => f32Fma a x j
  | 5 => toF32 (fxMul va (fxSub vx vj))
  | 6 => rankMin (rankMax x a) b
  | 7 => toF32 (fxAbs vx)
  | 8 => f32Mul x x
  | 9 => rankMax x j
  | 10 => if isZero vj then a else x
  | 11 => f32Div a x
  | _ => f32Div x j

/-- A function with the special inputs of R151: NaN gives NaN, −∞ and +∞ give `lo` and `hi`. -/
def atInfs (x lo hi other : F32) : F32 :=
  match ofF32 x with
  | .nan => f32Nan
  | .inf true => lo
  | .inf false => hi
  | .fin .. => other

/-- EXP (R150, R151). DESIGN CHOICE, log 19. -/
def expFn (x : F32) : F32 := atInfs x f32Zero (f32Inf false) (near2 (fixExp (fixOf (ofF32 x))) (Config.funcPick 7 x x))

/-- LOG (R150, R151). DESIGN CHOICE, log 19. -/
def logFn (x : F32) : F32 :=
  match ofF32 x with
  | .fin s n d =>
    if n = 0 then f32Inf true else if s then f32Nan else near2 (fixLn n d) (Config.funcPick 8 x x)
  | .inf true => f32Nan
  | .inf false => f32Inf false
  | .nan => f32Nan

/-- The square of an FP32 word is exactly `x`. -/
def isRoot (r : F32) (x : Fx) : Bool := fxEq (fxMul (ofF32 r) (ofF32 r)) x

/-- SQRT: exact where the result is representable (R150, R151). -/
def sqrtFn (x : F32) : F32 :=
  match ofF32 x with
  | .fin s n d =>
    if n = 0 then x
    else if s then f32Nan
    else if isRoot (sqrtF32 n d) (.fin false n d) then sqrtF32 n d
    else near2 (fixSqrt n d) (Config.funcPick 10 x x)
  | .inf true => f32Nan
  | .inf false => f32Inf false
  | .nan => f32Nan

/-- RSQRT: exact where the result is representable (R150, R151). -/
def rsqrtFn (x : F32) : F32 :=
  match ofF32 x with
  | .fin s n d =>
    if n = 0 then f32Inf s
    else if s then f32Nan
    else if isRoot (sqrtF32 d n) (.fin false d n) then sqrtF32 d n
    else near2 (fixSqrt d n) (Config.funcPick 9 x x)
  | .inf true => f32Nan
  | .inf false => f32Zero
  | .nan => f32Nan

/-- DROP (R152): `u` is the element's draw. -/
def dropFn (x a : F32) (u : Nat) : F32 :=
  match ofF32 a with
  | .fin _ n d =>
    if n * 65536 / d ≤ u then toF32 (fxDiv (ofF32 x) (fxSub (fxNat 1) (.fin false n d))) else f32Zero
  | _ => f32Nan

/-- x times a derivative at `j` (R149, R150); with an infinite operand the manual states no result.
DESIGN CHOICE, log 19. -/
def derivFn (code : Nat) (d : Int → Int) (x j : F32) : F32 :=
  if isNan (ofF32 x) || isNan (ofF32 j) then f32Nan
  else if isInf (ofF32 x) || isInf (ofF32 j) then Config.funcAtInf code x j
  else near4 (fixMul (fixOf (ofF32 x)) (d (fixOf (ofF32 j)))) (Config.funcPick code x j)

/-- TANH (R149, R150): its limits ±1 at the infinities are held to the same bound. DESIGN CHOICE, log 19. -/
def tanhFn (x : F32) : F32 :=
  match ofF32 x with
  | .nan => f32Nan
  | .inf s => near2 (if s then -fixOne else fixOne) (Config.funcPick 6 x x)
  | v => near2 (fixTanh (fixOf v)) (Config.funcPick 6 x x)

/-- One FUNC operation (R149, R151). DESIGN CHOICE, log 19. -/
def funcOp (code : Nat) (x j a : F32) (u : Nat) : F32 :=
  match code with
  | 0 => x
  | 1 => if isNan (ofF32 x) then f32Nan else if fxSign (ofF32 x) then f32Zero else x
  | 2 => atInfs x f32Zero (f32Inf false) (near4 (fixGelut (fixOf (ofF32 x))) (Config.funcPick 2 x x))
  | 3 => atInfs x f32Zero (f32Inf false) (near4 (fixGelue (fixOf (ofF32 x))) (Config.funcPick 3 x x))
  | 4 => atInfs x f32Zero (f32Inf false) (near4 (fixSilu (fixOf (ofF32 x))) (Config.funcPick 4 x x))
  | 5 => atInfs x f32Zero f32One (near2 (fixSigm (fixOf (ofF32 x))) (Config.funcPick 5 x x))
  | 6 => tanhFn x
  | 7 => expFn x
  | 8 => logFn x
  | 9 => rsqrtFn x
  | 10 => sqrtFn x
  | 11 => if isNan (ofF32 x) || isNan (ofF32 j) then f32Nan else if fxLt (.fin false 0 1) (ofF32 j) then x else f32Zero
  | 12 => derivFn 12 fixGelutD x j
  | 13 => derivFn 13 fixSiluD x j
  | _ => dropFn x a u

/-! ### Elements of ports -/

/-- Element codes held in port bytes: FP4 two to a byte, lower index in [3:0]; FP6 one to a byte (R34, R238, R282). -/
def unpackElems (f : Fmt) (bs : List Byte) : List Nat :=
  if f = .e2m1 then bs.flatMap (fun b => [b.toNat % 16, b.toNat / 16])
  else if fwidth f = 6 then bs.map (fun b => b.toNat % 64)
  else
    let w := storedWidth f
    (List.range (bs.length / w)).map (fun i => leVal ((bs.drop (i * w)).take w))

/-- Pairs of FP4 codes as bytes. -/
def packNibbles : List Nat → List Byte
  | [] => []
  | [a] => [BitVec.ofNat 8 a]
  | a :: b :: r => BitVec.ofNat 8 (a + 16 * b) :: packNibbles r

/-- Element codes as port bytes. -/
def packElems (f : Fmt) (cs : List Nat) : List Byte :=
  if f = .e2m1 then packNibbles cs else cs.flatMap (fun c => leBytes (storedWidth f) c)

/-- Groups of `n` elements of a list. -/
def chunksOf {α : Type} (n : Nat) : Nat → List α → List (List α)
  | 0, _ => []
  | fuel + 1, l => if l.isEmpty then [] else l.take n :: chunksOf n fuel (l.drop n)

/-- Element codes as memory holds them: FP4 two per byte, FP6 four per three bytes (R238, R367). -/
def packMem (f : Fmt) (cs : List Nat) : List Byte :=
  let bs := packElems f cs
  if fwidth f = 6 then (chunksOf 4 bs.length bs).flatMap packFp6 else bs

/-- The codes of packed memory bytes. -/
def unpackMem (f : Fmt) (bs : List Byte) : List Nat :=
  unpackElems f (if fwidth f = 6 then (chunksOf 3 bs.length bs).flatMap expandFp6 else bs)

/-- An element code widened to FP32 (R143), by RNE: `x` is the block scale of an MX element. The second part says that a
finite element exceeded the FP32 range (R82, R91). DESIGN CHOICE, log 92. -/
def widen (f : Fmt × Bool) (sat : Bool) (x c : Nat) : F32 × Bool :=
  let v := fdecode f.1 c
  let r := convert .fp32 .rne 0 sat (if f.2 then fxMul v (e8m0 x) else v)
  (BitVec.ofNat 32 r.1, r.2.ovf)

/-- Port elements widened in order; the block scale of MX element `i` is the free value of its block.
DESIGN CHOICE, log 18. -/
def widenAll (f : Fmt × Bool) (sat : Bool) (draw : Nat) (cs : List Nat) : List (F32 × Bool) :=
  (List.range cs.length).map (fun i => widen f sat (Config.portScale draw (i / 32)) (cs.getD i 0))

/-! ### Masks (R184 to R191) -/

/-- The descriptor of a mask slot is valid but for its document table (R188). -/
def maskValid (m : Nat) : Bool :=
  let bsz := fld m 251 247
  fld m 173 160 == 0 && fld m 143 128 == 0 && decide (6 ≤ bsz) && decide (bsz ≤ 14) && decide (fld m 246 226 ≤ 2 ^ 20) &&
    (!bitAt m 253 || decide (ceilDiv (2 ^ 20 / 2 ^ bsz) 8 ≤ fld m 159 144))

/-- A read that the chain makes through its cluster's fetch engine at a device address, and its count (R162, R189, R198,
R271). -/
def chainRead (d : Dev) (c ctx a n : Nat) : Option (List Byte) × Dev :=
  let r := unitRead d (c / 8) ctx 0 a n
  (r.1, if r.1.isSome then bump r.2 (if ownerHalf a = c / 8 then 0x7020 else 0x7022) (c + 1) n else r.2)

/-- The entries of a document start table (R187). -/
def docEntries (bs : List Byte) : List Nat := (List.range (bs.length / 4)).map (fun i => leVal ((bs.drop (4 * i)).take 4))

/-- The table is strictly ascending and below 2^20 (R187). -/
def docOrdered : List Nat → Bool
  | [] => true
  | [a] => decide (a < 2 ^ 20)
  | a :: b :: r => decide (a < b) && docOrdered (b :: r)

/-- doc(p): entries at or below p (R186). -/
def docOf (es : List Nat) (p : Nat) : Nat := (es.filter (fun e => decide (e ≤ p))).length

/-- R186: position (q, k) is kept by descriptor `m` with document table `es`. -/
def maskKeeps (d : Dev) (m : Nat) (es : List Nat) (q k : Nat) : Bool :=
  let bsz := fld m 251 247
  let qb := q / 2 ^ bsz
  let kb := k / 2 ^ bsz
  decide (k < fld m 246 226) && (!bitAt m 255 || decide (k ≤ q)) &&
    (!bitAt m 254 || (decide (q ≤ k + fld m 225 206) && decide (k ≤ q + fld m 205 186))) &&
    (!bitAt m 253 || bitAt (memByte d.mem (fld m 127 64 + qb * fld m 159 144 + kb / 8)).toNat (kb % 8)) &&
    (!bitAt m 252 || docOf es q == docOf es k)

/-- The row's query and column's key positions of element (i, j). -/
def maskLive (d : Dev) (p : Pass) (m : Nat) (es : List Nat) (i j : Nat) : Bool :=
  let q := p.qpos + i
  let k := p.kpos + j
  decide (q < 2 ^ 20) && decide (k < 2 ^ 20) && maskKeeps d m es q k

/-! ### Reductions (R172 to R180) -/

/-- Combine neighbours of a list. -/
def pairUp {α : Type} (f : α → α → α) : List α → List α
  | a :: b :: r => f a b :: pairUp f r
  | l => l

/-- The fixed pairwise tree (R173), `n` levels. -/
def treeLevels {α : Type} (f : α → α → α) : Nat → List α → List α
  | 0, l => l
  | n + 1, l => treeLevels f n (pairUp f l)

/-- The tree over a segment of at most 256 slots; `e` when it has none. -/
def treeFold {α : Type} (f : α → α → α) (e : α) (l : List α) : α := (treeLevels f 8 l).headD e

/-- FP32 −0, the identity of sums. -/
def f32NegZero : F32 := 0x80000000#32

/-- A segment's tree sum; dead slots hold −0. -/
def treeSum (xs : List (Option F32)) : F32 := treeFold f32Add f32NegZero (xs.map (fun x => x.getD f32NegZero))

/-- The natural `k` as FP32. -/
def f32Nat (k : Nat) : F32 := toF32 (fxNat k)

/-- A segment reduced with RED code `c` (R173, R177, R178); `none` is a dead slot. -/
def segment (c : Nat) (xs : List (Option F32)) : RedState :=
  let live := xs.filterMap id
  let n := live.length
  let st := fun (m l : F32) (k : Nat) (nan : Bool) => ({ m, l, n, ninf := k, nan } : RedState)
  if c = 2 then st (treeFold rankMax (f32Inf true) (xs.map (fun x => x.getD (f32Inf true)))) f32Zero 0 false
  else if c = 3 then st (treeFold rankMin (f32Inf false) (xs.map (fun x => x.getD (f32Inf false)))) f32Zero 0 false
  else if c = 6 then
    st (treeFold rankMax (f32Inf true)
      (xs.map (fun x => (x.map (fun v => toF32 (fxAbs (ofF32 v)))).getD (f32Inf true)))) f32Zero 0 false
  else if c = 5 then st (treeSum (xs.map (fun x => x.map (fun v => f32Mul v v)))) f32Zero 0 false
  else if c = 7 ∨ c = 8 then
    let k := (live.filter (fun v => v == f32Inf false)).length
    let m := treeFold rankMax (f32Inf true) (xs.map (fun x => x.getD (f32Inf true)))
    if n = 0 then st (f32Inf true) f32NegZero 0 false
    else if live.any (fun v => isNan (ofF32 v)) then st f32Nan f32Nan 0 true
    else if 0 < k then st (f32Inf false) (f32Nat k) k false
    else if m = f32Inf true then st m f32NegZero 0 false
    else st m (treeSum (xs.map (fun x => x.map (fun v => expFn (f32Sub v m))))) 0 false
  else st (treeSum xs) f32Zero 0 false

/-- Fold a partial into the running result of the lower blocks (R174, R178). -/
def foldRed (c : Nat) (a b : RedState) : RedState :=
  let n := min (a.n + b.n) (2 ^ 32 - 1)
  let st := fun (m l : F32) (k : Nat) (nan : Bool) => ({ m, l, n, ninf := k, nan } : RedState)
  if c = 2 ∨ c = 6 then st (rankMax a.m b.m) f32Zero 0 false
  else if c = 3 then st (rankMin a.m b.m) f32Zero 0 false
  else if c = 7 ∨ c = 8 then
    if a.nan || b.nan then st f32Nan f32Nan 0 true
    else if 0 < a.ninf ∨ 0 < b.ninf then
      let k := min (a.ninf + b.ninf) (2 ^ 24 - 1)
      st (f32Inf false) (f32Nat k) k false
    else if b.m = f32Inf true then { a with n := n }
    else if a.m = f32Inf true then { b with n := n }
    else
      let m := rankMax a.m b.m
      st m (f32Add (f32Mul a.l (expFn (f32Sub a.m m))) (f32Mul b.l (expFn (f32Sub b.m m)))) 0 false
  else st (f32Add a.m b.m) f32Zero 0 false

/-- Fold a list of partials in order. -/
def foldAll (c : Nat) : List RedState → RedState
  | [] => segment c []
  | x :: xs => xs.foldl (foldRed c) x

/-- The 16 B record of a finished reduction (R171, R177 to R179). -/
def redRecord (c : Nat) (s : RedState) : Nat :=
  let soft := c == 7 || c == 8
  let empty := s.n == 0
  let rnan := soft && s.nan
  let rinf := soft && !s.nan && decide (0 < s.ninf)
  let rmask := soft && !rnan && !rinf && (empty || s.m == f32Inf true)
  let val : F32 :=
    if soft then
      if rnan then f32Nan else if rinf then f32Inf false else if rmask then f32Inf true
      else if c = 7 then f32Add s.m (logFn s.l) else s.m
    else if empty then (if c = 2 then f32Inf true else if c = 3 then f32Inf false else f32Zero)
    else if c = 4 then toF32 (fxDiv (ofF32 s.m) (fxNat s.n)) else s.m
  let val2 : F32 :=
    if c = 8 then (if rnan then f32Nan else if empty then f32Zero else s.l)
    else if c = 7 then (if rnan then f32Nan else if rinf then f32Inf false else if rmask then f32Inf true else s.m)
    else f32Zero
  val2.toNat <<< 96 + min s.n (2 ^ 32 - 1) <<< 64 + (if soft then min s.ninf (2 ^ 24 - 1) else 0) <<< 40 +
    b2n rnan <<< 35 + b2n rinf <<< 34 + b2n rmask <<< 33 + b2n empty <<< 32 + val.toNat

/-- A record is of MAXSUM form (R177, R179, R180): VAL, VAL2, NINF and EMPTY are those that its row flag goes with. -/
def maxsumForm (r : Nat) : Bool :=
  let val : F32 := BitVec.ofNat 32 (fld r 31 0)
  let val2 : F32 := BitVec.ofNat 32 (fld r 127 96)
  let n := fld r 95 64
  let k := fld r 63 40
  fld r 39 36 == 0 && (bitAt r 32 == (n == 0)) && (bitAt r 34 || k == 0) &&
    (match fld r 35 33 with
     | 0 => n != 0 && isFin (ofF32 val) && isFin (ofF32 val2) && fxLt (.fin false 0 1) (ofF32 val2)
     | 1 => val == f32Inf true && val2 == (if n = 0 then f32Zero else f32NegZero)
     | 2 => n != 0 && val == f32Inf false && k != 0 && val2 == f32Nat k
     | 4 => n != 0 && isNan (ofF32 val) && isNan (ofF32 val2)
     | _ => false)

/-- The reduction state a MAXSUM record holds (R178, R180). -/
def recordState (r : Nat) : RedState :=
  { m := BitVec.ofNat 32 (fld r 31 0), l := if bitAt r 33 then f32NegZero else BitVec.ofNat 32 (fld r 127 96)
    n := fld r 95 64, ninf := fld r 63 40, nan := bitAt r 35 }

/-- Count a record's flags and raise the row events (R183). -/
def noteRecord (d : Dev) (c r : Nat) (written : Bool) : Dev :=
  let d1 := if written && bitAt r 32 then bump d 0x4060 (c + 1) 1 else d
  let d2 := if bitAt r 33 then bump d1 0x4061 (c + 1) 1 else d1
  let d3 := if bitAt r 34 then bump d2 0x4062 (c + 1) 1 else d2
  let d4 := if bitAt r 35 then bump d3 0x4063 (c + 1) 1 else d3
  let d5 := if bitAt r 35 && bitAt (cfg d 0x4055 0) 1 then raiseStep d4 0x4410 c 0 else d4
  let d6 := if bitAt r 34 && bitAt (cfg d 0x4055 0) 0 then raiseStep d5 0x4411 c 0 else d5
  if written && (fld r 95 64 == 2 ^ 32 - 1 || fld r 63 40 == 2 ^ 24 - 1) then raiseStep d6 0x4415 c 0 else d6

/-! ### A pass's input -/

/-- The elements of a pass: rows and columns, the value of position (m, n) after ING, which are live, and which ING made
infinite or largest from a finite value (R91, R144). -/
structure PassIn where
  rows : Nat
  cols : Nat
  vals : List F32
  live : List Bool
  past : List Bool := []
  deriving DecidableEq, Repr

/-- Positions of a pass in row-major order. -/
def passPositions (i : PassIn) : List (Nat × Nat) := (List.range i.rows).flatMap (fun m => (List.range i.cols).map (fun n => (m, n)))

/-- ING of a drained tile: each value times 2^(4·r), rounded (R144). -/
def tileIn (t : Tile) : PassIn :=
  let ps := (List.range 128).flatMap (fun m => (List.range 64).map (fun n => (m, n)))
  { rows := 128, cols := 64
    vals := ps.map (fun p =>
      if rowLive t.last p.1 && colLive t.last p.2 then
        toF32 (fxMul (ofF32 (tget f32Zero t.vals (posKey p.1 p.2))) (fxPow2 (4 * t.rpl : Nat)))
      else f32Zero)
    live := ps.map (fun p => rowLive t.last p.1 && colLive t.last p.2)
    past := ps.map (fun p =>
      let v := ofF32 (tget f32Zero t.vals (posKey p.1 p.2))
      isFin v && isInf (ofF32 (toF32 (fxMul v (fxPow2 (4 * t.rpl : Nat)))))) }

/-- Live positions that ING took out of range (R144, R145). -/
def overCount (i : PassIn) : Nat := ((i.live.zip i.past).filter (fun x => x.1 && x.2)).length

/-- ING of a memory-sourced block. -/
def blockIn (b : PortBlock) (f : Fmt × Bool) (sat : Bool) (draw : Nat) : PassIn :=
  let vals := widenAll f sat draw (unpackElems f.1 b.data)
  { rows := blockRows b.desc, cols := blockCols b.desc (portBits f.1), vals := vals.map Prod.fst
    live := vals.map (fun _ => true), past := vals.map Prod.snd }

/-- Apply a mask: positions it does not keep are dead (R186). -/
def maskIn (d : Dev) (p : Pass) (m : Nat) (es : List Nat) (i : PassIn) : PassIn :=
  let live := (passPositions i).zipWith (fun q l => l && maskLive d p m es q.1 q.2) i.live
  { i with live, vals := live.zipWith (fun l v => if l then v else f32Zero) i.vals }

/-- The bytes of a mask's bitmap that the positions of a pass fall in, row block by row block (R186): address and bytes. -/
def bitmapReads (p : Pass) (m rows cols : Nat) : List (Nat × Nat) :=
  let b := 2 ^ fld m 251 247
  if !bitAt m 253 || rows == 0 || cols == 0 || decide (2 ^ 20 ≤ p.qpos) || decide (2 ^ 20 ≤ p.kpos) then []
  else
    let q1 := min (p.qpos + rows - 1) (2 ^ 20 - 1)
    let k0 := p.kpos / b / 8
    let k1 := min (p.kpos + cols - 1) (2 ^ 20 - 1) / b / 8
    (List.range (q1 / b + 1 - p.qpos / b)).map (fun i => (fld m 127 64 + (p.qpos / b + i) * fld m 159 144 + k0, k1 + 1 - k0))

/-- Positions beyond the frame (R191). -/
def frameCount (p : Pass) (i : PassIn) : Nat :=
  ((passPositions i).filter (fun q => decide (2 ^ 20 ≤ p.qpos + q.1) || decide (2 ^ 20 ≤ p.kpos + q.2))).length

/-! ### JOIN (R143, R181, R723) -/

/-- Join values a pass needs (R723). -/
def joinCount (w : Nat) (i : PassIn) : Nat :=
  match cwJbc w with
  | 0 => i.rows * i.cols
  | 1 => i.cols
  | 2 => i.rows
  | _ => 1

/-- Index of the join value of position (m, n). -/
def joinIndex (w cols m n : Nat) : Nat :=
  match cwJbc w with
  | 0 => m * cols + n
  | 1 => n
  | 2 => m
  | _ => 0

/-- The 16 B records of a join or source array. -/
def recordsOf (bs : List Byte) : List Nat := (List.range (bs.length / 16)).map (fun i => leVal ((bs.drop (16 * i)).take 16))

/-- The join values: VAL of each record for a statistics join, widened elements otherwise; the second part as in
`widen`. -/
def joinVals (w : Nat) (jrec : Bool) (draw : Nat) (bs : List Byte) : List (F32 × Bool) :=
  if jrec then (recordsOf bs).map (fun r => (BitVec.ofNat 32 (fld r 31 0), false))
  else
    match fmtOfCode (cwJfmt w) with
    | some f => widenAll f (cwSat w) draw (unpackElems f.1 bs)
    | none => []

/-- A statistics join keeps R181. -/
def statJoinOk (w : Nat) : Bool := cwJen w && cwJfmt w == 0 && (cwJbc w == 1 || cwJbc w == 2)

/-- A softmax pass (R182). -/
def isSoftmax (w : Nat) (jrec : Bool) : Bool := jrec && cwAlu1 w == 5 && cwC0 w == f32One && cwFunc w == 7

/-- FUNC's result in a softmax pass for a live position (R182). -/
def softmaxFn (r : Nat) (x : F32) : F32 :=
  let inf := x == f32Inf false
  if bitAt r 35 then f32Nan
  else if bitAt r 34 then
    if inf then toF32 (fxDiv (fxNat 1) (fxNat (fld r 63 40)))
    else if isNan (ofF32 x) then f32Nan else f32Zero
  else if bitAt r 33 then f32Zero
  else if isNan (ofF32 x) then f32Nan
  else expFn (f32Sub x (BitVec.ofNat 32 (fld r 31 0)))

/-! ### ALU1 to ALU2 -/

/-- What the arithmetic stages make of one position: after ING, after ALU1 and after ALU2. -/
structure Elem where
  ing : F32
  alu1 : F32
  out : F32
  deriving DecidableEq, Repr

/-- The stages from JOIN to ALU2 for one live position; `u` is DROP's draw and `r` the joined record. -/
def elemRun (w : Nat) (soft : Bool) (r : Nat) (x j : F32) (u : Nat) : Elem :=
  let a := aluOp (cwAlu1 w) x j (cwC0 w) (cwC1 w)
  let f := if soft then softmaxFn r x else funcOp (cwFunc w) a j (cwC2 w) u
  { ing := x, alu1 := a, out := aluOp (cwAlu2 w) f j (cwC3 w) (cwC2 w) }

/-- Every position of a pass through the arithmetic stages; dead ones are +0. -/
def elemsRun (d : Dev) (w : Nat) (p : Pass) (i : PassIn) (js : List F32) (recs : List Nat) : List Elem :=
  let soft := isSoftmax w p.jrec
  let seed := cfg d 0xCE10 0
  (passPositions i).mapIdx (fun k q =>
    if i.live.getD k false then
      let ji := joinIndex w i.cols q.1 q.2
      let u := if cwFunc w = 14 then draw16 seed (cwStream w) p.step (p.pos + k) else 0
      elemRun w soft (recs.getD ji 0) (i.vals.getD k f32Zero) (js.getD ji f32Zero) u
    else { ing := f32Zero, alu1 := f32Zero, out := f32Zero })

/-! ### CHAM (R154) -/

/-- One output: codes in row-major order, block scales, flags. -/
structure Conv where
  codes : List Nat
  scales : List Nat
  flags : CFlags
  deriving DecidableEq, Repr

/-- The rounding mode of a configuration word. -/
def cwRm (w : Nat) : Rm := (rmOf (fld w 200 199)).getD .rne

/-- The 16-bit draws of SR for each position (R76, R152). -/
def srDraws (d : Dev) (w : Nat) (p : Pass) (n : Nat) : List Nat :=
  if cwRm w = .sr then (List.range n).map (fun k => draw16 (cfg d 0xCE10 0) ((cwStream w + 1) % 4096) p.step (p.pos + k))
  else List.replicate n 0

/-- Element conversion of live positions; dead ones give +0 and set no flag (R145). -/
def convertAll (f : Fmt) (rm : Rm) (sat : Bool) (xs : List Fx) (live : List Bool) (rs : List Nat) : Conv :=
  let cs := (xs.zip (live.zip rs)).map (fun e =>
    if e.2.1 then convert f rm e.2.2 sat e.1 else (0, noFlags))
  { codes := cs.map Prod.fst, scales := [], flags := cs.foldl (fun a c => orFlags a c.2) noFlags }

/-- A live position uses a join value that widening took out of range (R91, R143). -/
def joinOver (w : Nat) (i : PassIn) (js : List (F32 × Bool)) : Bool :=
  js.any (fun j => j.2) && ((passPositions i).zip i.live).any (fun q => q.2 && (js.getD (joinIndex w i.cols q.1.1 q.1.2) (f32Zero, false)).2)

/-- MX output along rows (`ax` false) or columns: blocks of 32 along the axis (R88, R154); the last of an axis that is no
multiple of 32 is shorter. DESIGN CHOICE, log 93. -/
def mxAll (f : Fmt) (rm : Rm) (ax : Bool) (rows cols : Nat) (xs : List Fx) (rs : List Nat) : Conv :=
  let at_ := fun m n => (xs.getD (m * cols + n) (.fin false 0 1), rs.getD (m * cols + n) 0)
  let outer := if ax then cols else rows
  let inner := if ax then rows else cols
  let blocks := (List.range outer).flatMap (fun o => (List.range (ceilDiv inner 32)).map (fun b => (o, b)))
  let qs := blocks.map (fun ob =>
    let es := (List.range (min 32 (inner - 32 * ob.2))).map (fun k =>
      if ax then at_ (32 * ob.2 + k) ob.1 else at_ ob.1 (32 * ob.2 + k))
    (ob, mxQuantize f rm (es.map Prod.snd) (es.map Prod.fst)))
  let code := fun m n =>
    let o := if ax then n else m
    let k := if ax then m else n
    match qs.find? (fun q => q.1.1 == o && q.1.2 == k / 32) with
    | some q => q.2.2.1.getD (k % 32) 0
    | none => 0
  { codes := (List.range rows).flatMap (fun m => (List.range cols).map (fun n => code m n))
    scales := qs.map (fun q => q.2.1), flags := qs.foldl (fun a q => orFlags a q.2.2.2) noFlags }

/-- The primary output of CHAM (R154); in scale rebuild an entry without history saturates (R134). -/
def chamOut (d : Dev) (w : Nat) (p : Pass) (i : PassIn) (es : List Elem) : Conv :=
  match fmtOfCode (cwOfmt w) with
  | none => { codes := [], scales := [], flags := noFlags }
  | some (f, mx) =>
    let s := if cwTsen w then ofF32 (scalePair d (cwTs w)).1 else fxNat 1
    let sat := cwSat w || (cwTsen w && decide (0 < rebuildLeft d) && (ledgerAt d (cwTs w)).hcount == 0)
    let xs := es.map (fun e => fxMul (ofF32 e.out) s)
    let rs := srDraws d w p es.length
    if mx then mxAll f (cwRm w) (bitAt w 201) i.rows i.cols xs rs
    else convertAll f (cwRm w) sat xs i.live rs

/-- The secondary output (R155). -/
def secOut (w : Nat) (i : PassIn) (es : List Elem) : Conv :=
  match fmtOfCode (fld w 167 164) with
  | none => { codes := [], scales := [], flags := noFlags }
  | some (f, _) =>
    let tap := fun (e : Elem) => if fld w 163 162 = 0 then e.ing else if fld w 163 162 = 1 then e.alu1 else e.out
    convertAll f .rne (cwSat w) (es.map (fun e => ofF32 (tap e))) i.live (List.replicate es.length 0)

/-- Largest finite magnitude over the live values entering CHAM (R98). -/
def chamAmax (i : PassIn) (es : List Elem) : F32 :=
  (es.zip i.live).foldl (fun a e =>
    if e.2 && isFin (ofF32 e.1.out) then f32AmaxFold a (toF32 (fxAbs (ofF32 e.1.out))) else a) f32Zero

/-- Live positions in the first `rows` rows, and those holding a zero (R126, R157). -/
def torporCounts (i : PassIn) (es : List Elem) (rows : Nat) : Nat × Nat :=
  let l := ((es.zip i.live).take (rows * i.cols)).filter (fun e => e.2)
  (l.length, (l.filter (fun e => isZero (ofF32 e.1.out))).length)

/-! ### RED over a pass -/

/-- The vector of row `r` (RAX = 0) or column `r` (RAX = 1): live values, `none` for dead ones. -/
def redVector (w : Nat) (i : PassIn) (es : List Elem) (r : Nat) : List (Option F32) :=
  let idx := if cwRax w then (List.range i.rows).map (fun m => m * i.cols + r)
    else (List.range i.cols).map (fun n => r * i.cols + n)
  idx.map (fun k => if i.live.getD k false then some ((es.getD k ⟨f32Zero, f32Zero, f32Zero⟩).out) else none)

/-- A vector cut into segments of 64 (rows) or 128 (columns) (R172). -/
def segments (n : Nat) : Nat → List (Option F32) → List (List (Option F32))
  | 0, _ => []
  | fuel + 1, l => if l.length ≤ n then [l] else l.take n :: segments n fuel (l.drop n)

/-- The partials of a pass, one per row or column. -/
def redPartials (w : Nat) (i : PassIn) (es : List Elem) : List RedState :=
  (List.range (if cwRax w then i.cols else i.rows)).map (fun r =>
    let v := redVector w i es r
    foldAll (cwRed w) ((segments (if cwRax w then 128 else 64) (v.length + 1) v).map (segment (cwRed w))))

/-- Write the records of finished rows at the reduction output, through the cluster's fetch engine (R171, R281). -/
def writeRecords (d : Dev) (c : Nat) (p : Pass) : Nat → List Nat → Dev
  | _, [] => d
  | k, r :: rs =>
    writeRecords (putRecord (noteRecord d c r true) c p.ctx p.task ((p.red + 16 * k) % 2 ^ 48) (leBytes 16 r)) c p (k + 1) rs

/-- Fold parked partials that have become next (R175). -/
def foldParked (c : Nat) : Nat → Running → Running
  | 0, r => r
  | fuel + 1, r =>
    match r.parked.find? (fun p => p.1 == r.next) with
    | none => r
    | some p => foldParked c fuel { r with rows := r.rows.zipWith (foldRed c) p.2, next := r.next + 1
                                           parked := r.parked.filter (fun q => q.1 != p.1) }

/-- Take a partial into its running reduction (R174, R175). -/
def foldPartial (c : Nat) (r : Running) (block : Nat) (ps : List RedState) : Running :=
  if block = r.next then
    let rows := if r.rows.isEmpty then ps else r.rows.zipWith (foldRed c) ps
    foldParked c (r.parked.length + 1) { r with rows, next := r.next + 1 }
  else { r with parked := r.parked ++ [(block, ps)] }

/-- The running reduction of a pass. -/
def runningOf (v : Vc) (p : Pass) : Running :=
  match v.running.find? (fun r => r.task == p.task && r.red == p.red) with
  | some r => r
  | none => { task := p.task, red := p.red, next := 0, rows := [], parked := [] }

/-- Replace a running reduction. -/
def setRunning (v : Vc) (r : Running) : Vc :=
  { v with running := v.running.filter (fun x => !(x.task == r.task && x.red == r.red)) ++ [r] }

/-- The reorder store has no room for this early partial (R175): the store holds the partials of 16 tiles. -/
def reorderFull (v : Vc) (p : Pass) : Bool :=
  let r := runningOf v p
  p.block != r.next && decide (16 ≤ sumN (v.running.map (fun x => x.parked.length)))

/-- RED's work for a pass: fold the partial, and write the records once no other opened pass of the same reduction output
waits. DESIGN CHOICE, log 91. -/
def reduceRun (d : Dev) (c : Nat) (w : Nat) (p : Pass) (ps : List RedState) : Dev :=
  let v := vcAt d c
  let r := foldPartial (cwRed w) (runningOf v p) p.block ps
  let d1 := setVc d c (setRunning v r)
  if r.parked.isEmpty && !(v.passes.any (fun q => q.task == p.task && q.red == p.red && q.num != p.num)) then
    writeRecords d1 c p 0 (r.rows.map (redRecord (cwRed w)))
  else d1

/-- A record fold (R180): the MAXSUM records of a source array that are live (R186, R191) folded per row or column in array
order. -/
def recordFold (d : Dev) (c : Nat) (w : Nat) (p : Pass) (i : PassIn) (b : PortBlock) : Dev :=
  let recs := recordsOf b.data
  let rec_ := fun m n => if i.live.getD (m * i.cols + n) false then recs[m * i.cols + n]? else none
  let groups := if cwRax w then (List.range i.cols).map (fun n => (List.range i.rows).filterMap (fun m => rec_ m n))
    else (List.range i.rows).map (fun m => (List.range i.cols).filterMap (fun n => rec_ m n))
  let f := nextFree d
  let out := groups.mapIdx (fun k g =>
    let r := redRecord (cwRed w) (foldAll (cwRed w) (g.map recordState))
    if g.all maxsumForm then r
    else setFld (setFld r 31 0 (Config.badRecord f.1 k).1.toNat) 127 96 (Config.badRecord f.1 k).2.toNat)
  writeRecords (if groups.all (fun g => g.all maxsumForm) then d else f.2) c p 0 out

/-! ### Costs (R159, R160, R165) -/

/-- Size of a format in bits for R159. -/
def costBits (code : Nat) : Nat :=
  match fmtOfCode code with
  | some (f, _) => fwidth f
  | none => 0

/-- The cost c of a pass (R159). -/
def passCost (w : Nat) (jrec : Bool) : Nat :=
  let alu := fun (c : Nat) => if c = 11 then 2 else if c = 12 then (4 : Nat) else 1
  let ops := max (max (alu (cwAlu1 w)) (alu (cwAlu2 w))) (if cwFunc w = 3 then 2 else 1)
  let bj := if cwJen w && cwJbc w == 0 && !jrec then costBits (cwJfmt w) else 0
  let prim := if cwCmp w then 1 else if cwDest w = 4 then 0 else if cwDest w = 3 then 32 else costBits (cwOfmt w)
  let sec := if cwCmp w then costBits (cwJfmt w) else if cwSen w then costBits (fld w 167 164) else 0
  max ops (max (ceilDiv bj 16) (ceilDiv (prim + sec) 16))

end Sys2Proof.Machine
end

