-- ==== Sys2Proof/Machine/CeOps.lean ====
section
/-! DEFINITION. Operations of the collective engine that the weight version store uses: READs it issues (R459),
gathered buffers and multicast trees (R463). -/

namespace Sys2Proof.Machine

/-! ### Gathered buffers -/

/-- The device address of byte `off` of a gathered buffer. -/
def partAddr : List (Nat × Nat × Nat) → Nat → Nat
  | [], _ => 0
  | (_, a, n) :: rest, off => if off < n then a + off else partAddr rest (off - n)

/-- Write bytes into a gathered buffer at `off`. -/
def bufWrite (d : Dev) (b : Gbuf) (off : Nat) (bs : List Byte) : Dev :=
  (linesOfBuf off bs).foldl (fun x p => devWrite x (partAddr b.parts p.1) p.2) d
where
  /-- Pieces that stay within one 64 KiB granule. -/
  linesOfBuf (off : Nat) (bs : List Byte) : List (Nat × List Byte) :=
    let n := 65536 - off % 65536
    if bs.length ≤ n then [(off, bs)] else [(off, bs.take n), (off + n, bs.drop n)]

/-- The buffer of a version. -/
def bufOf (d : Dev) (e v : Nat) : Option Gbuf := d.wv.bufs.find? (fun b => b.entry == e && b.ver == v)

/-- Replace a buffer. -/
def setBuf (d : Dev) (b : Gbuf) : Dev :=
  { d with wv := { d.wv with bufs := d.wv.bufs.map (fun x => if x.entry = b.entry ∧ x.ver = b.ver then b else x) } }

/-! ### READs (R459, R460, R468) -/

/-- READs of a unit that are outstanding. -/
def readsOf (d : Dev) (unit : Nat) : Nat := (d.ce.reads.filter (fun r => r.unit == unit && r.sent)).length

/-- Send the oldest READ that waits for its unit (R459). -/
def pumpReads (d : Dev) (unit : Nat) : Nat → Dev
  | 0 => d
  | fuel + 1 =>
    match d.ce.reads.find? (fun r => r.unit == unit && !r.sent) with
    | none => d
    | some r =>
      if 4096 ≤ readsOf d unit then d
      else
        let n := d.ce.nextIdx
        let r1 := { r with sent := true, ridx := n % 65536, rlap := n / 65536 % 256 }
        let d1 := { d with ce := { d.ce with
          nextIdx := n + 1
          reads := d.ce.reads.map (fun x => if x.what = r.what ∧ !x.sent then r1 else x) } }
        let d2 := relaySend d1 r.dst 6 2 0 r.flow (r1.rlap * 2 ^ 56 + r1.ridx * 2 ^ 40 + r.space * 2 ^ 36) (leBytes 16 r.body)
        pumpReads d2 unit fuel

/-- Issue one READ, or hold it while its unit has 4,096 outstanding. DESIGN CHOICE, log 46. -/
def ceRead (d : Dev) (r : CeRead) : Dev :=
  let d1 := { d with ce := { d.ce with reads := d.ce.reads ++ [r] } }
  pumpReads d1 r.unit 1

/-- Offsets of a range of `n` bytes in pieces of 65,536 B. -/
def readPiecesOf (n : Nat) : List (Nat × Nat) :=
  (List.range (ceilDiv n 65536)).map (fun i => (65536 * i, min 65536 (n - 65536 * i)))

/-- The READs that bring rank `r`'s shard of version `v` of entry `e`, from offset `from_` on (R460). -/
def readShard (d : Dev) (e v r from_ : Nat) : Dev :=
  let n := parVbytes d e
  let base := r * n
  let half := fun off => match bufOf d e v with
    | some b => ownerHalf (partAddr b.parts (base + off))
    | none => 0
  ((readPiecesOf (n - from_)).map (fun p => (from_ + p.1, p.2))).foldl (fun x p =>
    ceRead x { unit := half p.1, sent := false, ridx := 0, rlap := 0, what := .gather e v r p.1
               dst := grpMember d (parGroup d e) r, flow := (parPid d e + p.1 / 65536) % 256, space := 0
               body := parPid d e * 2 ^ 104 + v % 2 ^ 32 * 2 ^ 72 + p.1 * 2 ^ 32 + p.2, len := p.2, got := [] }) d

/-- The far address of slot `v mod RING`'s own-shard copy (R321). -/
def slotCopy (d : Dev) (e v : Nat) : Nat := parVbase d e + v % parRing d e * parVbytes d e

/-- Gather version `v` of entry `e` into its buffer: the own shard is copied, an uncorrectable word as such (R625), every other member that no push
supplies is read (R460, R464). -/
def gatherReads (d : Dev) (e v : Nat) : Dev :=
  match bufOf d e v with
  | none => d
  | some b =>
    let n := parVbytes d e
    let me := parRank d e
    let r := readThrough d (ownerHalf (partAddr b.parts (me * n))) 64 0 (slotCopy d e v) n
    let bad := (ueIn d.mem (slotCopy d e v) n).map (fun w => partAddr b.parts (me * n + (w - slotCopy d e v)) / 4 * 4)
    let d0 := bufWrite r.2 b (me * n) r.1
    let d1 := { d0 with mem := markUe d0.mem bad }
    let others := (List.range (parNmem d e + 1)).filter (fun r => r != me)
    let d2 := setBuf d1 { b with missing := others.length * n }
    (others.filter (fun r => !b.pushed.contains r)).foldl (fun x r => readShard x e v r 0) d2

/-! ### Multicast trees (R463) -/

/-- Bytes of an origin's shard that pushes have brought. -/
def pushedOf (d : Dev) (e v o : Nat) : Nat :=
  match d.ce.pushedGot.find? (fun x => x.1 == e && x.2.1 == v && x.2.2.1 == o) with
  | some x => x.2.2.2
  | none => 0

/-- The tree's list for an origin: the origin, then the others in rank order, wrapping, without removed members. -/
def treeList (d : Dev) (g origin : Nat) : List Nat :=
  let n := grpNmem d g + 1
  let rest := (List.range (n - 1)).map (fun i => (origin + 1 + i) % n)
  origin :: rest.filter (fun r => !d.ce.removed.contains (g, r))

/-- The children of a rank in an origin's tree. -/
def treeChildren (d : Dev) (g origin r : Nat) : List Nat :=
  let l := treeList d g origin
  match l.findIdx? (· == r) with
  | some i => (List.range (grpFan d g)).filterMap (fun k => l[grpFan d g * i + 1 + k]?)
  | none => []

/-- Every node beneath a rank in the tree. -/
def treeBeneath (d : Dev) (g origin : Nat) : Nat → Nat → List Nat
  | 0, _ => []
  | fuel + 1, r => (treeChildren d g origin r).flatMap (fun c => c :: treeBeneath d g origin fuel c)

/-- ARG of the multicast messages (R468). -/
def mcastArg (d : Dev) (op e v : Nat) : Nat := op * 2 ^ 60 + parPid d e * 2 ^ 36 + v % 2 ^ 32 * 2 ^ 4

/-- The first word of their bodies: ORIGIN rank and an offset or count. -/
def mcastWord (origin off : Nat) : Nat := origin * 2 ^ 122 + off * 2 ^ 82

/-- Send `n` bytes at `off` of an origin's shard to the children of this node. -/
def mcastSend (d : Dev) (e v origin off : Nat) (children : List Nat) (bs : List Byte) : Dev :=
  children.foldl (fun x r =>
    relaySend x (grpMember d (parGroup d e) r) 8 2 0 (parPid d e % 256) (mcastArg d 1 e v) (leBytes 16 (mcastWord origin off) ++ bs)) d

/-- The multicasts of a group that still retain bytes (R465). -/
def retained (d : Dev) (g : Nat) : Nat :=
  sumN ((d.ce.mcasts.filter (fun m => parGroup d m.entry == g)).map
    (fun m => m.sent - (m.acks.map Prod.snd).foldl min m.sent))

/-- Replace a multicast record. -/
def setMcast (d : Dev) (m : Mcast) : Dev :=
  { d with ce := { d.ce with mcasts := d.ce.mcasts.map (fun x =>
    if x.entry = m.entry ∧ x.ver = m.ver ∧ x.origin = m.origin then m else x) } }

/-- Send what the retention buffer allows of this device's own shard, 8,192 B a message (R465). An uncorrectable word is
reported and not sent (R624). DESIGN CHOICE, log 97. -/
def mcastPump : Nat → Dev → Mcast → Dev
  | 0, d, _ => d
  | fuel + 1, d, m =>
    let n := min 8192 (m.total - m.sent)
    if n = 0 ∨ cfg d 0xA030 0 < retained d (parGroup d m.entry) + n then d
    else
      let a := slotCopy d m.entry m.ver + m.sent
      let r := readThrough d (ownerHalf a) 64 0 a n
      if !(ueIn d.mem a n).isEmpty then r.2
      else
        let m1 := { m with sent := m.sent + n }
        mcastPump fuel (setMcast (mcastSend r.2 m.entry m.ver m.origin m.sent (m.acks.map Prod.fst) r.1) m1) m1

/-- R463: a version with PREF of a group with MCAST has become COMPLETE: the own shard is pushed to the tree. -/
def mcastStart (d : Dev) (e v : Nat) : Dev :=
  let g := parGroup d e
  let me := parRank d e
  let cs := treeChildren d g me me
  if parPref d e && grpMcast d g && !cs.isEmpty then
    let m : Mcast := { entry := e, ver := v, origin := me, acks := cs.foldl (fun t c => tset t c 0) [], sent := 0
                       total := parVbytes d e }
    mcastPump (parVbytes d e / 8192 + 1) { d with ce := { d.ce with mcasts := d.ce.mcasts ++ [m] } } m
  else d

end Sys2Proof.Machine
end

