-- ==== Sys2Proof/Machine/Versions.lean ====
section
/-! DEFINITION. Weight versions and the molt engine (chapter 11): rings, notices, binding, the molt rule, the gather
cache and the views. -/

namespace Sys2Proof.Machine

/-! ### Records -/

/-- The store's state of parameter entry `e`. -/
def wvAt (d : Dev) (e : Nat) : WvEntry := tget wvEntryReset d.wv.entries e

/-- Replace it. -/
def setWv (d : Dev) (e : Nat) (x : WvEntry) : Dev := { d with wv := { d.wv with entries := tset d.wv.entries e x } }

/-- Slot `s` of an entry's ring. -/
def vslotAt (d : Dev) (e s : Nat) : VSlot := tget vslotReset (wvAt d e).slots s

/-- Replace a slot. -/
def setVslot (d : Dev) (e s : Nat) (x : VSlot) : Dev :=
  let w := wvAt d e
  setWv d e { w with slots := tset w.slots s x }

/-- Read a slot record: an uncorrectable error in it raises 0x8684 (R349). DESIGN CHOICE, log 96. -/
def readSlot (d : Dev) (e s : Nat) : Dev := readRec d (.slot e s) 0x8684 e s

/-- Read the binding record of a tag (R349): every context that binds an entry of the list stops.
DESIGN CHOICE, log 96. -/
def readBinding (d : Dev) (c tag : Nat) : Dev :=
  if eccBad d (.binding c tag) then
    (bindList d c).foldl (fun x e => stopBinders x e 0x8684) (raise d 0x8684 ((bindList d c).headD 0) tag)
  else d

/-- The slot a version occupies (R323). -/
def ringSlot (d : Dev) (e v : Nat) : Nat := v % max 1 (parRing d e)

/-- The slots of an entry's ring. -/
def ringSlots (d : Dev) (e : Nat) : List Nat := List.range (parRing d e)

/-- Version `a` is older than `b` (R323). -/
def older (a b : Nat) : Bool :=
  let x := (b + (2 ^ 32 - a)) % 2 ^ 32
  decide (1 ≤ x ∧ x ≤ 2 ^ 31 - 1)

/-- All bits of the group's masks. -/
def allRanks (d : Dev) (e : Nat) : Nat := 2 ^ (parNmem d e + 1) - 1

/-- This device's bit. -/
def ownBit (d : Dev) (e : Nat) : Nat := 2 ^ parRank d e

/-- Set a bit of a mask. -/
def withBit (m b : Nat) : Nat := m ||| 2 ^ b

/-- The slot holds version `v`. -/
def holds (x : VSlot) (v : Nat) : Bool := x.ver == some v

/-- Send a notice of a version to every other member (R325): kind 0 commit, 1 release. DESIGN CHOICE, log 43. -/
def sendNotice (d : Dev) (e kind v : Nat) : Dev :=
  ((List.range (parNmem d e + 1)).filter (fun r => r != parRank d e)).foldl (fun x r =>
    relaySend x (grpMember d (parGroup d e) r) 5 2 0 (parPid d e % 256)
      (kind * 2 ^ 63 + parPid d e * 2 ^ 38 + v % 2 ^ 32 * 2 ^ 6 + parRank d e) []) d

/-! ### The gather cache (R340, R341, R344 to R347) -/

/-- Bytes a parameter places in each half, in buffer order (R321, R344). DESIGN CHOICE, log 100. -/
def gcShares (d : Dev) (e : Nat) : List (Nat × Nat) :=
  let n := parGbytes d e
  if parGhalf d e = 0 then [(0, n)]
  else if parGhalf d e = 1 then [(1, n)]
  else
    let a := ceilDiv (n / 2) 65536 * 65536
    [(0, a), (1, n - a)]

/-- The pieces allocated in a half's gather cache, in address order. -/
def gcBlocks (d : Dev) (half : Nat) : List (Nat × Nat) :=
  (d.wv.bufs.flatMap (fun b => (b.parts.filter (fun p => p.1 == half)).map Prod.snd)).foldl (fun l b => insertBlock b l) []

/-- A place for `n` bytes in a half's gather cache. -/
def gcPlace (d : Dev) (half n : Nat) : Option Nat :=
  let base := cfg d 0x6830 (half + 1)
  let a := firstGap base n (gcBlocks d half)
  if a + n ≤ base + cfg d 0x6831 (half + 1) then some a else none

/-- Places for a whole buffer; none when some half has no room. -/
def gcPlaces (d : Dev) : List (Nat × Nat) → Option (List (Nat × Nat × Nat))
  | [] => some []
  | (h, n) :: rest =>
    match gcPlace d h n, gcPlaces d rest with
    | some a, some ps => some ((h, a, n) :: ps)
    | _, _ => none

/-- Tasks that use the gathered copy of a version. -/
def usersOf (d : Dev) (e v : Nat) : List Nat :=
  let x := vslotAt d e (ringSlot d e v)
  if holds x v then x.users else []

/-- A live tag binds the version. -/
def boundVer (d : Dev) (e v : Nat) : Bool :=
  let x := vslotAt d e (ringSlot d e v)
  holds x v && decide (0 < x.refs)

/-- The buffer may be evicted (R344): complete, without uses, not mapped by a view that a waiting GATH needs. -/
def evictable (d : Dev) (b : Gbuf) : Bool :=
  b.complete && (usersOf d b.entry b.ver).isEmpty &&
    !((wvAt d b.entry).view == some b.ver && (wvAt d b.entry).waits.any (fun w => w.ver == b.ver))

/-- Which of two buffers is evicted first under R344. -/
def evictBefore (d : Dev) (a b : Gbuf) : Bool :=
  match boundVer d a.entry a.ver, boundVer d b.entry b.ver with
  | false, true => true
  | true, false => false
  | false, false => decide (a.entry < b.entry)
  | true, true => decide (a.lastUsed < b.lastUsed) || (a.lastUsed == b.lastUsed && decide (a.entry < b.entry))

/-- Remove a buffer; a view that maps it maps nothing. -/
def dropBuf (d : Dev) (e v : Nat) : Dev :=
  let d1 := { d with wv := { d.wv with bufs := d.wv.bufs.filter (fun b => !(b.entry == e && b.ver == v)) } }
  let w := wvAt d1 e
  if w.view = some v then setWv d1 e { w with view := none } else d1

/-- Allocate a buffer, evicting as R344 allows (`unboundOnly` for a prefetch, R346). -/
def gcAlloc (d : Dev) (e v : Nat) (unboundOnly : Bool) : Nat → Option Dev
  | 0 => none
  | fuel + 1 =>
    match gcPlaces d (gcShares d e) with
    | some ps =>
      some { d with wv := { d.wv with
        bufs := d.wv.bufs ++ [{ entry := e, ver := v, parts := ps, missing := 0, complete := false, lastUsed := d.wv.useClock
                                pushed := [] }]
        useClock := d.wv.useClock + 1 } }
    | none =>
      let cands := d.wv.bufs.filter (fun b => evictable d b && !(unboundOnly && boundVer d b.entry b.ver))
      match cands with
      | [] => none
      | c :: cs =>
        let b := cs.foldl (fun a b => if evictBefore d b a then b else a) c
        gcAlloc (dropBuf d b.entry b.ver) e v unboundOnly fuel

/-- The members whose pushes will bring their whole shard: no byte of it has come by yet (R464). -/
def pushers (d : Dev) (e v : Nat) : List Nat :=
  (List.range (parNmem d e + 1)).filter (fun r => r != parRank d e && pushedOf d e v r == 0)

/-- Start gathering a version into a new buffer (R341 step 4). -/
def startGather (d : Dev) (e v : Nat) (unboundOnly : Bool) : Option Dev :=
  (gcAlloc d e v unboundOnly (d.wv.bufs.length + 1)).map (fun d1 =>
    let mc := unboundOnly && grpMcast d (parGroup d e)
    let d2 := match bufOf d1 e v with
      | some b => if mc then setBuf d1 { b with pushed := pushers d1 e v } else d1
      | none => d1
    gatherReads (bump d2 0x6845 0 1) e v)

/-- Bytes of one half's gather cache in use (`WvGcUsed`). -/
def gcUsed (d : Dev) (half : Nat) : Nat := sumN ((gcBlocks d half).map Prod.snd)

/-- The page entries of a view that maps a buffer (R340): KIND 0b10, WR 0, HINT 0. -/
def viewEntries (d : Dev) (e : Nat) (b : Gbuf) : List Byte :=
  (List.range (parGbytes d e / 65536)).flatMap (fun i => leBytes 8 (2 * 2 ^ 62 + partAddr b.parts (65536 * i)))

/-- Begin remapping an entry's view to a version's buffer (R340, R341 step 5). -/
def startRemap (d : Dev) (e : Nat) (b : Gbuf) : Dev :=
  let d1 := devWrite d (parVpte d e) (viewEntries d e b)
  setWv (bump d1 0x6846 0 1) e { wvAt d1 e with remap := some b.ver, view := none }

/-- Mark a buffer used now. -/
def touchBuf (d : Dev) (b : Gbuf) : Dev :=
  setBuf { d with wv := { d.wv with useClock := d.wv.useClock + 1 } } { b with lastUsed := d.wv.useClock }

/-- What can be done now for one waiting GATH of an entry (R341, R342). -/
inductive GathStep where
  | signal (b : Gbuf)
  | remap (b : Gbuf)
  | hold
  | later
  deriving DecidableEq, Repr

/-- The step of R341 that applies. -/
def gathStep (d : Dev) (e : Nat) (g : Gwait) : GathStep :=
  let w := wvAt d e
  if w.remap.isSome then .hold
  else
    match bufOf d e g.ver with
    | none => .later
    | some b =>
      if !b.complete then .later
      else if w.view = some g.ver then .signal b
      else
        match w.view with
        | some u => if (usersOf d e u).isEmpty then .remap b else .hold
        | none => .remap b

/-- Serve waiting GATHs in arrival order; one that waits for a remap holds every later one (R342). -/
def serveGaths (e : Nat) : List Gwait → Dev → Dev
  | [], d => d
  | g :: rest, d =>
    match gathStep d e g with
    | .hold => d
    | .later => serveGaths e rest d
    | .remap b => startRemap d e b
    | .signal b =>
      let w := wvAt d e
      let d1 := setWv (touchBuf d b) e { w with waits := w.waits.erase g }
      serveGaths e rest (semSignal d1 g.cluster g.sem 1 g.ctx)

/-- Serve an entry's GATHs. -/
def serveEntry (d : Dev) (e : Nat) : Dev := serveGaths e (wvAt d e).waits d

/-! ### Release and completion (R325, R331, R333, R346) -/

/-- R333: send the release of every slot that no tag on this device can need again. -/
def releaseCheck (d : Dev) (e : Nat) : Dev :=
  (ringSlots d e).foldl (fun x s =>
    let v := vslotAt x e s
    match v.ver, (wvAt x e).cur with
    | some a, some c =>
      if v.state = 3 ∧ v.lrel = false ∧ older a c ∧ v.refs = 0 ∧ v.users = [] then
        sendNotice (setVslot x e s { v with lrel := true, rmask := v.rmask ||| ownBit x e }) e 1 a
      else x
    | _, _ => x) d

/-- R346: a version of an entry with PREF has become CUR. -/
def prefetch (d : Dev) (e v : Nat) : Dev :=
  if parPref d e && (bufOf d e v).isNone then (startGather d e v true).getD d else d

/-- R325: a slot whose notices are all in becomes COMPLETE, and its version CUR when it is newer. -/
def completeCheck (d : Dev) (e s : Nat) : Dev :=
  let x := vslotAt d e s
  match x.ver with
  | some v =>
    if x.state = 2 ∧ x.cmask = allRanks d e then
      let d1 := setVslot d e s { x with state := 3 }
      let w := wvAt d1 e
      let new := match w.cur with
        | some c => older c v
        | none => true
      let d2 := if new then setWv d1 e { w with cur := some v } else d1
      let d3 := mcastStart d2 e v
      releaseCheck (if new then prefetch d3 e v else d3) e
    else d
  | none => d

/-- R325: the last byte of the own shard has been written. -/
def ownDone (d : Dev) (e v : Nat) : Dev :=
  let s := ringSlot d e v
  let x := vslotAt d e s
  completeCheck (sendNotice (setVslot d e s { x with state := 2, cmask := x.cmask ||| ownBit d e }) e 0 v) e s

/-! ### Notices (R327, R334) -/

/-- A notice outside its window (R327). -/
def noticeDiscard (d : Dev) (e v : Nat) : Dev := raiseStep (bump d 0x6848 0 1) 0x4685 e v

/-- The rank is a member of the entry's group. -/
def memberRank (d : Dev) (e r : Nat) : Bool := parEn d e && decide (r ≤ parNmem d e)

/-- R327: a commit notice arrives. -/
def commitNotice (d0 : Dev) (e v rank : Nat) : Dev :=
  let s := ringSlot d0 e v
  let d := readSlot d0 e s
  let x := vslotAt d e s
  if !memberRank d e rank then noticeDiscard d e v
  else if (x.state == 0 && x.ver.isNone) || (holds x v && decide (x.state ≤ 2)) then
    completeCheck (setVslot d e s { x with ver := some v, cmask := withBit x.cmask rank }) e s
  else if holds x v then setVslot d e s { x with cmask := withBit x.cmask rank }
  else if x.ver = some ((v + (2 ^ 32 - parRing d e)) % 2 ^ 32) then setVslot d e s { x with pnmask := withBit x.pnmask rank }
  else noticeDiscard d e v

/-- R327, R334: a release notice arrives. -/
def releaseNotice (d0 : Dev) (e v rank : Nat) : Dev :=
  let s := ringSlot d0 e v
  let d := readSlot d0 e s
  let x := vslotAt d e s
  if memberRank d e rank && holds x v && x.state == 3 then setVslot d e s { x with rmask := withBit x.rmask rank }
  else noticeDiscard d e v

/-! ### The molt rule (R334, R335, R347) -/

/-- R334, R335: the slot may molt. -/
def moltReady (d : Dev) (e s : Nat) : Bool :=
  let x := vslotAt d e s
  x.state == 3 && x.lrel && x.rmask == allRanks d e && x.ver != (wvAt d e).cur

/-- R334, R347: the molt engine molts a slot and drops its gathered copies. -/
def molt (d0 : Dev) (e s : Nat) : Dev :=
  let d := readSlot d0 e s
  if moltReady d e s then
    let x := vslotAt d e s
    bump (setVslot (dropBuf d e (x.ver.getD 0)) e s { x with state := 4 }) 0x6843 0 1
  else d

/-- R325, R336: a molt finishes: the slot empties and PNMASK moves into CMASK for VER + RING. -/
def moltEmpty (d : Dev) (e s : Nat) : Dev :=
  let x := vslotAt d e s
  setVslot (endRec d (.slot e s)) e s { vslotReset with ver := x.ver.map (fun v => (v + parRing d e) % 2 ^ 32), cmask := x.pnmask, holdq := x.holdq }

/-! ### Hand-over (R325, R339) -/

/-- The hand-over of version `v` can proceed (R339). -/
def handoverFree (d : Dev) (e v : Nat) : Bool :=
  let x := vslotAt d e (ringSlot d e v)
  x.state == 0 && (x.ver.isNone || holds x v)

/-- The slot becomes OWNWRITE for version `v` of step `c`. -/
def handover (d0 : Dev) (e v c : Nat) : Dev :=
  let s := ringSlot d0 e v
  let d := readSlot d0 e s
  setVslot d e s { vslotAt d e s with ver := some v, state := 1, step := some (trunc 32 c), holdq := false }

/-- The hand-over waits: HOLDQ is set and the entry is blocked (R339). -/
def handoverWait (d : Dev) (e v waited : Nat) : Dev :=
  let s := ringSlot d e v
  raiseStep (bump (setVslot d e s { vslotAt d e s with holdq := true }) 0x6840 0 waited) 0x4680 e v

/-- The entry is blocked by a full ring. -/
def blocked (d : Dev) (e : Nat) : Bool := (ringSlots d e).any (fun s => (vslotAt d e s).holdq)

/-! ### Binding (R328 to R330, R338) -/

/-- The key of a tag's binding record. -/
def tagKey (c tag : Nat) : Nat := c * 2 ^ 24 + tag

/-- The store holds a FWD of the context back (R330): an entry without a COMPLETE version, or a blocked one. -/
def noVersion (d : Dev) (c : Nat) : Bool :=
  (bindList d c).any (fun e =>
    match (wvAt d e).cur with
    | some v => (vslotAt d e (ringSlot d e v)).state != 3
    | none => true)

/-- R330. -/
def fwdHeld (d : Dev) (c : Nat) : Bool := noVersion d c || (bindList d c).any (blocked d)

/-- Change REFS of a slot. -/
def addRef (d : Dev) (e s : Nat) : Dev := setVslot d e s { vslotAt d e s with refs := (vslotAt d e s).refs + 1 }

/-- R328: bind a tag to the slot of CUR of every entry in the list; `c0` is the step of the tag's FWD (R356). -/
def bindTag (d : Dev) (c tag c0 : Nat) : Dev :=
  let es := bindList d c
  let ss := es.map (fun e => ringSlot d e ((wvAt d e).cur.getD 0))
  let d1 := (es.zip ss).foldl (fun x p => addRef (readSlot x p.1 p.2) p.1 p.2) (endRec d (.binding c tag))
  { d1 with wv := { d1.wv with tags := tset d1.wv.tags (tagKey c tag) (ss, c0) } }

/-- R329: release a tag's record. -/
def unbindTag (d : Dev) (c tag : Nat) : Dev :=
  match tfind d.wv.tags (tagKey c tag) with
  | none => d
  | some (ss, _) =>
    let es := bindList d c
    let d1 := (es.zip ss).foldl (fun x p =>
      let v := vslotAt x p.1 p.2
      setVslot (readSlot x p.1 p.2) p.1 p.2 { v with refs := v.refs - 1 }) (endRec (readBinding d c tag) (.binding c tag))
    let d2 := { d1 with wv := { d1.wv with tags := tdel d1.wv.tags (tagKey c tag) } }
    es.foldl releaseCheck d2

/-- The step of a tag's FWD (R356). -/
def fwdStep (d : Dev) (c tag : Nat) : Nat := (tget ([], d.seq.step) d.wv.tags (tagKey c tag)).2

/-- The version a tag is bound to for entry `e`. -/
def boundVersion (d : Dev) (c tag e : Nat) : Option Nat :=
  match tfind d.wv.tags (tagKey c tag), (bindList d c).findIdx? (· == e) with
  | some (ss, _), some i => (ss[i]?).bind (fun s => (vslotAt d e s).ver)
  | _, _ => none

/-- R338: firmware releases the records of a stopped context. -/
def releaseContext (d : Dev) (c : Nat) : Dev :=
  let d0 := send d (.status 0x6823 0 0)
  if (ctxAt d c).st = .stopped then
    let tags := (d.wv.tags.filter (fun e => e.1 / 2 ^ 24 == c)).map (fun e => e.1 % 2 ^ 24)
    raise (tags.foldl (fun x t => unbindTag x c t) d0) 0x0686 c tags.length
  else d0

/-! ### Gathers (R341 to R345) -/

/-- R341, R343: a task's GATH for parameter number `pid`. -/
def gath (d0 : Dev) (task c tag pid cluster sem : Nat) : Dev :=
  let d := readBinding d0 c tag
  match parOf d pid with
  | none => raiseFault d 0x8687 c pid c
  | some e =>
    match boundVersion d c tag e with
    | none => raiseFault d 0x8687 c pid c
    | some v =>
      let s := ringSlot d e v
      let x := vslotAt d e s
      let d' := readSlot d e s
      let d1 := if x.users.contains task then d' else setVslot d' e s { x with users := x.users ++ [task] }
      let w := wvAt d1 e
      let hit := w.remap.isNone && w.view == some v && (bufOf d1 e v).any (fun b => b.complete)
      let d2 := setWv d1 e { w with waits := w.waits ++ [{ ver := v, ctx := c, cluster, sem }] }
      let d3 := if hit then bump d2 0x6844 0 1 else d2
      let d4 :=
        if (bufOf d3 e v).isSome then d3
        else
          match startGather d3 e v false with
          | some y => y
          | none =>
            let y := { d3 with wv := { d3.wv with allocWait := d3.wv.allocWait ++ [(e, v)] } }
            ((gcShares d3 e).filter (fun p => (gcPlace d3 p.1 p.2).isNone)).foldl (fun z p => raiseStep z 0x4682 p.1 e) y
      serveEntry d4 e

/-- R341: a gather has landed whole: the store signals every waiting GATH its view already serves, and remaps the
others. -/
def gatherDone (d : Dev) (e v : Nat) : Dev :=
  match bufOf d e v with
  | some b => if b.missing = 0 ∧ b.complete = false then serveEntry (setBuf d { b with complete := true }) e else d
  | none => d

/-- R340: every fetch engine has dropped the view's translations: the remap completes and waiting GATHs are
served. -/
def viewRemapDone (d : Dev) (e waited : Nat) : Dev :=
  let w := wvAt d e
  match w.remap with
  | none => d
  | some v =>
    let d1 := { d with mem := { d.mem with tlb := d.mem.tlb.map (fun t =>
      (t.1, t.2.filter (fun c => !overlaps (parGjaddr d e) (parGbytes d e) c.base c.size))) } }
    serveEntry (bump (setWv d1 e { w with remap := none, view := some v }) 0x6847 0 waited) e

/-- R345: the oldest allocation that waits for entry `e` finds room. -/
def gcAllocate (d : Dev) (e waited : Nat) : Dev :=
  match d.wv.allocWait.find? (fun a => a.1 == e) with
  | none => d
  | some a =>
    let d0 := (gcShares d e).foldl (fun x p => bump x 0x6842 (p.1 + 1) waited) d
    match startGather { d0 with wv := { d0.wv with allocWait := d0.wv.allocWait.erase a } } a.1 a.2 false with
    | some d1 => serveEntry d1 e
    | none => d

/-- R344: a task's uses of gathered copies end. -/
def dropUses (d : Dev) (task : Nat) : Dev :=
  let es := (d.wv.entries.filter (fun w => w.2.slots.any (fun s => s.2.users.contains task))).map Prod.fst
  let d1 := { d with wv := { d.wv with entries := d.wv.entries.map (fun w =>
    (w.1, { w.2 with slots := w.2.slots.map (fun s => (s.1, { s.2 with users := s.2.users.filter (fun u => u != task) })) })) } }
  es.foldl (fun x e => serveEntry (releaseCheck x e) e) d1

/-! ### START and the boundary (R326, R332) -/

/-- R326: every enabled entry at START. DESIGN CHOICE, log 42. -/
def wvStart (d : Dev) : Dev :=
  (enabledPars d).foldl (fun x e =>
    let v := parVinit d e
    setWv x e { wvEntryReset with
      slots := [(ringSlot d e v, { vslotReset with ver := some v, state := 3, cmask := allRanks d e })], cur := some v })
    { endRecs d with wv := wvReset }

/-- R332: CUR of every entry the context binds was made in step `n`. -/
def versionsReady (d : Dev) (c n : Nat) : Bool :=
  (bindList d c).all (fun e =>
    match (wvAt d e).cur with
    | some v => (vslotAt d e (ringSlot d e v)).step == some (trunc 32 n)
    | none => false)

/-- The slot record of R324. -/
def slotRecord (x : VSlot) : Nat :=
  x.ver.getD 0 * 2 ^ 352 + x.state * 2 ^ 349 + b2n x.lrel * 2 ^ 348 + b2n x.holdq * 2 ^ 347 + min 65535 x.refs * 2 ^ 320 +
    min 65535 x.users.length * 2 ^ 304 + x.step.getD 0 * 2 ^ 256 + x.cmask % 2 ^ 64 * 2 ^ 192 + x.rmask % 2 ^ 64 * 2 ^ 128 +
    x.pnmask % 2 ^ 64 * 2 ^ 64

/-- The binding record of a tag (R328). -/
def tagRecord (d : Dev) (c tag : Nat) : Nat :=
  match tfind d.wv.tags (tagKey c tag) with
  | none => 0
  | some (ss, _) => sumN (ss.mapIdx (fun i s => s % 8 * 2 ^ (3 * i)))

end Sys2Proof.Machine
end

