-- ==== Sys2Proof/Machine/Update.lean ====
section
/-! DEFINITION. The fused update path (chapter 12): pieces and their places, the clip factor, the apply and its
hand-over. -/

namespace Sys2Proof.Machine

/-! ### Records -/

/-- The update path's state of entry `e`; LASTV is VINIT before START (R376). -/
def upAt (d : Dev) (e : Nat) : UpEntry := 
  tget { upEntryReset with lastv := parVinit d e, applied := cfg d 0x6021 0 } d.up.entries e

/-- Replace it. -/
def setUp (d : Dev) (e : Nat) (x : UpEntry) : Dev := { d with up := { d.up with entries := tset d.up.entries e x } }

/-- Buffer `b` of an entry. -/
def upBuf (x : UpEntry) (b : Nat) : UpBuf := if b = 0 then x.b0 else x.b1

/-- Replace a buffer. -/
def setUpBuf (x : UpEntry) (b : Nat) (y : UpBuf) : UpEntry := if b = 0 then { x with b0 := y } else { x with b1 := y }

/-- NEXT of a use. -/
def nextOf (y : UpBuf) (u : Nat) : Nat := tget 0 y.next u

/-- The half of an entry's accumulators. -/
def updHalf (d : Dev) (e : Nat) : Nat := ownerHalf (updAbase d e)

/-- The address of element `i` of use `u` in buffer `b` (R357). -/
def accAddr (d : Dev) (e u b i : Nat) : Nat := updAbase d e + ((2 * u + b) * updNelem d e + i) * 4

/-- An uncorrectable error in what the update path keeps for an entry (R372): 0x8694, R7 for every context that binds it,
and its apply stops until a restore. DESIGN CHOICE, log 96. -/
def updFail (d : Dev) (e arg : Nat) : Dev :=
  stopBinders (raise (setUp d e { upAt d e with stopped := true }) 0x8694 e arg) e 0x8694

/-- The update path of an entry's half reads some ranges of its state (R202, R231, R372): whether they can be used. -/
def updRead (d : Dev) (e : Nat) (zs : List (Nat × Nat)) : Bool × Dev :=
  let r := readRanges d (updHalf d e) 64 zs
  (r.1, if r.1 then r.2 else updFail r.2 e 0)

/-- It writes. -/
def updWrite (d : Dev) (e a : Nat) (bs : List Byte) : Dev := writeThrough d (updHalf d e) 0 a bs

/-- An FP32 word of device memory. -/
def memF32 (d : Dev) (a : Nat) : F32 := BitVec.ofNat 32 (memVal d.mem a 4)

/-- FP32 words as bytes. -/
def f32Bytes (vs : List F32) : List Byte := vs.flatMap (fun v => leBytes 4 v.toNat)

/-- The entry's pieces of the last place are added inside its apply (R362). -/
def fusedEntry (d : Dev) (e : Nat) : Bool := updUses d e == 0 && updClipg d e == 0

/-! ### Pieces (R357 to R360) -/

/-- Add a piece to its accumulator (R357): place 0 starts the element, a later place adds to it. A word that could not be
read stays uncorrectable (R372, R625). -/
def addPiece (d : Dev) (p : Piece) : Dev :=
  let a := accAddr d p.entry p.use (p.step % 2) p.off
  let r := if p.place = 0 then (true, d) else updRead d p.entry [(a, 4 * p.vals.length)]
  let bad := if p.place = 0 then [] else d.mem.ue.filter (fun w => decide (w < a + 4 * p.vals.length ∧ a < w + 4))
  let old := (List.range p.vals.length).map (fun i => memF32 d (a + 4 * i))
  let new := if p.place = 0 then p.vals.map (fun x => f32Add f32Zero x) else old.zipWith f32Add p.vals
  let d1 := updWrite r.2 p.entry a (f32Bytes new)
  bump { d1 with mem := markUe d1.mem bad } 0x6940 0 1

/-- Every use of a buffer has all its places. -/
def usesDone (d : Dev) (e : Nat) (y : UpBuf) : Bool :=
  (List.range (updUses d e + 1)).all (fun u => nextOf y u == updExp d e + 1)

/-- Note `n` elements added to place NEXT of a use; NEXT rises when the place is whole (R358). -/
def notePlace (d : Dev) (e b u n : Nat) : Bool × Dev :=
  let x := upAt d e
  let y := upBuf x b
  let m := tget 0 y.added u + n
  let whole := m == updNelem d e
  let y1 := { y with added := tset y.added u (if whole then 0 else m)
                     next := if whole then tset y.next u (nextOf y u + 1) else y.next }
  let y2 := if usesDone d e y1 then { y1 with st := 2 } else y1
  (whole, setUp d e (setUpBuf x b y2))

/-- Take a piece whose place is NEXT: into the accumulator, or into the fused apply (R357, R362). -/
def takeNext (d : Dev) (p : Piece) : Bool × Dev :=
  let b := p.step % 2
  if fusedEntry d p.entry && p.place == updExp d p.entry then
    let x := upAt d p.entry
    let y := upBuf x b
    let x1 := { setUpBuf x b { y with st := if y.st = 3 then 3 else 2 } with fused := x.fused ++ [p] }
    (false, bump (setUp d p.entry x1) 0x6940 0 1)
  else notePlace (addPiece d p) p.entry b p.use p.vals.length

/-- Bytes parked in a half's park region (`UpParkUsed`). -/
def parkUsed (d : Dev) (half : Nat) : Nat :=
  sumN ((d.up.entries.filter (fun e => updHalf d e.1 == half)).map
    (fun e => sumN (e.2.parked.map (fun p => 4 * p.vals.length))))

/-- Add parked pieces of the place that has become NEXT, in arrival order (R358). -/
def unpark (e b u : Nat) : Nat → Dev → Dev
  | 0, d => d
  | fuel + 1, d =>
    let x := upAt d e
    match x.parked.find? (fun p => p.step % 2 == b && p.use == u && p.place == nextOf (upBuf x b) u) with
    | none => d
    | some p =>
      let k := EccRec.parked e u p.step p.place
      let d1 := if eccBad d k then endRec (updFail d e p.place) k else d
      unpark e b u fuel (takeNext (setUp d1 e { upAt d1 e with parked := x.parked.erase p }) p).2

/-- What became of a piece. -/
inductive PieceEnd where
  | taken | held | discarded
  deriving DecidableEq, Repr

/-- R358 to R360: a piece is added, parked, held or discarded. DESIGN CHOICE, log 100. -/
def takePiece (d : Dev) (p : Piece) (waited : Nat) : PieceEnd × Dev :=
  let e := p.entry
  let x := upAt d e
  let b := p.step % 2
  let y := upBuf x b
  let hold := fun (code unit : Nat) => raiseStep (bump d 0x6943 (updHalf d e + 1) waited) code unit p.step
  if !parEn d e || decide (updUses d e < p.use) || decide (updExp d e < p.place) ||
      decide (updNelem d e < p.off + p.vals.length) then
    (.discarded, stopBinders (raise d 0x8692 e p.off) e 0x8692)
  else if p.step < x.applied ∨ (y.st ≠ 0 ∧ p.step < y.step) ∨ (y.st ≠ 0 ∧ p.step = y.step ∧ p.place < nextOf y p.use) then
    (.discarded, raiseStep (bump d 0x6944 0 1) 0x4691 e p.step)
  else if y.st ≠ 0 ∧ y.step < p.step then (.held, hold 0x4696 e)
  else
    let d1 := if y.st = 0 then setUp d e (setUpBuf x b { upBufReset with step := p.step, st := 1 }) else d
    if p.place = nextOf (upBuf (upAt d1 e) b) p.use then
      let r := takeNext d1 p
      (.taken, if r.1 then unpark e b p.use ((upAt r.2 e).parked.length + 1) r.2 else r.2)
    else if cfg d 0x6931 (updHalf d e + 1) < parkUsed d (updHalf d e) + 4 * p.vals.length then
      (.held, hold 0x4690 (updHalf d e))
    else
      let x1 := upAt d1 e
      (.taken, bump (setUp d1 e { x1 with parked := x1.parked ++ [p] }) 0x6942 0 1)

/-- R358: a piece arrives. -/
def pieceReceive (d : Dev) (p : Piece) (waited : Nat) : Dev := (takePiece d p waited).2

/-! ### Hyperparameters (R364, R375) -/

/-- The hyperparameter set an entry names, in force now. -/
def hyperOf (d : Dev) (e : Nat) : Nat := cfg d 0x6920 (updHset d e + 1)

/-- An FP32 field of a set. -/
def hyp (h lo : Nat) : F32 := BitVec.ofNat 32 (fld h (lo + 31) lo)

def hypB1 (h : Nat) : F32 := hyp h 960
def hypB2 (h : Nat) : F32 := hyp h 928
def hypEps (h : Nat) : F32 := hyp h 896
def hypWd (h : Nat) : F32 := hyp h 864
def hypMu (h : Nat) : F32 := hyp h 832
def hypGscale (h : Nat) : F32 := hyp h 800
def hypGclamp (h : Nat) : F32 := hyp h 768

/-- Point j of a set: step and rate. -/
def hypPoint (h j : Nat) : Nat × F32 := (fld h (64 * j + 63) (64 * j + 32), BitVec.ofNat 32 (fld h (64 * j + 31) (64 * j)))

/-- The rate between the points that enclose step `c` (R364). -/
def lrBetween (c : Nat) : List (Nat × F32) → F32
  | [] => f32Zero
  | [p] => p.2
  | p :: q :: rest =>
    if p.1 < c ∧ c ≤ q.1 then
      let r := ofF32 p.2
      toF32 (fxAdd r (fxDiv (fxMul (fxSub (ofF32 q.2) r) (fxNat (c - p.1))) (fxNat (q.1 - p.1))))
    else lrBetween c (q :: rest)

/-- lr_at (R364). -/
def lrAt (h step : Nat) : F32 :=
  let ps := (List.range (fld h 1023 1020)).map (hypPoint h)
  let c := trunc 32 step
  match ps with
  | [] => f32Zero
  | p :: _ => if c ≤ p.1 then p.2 else lrBetween c ps

/-- x raised to a whole power, exactly. -/
def fxPowNat (x : Fx) (n : Nat) : Fx :=
  match x with
  | .fin neg a b => .fin (neg && n % 2 == 1) (a ^ n) (b ^ n)
  | y => y

/-- The scalars formed once per apply (R363). -/
structure ApplyK where
  lr : F32
  c1 : F32
  c2 : F32
  bc1 : F32
  bc2 : F32
  deriving DecidableEq, Repr

/-- scalars(h, c, t) (R363). -/
def applyScalars (h c t : Nat) : ApplyK :=
  let one := fxNat 1
  { lr := lrAt h c, c1 := toF32 (fxSub one (ofF32 (hypB1 h))), c2 := toF32 (fxSub one (ofF32 (hypB2 h)))
    bc1 := toF32 (fxSub one (fxPowNat (ofF32 (hypB1 h)) t)), bc2 := toF32 (fxSub one (fxPowNat (ofF32 (hypB2 h)) t)) }

/-! ### One element (R363) -/

/-- Master, moments and what they become. -/
structure Moments where
  w : F32
  m1 : F32
  m2 : F32
  deriving DecidableEq, Repr

/-- sign of R363. -/
def f32Sign (x : F32) : F32 :=
  let f := ofF32 x
  if isNan f then f32Nan else if isZero f then f32Zero else if fxSign f then 0xBF800000#32 else f32One

/-- The gradient after scaling, clipping and clamping. -/
def applyGrad (h : Nat) (cf g : F32) : F32 :=
  let x := f32Mul (f32Mul g (hypGscale h)) cf
  let c := hypGclamp h
  if isZero (ofF32 c) then x else rankMin (rankMax x (c ^^^ 0x80000000#32)) c

/-- apply_element after the gradient: `opt` is OPT. -/
def applyElement (opt h : Nat) (k : ApplyK) (g : F32) (s : Moments) : Moments :=
  let decay := f32Mul (hypWd h) s.w
  let step := fun (d m v : F32) => { w := f32Sub s.w (f32Mul k.lr d), m1 := m, m2 := v : Moments }
  if opt = 0 then
    let m := f32Add (f32Mul (hypMu h) s.m1) g
    step (f32Add m decay) m s.m2
  else if opt = 1 then
    let m := f32Add (f32Mul (hypB1 h) s.m1) (f32Mul k.c1 g)
    let v := f32Add (f32Mul (hypB2 h) s.m2) (f32Mul k.c2 (f32Mul g g))
    let den := f32Add (sqrtFn (f32Div v k.bc2)) (hypEps h)
    step (f32Add (f32Div (f32Div m k.bc1) den) decay) m v
  else
    let q := f32Add (f32Mul (hypB1 h) s.m1) (f32Mul k.c1 g)
    step (f32Add (f32Sign q) decay) (f32Add (f32Mul (hypB2 h) s.m1) (f32Mul k.c2 g)) s.m2

/-! ### The whole apply (R361 to R369) -/

/-- The value of the last place for element `i`, when it is added inside the apply (R362). -/
def fusedVal (ps : List Piece) (i : Nat) : F32 :=
  match ps.find? (fun p => decide (p.off ≤ i ∧ i < p.off + p.vals.length)) with
  | some p => p.vals.getD (i - p.off) f32Zero
  | none => f32Zero

/-- The summed gradient of element `i` in buffer `b`: the summing pass over the uses, the last place first (R362,
R363). -/
def gradSum (d : Dev) (e b : Nat) (fused : List Piece) (i : Nat) : F32 :=
  let g0 := memF32 d (accAddr d e 0 b i)
  let g := if fusedEntry d e then
      (if updExp d e = 0 then f32Add f32Zero (fusedVal fused i) else f32Add g0 (fusedVal fused i))
    else g0
  (List.range (updUses d e)).foldl (fun a u => f32Add a (memF32 d (accAddr d e (u + 1) b i))) g

/-- A value that is not finite. -/
def nonFinite (x : F32) : Bool := !isFin (ofF32 x)

/-- The ranges an apply of buffer `b` reads: the accumulators of every use, master and moments (R363). -/
def applyRanges (d : Dev) (e b : Nat) : List (Nat × Nat) :=
  let n := 4 * updNelem d e
  (List.range (updUses d e + 1)).map (fun u => (accAddr d e u b 0, n)) ++ [(updMbase d e, n), (updM1base d e, n)] ++
    (if updOpt d e = 1 then [(updM2base d e, n)] else [])

/-- The conversion of an apply saturates: SAT of the entry, or in scale rebuild a scale entry without history (R78, R134). -/
def copySat (d : Dev) (e : Nat) : Bool :=
  updSat d e || (updVtsen d e && decide (0 < rebuildLeft d) && (ledgerAt d (updVts d e)).hcount == 0)

/-- The version copy of the new master (R366, R367): bytes and the flags of its conversions. -/
def versionCopy (d : Dev) (e c : Nat) (ws : List F32) : List Byte × CFlags :=
  match fmtOfCode (parVfmt d e) with
  | none => ([], noFlags)
  | some (f, mx) =>
    let s := if updVtsen d e then ofF32 (scalePair d (updVts d e)).1 else fxNat 1
    let rm := (rmOf (updRm d e)).getD .rne
    let rs := ws.mapIdx (fun i _ => if rm = .sr then draw16 (cfg d 0xCE10 0) (updStream d e) c (updEoff d e + i) else 0)
    let xs := ws.map (fun w => fxMul (ofF32 w) s)
    if mx then
      let r := mxAll f rm false 1 xs.length xs rs
      (packMem f r.codes ++ r.scales.map (fun x => BitVec.ofNat 8 x), r.flags)
    else
      let r := convertAll f rm (copySat d e) xs (xs.map (fun _ => true)) rs
      (packMem f r.codes, r.flags)

/-- The buffer of the oldest step that is not free. -/
def oldestBuf (x : UpEntry) : Option Nat :=
  match x.b0.st, x.b1.st with
  | 0, 0 => none
  | 0, _ => some 1
  | _, 0 => some 0
  | _, _ => some (if x.b0.step ≤ x.b1.step then 0 else 1)

/-- The clip factor of a group and step, once formed. -/
def clipOf (d : Dev) (g c : Nat) : Option F32 := (d.up.clips.find? (fun x => x.1 == g && x.2.1 == c)).map (fun x => x.2.2)

/-- The factor an apply of step `c` uses; none while it is not known (R361). -/
def applyClip (d : Dev) (e c : Nat) : Option F32 := if updClipg d e = 0 then some f32One else clipOf d (updClipg d e) c

/-- R361, R362: the apply of the oldest step begins with the hand-over of LASTV + 1. -/
def applyStart (d : Dev) (e waited : Nat) : Dev :=
  let x := upAt d e
  match oldestBuf x with
  | none => d
  | some b =>
    let y := upBuf x b
    let v := (x.lastv + 1) % 2 ^ 32
    match applyClip d e y.step with
    | none => d
    | some cf =>
      if !parEn d e || y.st != 2 || d.up.heldForCut || x.stopped then d
      else if handoverFree d e v then
        let d1 := handover d e v y.step
        setUp d1 e { setUpBuf x b { y with st := 3 } with hyper := hyperOf d e, cf }
      else handoverWait d e v waited

/-- All pieces the apply in progress needs have been taken. -/
def applyWhole (d : Dev) (e : Nat) (x : UpEntry) : Bool :=
  !fusedEntry d e || sumN (x.fused.map (fun p => p.vals.length)) == updNelem d e

/-- The largest magnitude of the finite values (R98). -/
def finiteAmax (ws : List F32) : F32 :=
  ws.foldl (fun a w => if isFin (ofF32 w) then f32AmaxFold a (toF32 (fxAbs (ofF32 w))) else a) f32Zero

/-- R325, R361, R363: the last element of the version copy is written: master, moments and copy are in place, the slot
becomes OWNDONE and the commit notice goes out. An uncorrectable word of what it reads stops the apply, and its slot
stays OWNWRITE (R372). -/
def applyDone (d : Dev) (e : Nat) : Dev :=
  let x := upAt d e
  match [0, 1].find? (fun b => (upBuf x b).st == 3) with
  | none => d
  | some b =>
    if !applyWhole d e x || x.stopped then d
    else if !(updRead d e (applyRanges d e b)).1 then (updRead d e (applyRanges d e b)).2
    else
      let d0 := (updRead d e (applyRanges d e b)).2
      let c := (upBuf x b).step
      let h := x.hyper
      let k := applyScalars h c (x.t + 1)
      let is := List.range (updNelem d e)
      let gs := is.map (gradSum d e b x.fused)
      let old := is.map (fun i => { w := memF32 d (updMbase d e + 4 * i), m1 := memF32 d (updM1base d e + 4 * i)
                                    m2 := if updOpt d e = 1 then memF32 d (updM2base d e + 4 * i) else f32Zero : Moments })
      let new := gs.zipWith (fun g s => applyElement (updOpt d e) h k (applyGrad h x.cf g) s) old
      let bad := ((gs.zip new).filter (fun p => nonFinite p.1 || nonFinite p.2.w)).length
      let v := (x.lastv + 1) % 2 ^ 32
      let ws := new.map (fun s => s.w)
      let copy := versionCopy d e c ws
      let d1 := updWrite d0 e (updMbase d e) (f32Bytes ws)
      let d2 := updWrite d1 e (updM1base d e) (f32Bytes (new.map (fun s => s.m1)))
      let d3 := if updOpt d e = 1 then updWrite d2 e (updM2base d e) (f32Bytes (new.map (fun s => s.m2))) else d2
      let d4 := updWrite d3 e (slotCopy d e v) copy.1
      let d5 := setUp d4 e { setUpBuf x b upBufReset with t := x.t + 1, lastv := v, fused := [], applied := c + 1 }
      let d6 := bump d5 0x6941 0 1
      let d7 := if fxLt (ofF32 x.cf) (fxNat 1) then bump d6 0x6946 0 1 else d6
      let d8 := if bad = 0 then d7 else raiseStep (bump d7 0x6945 0 bad) 0x4693 e bad
      let d9 := if updVtsen d e then
          conversionReport (if d8.sup.badActive.contains (updVts d e) then entryUe d8 (updVts d e) else d8) (updVts d e)
            (finiteAmax ws) (flagBits copy.2) d.seq.step
        else d8
      ownDone d9 e v

/-- R336, R339: a molt finishes; the slot empties and a waiting hand-over proceeds in the same cycle. -/
def moltFinish (d : Dev) (e s : Nat) : Dev :=
  let x := vslotAt d e s
  if x.state = 4 then
    let d1 := moltEmpty d e s
    if x.holdq then applyStart d1 e 0 else d1
  else d

/-! ### The clip factor (R365, R467) -/

/-- The enabled entries of a clip group, in increasing entry number. -/
def clipEntries (d : Dev) (g : Nat) : List Nat := (enabledPars d).filter (fun e => updClipg d e == g)

/-- The step whose clip factor is formed next. -/
def clipNext (d : Dev) (g : Nat) : Nat := tget (cfg d 0x6021 0) d.up.clipStep g

/-- The collective group and CLIPNORM of a clip group. -/
def clipGroup (d : Dev) (g : Nat) : Nat := fld (cfg d 0x6921 g) 63 48
def clipNorm (d : Dev) (g : Nat) : F32 := BitVec.ofNat 32 (fld (cfg d 0x6921 g) 31 0)

/-- Sum in blocks of 256 by the tree of R173, the blocks in increasing order. -/
def blockSums : Nat → List F32 → List F32
  | 0, _ => []
  | fuel + 1, l => if l.isEmpty then [] else treeSum ((padTo 256 f32NegZero (l.take 256)).map some) :: blockSums fuel (l.drop 256)

/-- Left fold of an FP32 sum that starts from its first term. -/
def f32SumLeft : List F32 → F32
  | [] => f32Zero
  | x :: xs => xs.foldl f32Add x

/-- The device total of a clip group for step `c` (R365). DESIGN CHOICE, log 100. -/
def clipTotal (d : Dev) (g c : Nat) : F32 :=
  f32SumLeft ((clipEntries d g).flatMap (fun e =>
    let h := hyperOf d e
    let sq := (List.range (updNelem d e)).map (fun i =>
      let x := f32Mul (gradSum d e (c % 2) [] i) (hypGscale h)
      f32Mul x x)
    blockSums (sq.length + 1) sq))

/-- The clip factor of a sum Q (R365). -/
def clipFactorOf (norm q : F32) : F32 :=
  if q = f32Zero then f32One else rankMin f32One (f32Div norm (sqrtFn q))

/-- R467: once the totals of all ranks are in, Q and the factor are formed in rank order. -/
def clipForm (d : Dev) (g c : Nat) : Dev :=
  let n := grpNmem d (clipGroup d g) + 1
  let ts := (List.range n).filterMap (fun r =>
    (d.up.totals.find? (fun t => t.1 == g && t.2.1 == c && t.2.2.1 == r)).map (fun t => t.2.2.2))
  if ts.length = n then
    let cf := clipFactorOf (clipNorm d g) (f32SumLeft ts)
    let d1 := { d with up := { d.up with
      clips := d.up.clips ++ [(g, c, cf)], totals := d.up.totals.filter (fun t => !(t.1 == g && t.2.1 == c))
      clipStep := tset d.up.clipStep g (c + 1) } }
    if fxLt (ofF32 cf) (fxNat 1) then raiseStep d1 0x0695 g cf.toNat else d1
  else d

/-- The accumulators a clip total reads (R365). -/
def clipRanges (d : Dev) (e c : Nat) : List (Nat × Nat) :=
  (List.range (updUses d e + 1)).map (fun u => (accAddr d e u (c % 2) 0, 4 * updNelem d e))

/-- R365: with every entry of a clip group complete, the device total is formed and handed to the collective
engine. An uncorrectable accumulator leaves no total (R372). -/
def clipFactor (d : Dev) (g : Nat) : Dev :=
  let c := clipNext d g
  let es := clipEntries d g
  let me := grpRank d (clipGroup d g)
  let done := es.all (fun e =>
    let y := upBuf (upAt d e) (c % 2)
    y.st == 2 && y.step == c && !(upAt d e).stopped)
  if g = 0 ∨ es.isEmpty ∨ !done ∨ d.up.totals.any (fun t => t.1 == g && t.2.1 == c && t.2.2.1 == me) then d
  else
    let rd := es.foldl (fun (s : Bool × Dev) e =>
      let r := updRead s.2 e (clipRanges s.2 e c)
      (s.1 && r.1, r.2)) (true, d)
    if !rd.1 then rd.2 else
    let q := clipTotal d g c
    let d1 := { rd.2 with up := { rd.2.up with totals := d.up.totals ++ [(g, c, me, q)] } }
    let d2 := ((List.range (grpNmem d (clipGroup d g) + 1)).filter (fun r => r != me)).foldl (fun x r =>
      relaySend x (grpMember d (clipGroup d g) r) 8 2 0 g (4 * 2 ^ 60 + g * 2 ^ 56 + c % 256 * 2 ^ 48)
        (leBytes 16 (q.toNat * 2 ^ 96))) d1
    clipForm d2 g c

/-- `UpState` (R376). -/
def upState (d : Dev) (e : Nat) : Nat :=
  let x := upAt d e
  let nexts := fun (y : UpBuf) => sumN ((List.range 4).map (fun u => nextOf y u * 2 ^ (16 * u)))
  x.t * 2 ^ 288 + x.lastv * 2 ^ 256 + trunc 32 x.b0.step * 2 ^ 224 + trunc 32 x.b1.step * 2 ^ 192 + nexts x.b0 * 2 ^ 128 +
    nexts x.b1 * 2 ^ 64 + x.b0.st * 2 ^ 62 + x.b1.st * 2 ^ 60 + x.parked.length * 2 ^ 44

/-- Every entry at START: LASTV is VINIT, the buffers are free; T stays. DESIGN CHOICE, log 42. -/
def upStart (d : Dev) : Dev :=
  { d with up := { upReset with entries := d.up.entries.map (fun e =>
    (e.1, { upEntryReset with t := e.2.t, lastv := parVinit d e.1, applied := cfg d 0x6021 0 })) } }

end Sys2Proof.Machine
end

