-- ==== Sys2Proof/Machine/Collective.lean ====
section
/-! DEFINITION. The collective engine (chapter 15): staging and announcing compressed slices, pulling and folding
them, gathers, multicast and autotomy, clip totals, digests. -/

namespace Sys2Proof.Machine

/-! ### Staging (R444, R449, R455) -/

/-- Staging blocks of a half in address order. -/
def stagingBlocks (d : Dev) (half : Nat) : List (Nat × Nat) :=
  ((d.ce.staging.filter (fun s => s.half == half)).map (fun s => (s.base, s.bytes))).foldl (fun l b => insertBlock b l) []

/-- An uncorrectable error in staging, landing, retention or match records of entry `e` (R472): 0x8A0B, and R7 applies to
every context that binds the entry. -/
def ceFail (d : Dev) (e arg : Nat) : Dev := stopBinders (raise d 0x8A0B e arg) e 0x8A0B

/-- The staging of a bucket for a step and place. -/
def stagingOf (d : Dev) (b c p : Nat) : Option Staging :=
  d.ce.staging.find? (fun s => s.bucket == b && s.step == c && s.place == p)

/-- Replace a staging record. -/
def setStaging (d : Dev) (s : Staging) : Dev :=
  { d with ce := { d.ce with staging := d.ce.staging.map (fun x =>
    if x.bucket = s.bucket ∧ x.step = s.step ∧ x.place = s.place then s else x) } }

/-- R449: allocate a bucket's staging for step `c` and place `p`, filled with +0; while the region has no room the
pass holds. -/
def stagingAllocate (d : Dev) (b c p waited : Nat) : Dev :=
  if !bktEn d b || (stagingOf d b c p).isSome then d
  else
    let h := bktHalf d b
    let n := bktNblk d b * 36
    let base := cfg d 0xA020 (h + 1)
    let a := firstGap base n (stagingBlocks d h)
    if a + n ≤ base + cfg d 0xA021 (h + 1) then
      let d1 := devWrite d a (List.replicate n 0#8)
      { d1 with ce := { d1.ce with staging := d1.ce.staging ++
        [{ bucket := b, step := c, place := p, half := h, base := a, bytes := n, left := [], announced := false }] } }
    else raiseStep (bump d 0xA057 (h + 1) waited) 0x4A07 h b

/-- The part of owner `r` in a staging's arrays: sign offset and bytes, scale offset and bytes (R450). -/
def partRanges (d : Dev) (b r : Nat) : (Nat × Nat) × (Nat × Nat) :=
  let p := bktPart d b r
  ((32 * p.1, 32 * p.2), (32 * bktNblk d b + 4 * p.1, 4 * p.2))

/-- Blocks in chunk `k` of the part of owner `r` (R451): first block within the part, and how many. -/
def chunkBlocks (d : Dev) (b r k : Nat) : Nat × Nat := (2048 * k, min 2048 ((bktPart d b r).2 - 2048 * k))

/-- Chunks of a part. -/
def chunkCount (d : Dev) (b r : Nat) : Nat := ceilDiv (bktPart d b r).2 2048

/-! ### Digests (R469, R470) -/

/-- One bit of CRC-64/ECMA-182. -/
def crc64Bit (r : Nat) : Nat := if 2 ^ 63 ≤ r then (r * 2 % 2 ^ 64) ^^^ 0x42F0E1EBA9EA3693 else r * 2

/-- One byte. -/
def crc64Byte (r : Nat) (b : Byte) : Nat :=
  (List.range 8).foldl (fun x _ => crc64Bit x) (r ^^^ (b.toNat * 2 ^ 56))

/-- CRC-64 of bytes from an initial value of 0. -/
def crc64 (bs : List Byte) : Nat := bs.foldl crc64Byte 0

/-- The fold bytes of a digest. -/
def digestFold (c b p src dst ver : Nat) : List Byte :=
  leBytes 6 (c % 2 ^ 48) ++ leBytes 3 b ++ leBytes 2 p ++ leBytes 2 src ++ leBytes 2 dst ++ leBytes 1 ver

/-- Add one place's digest; with EXP + 1 places counted the record goes to the ring (R470). -/
def digestNote (d : Dev) (c b peer : Nat) (sentDir : Bool) (crc n : Nat) : Dev :=
  let same := fun (x : Digest) => x.step == c && x.bucket == b && x.peer == peer && x.sent == sentDir
  let x := (d.ce.digests.find? same).getD { step := c, bucket := b, peer, sent := sentDir, places := 0, xor := 0, bytes := 0 }
  let y := { x with places := x.places + 1, xor := x.xor ^^^ crc, bytes := x.bytes + n }
  let rest := d.ce.digests.filter (fun z => !same z)
  if y.places = updExp d (bktPent d b) + 1 then
    let h := cfg d 0xA040 0
    let rec_ := c % 2 ^ 64 * 2 ^ 192 + b * 2 ^ 168 + peer * 2 ^ 156 + y.places * 2 ^ 140 + b2n (!sentDir) * 2 ^ 139 + y.xor * 2 ^ 64 +
      y.bytes % 2 ^ 64
    let d1 := devWrite { d with ce := { d.ce with digests := rest } } (cfg d 0xA026 0 + 32 * h) (leBytes 32 rec_)
    setObj d1 0xA040 0 ((h + 1) % max 1 (cfg d 0xA027 0))
  else { d with ce := { d.ce with digests := rest ++ [y] } }

/-! ### Matches (R450 to R455) -/

/-- LOWC of an entry (R455): the oldest step whose apply has not ended. -/
def lowStep (d : Dev) (e : Nat) : Nat :=
  let x := upAt d e
  match oldestBuf x with
  | some b => (upBuf x b).step
  | none => x.applied

/-- The match of a bucket, step and place. -/
def matchOf (d : Dev) (b c p : Nat) : Option Match :=
  d.ce.matches_.find? (fun m => m.bucket == b && m.step == c && m.place == p)

/-- Replace a match. -/
def setMatch (d : Dev) (m : Match) : Dev :=
  { d with ce := { d.ce with matches_ := d.ce.matches_.map (fun x =>
    if x.bucket = m.bucket ∧ x.step = m.step ∧ x.place = m.place then m else x) } }

/-- Key of a rank's share of a chunk. -/
def shareKey (r k : Nat) : Nat := r * 2 ^ 32 + k

/-- Bytes of a share. -/
def shareBytes (d : Dev) (b k : Nat) : Nat := (chunkBlocks d b (grpRank d (bktGroup d b)) k).2 * 36

/-- Landing bytes in use in a half: every allocated share of a chunk not yet delivered (R451). -/
def landingUsed (d : Dev) (half : Nat) : Nat :=
  sumN ((d.ce.matches_.filter (fun m => bktHalf d m.bucket == half)).map (fun m =>
    sumN ((m.shares.filter (fun s => !m.delivered.contains (s.1 % 2 ^ 32))).map (fun s => shareBytes d m.bucket (s.1 % 2 ^ 32)))))

/-- The buffer for a match's step is free or holds that step, so its reads need not wait (R456, R360). -/
def bufferReady (d : Dev) (e c : Nat) : Bool :=
  let y := upBuf (upAt d e) (c % 2)
  y.st == 0 || decide (c ≤ y.step)

/-- Matches of a half, the oldest (step, place, bucket) first. -/
def insertMatch (m : Match) : List Match → List Match
  | [] => [m]
  | x :: xs =>
    if m.step < x.step ∨ (m.step = x.step ∧ (m.place < x.place ∨ (m.place = x.place ∧ m.bucket < x.bucket))) then m :: x :: xs
    else x :: insertMatch m xs

/-- The shares a match still lacks: chunk by chunk, the lowest rank first. -/
def missingShares (d : Dev) (m : Match) : List (Nat × Nat) :=
  let me := grpRank d (bktGroup d m.bucket)
  (List.range (chunkCount d m.bucket me)).flatMap (fun k =>
    ((List.range (grpNmem d (bktGroup d m.bucket) + 1)).filter (fun r =>
      m.ranks.contains r && (tfind m.shares (shareKey r k)).isNone && !m.delivered.contains k)).map (fun r => (r, k)))

/-- Bytes of the own staging that rank `me`'s part has in one array. -/
def ownShare (d : Dev) (s : Staging) (b me k : Nat) : List (Nat × List Byte) :=
  let pr := partRanges d b me
  let cb := chunkBlocks d b me k
  [(32 * cb.1, memRead d.mem (s.base + pr.1.1 + 32 * cb.1) (32 * cb.2)),
   (pr.1.2 + 4 * cb.1, memRead d.mem (s.base + pr.2.1 + 4 * cb.1) (4 * cb.2))]

/-- Land bytes at an offset of a rank's part. -/
def landBytes (m : Match) (r off : Nat) (bs : List Byte) : Match :=
  { m with data := tset m.data r ((addrBytes off bs).foldl (fun t e => tset t e.1 e.2) (tget [] m.data r)) }

/-- The ranges of staging that `ownShare` takes. -/
def ownRanges (d : Dev) (s : Staging) (b me k : Nat) : List (Nat × Nat) :=
  let pr := partRanges d b me
  let cb := chunkBlocks d b me k
  [(s.base + pr.1.1 + 32 * cb.1, 32 * cb.2), (s.base + pr.2.1 + 4 * cb.1, 4 * cb.2)]

/-- Allocate landing space for one share and read it: the own share comes straight from staging, another rank's by
READs of SPACE 1 (R450, R451). Staging that cannot be read leaves the share missing (R472). DESIGN CHOICE, log 46.
DESIGN CHOICE, log 96. -/
def readShare (d : Dev) (m : Match) (r k : Nat) : Dev :=
  let b := m.bucket
  let g := bktGroup d b
  let me := grpRank d g
  let cb := chunkBlocks d b me k
  let pr := partRanges d b me
  if r = me then
    match stagingOf d b m.step m.place with
    | some s =>
      let rd := readRanges d s.half 64 (ownRanges d s b me k)
      if !rd.1 then ceFail (setMatch rd.2 { m with shares := tset m.shares (shareKey r k) (cb.2 * 36) }) (bktPent d b) b else
      let m1 := (ownShare d s b me k).foldl (fun x p => landBytes x r p.1 p.2) { m with shares := tset m.shares (shareKey r k) 0 }
      let left := tget 0 s.left r - cb.2 * 36
      setStaging (setMatch rd.2 m1) { s with left := tset s.left r left }
    | none => d
  else
    let d1 := setMatch d { m with shares := tset m.shares (shareKey r k) (cb.2 * 36) }
    let word := fun (arr off len : Nat) =>
      b * 2 ^ 104 + m.step % 256 * 2 ^ 96 + m.place * 2 ^ 80 + arr * 2 ^ 79 + off * 2 ^ 32 + len
    let rd := fun (x : Dev) (arr off len land : Nat) =>
      ceRead x { unit := bktHalf d b, sent := false, ridx := 0, rlap := 0, what := .share b m.step m.place r k land
                 dst := grpMember d g r, flow := (b + off / 65536) % 256, space := 1, body := word arr off len, len, got := [] }
    let d2 := rd d1 0 (pr.1.1 + 32 * cb.1) (32 * cb.2) (32 * cb.1)
    rd d2 1 (4 * (bktPart d b me).1 + 4 * cb.1) (4 * cb.2) (pr.1.2 + 4 * cb.1)

/-- Give landing space to shares in the order of R451 while it lasts. -/
def issueShares (half : Nat) : Nat → Dev → Dev
  | 0, d => d
  | fuel + 1, d =>
    let ms := (d.ce.matches_.filter (fun m => bktHalf d m.bucket == half && bufferReady d (bktPent d m.bucket) m.step)).foldl
      (fun l m => insertMatch m l) []
    match ms.findSome? (fun m => ((missingShares d m).head?).map (fun s => (m, s))) with
    | none => d
    | some (m, (r, k)) =>
      if cfg d 0xA023 (half + 1) < landingUsed d half + shareBytes d m.bucket k then d
      else issueShares half fuel (readShare d m r k)

/-- Landing space for both halves. -/
def issueAll (d : Dev) : Dev := [0, 1].foldl (fun x h => issueShares h 65536 x) d

/-- Record the announcement of a rank's part (R450, R456). -/
def noteAnnounce (d : Dev) (b c p r : Nat) : Dev :=
  let m := (matchOf d b c p).getD { bucket := b, step := c, place := p, ranks := [], shares := [], data := [], delivered := [], taken := [] }
  let k := EccRec.match_ b c p
  let d1 := if (matchOf d b c p).isSome then readRec d k 0x8A0B (bktPent d b) b
    else { endRec d k with ce := { d.ce with matches_ := d.ce.matches_ ++ [m] } }
  issueAll (setMatch d1 { m with ranks := m.ranks ++ [r] })

/-- R450: a bucket whose BKT's earlier passes have been accepted is announced to every rank whose rows meet it; the own
rank's part without a message. DESIGN CHOICE, log 46. -/
def announceBucket (d : Dev) (b c p : Nat) : Dev :=
  let g := bktGroup d b
  let me := grpRank d g
  let os := bktOwners d b
  let d1 := match stagingOf d b c p with
    | some s => setStaging d { s with announced := true, left := os.foldl (fun t r => tset t r ((bktPart d b r).2 * 36)) [] }
    | none => d
  let d2 := (os.filter (fun r => r != me)).foldl (fun x r =>
    relaySend x (grpMember d g r) 8 2 0 (b % 256)
      (b * 2 ^ 36 + c % 256 * 2 ^ 28 + p * 2 ^ 12 + cfg d 0xA016 0 * 2 ^ 8) []) d1
  if os.contains me then noteAnnounce d2 b c p me else d2

/-- R450: the oldest BKT of a cluster whose earlier passes have all been accepted is handed off. -/
def bucketHandoff (d : Dev) (cluster : Nat) : Dev :=
  match d.ce.buckets.find? (fun x => x.cluster == cluster) with
  | none => d
  | some x =>
    if x.before.any (fun b => (vcAt d b.1).passes.any (fun q => q.task == x.task && decide (q.num < b.2))) then d
    else
      let d1 := { d with ce := { d.ce with buckets := d.ce.buckets.erase x } }
      if bktEn d x.bucket then announceBucket d1 x.bucket x.step x.place else d1

/-- Free a staging every announced part of which has been read (R455). -/
def stagingFree (d : Dev) (s : Staging) : Dev :=
  if s.announced && s.left.all (fun e => e.2 == 0) then { d with ce := { d.ce with staging := d.ce.staging.erase s } } else d

/-- Discard a misrouted message (R458). -/
def ceMisrouted (d : Dev) (g src : Nat) : Dev := raiseStep (bump d 0xA055 0 1) 0x4A06 g src

/-- Discard a stale message (R456, R459). -/
def ceStale (d : Dev) (g src : Nat) : Dev := raiseStep (bump d 0xA053 0 1) 0x4A03 g src

/-- R448, R456 to R458: an ANNOUNCE arrives from device `src`. -/
def announce (d : Dev) (src b lap place fver : Nat) : Dev :=
  let g := bktGroup d b
  let e := bktPent d b
  match grpRankOf d g src with
  | none => ceMisrouted d g src
  | some r =>
    if !bktEn d b || !(bktOwners d b).contains (grpRank d g) || src == ownDev d then ceMisrouted d g src
    else if fver ≠ cfg d 0xA016 0 then stopBinders (raise d 0x8A02 e src) e 0x8A02
    else
      let low := lowStep d e
      let x := (lap + (256 - low % 256)) % 256
      if 128 ≤ x then ceStale d g src
      else if 4 ≤ x then stopBinders (raise d 0x8A05 e src) e 0x8A05
      else if (matchOf d b (low + x) place).any (fun m => m.ranks.contains r) then
        raiseStep (bump d 0xA054 0 1) 0x4A04 b src
      else noteAnnounce (bump d 0xA050 0 1) b (low + x) place r

/-! ### Serving READs (R461, R468) -/

/-- Answer a READ with data in pieces of 8,192 B. -/
def replyData (d : Dev) (src flow rlap ridx : Nat) (bs : List Byte) : Dev :=
  (List.range (max 1 (ceilDiv bs.length 8192))).foldl (fun x i =>
    let piece := (bs.drop (8192 * i)).take 8192
    relaySend (bump x 0xA051 0 piece.length) src 7 2 1 flow (rlap * 2 ^ 56 + ridx * 2 ^ 40 + i * 2 ^ 35) piece) d

/-- Answer a READ with an error STATUS. -/
def replyStatus (d : Dev) (src flow rlap ridx st : Nat) : Dev :=
  relaySend d src 7 2 1 flow (rlap * 2 ^ 56 + ridx * 2 ^ 40 + st * 2 ^ 38) []

/-- Bytes read of a part; at its last byte the part's digest is noted, and the staging may be free (R455, R469). -/
def partRead (d : Dev) (s : Staging) (r n : Nat) : Dev :=
  let left := tget 0 s.left r - n
  let s1 := { s with left := tset s.left r left }
  let d1 := setStaging d s1
  let d2 :=
    if left = 0 ∧ 0 < tget 0 s.left r then
      let pr := partRanges d s.bucket r
      let dst := grpMember d (bktGroup d s.bucket) r
      let crc := crc64 (memRead d.mem (s.base + pr.1.1) pr.1.2 ++ memRead d.mem (s.base + pr.2.1) pr.2.2 ++
        digestFold s.step s.bucket s.place (ownDev d) dst (cfg d 0xA016 0))
      digestNote d1 s.step s.bucket dst true crc (pr.1.2 + pr.2.2)
    else d1
  stagingFree d2 s1

/-- Serve `n` bytes of device memory (R202, R461): an uncorrectable word is reported, and no data is sent (R231, R624).
DESIGN CHOICE, log 97. -/
def serveData (d : Dev) (src flow rlap ridx a n : Nat) : Dev :=
  let r := readThrough d (ownerHalf a) 64 0 a n
  if (ueIn d.mem a n).isEmpty then replyData r.2 src flow rlap ridx r.1 else r.2

/-- R461: a READ arrives: `space` 0 names a version slot, 1 a staged part; `body` is its 128-bit word. -/
def ceServe (d : Dev) (src rlap ridx space flow body : Nat) : Dev :=
  let n := fld body 31 0
  if space = 0 then
    match parOf d (fld body 127 104) with
    | none => ceMisrouted d 0xFFFF src
    | some e =>
      let v := fld body 103 72
      let x := vslotAt d e (ringSlot d e v)
      if (grpRankOf d (parGroup d e) src).isNone then ceMisrouted d (parGroup d e) src
      else if holds x v && (x.state == 2 || x.state == 3) then
        serveData d src flow rlap ridx (slotCopy d e v + fld body 71 32) n
      else replyStatus d src flow rlap ridx 1
  else
    let b := fld body 127 104
    match grpRankOf d (bktGroup d b) src with
    | none => ceMisrouted d (bktGroup d b) src
    | some r =>
      match d.ce.staging.find? (fun s =>
          s.bucket == b && s.step % 256 == fld body 103 96 && s.place == fld body 95 80 && s.announced) with
      | some s =>
        let a := s.base + (if bitAt body 79 then 32 * bktNblk d b else 0) + fld body 63 32
        if (ueIn d.mem a n).isEmpty then partRead (serveData d src flow rlap ridx a n) s r n
        else ceFail (serveData d src flow rlap ridx a n) (bktPent d b) b
      | none => replyStatus d src flow rlap ridx 2

/-! ### Landing READ-DATA (R459 to R461) -/

/-- The contexts that wait for a gather of a version stop (R337). -/
def stopWaiters (d : Dev) (e v code : Nat) : Dev :=
  ((wvAt d e).waits.filter (fun g => g.ver == v)).foldl (fun x g => unitFault x g.ctx code) d

/-- Put landed bytes of a READ where they belong. -/
def landRead (d : Dev) (r : CeRead) (off : Nat) (bs : List Byte) : Dev :=
  match r.what with
  | .gather e v rank o =>
    match bufOf d e v with
    | some b =>
      let d1 := bufWrite d b (rank * parVbytes d e + o + off) bs
      setBuf d1 { b with missing := b.missing - bs.length }
    | none => d
  | .share b c p rank k land =>
    match matchOf d b c p with
    | some m =>
      let m1 := landBytes m rank (land + off) bs
      setMatch d { m1 with shares := tset m.shares (shareKey rank k) (tget 0 m.shares (shareKey rank k) - bs.length) }
    | none => d

/-- R459: READ-DATA arrives. -/
def readData (d : Dev) (src rlap ridx st chunk : Nat) (bs : List Byte) : Dev :=
  match d.ce.reads.find? (fun r => r.sent && r.ridx == ridx && r.rlap == rlap && r.dst == src && !r.got.contains chunk) with
  | none => ceStale d 0xFFFF src
  | some r =>
    let d0 := { d with ce := { d.ce with reads := d.ce.reads.filter (fun x => x.what != r.what) } }
    if st ≠ 0 then
      match r.what with
      | .gather e v _ _ => pumpReads (stopWaiters (raise d0 0x8683 e v) e v 0x8683) r.unit 1
      | .share b _ _ _ _ _ => pumpReads (stopBinders (raise d0 0x8A0A b src) (bktPent d b) 0x8A0A) r.unit 1
    else
      let d1 := bump (landRead d0 r (8192 * chunk) bs) 0xA052 0 bs.length
      let got := r.got ++ [chunk]
      if got.length = max 1 (ceilDiv r.len 8192) then pumpReads d1 r.unit 1
      else { d1 with ce := { d1.ce with reads := d1.ce.reads ++ [{ r with got }] } }

/-! ### Folding (R447, R452, R453) -/

/-- Decode element k of a block from its sign byte and scale word (R447). -/
def decodeBit (ver scale : Nat) (neg : Bool) : F32 :=
  if ver = 1 then (if neg then BitVec.ofNat 32 scale ^^^ 0x80000000#32 else BitVec.ofNat 32 scale)
  else if neg then toF32 (fdecode .bf16 (fld scale 15 0)) ^^^ 0x80000000#32 else toF32 (fdecode .bf16 (fld scale 31 16))

/-- Element k of block i of what rank `r` sent; `signs` is the length of the sign array. -/
def decodeElem (d : Dev) (m : Match) (r i k signs : Nat) : F32 :=
  let t := tget [] m.data r
  let byte := (tget 0#8 t (32 * i + k / 8)).toNat
  let scale := leVal ((List.range 4).map (fun j => tget 0#8 t (signs + 4 * i + j)))
  decodeBit (cfg d 0xA016 0) scale (bitAt byte (k % 8))

/-- Sum the ranks of one element in increasing rank (R452). -/
def foldElem (d : Dev) (m : Match) (i k signs : Nat) : F32 :=
  f32SumLeft ((List.range (grpNmem d (bktGroup d m.bucket) + 1)).map (fun r => decodeElem d m r i k signs))

/-- Cut a run into pieces of at most 65,536 elements. -/
def cutRun (p : Piece) : Nat → List Piece
  | 0 => []
  | fuel + 1 =>
    if p.vals.length ≤ 65536 then [p]
    else { p with vals := p.vals.take 65536 } :: cutRun { p with off := p.off + 65536, vals := p.vals.drop 65536 } fuel

/-- The pieces of chunk `k`, in increasing OFF within each row-group (R452). -/
def chunkPieces (d : Dev) (m : Match) (k : Nat) : List Piece :=
  let b := m.bucket
  let me := grpRank d (bktGroup d b)
  let cblk := bktCblk d b
  let pb := bktPart d b me
  let cb := chunkBlocks d b me k
  let lo := pb.1 + cb.1
  let groups := if cb.2 = 0 then [] else (List.range ((lo + cb.2 - 1) / cblk - lo / cblk + 1)).map (fun i => lo / cblk + i)
  groups.flatMap (fun g =>
    let b0 := max lo (g * cblk)
    let b1 := min (lo + cb.2) ((g + 1) * cblk)
    (List.range 4).flatMap (fun q =>
      let row := 4 * (g + 32 * bktRb0 d b) + q
      if bktRows d b ≤ row then []
      else
        let vals := (List.range (b1 - b0)).flatMap (fun x =>
          (List.range 64).map (fun n => foldElem d m (b0 + x - pb.1) (64 * q + n) (32 * pb.2)))
        cutRun { entry := bktPent d b, use := bktUse d b, step := m.step, place := m.place
                 off := (row - me * bktShrows d b) * (64 * cblk) + 64 * (b0 - g * cblk), vals } (vals.length + 1)))

/-- Every rank's share of a chunk has landed. -/
def chunkLanded (d : Dev) (m : Match) (k : Nat) : Bool :=
  (List.range (grpNmem d (bktGroup d m.bucket) + 1)).all (fun r => tfind m.shares (shareKey r k) == some 0)

/-- Deliver pieces until one is held: how many were taken. -/
def deliverPieces (waited : Nat) : List Piece → Nat → Dev → Nat × Bool × Dev
  | [], n, d => (n, true, d)
  | p :: ps, n, d =>
    match takePiece d p waited with
    | (.held, d1) => (n, false, d1)
    | (_, d1) => deliverPieces waited ps (n + 1) d1

/-- A match whose chunks are all delivered closes; the digests of what landed are noted (R455, R469). -/
def closeMatch (d : Dev) (m : Match) : Dev :=
  let b := m.bucket
  let g := bktGroup d b
  let me := grpRank d g
  let n := (bktPart d b me).2 * 36
  let d1 := ((List.range (grpNmem d g + 1)).filter (fun r => r != me)).foldl (fun x r =>
    let t := tget [] m.data r
    let bytes := (List.range n).map (fun i => tget 0#8 t i)
    digestNote x m.step b (grpMember d g r) false
      (crc64 (bytes ++ digestFold m.step b m.place (grpMember d g r) (ownDev d) (cfg d 0xA016 0))) n) d
  let d2 := { endRec d1 (.match_ b m.step m.place) with
    ce := { d1.ce with matches_ := d1.ce.matches_.filter (fun x => !(x.bucket == b && x.step == m.step && x.place == m.place)) } }
  match stagingOf d2 b m.step m.place with
  | some s => stagingFree d2 s
  | none => d2

/-- R452, R453: a chunk whose shares have all landed is folded and delivered as pieces; a held piece holds the rest. An
uncorrectable error in the match record or in what has landed stops the entry's contexts (R472). -/
def chunkFold (d : Dev) (b c p k waited : Nat) : Dev :=
  match matchOf d b c p with
  | none => d
  | some m =>
    if eccBad d (.match_ b c p) then ceFail d (bktPent d b) b
    else if !chunkLanded d m k || m.delivered.contains k || decide (chunkCount d b (grpRank d (bktGroup d b)) ≤ k) then d
    else
      let done := tget 0 m.taken k
      let r := deliverPieces waited ((chunkPieces d m k).drop done) done d
      if r.2.1 then
        let m1 := { m with delivered := m.delivered ++ [k], taken := tdel m.taken k }
        let d1 := setMatch r.2.2 m1
        let d2 := if m1.delivered.length = chunkCount d b (grpRank d (bktGroup d b)) then closeMatch d1 m1 else d1
        issueAll d2
      else setMatch r.2.2 { m with taken := tset m.taken k r.1 }

/-! ### Multicast and autotomy (R463 to R466) -/

/-- Set that count. -/
def setPushed (d : Dev) (e v o n : Nat) : Dev :=
  { d with ce := { d.ce with pushedGot :=
    (e, v, o, n) :: d.ce.pushedGot.filter (fun x => !(x.1 == e && x.2.1 == v && x.2.2.1 == o)) } }

/-- R463 to R465: a multicast data message lands in a prefetch buffer and goes on to this node's children; while the
retention buffer cannot take it, it waits. -/
def mdata (d : Dev) (src pid v origin off : Nat) (bs : List Byte) : Dev :=
  match parOf d pid with
  | none => ceMisrouted d 0xFFFF src
  | some e =>
    let g := parGroup d e
    if (grpRankOf d g src).isNone then ceMisrouted d g src
    else
      let cs := treeChildren d g origin (parRank d e)
      if !cs.isEmpty && decide (cfg d 0xA030 0 < retained d g + bs.length) then d
      else
        let d1 :=
          if cs.isEmpty then d
          else
            let m := (d.ce.mcasts.find? (fun m => m.entry == e && m.ver == v && m.origin == origin)).getD
              { entry := e, ver := v, origin, acks := cs.foldl (fun t c => tset t c 0) [], sent := 0, total := parVbytes d e }
            let known := d.ce.mcasts.any (fun m => m.entry == e && m.ver == v && m.origin == origin)
            let d0 := if known then d else { d with ce := { d.ce with mcasts := d.ce.mcasts ++ [m] } }
            setMcast (mcastSend d0 e v origin off (m.acks.map Prod.fst) bs) { m with sent := m.sent + bs.length }
        let got := pushedOf d e v origin + bs.length
        let d2 := setPushed d1 e v origin got
        let d3 := match bufOf d2 e v with
          | some b =>
            if b.pushed.contains origin && !b.complete then
              bump (setBuf (bufWrite d2 b (origin * parVbytes d e + off) bs) { b with missing := b.missing - bs.length })
                0xA052 0 bs.length
            else d2
          | none => d2
        if got / 65536 ≠ pushedOf d e v origin / 65536 ∨ got = parVbytes d e then
          relaySend d3 src 8 2 0 (pid % 256) (mcastArg d 2 e v) (leBytes 16 (mcastWord origin got))
        else d3

/-- R465: a child acknowledges bytes; the retention buffer frees up to the smallest count and more is sent. An
uncorrectable error in what is retained stops the entry's contexts (R472). -/
def mack (d : Dev) (src pid v origin count : Nat) : Dev :=
  match parOf d pid with
  | none => ceMisrouted d 0xFFFF src
  | some e =>
    match grpRankOf d (parGroup d e) src with
    | none => ceMisrouted d (parGroup d e) src
    | some r =>
      match d.ce.mcasts.find? (fun m => m.entry == e && m.ver == v && m.origin == origin) with
      | none => d
      | some m =>
        if (tfind m.acks r).isNone then d
        else if eccBad d (.retention e v origin) then ceFail d e v
        else
          let m1 := { m with acks := tset m.acks r (max count (tget 0 m.acks r)) }
          let d1 := setMcast d m1
          if m1.sent = m1.total ∧ m1.acks.all (fun a => decide (m1.total ≤ a.2)) then
            { endRec d1 (.retention e v origin) with
              ce := { d1.ce with mcasts := d1.ce.mcasts.filter (fun x => !(x.entry == e && x.ver == v && x.origin == origin)) } }
          else if origin = parRank d e then mcastPump (parVbytes d e / 8192 + 1) d1 m1
          else d1

/-- R466: a node told to FETCH reads its missing bytes of the shard from the origin. -/
def ceFetch (d : Dev) (src pid v origin : Nat) : Dev :=
  match parOf d pid with
  | none => ceMisrouted d 0xFFFF src
  | some e =>
    if (grpRankOf d (parGroup d e) src).isNone then ceMisrouted d (parGroup d e) src
    else
      match bufOf d e v with
      | some b =>
        if b.pushed.contains origin then
          readShard (setBuf d { b with pushed := b.pushed.filter (fun r => r != origin) }) e v origin (pushedOf d e v origin)
        else d
      | none => d

/-- R466: the retention buffer of a group has been full past the limit without progress: the child that holds the
smallest count is removed, the lowest rank on a tie. -/
def autotomy (d : Dev) (g us : Nat) : Dev :=
  let ms := d.ce.mcasts.filter (fun m => parGroup d m.entry == g && !m.acks.isEmpty && decide (m.sent < m.total))
  let low := fun (m : Mcast) => (m.acks.map Prod.snd).foldl min m.sent
  match ms with
  | [] => d
  | m0 :: rest =>
    let m := rest.foldl (fun a b => if low b < low a then b else a) m0
    if us < cfg d 0xA031 0 ∨ retained d g + min 8192 (m.total - m.sent) ≤ cfg d 0xA030 0 then d
    else
      match m.acks.find? (fun a => a.2 == low m) with
      | none => d
      | some (r, n) =>
        let below := r :: treeBeneath d g m.origin 64 r
        let d1 := below.foldl (fun x k =>
          relaySend x (grpMember d g k) 8 2 0 (parPid d m.entry % 256) (mcastArg d 3 m.entry m.ver) (leBytes 16 (mcastWord m.origin 0))) d
        let d2 := setObj (bump d1 0xA056 0 1) 0xA060 0
          (grpMember d g r * 2 ^ 116 + g * 2 ^ 100 + parPid d m.entry * 2 ^ 76 + m.ver * 2 ^ 44 + n)
        let d3 := raise d2 0x4A08 (grpMember d g r) g
        let m1 := { m with acks := tdel m.acks r }
        let d4 := setMcast { d3 with ce := { d3.ce with removed := d3.ce.removed ++ [(g, r)] } } m1
        if m.origin = parRank d m.entry then mcastPump (m.total / 8192 + 1) d4 m1 else d4

/-- R466: removed members rejoin at a step boundary. -/
def rejoin (d : Dev) : Dev :=
  d.ce.removed.foldl (fun x p => raise x 0x0A09 (grpMember x p.1 p.2) p.1) { d with ce := { d.ce with removed := [] } }

/-! ### Clip totals and UNREACH (R462, R467) -/

/-- R456, R458, R467: a CLIP total arrives. DESIGN CHOICE, log 46. -/
def clip (d : Dev) (src g lap : Nat) (total : F32) : Dev :=
  match grpRankOf d (clipGroup d g) src with
  | none => ceMisrouted d (clipGroup d g) src
  | some r =>
    let low := clipNext d g
    let x := (lap + (256 - low % 256)) % 256
    let stopAll := fun (y : Dev) => (clipEntries d g).foldl (fun z e => stopBinders z e 0x8A05) y
    if g = 0 ∨ 15 < g then ceMisrouted d g src
    else if 128 ≤ x then ceStale d (clipGroup d g) src
    else if 4 ≤ x then stopAll (raise d 0x8A05 g src)
    else if d.up.totals.any (fun t => t.1 == g && t.2.1 == low + x && t.2.2.1 == r) then d
    else clipForm { d with up := { d.up with totals := d.up.totals ++ [(g, low + x, r, total)] } } g (low + x)

/-- R462: an UNREACH answers a READ, an ANNOUNCE or a CLIP: `head` is bits [127:64] of the request's header.
DESIGN CHOICE, log 46. -/
def ceUnreach (d : Dev) (head : Nat) : Dev :=
  let dst := fld head 55 44
  let flow := fld head 23 16
  let d0 := raise (bump d 0xA059 0 1) 0x8A0A dst head
  if fld head 63 60 = 6 then
    let rs := d.ce.reads.filter (fun r => r.sent && r.dst == dst && r.flow == flow)
    let es := rs.map (fun r => match r.what with
      | .gather e _ _ _ => e
      | .share b _ _ _ _ _ => bktPent d b)
    es.foldl (fun x e => stopBinders x e 0x8A0A)
      (pumpReads (pumpReads { d0 with ce := { d0.ce with reads := d0.ce.reads.filter (fun r => !rs.contains r) } } 0 4096) 1 4096)
  else
    let bs := (d.ce.staging.filter (fun s => s.announced && s.bucket % 256 == flow &&
      (grpRankOf d (bktGroup d s.bucket) dst).any (fun r => decide (0 < tget 0 s.left r)))).map (fun s => bktPent d s.bucket)
    let cs := (d.up.totals.filter (fun t => t.1 == flow && (grpRankOf d (clipGroup d t.1) dst).isSome)).flatMap (fun t => clipEntries d t.1)
    (bs ++ cs).foldl (fun x e => stopBinders x e 0x8A0A) d0

end Sys2Proof.Machine
end

