-- ==== Sys2Proof/Machine/Exchange.lean ====
section
/-! DEFINITION. The expert exchange (chapter 16): doorbells, selection and capacity, dispatch, combine. -/

namespace Sys2Proof.Machine

/-! ### Layer rows and placement (R475 to R478) -/

def exRow (d : Dev) (l : Nat) : Nat := keyedAt d 0xA812 l
def exEn (d : Dev) (l : Nat) : Bool := bitAt (exRow d l) 511
def exCtx (d : Dev) (l : Nat) : Nat := fld (exRow d l) 510 505
def exGroup (d : Dev) (l : Nat) : Nat := fld (exRow d l) 504 495
def exNexp (d : Dev) (l : Nat) : Nat := fld (exRow d l) 494 482
def exK (d : Dev) (l : Nat) : Nat := fld (exRow d l) 481 478
def exPol (d : Dev) (l : Nat) : Nat := fld (exRow d l) 477 476
def exRenorm (d : Dev) (l : Nat) : Bool := bitAt (exRow d l) 475
def exTfmt (d : Dev) (l : Nat) : Nat := fld (exRow d l) 474 471
def exEfmt (d : Dev) (l : Nat) : Nat := fld (exRow d l) 470 467
def exOfmt (d : Dev) (l : Nat) : Nat := fld (exRow d l) 466 463
def exCap (d : Dev) (l : Nat) : Nat := fld (exRow d l) 462 447
def exNtok (d : Dev) (l : Nat) : Nat := fld (exRow d l) 446 431
def exHid (d : Dev) (l : Nat) : Nat := fld (exRow d l) 430 415
def exDbd (d : Dev) (l : Nat) : Nat := fld (exRow d l) 414 403
def exDbc (d : Dev) (l : Nat) : Nat := fld (exRow d l) 402 391
def exDnd (d : Dev) (l : Nat) : Nat := fld (exRow d l) 390 379
def exDnc (d : Dev) (l : Nat) : Nat := fld (exRow d l) 378 367
def exSoff (d : Dev) (l : Nat) : Nat := fld (exRow d l) 366 335
def exXoff (d : Dev) (l : Nat) : Nat := fld (exRow d l) 334 303
def exAoff (d : Dev) (l : Nat) : Nat := fld (exRow d l) 302 271
def exRoff (d : Dev) (l : Nat) : Nat := fld (exRow d l) 270 239
def exQoff (d : Dev) (l : Nat) : Nat := fld (exRow d l) 238 207
def exYoff (d : Dev) (l : Nat) : Nat := fld (exRow d l) 206 175

/-- Home device and slot of an expert (R476). -/
def exHome (d : Dev) (l e : Nat) : Nat × Nat :=
  let v := keyedAt d 0xA815 (l * 65536 + e)
  (fld v 31 20, fld v 19 14)

/-- Experts of a layer that a device holds. -/
def exExperts (d : Dev) (l dev : Nat) : List Nat := (List.range (exNexp d l)).filter (fun e => (exHome d l e).1 == dev)

/-- L: the experts placed on this device (R478). -/
def exLocal (d : Dev) (l : Nat) : Nat := (exExperts d l (ownDev d)).length

/-- N: members of the layer's group. -/
def exRanks (d : Dev) (l : Nat) : Nat := grpNmem d (exGroup d l) + 1

/-- The cluster of rank 0, whose semaphores and half serve the layer. -/
def exCluster (d : Dev) (l : Nat) : Nat := (ctxClusters d (exCtx d l)).headD 0

/-- Bytes of a row in a format (R367, R478). -/
def rowBytes (hid code : Nat) : Nat :=
  match fmtOfCode code with
  | some (f, _) => ceilDiv (hid * fwidth f) 8
  | none => 0

def exTbytes (d : Dev) (l : Nat) : Nat := rowBytes (exHid d l) (exTfmt d l)
def exEbytes (d : Dev) (l : Nat) : Nat := rowBytes (exHid d l) (exEfmt d l)

/-- W (R478). -/
def exW (d : Dev) (l : Nat) : Nat := max (exTbytes d l) (exEbytes d l)

/-- Bytes of a dispatched row: TFMT forward, EFMT backward. -/
def exSent (d : Dev) (l : Nat) (bwd : Bool) : Nat := if bwd then exEbytes d l else exTbytes d l

/-- Offset of the row of a slot, source rank and position (R478). -/
def exPlace (d : Dev) (l slot r p : Nat) : Nat := ((slot * exRanks d l + r) * exCap d l + p) * exW d l

/-! ### Job memory of the exchange unit -/

/-- An uncorrectable error in pending regions, the route store or placement (R493): 0x8A89, and R7 applies to the layer's
context. -/
def exFail (d : Dev) (l tag : Nat) : Dev := raiseFault d 0x8A89 l tag (exCtx d l)

/-- The placement of some expert of a layer cannot be read. -/
def placesBad (d : Dev) (l : Nat) : Bool :=
  d.mem.badRecs.any (fun r => (List.range (exNexp d l)).any (fun e => r == .placement l e))

/-- Cut `n` bytes at `j` into pieces of at most 4,096 B. -/
def exPieces (j n : Nat) : List (Nat × Nat) :=
  (List.range (ceilDiv n 4096)).map (fun i => ((j + 4096 * i) % 2 ^ 48, min 4096 (n - 4096 * i)))

/-- Read `n` bytes of job memory for a layer; a translation that cannot complete stops the context. -/
def exRead (d : Dev) (l j n : Nat) : Option (List Byte) × Dev :=
  (exPieces j n).foldl (fun s p =>
    match s.1 with
    | none => s
    | some bs =>
      match jobRead s.2 (exCluster d l) (exCtx d l) none [] p.1 p.2 with
      | (.bytes cs, d1) => (some (bs ++ cs), d1)
      | (.bad _, d1) => (none, d1)
      | (_, d1) => (none, raiseFault d1 0x8821 (exCtx d l) p.1 (exCtx d l))) (some [], d)

/-- Write bytes of job memory for a layer. -/
def exWrite (d : Dev) (l j : Nat) (bs : List Byte) : Dev :=
  (exPieces j bs.length).foldl (fun x p =>
    match jobWrite x (exCluster d l) (exCtx d l) (noDescriptor + 2) none p.1 ((bs.drop ((p.1 + (2 ^ 48 - j)) % 2 ^ 48)).take p.2) with
    | (.fault _ _, d1) => raiseFault d1 0x8821 (exCtx d l) p.1 (exCtx d l)
    | (_, d1) => d1) d

/-! ### Tags and windows (R491) -/

/-- The record of a tag. -/
def exTagAt (d : Dev) (l : Nat) (bwd : Bool) (tag : Nat) : ExTag :=
  (d.ex.tags.find? (fun t => t.layer == l && t.bwd == bwd && t.tag == tag)).getD (exTagReset l bwd tag)

/-- Store a tag's record. -/
def setExTag (d : Dev) (t : ExTag) : Dev :=
  let like := fun (x : ExTag) => x.layer == t.layer && x.bwd == t.bwd && x.tag == t.tag
  let known := d.ex.tags.any (fun x => like x)
  let ts := if known then d.ex.tags.map (fun x => if like x then t else x) else d.ex.tags ++ [t]
  { d with ex := { d.ex with tags := ts } }

/-- Window base and receipt map of a layer and kind: LOW starts as the queue's does (R308). DESIGN CHOICE, log 48. -/
def exWindow (d : Dev) (l : Nat) (bwd : Bool) : Nat × Nat :=
  let low := if !bwd && ctxHead d (exCtx d l) then 0 else cfg d 0x6103 0 % 2 ^ 24
  tget (low, 0) d.ex.windows (2 * l + b2n bwd)

/-- How a message's tag stands (R307, R491). -/
inductive ExWhere where
  | open_ | stale | ahead
  deriving DecidableEq, Repr

/-- The window check of R491. DESIGN CHOICE, log 48. -/
def exCheck (d : Dev) (l : Nat) (bwd : Bool) (tag : Nat) : ExWhere :=
  let w := exWindow d l bwd
  let r := tagDist w.1 tag
  if 8388608 ≤ r then .stale else if 256 ≤ r then .ahead else if bitAt w.2 r then .stale else .open_

/-- A completed tag leaves the window (R491). -/
def exClose (d : Dev) (l : Nat) (bwd : Bool) (tag : Nat) : Dev :=
  let w := exWindow d l bwd
  let m := slideWindow 257 w.1 (w.2 + 2 ^ tagDist w.1 tag)
  { endRec d (.pending l bwd tag) with ex := { d.ex with
    windows := tset d.ex.windows (2 * l + b2n bwd) m
    tags := d.ex.tags.filter (fun t => !(t.layer == l && t.bwd == bwd && t.tag == tag)) } }

def exMisrouted (d : Dev) (l : Nat) : Dev := raiseStep (bump d 0xA855 0 1) 0x4A85 l 0

/-- The tests every EXPERT message meets: enabled layer, a member, a placed slot, the window (R491). -/
def exAdmit (d : Dev) (src l : Nat) (bwd : Bool) (tag : Nat) (slotOk : Bool) (go : Nat → Dev → Dev) : Dev :=
  match exEn d l, grpRankOf d (exGroup d l) src with
  | true, some r =>
    if !slotOk then exMisrouted d l
    else
      match exCheck d l bwd tag with
      | .stale => raiseStep (bump d 0xA854 0 1) 0x4A83 l tag
      | .ahead => raiseFault d 0x8A84 l tag (exCtx d l)
      | .open_ => go r d
  | _, _ => exMisrouted d l

/-! ### Selection and capacity (R482, R483) -/

/-- Insert an expert behind every one that is not lower in score. -/
def insertScore (ss : List F32) (e : Nat) : List Nat → List Nat
  | [] => [e]
  | x :: xs =>
    if fxLt (ofF32 (ss.getD x f32Zero)) (ofF32 (ss.getD e f32Zero)) then e :: x :: xs else x :: insertScore ss e xs

/-- Experts in decreasing order of score, equal scores by lower index; none when a score is NaN (R482). -/
def exCandidates (ss : List F32) : List Nat :=
  if ss.any (fun s => isNan (ofF32 s)) then [] else (List.range ss.length).foldl (fun l e => insertScore ss e l) []

/-- Assignment in progress. -/
structure ExAssign where
  taken : Tab Nat
  held : Tab (List Nat)
  /-- Entries by `16·token + rank`. -/
  entries : Tab (Nat × Nat)
  drops : Nat
  reroutes : Nat
  deriving DecidableEq, Repr

/-- Give token `t` the next position of expert `e` at rank `i`. -/
def exKeep (s : ExAssign) (t i e : Nat) : ExAssign :=
  let p := tget 0 s.taken e
  { s with
    taken := tset s.taken e (p + 1)
    held := tset s.held t (tget [] s.held t ++ [e])
    entries := tset s.entries (16 * t + i) (e, p) }

/-- One choice (R483). -/
def exChoice (cap pol n k i : Nat) (cands : Nat → List Nat) (s : ExAssign) (t : Nat) : ExAssign :=
  match (cands t)[i]? with
  | none => s
  | some e =>
    if tget 0 s.taken e < cap then exKeep s t i e
    else
      let more := (((cands t).take (min 15 (n - 1) + 1)).drop k).find? (fun c =>
        !(tget [] s.held t).contains c && decide (tget 0 s.taken c < cap))
      match pol == 1, more with
      | true, some c => { exKeep s t i c with reroutes := s.reroutes + 1 }
      | _, _ => { s with drops := s.drops + 1 }

/-- The K passes over the tokens. DESIGN CHOICE, log 48. -/
def exAssignAll (cap pol n k ntok : Nat) (cands : Nat → List Nat) : ExAssign :=
  (List.range k).foldl (fun s i => (List.range ntok).foldl (exChoice cap pol n k i cands) s)
    { taken := [], held := [], entries := [], drops := 0, reroutes := 0 }

/-- The dropped entry (R479). -/
def exDropEntry : ExEntry := { expert := 0, pos := 0, drop := true, gate := f32Zero }

/-- The entries of one token with their gates (R483). -/
def exGates (renorm : Bool) (score : Nat → F32) (es : List (Option (Nat × Nat))) : List ExEntry :=
  let total := es.foldl (fun a e => match e with
    | some (x, _) => f32Add a (score x)
    | none => a) f32Zero
  es.map (fun e => match e with
    | some (x, p) =>
      { expert := x, pos := p, drop := false
        gate := if renorm then (if isZero (ofF32 total) then f32Zero else f32Div (score x) total) else score x }
    | none => exDropEntry)

/-- Selection of a micro-batch from its score words (R482, R483): the entries, the drops, the reroutes and the tokens
whose row held NaN. -/
def exSelect (d : Dev) (l : Nat) (scores : List F32) : List ExEntry × Nat × Nat × Nat :=
  let n := exNexp d l
  let ntok := exNtok d l
  let row := fun t => (scores.drop (t * n)).take n
  let cands := (List.range ntok).map (fun t => exCandidates (row t))
  let a := exAssignAll (exCap d l) (exPol d l) n (exK d l) ntok (fun t => cands.getD t [])
  let es := (List.range ntok).flatMap (fun t =>
    exGates (exRenorm d l) (fun e => (row t).getD e f32Zero) ((List.range (exK d l)).map (fun i => tfind a.entries (16 * t + i))))
  (es, a.drops, a.reroutes, (cands.filter (fun c => c.isEmpty)).length)

/-- An assignment entry's 8 bytes (R479). -/
def exEntryWord (e : ExEntry) : Nat := e.expert * 2 ^ 52 + e.pos * 2 ^ 36 + b2n e.drop * 2 ^ 35 + e.gate.toNat

/-! ### Messages (R484, R490) -/

/-- The ARG of an EXPERT message (R490). -/
def exArg (op l tag : Nat) (bwd : Bool) (slot pos part : Nat) : Nat :=
  op * 2 ^ 60 + l * 2 ^ 52 + tag * 2 ^ 28 + b2n bwd * 2 ^ 27 + slot * 2 ^ 21 + pos * 2 ^ 5 + part * 4

/-- Send a run of rows of one slot from position `pos` on: whole rows, as many as fit, or one row in parts (R484). -/
def exSendRows (d : Dev) (dst op l tag : Nat) (bwd : Bool) (slot pos row : Nat) (rows : List (List Byte)) : Dev :=
  let sendOne := fun (x : Dev) (p part : Nat) (bs : List Byte) =>
    relaySend x dst 9 3 0 l (exArg op l tag bwd slot p part) bs
  if 16320 < row then
    rows.zipIdx.foldl (fun x r =>
      (List.range (ceilDiv row 16320)).foldl (fun y k => sendOne y (pos + r.2) k ((r.1.drop (16320 * k)).take 16320)) x) d
  else
    let per := max 1 (16368 / max 1 row)
    (List.range (ceilDiv rows.length per)).foldl (fun x i =>
      sendOne x (pos + per * i) 0 (((rows.drop (per * i)).take per).flatMap id)) d

/-- FP32 values of a row in a format. -/
def rowVals (code : Nat) (bs : List Byte) : List F32 :=
  match fmtOfCode code with
  | some (f, _) => (unpackMem f bs).map (fun c => toF32 (fdecode f c))
  | none => []

/-- A row of FP32 values converted by RNE with SAT = 1. -/
def rowOf (code : Nat) (xs : List F32) : List Byte :=
  match fmtOfCode code with
  | some (f, _) => packMem f (xs.map (fun x => (convert f .rne 0 true (ofF32 x)).1))
  | none => []

/-! ### Landing (R484, R485, R492) -/

/-- The key of a row part. -/
def exKey (r slot pos part : Nat) : Nat := ((r * 64 + slot) * 65536 + pos) * 8 + part

/-- Write one row part at ROFF. -/
def exLand (d : Dev) (t : ExTag) (a0 key : Nat) (bs : List Byte) : Dev :=
  let l := t.layer
  exWrite d l ((a0 + exRoff d l + exPlace d l (key / 8 / 65536 % 64) (key / 8 / 65536 / 64) (key / 8 % 65536) + 16320 * (key % 8)) % 2 ^ 48) bs

/-- Bytes the pending region of a half holds. -/
def exPending (d : Dev) (half : Nat) : Nat :=
  sumN ((d.ex.tags.filter (fun t => exCluster d t.layer / 8 == half)).map (fun t =>
    sumN (t.pend.map (fun p => p.2.length)) + sumN (t.results.map (fun p => p.2.length))))

/-- The pending region of the layer's half takes `n` more bytes (R492). -/
def exRoom (d : Dev) (l n : Nat) : Bool :=
  let h := exCluster d l / 8
  decide (exPending d h + n ≤ cfg d 0xA821 (h + 1))

/-- A message or dispatch is held (R492). -/
def exHold (d : Dev) (l waited : Nat) : Dev := raiseStep (bump d 0xA856 0 waited) 0x4A87 0 l

/-- The row parts a message carries: key and bytes. -/
def exParts (r slot pos part row : Nat) (bs : List Byte) : List (Nat × List Byte) :=
  if 16320 < row then [(exKey r slot pos part, bs.take (min 16320 (row - 16320 * part)))]
  else (List.range (bs.length / max 1 row)).map (fun i => (exKey r slot (pos + i) 0, (bs.drop (row * i)).take row))

/-- R484: token rows arrive. -/
def expertRows (d : Dev) (src l : Nat) (bwd : Bool) (tag slot pos part : Nat) (bs : List Byte) (waited : Nat) : Dev :=
  exAdmit d src l bwd tag (decide (slot < exLocal d l)) (fun r x =>
    let t := exTagAt x l bwd tag
    let ps := exParts r slot pos part (exSent x l bwd) bs
    match t.a0 with
    | some a0 => setExTag (ps.foldl (fun y p => exLand y t a0 p.1 p.2) x) { t with landed := t.landed ++ ps.map Prod.fst }
    | none =>
      if exRoom x l bs.length then setExTag x { t with pend := t.pend ++ ps } else exHold x l waited)

/-- R485: a COUNT arrives from a rank: 64 U16 counts. -/
def expertCount (d : Dev) (src l : Nat) (bwd : Bool) (tag : Nat) (cs : List Nat) : Dev :=
  exAdmit d src l bwd tag true (fun r x =>
    let t := exTagAt x l bwd tag
    setExTag x { t with counts := tset t.counts r (padTo 64 0 cs) })

/-! ### Dispatch (R481, R484) -/

/-- Take the oldest doorbell of a layer. DESIGN CHOICE, log 49. -/
def takeBell (d : Dev) (l : Nat) (combine : Bool) : Option (ExBell × Dev) :=
  (d.ex.bells.find? (fun b => b.layer == l && b.combine == combine)).map (fun b =>
    (b, { d with ex := { d.ex with bells := d.ex.bells.erase b } }))

/-- The kept entries of a list of assignments with their token: (token, entry). -/
def exKept (d : Dev) (l : Nat) (es : List ExEntry) : List (Nat × ExEntry) :=
  (es.zipIdx.filter (fun e => !e.1.drop)).map (fun e => (e.2 / max 1 (exK d l), e.1))

/-- The entry of expert `e` at position `p`. -/
def exAtPos (ks : List (Nat × ExEntry)) (e p : Nat) : Option (Nat × ExEntry) := ks.find? (fun k => k.2.expert == e && k.2.pos == p)

/-- Rows of an expert in position order: token rows, each through `f`. -/
def exRowsOf (ks : List (Nat × ExEntry)) (e : Nat) (f : Nat → ExEntry → List Byte) : List (List Byte) :=
  (List.range (ks.filter (fun k => k.2.expert == e)).length).filterMap (fun p => (exAtPos ks e p).map (fun k => f k.1 k.2))

/-- Counts for a member's slots: the rows this device sends to each (R490). -/
def exCountsFor (d : Dev) (l dev : Nat) (ks : List (Nat × ExEntry)) : List Nat :=
  (List.range 64).map (fun s =>
    sumN (((exExperts d l dev).filter (fun e => (exHome d l e).2 == s)).map (fun e => (ks.filter (fun k => k.2.expert == e)).length)))

/-- Send the rows and one COUNT to every member, itself included. -/
def exSendAll (d : Dev) (l tag : Nat) (bwd : Bool) (ks : List (Nat × ExEntry)) (f : Nat → ExEntry → List Byte) : Dev :=
  let d1 := (List.range (exNexp d l)).foldl (fun x e =>
    let rows := exRowsOf ks e f
    if rows.isEmpty then x
    else exSendRows (bump x 0xA850 0 rows.length) (exHome d l e).1 0 l tag bwd (exHome d l e).2 0 (exSent d l bwd) rows) d
  (grpMembers d (exGroup d l)).foldl (fun x m =>
    relaySend x m 9 3 0 l (exArg 1 l tag bwd 0 0 0) ((exCountsFor d l m ks).flatMap (leBytes 2))) d1

/-- Route store slot of a tag. -/
def exRouteKey (d : Dev) (l tag : Nat) : Nat := 256 * l + tag % max 1 (cfg d 0xA823 0)

/-- Open a tag's record at its dispatch doorbell: entries, A0, and the rows that waited land. -/
def exOpen (d : Dev) (b : ExBell) (es : List ExEntry) : Dev :=
  let t := exTagAt d b.layer b.bwd b.tag
  let t1 := { t with a0 := some b.a0, entries := es, landed := t.landed ++ t.pend.map Prod.fst, pend := [] }
  setExTag (t.pend.foldl (fun x p => exLand x t b.a0 p.1 p.2) d) t1

/-- The dispatch of a FWD task. -/
def dispatchFwd (d : Dev) (b : ExBell) : Dev :=
  let l := b.layer
  match exRead d l ((b.a0 + exSoff d l) % 2 ^ 48) (exNtok d l * exNexp d l * 4) with
  | (none, d1) => d1
  | (some bs, d1) =>
    match exRead d1 l ((b.a0 + exXoff d l) % 2 ^ 48) (exNtok d l * exTbytes d l) with
    | (none, d2) => d2
    | (some xs, d2) =>
      let scores := (List.range (bs.length / 4)).map (fun i => BitVec.ofNat 32 (leVal ((bs.drop (4 * i)).take 4)))
      let s := exSelect d l scores
      let es := s.1
      let d3 := exWrite d2 l ((b.a0 + exAoff d l) % 2 ^ 48) (es.flatMap (fun e => leBytes 8 (exEntryWord e)))
      let d4 := { endRec d3 (.route (exRouteKey d l b.tag)) with ex := { d3.ex with routes := tset d3.ex.routes (exRouteKey d l b.tag) (b.tag, es) } }
      let d5 := bump (bump (bump d4 0xA851 0 s.2.1) 0xA852 0 s.2.2.1) 0xA853 0 s.2.2.2
      let d6 := if s.2.1 = 0 then d5 else raiseStep d5 0x4A81 l s.2.1
      let d7 := if s.2.2.2 = 0 then d6 else raiseStep d6 0x4A82 l s.2.2.2
      exSendAll (exOpen d7 b es) l b.tag false (exKept d l es) (fun t _ => (xs.drop (t * exTbytes d l)).take (exTbytes d l))

/-- The dispatch of a BWD task: the assignments come from the route store, rows are multiplied by their gates.
DESIGN CHOICE, log 48. -/
def dispatchBwd (d : Dev) (b : ExBell) : Dev :=
  let l := b.layer
  let rt := tget (b.tag, []) d.ex.routes (exRouteKey d l b.tag)
  let es := if rt.1 = b.tag then rt.2 else []
  match exRead d l ((b.a0 + exXoff d l) % 2 ^ 48) (exNtok d l * exEbytes d l) with
  | (none, d1) => d1
  | (some xs, d1) =>
    let d2 := exWrite d1 l ((b.a0 + exAoff d l) % 2 ^ 48) (es.flatMap (fun e => leBytes 8 (exEntryWord e)))
    exSendAll (exOpen d2 b es) l b.tag true (exKept d l es) (fun t e =>
      rowOf (exEfmt d l) ((rowVals (exEfmt d l) ((xs.drop (t * exEbytes d l)).take (exEbytes d l))).map (fun x => f32Mul x e.gate)))

/-- An invalid doorbell (R480). -/
def exBadBell (d : Dev) (b : ExBell) : Dev := raiseFault d 0x8A88 b.layer b.tag (exCtx d b.layer)

/-- R481: the oldest dispatch doorbell of a layer is taken by a wait of 1. A FWD whose route store slot holds an
earlier tag waits. A record of the exchange that cannot be read stops the context, and nothing is dispatched (R493).
DESIGN CHOICE, log 96. -/
def dispatchDoorbell (d : Dev) (l waited : Nat) : Dev :=
  match takeBell d l false with
  | none => d
  | some (b, d1) =>
    if b.bad then exBadBell d1 b
    else if !b.bwd && (match tfind d.ex.routes (exRouteKey d l b.tag) with
        | some r => r.1 != b.tag
        | none => false) then exHold d l waited
    else
      let w := semTake d1 (exCluster d l) (exDbd d l) 14 1
      if !w.1 then { w.2 with ex := d.ex }
      else if placesBad d l || eccBad d (.pending l b.bwd b.tag) || (b.bwd && eccBad d (.route (exRouteKey d l b.tag))) then
        exFail w.2 l b.tag
      else if b.bwd then dispatchBwd w.2 b else dispatchFwd w.2 b

/-- Parts of a row. -/
def exPartsOf (row : Nat) : Nat := if 16320 < row then ceilDiv row 16320 else 1

/-- R485: dispatch for a tag completes: count array and +0 fill are written, and DND is signalled. -/
def dispatchDone (d : Dev) (l : Nat) (bwd : Bool) (tag : Nat) : Dev :=
  let t := exTagAt d l bwd tag
  let n := exRanks d l
  let cnt := fun r s => (tget [] t.counts r).getD s 0
  let slots := List.range (exLocal d l)
  let cells := slots.flatMap (fun s => (List.range n).map (fun r => (s, r)))
  let allIn := cells.all (fun c => (List.range (cnt c.2 c.1)).all (fun p =>
    (List.range (exPartsOf (exSent d l bwd))).all (fun k => t.landed.contains (exKey c.2 c.1 p k))))
  match t.a0 with
  | some a0 =>
    if !t.dispatched && (List.range n).all (fun r => (tfind t.counts r).isSome) && allIn then
      let arr := cells.flatMap (fun c => leBytes 2 (cnt c.2 c.1))
      let d1 := exWrite d l ((a0 + exAoff d l + 8 * (exNtok d l * exK d l)) % 2 ^ 48) arr
      let d2 := cells.foldl (fun x c =>
        let from_ := cnt c.2 c.1
        exWrite x l ((a0 + exRoff d l + exPlace d l c.1 c.2 from_) % 2 ^ 48)
          (List.replicate ((exCap d l - from_) * exW d l) 0#8)) d1
      semSignal (setExTag d2 { t with dispatched := true }) (exCluster d l) (exDnd d l) 1 (exCtx d l)
    else d
  | none => d

/-! ### Combine (R486 to R488) -/

/-- Write the output row of a token, and note it. -/
def exPutRow (d : Dev) (t : ExTag) (a0 tok : Nat) (xs : List F32) : Dev :=
  let l := t.layer
  let d1 := exWrite d l ((a0 + exYoff d l + tok * rowBytes (exHid d l) (exOfmt d l)) % 2 ^ 48) (rowOf (exOfmt d l) xs)
  let u := exTagAt d1 l t.bwd t.tag
  setExTag d1 { u with written := u.written ++ [tok] }

/-- The result row of an entry, once every part is in. -/
def exResult (d : Dev) (t : ExTag) (e : ExEntry) : Option (List F32) :=
  let h := exHome d t.layer e.expert
  match grpRankOf d (exGroup d t.layer) h.1 with
  | none => none
  | some r =>
    let parts := (List.range (exPartsOf (exEbytes d t.layer))).map (fun k => tfind t.results (exKey r h.2 e.pos k))
    if parts.all Option.isSome then some (rowVals (exEfmt d t.layer) (parts.flatMap (fun p => p.getD []))) else none

/-- The output row of a token from its kept entries in rank order (R487). -/
def exCombine (bwd : Bool) (hid : Nat) (rows : List (F32 × List F32)) : List F32 :=
  rows.foldl (fun acc g => acc.zipWith (fun a o => f32Add a (if bwd then o else f32Mul g.1 o)) g.2)
    (List.replicate hid f32Zero)

/-- Form the output row of a token when all its results are present. -/
def exToken (d : Dev) (l : Nat) (bwd : Bool) (tag tok : Nat) : Dev :=
  let t := exTagAt d l bwd tag
  match t.a0 with
  | none => d
  | some a0 =>
    if t.written.contains tok then d
    else
      let es := ((t.entries.drop (tok * exK d l)).take (exK d l)).filter (fun e => !e.drop)
      let rs := es.map (fun e => (exResult d t e).map (fun r => (e.gate, r)))
      if eccBad d (.pending l bwd tag) then exFail d l tag
      else if rs.all Option.isSome then exPutRow d t a0 tok (exCombine bwd (exHid d l) (rs.filterMap id)) else d

/-- Read `n` rows of `row` bytes that lie `w` bytes apart from job address `j` on; none when one cannot be read. -/
def exReadRows (l j w row : Nat) : Nat → Dev → Option (List (List Byte)) × Dev
  | 0, d => (some [], d)
  | n + 1, d =>
    match exRead d l (j % 2 ^ 48) row with
    | (none, d1) => (none, d1)
    | (some bs, d1) =>
      let r := exReadRows l (j + w) w row n d1
      (r.1.map (fun rows => bs :: rows), r.2)

/-- R486: the oldest combine doorbell of a layer is taken: each counted row at QOFF goes back to its source. Tokens
without a kept entry get their row of +0. -/
def combineDoorbell (d : Dev) (l : Nat) : Dev :=
  match takeBell d l true with
  | none => d
  | some (b, d1) =>
    if b.bad then exBadBell d1 b
    else
      let w := semTake d1 (exCluster d l) (exDbc d l) 14 1
      if !w.1 then { w.2 with ex := d.ex }
      else if placesBad d l || eccBad d (.pending l b.bwd b.tag) then exFail w.2 l b.tag
      else
        let t := exTagAt w.2 l b.bwd b.tag
        let row := exEbytes d l
        let d2 := setExTag w.2 { t with combined := true }
        let d3 := (List.range (exLocal d l)).foldl (fun x s => (List.range (exRanks d l)).foldl (fun y r =>
          let n := (tget [] t.counts r).getD s 0
          let rd := exReadRows l (b.a0 + exQoff d l + exPlace d l s r 0) (exW d l) row n y
          match rd.1 with
          | some rows => exSendRows rd.2 (grpMember d (exGroup d l) r) 2 l b.tag b.bwd s 0 row rows
          | none => rd.2) x) d2
        (List.range (exNtok d l)).foldl (fun x tok =>
          if ((t.entries.drop (tok * exK d l)).take (exK d l)).all (fun e => e.drop) then exToken x l b.bwd b.tag tok else x) d3

/-- R487: result rows arrive at the source; each token whose results are all present gets its output row. -/
def expertResult (d : Dev) (src l : Nat) (bwd : Bool) (tag slot pos part : Nat) (bs : List Byte) (waited : Nat) : Dev :=
  exAdmit d src l bwd tag ((exExperts d l src).any (fun e => (exHome d l e).2 == slot)) (fun r x =>
    if !exRoom x l bs.length then exHold x l waited
    else
      let t := exTagAt x l bwd tag
      let ps := exParts r slot pos part (exEbytes x l) bs
      let x1 := setExTag x { t with results := ps.foldl (fun m p => tset m p.1 p.2) t.results }
      (List.range (exNtok d l)).foldl (fun y tok => exToken y l bwd tag tok) x1)

/-- R488: every output row is written and every result row sent has been acknowledged: DNC is signalled, the tag
completes, and a BWD frees the route store slot. DESIGN CHOICE, log 48. -/
def combineDone (d : Dev) (l : Nat) (bwd : Bool) (tag : Nat) : Dev :=
  let t := exTagAt d l bwd tag
  if t.combined && t.dispatched && (List.range (exNtok d l)).all (fun k => t.written.contains k) then
    let d1 := exClose d l bwd tag
    let d2 := if bwd then { endRec d1 (.route (exRouteKey d l tag)) with ex := { d1.ex with routes := tdel d1.ex.routes (exRouteKey d l tag) } } else d1
    semSignal d2 (exCluster d l) (exDnc d l) 1 (exCtx d l)
  else d

/-- R491: an UNREACH for an EXPERT message. FLOW names the layer. -/
def exUnreach (d : Dev) (head : Nat) : Dev :=
  let l := fld head 23 16
  raiseFault d 0x8A86 l (fld head 55 44) (exCtx d l)

/-- The layer rows whose doorbell a SIG of a context rings on a cluster (R480): (layer, combine). -/
def bellLayers (d : Dev) (c g num : Nat) : List (Nat × Bool) :=
  ((keyedKeys d 0xA812).filter (fun l => exEn d l && exCtx d l == c && exCluster d l == g)).flatMap (fun l =>
    (if exDbd d l = num then [(l, false)] else []) ++ (if exDbc d l = num then [(l, true)] else []))

/-- R480: the sequencer delivers a task's tag, kind, step and A0 with a doorbell signal. DESIGN CHOICE, log 49. -/
def ringBells (d : Dev) (c from_ g num amount : Nat) (bwd : Bool) (tag step a0 : Nat) : Dev :=
  { d with ex := { d.ex with bells := d.ex.bells ++ (bellLayers d c g num).map (fun l =>
    { layer := l.1, combine := l.2, bwd, tag, step, a0, bad := amount != 1 || from_ != g }) } }

end Sys2Proof.Machine
end

