-- ==== Sys2Proof/Machine/Fill.lean ====
section
/-! DEFINITION. Filling memory with random values and reproducing a draw (chapter 13). -/

namespace Sys2Proof.Machine

/-! ### The RngFill record (R386) -/

def rfDist (r : Nat) : Nat := fld r 319 318
def rfFmt (r : Nat) : Nat := fld r 317 314
def rfStream (r : Nat) : Nat := fld r 313 302
def rfDaddr (r : Nat) : Nat := fld r 287 240
def rfPos (r : Nat) : Nat := fld r 239 192
def rfCount (r : Nat) : Nat := fld r 191 160
def rfStep (r : Nat) : Nat := fld r 127 64
def rfP1 (r : Nat) : F32 := BitVec.ofNat 32 (fld r 63 32)
def rfP2 (r : Nat) : F32 := BitVec.ofNat 32 (fld r 31 0)

/-- Bytes of an element. -/
def rfBytes (r : Nat) : Nat :=
  match fmtOfCode (rfFmt r) with
  | some (f, _) => storedWidth f
  | none => 1

/-- The record is one the random units take (R386, R387). -/
def rfValid (r : Nat) : Bool :=
  rfDist r != 3 && decide (rfFmt r ≤ 4) && fld r 301 288 == 0 && fld r 159 128 == 0 && rfCount r != 0 &&
    rfDaddr r % rfBytes r == 0

/-- U(w) (R387). -/
def rngUnit (w : Nat) : F32 := toF32 (.fin false (w / 256) (2 ^ 24))

/-- The FP32 value of the element at position `p` (R387). -/
def fillValue (seed r p : Nat) : F32 :=
  let blk := fun b => rngBlock seed (rfStream r) (rfStep r) b
  let w := quadWord (blk (p / 4)) (p % 4)
  match rfDist r with
  | 0 => f32Add (rfP1 r) (f32Mul (f32Sub (rfP2 r) (rfP1 r)) (rngUnit w))
  | 1 =>
    let wa := quadWord (blk (p / 2)) (2 * (p % 2))
    let wb := quadWord (blk (p / 2)) (2 * (p % 2) + 1)
    let u := f32Add (rngUnit wa) (toF32 (.fin false 1 (2 ^ 24)))
    let a := sqrtFn (f32Mul (toF32 (.fin true 2 1)) (logFn u))
    f32Add (rfP1 r) (f32Mul (f32Mul (rfP2 r) a) (near2 (fixCosTurn (fixOf (ofF32 (rngUnit wb)))) (Config.funcPick 15 (rngUnit wb) f32Zero)))
  | _ => if fxLt (ofF32 (rngUnit w)) (ofF32 (rfP1 r)) then f32One else f32Zero

/-- The bytes of element `i`. -/
def fillBytes (seed r i : Nat) : List Byte :=
  match fmtOfCode (rfFmt r) with
  | some (f, _) => packElems f [(convert f .rne 0 true (ofF32 (fillValue seed r ((rfPos r + i) % 2 ^ 48)))).1]
  | none => []

/-- A fill as it goes: elements written, and the job address of the page that ended it. -/
structure FillRun where
  dev : Dev
  written : Nat
  stop : Option Nat
  /-- The 64 KiB page translated last, and its device address. -/
  page : Option (Nat × Nat)
  deriving DecidableEq, Repr

/-- The device address of a 64 KiB page of job memory for writing; none for a host window page or a fault (R388).
DESIGN CHOICE, log 50. -/
def fillPage (d : Dev) (j : Nat) : Option Nat × Dev :=
  match translate d 16 (j / 65536 * 65536) true with
  | (.dev a _, d1) => (if accessible d1 a 65536 then some a else none, d1)
  | (_, d1) => (none, d1)

/-- Write element `i` unless the fill has ended: the management controller, in half 0, writes it (R213, R386, R660). -/
def fillElem (r : Nat) (s : FillRun) (i : Nat) : FillRun :=
  match s.stop with
  | some _ => s
  | none =>
    let j := (rfDaddr r + i * rfBytes r) % 2 ^ 48
    let put := fun (d : Dev) (a : Nat) => writeThrough d 0 0 (a + j % 65536) (fillBytes (cfg d 0xCE10 0) r i)
    match s.page with
    | some (p, a) =>
      if p = j / 65536 then { s with dev := put s.dev a, written := s.written + 1 }
      else
        match fillPage s.dev j with
        | (some b, d1) => { dev := put d1 b, written := s.written + 1, stop := none, page := some (j / 65536, b) }
        | (none, d1) => { s with dev := d1, stop := some (j / 65536 * 65536) }
    | none =>
      match fillPage s.dev j with
      | (some b, d1) => { dev := put d1 b, written := s.written + 1, stop := none, page := some (j / 65536, b) }
      | (none, d1) => { s with dev := d1, stop := some (j / 65536 * 65536) }

/-- R386: a write to RngFill is taken while the job is idle; its reply stays pending. DESIGN CHOICE, log 50. -/
def rngFill (d : Dev) (r : Nat) : Dev :=
  if d.seq.job != .idle then send d (.status 0xCE40 0 6)
  else if d.fill.isSome then send d (.status 0xCE40 0 8)
  else if !rfValid r then send d (.status 0xCE40 0 5)
  else send { d with fill := some r } (.status 0xCE40 0 1)

/-- R387, R388: the fill's elements are written, up to a page it cannot use, and its reply completes.
DESIGN CHOICE, log 50. -/
def rngFillDone (d : Dev) : Dev :=
  match d.fill with
  | none => d
  | some r =>
    let s := (List.range (rfCount r)).foldl (fillElem r) { dev := { d with fill := none }, written := 0, stop := none, page := none }
    let d1 := setObj (setObj s.dev 0xCE41 0 s.written) 0xCE42 0 (s.stop.getD 0)
    send d1 (.done 0xCE40 0 (if s.stop.isSome then 6 else 0))

/-- The 18 bytes of RngProbeRead as one value, byte 0 lowest (R389). -/
def probeValue (d : Dev) (sel : Nat) : Nat :=
  let p := fld sel 111 64
  let seed := cfg d 0xCE10 0
  quadVal (rngBlock seed (fld sel 127 116) (fld sel 63 0) (p / 8)) + draw16 seed (fld sel 127 116) (fld sel 63 0) p * 2 ^ 128

/-- R389: a probe selects a draw; a record with a bit of [115:112] set is out of range. -/
def rngProbe (d : Dev) (sel : Nat) : Dev :=
  if fld sel 115 112 ≠ 0 then send d (.status 0xCE30 0 5)
  else send (setObj (setObj d 0xCE30 0 (sel % 2 ^ 128)) 0xCE31 0 (probeValue d sel)) (.status 0xCE30 0 0)

end Sys2Proof.Machine
end

