-- ==== Sys2Proof/Machine/Integrity.lean ====
section
/-! DEFINITION. Scrubbing and the check-value units (chapter 23). -/

namespace Sys2Proof.Machine

/-! ### Scrubbing (R620 to R623) -/

/-- Lines of a scrubber's memory: a near tier (units 0 to 3) or a far site (16 to 31). -/
def scrubLines (u : Nat) : Nat := if u < 16 then 8388608 else 312500000

/-- Device address of line `k` of a scrubber. DESIGN CHOICE, log 78. -/
def scrubAddr (u k : Nat) : Nat :=
  if u < 16 then u / 2 * nearSize + (2 * k + u % 2) * 256 else farBase ((u - 16) / 8) + (8 * k + u % 8) * 256

/-- Every scrubber of the kind has completed a pass since the last 0x0D82 (R623). -/
def passedAll (t : Tab Nat) (near : Bool) : Bool :=
  if near then (List.range 4).all (fun u => tget 0 t u == 1) else (List.range 16).all (fun u => tget 0 t (16 + u) == 1)

/-- A scrubber has completed a pass. DESIGN CHOICE, log 78. -/
def scrubWrap (d : Dev) (u : Nat) : Dev :=
  let near := decide (u < 16)
  let d1 := if near then bump d 0xD822 (u + 1) 1 else bump d 0xD823 (u - 15) 1
  let t := tset d1.mem.scrubPass u 1
  if passedAll t near then
    raise { d1 with mem := { d1.mem with scrubPass := t.filter (fun e => if near then decide (16 ≤ e.1) else decide (e.1 < 16)) } }
      0x0D82 (b2n (!near)) 0
  else { d1 with mem := { d1.mem with scrubPass := t } }

/-- R620 to R622: a scrubber reads its next line: a word with one wrong bit is corrected and written back (R619), counted and
counts toward the threshold (R230); an uncorrectable word is left and reported. An interval of 0 stops it.
DESIGN CHOICE, log 78. -/
def scrubLine (d : Dev) (u : Nat) : Dev :=
  let near := decide (u < 4)
  let far := decide (16 ≤ u ∧ u < 32)
  let on := if near then cfg d 0xD820 0 != 0 else far && cfg d 0xD821 0 != 0 && d.mem.farInitDone
  if !on then d
  else
    let k := tget 0 d.mem.scrub u
    let a := scrubAddr u k
    let fixed := ceIn d.mem a 256
    let n := fixed.length
    let d0 := { d with mem := { d.mem with ce := d.mem.ce.filter (fun w => !fixed.contains w) } }
    let d1 := if n = 0 then d
      else ceNote (bump d0 0xD824 0 n) (if near then 0x4802 else 0x4804) (if near then u else u - 16) (cfg d 0x8060 0) n
    let d2 := (ueIn d1.mem (scrubAddr u k) 256).foldl (fun x w => raise (bump x 0xD825 0 1) 0x4D81 w 0) d1
    let next := if k + 1 = scrubLines u then 0 else k + 1
    let d3 := { d2 with mem := { d2.mem with scrub := tset d2.mem.scrub u next } }
    if next = 0 then scrubWrap d3 u else d3

/-! ### Units (R628 to R636) -/

def cvAt (d : Dev) (u : Nat) : CvUnit := tget cvUnitReset d.cv.units u
def setCv (d : Dev) (u : Nat) (x : CvUnit) : Dev := { d with cv := { d.cv with units := tset d.cv.units u x } }

/-- The POLY and FOLD a unit is set to. -/
def cvPoly (d : Dev) (u : Nat) : Nat := fld (cfg d 0xD802 (u + 1)) 31 30
def cvFold (d : Dev) (u : Nat) : Nat := fld (cfg d 0xD802 (u + 1)) 29 28

/-- R628: a write of CvConfig. -/
def cvConfig (d : Dev) (u v : Nat) : Dev :=
  if 8 ≤ u ∨ fld v 29 28 = 3 ∨ fld v 27 0 ≠ 0 then send d (.status 0xD802 (u + 1) 5)
  else if (cvAt d u).scan.isSome then send d (.status 0xD802 (u + 1) 6)
  else
    let x := { cvAt d u with run := (polyOf (fld v 31 30)).init, count := 0, err := false }
    send (setObj (setCv d u x) 0xD802 (u + 1) v) (.status 0xD802 (u + 1) 0)

/-- Take data bytes into a unit. -/
def cvTake (d : Dev) (u : Nat) (bs : List Byte) : Dev :=
  let x := cvAt d u
  setCv d u { x with run := crcBytes (polyOf (cvPoly d u)) x.run bs, count := (x.count + bs.length) % 2 ^ 40 }

/-- A register feed of `n` bytes (R629). DESIGN CHOICE, log 21. -/
def cvFeed (d : Dev) (idx u v n : Nat) (spare : Bool) : Dev :=
  if 8 ≤ u ∨ spare then send d (.status idx 0 5)
  else if (cvAt d u).scan.isSome then send d (.status idx 0 6)
  else send (cvTake d u (leBytes n v)) (.status idx 0 0)

/-- R629. -/
def cvFeed8 (d : Dev) (v : Nat) : Dev := cvFeed d 0xD804 (fld v 15 8) (fld v 7 0) 1 false
def cvFeed16 (d : Dev) (v : Nat) : Dev := cvFeed d 0xD805 (fld v 31 24) (fld v 15 0) 2 (fld v 23 16 != 0)
def cvFeed32 (d : Dev) (v : Nat) : Dev := cvFeed d 0xD806 (fld v 63 56) (fld v 31 0) 4 (fld v 55 32 != 0)

/-- A scan's range holds no reserved address and no part of a cache (R630). DESIGN CHOICE, log 21. -/
def scanOk (d : Dev) (a n : Nat) : Bool :=
  if a + n ≤ 2 * nearSize then
    [0, 1].all (fun h =>
      let lo := h * nearSize + cacheStart d h
      decide (a + n ≤ lo) || decide ((h + 1) * nearSize ≤ a) || decide ((h + 1) * nearSize ≤ lo))
  else [0, 1].any (fun h => decide (farBase h ≤ a ∧ a + n ≤ farBase h + farSize))

/-- R630, R633: a write to CvScan. -/
def cvScan (d : Dev) (r : Nat) : Dev :=
  let u := fld r 127 125
  let a := fld r 111 64
  let n := fld r 63 32
  if fld r 124 112 ≠ 0 ∨ fld r 31 0 ≠ 0 ∨ n = 0 ∨ !scanOk d a n then send d (.status 0xD807 0 5)
  else
    let x := cvAt d u
    if x.scan.isSome then send d (.status 0xD807 0 6)
    else
      let y := { x with scan := some (a, n), foldAddr := if x.count = 0 then a else x.foldAddr }
      send (setCv d u y) (.status 0xD807 0 1)

/-- A byte as a scan delivers it: of the device region, the ledger homes (R92, R197) and past them the working structures of
other subsystems, whose bytes the manual does not give; elsewhere memory. DESIGN CHOICE, log 21. -/
def scanByte (d : Dev) (k a : Nat) : Byte :=
  match regionOf a with
  | .near h off =>
    if off < 5242880 then BitVec.ofNat 8 (ledgerWord (ledgerAt d (2 * (off / 160) + h)) / 2 ^ (8 * (off % 160)))
    else if off < deviceRegion then Config.deviceByte k a
    else memByte d.mem a
  | _ => memByte d.mem a

/-- The lowest uncorrectable word of a range. -/
def firstUe (m : Mem) (a n : Nat) : Option Nat :=
  match ueIn m a n with
  | [] => none
  | w :: ws => some (ws.foldl min w)

/-- The bytes of a scanned range, and the device: the management controller, in half 0, reads it through the
caches (R202, R212, R660), and its corrected words are counted (R230). -/
def scanRead (d : Dev) (a n : Nat) : List Byte × Dev :=
  let r := nextFree (noteCorrects (noteRemote (cacheLines d a n 0 false) 0 a n) a n)
  ((List.range n).map (fun i => scanByte d r.1 (a + i)), r.2)

/-- R630, R631: a scan ends: every byte has been folded, or those before an uncorrectable word.
DESIGN CHOICE, log 21. -/
def cvScanDone (d : Dev) (u : Nat) : Dev :=
  match (cvAt d u).scan with
  | none => d
  | some (a, n) =>
    let d1 := setCv d u { cvAt d u with scan := none }
    match firstUe d.mem a n with
    | none => send (cvTake (scanRead d1 a n).2 u (scanRead d1 a n).1) (.done 0xD807 u 0)
    | some w =>
      let r := scanRead d1 a (w - a)
      let d2 := cvTake r.2 u r.1
      let d3 := noteUe (setCv d2 u { cvAt d2 u with err := true }) 64 [w]
      send (raise d3 0x8D83 u w) (.done 0xD807 u 6)

/-- R638: an enabled channel compares the result of its unit. -/
def cvCompare (u value : Nat) (err : Bool) (d : Dev) (ch : Nat) : Dev :=
  let r := tget 0 d.cv.channels ch
  if bitAt r 127 && fld r 125 123 == u && (err || fld r 63 0 != value) then
    raise (bump { d with cv := { d.cv with channels := tset d.cv.channels ch (setBit r 126 true) } } 0xD80B 0 1) 0x8D84
      (ch * 8 + u) value
  else d

/-- R632: a write to CvFinish. -/
def cvFinish (d : Dev) (u : Nat) : Dev :=
  if 8 ≤ u then send d (.status 0xD808 0 5)
  else
    let x := cvAt d u
    if x.scan.isSome then send d (.status 0xD808 0 6)
    else
      let p := polyOf (cvPoly d u)
      let fold := cvFold d u
      let bs := if fold = 1 then leBytes 8 x.foldAddr else if fold = 2 then leBytes 4 x.seq else []
      let v := crcBytes p x.run bs ^^^ p.xorOut
      let fin := (fld x.result 19 4 + 1) % 65536
      let res := v * 2 ^ 64 + x.count * 2 ^ 24 + cvPoly d u * 2 ^ 22 + fold * 2 ^ 20 + fin * 2 ^ 4 + b2n x.err * 2 + 1
      let y := { x with run := p.init, count := 0, result := res, seq := if fold = 2 then (x.seq + 1) % 2 ^ 32 else x.seq }
      send ((List.range 8).foldl (cvCompare u v x.err) (setCv d u y)) (.status 0xD808 0 0)

/-- R634: a write of CvState loads a unit. -/
def cvStateLoad (d : Dev) (u v : Nat) : Dev :=
  if 8 ≤ u then send d (.status 0xD803 (u + 1) 5)
  else if (cvAt d u).scan.isSome then send d (.status 0xD803 (u + 1) 6)
  else
    let w := (polyOf (cvPoly d u)).width
    let x := { cvAt d u with run := fld v 191 128 % 2 ^ w, foldAddr := fld v 127 80, seq := fld v 79 48, count := fld v 47 8
                             err := false }
    send (setCv d u x) (.status 0xD803 (u + 1) 0)

/-- `CvState` (R634). -/
def cvState (d : Dev) (u : Nat) : Nat :=
  let x := cvAt d u
  x.run * 2 ^ 128 + x.foldAddr * 2 ^ 80 + x.seq * 2 ^ 48 + x.count * 2 ^ 8 + b2n x.scan.isSome * 2 ^ 7 + b2n x.err * 2 ^ 6

/-- R637, R639: privileged code writes a channel row; MIS stays unless it writes 0 there. DESIGN CHOICE, log 21. -/
def cvCompareSet (d : Dev) (ch v : Nat) : Dev :=
  if 8 ≤ ch then d
  else
    let old := tget 0 d.cv.channels ch
    let w := setBit (setFld (v % 2 ^ 128) 122 64 0) 126 (bitAt old 126 && bitAt v 126)
    { d with cv := { d.cv with channels := tset d.cv.channels ch w } }

end Sys2Proof.Machine
end

