-- ==== Sys2Proof/Machine/Ranges.lean ====
section
/-! DEFINITION. The objects' own ranges (R531) and the records of the staging set (R552 to R554, R720). -/

namespace Sys2Proof.Machine

/-- A value lies in `lo .. hi`. -/
def within (lo hi v : Nat) : Bool := decide (lo ≤ v ∧ v ≤ hi)

/-- An FP32 word as an exact value. -/
def f32Of (v : Nat) : Fx := ofF32 (BitVec.ofNat 32 v)

/-- 2 MiB, the granularity of regions. -/
def twoMiB : Nat := 0x200000

/-! ### Keyed objects (R720) -/

/-- The keyed objects. -/
def isKeyed (idx : Nat) : Bool := [0x5012, 0x6812, 0x6912, 0x9022, 0xA012, 0xA015, 0xA812, 0xA815].contains idx

/-- Bytes of the key that leads a record. -/
def keyBytes (idx : Nat) : Nat := if idx = 0xA812 then 1 else 2

/-- The entries of a written keyed value: (key, entry). `ExPlaceStage` carries 1 to 32 (R476); its key is held as
layer · 65,536 + expert. DESIGN CHOICE, log 58. -/
def keyedEntries (idx v : Nat) : List (Nat × Nat) :=
  if idx = 0xA815 then
    (List.range (fld v 31 24)).map (fun i => (fld v 7 0 * 65536 + fld v 23 8 + i, fld v (32 * i + 63) (32 * i + 32)))
  else [(v % 2 ^ (8 * keyBytes idx), v >>> (8 * keyBytes idx))]

/-- The keys a table has. -/
def keyLimit (idx : Nat) : Nat :=
  if idx = 0x5012 then 65536 else if idx = 0xA012 then 1024 else if idx = 0xA812 then 256 else 4096

/-- The own range of a keyed value: its key names an entry, and `ExPlaceStage`'s count and experts are in range. -/
def keyedOk (idx v : Nat) : Bool :=
  if idx = 0xA815 then within 1 32 (fld v 31 24) && decide (fld v 23 8 + fld v 31 24 ≤ 4096)
  else decide (v % 2 ^ (8 * keyBytes idx) < keyLimit idx)

/-! ### Own ranges (R531) -/

/-- A rate of R208 in Mbit/s. -/
def farRateOk (v : Nat) : Bool := [10667, 9600, 8533, 7500, 6400].contains v

/-- The three thresholds of HmThresholds, each above the one before. -/
def thresholdsOk (v : Nat) : Bool :=
  fxLt (f32Of (fld v 31 0)) (f32Of (fld v 63 32)) && fxLt (f32Of (fld v 63 32)) (f32Of (fld v 95 64))

/-- The own range of an object's value, apart from its type (R531). -/
def ownRange (idx v : Nat) : Bool :=
  match idx with
  | 0x1102 => within 1000 10000000 v
  | 0x5021 => within 1 1024 v
  | 0x5030 => within 0 15 v
  | 0x5031 => within 0 8 v
  | 0x5050 => within 0 999999 v
  | 0x5051 => within 1 65535 v
  | 0x6010 => fld v 47 0 % 64 == 0
  | 0x6820 => within 0 256 (fld v 15 0)
  | 0x8040 => fld v 127 64 % 65536 == 0
  | 0xC104 => fld v 119 72 % 256 == 0 && fld v 71 24 % 256 == 0
  | 0x8020 | 0x8021 | 0x6830 | 0x6930 | 0xA020 | 0xA022 | 0xA820 | 0xC102 => v % twoMiB == 0
  | 0x6831 => v % 65536 == 0
  | 0x7011 => within 1 16 v
  | 0x7012 => within 0 32 v
  | 0x7013 => within 0 1 v
  | 0x8002 => within 0 8 v
  | 0x8010 | 0x8011 => farRateOk v
  | 0x8030 | 0xA026 => v % 256 == 0
  | 0x8101 => within 1 24 v
  | 0x8102 | 0x9017 | 0x9018 => within 1 255 v
  | 0x9010 => within 0 4095 v
  | 0x9013 | 0x9014 => [200, 100, 50].contains v
  | 0xA016 => within 1 2 v
  | 0xA823 => within 1 256 v && popCount 9 v == 1
  | 0xB010 => within 0 6 v
  | 0xC004 => !fxLt (f32Of v) (fxNat 0) && !fxLt (fxNat 1) (f32Of v) && isFin (f32Of v)
  | 0xC005 => thresholdsOk v
  | 0xC006 => within 1 64 v
  | 0xC204 => within 0 63 v || v == 0xFF
  | 0xCE13 => within 1 0xFFFFFFFF v
  | 0xE013 => within 1000 3200 v
  | 0xE021 => within 80 105 v
  | 0xE022 => within 90 110 v
  | 0xE031 => within 0 1 v
  | 0xE032 => v == 0 || within 100 60000 v
  | _ => true

/-- A value lies in its object's range. -/
def rangeOk (r : ObjRow) (v : Nat) : Bool :=
  (!r.isBool || decide (v ≤ 1)) && (if isKeyed r.idx then keyedOk r.idx v else ownRange r.idx v)

/-! ### The staging set -/

/-- A staging key. -/
def stageKey (idx sub key : Nat) : Nat := idx * 2 ^ 32 + sub * 2 ^ 24 + key

/-- Index, subindex and key of a staging key. -/
def keyIdx (k : Nat) : Nat := k / 2 ^ 32
def keySub (k : Nat) : Nat := k / 2 ^ 24 % 256
def keyKey (k : Nat) : Nat := k % 2 ^ 24

/-- Value bytes of a record. -/
def recLen (k : Nat) : Nat := objBytes (keyIdx k)

/-- The value of a staged record as it was written: for a keyed object the key bytes, then the entry; for
`ExPlaceStage` a record of count 1 (R720). -/
def recValue (k v : Nat) : Nat :=
  if keyIdx k = 0xA815 then keyKey k / 65536 + keyKey k % 65536 * 2 ^ 8 + 2 ^ 24 + v * 2 ^ 32
  else if isKeyed (keyIdx k) then keyKey k + v * 2 ^ (8 * keyBytes (keyIdx k))
  else v

/-- The bytes a record contributes to a digest (R554). DESIGN CHOICE, log 58. -/
def recBytes (e : Nat × Nat) : List Byte :=
  leBytes 2 (keyIdx e.1) ++ leBytes 1 (keySub e.1) ++ leBytes 2 (recLen e.1) ++ leBytes (recLen e.1) (recValue e.1 e.2)

/-- Value bytes of a set of records. -/
def recsBytes (t : Tab Nat) : Nat := sumN (t.map (fun e => recLen e.1))

/-- Stage entries of one object. -/
def stageAll (t : Tab Nat) : List (Nat × Nat) → Tab Nat
  | [] => t
  | e :: es => stageAll (tset t e.1 e.2) es

/-- The records one write stages. -/
def writeRecs (idx sub v : Nat) : List (Nat × Nat) :=
  if isKeyed idx then (keyedEntries idx v).map (fun e => (stageKey idx 0 e.1, e.2)) else [(stageKey idx sub 0, v)]

/-- The value an object or entry has in force (R529). -/
def inForce (d : Dev) (k : Nat) : Nat :=
  if isKeyed (keyIdx k) then keyedAt d (keyIdx k) (keyKey k) else cfg d (keyIdx k) (keySub k)

/-- Ledger records in a staging set (R138). -/
def ledgerRecs (t : Tab Nat) : Nat := (t.filter (fun e => keyIdx e.1 == 0x5012)).length

/-- R553: the staging set's limits. -/
def stageFits (t : Tab Nat) : Bool :=
  decide (t.length ≤ 262144 ∧ recsBytes t ≤ 16777216 ∧ ledgerRecs t ≤ 4096)

/-- R552, R553: stage a value that has passed its own checks: the status, and the device. -/
def stageWrite (d : Dev) (idx sub v : Nat) : Nat × Dev :=
  let t := stageAll d.gn.staged (writeRecs idx sub v)
  if stageFits t then (0, { d with gn := { d.gn with staged := t } }) else (6, d)

/-- The staged value, or the value in force (R529). -/
def stagedAt (d : Dev) (k : Nat) : Nat := (tfind d.gn.staged k).getD (inForce d k)

end Sys2Proof.Machine
end

