-- ==== Sys2Proof/Machine/Checks.lean ====
section
/-! DEFINITION. The combined consistency check (R555): every rule that makes a generation fail it, tested on the
device as it would stand with the generation applied. -/

namespace Sys2Proof.Machine

/-- A failing test: index and subindex of the object concerned, CAUSE (R556) and the rule. -/
structure GenFail where
  idx : Nat
  sub : Nat
  cause : Nat
  rule : Nat
  deriving DecidableEq, Repr

/-- Cross-object failures (cause 1) of one object, one for each condition that holds. -/
def failsIf (idx sub rule : Nat) (bad : Bool) : List GenFail := if bad then [{ idx, sub, cause := 1, rule }] else []

/-- No value occurs twice. -/
def noRepeat : List Nat → Bool
  | [] => true
  | x :: xs => !xs.contains x && noRepeat xs

/-- The halves. -/
def halves : List Nat := [0, 1]

/-! ### Regions (R227, R322, R374, R377, R473, R494, R582) -/

/-- A region some subsystem owns: owner number, device address, bytes. -/
structure Zone where
  owner : Nat
  base : Nat
  size : Nat
  deriving DecidableEq, Repr

/-- Two regions meet. DEDUCED, log 54. -/
def zoneMeets (a b : Zone) : Bool :=
  decide (0 < a.size) && decide (0 < b.size) && decide (a.base < b.base + b.size) && decide (b.base < a.base + a.size)

/-- The region lies in far memory of one half. -/
def inFar (a n : Nat) : Bool :=
  halves.any (fun h => decide (farBase h ≤ a ∧ a + n ≤ farBase h + farSize))

/-- The region lies in far memory of half `h`. -/
def inFarOf (h a n : Nat) : Bool := decide (farBase h ≤ a ∧ a + n ≤ farBase h + farSize)

/-- The region lies in near scratch of half `h`. -/
def inScratchOf (d : Dev) (h a n : Nat) : Bool := decide (h * nearSize ≤ a) && inScratch d h (a - h * nearSize) n

def spillZone (d : Dev) (h : Nat) : Zone := { owner := 1, base := cfg d 0x8020 (h + 1), size := cfg d 0x8021 (h + 1) }
def parkZone (d : Dev) (h : Nat) : Zone := { owner := 2, base := cfg d 0x6930 (h + 1), size := cfg d 0x6931 (h + 1) }
def reserveZone (d : Dev) (h : Nat) : Zone := { owner := 3, base := cfg d 0xC102 (h + 1), size := cfg d 0xC103 (h + 1) }
def slotZone (d : Dev) (e : Nat) : Zone := { owner := 4, base := parVbase d e, size := parRing d e * parVbytes d e }
def stagingZone (d : Dev) (h : Nat) : Zone := { owner := 6, base := cfg d 0xA020 (h + 1), size := cfg d 0xA021 (h + 1) }
def landingZone (d : Dev) (h : Nat) : Zone := { owner := 7, base := cfg d 0xA022 (h + 1), size := cfg d 0xA023 (h + 1) }
def digestZone (d : Dev) : Zone := { owner := 8, base := cfg d 0xA026 0, size := 32 * cfg d 0xA027 0 }
def pendZone (d : Dev) (h : Nat) : Zone := { owner := 9, base := cfg d 0xA820 (h + 1), size := cfg d 0xA821 (h + 1) }
def cacheZone (d : Dev) (h : Nat) : Zone := { owner := 11, base := cfg d 0x6830 (h + 1), size := cfg d 0x6831 (h + 1) }

/-- The enabled layer rows of the exchange. -/
def enabledLayers (d : Dev) : List Nat := (keyedKeys d 0xA812).filter (exEn d)

/-- The route store: NTOK·K entries of 8 B per layer and slot (R481). -/
def routeZone (d : Dev) : Zone :=
  { owner := 10, base := cfg d 0xA822 0
    size := cfg d 0xA823 0 * sumN ((enabledLayers d).map (fun l => exNtok d l * exK d l * 8)) }

/-- The regions of an update entry (R374). -/
def updZones (d : Dev) (e : Nat) : List Zone :=
  let n := updNelem d e
  [{ owner := 5, base := updMbase d e, size := 4 * n }, { owner := 5, base := updM1base d e, size := 4 * n }] ++
    (if updOpt d e = 1 then [{ owner := 5, base := updM2base d e, size := 4 * n }] else []) ++
    [{ owner := 5, base := updAbase d e, size := 8 * n * (updUses d e + 1) }]

/-- A region whose base object holds 0 has not been set up: nothing lies there, since offset 0 of near memory is
the device region (R197). DEDUCED, log 54. -/
def zoneSet (z : Zone) : Bool := z.base != 0

/-- Every region in use. DEDUCED, log 54. -/
def zones (d : Dev) : List Zone :=
  (halves.flatMap (fun h => [spillZone d h, parkZone d h, reserveZone d h, stagingZone d h, landingZone d h, pendZone d h,
    cacheZone d h]) ++ [digestZone d, routeZone d]).filter zoneSet ++
  (enabledPars d).flatMap (fun e => slotZone d e :: updZones d e)

/-- The region meets one of another subsystem. -/
def meetsOther (d : Dev) (z : Zone) : Bool := (zones d).any (fun y => y.owner != z.owner && zoneMeets y z)

/-- The region meets one of the owners listed. -/
def meetsOwner (d : Dev) (owners : List Nat) (z : Zone) : Bool := (zones d).any (fun y => owners.contains y.owner && zoneMeets y z)

/-! ### Ledger, memory, fetch engines (R95, R138, R228, R248) -/

/-- A staged S: a power of two from 2^−126 to 2^126. -/
def scaleOk (v : Nat) : Bool := v % 2 ^ 23 == 0 && within 1 253 (v / 2 ^ 23)

/-- A ledger record is one the commit can apply (R95, R138). -/
def ledgerOk (v : Nat) : Bool :=
  within 0 3 (fld v 31 29) && (fmtOfCode (fld v 28 25)).isSome && within 1 32 (fld v 21 16) && scaleOk (fld v 63 32)

def checkLedger (recs : Tab Nat) : List GenFail :=
  failsIf 0x5012 0 138 (recs.any (fun e => keyIdx e.1 == 0x5012 && !ledgerOk e.2))

def checkSpill (d : Dev) : List GenFail :=
  halves.flatMap (fun h => failsIf 0x8020 (h + 1) 228 (!inFarOf h (cfg d 0x8020 (h + 1)) (cfg d 0x8021 (h + 1))))

def checkShare (d : Dev) : List GenFail :=
  let v := cfg d 0x7010 0
  let r := fld v 11 8
  let w := fld v 7 4
  let m := fld v 3 0
  failsIf 0x7010 0 248 (r == 0 || w == 0 || m == 0 || r + w + m != 16)

/-! ### Stage contexts and spawn links (R274, R313) -/

/-- The rules of one enabled context. -/
def ctxBad (d : Dev) (c : Nat) : Bool :=
  let cs := enabledCtxs d
  let im := ctxImage d c
  cs.any (fun x => decide (x < c) && ctxStage d x == ctxStage d c) || ctxCmask d c == 0 || ctxSched d c == 3 ||
    !accessible d im 64 || decide (2 * nearSize ≤ im)

/-- The rules of one interleave group. -/
def groupBad (d : Dev) (g : Nat) : Bool :=
  let cs := groupCtxs d g
  match cs with
  | [] => false
  | c :: _ =>
    cs.any (fun x => ctxWarm d x != ctxWarm d c || ctxM d x != ctxM d c || ctxChunk d x != ctxChunk d c) ||
      !(List.range cs.length).all (fun v => (cs.filter (fun x => ctxVord d x == v)).length == 1) ||
      ctxM d c % ctxChunk d c != 0

def checkCtx (d : Dev) : List GenFail :=
  let cs := enabledCtxs d
  cs.flatMap (fun c => failsIf 0x6010 (c + 1) 274
    (ctxBad d c || (ctxSched d c == 1 && groupBad d (ctxGroup d c)) || decide (16 < (cs.filter (ctxPin d)).length)))

/-- The rules of a context's pools (R303). -/
def linkBad (d : Dev) (c : Nat) : Bool :=
  [0, 1].any (fun k => !within 1 256 (poolCount d c k) || poolBase d c k % 256 != 0 || poolSlot d c k % 256 != 0 ||
    !within 4 64 (poolRes d c k))

/-- Spill bytes reserved on a half: 16,384 B per inbound queue (R312, R313). -/
def queueReserve (d : Dev) (h : Nat) : Nat := 32768 * ((enabledCtxs d).filter (fun c => ctxHalf d c == h)).length

def checkSpawn (d : Dev) : List GenFail :=
  let cs := enabledCtxs d
  let tooMany := decide (2048 < sumN (cs.map (fun c => poolRes d c 0 + poolRes d c 1)))
  cs.flatMap (fun c => failsIf 0x6110 (c + 1) 313 (linkBad d c || tooMany)) ++
    halves.flatMap (fun h => failsIf 0x8021 (h + 1) 313 (decide (cfg d 0x8021 (h + 1) < queueReserve d h)))

/-! ### Parameters and updates (R322, R374, R499) -/

/-- Bytes of the version copy of an entry (R367). -/
def versionBytes (d : Dev) (e : Nat) : Nat :=
  let c := parVfmt d e
  rowBytes (updNelem d e) c + (match fmtOfCode c with
    | some (_, true) => updNelem d e / 32
    | _ => 0)

def parBad (d : Dev) (e : Nat) : Bool :=
  let z := slotZone d e
  (enabledPars d).any (fun x => decide (x < e) && parPid d x == parPid d e) || !within 2 8 (parRing d e) ||
    parGhalf d e == 3 || (fmtOfCode (parVfmt d e)).isNone || decide (parNmem d e < parRank d e) ||
    !inFar z.base z.size || meetsOwner d [1] z || parGjaddr d e % 65536 != 0 || parGbytes d e % 65536 != 0 ||
    !accessible d (parVpte d e) (8 * (parGbytes d e / 65536)) || decide (2 * nearSize ≤ parVpte d e)

/-- A half's gather cache is too small for some parameter. -/
def gatherSmall (d : Dev) (h : Nat) : Bool :=
  (enabledPars d).any (fun e => (gcShares d e).any (fun s => s.1 == h && decide (cfg d 0x6831 (h + 1) < 2 * s.2)))

def checkPar (d : Dev) : List GenFail :=
  failsIf 0x6812 0 322 ((enabledPars d).any (parBad d)) ++
    halves.flatMap (fun h => failsIf 0x6831 (h + 1) 322 (gatherSmall d h))

/-- The own regions of an update entry meet. -/
def zonesClash : List Zone → Bool
  | [] => false
  | z :: zs => zs.any (zoneMeets z) || zonesClash zs

/-- The policy a ledger entry will have: the generation's record, FIXED where none was staged. -/
def ledgerPolicy (d : Dev) (e : Nat) : Nat := fld (keyedAt d 0x5012 e) 31 29

def updBad (d : Dev) (e : Nat) : Bool :=
  let zs := updZones d e
  let mx := match fmtOfCode (parVfmt d e) with
    | some (_, b) => b
    | none => false
  updOpt d e == 3 || updRm d e == 1 || updRm d e == 3 || updNelem d e == 0 ||
    zs.any (fun z => z.base % 256 != 0 || meetsOwner d [1, 4] z) || zonesClash zs ||
    !halves.any (fun h => zs.all (fun z => inFarOf h z.base z.size)) ||
    (enabledPars d).any (fun x => decide (x < e) && (updZones d x).any (fun y => zs.any (zoneMeets y))) ||
    decide (parVbytes d e < versionBytes d e) || (mx && (updEoff d e % 32 != 0 || updNelem d e % 32 != 0)) ||
    (updVtsen d e && ledgerPolicy d (updVts d e) != 0) ||
    (updClipg d e != 0 && cfg d 0x6921 (updClipg d e) == 0) || !within 1 8 (fld (cfg d 0x6920 (updHset d e + 1)) 1023 1020)

def checkUpd (d : Dev) : List GenFail :=
  failsIf 0x6912 0 374 ((enabledPars d).any (updBad d)) ++
    halves.flatMap (fun h => failsIf 0x6930 (h + 1) 377
      (!inFarOf h (parkZone d h).base (parkZone d h).size || meetsOwner d [1, 4, 5] (parkZone d h)))

/-- R499: EXP of a bound entry equals MSTEP of the context, or of its group. -/
def checkExp (d : Dev) : List GenFail :=
  failsIf 0x6912 0 499 ((enabledCtxs d).any (fun c =>
    (bindList d c).any (fun e => parEn d e && updExp d e + 1 != ctxM d c)))

/-! ### Relay, groups, buckets (R414, R440, R442, R448, R473) -/

def checkCredit (d : Dev) : List GenFail :=
  let v := cfg d 0x9016 0
  let xs := [fld v 31 24, fld v 23 16, fld v 15 8, fld v 7 0]
  failsIf 0x9016 0 414 (xs.any (fun x => decide (x < 4)) || sumN xs != 128)

def grpBad (d : Dev) (g : Nat) : Bool :=
  let ms := grpMembers d g
  grpMember d g (grpRank d g) != ownDev d || !noRepeat ms || !within 1 4 (grpFan d g) || fld (grpRow d g) 1006 768 != 0 ||
    decide (grpNmem d g < grpRank d g) ||
    (List.range 64).any (fun r => decide (grpNmem d g < r) && grpMember d g r != 0)

def checkGroup (d : Dev) : List GenFail :=
  failsIf 0xA012 0 440 (((keyedKeys d 0xA012).filter (grpEn d)).any (grpBad d)) ++
    failsIf 0x6812 0 440 ((enabledPars d).any (fun e =>
      let g := parGroup d e
      !grpEn d g || grpNmem d g != parNmem d e || grpRank d g != parRank d e)) ++
    (List.range 15).flatMap (fun i => failsIf 0x6921 (i + 1) 440
      (cfg d 0x6921 (i + 1) != 0 && !grpEn d (fld (cfg d 0x6921 (i + 1)) 63 48)))

/-- The row-blocks of a parameter and use that enabled buckets cover. -/
def coversOnce (d : Dev) (b : Nat) : Bool :=
  let bs := (keyedKeys d 0xA015).filter (fun x => bktEn d x && bktPent d x == bktPent d b && bktUse d x == bktUse d b)
  (List.range (ceilDiv (bktRows d b) 128)).all (fun r =>
    (bs.filter (fun x => decide (bktRb0 d x ≤ r ∧ r < bktRb0 d x + bktNrb d x))).length == 1)

def bktBad (d : Dev) (b : Nat) : Bool :=
  let e := bktPent d b
  let cols := bktCblk d b * 64
  let own := rankRows d b (parRank d e)
  !parEn d e || decide (updUses d e < bktUse d b) || bktShrows d b == 0 || bktShrows d b % 4 != 0 ||
    decide (bktRows d b ≤ parNmem d e * bktShrows d b) || decide ((parNmem d e + 1) * bktShrows d b < bktRows d b) ||
    decide (ceilDiv (bktRows d b) 128 < bktRb0 d b + bktNrb d b) ||
    updEoff d e != parRank d e * bktShrows d b * cols || updNelem d e != cols * (own.2 - own.1) || !coversOnce d b

def checkBucket (d : Dev) : List GenFail := failsIf 0xA015 0 442 (((keyedKeys d 0xA015).filter (bktEn d)).any (bktBad d))

def checkVersion (d : Dev) : List GenFail := failsIf 0xA016 0 448 (cfg d 0xA016 0 == 2 && decide (cfg d 0x1004 0 < 0xB0))

/-- Members of the largest enabled group. -/
def largestGroup (d : Dev) : Nat := ((keyedKeys d 0xA012).filter (grpEn d)).foldl (fun n g => max n (grpNmem d g + 1)) 0

def checkCeRegions (d : Dev) : List GenFail :=
  let bad := fun (h : Nat) (z : Zone) => zoneSet z && (!inScratchOf d h z.base z.size || meetsOther d z)
  halves.flatMap (fun h => failsIf 0xA020 (h + 1) 473 (bad h (stagingZone d h))) ++
    halves.flatMap (fun h => failsIf 0xA022 (h + 1) 473
      (bad h (landingZone d h) || decide ((landingZone d h).size < 589824 * largestGroup d))) ++
    failsIf 0xA026 0 473 (zoneSet (digestZone d) && (!inFar (digestZone d).base (digestZone d).size || meetsOther d (digestZone d)))

/-! ### Expert exchange (R477, R494) -/

/-- The offset ranges of a layer (R475, R478): offset and bytes. -/
def exRanges (d : Dev) (l : Nat) : List (Nat × Nat) :=
  let ntok := exNtok d l
  let rows := exLocal d l * exRanks d l * exCap d l * exW d l
  [(exSoff d l, 4 * ntok * exNexp d l), (exXoff d l, ntok * exW d l),
   (exAoff d l, 8 * ntok * exK d l + 2 * exLocal d l * exRanks d l), (exRoff d l, rows), (exQoff d l, rows),
   (exYoff d l, ntok * rowBytes (exHid d l) (exOfmt d l))]

/-- Two experts share a place, or a slot is beyond the experts its device holds. -/
def placeBad (d : Dev) (l : Nat) : Bool :=
  let ps := (List.range (exNexp d l)).map (exHome d l)
  !noRepeat (ps.map (fun p => p.1 * 64 + p.2)) ||
    ps.any (fun p => (grpRankOf d (exGroup d l) p.1).isNone || decide ((ps.filter (fun q => q.1 == p.1)).length ≤ p.2))

def exBells (d : Dev) (l : Nat) : List Nat := [exDbd d l, exDbc d l, exDnd d l, exDnc d l]

def exBad (d : Dev) (l : Nat) : Bool :=
  let c := exCtx d l
  let slot := min (poolSlot d c 0) (poolSlot d c 1)
  !ctxEn d c || !grpEn d (exGroup d l) || !within 1 4096 (exNexp d l) || !within 1 8 (exK d l) ||
    decide (1 < exPol d l) || decide (7 < exTfmt d l) || decide (1 < exEfmt d l) || decide (1 < exOfmt d l) ||
    exCap d l == 0 || exNtok d l == 0 || exHid d l % 64 != 0 || !within 64 32640 (exHid d l) ||
    fld (exRow d l) 174 0 != 0 || (exBells d l).any (fun n => decide (0xF00 ≤ n)) || decide (exNexp d l < exK d l) ||
    placeBad d l || (exRanges d l).any (fun r => decide (slot < r.1 + r.2)) ||
    (enabledLayers d).any (fun x => decide (x < l) && exCtx d x == c &&
      [exDbd d x, exDbc d x].any (fun n => [exDbd d l, exDbc d l].contains n))

def checkEx (d : Dev) : List GenFail :=
  let bad := fun (z : Zone) (inside : Bool) => zoneSet z && (!inside || meetsOther d z)
  failsIf 0xA812 0 477 ((enabledLayers d).any (exBad d)) ++
    halves.flatMap (fun h => failsIf 0xA820 (h + 1) 494
      (bad (pendZone d h) (inScratchOf d h (pendZone d h).base (pendZone d h).size))) ++
    failsIf 0xA822 0 494 (bad (routeZone d) (inFar (routeZone d).base (routeZone d).size))

/-! ### Host port, reserves, spares, thermal limits (R524, R582, R594, R705) -/

def qpBad (row : Nat) : Bool :=
  bitAt row 255 && (!within 2 3 (fld row 254 253) || !within 1 5 (fld row 27 25) || fld row 21 17 == 0)

/-- A host window in use names the queue pair. -/
def windowNames (d : Dev) (i : Nat) : Bool :=
  (List.range 64).any (fun w =>
    let row := cfg d 0x8040 (w + 1)
    bitAt row 255 && fld row 247 224 == 0x100 + i)

def checkHost (d : Dev) : List GenFail :=
  (List.range 128).flatMap (fun i =>
    let row := cfg d 0xB030 (i + 1)
    failsIf 0xB030 (i + 1) 524 (qpBad row || (!bitAt row 255 && windowNames d i)))

/-- The weights of classes 2 and 3 (R511). -/
def checkTc (d : Dev) : List GenFail :=
  let v := cfg d 0xB024 0
  failsIf 0xB024 0 524 (fld v 47 44 == 0 || fld v 63 60 == 0)

/-- Bytes a half's cut can hold (R582): slot data, own-shard copies, masters and moments, parked pieces, and the
regions of SnRegion, each counted on every half it may lie in. DESIGN CHOICE, log 59. -/
def cutBytes (d : Dev) (h : Nat) : Nat :=
  sumN (((enabledCtxs d).filter (fun c => ctxHalf d c == h)).map (fun c =>
      poolCount d c 0 * poolSlot d c 0 + poolCount d c 1 * poolSlot d c 1)) +
    sumN (((enabledPars d).map (slotZone d)).filter (fun z => ownerHalf z.base == h) |>.map Zone.size) +
    sumN (((enabledPars d).filter (fun e => ownerHalf (updMbase d e) == h)).map (fun e =>
      updNelem d e * (if updOpt d e = 1 then 12 else 8))) +
    sumN ((List.range 64).map (fun i =>
      let r := cfg d 0xC104 (i + 1)
      if bitAt r 127 then fld r 71 24 else 0))

/-- A half has a reserve. -/
def reserveSet (d : Dev) (h : Nat) : Bool := cfg d 0xC102 (h + 1) != 0 || cfg d 0xC103 (h + 1) != 0

def checkReserve (d : Dev) : List GenFail :=
  halves.flatMap (fun h =>
    let z := reserveZone d h
    failsIf 0xC102 (h + 1) 582 (reserveSet d h && (!inFarOf h z.base z.size || meetsOwner d [1, 2, 4, 5] z)) ++
      failsIf 0xC103 (h + 1) 582 (reserveSet d h && decide (z.size < cutBytes d h)))

/-- The rows of the spare table in use. -/
def spareRows (d : Dev) : List Nat := ((List.range 16).map (fun i => cfg d 0xC201 (i + 1))).filter (fun v => bitAt v 15)

def checkSpares (old d : Dev) : List GenFail :=
  let changed := (List.range 16).any (fun i => cfg old 0xC201 (i + 1) != cfg d 0xC201 (i + 1))
  let ids := (spareRows d).map (fun v => fld v 11 0)
  let st := cfg old 0xC211 0
  failsIf 0xC201 1 594 (changed && (!noRepeat ids || ids.contains (ownDev d) || (fld st 31 28 != 0 && fld st 31 28 != 7)))

def checkThermal (d : Dev) : List GenFail := failsIf 0xE022 0 705 (decide (cfg d 0xE022 0 ≤ cfg d 0xE021 0))

/-- Every rule but those of R498 and of the commit itself. -/
def checkRules (old d : Dev) (recs : Tab Nat) : List GenFail :=
  checkLedger recs ++ checkSpill d ++ checkShare d ++ checkCtx d ++ checkSpawn d ++ checkPar d ++ checkUpd d ++ checkExp d ++
    checkCredit d ++ checkGroup d ++ checkBucket d ++ checkVersion d ++ checkCeRegions d ++ checkEx d ++ checkHost d ++
    checkTc d ++ checkReserve d ++ checkSpares old d ++ checkThermal d

end Sys2Proof.Machine
end

