-- ==== Sys2Proof/Machine/Generations.lean ====
section
/-! DEFINITION. Configuration generations (chapter 20): the consistency check, commit, rollback, cancel, and storage. -/

namespace Sys2Proof.Machine

/-! ### Values of a generation -/

/-- The commit class of an index. -/
def clsOf (idx : Nat) : CommitClass :=
  match objRowOf idx with
  | some r => r.cls
  | none => .i

/-- The object is staged and committed (access RS). -/
def isRs (idx : Nat) : Bool :=
  match objRowOf idx with
  | some r => r.acc == .rs
  | none => false

/-- The default of a staging key (R531, R720). -/
def keyDefault (k : Nat) : Nat := if isKeyed (keyIdx k) then keyedDefault (keyIdx k) else objDefault (keyIdx k) (keySub k)

/-- The value a staging key has in the current generation: a P value that waits for the next reset counts (R562). -/
def genValue (d : Dev) (k : Nat) : Nat := (tfind d.gn.pendingP k).getD (inForce d k)

/-- The values of the current generation that differ from their defaults, by rising staging key. -/
def genValues (d : Dev) : Tab Nat :=
  let a := (d.objs.filter (fun e => isRs (e.1 / 256))).map (fun e => (stageKey (e.1 / 256) (e.1 % 256) 0, e.2))
  let b := d.keyed.map (fun e => (stageKey (e.1 / 2 ^ 24) 0 (e.1 % 2 ^ 24), e.2))
  (stageAll (stageAll [] (a ++ b)) d.gn.pendingP).filter (fun e => e.2 != keyDefault e.1)

/-- The records that take the device from its current values to `vals` (R566). ROFF follows SsStep while a job runs
and is left alone then (R390). DEDUCED, log 57. -/
def rollbackRecs (d : Dev) (vals : Tab Nat) : Tab Nat :=
  let back := (genValues d).filter (fun e => (tfind vals e.1).isNone) |>.map (fun e => (e.1, keyDefault e.1))
  (stageAll vals back).filter (fun e =>
    genValue d e.1 != e.2 && (d.seq.job == .idle || keyIdx e.1 != 0xCE11))

/-- The records change the value in force (R565). -/
def changesJ (d : Dev) (recs : Tab Nat) : List Nat :=
  (recs.filter (fun e => clsOf (keyIdx e.1) == .j && genValue d e.1 != e.2)).map Prod.fst

/-- Put one value in force. -/
def putValue (d : Dev) (e : Nat × Nat) : Dev :=
  if isKeyed (keyIdx e.1) then { d with keyed := tset d.keyed (keyIdx e.1 * 2 ^ 24 + keyKey e.1) e.2 }
  else setObj d (keyIdx e.1) (keySub e.1) e.2

/-- The device as it would stand with the records applied, P values included: what the check tests (R555). -/
def supposed (d : Dev) (recs : Tab Nat) : Dev := recs.foldl putValue (d.gn.pendingP.foldl putValue d)

/-- Bytes of the body of a generation (R568). -/
def bodyBytes (d : Dev) (recs : Tab Nat) : Nat :=
  let vals := (stageAll (genValues d) recs).filter (fun e => e.2 != keyDefault e.1)
  5 * vals.length + recsBytes vals

/-! ### The check (R555, R556) -/

/-- Order of failing tests. -/
def failBefore (a b : GenFail) : Bool := decide (a.idx * 256 + a.sub < b.idx * 256 + b.sub)

/-- The first failing test, in increasing index and subindex (R556). DESIGN CHOICE, log 55. -/
def firstFail : List GenFail → Option GenFail
  | [] => none
  | f :: fs =>
    match firstFail fs with
    | some g => if failBefore g f then some g else some f
    | none => some f

/-- The rules of R555: the consistency rules, R498, and the body's size when the generation is to be stored. -/
def genFails (d : Dev) (recs : Tab Nat) (store : Bool) (obj : Nat) : List GenFail :=
  checkRules d (supposed d recs) recs ++
    (if d.seq.job == .idle then []
     else (changesJ d recs).map (fun k => { idx := keyIdx k, sub := keySub k, cause := 2, rule := 498 })) ++
    (if store && decide (16777152 < bodyBytes d recs) then [{ idx := obj, sub := 0, cause := 10, rule := 568 }] else [])

/-- The digest of a set of records (R554). -/
def recsDigest (recs : Tab Nat) : Nat := crc64 (recs.flatMap recBytes)

/-- `GenCheckResult` (R556). -/
def checkWord (f : Option GenFail) (digest gen : Nat) (atOnce : Bool) : Nat :=
  match f with
  | none => digest * 2 ^ 192 + gen * 2 ^ 96 + b2n atOnce * 2 + 1
  | some g => digest * 2 ^ 192 + g.idx * 2 ^ 176 + g.sub * 2 ^ 168 + g.cause * 2 ^ 160 +
      Config.checkId g.rule % 65536 * 2 ^ 144 + gen * 2 ^ 96 + b2n atOnce * 2

/-- R555: a write to GenCheck forms the result on the staging set as it stands; its reply stays pending.
DESIGN CHOICE, log 56. -/
def genCheck (d : Dev) (v : Nat) : Dev :=
  if v ≠ 1 then send d (.status 0x2020 0 0)
  else if d.gn.checking.isSome then send d (.status 0x2020 0 8)
  else
    let armed := if d.gn.armed.isSome then [{ idx := 0x2020, sub := 0, cause := 6, rule := 559 }] else []
    let w := checkWord (firstFail (genFails d d.gn.staged true 0x2020 ++ armed)) (recsDigest d.gn.staged) 0 false
    send { d with gn := { d.gn with checking := some w } } (.status 0x2020 0 1)

/-- R556: the check ends: its result is written and its reply completes. DESIGN CHOICE, log 56. -/
def genCheckDone (d : Dev) : Dev :=
  match d.gn.checking with
  | none => d
  | some w => send (setObj { d with gn := { d.gn with checking := none } } 0x2021 0 w) (.done 0x2020 0 (if bitAt w 0 then 0 else 6))

/-! ### The commit record (R557) -/

def gcGen (r : Nat) : Nat := fld r 255 224
def gcWhen (r : Nat) : Nat := fld r 223 222
def gcStore (r : Nat) : Bool := bitAt r 221
def gcChk (r : Nat) : Bool := bitAt r 220
def gcAt (r : Nat) : Nat := fld r 191 128
def gcDigest (r : Nat) : Nat := fld r 127 64

/-- The record's own range: WHEN 0b11 and reserved bits (R557); CHK 0 and DIGEST 0 in a rollback (R566). -/
def gcOk (r : Nat) (rollback : Bool) : Bool :=
  gcWhen r != 3 && fld r 219 192 == 0 && fld r 63 0 == 0 && (!rollback || (!gcChk r && gcDigest r == 0))

/-- The boundary that closes step `at` has reached R294 step 4, or the step is past (R559). -/
def boundaryPassed (d : Dev) (at_ : Nat) : Bool :=
  decide (at_ < d.seq.step) || (at_ == d.seq.step && d.seq.phase == .worked)

/-- A staged G object other than T ones, the ledger records and objects read within a step (R559).
DESIGN CHOICE, log 55. -/
def markedB (idx : Nat) : Bool :=
  clsOf idx == .j || idx == 0x5012 || within 0x3000 0x4FFF idx || within 0x7000 0x7FFF idx ||
    (clsOf idx == .g && !Config.timeMark idx)

/-- The records an attempt would apply. -/
def attemptRecs (d : Dev) (rollback : Bool) : Tab Nat :=
  if rollback then rollbackRecs d ((d.gn.previous.map Prod.snd).getD []) else d.gn.staged

/-- The tests of R557 to R560, R566 and R568 that belong to the record itself. -/
def commitFails (d : Dev) (r : Nat) (rollback : Bool) (recs : Tab Nat) : List GenFail :=
  let obj := if rollback then 0x2032 else 0x2030
  let f : Nat → Nat → Bool → List GenFail := fun c rule bad => if bad then [{ idx := obj, sub := 0, cause := c, rule }] else []
  let w := gcWhen r
  f 9 566 (rollback && d.gn.previous.isNone) ++ f 7 557 (gcGen r != (d.gn.current + 1) % 2 ^ 32) ++
    f 6 559 d.gn.armed.isSome ++ f 11 559 (w == 0 && d.seq.job != .idle) ++
    f 3 559 (w == 1 && boundaryPassed d (gcAt r)) ++ f 3 559 (w == 2 && decide (gcAt r ≤ d.ptp)) ++
    f 4 559 (w == 2 && decide (d.hp.ptp.state ≤ 1)) ++
    f 5 559 (w == 2 && d.seq.job != .idle && recs.any (fun e => markedB (keyIdx e.1))) ++
    f 8 557 (gcChk r && gcDigest r != recsDigest d.gn.staged)

/-! ### Applying (R562) -/

/-- What a record that changes POLICY or FMT clears (R97). -/
def ledgerCleared (x : LedgerEntry) : LedgerEntry :=
  { x with hcount := 0, head := 0, runamax := f32Zero, ovtiles := 0, cflags := 0, tch := false }

/-- The ledger's fields a record sets (R97, R138). -/
def ledgerApply (d : Dev) (e v : Nat) : Dev :=
  let x := ledgerAt d e
  let y := { (if x.policy = fld v 31 29 ∧ x.fmt = fld v 28 25 then x else ledgerCleared x) with
    policy := fld v 31 29, fmt := fld v 28 25, margin := fld v 24 22, hlen := fld v 21 16, backoff := bitAt v 15
    s := BitVec.ofNat 32 (fld v 63 32) }
  let d1 := setLedger d e y
  if d.seq.job = .running ∨ d.seq.job = .stopping then writeIdle d1 e (pairOf y) else writeBoth d1 e (pairOf y)

/-- A queue pair row that goes in or out of use leaves its old work behind (R515). DESIGN CHOICE, log 66. -/
def qpApply (d : Dev) (i old new : Nat) : Dev :=
  if bitAt old 255 == bitAt new 255 then d else setQp d i qpReset0

/-- Put one record of a generation in force: a changed spare row is free again and its alias
ends (R596, R606); a P value waits for the next reset (R530, R562). -/
def applyRec (d : Dev) (e : Nat × Nat) : Dev :=
  let idx := keyIdx e.1
  if clsOf idx = .p then
    let same := e.2 == inForce d e.1
    { d with gn := { d.gn with pendingP := if same then tdel d.gn.pendingP e.1 else tset d.gn.pendingP e.1 e.2 } }
  else
    let old := inForce d e.1
    let d1 := putValue d e
    if idx = 0x5012 then ledgerApply d1 (keyKey e.1) e.2
    else if idx = 0xB030 then qpApply d1 (keySub e.1 - 1) old e.2
    else if idx = 0xC201 ∧ old ≠ e.2 then setObj (setObj d1 0xC202 (keySub e.1) 0) 0xC215 (keySub e.1) 0
    else d1

/-- R313: the spill areas of the inbound queues, laid from the start of each region. A change of the stage map or of a
region drops what the region held before. -/
def reserveSpill (d : Dev) (h : Nat) : Dev :=
  let n := queueReserve d h
  let l := if n = 0 then [] else [(cfg d 0x8020 (h + 1), n)]
  spillShow { d with mem := { d.mem with spill := tset d.mem.spill h l } } h

/-- Records that move the spill areas. -/
def movesSpill (recs : Tab Nat) : Bool := recs.any (fun e => [0x6010, 0x8020, 0x8021].contains (keyIdx e.1))

/-- A row of GenHistory (R570): kind 0 commit, 1 rollback, 2 loaded at reset. -/
def historyRow (d : Dev) (gen kind : Nat) : Nat := gen * 2 ^ 160 + d.seq.step * 2 ^ 96 + d.ptp * 2 ^ 32 + kind * 2 ^ 30

/-- Begin the next store of the queue (R567). -/
def storeNext (d : Dev) : Dev :=
  match d.gn.storing, d.gn.queue with
  | none, s :: rest => { d with gn := { d.gn with storing := some s, queue := rest, storeState := 1 } }
  | _, _ => d

/-- R562: apply the records as generation `gen`. DEDUCED, log 57. -/
def genApply (d : Dev) (r : Nat) (rollback : Bool) (recs : Tab Nat) : Dev :=
  let prev := (d.gn.current, genValues d)
  let d1 := recs.foldl applyRec d
  let d2 := if movesSpill recs then reserveSpill (reserveSpill d1 0) 1 else d1
  let d3 := { d2 with gn := { d2.gn with
    current := gcGen r, previous := some prev
    history := (historyRow d (gcGen r) (b2n rollback) :: d.gn.history).take 16 } }
  let d4 := if gcStore r then
      storeNext { d3 with gn := { d3.gn with queue := d3.gn.queue ++ [{ gen := gcGen r, vals := genValues d3 }] } }
    else { d3 with gn := { d3.gn with storeState := if d3.gn.storing.isSome then 1 else 3 } }
  raise (setObj (setObj d4 0x2000 0 (gcGen r)) 0x2001 0 prev.1) 0x0201 (gcGen r) 0

/-- The write of GenCommit or GenRollback: the record is checked; WHEN now is applied at once, other times are armed
(R558, R566). -/
def genAttempt (d : Dev) (r : Nat) (rollback : Bool) : Dev :=
  let obj := if rollback then 0x2032 else 0x2030
  if !gcOk r rollback then send d (.status obj 0 5)
  else
    let recs := attemptRecs d rollback
    match firstFail (genFails d recs (gcStore r) obj ++ commitFails d r rollback recs) with
    | some f => send (setObj d 0x2021 0 (checkWord (some f) (recsDigest d.gn.staged) (gcGen r) false)) (.status obj 0 6)
    | none =>
      let d1 := if rollback then d else { d with gn := { d.gn with staged := [] } }
      if gcWhen r = 0 then send (genApply d1 r rollback recs) (.status obj 0 0)
      else
        let d2 := { d1 with gn := { d1.gn with armed := some { raw := r, rollback, recs := if rollback then [] else recs } } }
        let d3 := if gcWhen r = 2 ∧ d.hp.ptp.state = 3 then raise d2 0x4202 (gcGen r) 0 else d2
        send d3 (.status obj 0 0)

/-- One of the six forms of a commit or rollback: the record's WHEN names the form. -/
def genAttemptAt (d : Dev) (r when_ : Nat) (rollback : Bool) : Dev :=
  if gcWhen r = when_ then genAttempt d r rollback else d

/-- R561, R563: the instant of the armed generation: it is checked again and applied, or discarded. -/
def genInstant (d : Dev) : Dev :=
  match d.gn.armed with
  | none => d
  | some a =>
    let d0 := { d with gn := { d.gn with armed := none } }
    let recs := if a.rollback then rollbackRecs d0 ((d0.gn.previous.map Prod.snd).getD []) else a.recs
    match firstFail (genFails d0 recs (gcStore a.raw) (if a.rollback then 0x2032 else 0x2030)) with
    | some f =>
      raise (setObj d0 0x2021 0 (checkWord (some f) (recsDigest recs) (gcGen a.raw) true)) 0x8203 (gcGen a.raw) f.idx
    | none => genApply d0 a.raw a.rollback recs

/-- R561: a boundary that closes step `n` reaches R294 step 4. -/
def genBoundary (d : Dev) (n : Nat) : Dev :=
  match d.gn.armed with
  | some a => if gcWhen a.raw = 1 ∧ gcAt a.raw = n then genInstant d else d
  | none => d

/-- R561: PTP time has reached AT. DESIGN CHOICE, log 79. -/
def armedTimeApply (d : Dev) : Dev :=
  match d.gn.armed with
  | some a => if gcWhen a.raw = 2 ∧ gcAt a.raw ≤ d.ptp then genInstant d else d
  | none => d

/-- R564: a write to GenCancel: the records return to staging, except for objects staged again. -/
def genCancel (d : Dev) (v : Nat) : Dev :=
  if v ≠ 1 then send d (.status 0x2031 0 0)
  else
    match d.gn.armed with
    | none => send d (.status 0x2031 0 6)
    | some a =>
      send (raise { d with gn := { d.gn with armed := none, staged := stageAll a.recs d.gn.staged } } 0x0204 (gcGen a.raw) 0)
        (.status 0x2031 0 0)

/-- R554: a write to GenStageDiscard. -/
def stageDiscard (d : Dev) (v : Nat) : Dev :=
  send (if v = 1 then { d with gn := { d.gn with staged := [] } } else d) (.status 0x2013 0 0)

/-- The slot a store is written to: the one that does not hold the current stored generation (R567). -/
def storeSlot (d : Dev) : Nat :=
  let a := d.gn.slot0
  let b := d.gn.slot1
  if !a.valid then 0 else if !b.valid then 1 else if a.gen < b.gen then 0 else 1

/-- Replace a slot. -/
def setSlot (d : Dev) (i : Nat) (s : GenSlot) : Dev :=
  { d with gn := if i = 0 then { d.gn with slot0 := s } else { d.gn with slot1 := s } }

/-- R567: the store in progress ends: the slot is valid, or is left invalid. The stores behind it follow. -/
def genStoreDone (d : Dev) (ok : Bool) : Dev :=
  match d.gn.storing with
  | none => d
  | some s =>
    let d1 := setSlot d (storeSlot d) { valid := ok, header := true, gen := s.gen, vals := s.vals }
    let d2 := { d1 with gn := { d1.gn with storing := none, storeState := if ok then 0 else 2 } }
    raise (storeNext d2) (if ok then 0x0206 else 0x8207) s.gen 0

/-- `GenState` (R570). -/
def genState (d : Dev) : Nat :=
  let a := match d.gn.armed with
    | some x => gcWhen x.raw
    | none => 0
  a * 2 ^ 30 + b2n (!d.gn.pendingP.isEmpty) * 2 ^ 29 + d.gn.storeState * 2 ^ 27 + b2n d.gn.checking.isSome * 2 ^ 26 +
    b2n d.gn.previous.isSome * 2 ^ 25

/-- `GenStoredSlot` (R570). -/
def storedSlot (s : GenSlot) : Nat := b2n s.valid * 2 ^ 63 + s.gen

/-- R569: the stored generations are loaded at reset: the valid slot with the higher GEN is current, the other valid
one previous; a header that fails its check raises 0x4208. Values of every class, P too, take effect (R530). -/
def genLoad (d : Dev) : Dev :=
  let slots := [d.gn.slot0, d.gn.slot1]
  let bad := slots.filter (fun s => s.header && !s.valid)
  let ok := slots.filter (fun s => s.valid)
  let d0 := bad.foldl (fun x s => raise x 0x4208 s.gen 0) d
  match ok with
  | [] => d0
  | s :: rest =>
    let cur := rest.foldl (fun a b => if a.gen < b.gen then b else a) s
    let prev := ok.find? (fun x => x.gen != cur.gen)
    let d1 := cur.vals.foldl putValue d0
    let d2 := (cur.vals.filter (fun e => keyIdx e.1 == 0x5012)).foldl (fun x e => ledgerApply x (keyKey e.1) e.2) d1
    let d3 := { d2 with gn := { d2.gn with
      current := cur.gen, previous := prev.map (fun p => (p.gen, p.vals)), history := [historyRow d cur.gen 2] } }
    reserveSpill (reserveSpill (setObj (setObj d3 0x2000 0 cur.gen) 0x2001 0 ((prev.map GenSlot.gen).getD 0)) 0) 1

end Sys2Proof.Machine
end

