-- ==== Sys2Proof/Machine/Health.lean ====
section
/-! DEFINITION. The health monitor (R572 to R575): the risk estimate, its levels, and arming a cut. -/

namespace Sys2Proof.Machine

/-! ### Inputs (R572) -/

/-- The counter objects of each counted input. -/
def inputObjs : Nat → List Nat
  | 0 => [0x3025, 0x8050, 0x8052]
  | 2 => [0x5034]
  | 3 => [0x5041]
  | 5 => [0x9034]
  | 6 => [0x9036]
  | 8 => [0x9038]
  | _ => []

/-- The events of each input that counts events; input 1 counts the error events that name R7. -/
def inputEvents : Nat → List Nat
  | 1 => [0x8304, 0x8402, 0x8408, 0x8511, 0x8541, 0x8627, 0x8684, 0x8694, 0x8704, 0x8803, 0x8805, 0x8A0B, 0x8A89, 0x8D85]
  | 4 => [0x4693]
  | 7 => [0x4904, 0x8906]
  | 9 => [0x8920, 0x8921]
  | 11 => [0x8521]
  | _ => []

/-- The rows of a counter object that have counted, by object key. -/
def countedRows (d : Dev) (idx : Nat) : Tab Nat := d.objs.filter (fun e => e.1 / 256 == idx)

/-- A row's change since the last boundary; a row cleared since counts from its clear. -/
def rowDelta (d : Dev) (e : Nat × Nat) : Nat :=
  let was := tget 0 d.hm.last e.1
  if e.2 < was then e.2 else e.2 - was

/-- Δi of an integer input. DESIGN CHOICE, log 60. -/
def delta (d : Dev) (i : Nat) : Nat :=
  if i = 10 then d.hm.hot
  else sumN ((inputObjs i).map (fun o => sumN ((countedRows d o).map (rowDelta d)))) +
    sumN ((inputEvents i).map (fun c => tget 0 d.ev.counts c))

/-- RNE(Wi × Δi); input 12 is the sum of the values written. -/
def weighted (d : Dev) (i : Nat) : F32 :=
  let w := f32Of (cfg d 0xC002 (i + 1))
  if i = 12 then toF32 (fxMul w (ofF32 d.hm.external)) else toF32 (fxMul w (fxNat (delta d i)))

/-- x of the boundary: the weighted inputs summed in increasing i. DESIGN CHOICE, log 60. -/
def riskInput (d : Dev) : F32 := (List.range 13).foldl (fun s i => f32Add s (weighted d i)) f32Zero

/-! ### Levels and arming (R573 to R575) -/

/-- The earlier of a pending cut step and a new one. -/
def earlierCut (d : Dev) (s : Nat) : Nat :=
  let p := cfg d 0xC100 0
  if p = 0 then s else min p s

/-- The step of the last complete cut. -/
def lastCutStep (d : Dev) : Option Nat :=
  if bitAt (cfg d 0xC111 0) 0 then some (fld (cfg d 0xC111 0) 255 192) else none

/-- An automatic arming at step `p` is suppressed (R574). DESIGN CHOICE, log 60. -/
def armSuppressed (d : Dev) (urgent : Bool) (p : Nat) : Bool :=
  cfg d 0xC008 0 == 0 || (!urgent && (match lastCutStep d with
    | some s => decide (p < s + cfg d 0xC007 0)
    | none => false))

/-- Arm a cut for the monitor. DESIGN CHOICE, log 60. -/
def armCut (d : Dev) (urgent : Bool) : Dev :=
  let p := (d.seq.step + (if urgent then 1 else cfg d 0xC006 0)) % 2 ^ 64
  if armSuppressed d urgent p then raise (bump d 0xC131 0 1) 0x4C04 0 p
  else raise (setObj d 0xC100 0 (earlierCut d p)) (if urgent then 0x8C03 else 0x4C02) 0 p

/-- The threshold of level 0 watch, 1 cut, 2 urgent. -/
def threshold (d : Dev) (l : Nat) : Fx := f32Of (fld (cfg d 0xC005 0) (32 * l + 31) (32 * l))

/-- One level at a boundary: it fires, or is armed again below half its threshold. -/
def levelStep (r : Fx) (d : Dev) (l : Nat) : Dev :=
  let v := cfg d 0xC00B 0
  if bitAt v l then
    if isNan r || fxLt r (threshold d l) then d
    else
      let d1 := setObj d 0xC00B 0 (setBit v l false)
      if l = 0 then raise d1 0x4C01 0 d.seq.step else armCut d1 (l == 2)
  else if fxLt (fxMul r (fxNat 2)) (threshold d l) then setObj d 0xC00B 0 (setBit v l true)
  else d

/-- R572, R573: the monitor at a boundary, after R294 step 4. -/
def healthStep (d : Dev) : Dev :=
  let x := riskInput d
  let r := f32Add (toF32 (fxMul (f32Of (cfg d 0xC004 0)) (f32Of (cfg d 0xC000 0)))) x
  let d1 := (List.range 13).foldl (fun y i =>
    setObj y 0xC003 (i + 1) (if i = 12 then d.hm.external.toNat else delta d i)) d
  let rows := (List.range 13).flatMap (fun i => (inputObjs i).flatMap (countedRows d))
  let d2 := { setObj (setObj d1 0xC001 0 x.toNat) 0xC000 0 r.toNat with
    hm := { last := rows.foldl (fun t e => tset t e.1 e.2) [], hot := 0, external := f32Zero }
    ev := { d1.ev with counts := [] } }
  [0, 1, 2].foldl (levelStep (ofF32 r)) d2

/-- R572: a write to HmExternal. -/
def hmExternal (d : Dev) (v : Nat) : Dev :=
  send { d with hm := { d.hm with external := f32Add d.hm.external (BitVec.ofNat 32 v) } } (.status 0xC009 0 0)

/-- A counter that is cleared counts from its clear. -/
def forgetCounts (d : Dev) (lo hi : Nat) : Dev :=
  { d with hm := { d.hm with last := d.hm.last.filter (fun e => decide (e.1 / 256 < lo ∨ hi < e.1 / 256)) } }

/-- R575: a write to SnCutAtStep: the earlier of two steps stays, and 0 cancels. -/
def cutAtStep (d : Dev) (s : Nat) : Dev :=
  let p := cfg d 0xC100 0
  if (p ≠ 0 ∧ p = d.seq.step ∧ d.seq.phase = .worked) ∨ (s ≠ 0 ∧ s < d.seq.step) then send d (.status 0xC100 0 6)
  else send (setObj d 0xC100 0 (if s = 0 then 0 else earlierCut d s)) (.status 0xC100 0 0)

end Sys2Proof.Machine
end

