-- ==== Sys2Proof/Machine/HostPort.lean ====
section
/-! DEFINITION. The host Ethernet port (chapter 18): link, management queue, RoCE responder and requester, flow and
rate control, PTP. -/

namespace Sys2Proof.Machine

/-- Count a received frame. -/
def hpRx (d : Dev) : Dev := bump d 0xB050 0 1

/-- Count a discarded frame (R509, R519). -/
def hpDiscard (d : Dev) : Dev := bump d 0xB052 0 1

/-! ### Link and management queue (R507 to R510) -/

/-- R507: the link goes down and trains again. DESIGN CHOICE, log 51. -/
def hpLinkDown (d : Dev) : Dev :=
  if d.hp.linkUp then raise (setObj { d with hp := { d.hp with linkUp := false } } 0xB011 0 1) 0x4B01 0 0 else d

/-- R507: the link is up, and what was queued for transmit leaves; it does not train again on a lost clock (R696). -/
def hpLinkUp (d : Dev) : Dev :=
  if d.hp.linkUp || d.pw.lostPlls.any (fun n => decide (38 ≤ n)) then d
  else txDrain (raise (setObj { d with hp := { d.hp with linkUp := true } } 0xB011 0 2) 0x0B02 0 0)

/-- R510: a class 0 or 1 frame enters the management queue of 512, or is discarded. -/
def mgmtQueueFrame (d : Dev) (cls src : Nat) (bs : List Byte) : Dev :=
  let d1 := hpRx d
  if 512 ≤ d.hp.queue.length then raiseSec (bump d1 0xB053 0 1) 0x4B03 0 0
  else { d1 with hp := { d1.hp with queue := d1.hp.queue ++ [{ cls, src, payload := bs }] } }

/-- R509: an ARP request or a neighbour solicitation for this device's address is answered; for another address it
matches no row. -/
def arpRequest (d : Dev) (v6 : Bool) (target requester : Nat) : Dev :=
  let own := if v6 then cfg d 0xB021 0 else cfg d 0xB020 0
  if own ≠ 0 ∧ own = target then hostSend (hpRx d) 1 [b2n v6, target, cfg d 0xB001 0, requester] [] else hpDiscard (hpRx d)

/-- R509: a frame that matches no row. -/
def unmatchedFrame (d : Dev) : Dev := hpDiscard (hpRx d)

/-! ### Queue pairs in error (R519) -/

/-- A fault record for host window writes that were lost, and the record of the descriptor with them.
DEDUCED, log 34. -/
def loseWrites (d : Dev) (f : Nat) (a : FdActive) (rs : List QpReq) : FdActive × Dev :=
  let j := (rs.map (fun r => r.jaddr)).headD 0
  let x : FaultRec := { fid := 0, cause := 3, fe := f, write := true, ctx := a.entry.ctx, step := trunc 32 d.seq.step, jaddr := j
                        item := a.seq }
  let r := faultArrive d x
  ({ a with fault := true, fid := r.1, redo := a.redo ++ rs.map (fun r => (r.win, r.off, r.jaddr, r.payload)) }, r.2)

/-- The writes of one descriptor lost with queue pair `rs` came from. -/
def writesOf (rs : List QpReq) (f : Nat) (a : FdActive) : List QpReq :=
  rs.filter (fun r => !r.read && r.unit == f && r.item == a.seq)

/-- Descriptors whose accesses a failed queue pair carried stop at a fault with cause 0x03. -/
def failEngine (rs : List QpReq) (d : Dev) (f : Nat) : Dev :=
  (feAt d f).active.foldl (fun x a =>
    let ws := writesOf rs f a
    if !ws.isEmpty then
      let r := loseWrites x f a ws
      setActive r.2 f r.1
    else if a.hostWait && rs.any (fun r => r.read && r.unit == f && r.item == a.seq) then runActive x f a
    else x) d

/-- The same for suspended records. -/
def failRecords (rs : List QpReq) (d : Dev) (t : Task) : Dev :=
  t.places.foldl (fun x p =>
    let r := p.2.records.foldl (fun (s : List FdActive × Dev) a =>
      let ws := writesOf rs p.1 a
      if ws.isEmpty then (s.1 ++ [a], s.2)
      else
        let y := loseWrites s.2 p.1 a ws
        (s.1 ++ [y.1], y.2)) ([], x)
    match taskAt r.2 t.id with
    | some u => setTask r.2 { u with places := tset u.places p.1 { p.2 with records := r.1 } }
    | none => r.2) d

/-- A queue pair enters error (R519). -/
def qpError (d : Dev) (i : Nat) : Dev :=
  let q := qpAt d i
  let rs := q.reqs ++ q.queued
  let d1 := raise (setQp d i { q with err := true, reqs := [], queued := [] }) 0x8B05 i 0
  let d2 := (List.range 16).foldl (failEngine rs) d1
  d2.seq.tasks.foldl (failRecords rs) d2

/-- Frames of queue pair `i` that wait to be sent are dropped. DESIGN CHOICE, log 66. -/
def dropTx (d : Dev) (i : Nat) : Dev :=
  { d with hp := { d.hp with txq := d.hp.txq.filter (fun f => !(decide (2 ≤ f.kind ∧ f.kind ≤ 7) && f.fields.headD 0 == i)) } }

/-- R519: a write to HpQpReset. DESIGN CHOICE, log 66. -/
def qpReset (d : Dev) (i : Nat) : Dev :=
  if 128 ≤ i then send d (.status 0xB033 0 5)
  else if !qpEnabled d i then send d (.status 0xB033 0 6)
  else send (setQp (dropTx d i) i qpReset0) (.status 0xB033 0 0)

/-! ### Responder (R513, R516, R518) -/

/-- A packet for queue pair `i`: counted; discarded when the pair is not in use or in error; a CE mark is answered
with a CNP at most once per 50 µs (R513). -/
def qpPacket (d : Dev) (i : Nat) (ce : Bool) (go : Dev → Dev) : Dev :=
  let d1 := hpRx d
  if !qpEnabled d i || (qpAt d i).err then hpDiscard d1
  else
    let q := qpStart d i
    let d2 := setQp d1 i q
    let due := match q.lastCnpSent with
      | some t => decide (t + 50000 ≤ d.uptime)
      | none => true
    let d3 := if ce && due then
        hostSend (bump (setQp d2 i { q with lastCnpSent := some d.uptime }) 0xB056 0 1) 7 [i, fld (qpRow d i) 252 229] []
      else d2
    go d3

/-- Send an ACK (kind 4) or a NAK (kind 5, with its code: 0 sequence error, 1 invalid request, 2 remote access error,
3 remote operational error) for a PSN. -/
def qpAck (d : Dev) (i psn : Nat) : Dev := hostSend d 4 [i, fld (qpRow d i) 252 229, psn] []
def qpNak (d : Dev) (i psn code : Nat) : Dev := hostSend d 5 [i, fld (qpRow d i) 252 229, psn, code] []

/-- A PSN ahead of the expected one: one NAK Sequence Error, and the packet is discarded (R518). -/
def qpAhead (d : Dev) (i : Nat) : Dev :=
  let q := qpAt d i
  if q.nakSent then d else qpNak (setQp d i { q with nakSent := true }) i q.expPsn 0

/-- Distance of a PSN from the expected one. -/
def psnDist (q : Qp) (psn : Nat) : Nat := (psn + (2 ^ 24 - q.expPsn)) % 2 ^ 24

/-- A memory key row allows an access (R516). -/
def keyAllows (row rkey va len : Nat) (write : Bool) : Bool :=
  bitAt row 191 && bitAt row (if write then 189 else 190) && fld row 159 128 == rkey && decide (fld row 127 80 ≤ va) &&
    decide (va + len ≤ fld row 127 80 + fld row 79 32)

/-- 64 KiB pages a range touches. -/
def pagesOf (va len : Nat) : List Nat :=
  if len = 0 then [] else (List.range ((va + len - 1) / 65536 + 1 - va / 65536)).map (fun k => (va / 65536 + k) * 65536)

/-- The key check and the translation of the whole range (R516). -/
def remoteOk (d : Dev) (rkey va len : Nat) (write : Bool) : Bool × Dev :=
  if (List.range 64).any (fun k => keyAllows (cfg d 0xB032 (k + 1)) rkey va len write) then
    (pagesOf va len).foldl (fun s p =>
      if !s.1 then s
      else
        match translate s.2 17 (p % 2 ^ 48) write with
        | (.dev a _, d1) => (accessible d1 a 65536, d1)
        | (_, d1) => (false, d1)) (true, d)
  else (false, d)

/-- Pieces of a range, none crossing a 64 KiB page. -/
def rangePieces (va len : Nat) : List (Nat × Nat) :=
  (pagesOf va len).map (fun p => (max va p, min (va + len) (p + 65536) - max va p))

/-- Bytes of a checked range, read as requester 13 through the caches of the halves that own them (R202), from half 0,
where the host port is (R660); none when a word of them is uncorrectable, whose event is raised (R231). -/
def remoteRead (d : Dev) (va len : Nat) : Option (List Byte) × Dev :=
  (rangePieces va len).foldl (fun s p =>
    match s.1, translate s.2 17 (p.1 / 65536 * 65536 % 2 ^ 48) false with
    | some bs, (.dev a _, d1) =>
      let r := readThrough d1 0 64 0 (a + p.1 % 65536) p.2
      (if (ueIn d1.mem (a + p.1 % 65536) p.2).isEmpty then some (bs ++ r.1) else none, r.2)
    | _, _ => s) (some [], d)

/-- Write bytes of a checked range as requester 13. DESIGN CHOICE, log 51. -/
def remoteWrite (d : Dev) (va : Nat) (bs : List Byte) : Dev :=
  (rangePieces va bs.length).foldl (fun x p =>
    match translate x 17 (p.1 / 65536 * 65536 % 2 ^ 48) true with
    | (.dev a _, d1) => unitWrite d1 0 64 0 (a + p.1 % 65536) ((bs.drop (p.1 - va)).take p.2)
    | (_, d1) => d1) d

/-- A refused access: NAK Remote Access Error, and the queue pair enters error (R516). -/
def remoteRefused (d : Dev) (i psn : Nat) : Dev := qpError (raiseStep (bump (qpNak d i psn 2) 0xB054 0 1) 0x4B06 i psn) i

/-- An unsupported or misplaced request (R514). -/
def qpInvalid (d : Dev) (i psn : Nat) : Dev := qpError (qpNak d i psn 1) i

/-- Take the bytes of a WRITE packet at `va`, with `left` of the request still to come; the last is acknowledged. -/
def writeBody (d : Dev) (i psn va left : Nat) (last : Bool) (bs : List Byte) : Dev :=
  let d1 := remoteWrite d va bs
  let q := qpAt d1 i
  let d2 := setQp d1 i { q with expPsn := (q.expPsn + 1) % 2 ^ 24, nakSent := false
                                writing := if last then none else some (va + bs.length, left - bs.length) }
  if last then qpAck d2 i psn else d2

/-- R516: an RDMA WRITE packet: `op` 0 first, 1 middle, 2 last, 3 only; others are opcodes the port does not
support (R514). -/
def rdmaWrite (d : Dev) (i op psn va rkey len : Nat) (bs : List Byte) (ce : Bool) : Dev :=
  qpPacket d i ce (fun x =>
    let q := qpAt x i
    let r := psnDist q psn
    if 4 ≤ op then qpInvalid x i psn
    else if 8388608 ≤ r then qpAck x i psn
    else if r ≠ 0 then qpAhead x i
    else if op = 0 ∨ op = 3 then
      if q.writing.isSome ∨ len < bs.length ∨ (op = 3 ∧ bs.length ≠ len) then qpInvalid x i psn
      else
        match remoteOk x rkey va len true with
        | (true, x1) => writeBody x1 i psn va len (op == 3) bs
        | (false, x1) => remoteRefused x1 i psn
    else
      match q.writing with
      | none => qpInvalid x i psn
      | some (a, left) =>
        if left < bs.length ∨ (op = 2 ∧ bs.length ≠ left) then qpInvalid x i psn
        else writeBody x i psn a left (op == 2) bs)

/-- Answer a READ in packets of the PMTU, up to the first that would carry an uncorrectable word (R516): whether all
went. -/
def readReply (i psn mtu va len : Nat) : Nat → Nat → Dev → Bool × Dev
  | 0, _, d => (true, d)
  | fuel + 1, k, d =>
    if len ≤ k * mtu ∧ 0 < k then (true, d)
    else
      match remoteRead d (va + k * mtu) (min mtu (len - k * mtu)) with
      | (some bs, d1) =>
        readReply i psn mtu va len fuel (k + 1) (hostSend d1 6 [i, fld (qpRow d1 i) 252 229, (psn + k) % 2 ^ 24] bs)
      | (none, d1) => (false, qpNak d1 i ((psn + k) % 2 ^ 24) 3)

/-- R516, R518: an RDMA READ: `busy` READs of the queue pair are still being answered. DESIGN CHOICE, log 53. -/
def rdmaRead (d : Dev) (i psn va rkey len busy : Nat) (ce : Bool) : Dev :=
  qpPacket d i ce (fun x =>
    let q := qpAt x i
    let r := psnDist q psn
    let n := max 1 (ceilDiv len (qpMtu x i))
    if r ≠ 0 ∧ r < 8388608 then qpAhead x i
    else if fld (qpRow x i) 16 13 + 1 ≤ busy then qpInvalid x i psn
    else
      match remoteOk x rkey va len false with
      | (false, x1) => remoteRefused x1 i psn
      | (true, x1) =>
        let x2 := if r = 0 then setQp x1 i { q with expPsn := (q.expPsn + n) % 2 ^ 24, nakSent := false } else x1
        match readReply i psn (qpMtu x i) va len n 0 x2 with
        | (true, x3) => x3
        | (false, x3) => qpError x3 i)

/-! ### Requester (R517, R518) -/

/-- The request ends at or before PSN `p`, seen from the oldest outstanding PSN `base`. -/
def reqEnds (base p : Nat) (r : QpReq) : Bool :=
  decide ((r.psn + (2 ^ 24 - base)) % 2 ^ 24 + r.packets ≤ (p + (2 ^ 24 - base)) % 2 ^ 24 + 1)

/-- Send queued READs while MAXRD allows. -/
def qpPump : Nat → Dev → Nat → Dev
  | 0, d, _ => d
  | fuel + 1, d, i =>
    let q := qpAt d i
    match q.queued with
    | r :: rest =>
      if readsOut q < fld (qpRow d i) 16 13 + 1 then qpPump fuel (qpSend (setQp d i { q with queued := rest }) i r) i else d
    | [] => d

/-- Requests acknowledged up to PSN `p` leave: WRITEs ahead of the first READ whose data has not come (R517). -/
def qpAcked (d : Dev) (i p : Nat) : Dev :=
  let q := qpAt d i
  match q.reqs with
  | [] => d
  | r :: _ =>
    let done := q.reqs.takeWhile (fun x => !x.read && reqEnds r.psn p x)
    setQp d i { q with reqs := q.reqs.drop done.length, retries := if done.isEmpty then q.retries else 0 }

/-- Go-back-N from the first unacknowledged request; after RETRY retries without progress the pair fails (R518). -/
def qpRetry (d : Dev) (i : Nat) : Dev :=
  let q := qpAt d i
  if q.reqs.isEmpty then d
  else if fld (qpRow d i) 24 22 ≤ q.retries then qpError d i
  else q.reqs.foldl (fun x r => reqFrame x i r) (bump (setQp d i { q with retries := q.retries + 1 }) 0xB055 0 1)

/-- R518: an ACK (`kind` 0), a NAK Sequence Error (1) or another NAK (2) for PSN `psn`. -/
def rdmaAck (d : Dev) (i kind psn : Nat) : Dev :=
  qpPacket d i false (fun x =>
    if kind = 0 then qpAcked x i psn
    else if kind = 1 then qpRetry (qpAcked x i ((psn + 2 ^ 24 - 1) % 2 ^ 24)) i
    else qpError x i)

/-- Give bytes of a host window to the descriptor that asked for them. -/
def landHost (d : Dev) (r : QpReq) (off : Nat) (bs : List Byte) (last : Bool) : Dev :=
  match (feAt d r.unit).active.find? (fun a => a.seq == r.item) with
  | some a =>
    let a1 := { a with hostBytes := (addrBytes (r.win * 2 ^ 64 + r.off + off) bs).foldl (fun t e => tset t e.1 e.2) a.hostBytes }
    let d1 := setActive d r.unit a1
    if last && a1.hostWait then runActive d1 r.unit a1 else d1
  | none => d

/-- R517: a response packet of a host window READ lands. A packet that is not the next of its READ is left for a
retransmission. -/
def readResponse (d : Dev) (i psn : Nat) (bs : List Byte) (ce : Bool) : Dev :=
  qpPacket d i ce (fun x =>
    let q := qpAt x i
    match q.reqs.find? (fun r => r.read && (r.psn + r.got) % 2 ^ 24 == psn) with
    | none => x
    | some r =>
      let last := decide (r.packets ≤ r.got + 1)
      let off := r.got * qpMtu x i
      let reqs := if last then q.reqs.erase r else q.reqs.map (fun y => if y.psn = r.psn then { r with got := r.got + 1 } else y)
      let x1 := setQp x i { q with reqs, retries := 0 }
      qpPump 16 (landHost x1 r off bs last) i)

/-- R518: an ACK timeout. -/
def retransmitTimeout (d : Dev) (i : Nat) : Dev := if (qpAt d i).err || !qpEnabled d i then d else qpRetry d i

/-! ### Rate and flow control (R512, R513) -/

/-- R513: a CNP halves the rate, not below 1/64; a decrease is followed by 50 µs without another. -/
def cnpReceive (d : Dev) (i : Nat) : Dev :=
  qpPacket d i false (fun x =>
    let q := qpAt x i
    let free := match q.lastDecrease with
      | some t => decide (t + 50000 ≤ x.uptime)
      | none => true
    if free then setQp x i { q with rate := max (2 ^ 26) (q.rate / 2), lastDecrease := some x.uptime } else x)

/-- R513: 55 µs without a CNP raise the rate by 1/16 of the link rate. -/
def rateIncrease (d : Dev) (i : Nat) : Dev :=
  if qpEnabled d i then setQp d i { qpAt d i with rate := min (2 ^ 32) ((qpAt d i).rate + 2 ^ 28) } else d

/-- Replace a priority. -/
def setPfc (d : Dev) (p : Nat) (x : Pfc) : Dev := { d with hp := { d.hp with pfc := tset d.hp.pfc p x } }

/-- R512: a pause for a priority the port obeys halts its classes; quanta 0 resumes them. -/
def pfcPause (d : Dev) (p quanta : Nat) : Dev :=
  let d1 := hpRx d
  let x := pfcAt d1 p
  if !bitAt (cfg d 0xB025 0) p then d1
  else if quanta = 0 then txDrain (setPfc d1 p { x with paused := false })
  else setPfc d1 p { x with paused := true, since := if x.paused then x.since else d.uptime }

/-- R512: the receive buffer's share of a priority holds `used` bytes: past 3/4 the port pauses the peer, again every
half quanta period while above 1/2, and resumes it below 1/2. DESIGN CHOICE, log 53. -/
def pfcPauseRefresh (d : Dev) (p used : Nat) : Dev :=
  let en := cfg d 0xB025 0
  let share := 8388608 / max 1 (popCount 8 en)
  let x := pfcAt d p
  if !bitAt en p then d
  else if share * 3 < used * 4 ∨ (x.sent ∧ share < used * 2) then hostSend (setPfc d p { x with sent := true }) 8 [p, 0xFFFF] []
  else if x.sent ∧ used * 2 < share then hostSend (setPfc d p { x with sent := false }) 8 [p, 0] []
  else d

/-- R512: a transmit pause has lasted longer than HpPfcStormUs. -/
def pfcStorm (d : Dev) (p : Nat) : Dev :=
  if (pfcAt d p).paused ∧ (pfcAt d p).since + 1000 * cfg d 0xB026 0 < d.uptime then raiseStep d 0x4B07 p 0 else d

/-- R512: the quanta of a received pause have run out. -/
def pauseQuantaExpiry (d : Dev) (p : Nat) : Dev := txDrain (setPfc d p { pfcAt d p with paused := false })

/-! ### PTP (R520 to R523) -/

/-- Replace the PTP state. -/
def setPtp (d : Dev) (x : Ptp) : Dev := { d with hp := { d.hp with ptp := x } }

/-- The message belongs to this domain and to the chosen time transmitter. -/
def ptpMine (d : Dev) (dom src : Nat) : Bool :=
  dom == cfg d 0xB040 0 && (match d.hp.ptp.best with
    | some l => l.getLast? == some src
    | none => true)

/-- A magnitude below 100 ns. -/
def smallOffset (o : Int) : Bool := decide (o.natAbs < 100)

/-- R522: one Sync interval has been measured: acquiring, and locked after 16 in a row below 100 ns. -/
def ptpInterval (d : Dev) (o : Int) : Dev :=
  let p := d.hp.ptp
  let good := if smallOffset o then p.good + 1 else 0
  let st := if 16 ≤ good then 2 else if p.state = 2 then 2 else 1
  let d1 := setObj (setPtp d { p with offset := o, good, state := st }) 0xB044 0 (ofSigned 32 o)
  if st = 2 ∧ p.state ≠ 2 then raise d1 0x0B0A 0 0 else d1

/-- A whole Sync: origin `t1`, receipt `t2`. A delay request leaves. DESIGN CHOICE, log 52. -/
def ptpMeasure (d : Dev) (t1 t2 : Nat) : Dev :=
  let p := d.hp.ptp
  let o : Int := (t2 : Int) - t1 - p.delay
  let seq := (p.reqSeq + 1) % 65536
  let d1 := setPtp d { p with t1, t2, haveSync := true, sync := none, delayReq := some (d.ptp, seq), reqSeq := seq }
  hostSend (ptpInterval d1 o) 9 [cfg d 0xB040 0, seq] []

/-- R520: a Sync, one-step with its origin time or two-step. `rx` is its receive timestamp. -/
def ptpSync (d : Dev) (dom src seq : Nat) (two : Bool) (origin rx : Nat) : Dev :=
  let d1 := hpRx d
  if !ptpMine d dom src then d1
  else if two then setPtp d1 { d1.hp.ptp with sync := some (seq, rx) }
  else ptpMeasure d1 origin rx

/-- R520: a Follow_Up supplies a two-step Sync's origin time. -/
def ptpFollowUp (d : Dev) (dom src seq origin : Nat) : Dev :=
  let d1 := hpRx d
  match d.hp.ptp.sync with
  | some (s, rx) => if ptpMine d dom src && s == seq then ptpMeasure d1 origin rx else d1
  | none => d1

/-- R522: correct the clock for an offset: a step past the threshold, a frequency change within 100 ppm below it.
DESIGN CHOICE, log 52. -/
def ptpCorrect (d : Dev) (o : Int) : Dev :=
  let p := d.hp.ptp
  if cfg d 0xB043 0 < o.natAbs then
    raise { setPtp d { p with good := 0, state := 1 } with ptp := ((d.ptp : Int) - o).toNat % 2 ^ 64 } 0x4B08 0 (ofSigned 64 o)
  else
    let f := nextFree d
    setPtp f.2 { p with slew := (Config.ptpSlew f.1 % 200001 : Nat) - (100000 : Int) }

/-- R520: a Delay_Resp completes a path delay measurement; the clock is stepped or slewed. -/
def ptpDelayResp (d : Dev) (dom src seq t4 : Nat) : Dev :=
  let d1 := hpRx d
  let p := d.hp.ptp
  match p.delayReq with
  | some (t3, s) =>
    if ptpMine d dom src && s == seq && p.haveSync then
      let delay : Int := (((p.t2 : Int) - p.t1) + ((t4 : Int) - t3)) / 2
      let o : Int := (p.t2 : Int) - p.t1 - delay
      let d2 := setObj (setPtp d1 { p with delay, offset := o, delayReq := none }) 0xB044 0 (ofSigned 32 o)
      ptpCorrect d2 o
    else d1
  | none => d1

/-- Data sets in order of comparison, the sender's identity last; the lower is better. -/
def listBefore : List Nat → List Nat → Bool
  | [], _ => true
  | _ :: _, [] => false
  | a :: as, b :: bs => decide (a < b) || (a == b && listBefore as bs)

/-- R520: an Announce feeds the choice of the time transmitter. -/
def ptpAnnounce (d : Dev) (dom : Nat) (ds : List Nat) : Dev :=
  let d1 := hpRx d
  if dom ≠ cfg d 0xB040 0 then d1
  else
    match d.hp.ptp.best with
    | some b =>
      if b.getLast? = ds.getLast? ∨ listBefore ds b then setPtp d1 { d1.hp.ptp with best := some ds } else d1
    | none => setPtp d1 { d1.hp.ptp with best := some ds }

/-- R522: three Announce intervals without the time transmitter: holdover, with the last frequency kept. -/
def ptpAnnounceTimeout (d : Dev) : Dev :=
  if d.hp.ptp.state = 1 ∨ d.hp.ptp.state = 2 then
    raise (setPtp d { d.hp.ptp with state := 3, good := 0, best := none, sync := none }) 0x4B09 0 0
  else setPtp d { d.hp.ptp with best := none }

/-- One microsecond passes: the uptime and the device time advance, the latter with its frequency correction.
DESIGN CHOICE, log 62. DESIGN CHOICE, log 71. -/
def clockTick (d : Dev) : Dev :=
  let p := d.hp.ptp
  let f := p.frac + p.slew
  { setPtp d { p with frac := f % 1000000 } with
    uptime := d.uptime + 1000, ptp := ((d.ptp : Int) + 1000 + f / 1000000).toNat % 2 ^ 64 }

end Sys2Proof.Machine
end

