-- ==== Sys2Proof/Machine/VcPass.lean ====
section
/-! DEFINITION. A vector chain pass as a whole (chapters 05, 06, 12 and 15): opening and checking, compression of
weight-gradient slices, pieces for the update path, outputs and write semaphores. -/

namespace Sys2Proof.Machine

/-! ### Compression (R443 to R446) -/

/-- Bucket and slice a compressed pass names (R443). -/
def sliceOf (p : Pass) : Nat × Nat := (fld p.red 47 24, fld p.red 23 0)

/-- The slice exists. -/
def sliceOk (d : Dev) (p : Pass) : Bool :=
  let s := sliceOf p
  bktEn d s.1 && decide (s.2 < bktNrb d s.1 * bktCblk d s.1)

/-- What compressing one block of 256 gives: sign bits, scale word, new error memory, and whether it was made NaN by a
NaN or by an infinity. -/
structure CmpBlock where
  signs : List Bool
  word : Nat
  err : List Fx
  nan : Bool
  inf : Bool
  deriving DecidableEq, Repr

/-- BF16 bits of an FP32 value rounded by RNE. -/
def bf16Bits (x : F32) : Nat := (convert .bf16 .rne 0 false (ofF32 x)).1

/-- The FP32 value of BF16 bits. -/
def bf16Val (b : Nat) : F32 := BitVec.ofNat 32 (b * 65536)

/-- compress_block (R445, R446); a block with both a NaN and an infinity counts as one with a NaN. DESIGN CHOICE, log 94. -/
def compressBlock (ver : Nat) (xs es : List F32) (live : List Bool) : CmpBlock :=
  let y := (xs.zip (es.zip live)).map (fun t => if t.2.2 then some (f32Add t.1 t.2.1) else none)
  let vals := y.filterMap id
  let anyNan := vals.any (fun v => isNan (ofF32 v))
  let anyInf := vals.any (fun v => isInf (ofF32 v))
  if anyNan || anyInf then
    { signs := y.map (fun _ => false), word := if ver = 1 then 0x7FC00000 else 0x7FC07FC0
      err := y.map (fun _ => .fin false 0 1), nan := anyNan, inf := !anyNan }
  else
    let neg := fun (v : F32) => v.msb
    let signs := y.map (fun v => v.any neg)
    let count := fun (b : Bool) => (vals.filter (fun v => neg v == b)).length
    let mean := fun (b : Bool) =>
      f32Div (treeSum (y.map (fun v => v.bind (fun z => if neg z = b then some (z &&& 0x7FFFFFFF#32) else none)))) (f32Nat (max 1 (count b)))
    let s := if vals.isEmpty then f32Zero else f32Div (treeSum (y.map (fun v => v.map (fun z => z &&& 0x7FFFFFFF#32)))) (f32Nat vals.length)
    let pos := if ver = 1 then s else bf16Val (bf16Bits (mean false))
    let ngt := if ver = 1 then s else bf16Val (bf16Bits (mean true))
    let word := if ver = 1 then s.toNat else bf16Bits (mean false) * 65536 + bf16Bits (mean true)
    { signs, word, nan := false, inf := false
      err := y.map (fun v => match v with
        | none => .fin false 0 1
        | some z => ofF32 (f32Sub z (if neg z then ngt ^^^ 0x80000000#32 else pos))) }

/-- Pack 256 signs into 32 bytes, element k in bit k mod 8 of byte k / 8 (R444). -/
def packSigns (l : List Bool) : List Byte :=
  (List.range 32).map (fun i => BitVec.ofNat 8 (sumN ((List.range 8).map (fun j => b2n (l.getD (8 * i + j) false) * 2 ^ j))))

/-- The 32 blocks of a compressed tile. -/
def compressTile (ver : Nat) (i : PassIn) (es : List Elem) (js : List F32) : List CmpBlock :=
  (List.range 32).map (fun j =>
    let take := fun {α : Type} (l : List α) => (l.drop (256 * j)).take 256
    compressBlock ver (take (es.map (fun e => e.out))) (take js) (take i.live))

/-- Write the blocks of slice `s` into its staging (R444). -/
def stageBlocks (d : Dev) (half : Nat) (g : Staging) (s : Nat) (bs : List CmpBlock) : Dev :=
  let cblk := bktCblk d g.bucket
  let n := bktNblk d g.bucket
  ((List.range bs.length).zip bs).foldl (fun x jb =>
    let i := (32 * (s / cblk) + jb.1) * cblk + s % cblk
    writeThrough (writeThrough x half 0 (g.base + 32 * i) (packSigns jb.2.signs)) half 0 (g.base + 32 * n + 4 * i)
      (leBytes 4 jb.2.word)) d

/-- New error memory in JFMT, dead positions +0 (R445). -/
def errOut (w : Nat) (i : PassIn) (bs : List CmpBlock) : Conv :=
  match fmtOfCode (cwJfmt w) with
  | some (f, _) => convertAll f .rne true (bs.flatMap (fun b => b.err)) i.live (List.replicate i.live.length 0)
  | none => { codes := [], scales := [], flags := noFlags }

/-! ### Pieces for the update path (R157) -/

/-- The pieces of a DEST 0b011 pass, one per live tile row below ROWS. -/
def passPieces (d : Dev) (p : Pass) (last : Nat) (i : PassIn) (es : List Elem) : List Piece :=
  let s := sliceOf p
  let b := s.1
  (liveRows last).filterMap (fun m =>
    let row := 128 * (bktRb0 d b + s.2 / bktCblk d b) + m
    if row < bktRows d b then
      some { entry := bktPent d b, use := bktUse d b, step := p.step, place := p.place
             off := row * (64 * bktCblk d b) + 64 * (s.2 % bktCblk d b)
             vals := (List.range 64).map (fun n => if i.live.getD (64 * m + n) false then (es.getD (64 * m + n) ⟨f32Zero, f32Zero, f32Zero⟩).out else f32Zero) }
    else none)

/-! ### Opening (R148, R188, R723) -/

/-- Bits of a join value on the port: a record of a statistics join, or an element. -/
def joinBits (w : Nat) (jrec : Bool) : Nat :=
  if jrec then 128
  else match fmtOfCode (cwJfmt w) with
    | some (f, _) => portBits f
    | none => 0

/-- Values a JOIN descriptor supplies: elements, each unit giving those it holds, or 16 B records for a statistics join
(R282, R723). -/
def joinSupply (w : Nat) (jrec : Bool) (ds : Nat) : Nat := elemTotal ds * (8 * unitDst ds) / joinBits w jrec

/-- Shape of a per-element join: rows and columns of its descriptor. -/
def joinShape (w ds : Nat) : Nat × Nat := (blockRows ds, blockCols ds (joinBits w false))

/-- The JOIN descriptor supplies exactly the values the pass needs (R723). -/
def joinFits (w : Nat) (p : Pass) (i : PassIn) (ds : Nat) : Bool :=
  joinSupply w p.jrec ds == joinCount w i && (p.jrec || cwJbc w != 0 || joinShape w ds == (i.rows, i.cols))

/-- Why a pass may not open: the event of R148, R188 or R443. -/
def passFault (d : Dev) (c : Nat) (w : Nat) (p : Pass) (i : PassIn) (join : Option PortBlock) : Option Nat :=
  let v := vcAt d c
  if p.src = 8 ∧ 8192 < i.rows * i.cols then some 0x8701
  else if !configValid w || (p.src == 8) != (cwSrc w != 0) then some 0x8401
  else if cwCmp w && (!sliceOk d p || decide (2 < cwJfmt w)) then some 0x8A01
  else if cwDest w = 3 ∧ (!sliceOk d p || parNmem d (bktPent d (sliceOf p).1) != 0) then some 0x8401
  else if p.jrec && !statJoinOk w then some 0x8414
  else if p.srec && !((cwRed w == 7 || cwRed w == 8) && cwAlu1 w == 0 && cwFunc w == 0 && cwAlu2 w == 0 && cwDest w == 4) then some 0x8401
  else
    match p.mask with
    | some s =>
      let m := tget maskReset v.masks s
      if !maskValid m || (bitAt m 252 && !docOrdered v.doc.entries) then some 0x8414
      else if join.any (fun b => !joinFits w p i b.desc) then some 0x8401 else none
    | none => if join.any (fun b => !joinFits w p i b.desc) then some 0x8401 else none

/-- The document table a pass needs is not the one the chain keeps (R187). -/
def docNeeded (v : Vc) (p : Pass) : Option (Nat × Nat) :=
  match p.mask with
  | some s =>
    let m := tget maskReset v.masks s
    let a := fld m 63 0
    let n := fld m 185 174
    if bitAt m 252 && (v.doc.addr != a || v.doc.count != n || v.doc.loading.isSome) then some (a, n) else none
  | none => none

/-- R187: a document start table reload completes; the table is read through the fetch engine (R189, R198). -/
def docTableLoaded (d : Dev) (c : Nat) : Dev :=
  match (vcAt d c).doc.loading with
  | none => d
  | some (a, n) =>
    let r := chainRead d c (clusterCtx d c) a (4 * n)
    setVc r.2 c { vcAt r.2 c with doc := { addr := a, count := n, entries := docEntries (r.1.getD []), loading := none } }

/-! ### Ending a pass -/

/-- Take a pass, its tile or block and its join block away. -/
def consumePass (d : Dev) (c : Nat) (p : Pass) (join : Option PortBlock) : Dev :=
  let v := vcAt d c
  let v1 := { v with passes := v.passes.filter (fun q => q.num != p.num)
                     srcs := if p.src = 8 then v.srcs.tail else v.srcs
                     joins := match join with
                       | some b => v.joins.filter (fun x => x.seq != b.seq)
                       | none => v.joins }
  let d1 := setVc d c v1
  if p.src < 8 then { d1 with tiles := tdel d1.tiles (8 * c + p.src) } else d1

/-- The write semaphore of a lane group (R164): 0xF18 + t for a tile of TU t, 0xF20 for a memory-sourced block.
DESIGN CHOICE, log 38. -/
def writeSem (src : Nat) : Nat := 0xF18 + src

/-- Bytes, at two elements or one element of some bytes each, that belong to the discarded groups `mis` (R166).
DEDUCED, log 47. -/
def lostBytes (mis : Nat) (f : Fmt) (n : Nat) : List Nat :=
  if mis = 0 then []
  else (List.range (if f = .e2m1 then ceilDiv n 2 else n * storedWidth f)).filter (fun b =>
    bitAt mis ((if f = .e2m1 then 2 * b else b / storedWidth f) / 32))

/-- Put the outputs of a pass on the output port: bytes, those that are lost, and whether they are spawn data. The last of
them carries the write semaphore, and a pass without output owes it at once (R164). -/
def putOutputs (d : Dev) (c : Nat) (p : Pass) (outs : List (List Byte × List Nat × Bool)) : Dev :=
  let v := vcAt d c
  let mk := outs.mapIdx (fun k o => { data := o.1, lost := o.2.1, ctx := p.ctx, src := p.src, task := p.task, spawn := o.2.2, num := p.num
                                      sem := if k + 1 = outs.length then writeSem p.src else 0xFFF : OutBlock })
  if outs.isEmpty then setVc d c { v with owed := v.owed ++ [(p.src, writeSem p.src, p.ctx)] }
  else setVc d c { v with outs := v.outs ++ mk }

/-- Count a pass's flags and raise 0x4404 per VC, flag and step (R158). -/
def notePassFlags (d : Dev) (c : Nat) (f : CFlags) : Dev :=
  [(f.ovf, 3, 0x4024), (f.unf, 2, 0x4025), (f.nan, 1, 0x4026), (f.inf, 0, 0x4027)].foldl (fun x t =>
    if t.1 then
      let y := bump x t.2.2 (c + 1) 1
      if bitAt (cfg d 0x4030 0) t.2.1 then raiseOnce y 0x4404 (c + 16 * t.2.1) c t.2.1 else y
    else x) d

/-- What the pass counts as it runs: elements, busy cycles, restore overflow, frame positions, joined records. -/
def notePass (d : Dev) (c w : Nat) (p : Pass) (i : PassIn) (tile : Option Tile) (recs : List Nat) : Dev :=
  let n := i.rows * i.cols
  let cost := passCost w p.jrec
  let cyc := if d.sup.checked then 2 * cost * ceilDiv n 64 else if p.src = 8 then cost * ceilDiv n 512 else 128 * cost
  let d1 := bump (bump d 0x4020 (c + 1) n) 0x4021 (c + 1) cyc
  let ro := if tile.isSome then overCount i else 0
  let d2 := if ro = 0 then d1 else raiseStep (bump d1 0x4028 (c + 1) ro) 0x4403 c ro
  let fr := if p.mask.isSome then frameCount p i else 0
  let d3 := if fr = 0 then d2 else raiseStep (bump d2 0x4065 (c + 1) fr) 0x4413 c fr
  if isSoftmax w p.jrec then recs.foldl (fun x r => noteRecord x c r false) d3 else d3

/-- The primary and secondary outputs of a pass that does not compress: bytes with where they go, and the flags. The block
scales of an MX output follow its element bytes. DEDUCED, log 47. DESIGN CHOICE, log 95. -/
def passOutputs (d : Dev) (w : Nat) (p : Pass) (i : PassIn) (es : List Elem) (mis : Nat) :
    List (List Byte × List Nat × Bool) × CFlags × CFlags :=
  let prim := if cwDest w = 4 ∨ p.srec then none else some (chamOut d w p i es)
  let sec := if cwSen w then some (secOut w i es) else none
  let bytes := fun (code : Nat) (x : Conv) (spawn : Bool) => match fmtOfCode code with
    | some (f, _) => (packElems f x.codes ++ x.scales.map (fun s => BitVec.ofNat 8 s), lostBytes mis f x.codes.length, spawn)
    | none => ([], [], spawn)
  let ps := match prim with
    | some x => if cwDest w ≤ 1 then [bytes (cwOfmt w) x (cwDest w == 1)] else []
    | none => []
  let ss := match sec with
    | some x => [bytes (fld w 167 164) x false]
    | none => []
  (ps ++ ss, (prim.map (fun x => x.flags)).getD noFlags, (sec.map (fun x => x.flags)).getD noFlags)

/-- Run RED for a pass (R153, R180). -/
def passReduce (d : Dev) (c w : Nat) (p : Pass) (i : PassIn) (es : List Elem) (blk : Option PortBlock) : Dev :=
  if cwRed w = 0 then d
  else
    match p.srec, blk with
    | true, some b => recordFold d c w p i b
    | _, _ => reduceRun d c w p (redPartials w i es)

/-- A compressed pass (R156): staging, error memory. `ovf` says that ING or JOIN took a value out of range. -/
def passCompress (d : Dev) (c w : Nat) (p : Pass) (i : PassIn) (es : List Elem) (js : List F32) (g : Staging) (mis : Nat)
    (ovf : Bool) : Dev :=
  let ver := cfg d 0xA016 0
  let bs := compressTile ver i es js
  let err := errOut w i bs
  let bad := (bs.filter (fun b => b.nan || b.inf)).length
  let d1 := stageBlocks d (c / 8) g (sliceOf p).2 bs
  let d2 := if bad = 0 then d1 else raiseStep (bump d1 0xA058 0 bad) 0x4A0C c bad
  let fl := { err.flags with ovf := err.flags.ovf || ovf, nan := err.flags.nan || bs.any (fun b => b.nan), inf := err.flags.inf || bs.any (fun b => b.inf) }
  let out := match fmtOfCode (cwJfmt w) with
    | some (f, _) => (packElems f err.codes, lostBytes mis f err.codes.length, false)
    | none => ([], [], false)
  notePassFlags (putOutputs d2 c p [out]) c fl

/-- Rows of a pass whose values count as torpor: those it delivers to the update path, or all (R126, R157). -/
def torporRows (d : Dev) (w : Nat) (p : Pass) (i : PassIn) : Nat :=
  if cwDest w = 3 then bktRows d (sliceOf p).1 - 128 * (bktRb0 d (sliceOf p).1 + (sliceOf p).2 / bktCblk d (sliceOf p).1) else i.rows

/-- What a pass without compression does once its pieces are taken: counts, RED, outputs, flags, the report (R98, R158). -/
def passFinish (d : Dev) (c w : Nat) (p : Pass) (i : PassIn) (es : List Elem) (tile : Option Tile) (blk : Option PortBlock)
    (recs : List Nat) (mis : Nat) (ovf : Bool) : Dev :=
  let d2 := passReduce (notePass d c w p i tile recs) c w p i es blk
  let o := passOutputs d2 w p i es mis
  let fl := orFlags o.2.1 o.2.2
  let all := { fl with ovf := fl.ovf || ovf }
  let d4 := notePassFlags (putOutputs d2 c p o.1) c all
  if cwTsen w then conversionReport (pairRead d4 (cwTs w) p.ctx) (cwTs w) (chamAmax i es) (flagBits all) d4.seq.step else d4

/-- The stages after ING and JOIN for a pass that may run: whether it has ended, and the device. One whose output cannot be
taken stays open, and its hold is counted (R162, R175, R359, R449). -/
def passRun (d : Dev) (c w : Nat) (p : Pass) (i : PassIn) (tile : Option Tile) (blk : Option PortBlock) (jv : List (F32 × Bool))
    (recs : List Nat) (waited mis : Nat) : Bool × Dev :=
  let js := jv.map Prod.fst
  let es := elemsRun d w p i js recs
  let ovf := decide (0 < overCount i) || joinOver w i jv
  let tc := torporCounts i es (torporRows d w p i)
  let torpor := fun (x : Dev) => if cwTen w then torporReport x (fld w 159 148) tc.1 tc.2 else x
  if cwRed w != 0 && !p.srec && reorderFull (vcAt d c) p then (false, bump (bump d 0x4023 (c + 1) waited) 0x4064 (c + 1) waited)
  else if cwCmp w then
    let d0 := stagingAllocate d (sliceOf p).1 p.step p.place waited
    match stagingOf d0 (sliceOf p).1 p.step p.place with
    | none => (false, bump d0 0x4023 (c + 1) waited)
    | some g => (true, passCompress (passReduce (torpor (notePass d0 c w p i tile recs)) c w p i es blk) c w p i es js g mis ovf)
  else
    let ps := if cwDest w = 3 then passPieces d p ((tile.map (fun t => t.last)).getD 0) i es else []
    let r := deliverPieces waited (ps.drop p.given) p.given d
    if r.2.1 then (true, passFinish (torpor r.2.2) c w p i es tile blk recs mis ovf)
    else
      let v := vcAt r.2.2 c
      (false, bump (setVc r.2.2 c { v with passes := v.passes.map (fun q => if q.num = p.num then { q with given := r.1 } else q) })
        0x4023 (c + 1) waited)

/-- The SRC block a memory-sourced pass takes, once it is whole. -/
def srcBlock (v : Vc) : Option PortBlock :=
  match v.srcs with
  | b :: _ => if b.full then some b else none
  | [] => none

/-- What ING gives a pass: none while its tile or block has not come. -/
def passIng (d : Dev) (c w : Nat) (p : Pass) : Option (PassIn × Option Tile × Option PortBlock) :=
  if p.src < 8 then (tfind d.tiles (8 * c + p.src)).map (fun t => (tileIn t, some t, none))
  else
    (srcBlock (vcAt d c)).map (fun b =>
      if p.srec then
        let n := blockRows b.desc * blockCols b.desc 128
        ({ rows := blockRows b.desc, cols := blockCols b.desc 128, vals := List.replicate n f32Zero, live := List.replicate n true }, none, some b)
      else ((match fmtOfCode (fld w 245 242) with
        | some f => blockIn b f (cwSat w) p.draw
        | none => { rows := 0, cols := 0, vals := [], live := [] }), none, some b))

/-- R148: discard a pass with an event; the stage context stops. A block that is too large is an invalid descriptor of the
chain queue (R241, R282). -/
def discardPass (d : Dev) (c code : Nat) (p : Pass) (join : Option PortBlock) (tid : Nat) : Dev :=
  let d1 := consumePass d c p join
  if code = 0x8701 then
    let e := feAt d1 c
    raiseFault (setFe d1 c { e with dead := p.ctx :: e.dead }) code c (2 * 256 + p.task) p.ctx
  else raiseFault d1 code c (p.slot * 256 + tid) p.ctx

/-- The last MMA's TID, which 0x8401 names. -/
def tileTid (t : Option Tile) : Nat := (t.map (fun x => mmaTid x.last)).getD 0

/-- R166: the elements of the discarded groups `mis` take part in nothing. DEDUCED, log 47. -/
def dropGroups (mis : Nat) (i : PassIn) : PassIn :=
  if mis = 0 then i
  else
    let live := i.live.mapIdx (fun k l => l && !bitAt mis (k / 32))
    { i with live, vals := live.zipWith (fun l v => if l then v else f32Zero) i.vals }

/-- R166: a pass with mismatched groups has ended: they are counted, 0x8402 is raised and R7 applies.
DEDUCED, log 47. -/
def passMismatch (d : Dev) (c : Nat) (p : Pass) (tid mis : Nat) : Dev :=
  if mis = 0 then d else raiseFault (bump d 0x4029 (c + 1) (popCount 256 mis)) 0x8402 c (p.slot * 256 + tid) p.ctx

/-- The bitmap bytes of a pass with a block-sparse mask are read through the fetch engine (R189, R198); a pass that is held
has read them before. -/
def bitmapTouch (d : Dev) (c : Nat) (p : Pass) (v : Vc) (i : PassIn) : Dev :=
  match p.mask with
  | some s =>
    if p.read then d
    else
      let d1 := (bitmapReads p (tget maskReset v.masks s) i.rows i.cols).foldl (fun x r => (chainRead x c p.ctx r.1 r.2).2) d
      let y := vcAt d1 c
      setVc d1 c { y with passes := y.passes.map (fun q => if q.num = p.num then { q with read := true } else q) }
  | none => d

/-- R141 to R193: the oldest opened pass for lane group `src` (8: memory) of chain `c` runs on its tile or block.
`ecc` says that its configuration word is uncorrectable, bit g of `mismatch` that the 32-element group g of its elements
in row-major order mismatched in checked mode, `held` the cycles the drain waited. DEDUCED, log 47. -/
def vcPass (d : Dev) (c src : Nat) (ecc : Bool) (mismatch held : Nat) : Dev :=
  let v := vcAt d c
  match v.passes.find? (fun q => q.src == src) with
  | none => d
  | some p =>
    let w := tget configReset v.config p.slot
    match passIng d c w p with
    | none => d
    | some (i0, tile, blk) =>
      let join := if cwJen w then v.joins.head? else none
      if !ctxLive (ctxAt d p.ctx) then consumePass d c p none
      else if ecc || p.mask.any (fun s => v.badMasks.contains s) then discardPass d c 0x8408 p none (tileTid tile)
      else if configValid w && cwJen w && join.isNone then bump d 0x4023 (c + 1) held
      else
        match docNeeded v p with
        | some n => if v.doc.loading = some n then d else setVc d c { v with doc := { v.doc with loading := some n } }
        | none =>
          match passFault d c w p i0 join with
          | some code => discardPass d c code p join (tileTid tile)
          | none =>
            if join.any (fun b => !b.full) then bump d 0x4023 (c + 1) held
            else
              let mis := if d.sup.checked then mismatch % 2 ^ ceilDiv (i0.rows * i0.cols) 32 else 0
              let jb := (join.map (fun b => b.data)).getD []
              let js := joinVals w p.jrec (p.draw + 1) jb
              let recs := if p.jrec then recordsOf jb else []
              let i := dropGroups mis (match p.mask with
                | some s => maskIn d p (tget maskReset v.masks s) v.doc.entries i0
                | none => i0)
              let d1 := bump (bitmapTouch d c p v i0) 0x4022 (c + 1) held
              if !ctxLive (ctxAt d1 p.ctx) then consumePass d1 c p join
              else
                match passRun d1 c w p i tile blk js recs held mis with
                | (true, d2) => passMismatch (resumeStores (consumePass d2 c p join) c) c p (tileTid tile) mis
                | (false, d2) => d2

/-- R164: the fetch engine has accepted a tile's last output write, and the chain signals its write semaphore.
DESIGN CHOICE, log 38. -/
def writeSemaphoreSignal (d : Dev) (c src : Nat) : Dev :=
  let v := vcAt d c
  match v.owed.find? (fun o => o.1 == src) with
  | none => d
  | some o => semSignal (setVc d c { v with owed := v.owed.erase o }) c o.2.1 1 o.2.2

end Sys2Proof.Machine
end

