-- ==== Sys2Proof/Machine/Sequencer.lean ====
section
/-! DEFINITION. The cluster sequencers (chapter 09): program words, the fifteen program commands, task selection,
switches, frames and swaps, task and context ends. Job control and the step boundary follow in `Job`. -/

namespace Sys2Proof.Machine

/-! ### Places -/

/-- A task's place on a cluster. -/
def placeAt (t : Task) (g : Nat) : Place := tget placeReset t.places g

/-- Replace it. -/
def setPlace (d : Dev) (t : Task) (g : Nat) (p : Place) : Dev :=
  match taskAt d t.id with
  | some u => setTask d { u with places := tset u.places g p }
  | none => d

/-- Address register `r` of a place; code 0xF names none and reads 0 (R280). -/
def areg (p : Place) (r : Nat) : Nat := if r = 15 then 0 else p.regs.getD r 0

/-- Some wait on a semaphore of the cluster is blocked. -/
def anyBlocked (d : Dev) (g : Nat) : Bool := d.sems.any (fun e => e.1 / 4096 == g && !e.2.waits.isEmpty)

/-- Started, unfinished tasks of a cluster (R286). -/
def startedOn (d : Dev) (g : Nat) : List Task := d.seq.tasks.filter (fun t => (ctxClusters d t.ctx).contains g)

/-! ### Schedules (R290 to R293) -/

/-- The contexts whose counts decide together: the interleave group, else the context itself. -/
def countCtxs (d : Dev) (c : Nat) : List Nat := if ctxSched d c = 1 then groupCtxs d (ctxGroup d c) else [c]

/-- F and B of a context or its group. -/
def fwdCount (d : Dev) (c : Nat) : Nat := sumN ((countCtxs d c).map (fun x => (ctxAt d x).fwd))
def bwdCount (d : Dev) (c : Nat) : Nat := sumN ((countCtxs d c).map (fun x => (ctxAt d x).bwd))

/-- M of R290 to R292. -/
def stepTasks (d : Dev) (c : Nat) : Nat := ctxM d c * (countCtxs d c).length

/-- The kind R290 chooses: FWD (some false), BWD (some true), or none. -/
def nextKind (f b m warm : Nat) : Option Bool :=
  if f < m ∧ f ≤ b + warm then some false else if b < f then some true else none

/-- The VORD of the group's next task of a kind (R291). -/
def nextVord (d : Dev) (c : Nat) (bwd : Bool) : Nat :=
  let v := max 1 (groupCtxs d (ctxGroup d c)).length
  let u := if bwd then bwdCount d c else fwdCount d c
  let k := u / ctxChunk d c % v
  if bwd then v - 1 - k else k

/-- The schedule admits a task of the kind on the context (R290 to R293). -/
def admits (d : Dev) (c : Nat) (bwd : Bool) : Bool :=
  let x := ctxAt d c
  (d.seq.job == .running || d.seq.job == .stopping) && d.seq.phase == .stepRunning && ctxLive x && !x.atEnd &&
    (match ctxSched d c with
     | 0 => nextKind x.fwd x.bwd (ctxM d c) (ctxWarm d c) == some bwd
     | 1 => nextKind (fwdCount d c) (bwdCount d c) (stepTasks d c) (ctxWarm d c) == some bwd && ctxVord d c == nextVord d c bwd
     | 2 => bwd || (decide (x.fwd < ctxM d c) && decide (x.inflight ≤ ctxWarm d c))
     | _ => false)

/-- A task of the kind has its entry present and its grant held (R286, R305). -/
def inputReady (d : Dev) (c : Nat) (bwd : Bool) : Bool :=
  admits d c bwd && (sqHead d (taskQueue c bwd)).isSome && hasGrant d c bwd

/-- A context with a task ready or started but for its frame (R275). DEDUCED, log 39. -/
def ctxReady (d : Dev) (c : Nat) : Bool :=
  inputReady d c true || (inputReady d c false && !fwdHeld d c) || d.seq.tasks.any (fun t => t.ctx == c && ctxLive (ctxAt d c))

/-- The context holds a frame that no swap is using. -/
def framed (d : Dev) (c : Nat) : Bool := (ctxAt d c).frame.isSome && !(ctxAt d c).swapping

/-- Frames in use. -/
def framesUsed (d : Dev) : List Nat := d.seq.ctxs.filterMap (fun e => e.2.frame)

/-- The contexts that may be evicted (R275, R277). -/
def evictList (d : Dev) : List Nat :=
  (enabledCtxs d).filter (fun c =>
    let x := ctxAt d c
    framed d c && x.st == .resident && !ctxPin d c && !x.refused && d.seq.tasks.all (fun t => t.ctx != c) && !ctxReady d c)

/-- The context is resident, or can be given a frame (R275, R286). -/
def frameable (d : Dev) (c : Nat) : Bool :=
  framed d c || ((ctxAt d c).st == .swappedOut && (decide ((framesUsed d).length < 16) || !(evictList d).isEmpty))

/-- A new task of the kind is ready (R286). -/
def taskReady (d : Dev) (c : Nat) (bwd : Bool) : Bool := inputReady d c bwd && (bwd || !fwdHeld d c) && frameable d c

/-- The context's clusters all have room for one more started task (R286). -/
def taskRoom (d : Dev) (c : Nat) : Bool := (ctxClusters d c).all (fun g => decide ((startedOn d g).length < cfg d 0x6002 0))

/-- New tasks ready on a cluster. -/
def readyOn (d : Dev) (g : Nat) : List (Nat × Bool) :=
  ((enabledCtxs d).filter (fun c => bitAt (ctxCmask d c) g)).flatMap (fun c =>
    [(c, true), (c, false)].filter (fun k => taskReady d k.1 k.2))

/-- The arrival order of the entry at the head of a task's queue. -/
def arrivalOf (d : Dev) (k : Nat × Bool) : Nat := d.sq.arrivals.findIdx (· == taskQueue k.1 k.2)

/-- The order of R286, rules 2 to 4. -/
def selectBefore (d : Dev) (a b : Nat × Bool) : Bool :=
  if a.2 != b.2 then a.2
  else decide (arrivalOf d a < arrivalOf d b) || (arrivalOf d a == arrivalOf d b && decide (a.1 ≤ b.1))

/-- The first of a list under an order. -/
def firstBy {α : Type} (lt : α → α → Bool) : List α → Option α
  | [] => none
  | x :: xs =>
    match firstBy lt xs with
    | none => some x
    | some y => if lt x y then some x else some y

/-- The new task a cluster selects among those there is room for. -/
def selectNew (d : Dev) (g : Nat) : Option (Nat × Bool) := firstBy (selectBefore d) ((readyOn d g).filter (fun k => taskRoom d k.1))

/-- The count of a job semaphore of a context on a cluster: in the bank while the bank is the context's, else among
its saved words (R259). -/
def ctxSemCount (d : Dev) (c g num : Nat) : Nat :=
  if num < 0xF00 ∧ tfind d.seq.bankOwner g ≠ some c then (tget semReset (tget [] d.seq.savedSems (16 * c + g)) num).count
  else (semAt d (semKey g num)).count

/-- The late wait of a suspended task can now succeed (R286). -/
def lateDone (d : Dev) (t : Task) (g : Nat) : Bool :=
  match (placeAt t g).late with
  | some (num, amount) => decide (amount ≤ ctxSemCount d t.ctx g num)
  | none => true

/-- The started task a cluster takes first: one that has not run there, or a suspended one whose wait can succeed,
earliest start first (R286 rule 1). -/
def selectStarted (d : Dev) (g : Nat) : Option Task :=
  (startedOn d g).find? (fun t =>
    tfind d.seq.current g != some t.id && !(placeAt t g).ended && ctxLive (ctxAt d t.ctx) && framed d t.ctx &&
      (!(placeAt t g).begun || lateDone d t g))

/-- Another task is ready on the cluster and may be taken. -/
def otherReady (d : Dev) (g : Nat) : Bool := (selectStarted d g).isSome || (selectNew d g).isSome

/-- The cluster needs a task: it works on none, or its task has ended there. -/
def needsTask (d : Dev) (g : Nat) : Bool :=
  match currentTask d g with
  | some t => (placeAt t g).ended
  | none => true

/-! ### Loading a cluster (R276, R278, R283) -/

/-- Image offsets of the header (R278). -/
def imgOff (h field : Nat) : Nat := fld h (447 - 32 * field) (416 - 32 * field)

/-- The header of a context's image. -/
def imgHeader (d : Dev) (c : Nat) : Nat := memVal d.mem (ctxImage d c) 64

/-- A context's clusters take its configuration table and mask descriptors from the image. -/
def loadTables (d : Dev) (c g : Nat) : Dev :=
  let h := imgHeader d c
  let r := clusterRank d c g
  let base := ctxImage d c
  let cfgs := (List.range 256).map (fun i => (i, memVal d.mem (base + imgOff h 1 + 8192 * r + 32 * i) 32))
  let masks := (List.range 16).map (fun i => (i, memVal d.mem (base + imgOff h 2 + 512 * r + 32 * i) 32))
  let d1 := noteRead (noteRead d c (base + imgOff h 1 + 8192 * r) 8192) c (base + imgOff h 2 + 512 * r) 512
  setVc d1 g { vcAt d1 g with config := cfgs, masks := masks, badMasks := [] }

/-- The initial job semaphores of a cluster (R278), words whose count is 0 left out. -/
def imageSems (d : Dev) (c g : Nat) : Tab Sem :=
  let base := ctxImage d c + imgOff (imgHeader d c) 3 + 15360 * clusterRank d c g
  (List.range 0xF00).filterMap (fun i =>
    let n := memVal d.mem (base + 4 * i) 4 % 65536
    if n = 0 then none else some (i, { semReset with count := n }))

/-- The job semaphore words of a cluster's bank. -/
def bankSems (d : Dev) (g : Nat) : Tab Sem :=
  (d.sems.filter (fun e => e.1 / 4096 == g && decide (e.1 % 4096 < 0xF00))).map (fun e => (e.1 % 4096, e.2))

/-- Put job semaphore words into a cluster's bank. -/
def loadBank (d : Dev) (g : Nat) (ws : Tab Sem) : Dev :=
  let kept := d.sems.filter (fun e => !(e.1 / 4096 == g && decide (e.1 % 4096 < 0xF00)))
  { d with sems := ws.foldl (fun t e => tset t (semKey g e.1) e.2) kept }

/-- A TU ready for a new context: both banks free, half 0 next (R51). -/
def tuFresh (u : Tu) : Tu := { u with active := none, bank0 := freeBank, bank1 := freeBank, dead := none }

/-- The cluster's bank, tables and TUs change to context `c` (R51, R259, R289 step 4). -/
def loadCluster (d : Dev) (c g : Nat) : Dev :=
  if tfind d.seq.bankOwner g = some c then d
  else
    let saved := match tfind d.seq.bankOwner g with
      | some o => tset d.seq.savedSems (16 * o + g) (bankSems d g)
      | none => d.seq.savedSems
    let d1 := loadBank d g (tget [] saved (16 * c + g))
    let d2 := { d1 with seq := { d1.seq with
      savedSems := tdel saved (16 * c + g), bankOwner := tset d1.seq.bankOwner g c } }
    let d3 := loadTables d2 c g
    (List.range 8).foldl (fun x i => setTu x (8 * g + i) (tuFresh (tuAt x (8 * g + i)))) d3

/-- Registers at task start (R283). -/
def startRegs (d : Dev) (t : Task) (g : Nat) : List Nat :=
  [t.inAddr, t.outAddr, t.tag, t.place, t.step % 2 ^ 48, clusterRank d t.ctx g] ++ (ctxAt d t.ctx).imgRegs

/-- The routine of a task on a cluster (R278). -/
def routineOf (d : Dev) (t : Task) (g : Nat) : Nat :=
  let r := (ctxAt d t.ctx).imgRouts.getD (clusterRank d t.ctx g) (0, 0)
  if t.bwd then r.2 else r.1

/-- A context runs: it is the one that has run most recently (R275). -/
def stampRun (d : Dev) (c : Nat) : Dev :=
  let d1 := setCtx d c { ctxAt d c with lastRan := d.seq.runOrder + 1 }
  { d1 with seq := { d1.seq with runOrder := d1.seq.runOrder + 1 } }

/-- A cluster begins a task, or goes on with a suspended one: its records, queued descriptors and waits return ahead of
whatever is queued (R259, R263, R289 step 5). -/
def takeTask (d0 : Dev) (g : Nat) (t : Task) : Dev :=
  let d := stampRun d0 t.ctx
  let d1 := { d with seq := { d.seq with current := tset d.seq.current g t.id } }
  let p := placeAt t g
  if !p.begun then
    setPlace d1 t g { placeReset with begun := true, pc := routineOf d t g, regs := startRegs d t g }
  else
    let d2 := putWaits (setPlace d1 t g { p with records := [], queued := [], waits := [], grants := [], switchWanted := false, late := none })
      p.waits p.grants
    let e := feAt d2 g
    let back := p.records.map (fun a => { a with susp := false })
    let d3 := setFe d2 g { e with
      active := back ++ e.active
      queues := [0, 1, 2, 3].foldl (fun q i =>
        tset q i ((p.queued.filter (fun x => x.1 == i)).map Prod.snd ++ tget [] q i)) e.queues }
    back.foldl (fun x a =>
      if a.fault then (if a.ready then resumeActive x g { a with ready := false } else x)
      else if a.moved then x else runActive x g a) d3

/-- A cluster that needs a task takes a started one of the context its bank holds. -/
def takeStarted (d : Dev) (g : Nat) : Dev :=
  if needsTask d g && (tfind d.seq.switching g).isNone then
    match selectStarted d g with
    | some t => if tfind d.seq.bankOwner g = some t.ctx then takeTask d g t else d
    | none => d
  else d

/-! ### Program words (R280, R281, R285) -/

/-- Every bit of `v` outside the given fields is 0. -/
def onlyFields (v : Nat) (fs : List (Nat × Nat)) : Bool := fs.foldl (fun x f => setFld x f.1 f.2 0) v == 0

/-- Words of a command. -/
def cmdWords (op : Nat) : Nat := if op = 1 ∨ op = 3 then 2 else if op = 2 then 7 else 1

/-- The bits R280 and R281 assign in word 0. -/
def cmdFields (op : Nat) : List (Nat × Nat) :=
  (127, 120) :: (match op with
  | 1 => [(119, 111)]
  | 2 => [(119, 112)]
  | 3 => [(119, 81)]
  | 4 => [(119, 104)]
  | 5 => [(119, 100)]
  | 6 | 7 => [(119, 116), (47, 0)]
  | 8 => [(119, 104)]
  | 11 => [(119, 84)]
  | 12 => [(119, 96)]
  | _ => [])

/-- The descriptor that words 1 to 6 of an FD hold. -/
def fdOfWords (ws : List Nat) : Nat := (ws.drop 1).foldl (fun a w => a * 2 ^ 128 + w) 0

/-- QPOS and KPOS of a PASS (R281). -/
def passQpos (p : Place) (w0 w1 : Nat) : Nat := areg p (fld w0 96 93) + fld w1 127 108
def passKpos (p : Place) (w0 w1 : Nat) : Nat := areg p (fld w0 92 89) + fld w1 107 88

/-- A PASS has its source by TSEL and its mask positions in range (R281). -/
def passValid (d : Dev) (g : Nat) (p : Place) (w0 w1 : Nat) : Bool :=
  onlyFields w1 [(127, 40)] &&
  ((fld w0 111 104 != 0) == (cwSrc (tget configReset (vcAt d g).config (fld w0 119 112)) == 0)) &&
  (!bitAt w0 103 || (decide (passQpos p w0 w1 < 2 ^ 20) && decide (passKpos p w0 w1 < 2 ^ 20)))

/-- A semaphore that a stage program may have signalled: none, or a job semaphore (R253). -/
def sigNum (n : Nat) : Bool := decide (n < 0xF00) || n == 0xFFF

/-- A command is valid (R253, R280, R285). DEDUCED, log 36. -/
def cmdValid (d : Dev) (g : Nat) (p : Place) (ws : List Nat) : Bool :=
  let w0 := ws.headD 0
  let w1 := ws.getD 1 0
  let op := fld w0 127 120
  decide (op ≤ 0xE) && onlyFields w0 (cmdFields op) &&
  (match op with
   | 1 => fld w0 119 112 != 0 && (fld w1 127 120 != 1 || mmaRpl w1 == 0) &&
     (fld w1 127 120 != 2 || (sigNum (fld w1 95 84) && sigNum (fld w1 83 72)))
   | 2 => fdOp (fdOfWords ws) != 1 || fld w0 115 112 == 15
   | 3 => passValid d g p w0 w1
   | 5 => sigNum (fld w0 115 104)
   | 11 => sigNum (fld w0 95 84)
   | 8 => decide (p.loops.length < 4)
   | 9 => !p.loops.isEmpty
   | _ => true)

/-- The words of the command at a place; none past LEN. -/
def readWords (d : Dev) (t : Task) (g n pc : Nat) : Option (Option (List Nat)) × Dev :=
  if (ctxAt d t.ctx).imgLen < 16 * (pc + n) then (some none, d)
  else
    let r := unitRead d (g / 8) t.ctx 0 (ctxImage d t.ctx + 16 * pc) (16 * n)
    match r.1 with
    | some bs => if ctxLive (ctxAt r.2 t.ctx) then
        (some (some ((List.range n).map (fun i => leVal ((bs.drop (16 * i)).take 16)))), r.2)
      else (none, r.2)
    | none => (none, r.2)

/-- The task a cluster sequencer may issue for. -/
def issuing (d : Dev) (g : Nat) : Option (Task × Place) :=
  match currentTask d g with
  | some t =>
    let p := placeAt t g
    if p.begun && !p.ended && ctxLive (ctxAt d t.ctx) && (tfind d.seq.switching g).isNone &&
        !(p.switchWanted && !p.busySince && anyBlocked d g && otherReady d g) then some (t, p) else none
  | none => none

/-- An invalid program command: 0x8601, the context stops (R285). -/
def progBad (d : Dev) (g : Nat) (t : Task) (pc : Nat) : Dev := raiseFault d 0x8601 t.ctx (g * 2 ^ 32 + pc) t.ctx

/-- The command at a cluster's program position, when it is `op` and may issue. A word that is no valid command
stops the context whatever was asked. `body` gets the words and answers the device with the command issued, or none
while a full queue holds it. -/
def progGo (d : Dev) (g op : Nat) (body : Task → Place → List Nat → Dev → Option Dev) : Dev :=
  match issuing d g with
  | none => d
  | some (t, p) =>
    match readWords d t g 1 p.pc with
    | (none, d1) => d1
    | (some none, d1) => progBad d1 g t p.pc
    | (some (some w), _) =>
      let k := fld (w.headD 0) 127 120
      match readWords d t g (cmdWords k) p.pc with
      | (none, d1) => d1
      | (some none, d1) => progBad d1 g t p.pc
      | (some (some ws), d1) =>
        if !cmdValid d g p ws then progBad d1 g t p.pc
        else if k ≠ op then d
        else (body t { p with switchWanted := p.switchWanted && p.busySince } ws d1).getD d

/-- Move a place past its command. -/
def progNext (d : Dev) (t : Task) (g : Nat) (p : Place) (n : Nat) : Dev := setPlace d t g { p with pc := p.pc + n }

/-- NOP. -/
def progNop (d : Dev) (g : Nat) : Dev := progGo d g 0 (fun t p _ x => some (progNext x t g p 1))

/-- The SHD and SHP of an opening MMA (R119), and the tile counted. -/
def shadowMark (d : Dev) (tu w : Nat) (shown : Bool) : Nat × Dev :=
  if fld w 127 120 = 1 ∧ mmaAcc w = false then
    let n := if d.sup.checked then 0 else cfg d 0x5030 0
    let k := cfg d 0x5036 (tu + 1)
    let w1 := if shown then w else setFld (setFld w 103 103 (b2n (k % 2 ^ n == 0))) 102 98 (k / 2 ^ n % 32)
    (w1, bump d 0x5036 (tu + 1) 1)
  else (w, d)

/-- TU: word 1 to every TU of TMASK; a full queue holds issue (R45, R280). -/
def progTu (d : Dev) (g : Nat) : Dev :=
  progGo d g 1 (fun t p ws x =>
    let tus := (setBits 8 (fld (ws.headD 0) 119 112)).map (fun i => 8 * g + i)
    if tus.any (fun u => decide (64 ≤ (tuAt x u).queue.length)) then none
    else
      let x1 := tus.foldl (fun y u =>
        let m := shadowMark y u (ws.getD 1 0) (bitAt (ws.headD 0) 111)
        setTu m.2 u { tuAt m.2 u with queue := (tuAt m.2 u).queue ++
          [{ word := m.1, ctx := t.ctx, tag := t.tag, replay := false, fallback := false, reload := none }] }) x
      some (progNext x1 t g { p with busySince := true } 2))

/-- The queues a descriptor enters: all four for a DRAIN (R269). -/
def fdQueues (desc : Nat) : List Nat := if fdOp desc = 6 then [0, 1, 2, 3] else [fdQueue (fdOp desc)]

/-- FD: the descriptor with register offsets and TASK enters its queue (R242, R280). -/
def progFd (d : Dev) (g : Nat) : Dev :=
  progGo d g 2 (fun t p ws x =>
    let w0 := ws.headD 0
    let raw := fdOfWords ws
    let desc := setFld (setFld (setFld raw 639 592 (fdSaddr raw + areg p (fld w0 119 116)))
      591 544 (fdDaddr raw + areg p (fld w0 115 112))) 705 698 t.id
    let e := feAt x g
    let qs := fdQueues desc
    if qs.any (fun q => decide (queueDepth q ≤ (tget [] e.queues q).length)) then none
    else
      let y : FdEntry := { desc, ctx := t.ctx, task := t.id, start := t.start, tu := 128, reload := none, wdone := false
                           num := x.seq.nextDesc }
      let x1 := setFe x g { e with queues := qs.foldl (fun z q => tset z q (tget [] z q ++ [y])) e.queues }
      let x2 := { x1 with seq := { x1.seq with nextDesc := x1.seq.nextDesc + 1 } }
      some (progNext x2 t g { p with busySince := p.busySince || fdOp desc == 1 } 7))

/-- Which partial of its reduction output a pass gives: the passes of the same output folded, parked or waiting. The block of
a tile along its reduction is its place in the issue order. DESIGN CHOICE, log 91. -/
def passBlock (v : Vc) (task red : Nat) : Nat :=
  let r := v.running.find? (fun x => x.task == task && x.red == red)
  (r.map (fun x => x.next + x.parked.length)).getD 0 + (v.passes.filter (fun q => q.task == task && q.red == red)).length

/-- Open one pass for lane group `src` (R281, R383). -/
def openPass (d : Dev) (g : Nat) (t : Task) (p : Place) (w0 w1 src j : Nat) : Dev :=
  let v := vcAt d g
  let red := (areg p (fld w0 88 85) + fld w1 87 40) % 2 ^ 48
  let ps : Pass :=
    { num := v.nextPass, slot := fld w0 119 112, src, ctx := t.ctx, task := t.id, tag := t.tag
      step := fwdStep d t.ctx t.tag, place := t.place
      mask := if bitAt w0 103 then some (fld w0 102 99) else none
      qpos := passQpos p w0 w1, kpos := passKpos p w0 w1, srec := bitAt w0 98, jrec := bitAt w0 97, red
      block := passBlock v t.id red, pos := (areg p (fld w0 84 81) + 8192 * j) % 2 ^ 48, draw := d.freeCtr }
  setVc { d with freeCtr := d.freeCtr + 2 } g { v with passes := v.passes ++ [ps], nextPass := v.nextPass + 1 }

/-- PASS: one pass per TU of TSEL, or one for the next memory-sourced block. -/
def progPass (d : Dev) (g : Nat) : Dev :=
  progGo d g 3 (fun t p ws x =>
    let w0 := ws.headD 0
    let w1 := ws.getD 1 0
    let lanes := setBits 8 (fld w0 111 104)
    let x1 := if lanes.isEmpty then openPass x g t p w0 w1 8 0
      else (lanes.zipIdx).foldl (fun y l => openPass y g t p w0 w1 l.1 l.2) x
    some (progNext x1 t g p 2))

/-- WAIT as requester 11: no later command issues until it succeeds (R255, R280). -/
def progWait (d : Dev) (g : Nat) : Dev :=
  progGo d g 4 (fun t p ws x =>
    let w0 := ws.headD 0
    let num := fld w0 119 108
    let r := semTake x g num 11 (fld w0 107 104 + 1)
    some (if r.1 then progNext r.2 t g { p with waiting := none } 1 else setPlace r.2 t g { p with waiting := some num }))

/-- SIG (R255, R280); one on a doorbell semaphore carries the task's identity to the exchange (R480).
DEDUCED, log 36. -/
def progSig (d : Dev) (g : Nat) : Dev :=
  progGo d g 5 (fun t p ws x =>
    let w0 := ws.headD 0
    let dest := fld w0 119 116
    let num := fld w0 115 104
    let n := fld w0 103 100 + 1
    let x1 := ringBells (progNext x t g p 1) t.ctx g dest num n t.bwd t.tag t.step (areg p 0)
    some (semSignal x1 dest num n t.ctx))

/-- Write an address register; code 0xF names none. DESIGN CHOICE, log 37. -/
def setAreg (p : Place) (r v : Nat) : Place := if r = 15 then p else { p with regs := setAt p.regs r (v % 2 ^ 48) }

/-- SETA. -/
def progSeta (d : Dev) (g : Nat) : Dev :=
  progGo d g 6 (fun t p ws x =>
    let w0 := ws.headD 0
    some (progNext x t g (setAreg p (fld w0 119 116) (fld w0 47 0)) 1))

/-- ADDA: a signed addend modulo 2^48. -/
def progAdda (d : Dev) (g : Nat) : Dev :=
  progGo d g 7 (fun t p ws x =>
    let w0 := ws.headD 0
    let r := fld w0 119 116
    some (progNext x t g (setAreg p r (areg p r + fld w0 47 0)) 1))

/-- LOOP: the words up to the matching ENDL run count times. -/
def progLoop (d : Dev) (g : Nat) : Dev :=
  progGo d g 8 (fun t p ws x =>
    some (progNext x t g { p with loops := (p.pc + 1, fld (ws.headD 0) 119 104) :: p.loops } 1))

/-- ENDL closes the innermost LOOP: back to its first word while runs are left. -/
def progEndl (d : Dev) (g : Nat) : Dev :=
  progGo d g 9 (fun t p _ x =>
    match p.loops with
    | (at_, n + 1) :: rest => some (setPlace x t g { p with pc := at_, loops := (at_, n) :: rest })
    | _ :: rest => some (progNext x t g { p with loops := rest } 1)
    | [] => none)

/-- YIELD: a switch point (R287). -/
def progYield (d : Dev) (g : Nat) : Dev := progGo d g 10 (fun t p _ x => some (progNext x t g { p with busySince := false } 1))

/-- GATH (R341). -/
def progGath (d : Dev) (g : Nat) : Dev :=
  progGo d g 11 (fun t p ws x =>
    let w0 := ws.headD 0
    some (gath (progNext x t g p 1) t.id t.ctx t.tag (fld w0 119 96) g (fld w0 95 84)))

/-- BKT: the bucket waits for the task's earlier passes on every cluster of its context (R21, R450). -/
def progBkt (d : Dev) (g : Nat) : Dev :=
  progGo d g 12 (fun t p ws x =>
    let b : BktWait := { cluster := g, task := t.id, bucket := fld (ws.headD 0) 119 96, step := fwdStep x t.ctx t.tag
                         place := t.place, before := (ctxClusters x t.ctx).map (fun k => (k, (vcAt x k).nextPass)) }
    let x1 := progNext x t g p 1
    some { x1 with ce := { x1.ce with buckets := x1.ce.buckets ++ [b] } })

/-- EMIT is issued (R284). DESIGN CHOICE, log 41. -/
def progEmit (d : Dev) (g : Nat) : Dev :=
  progGo d g 13 (fun t p _ x =>
    some (progNext x t g { p with emitIssued := true, emitMark := ((vcAt x g).nextPass, x.seq.nextDesc) } 1))

/-- END: the routine ends on this cluster, which then needs a task. -/
def progEnd (d : Dev) (g : Nat) : Dev :=
  progGo d g 14 (fun t p _ x => some (takeStarted (progNext x t g { p with ended := true } 1) g))

/-! ### EMIT and task completion (R284, R304) -/

/-- The descriptors of a task in an engine: queued and active entries. -/
def taskDescs (d : Dev) (g id : Nat) : List FdEntry :=
  let e := feAt d g
  (e.queues.flatMap Prod.snd ++ e.active.map (fun a => a.entry) ++ e.draining.toList).filter (fun x => x.task == id)

/-- EMIT has completed on a cluster: every earlier write of the task has taken effect. -/
def emitDone (d : Dev) (t : Task) (g : Nat) : Bool :=
  let p := placeAt t g
  let v := vcAt d g
  p.emitIssued && v.passes.all (fun q => q.task != t.id || decide (p.emitMark.1 ≤ q.num)) &&
    v.outs.all (fun o => o.task != t.id || decide (p.emitMark.1 ≤ o.num)) && (feAt d g).recs.all (fun r => r.task != t.id) &&
    (taskDescs d g t.id).all (fun x => (fdOp x.desc != 4 && fdOp x.desc != 5) || decide (p.emitMark.2 ≤ x.num)) &&
    p.records.all (fun a => fdOp a.entry.desc != 4 && fdOp a.entry.desc != 5) &&
    p.queued.all (fun x => (fdOp x.2.desc != 4 && fdOp x.2.desc != 5) || decide (p.emitMark.2 ≤ x.2.num))

/-- No data write of the task waits for its WRITE-DONE. DESIGN CHOICE, log 41. -/
def writesDone (d : Dev) (t : Task) : Bool := d.sq.writesOut.all (fun w => w.2.1 != t.id)

/-- R284: when EMIT has completed on every cluster, the manager writes the outbound entry, once.
DESIGN CHOICE, log 41. -/
def emitComplete (d : Dev) (id : Nat) : Dev :=
  match taskAt d id with
  | some t =>
    if !t.emitted && ctxLive (ctxAt d t.ctx) && (ctxClusters d t.ctx).all (emitDone d t) && writesDone d t then
      sendEntry (setTask d { t with emitted := true }) t
    else d
  | none => d

/-- Every command a task issued on a cluster has completed. -/
def placeDone (d : Dev) (t : Task) (g : Nat) : Bool :=
  let v := vcAt d g
  let p := placeAt t g
  let mine := fun (u : Tu) => u.queue.all (fun e => !(e.ctx == t.ctx && e.tag == t.tag)) &&
    [u.bank0, u.bank1].all (fun b => bankIdle b || !(b.ctx == t.ctx && b.tag == t.tag))
  p.ended && (List.range 8).all (fun i => mine (tuAt d (8 * g + i)) && !(tuAt d (8 * g + i)).releasing) &&
    (taskDescs d g t.id).isEmpty && (feAt d g).recs.all (fun r => r.task != t.id) &&
    v.passes.all (fun q => q.task != t.id) && v.outs.all (fun o => o.task != t.id) &&
    d.ce.buckets.all (fun b => !(b.cluster == g && b.task == t.id)) && p.records.isEmpty && p.queued.isEmpty

/-- Remove a task from the device's lists. -/
def dropTask (d : Dev) (id : Nat) : Dev :=
  { d with seq := { d.seq with
    tasks := d.seq.tasks.filter (fun t => t.id != id)
    current := d.seq.current.filter (fun e => e.2 != id) } }

/-- A context without a started task is resident again. -/
def settleCtx (d : Dev) (c : Nat) : Dev :=
  let x := ctxAt d c
  if x.st = .running ∧ d.seq.tasks.all (fun t => t.ctx != c) then setCtx d c { x with st := .resident } else d

/-- R284, R304, R329, R344: a task completes: its slot returns, a BWD releases the tag, its uses end. -/
def taskComplete (d : Dev) (id : Nat) : Dev :=
  match taskAt d id with
  | some t =>
    if ctxLive (ctxAt d t.ctx) && (ctxClusters d t.ctx).all (placeDone d t) && writesDone d t &&
        ((ctxClusters d t.ctx).all (fun g => !(placeAt t g).emitIssued) || t.emitted) then
      let d1 := stampRun (slotDone (dropTask d id) (taskQueue t.ctx t.bwd) t.inAddr) t.ctx
      let d2 := if t.bwd then unbindTag d1 t.ctx t.tag else d1
      settleCtx (dropUses d2 id) t.ctx
    else d
  | none => d

/-! ### Starting a task (R286) -/

/-- Dequeue the head of a context's queue: the task is started on every cluster of CMASK. An entry that is lost to an
uncorrectable error starts none (R318). -/
def startTask (d : Dev) (c : Nat) (bwd : Bool) : Dev :=
  match sqHead d (taskQueue c bwd) with
  | none => d
  | some e =>
    let d0 := sqDequeue d (taskQueue c bwd)
    if !ctxLive (ctxAt d0 c) then d0
    else
      let g := taskGrant d0 c bwd
      let d1 := if bwd then d0 else bindTag d0 c (entTag e) d0.seq.step
      let t : Task :=
        { id := d1.seq.nextTask, ctx := c, bwd, tag := entTag e, place := entPlace e, step := d1.seq.step
          inAddr := entSlot e, outAddr := g.1, entry := e, start := d1.uptime, places := [], outBytes := g.2
          wrote := 0, emitted := false }
      let x := ctxAt d1 c
      let x1 := if bwd then { x with bwd := x.bwd + 1, inflight := x.inflight - 1 }
        else { x with fwd := x.fwd + 1, inflight := x.inflight + 1 }
      let d2 := stampRun (setCtx d1 c { x1 with st := if x.st = .resident then .running else x.st }) c
      { d2 with seq := { d2.seq with tasks := d2.seq.tasks ++ [t], nextTask := t.id + 1 } }

/-- Contexts on the cluster whose FWD is held only by the version store for want of a complete version (R330). -/
def heldByStore (d : Dev) (g : Nat) : List Nat :=
  (enabledCtxs d).filter (fun c => bitAt (ctxCmask d c) g && inputReady d c false && noVersion d c)

/-- R286: a cluster that needs a task selects a ready one. A started task of the bank's context goes first; a new
one is dequeued for all its clusters, and those whose bank is the context's and that need a task begin it. `held`
cycles were spent on R330, `idle` cycles without a task. DEDUCED, log 39. -/
def taskDequeue (d : Dev) (g held idle : Nat) : Dev :=
  if !needsTask d g || (tfind d.seq.switching g).isSome then d
  else
    let d0 := (heldByStore d g).foldl (fun x c => raiseStep x 0x4681 c g) (bump (bump d 0x6841 0 held) 0x6031 (g + 1) idle)
    match selectStarted d0 g with
    | some _ => takeStarted d0 g
    | none =>
      match selectNew d0 g with
      | none => d0
      | some k => (ctxClusters d0 k.1).foldl takeStarted (startTask d0 k.1 k.2)

/-! ### Frames (R275 to R279) -/

/-- The header and every part lie within LEN (R278, R279). -/
def imageOk (d : Dev) (c : Nat) : Bool :=
  let h := imgHeader d c
  let base := ctxImage d c
  let n := (ctxClusters d c).length
  let len := imgOff h 5
  let routs := (List.range (2 * n)).map (fun i => word32 d (base + imgOff h 0 + 4 * i))
  fld h 511 480 == 0x48535031 && fld h 479 472 == 1 && fld h 471 467 == n && fld h 466 448 == 0 && fld h 255 0 == 0 &&
    accessible d base (max len 64) && decide (64 ≤ len) && decide (imgOff h 0 + 8 * n ≤ len) &&
    decide (imgOff h 1 + 8192 * n ≤ len) && decide (imgOff h 2 + 512 * n ≤ len) &&
    decide (imgOff h 3 + 15360 * n ≤ len) && decide (imgOff h 4 + 72 ≤ len) && routs.all (fun r => decide (16 * r < len))

/-- What the manager keeps of an image. -/
def readImage (d : Dev) (c : Nat) (x : Ctx) : Ctx :=
  let h := imgHeader d c
  let base := ctxImage d c
  { x with
    imgLen := imgOff h 5
    imgRouts := (List.range (ctxClusters d c).length).map (fun r =>
      (word32 d (base + imgOff h 0 + 8 * r), word32 d (base + imgOff h 0 + 8 * r + 4)))
    imgRegs := (List.range 9).map (fun i => memVal d.mem (base + imgOff h 4 + 8 * i) 8 % 2 ^ 48) }

/-- Give a context a frame: the image is checked, and the swap-in begins (R276, R279). -/
def giveFrame (d : Dev) (c f : Nat) : Dev :=
  let d0 := { d with seq := { d.seq with frameWait := d.seq.frameWait.filter (fun x => x != c) } }
  let r := unitRead d0 (ctxHalf d0 c) c 0 (ctxImage d0 c) 64
  if !ctxLive (ctxAt r.2 c) then r.2
  else if imageOk r.2 c then
    let b := ctxImage r.2 c
    let h := imgHeader r.2 c
    let d1 := noteRead (noteRead r.2 c (b + imgOff h 0) (8 * (ctxClusters d c).length)) c (b + imgOff h 4) 72
    if ctxLive (ctxAt d1 c) then setCtx d1 c { readImage d1 c (ctxAt d1 c) with frame := some f, swapping := true } else d1
  else raiseFault r.2 0x8602 c 0 c

/-- The candidate that ran least recently, the lower number on a tie. -/
def evictFirst (d : Dev) : Option Nat :=
  firstBy (fun a b => decide ((ctxAt d a).lastRan < (ctxAt d b).lastRan) ||
    ((ctxAt d a).lastRan == (ctxAt d b).lastRan && decide (a ≤ b))) (evictList d)

/-- The spill blocks a swap-out needs: the record, then each cluster's semaphore words (R276).
DESIGN CHOICE, log 40. -/
def spillNeeds (d : Dev) (c : Nat) : List (Nat × Nat) :=
  (ctxHalf d c, 512) :: (ctxClusters d c).map (fun g => (g / 8, 15360))

/-- Allocate them all, or none (R229). DESIGN CHOICE, log 40. -/
def spillAll (d : Dev) : List (Nat × Nat) → Option (List (Nat × Nat × Nat)) × Dev
  | [] => (some [], d)
  | (h, n) :: rest =>
    match spillAlloc d h n with
    | (none, d1) => (none, d1)
    | (some a, d1) =>
      match spillAll d1 rest with
      | (some l, d2) => (some ((h, a, n) :: l), d2)
      | (none, d2) => (none, spillFree d2 h a)

/-- Begin the swap-out of the first candidate that the spill regions take (R277). -/
def beginSwapOut : Nat → Dev → Dev
  | 0, d => d
  | fuel + 1, d =>
    match evictFirst d with
    | none => d
    | some c =>
      match spillAll d (spillNeeds d c) with
      | (some l, d1) => setCtx d1 c { ctxAt d1 c with swapping := true, spilled := l }
      | (none, d1) => beginSwapOut fuel (raise (setCtx d1 c { ctxAt d1 c with refused := true }) 0x4604 c 0)

/-- R275: a context with a ready task asks for a frame: it gets a free one in its turn among those still waiting, else a
candidate is evicted, else it waits. `waited` cycles were spent waiting. -/
def frameAssign (d : Dev) (c waited : Nat) : Dev :=
  let x := ctxAt d c
  if !ctxEn d c || x.st != .swappedOut || x.frame.isSome || !ctxReady d c then d
  else
    let d0 := bump d 0x6033 0 waited
    let d1 := if d0.seq.frameWait.contains c then d0
      else { d0 with seq := { d0.seq with frameWait := d0.seq.frameWait ++ [c] } }
    match (List.range 16).find? (fun f => !(framesUsed d1).contains f) with
    | some f => if d1.seq.frameWait.find? (ctxReady d) = some c then giveFrame d1 c f else d1
    | none => if d1.seq.ctxs.any (fun e => e.2.swapping && e.2.st != .swappedOut) then d1 else beginSwapOut 64 d1

/-- Semaphore words as they stand in a spill block. DESIGN CHOICE, log 40. -/
def spillSems (d : Dev) (a : Nat) : Tab Sem :=
  (List.range 0xF00).filterMap (fun i =>
    let n := memVal d.mem (a + 4 * i) 4 % 65536
    if n = 0 then none else some (i, { semReset with count := n }))

/-- The TUs and the engine of a cluster hold nothing of the context that left it (R51). -/
def clusterQuiet (d : Dev) (g : Nat) : Bool :=
  let e := feAt d g
  e.active.isEmpty && e.queues.all (fun q => q.2.isEmpty) && e.held.isEmpty &&
    (List.range 8).all (fun i =>
      let u := tuAt d (8 * g + i)
      u.queue.isEmpty && bankIdle u.bank0 && bankIdle u.bank1 && !u.releasing && !u.fencing)

/-- What a swap-in reads of memory (R231, R276): the spill blocks, or the initial semaphore words of the image. -/
def swapReads (d : Dev) (c : Nat) : Dev :=
  let x := ctxAt d c
  if x.spilled.isEmpty then
    (ctxClusters d c).foldl (fun y g =>
      noteRead y c (ctxImage d c + imgOff (imgHeader d c) 3 + 15360 * clusterRank d c g) 15360) d
  else x.spilled.foldl (fun y b => (devRead y c b.2.1 b.2.2).2) d

/-- R276: a swap-in has read everything back: semaphore words, configuration table and mask descriptors. A cluster that no
context has takes the context at once when it is quiet, else by a switch (R51, R289). DESIGN CHOICE, log 40. -/
def swapInDone (d : Dev) (c : Nat) : Dev :=
  let x := ctxAt d c
  if !(x.swapping && x.frame.isSome && x.st == .swappedOut) then d
  else
    let gs := ctxClusters d c
    let words := gs.zipIdx.map (fun g =>
      (16 * c + g.1, match x.spilled[g.2 + 1]? with
        | some (_, a, _) => spillSems d a
        | none => imageSems d c g.1))
    let d0 := swapReads d c
    let d1 := x.spilled.foldl (fun y b => spillFree y b.1 b.2.1) d0
    if !ctxLive (ctxAt d1 c) then setCtx d1 c { ctxAt d1 c with spilled := [] }
    else
      let d2 := { d1 with seq := { d1.seq with savedSems := words.foldl (fun t w => tset t w.1 w.2) d1.seq.savedSems } }
      let st := if d.seq.tasks.any (fun t => t.ctx == c) then .running else .resident
      let d3 := setCtx (bump d2 0x6032 (c + 1) 1) c { x with swapping := false, st, spilled := [], loaded := true }
      gs.foldl (fun y g => if (tfind y.seq.bankOwner g).isNone && clusterQuiet y g then loadCluster y c g else y) d3

/-- R276: a swap-out has written the record and the semaphore words: the frame is free. DESIGN CHOICE, log 40. -/
def swapOutDone (d : Dev) (c : Nat) : Dev :=
  let x := ctxAt d c
  if !(x.swapping && x.st == .resident) then d
  else
    let k := nextFree d
    let d0 := match x.spilled with
      | (_, a, _) :: _ => devWrite k.2 a ((List.range 512).map (Config.contextRecord k.1))
      | [] => d
    let d1 := (ctxClusters d c).zipIdx.foldl (fun y g =>
      match x.spilled[g.2 + 1]? with
      | some (_, a, _) => devWrite y a ((List.range 0xF00).flatMap (fun i => leBytes 4 (ctxSemCount y c g.1 i)))
      | none => y) d0
    let d2 := { d1 with seq := { d1.seq with
      bankOwner := d1.seq.bankOwner.filter (fun e => e.2 != c)
      savedSems := d1.seq.savedSems.filter (fun e => e.1 / 16 != c) } }
    setCtx d2 c { x with swapping := false, st := .swappedOut, frame := none }

/-! ### Late waits and switches (R262, R288, R289) -/

/-- R262, R288: a wait that has stayed blocked is late. In elastic mode the current task's switch is wanted at its
next switch point. DEDUCED, log 39. -/
def lateWait (d : Dev) (g num : Nat) : Dev :=
  match (semAt d (semKey g num)).waits with
  | [] => d
  | w :: _ =>
    let d1 := bump d 0x7042 (g + 1) 1
    if cfg d1 0x7013 0 ≠ 0 then d1
    else
      match currentTask d1 g with
      | none => d1
      | some t =>
        if !otherReady d1 g && (readyOn d1 g).isEmpty then d1
        else if cfg d1 0x6002 0 ≤ (startedOn d1 g).length then raiseStep d1 0x4605 g num
        else if !otherReady d1 g then d1
        else
          let p := placeAt t g
          setPlace d1 t g { p with switchWanted := true, late := some (num, w.amount) }

/-- No FENCE is queued or waiting in a TU, and no DRAIN in an engine. -/
def fenced (u : Tu) : Bool := !u.fencing && u.queue.all (fun e => fld e.word 127 120 != 3)
def drained (e : Fe) : Bool := e.draining.isNone && e.queues.all (fun q => q.2.all (fun x => fdOp x.desc != 6))

/-- A FENCE the sequencer places itself (R722). -/
def placeFence (d : Dev) (t : Nat) : Dev :=
  setTu d t { tuAt d t with queue := (tuAt d t).queue ++
    [{ word := 3 * 2 ^ 120, ctx := 64, tag := 0, replay := false, fallback := false, reload := none }] }

/-- Place a FENCE in TU `t` once its queue has a free entry; until then it is owed (R722). -/
def fenceWhenRoom (d : Dev) (t : Nat) : Dev :=
  if (tuAt d t).queue.length < 64 then
    placeFence { d with seq := { d.seq with owedFences := d.seq.owedFences.filter (fun x => x != t) } } t
  else d

/-- Place a DRAIN in engine `f` once each of its queues has a free entry; until then it is owed (R722). -/
def drainWhenRoom (d : Dev) (f : Nat) : Dev :=
  if [0, 1, 2, 3].all (fun q => decide ((tget [] (feAt d f).queues q).length < queueDepth q)) then
    placeDrain { d with seq := { d.seq with owedDrains := d.seq.owedDrains.filter (fun x => x != f) } } f 64
  else d

/-- Owe FENCEs to TUs and DRAINs to engines, and place those there is room for. -/
def oweFences (d : Dev) (ts : List Nat) : Dev :=
  ts.foldl fenceWhenRoom { d with seq := { d.seq with owedFences := d.seq.owedFences ++ ts } }
def oweDrains (d : Dev) (fs : List Nat) : Dev :=
  fs.foldl drainWhenRoom { d with seq := { d.seq with owedDrains := d.seq.owedDrains ++ fs } }

/-- Place what is owed to cluster `g` as room has come. -/
def placeOwed (d : Dev) (g : Nat) : Dev :=
  let d1 := (d.seq.owedFences.filter (fun t => t / 8 == g)).foldl fenceWhenRoom d
  (d1.seq.owedDrains.filter (fun f => f == g)).foldl drainWhenRoom d1

/-- Step 1 of R289 may begin: the current task is at its switch point with a wait still blocked, or the cluster needs
a task that belongs to another context than its bank. -/
def switchDue (d : Dev) (g : Nat) : Bool :=
  otherReady d g &&
    (match currentTask d g with
     | some t =>
       let p := placeAt t g
       p.ended || (p.switchWanted && !p.busySince && anyBlocked d g && cfg d 0x7013 0 == 0)
     | none => true)

/-- Step 2: the task's active descriptors are suspended and removed, with its queued ones and the waits and counts that they
and the task's WAIT hold (R259, R266). DEDUCED, log 39. -/
def suspendTask (d : Dev) (g : Nat) (t : Task) : Dev :=
  let p := placeAt t g
  if p.ended then d
  else
    let e := feAt d g
    let recs := (e.active.filter (fun a => a.entry.task == t.id)).map (fun a => { a with susp := true })
    let queued := [0, 1, 2, 3].flatMap (fun q => ((tget [] e.queues q).filter (fun x => x.task == t.id)).map (fun x => (q, x)))
    let d1 := setFe d g { e with
      active := e.active.filter (fun a => a.entry.task != t.id)
      queues := e.queues.map (fun q => (q.1, q.2.filter (fun x => x.task != t.id))) }
    let own := fun (r : Nat) => r == 8 || r == 11
    bump (setPlace (dropWaits d1 g own) t g { p with records := recs, queued, waiting := none, waits := waitsOf d1 g own
                                                     grants := grantsOf d1 g own }) 0x7025 (g + 1) recs.length

/-- Steps 4 and 5: the incoming task, a started one or a new one, takes the cluster; with none left the outgoing
task goes on. DEDUCED, log 39. -/
def switchIn (d : Dev) (g : Nat) : Dev :=
  let d1 := { d with seq := { d.seq with switching := tdel d.seq.switching g } }
  let out := currentTask d1 g
  match selectStarted d1 g with
  | some t => bump (takeTask (loadCluster d1 t.ctx g) g t) 0x6030 (g + 1) 1
  | none =>
    match selectNew d1 g with
    | some k =>
      let d2 := startTask d1 k.1 k.2
      match selectStarted d2 g with
      | some t => bump (takeTask (loadCluster d2 t.ctx g) g t) 0x6030 (g + 1) 1
      | none => d2
    | none =>
      match out with
      | some t => if (placeAt t g).ended then d1 else takeTask d1 g t
      | none => d1

/-- R289, R722: a task switch of a cluster, one step of it at a time: the FENCEs are placed as room comes; once they have
completed the descriptors are taken out and a DRAIN is placed; once it has completed the tasks are exchanged. -/
def taskSwitch (d0 : Dev) (g : Nat) : Dev :=
  let mark := fun (x : Dev) (n : Nat) => { x with seq := { x.seq with switching := tset x.seq.switching g n } }
  let d := placeOwed d0 g
  match tfind d.seq.switching g with
  | none => if switchDue d g then mark (oweFences d ((List.range 8).map (fun i => 8 * g + i))) 1 else d
  | some 1 =>
    if (List.range 8).all (fun i => fenced (tuAt d (8 * g + i))) && d.seq.owedFences.all (fun t => t / 8 != g) then
      let d1 := match currentTask d g with
        | some t => suspendTask d g t
        | none => d
      mark (oweDrains d1 [g]) 2
    else d
  | some _ => if drained (feAt d g) && !d.seq.owedDrains.contains g then switchIn d g else d

/-! ### Context stop (R296) -/

/-- What the vector chain discards of a context: tiles, opened passes, blocks and outputs. -/
def vcDropCtx (v : Vc) (c : Nat) : Vc :=
  { v with
    passes := v.passes.filter (fun p => p.ctx != c)
    srcs := v.srcs.filter (fun b => b.ctx != c)
    joins := v.joins.filter (fun b => b.ctx != c)
    outs := v.outs.filter (fun o => o.ctx != c)
    owed := v.owed.filter (fun o => o.2.2 != c) }

/-- The tiles of a stopping context on TU `t` that will never drain: their samples are dropped (R61), and with the context
its replay slots are free. -/
def dropTiles (d : Dev) (c t : Nat) : Dev :=
  let u := tuAt d t
  let drop := fun (x : Dev) (b : Nat) => if (tuBank u b).ctx = c then shadowDrop x t b else x
  let d1 := drop (drop d 0) 1
  let keep := fun (l : List (Nat × Nat)) => l.filter (fun s => s.1 != t)
  let d2 := setTu d1 t { u with bank0 := bankStop u.bank0 c, bank1 := bankStop u.bank1 c }
  if tfind d.seq.bankOwner (t / 8) = some c then
    { d2 with sup := { d2.sup with
      slots := tset d2.sup.slots (t / 8) (keep (tget [] d2.sup.slots (t / 8)))
      passed := tset d2.sup.passed (t / 8) (keep (tget [] d2.sup.passed (t / 8)))
      waiting := tset d2.sup.waiting (t / 8) (keep (tget [] d2.sup.waiting (t / 8))) } }
  else d2
where
  /-- A bank of a stopping context has finished: it neither drains nor, once its later commands are gone, goes on. -/
  bankStop (b : Bank) (c : Nat) : Bank := if b.ctx = c ∧ !b.draining then freeBank else b

/-- R296: every unit has finished for a stopping context, which becomes stopped; 0x8603 names the cause.
DESIGN CHOICE, log 80. -/
def contextStopped (d : Dev) (c : Nat) : Dev :=
  let x := ctxAt d c
  let gs := ctxClusters d c
  let busy := gs.any (fun g => (List.range 8).any (fun i =>
    let u := tuAt d (8 * g + i)
    [u.bank0, u.bank1].any (fun b => b.draining && b.ctx == c)))
  if x.st != .stopping || busy then d
  else
    let ids := (d.seq.tasks.filter (fun t => t.ctx == c)).map (fun t => t.id)
    let d0 := gs.foldl (fun y g => (List.range 8).foldl (fun z i => dropTiles z c (8 * g + i)) y) d
    let d1 := { d0 with
      tiles := d.tiles.filter (fun e => e.2.ctx != c)
      vcs := d.vcs.map (fun e => (e.1, { vcDropCtx e.2 c with running := e.2.running.filter (fun r => !ids.contains r.task) }))
      ce := { d.ce with buckets := d.ce.buckets.filter (fun b => !ids.contains b.task) } }
    let d2 := gs.foldl (fun y g =>
      if (currentTask y g).any (fun t => t.ctx == c) then dropWaits y g (fun r => decide (r < 12)) else y) d1
    let d3 := ids.foldl (fun y i => dropUses (dropTask y i) i) d2
    let d4 := x.spilled.foldl (fun y b => spillFree y b.1 b.2.1) d3
    let d5 := { d4 with seq := { d4.seq with frameWait := d4.seq.frameWait.filter (fun k => k != c) } }
    raise (setCtx d5 c { ctxAt d5 c with st := .stopped, swapping := false, spilled := [] }) 0x8603 c x.cause

/-! ### Step end and stop step (R293, R502, R503) -/

/-- A stop is pending for the boundary that closes the current step. -/
def stopHere (d : Dev) : Bool := d.seq.stopPending || (cfg d 0x6026 0 != 0 && cfg d 0x6026 0 == d.seq.step)

/-- A cut is pending for the boundary that closes the current step (R575). -/
def cutHere (d : Dev) : Bool := cfg d 0xC100 0 != 0 && cfg d 0xC100 0 == d.seq.step

/-- The conditions of R293, R503 and R576. -/
def atStepEnd (d : Dev) (c : Nat) : Bool :=
  let cs := countCtxs d c
  let quiet := d.seq.tasks.all (fun t => !cs.contains t.ctx)
  let m := stepTasks d c
  quiet && decide (fwdCount d c = m) &&
    (if ctxSched d c = 2 then !(stopHere d || cutHere d) || (ctxAt d c).inflight == 0 else decide (bwdCount d c = m))

/-- R293: a context reaches its step end. -/
def stepEnd (d : Dev) (c : Nat) : Dev :=
  let x := ctxAt d c
  if (d.seq.job = .running ∨ d.seq.job = .stopping) ∧ d.seq.phase = .stepRunning ∧ ctxEn d c ∧ ctxLive x ∧ atStepEnd d c then
    setCtx d c { x with atEnd := true }
  else d

/-- R502: a write to SsStopAtStep. -/
def stopAtStep (d : Dev) (s : Nat) : Dev :=
  let pend := cfg d 0x6026 0
  if (pend ≠ 0 ∧ pend = d.seq.step ∧ d.seq.phase = .worked) ∨ (s ≠ 0 ∧ s < d.seq.step) then send d (.status 0x6026 0 6)
  else
    let d1 := send (setObj d 0x6026 0 s) (.status 0x6026 0 0)
    if s = 0 then
      { d1 with seq := { d1.seq with ctxs := d1.seq.ctxs.map (fun e =>
        (e.1, if ctxSched d e.1 = 2 && d.seq.phase == .stepRunning && !atStepEnd d1 e.1 then { e.2 with atEnd := false } else e.2)) } }
    else d1

end Sys2Proof.Machine
end

