-- ==== Sys2Proof/Machine/Snapshot.lean ====
section
/-! DEFINITION. The snapshot engine (R576 to R591, R597): capture of a cut, its flush to the drive and the mirror, and
restore. -/

namespace Sys2Proof.Machine

/-- Replace the engine's state. -/
def setSn (d : Dev) (x : Sn) : Dev := { d with sn := x }

/-! ### Memory items (R580) -/

/-- Pieces of job memory by device address, none crossing a 64 KiB page; none when some page is not device memory
(R581). -/
def jobPieces (d : Dev) (j n : Nat) (write : Bool) : Option (List (Nat × Nat)) :=
  (rangePieces j n).foldl (fun s p =>
    match s with
    | none => none
    | some l =>
      match translate d 18 (p.1 / 65536 * 65536 % 2 ^ 48) write with
      | (.dev a _, _) => if accessible d a 65536 then some (l ++ [(a + p.1 % 65536, p.2)]) else none
      | _ => none) (some [])

/-- Job ranges a cut holds: kind, item, job address, bytes (R316, R581). -/
def jobItems (d : Dev) : List (Nat × Nat × Nat × Nat) :=
  let slots := (enabledCtxs d).flatMap (fun c => [2 * c, 2 * c + 1].flatMap (fun q =>
    (presentEntries d q).map (fun e => (0x12, q, entSlot e, fld e 351 320))))
  let regions := (List.range 64).filterMap (fun i =>
    let r := cfg d 0xC104 (i + 1)
    if bitAt r 127 then some (0x80, i, fld r 119 72, fld r 71 24) else none)
  slots ++ regions

/-- Device ranges a cut holds (R348, R371, R471): kind, item, device address, bytes. -/
def devItems (d : Dev) : List (Nat × Nat × Nat × Nat) :=
  let copies := (enabledPars d).flatMap (fun e => (ringSlots d e).filterMap (fun s =>
    match (vslotAt d e s).ver with
    | some v => if (vslotAt d e s).state = 0 then none else some (0x21, e, slotCopy d e v, parVbytes d e)
    | none => none))
  let upd := (enabledPars d).flatMap (fun e =>
    let zs := updZones d e
    let x := upAt d e
    let acc := if x.b0.st = 0 ∧ x.b1.st = 0 then [] else (zs.drop (zs.length - 1)).map (fun z => (0x31, e, z.base, z.size))
    (zs.take (zs.length - 1)).map (fun z => (0x30, e, z.base, z.size)) ++ acc)
  let stage := d.ce.staging.map (fun s => (0x60, s.bucket, s.base, s.bytes))
  copies ++ upd ++ stage

/-! ### Capture (R583 to R585) -/

/-- What a cut holds of a parameter entry (R348): no view, no waiting GATH, GUSE 0. -/
def cutEntry (x : WvEntry) : WvEntry :=
  { x with view := none, remap := none, waits := [], slots := x.slots.map (fun s => (s.1, { s.2 with users := [] })) }

/-- What a cut holds of the collective engine (R471): staging, match records with their delivered marks, digests. -/
def cutCe (x : Ce) : Ce :=
  { ceReset with staging := x.staging, digests := x.digests, nextIdx := x.nextIdx
                 matches_ := x.matches_.map (fun m => { m with shares := [], data := [], taken := [] }) }

/-- What a cut holds of the inbound queues (R316): every entry present, in arrival order. -/
def cutSq (d : Dev) : Sq :=
  { d.sq with queues := d.sq.queues.map (fun e =>
      (e.1, { e.2 with resident := presentEntries d e.1, spilled := [], spillNext := 0 })) }

/-- The records of a cut as the device stands. DESIGN CHOICE, log 20. -/
def cutOf (d : Dev) (mem : List CutMem) : Cut :=
  { step := d.seq.step, jobTag := cfg d 0xC101 0, devid := ownDev d, genCrc := recsDigest (genValues d)
    stepping := cfg d 0x1004 0, firmware := cfg d 0x1006 0, ctxs := d.seq.ctxs, sems := d.sems
    savedSems := d.seq.savedSems, sq := cutSq d
    wv := { d.wv with bufs := [], allocWait := [], entries := d.wv.entries.map (fun e => (e.1, cutEntry e.2)) }, up := d.up, ledger := d.sup.ledger, active := d.sup.active
    idle := d.sup.idle, torpor := d.sup.torpor, enableMap := cfg d 0x5054 0
    shadowCounts := d.objs.filter (fun e => e.1 / 256 == 0x5036), rebuild := rebuildLeft d, roff := (d.seq.step + 1) % 2 ^ 64
    seed := cfg d 0xCE10 0, dataBase := cfg d 0xCE12 0, dataPerStep := cfg d 0xCE13 0
    ce := cutCe d.ce, ex := d.ex, mem }

/-- The hold ends (R575, R583). -/
def endHold (d : Dev) : Dev :=
  setSn (setObj { d with seq := { d.seq with cutHeld := false }, up := { d.up with heldForCut := false } } 0xC100 0 0)
    { d.sn with captured := none, waited := false }

/-- The cut is abandoned (R585). DESIGN CHOICE, log 61. -/
def abandonCut (d : Dev) : Dev := raise (endHold d) 0x8C12 0 d.seq.step

/-- One piece of memory goes into the reserve of the half it lies in: read through the cache as that half's requester 14
(R202, R213), none when a word of it is uncorrectable (R585). -/
def capturePiece (s : Option (List Byte) × Dev) (p : Nat × Nat) : Option (List Byte) × Dev :=
  match s.1 with
  | none => s
  | some bs =>
    let r := devRead s.2 64 p.1 p.2
    (if (ueIn s.2.mem p.1 p.2).isEmpty then some (bs ++ r.1) else none, r.2)

/-- One memory item of a cut: kind, item, address, and the pieces of device memory it lies in. -/
def captureItem (s : Option (List CutMem) × Dev) (i : (Nat × Nat × Nat) × List (Nat × Nat)) : Option (List CutMem) × Dev :=
  match s.1 with
  | none => s
  | some ms =>
    let r := i.2.foldl capturePiece (some [], s.2)
    (r.1.map (fun bs => ms ++ [{ kind := i.1.1, item := i.1.2.1, addr := i.1.2.2, bytes := bs }]), r.2)

/-- The records of a cut are read first: one whose check bits are uncorrectable raises the event of the unit that owns it, R7
applies, and there is no cut (R585). DESIGN CHOICE, log 96. -/
def capturedRecs (d : Dev) : Bool × Dev :=
  let sems := d.sems.filter (fun e => e.2.bad)
  let qs := d.sq.queues.filter (fun e => !e.2.bad.isEmpty)
  let pairs := d.sup.badActive ++ d.sup.badIdle ++
    (d.sup.ledger.map Prod.fst).filter (fun e => !(ueIn d.mem (ledgerHome e) 160).isEmpty)
  let d1 := sems.foldl (fun x e => semRead x (e.1 / 4096) (e.1 % 4096) (clusterCtx x (e.1 / 4096))) d
  let d2 := qs.foldl (fun x e => raiseFault x 0x8627 e.1 (entTag (e.2.bad.headD 0)) (e.1 / 2)) d1
  let d3 := pairs.foldl entryUe d2
  let d4 := d.mem.badRecs.foldl (fun x k => match k with
    | .slot e s => readRec x k 0x8684 e s
    | .binding c tag => readBinding x c tag
    | .parked e _ _ p => updFail x e p
    | .match_ b _ _ => ceFail x (bktPent x b) b
    | .retention e v _ => ceFail x e v
    | .route r => exFail x (r / 256) 0
    | .pending l _ tag => exFail x l tag
    | .placement l e => exFail x l e) d3
  (sems.isEmpty && qs.isEmpty && pairs.isEmpty && d.mem.badRecs.isEmpty, d4)

/-- A half's snapshot reserve: its base and its bytes (R582). -/
def reserveOf (d : Dev) (h : Nat) : Nat × Nat := (cfg d 0xC102 (h + 1), cfg d 0xC103 (h + 1))

/-- A cut is written into a half's reserve with the EVICT hint, so that no line of it stays in the cache (R203, R583). The
bytes there are the cut the engine holds; the manual gives their places on the drive only, so here they read as free
values. DESIGN CHOICE, log 20. -/
def reserveWrite (d : Dev) (h : Nat) : Dev :=
  if !reserveSet d h then d
  else
    let z := reserveOf d h
    let inside := fun (a : Nat) => decide (z.1 ≤ a ∧ a < z.1 + z.2)
    let r := nextFree d
    { r.2 with mem := { r.2.mem with
      bytes := r.2.mem.bytes.filter (fun e => !inside e.1)
      ue := r.2.mem.ue.filter (fun w => !inside w)
      ce := r.2.mem.ce.filter (fun w => !inside w)
      tags := r.2.mem.tags.map (fun s => (s.1, s.2.filter (fun t => !inside t.2.line)))
      swapped := (z.1, z.2, r.1) :: r.2.mem.swapped.filter (fun x => !(x.1 == z.1 && x.2.1 == z.2)) } }

/-- The flush and the mirror read the reserves at their sites (R203, R586): wrong bits are corrected and counted (R230), an
uncorrectable word is reported (R231), and then the cut is not written (R585): whether it may go on. -/
def reserveRead (d : Dev) : Bool × Dev :=
  halves.foldl (fun s h =>
    let z := reserveOf s.2 h
    if !reserveSet s.2 h then s
    else (s.1 && (ueIn s.2.mem z.1 z.2).isEmpty, noteUe (noteCorrects s.2 z.1 z.2) 64 (ueIn s.2.mem z.1 z.2))) (true, d)

/-- R583 to R585: at R294 step 5 the engine copies every item into the reserves, after an earlier flush has ended. An
uncorrectable word, a region that cannot be translated, or a device without a reserve leaves no cut.
The scale tables are those of the boundary: the swap is done (R132, R294 step 4). DESIGN CHOICE, log 61. -/
def cutCapture (d : Dev) : Dev :=
  if !d.seq.cutHeld || d.sn.captured.isSome || d.sup.enginesDone != 0 then d
  else if d.sn.flush.isSome || d.sn.mirror.isSome then
    if d.sn.waited then d else raise (setSn d { d.sn with waited := true }) 0x4C13 0 d.seq.step
  else if !halves.any (reserveSet d) then abandonCut d
  else
    let jobs := (jobItems d).map (fun i => ((i.1, i.2.1, i.2.2.1), jobPieces d i.2.2.1 i.2.2.2 false))
    if jobs.any (fun p => p.2.isNone) then abandonCut d
    else
      let items := jobs.map (fun p => (p.1, p.2.getD [])) ++
        (devItems d).map (fun i => ((i.1, i.2.1, i.2.2.1), [(i.2.2.1, i.2.2.2)]))
      let rs := capturedRecs d
      match items.foldl captureItem (if rs.1 then some [] else none, rs.2) with
      | (some ms, d1) =>
        let d2 := halves.foldl reserveWrite d1
        setSn d2 { d2.sn with captured := some (cutOf d ms), waited := false }
      | (none, d1) => abandonCut d1

/-- Payload bytes of the segments of a cut, in SEQ order (R583, R587): one of each record kind, whose size the manual does
not give, then the memory items in pieces of 4 MiB, then the manifest. DESIGN CHOICE, log 20. -/
def segSizes (c : Cut) : List Nat :=
  (List.range 9).map (Config.recordBytes c.step) ++
    c.mem.flatMap (fun m => (List.range (max 1 (ceilDiv m.bytes.length 4194304))).map (fun i =>
      min 4194304 (m.bytes.length - 4194304 * i))) ++ [Config.recordBytes c.step 9]

/-- Segments of a cut (R587). -/
def segCount (c : Cut) : Nat := (segSizes c).length

/-- Bytes of a cut, and of its segments when `left` of them are not written yet (R592). -/
def cutSize (c : Cut) : Nat := sumN (segSizes c)
def flushedBytes (c : Cut) (left : Nat) : Nat := sumN ((segSizes c).take (segCount c - left))

/-- The drive is ready (R586). -/
def driveReady (d : Dev) : Bool := bitAt (cfg d 0xC108 0) 22

/-- The drive slot of a number. -/
def driveSlot (d : Dev) (s : Nat) : Option DriveCut := if s = 0 then d.sn.slot0 else d.sn.slot1

/-- Replace a drive slot. -/
def setDrive (x : Sn) (s : Nat) (c : Option DriveCut) : Sn := if s = 0 then { x with slot0 := c } else { x with slot1 := c }

/-- The slot a cut is written to (R587). -/
def cutSlot (d : Dev) : Nat := if d.sn.newest = some 0 then 1 else 0

/-- The mirror window of a device, when there is one (R597). -/
def mirrorWindow (d : Dev) : Option Nat := if cfg d 0xC204 0 < 64 then some (cfg d 0xC204 0) else none

/-- R583: the last item is in the reserve: the hold ends after `us` microseconds, the flush and the mirror begin.
DESIGN CHOICE, log 12. -/
def captureDone (d : Dev) (us : Nat) : Dev :=
  match d.sn.captured with
  | none => d
  | some c =>
    let d1 := setObj (raise (endHold d) 0x0C10 0 c.step) 0xC132 0 us
    let d2 := match mirrorWindow d with
      | some w => send (setSn d1 { d1.sn with mirror := some c }) (.nvme 9 [w, c.step])
      | none => d1
    if driveReady d then
      let s := cutSlot d
      send (setSn (setObj d2 0xC112 0 0)
        (setDrive { d2.sn with flush := some { cut := c, slot := s, phase := .writing, left := segCount c } } s
          (some { cut := c, complete := false }))) (.nvme 1 [s, 0])
    else raise (raise d2 0x8C14 0 c.step) 0x8C12 0 c.step

/-! ### Flush (R588) -/

/-- The flush fails: the slot stays incomplete. -/
def flushFail (d : Dev) (c : Cut) : Dev := raise (setSn d { d.sn with flush := none }) 0x8C12 0 c.step

/-- R586, R588: a command of the drive completes. Segments are written one after another, then Flush, then each is
read back when SnVerify is set, then the directory block. A segment that the reserve no longer gives is not written (R585). -/
def nvmeCompletion (d : Dev) (ok : Bool) : Dev :=
  match d.sn.flush with
  | none => d
  | some f =>
    if f.phase = .directory then d
    else if !ok then flushFail d f.cut
    else
      let go := fun (x : Dev) (p : FlushPhase) (n kind : Nat) =>
        send (setSn x { x.sn with flush := some { f with phase := p, left := n } }) (.nvme kind [f.slot, n])
      let n := f.left - 1
      match f.phase with
      | .writing =>
        let rd := reserveRead d
        if !rd.1 then flushFail rd.2 f.cut
        else
          let y := setObj rd.2 0xC112 0 (flushedBytes f.cut n)
          if n = 0 then go y .syncing 1 2 else go y .writing n 1
      | .syncing => if cfg d 0xC107 0 = 1 then go d .verifying (segCount f.cut) 3 else go d .directory 1 4
      | .verifying => if n = 0 then go d .directory 1 4 else go d .verifying n 3
      | .directory => d

/-- `SnLastCut` (R592). -/
def lastCutWord (c : Cut) (slot : Nat) (complete : Bool) : Nat :=
  c.step * 2 ^ 192 + c.jobTag * 2 ^ 128 + cutSize c % 2 ^ 64 * 2 ^ 64 + slot * 2 + b2n complete

/-- R588: the directory block is written: the cut is complete on the drive. -/
def cutComplete (d : Dev) (ok : Bool) : Dev :=
  match d.sn.flush with
  | none => d
  | some f =>
    if f.phase != .directory then d
    else if !ok then flushFail d f.cut
    else
      let x := setDrive { d.sn with flush := none, newest := some f.slot } f.slot (some { cut := f.cut, complete := true })
      raise (bump (setObj (setSn d x) 0xC111 0 (lastCutWord f.cut f.slot true)) 0xC130 0 1) 0x0C11 0 f.cut.step

/-- R597: the mirror copy, read from the reserve, ends. -/
def mirrorDone (d : Dev) (ok : Bool) : Dev :=
  match d.sn.mirror with
  | none => d
  | some c =>
    let rd := reserveRead d
    let d1 := setSn rd.2 { d.sn with mirror := none }
    if ok && rd.1 then raise (setObj d1 0xC206 0 (c.step * 2 ^ 64 + c.jobTag)) 0x0C48 0 c.step else raise d1 0x8C49 0 c.step

/-- `SnState` (R592). -/
def snState (d : Dev) : Nat :=
  if d.sn.restoring.isSome then 5
  else match d.sn.flush with
    | some f => if f.phase = .verifying then 4 else 3
    | none => if d.seq.cutHeld then 2 else if d.sn.mirror.isSome then 3 else if cfg d 0xC100 0 ≠ 0 then 1 else 0

/-! ### Restore (R589 to R591) -/

def srSource (r : Nat) : Nat := fld r 127 126
def srSlot (r : Nat) : Nat := fld r 125 125
def srDevid (r : Nat) : Nat := fld r 118 107

/-- R589: a write to SnRestore is taken while the job is idle. -/
def snRestore (d : Dev) (r : Nat) : Dev :=
  if d.seq.job != .idle then send d (.status 0xC120 0 6)
  else if srSource r = 3 ∨ fld r 106 0 ≠ 0 then send d (.status 0xC120 0 5)
  else if d.sn.restoring.isSome then send d (.status 0xC120 0 8)
  else send (setSn d { d.sn with restoring := some r }) (.status 0xC120 0 1)

/-- The cut a restore reads: of the drive, or `image`, which came through the host window. DESIGN CHOICE, log 20. -/
def restoreCut (d : Dev) (r : Nat) (image : Option Cut) : Option Cut :=
  let of := fun (s : Nat) => (driveSlot d s).bind (fun c => if c.complete then some c.cut else none)
  if srSource r = 0 then d.sn.newest.bind of else if srSource r = 1 then of (srSlot r) else image

/-- R590: the first failing segment: (SEQ, KIND, cause). `bad` lists the segments whose check fails in the data as read: SEQ,
KIND, and whether it is the header (MAGIC, VER) that fails or the SHA. -/
def restoreFail (d : Dev) (r : Nat) (c : Option Cut) (bad : List (Nat × Nat × Bool)) : Option (Nat × Nat × Nat) :=
  match c with
  | none => some (0, 0, 6)
  | some c =>
    if c.jobTag ≠ cfg d 0xC101 0 then some (0, 0xFF, 2)
    else if c.devid ≠ srDevid r then some (0, 0xFF, 3)
    else if c.genCrc ≠ recsDigest (genValues d) then some (0, 0xFF, 4)
    else (bad.find? (fun s => s.2.1 != 0x40 && s.2.1 != 0x41)).map (fun s => (s.1, s.2.1, if s.2.2 then 1 else 5))

/-- Write bytes of a job range. -/
def jobPut (d : Dev) (j : Nat) (bs : List Byte) : Dev :=
  match jobPieces d j bs.length true with
  | none => d
  | some ps => (ps.foldl (fun (s : List Byte × Dev) p => (s.1.drop p.2, devWrite s.2 p.1 (s.1.take p.2))) (bs, d)).2

/-- Write one memory item back. -/
def memPut (d : Dev) (m : CutMem) : Dev := if m.kind = 0x12 ∨ m.kind = 0x80 then jobPut d m.addr m.bytes else devWrite d m.addr m.bytes

/-- The ledger of a cut, or scale rebuild when its segment failed (R133, R590). -/
def restoreLedger (d : Dev) (c : Cut) (ok : Bool) : Dev :=
  if ok then
    let d1 := setObj { d with sup := { d.sup with
      ledger := c.ledger, active := c.active, idle := c.idle, badActive := [], badIdle := [] } } 0x5022 0 c.rebuild
    { d1 with objs := stageAll (d1.objs.filter (fun e => e.1 / 256 != 0x5036)) c.shadowCounts
              mem := (c.ledger.map Prod.fst).foldl (fun m e => endBad m (ledgerHome e) 160) d1.mem }
  else raise (enterRebuild d true) 0x4C22 0 c.step

/-- The torpor slots of a cut, or fresh ones (R136, R590). -/
def restoreTorpor (d : Dev) (c : Cut) (ok : Bool) : Dev :=
  if ok then setObj { d with sup := { d.sup with torpor := c.torpor } } 0x5054 0 c.enableMap
  else raise (raise { d with sup := { d.sup with torpor := [] } } 0x4532 0 0) 0x4C22 0 c.step

/-- The entries of a restored queue go back where they were: the first into the resident part, the others into the spill
area (R312, R316). -/
def restoreQueue (d : Dev) (q : Nat) : Dev :=
  let s := sqAt d q
  let n := poolRes d (q / 2) (q % 2)
  (s.resident.drop n).foldl (fun x e => spillEntry x q e) (setSq d q { s with resident := s.resident.take n })

/-- R591: a restore that passes writes every kind. DESIGN CHOICE, log 61. -/
def restoreWrite (d : Dev) (c : Cut) (bad : List (Nat × Nat × Bool)) : Dev :=
  let d1 := c.mem.foldl memPut d
  let d2 := { endRecs d1 with
    up := { c.up with heldForCut := false }, wv := c.wv, ce := c.ce, ex := c.ex, sq := c.sq, sems := c.sems
    seq := { d1.seq with ctxs := c.ctxs, savedSems := c.savedSems, restored := true } }
  let d2' := (d2.sq.queues.map Prod.fst).foldl restoreQueue d2
  let d3 := restoreTorpor (restoreLedger d2' c (bad.all (fun s => s.2.1 != 0x40))) c (bad.all (fun s => s.2.1 != 0x41))
  let d4 := setObj (setObj (setObj (setObj d3 0xCE11 0 c.roff) 0xCE10 0 c.seed) 0xCE12 0 c.dataBase) 0xCE13 0 c.dataPerStep
  raise (setObj (setObj (setObj d4 0x6021 0 ((c.step + 1) % 2 ^ 64)) 0xC000 0 0) 0xC00B 0 7) 0x0C20 0 c.step

/-- `SnRestoreResult` (R592). -/
def restoreWord (f : Option (Nat × Nat × Nat)) : Nat :=
  match f with
  | none => 0
  | some (s, k, c) => s * 2 ^ 224 + k * 2 ^ 216 + c * 2 ^ 208

/-- R590, R591: the restore in progress ends: whether it was written, and the device. DESIGN CHOICE, log 61. -/
def restoreEnd (d : Dev) (image : Option Cut) (bad : List (Nat × Nat × Bool)) : Bool × Dev :=
  match d.sn.restoring with
  | none => (false, d)
  | some r =>
    let d0 := setSn d { d.sn with restoring := none }
    let c := restoreCut d r image
    let f := restoreFail d r c bad
    let d1 := setObj d0 0xC121 0 (restoreWord f)
    match f, c with
    | none, some c => (true, send (restoreWrite d1 c bad) (.done 0xC120 0 0))
    | _, _ => (false, send (raise d1 0x8C21 0 0) (.done 0xC120 0 6))

end Sys2Proof.Machine
end

