-- ==== Sys2Proof/Machine/Job.lean ====
section
/-! DEFINITION. Job control and the step boundary (R293 to R295, R390, R391, R565, R577, R579, R608). -/

namespace Sys2Proof.Machine

/-! ### Checked mode (R167) -/

/-- Checked mode is to be in force: forced by VcCheckedForce, or by a recovery (R607, R609). -/
def checkedWanted (d : Dev) : Bool := cfg d 0x4004 0 == 1 || d.rc.forced

/-- Enter or leave checked mode at a boundary or a start. -/
def checkedSettle (d : Dev) : Dev :=
  let w := checkedWanted d
  if w == d.sup.checked then d
  else raise (setObj (setObj { d with sup := { d.sup with checked := w } } 0x4003 0 (b2n w)) 0x5003 0 (b2n w))
    (if w then 0x0405 else 0x0406) 0 0

/-! ### START (R295) -/

/-- The armed generation would change an object of class J (R565). -/
def armedChangesJ (d : Dev) : Bool :=
  match d.gn.armed with
  | none => false
  | some a =>
    let recs := if a.rollback then rollbackRecs d ((d.gn.previous.map Prod.snd).getD []) else a.recs
    !(changesJ d recs).isEmpty

/-- R565: the generation forbids a START. -/
def genForbids (d : Dev) : Bool := armedChangesJ d || (cfg d 0x2040 0 != 0 && cfg d 0x2040 0 != d.gn.current)

/-- R608: recovery forbids a START. -/
def recoveryForbids (d : Dev) : Bool :=
  d.rc.active.isSome || !d.rc.queue.isEmpty || (let s := fld (cfg d 0xC211 0) 31 28; s != 0 && s != 2)

/-- R391: the offset check, which writes its result: whether it passes, and the device. -/
def startCheck (d : Dev) : Bool × Dev :=
  let roff := cfg d 0xCE11 0
  let w := rngCheckWord d roff (cfg d 0xCE15 0) false
  let same := roff == cfg d 0x6021 0
  let w1 := if same then w else setFld w 0 0 0
  (same && bitAt w 0, setObj d 0xCE20 0 w1)

/-- Contexts at START: the enabled ones wait for a frame, fresh; with `keep` what a restore wrote stays.
DESIGN CHOICE, log 42. -/
def startCtxs (d : Dev) (keep : Bool) : Tab Ctx :=
  (enabledCtxs d).map (fun c =>
    let x := if keep then ctxAt d c else ctxReset
    (c, { x with st := .swappedOut, frame := none, swapping := false, fwd := 0, bwd := 0, atEnd := false, cause := 0
                 refused := false, loaded := keep && x.loaded }))

/-- The clusters' units at START: nothing is stopped. -/
def startUnits (d : Dev) : Dev :=
  { d with
    tus := d.tus.map (fun e => (e.1, { e.2 with dead := none }))
    fes := d.fes.map (fun e => (e.1, { e.2 with dead := [] })) }

/-- The cache shares in force. -/
def shareWord (d : Dev) : Nat := cacheShare d 0 + 16 * cacheShare d 1

/-- R207: the near memory of half `h` between the cache part's old start and its new one holds undefined values.
DESIGN CHOICE, log 7. -/
def swapScratch (d : Dev) (h : Nat) : Dev :=
  let old := d.seq.shares / 16 ^ h % 16
  let s0 := max deviceRegion ((8 - old) * 0x20000000)
  let lo := nearSize * h + min s0 (cacheStart d h)
  let hi := nearSize * h + max s0 (cacheStart d h)
  if lo = hi then d
  else
    let (k, d1) := nextFree d
    { d1 with mem := { d1.mem with
      bytes := d1.mem.bytes.filter (fun e => decide (e.1 < lo ∨ hi ≤ e.1))
      swapped := (lo, hi - lo, k) :: d1.mem.swapped } }

/-- R207: a job that starts with a new share: the cache is written back and emptied first, and the scratch that changes
role loses its contents. DESIGN CHOICE, log 7. -/
def startCaches (d : Dev) : Dev :=
  if shareWord d = d.seq.shares then d
  else
  let dirty := d.mem.tags.flatMap (fun s => (s.2.map Prod.snd).filter (fun t => t.dirty))
  let d1 := swapScratch (swapScratch (dirty.foldl writeBack d) 0) 1
  { d1 with mem := { d1.mem with tags := [] }, seq := { d1.seq with shares := shareWord d } }

/-- Queues, versions, updates, collective engine and exchange of a job that starts afresh. DESIGN CHOICE, log 42. -/
def startFresh (d : Dev) : Dev :=
  let d1 := { endRecs d with seq := { d.seq with ctxs := startCtxs d false, savedSems := [] }, ce := ceReset, ex := exReset }
  upStart (wvStart (sqStart d1))

/-- R579: the first START after a restore: grants are discarded and made again for every slot without an entry, notices
are sent again, and the owners read again what they had not been delivered (R471). -/
def startRestored (d : Dev) : Dev :=
  let d1 := { d with
    seq := { d.seq with ctxs := startCtxs d true, restored := false }
    sq := { d.sq with queues := d.sq.queues.map (fun e => (e.1, { e.2 with held := [], headK0 := e.2.headK })) } }
  let qs := (enabledCtxs d).flatMap (fun c => [2 * c, 2 * c + 1])
  let d2 := qs.foldl (fun x q => (List.range (poolCount d (q / 2) (q % 2))).foldl (fun y i =>
    if (recvSlot y q i).busy then y else lendSlot y q i) x) d1
  let d3 := (enabledPars d).foldl (fun x e => (ringSlots d e).foldl (fun y s =>
    let v := vslotAt y e s
    match v.ver with
    | some n =>
      let y1 := if v.state = 2 ∨ v.state = 3 then sendNotice y e 0 n else y
      if v.lrel then sendNotice y1 e 1 n else y1
    | none => y) x) d2
  issueAll d3

/-- A START that is accepted closes the ended records and lifts the fences (R602, R608, R609).
DESIGN CHOICE, log 62. -/
def startRecovery (d : Dev) : Dev :=
  let n := d.rc.ended.length
  if d.rc.ended.isEmpty && d.rl.fenced.isEmpty && fld (cfg d 0xC211 0) 31 28 != 2 then d
  else
    let d1 := bump { d with rl := { d.rl with fenced := [] }, rc := { d.rc with ended := [], restoredAt := none } } 0xC230 0 n
    match (if fld (cfg d 0xC211 0) 31 28 = 2 then d1.rc.replay else none) with
    | some e =>
      if e < cfg d 0x6021 0 then
        raise (setObj { d1 with rc := { d1.rc with replay := none, forced := false } } 0xC211 0 0) 0x0C46 0 e
      else setObj { d1 with rc := { d1.rc with forced := true } } 0xC211 0 (setFld (cfg d 0xC211 0) 31 28 5)
    | none => setObj { d1 with rc := { d1.rc with replay := none } } 0xC211 0 0

/-- The supervisor at a START with step `s`: steps from `s` on are open again (R100), and the counts of a step begin
(R124, R137). DESIGN CHOICE, log 42. -/
def startSup (x : Sup) (s : Nat) : Sup :=
  { x with
    closed := x.closed.bind (fun n => if n < s then some n else if s = 0 then none else some (s - 1))
    disagree := [], named := [] }

/-- START: the step becomes SsStartStep and tasks are admitted (R295). -/
def startJob (d : Dev) : Dev :=
  let d0 := startUnits (startCaches (startRecovery d))
  let d1 := if d.seq.restored then startRestored d0 else startFresh d0
  let d2 := { d1 with
    seq := { d1.seq with tasks := [], current := [], frameWait := [], bankOwner := [], switching := []
                         phase := .stepRunning, timedOut := false, cutHeld := false, step := cfg d 0x6021 0, job := .running
                         stopPending := false, owedFences := [], owedDrains := [] }
    sup := startSup d1.sup (cfg d 0x6021 0)
    ev := { d1.ev with onceStep := [], counts := [] } }
  checkedSettle (raise d2 0x0606 0 (cfg d 0x6021 0))

/-- R295, R391, R565, R608, R702: a START; it is ignored unless the job is idle. -/
def jobStart (d : Dev) : Dev :=
  if d.seq.job != .idle then send d (.status 0x6022 0 0)
  else if cfg d 0xE001 0 != 0xFF || recoveryForbids d then send d (.status 0x6022 0 6)
  else if genForbids d then send (raise d 0x8205 d.gn.current 0) (.status 0x6022 0 6)
  else
    match startCheck d with
    | (true, d1) => send (startJob d1) (.status 0x6022 0 0)
    | (false, d1) =>
      send (raise d1 0x8CE1 (cfg d 0xCE11 0) (fld (cfg d1 0xCE20 0) 63 32)) (.status 0x6022 0 6)

/-- R295: STOP takes effect at the next boundary. -/
def jobStop (d : Dev) : Dev :=
  let d1 := if d.seq.job = .running then { d with seq := { d.seq with job := .stopping, stopPending := true } } else d
  send d1 (.status 0x6022 0 0)

/-- Every context is stopped, as a unit fault stops one (R295, R296). -/
def haltAll (d : Dev) : Dev :=
  let d1 := (enabledCtxs d).foldl (fun x c => unitFault x c 0) d
  { d1 with seq := { d1.seq with job := .halted } }

/-- R295: HALT stops every context. -/
def jobHalt (d : Dev) : Dev := send (haltAll d) (.status 0x6022 0 0)

/-! ### The step boundary (R294) -/

/-- The contexts that take part in the boundary: enabled, and not stopped or stopping. -/
def boundaryCtxs (d : Dev) : List Nat := (enabledCtxs d).filter (fun c => ctxLive (ctxAt d c))

/-- R294 step 1: every enabled context that has not stopped is at its step end; one that is stopping has not stopped. -/
def boundaryReady (d : Dev) : Bool :=
  (enabledCtxs d).all (fun c => (ctxAt d c).st != .stopping) && (boundaryCtxs d).all (fun c => (ctxAt d c).atEnd)

/-- A job is at work. -/
def jobActive (d : Dev) : Bool := d.seq.job == .running || d.seq.job == .stopping

/-- R294 steps 1 and 2: every context is at its step end; DRAINs and FENCEs enter every engine and TU (R270, R722), those a
full queue holds back as room comes. -/
def boundaryBegin (d : Dev) : Dev :=
  if d.seq.phase == .draining then (List.range 16).foldl placeOwed d
  else if jobActive d && d.seq.phase == .stepRunning && boundaryReady d && d.seq.switching.isEmpty then
    let d1 := oweFences (oweDrains d (List.range 16)) (List.range 128)
    { d1 with seq := { d1.seq with phase := .draining } }
  else d

/-- Every engine and TU has completed its DRAIN and FENCE. -/
def unitsQuiet (d : Dev) : Bool :=
  d.seq.owedFences.isEmpty && d.seq.owedDrains.isEmpty &&
    d.fes.all (fun e => drained e.2) && d.tus.all (fun e => fenced e.2)

/-- No apply of an entry is in progress or waiting, and its slots are EMPTY or COMPLETE (R576). -/
def entrySettled (d : Dev) (e : Nat) : Bool :=
  let x := upAt d e
  decide (x.b0.st ≤ 1) && decide (x.b1.st ≤ 1) &&
    (ringSlots d e).all (fun s => let v := vslotAt d e s; v.ver.isNone || v.state == 0 || v.state == 3)

/-- R294 step 3, R576: what a context waits for. -/
def contextVersions (d : Dev) (c : Nat) : Bool :=
  if ctxSched d c = 2 then !cutHere d || (bindList d c).all (entrySettled d) else versionsReady d c d.seq.step

/-- R294 step 3 holds. -/
def versionsDone (d : Dev) : Bool := (boundaryCtxs d).all (contextVersions d)

/-- R294 step 4, then the monitor (R572) and the request of a cut: in order close_step, the torpor tests, the armed
generation; the table swap follows as its own event (R104). -/
def boundaryWork (d : Dev) : Dev :=
  if d.seq.phase == .draining && unitsQuiet d && versionsDone d then
    let n := d.seq.step
    let d1 := torporTests (rebuildTick (closeAll d))
    let d2 := genBoundary { d1 with seq := { d1.seq with phase := .worked } } n
    let d3 := healthStep d2
    let held := cutHere d3
    { d3 with seq := { d3.seq with cutHeld := held }, up := { d3.up with heldForCut := held } }
  else d

/-- R294 step 3 lasts longer than SsBoundaryTimeout: 0x8608 once. -/
def boundaryTimeout (d : Dev) : Dev :=
  if d.seq.phase == .draining && !d.seq.timedOut && unitsQuiet d && !versionsDone d then
    raise { d with seq := { d.seq with timedOut := true } } 0x8608 0 d.seq.step
  else d

/-- A context in the next step. -/
def nextStepCtx (x : Ctx) : Ctx := { x with fwd := 0, bwd := 0, atEnd := false, refused := false }

/-- R609: the boundary that closes the last replayed step has completed. -/
def replayEnd (d : Dev) (n : Nat) : Dev :=
  match d.rc.replay with
  | some e =>
    if e ≤ n then raise (setObj { d with rc := { d.rc with replay := none, forced := false } } 0xC211 0 0) 0x0C46 0 e else d
  | none => d

/-- R294 step 6, R390: SsStep and ROFF become n + 1 and tasks of the next step are admitted; a stop for this boundary
leaves the job idle and no stop step pending (R295, R502). DESIGN CHOICE, log 12. DEDUCED, log 16. DESIGN CHOICE, log 62.
DEDUCED, log 85. -/
def stepAdvance (d : Dev) (us : Nat) : Dev :=
  if d.seq.phase == .worked && d.sup.enginesDone == 0 && !d.seq.cutHeld then
    let n := d.seq.step
    let n1 := (n + 1) % 2 ^ 64
    let stop := stopHere d
    let d1 := rejoin d
    let d2 := setObj (setObj { d1 with
      seq := { d1.seq with
        step := n1, phase := .stepRunning, timedOut := false
        ctxs := d1.seq.ctxs.map (fun e => (e.1, nextStepCtx e.2)) }
      ev := { d1.ev with onceStep := [] }
      sup := { d1.sup with disagree := [], named := [] } } 0xCE11 0 n1) 0x6025 0 us
    let d3 := checkedSettle (replayEnd d2 n)
    if stop then
      let m := setObj d3 0x6026 0 0
      raise { m with seq := { m.seq with job := .idle, stopPending := false } } 0x0607 0 n
    else d3
  else d

end Sys2Proof.Machine
end

