-- ==== Sys2Proof/Machine/Recovery.lean ====
section
/-! DEFINITION. Recovery: records, roles, spares, the axolotl fill, wedged devices (R594 to R614). -/

namespace Sys2Proof.Machine

/-! ### The recovery record (R598) -/

def rrRid (r : Nat) : Nat := fld r 191 176
def rrFailed (r : Nat) : Nat := fld r 175 164
def rrCut (r : Nat) : Nat := fld r 127 64
def rrReplay (r : Nat) : Nat := fld r 63 0

/-- Replace the controller's state. -/
def setRc (d : Dev) (x : Rc) : Dev := { d with rc := x }

/-- `RcState` (R615). -/
def setRcState (d : Dev) (st r : Nat) : Dev := setObj d 0xC211 0 (st * 2 ^ 28 + rrFailed r * 2 ^ 16 + rrRid r)

/-- The records held: running, queued, ended and not closed. -/
def heldRecords (d : Dev) : List Nat := (d.rc.active.map (fun a => a.1)).toList ++ d.rc.queue ++ d.rc.ended

/-- Records that run or wait. -/
def runningRecords (d : Dev) : List Nat := (d.rc.active.map (fun a => a.1)).toList ++ d.rc.queue

/-! ### Spare rows and aliases (R596, R605, R606) -/

/-- The ID of a spare row. -/
def spareId (d : Dev) (row : Nat) : Nat := fld (cfg d 0xC201 row) 11 0

/-- The first enabled row whose state is free. -/
def freeSpare (d : Dev) : Option Nat :=
  ((List.range 16).map (· + 1)).find? (fun r => bitAt (cfg d 0xC201 r) 15 && cfg d 0xC202 r == 0)

/-- Set the alias of a failed device to a row's ID, in the place of that row (R605, R606). DESIGN CHOICE, log 62. -/
def setAliasRow (d : Dev) (failed row : Nat) : Dev :=
  let d1 := ((List.range 16).map (· + 1)).foldl (fun x i =>
    if bitAt (cfg x 0xC215 i) 31 && fld (cfg x 0xC215 i) 27 16 == failed then setObj x 0xC215 i 0 else x) d
  setObj d1 0xC215 row (2 ^ 31 + failed * 2 ^ 16 + spareId d row)

/-- This device's ID is one of the spares'. -/
def isSpare (d : Dev) : Bool :=
  ((List.range 16).map (· + 1)).any (fun r => bitAt (cfg d 0xC201 r) 15 && spareId d r == cfg d 0xC203 0)

/-- R603: the role of this device under a record that uses row `row`. -/
def roleOf (d : Dev) (r row : Nat) : Role :=
  if cfg d 0xC203 0 = spareId d row then .chosen
  else if rrFailed r = ownDev d ∨ rrFailed r = cfg d 0xC203 0 then .failed
  else if isSpare d then .other
  else .survivor

/-- The device would act as a survivor, whatever row is chosen. -/
def wouldSurvive (d : Dev) (r : Nat) : Bool :=
  !(isSpare d || rrFailed r == ownDev d || rrFailed r == cfg d 0xC203 0)

/-- The drive slot that holds a complete cut of a step. -/
def slotOfStep (d : Dev) (s : Nat) : Option Nat :=
  [0, 1].find? (fun i => match driveSlot d i with
    | some c => c.complete && c.cut.step == s
    | none => false)

/-! ### Fencing (R604 step 1) -/

/-- Fence a device: its bit in RelayPeerDownMap, and its messages dropped on arrival. -/
def fenceDev (d : Dev) (dev : Nat) : Dev :=
  setObj { d with rl := { d.rl with fenced := if d.rl.fenced.contains dev then d.rl.fenced else dev :: d.rl.fenced } } 0x9052 0
    (setBit (cfg d 0x9052 0) dev true)

/-! ### Acceptance (R600, R610) -/

/-- A record is refused. DESIGN CHOICE, log 62. -/
def recordRefused (d : Dev) (r : Nat) : Bool :=
  rrRid r == 0 || decide (rrReplay r < rrCut r) || fld r 163 128 != 0 ||
    (heldRecords d).any (fun x => rrRid x == rrRid r && x != r) ||
    (runningRecords d).any (fun x => rrCut x != rrCut r) ||
    (match d.rc.stoppedAt with
     | some s => s != rrCut r
     | none => false) ||
    (wouldSurvive d r && (slotOfStep d (rrCut r)).isNone) || decide (4 ≤ d.rc.queue.length)

/-- The record that is using a row: it has started, it is not closed, and the row carries its alias (R605). -/
def rowUser (d : Dev) (row : Nat) : Option Nat :=
  if cfg d 0xC202 row == 1 && bitAt (cfg d 0xC215 row) 31 then
    ((d.rc.active.map (fun a => a.1)).toList ++ d.rc.ended).find? (fun x => rrFailed x == fld (cfg d 0xC215 row) 27 16)
  else none

/-- The row, and the earlier record that restarts, when the spare that it is using fails before START (R610).
DESIGN CHOICE, log 62. -/
def spareLost (d : Dev) (r : Nat) : Option (Nat × Nat) :=
  ((List.range 16).map (· + 1)).findSome? (fun row =>
    if spareId d row = rrFailed r then (rowUser d row).map (fun x => (row, x)) else none)

/-- R610: the chosen spare is lost: its row is lost, the earlier record `x` starts again on the next free row, and the record
that names the spare ends. DESIGN CHOICE, log 62. -/
def restartRecord (d : Dev) (row x r : Nat) : Dev :=
  let d1 := raise (setObj d 0xC202 row 2) 0x4C43 (rrRid r) (rrFailed r)
  let running := d.rc.active.any (fun a => a.1 == x)
  setRc d1 { d1.rc with
    active := if running then none else d1.rc.active
    ended := d1.rc.ended.filter (fun y => y != x) ++ [r]
    queue := x :: d1.rc.queue }

/-- R603: the failed device fences itself: HALT, every quad disabled, fenced until reset. -/
def fenceSelf (d : Dev) (r : Nat) : Dev :=
  let d1 := (List.range 16).foldl (fun x q => setQuad x q { quadAt x q with state := 0 }) (haltAll d)
  raise (setRcState d1 6 r) 0x8C47 (rrRid r) (rrFailed r)

/-- R598 to R602, R610: a write to RcRecover: the record is accepted, queued or refused. -/
def rcRecover (d : Dev) (r : Nat) : Dev :=
  let ok := fun (x : Dev) => send x (.status 0xC210 0 0)
  if (heldRecords d).contains r then ok d
  else if recordRefused d r then send (raise d 0x8C45 (rrRid r) (rrFailed r)) (.status 0xC210 0 6)
  else if (runningRecords d).any (fun x => rrFailed x == rrFailed r) then ok d
  else
    let d1 := raise d 0x0C40 (rrRid r) (rrFailed r)
    match spareLost d r with
    | some (row, x) =>
      let d2 := restartRecord d1 row x r
      ok (if rrFailed r = cfg d 0xC203 0 then fenceSelf d2 r else d2)
    | none =>
      let d2 := setRc d1 { d1.rc with queue := d1.rc.queue ++ [r] }
      ok (if (heldRecords d).isEmpty then d2 else raise (fenceDev d2 (rrFailed r)) 0x4C42 (rrRid r) (rrFailed r))

/-! ### A record starts (R604 to R607, R611) -/

/-- R602, R611: no row is free: every record that has not closed is dropped, ends and closes at once, and the device stays
stopped at the cut. An event has room for one of the devices left without a spare. DESIGN CHOICE, log 62. -/
def dropRecords (d : Dev) (r : Nat) : Dev :=
  let d1 := setRc (bump d 0xC230 0 (heldRecords d).length)
    { d.rc with active := none, queue := [], ended := [], stoppedAt := some (rrCut r), replay := none, forced := false }
  raise (setRcState d1 7 r) 0x8C44 (rrFailed r) (rrCut r)

/-- A record's part ends here (R602). -/
def endPart (d : Dev) : Dev :=
  match d.rc.active with
  | some a => setRc d { d.rc with active := none, ended := d.rc.ended ++ [a.1] }
  | none => d

/-- Abandon a pending cut and stop step and a flush in progress, to the drive or to the mirror (R597); cancel an armed
generation (R604 step 2). -/
def abandonWork (d : Dev) : Dev :=
  let d1 := setObj (setObj d 0xC100 0 0) 0x6026 0 0
  let d2 := match (d1.sn.flush.map (fun f => f.cut)).or d1.sn.mirror with
    | some c => flushFail d1 c
    | none => d1
  let d3 := setSn d2 { d2.sn with captured := none, mirror := none, waited := false }
  match d3.gn.armed with
  | some a => raise { d3 with gn := { d3.gn with armed := none, staged := stageAll a.recs d3.gn.staged } } 0x0204 (gcGen a.raw) 0
  | none => d3

/-- What a survivor restores: the slot of its own drive whose directory holds the cut (R589, R604 step 4). -/
def survivorRecord (d : Dev) (r : Nat) : Nat :=
  1 * 2 ^ 126 + (slotOfStep d (rrCut r)).getD 0 * 2 ^ 125 + ownDev d * 2 ^ 107

/-- A survivor's steps 1 and 2. An idle device that an earlier record brought to the cut has nothing more to do, and one that
an earlier record is still restoring to it goes on with that restore (R604, R610, R611). -/
def survivorStart (d : Dev) (r : Nat) : Dev :=
  let d1 := fenceDev d (rrFailed r)
  if d.seq.job = .idle ∧ d.rc.restoredAt = some (rrCut r) then setRcState (endPart d1) 2 r
  else if d.seq.job = .idle ∧ d.sn.restoring = some (survivorRecord d r) then
    setRcState (setRc d1 { d1.rc with active := some (r, .survivor, true) }) 1 r
  else setRcState (haltAll (abandonWork d1)) 1 r

/-- Every context has stopped (R296). -/
def allStopped (d : Dev) : Bool :=
  (enabledCtxs d).all (fun c => let s := (ctxAt d c).st; s == .stopped || s == .disabled)

/-- R338 for every context: the tag records of the job are released. -/
def releaseTags (d : Dev) : Dev :=
  (d.wv.tags.map Prod.fst).foldl (fun x k => unbindTag x (k / 2 ^ 24) (k % 2 ^ 24)) d

/-- A survivor's steps 3 and 4: tags released, queues emptied, the job idle, and the restore begun from the slot that
holds the cut. -/
def survivorRestore (d : Dev) (r : Nat) : Dev :=
  let d1 := releaseTags d
  let d2 := { d1 with sq := sqReset, seq := { d1.seq with job := .idle, phase := .stepRunning, cutHeld := false, tasks := [] } }
  setSn d2 { d2.sn with restoring := some (survivorRecord d r) }

/-- Take up a record with a spare row chosen (R603). -/
def takeRecord (d : Dev) (r row : Nat) (rest : List Nat) : Dev :=
  let role := roleOf d r row
  let d1 := setAliasRow (setObj d 0xC202 row 1) (rrFailed r) row
  let d2 := setRc d1 { d1.rc with active := some (r, role, false), queue := rest, row, replay := some (rrReplay r), stoppedAt := none }
  match role with
  | .chosen => setRcState d2 3 r
  | .failed => fenceSelf (endPart d2) r
  | .other => endPart d2
  | .survivor => survivorStart d2 r

/-- R602 to R605: the record at the head starts when none runs; a survivor whose contexts have stopped goes on to its
restore. DESIGN CHOICE, log 62. -/
def recordStart (d : Dev) : Dev :=
  match d.rc.active with
  | some (r, .survivor, false) =>
    if allStopped d && d.sn.restoring.isNone then survivorRestore (setRc d { d.rc with active := some (r, .survivor, true) }) r else d
  | some _ => d
  | none =>
    match d.rc.queue with
    | [] => d
    | r :: rest =>
      match freeSpare d with
      | some row => takeRecord d r row rest
      | none => dropRecords d r

/-- R607 steps 1 to 3: the chosen spare carries the failed device's ID and nothing is armed: it retrains its quads and
restores through the mirror window, in checked mode. -/
def axolotlFill (d : Dev) : Dev :=
  match d.rc.active with
  | some (r, .chosen, false) =>
    if ownDev d = rrFailed r ∧ d.gn.armed.isNone ∧ d.seq.job = .idle then
      let d1 := (setBits 16 (cfg d 0x9012 0)).foldl quadRetrainOne d
      let d2 := setRc d1 { d1.rc with active := some (r, .chosen, true), forced := true }
      let d3 := setSn d2 { d2.sn with restoring := some (2 * 2 ^ 126 + cfg d 0xC204 0 % 64 * 2 ^ 119 + rrFailed r * 2 ^ 107) }
      checkedSettle (setRcState d3 4 r)
    else d
  | _ => d

/-- R591, R604 step 5, R607 step 4: a restore ends, and with it a survivor's or a spare's part.
DESIGN CHOICE, log 20. -/
def restoreDone (d : Dev) (image : Option Cut) (bad : List (Nat × Nat × Bool)) : Dev :=
  match d.sn.restoring with
  | none => d
  | some _ =>
    let e := restoreEnd d image bad
    match d.rc.active, e.1 with
    | some (r, .survivor, true), true => setRcState (endPart (setRc e.2 { e.2.rc with restoredAt := some (rrCut r) })) 2 r
    | some (r, .chosen, true), true => raise (setRcState (endPart e.2) 2 r) 0x0C41 (rrRid r) (rrFailed r)
    | some (r, .chosen, true), false => setRcState (setRc e.2 { e.2.rc with active := some (r, .chosen, false) }) 3 r
    | none, true => setRc e.2 { e.2.rc with restoredAt := e.2.rc.stoppedAt }
    | _, _ => e.2

/-! ### Wedged devices (R612 to R614) -/

/-- The oldest blocked wait of a cluster, as the word of R254. DESIGN CHOICE, log 63. -/
def blockedWord (d : Dev) (g : Nat) : Nat :=
  match d.sems.find? (fun e => e.1 / 4096 == g && !e.2.waits.isEmpty) with
  | some e =>
    semWord e.2
  | none => 0

/-- `RcWedgeReport` (R614). What the management controller reads of idle sequencers and held engines over 1 ms is
the command's `seqIdle` and `feHeld`. DESIGN CHOICE, log 63. -/
def wedgeReport (d : Dev) (cause seqIdle feHeld : Nat) : Nat :=
  let up := sumN ((List.range 16).map (fun q => if (quadAt d q).state = 2 then 2 ^ q else 0))
  let run := sumN ((List.range 64).map (fun c => if (ctxAt d c).st = .running then 2 ^ c else 0))
  let blocked := sumN ((List.range 16).map (fun g => blockedWord d g * 2 ^ (32 * g + 1248)))
  let far := fun (h : Nat) => sumN ((List.range 8).map (fun i => (feAt d (8 * h + i)).reads)) % 65536
  d.ptp * 2 ^ 1984 + d.seq.step * 2 ^ 1920 + d.ev.eseq * 2 ^ 1888 + cause * 2 ^ 1880 + d.sy.pend.length % 256 * 2 ^ 1872 +
    seqIdle % 65536 * 2 ^ 1856 + feHeld % 65536 * 2 ^ 1840 + up * 2 ^ 1824 + run * 2 ^ 1760 + blocked +
    far 1 * 2 ^ 1232 + far 0 * 2 ^ 1216 + d.west.open_.length % 65536 * 2 ^ 1200 + d.east.open_.length % 65536 * 2 ^ 1184

/-- R612: the device is declared wedged and stays so until reset. DEDUCED, log 26. -/
def wedge (d : Dev) (cause seqIdle feHeld : Nat) : Dev :=
  if d.rc.wedged then d
  else
    let w := wedgeReport d cause seqIdle feHeld
    raise (setObj (setRc d { d.rc with wedged := true }) 0xC220 0 w) 0x8C4A cause 0

/-- R612: a write to RcWedgeCapture. -/
def wedgeCapture (d : Dev) (v seqIdle feHeld : Nat) : Dev :=
  send (if v = 1 then wedge d 3 seqIdle feHeld else d) (.status 0xC221 0 0)

/-- R612: the fabric probe goes unanswered for 10 ms. -/
def fabricProbeTimeout (d : Dev) (seqIdle feHeld : Nat) : Dev := wedge d 2 seqIdle feHeld

end Sys2Proof.Machine
end

