-- ==== Sys2Proof/Machine/Bridge.lean ====
section
/-! DEFINITION. The tandem bridge: frames, order, acknowledgement, replay, retrain (chapter 25). Direction 0 is
eastbound, from half 0 to half 1; direction 1 is westbound. -/

namespace Sys2Proof.Machine

/-! ### Directions and bundles -/

/-- A direction. -/
def brDir (d : Dev) (dir : Nat) : BrDir := if dir = 0 then d.east else d.west

/-- Replace a direction. -/
def setBrDir (d : Dev) (dir : Nat) (x : BrDir) : Dev := if dir = 0 then { d with east := x } else { d with west := x }

/-- A bundle of a direction. -/
def bundleAt (x : BrDir) (b : Nat) : Bundle := tget bundleReset x.bundles b

/-- Replace a bundle of a direction. -/
def putBundle (x : BrDir) (b : Nat) (u : Bundle) : BrDir := { x with bundles := tset x.bundles b u }

/-- A bundle is up. -/
def bundleUp (x : BrDir) (b : Nat) : Bool := decide (b < 24) && (bundleAt x b).state == 2

/-- The bundles of a direction that are not disabled, and that carry frames. -/
def bundlesLeft (x : BrDir) : Nat := ((List.range 24).filter (fun b => (bundleAt x b).state != 0)).length
def bundlesActive (x : BrDir) : List Nat := (List.range 24).filter (bundleUp x)

/-- A frame is of the response class (R666). -/
def bodyRsp : BrBody → Bool
  | .req _ => false
  | .wdata _ _ _ => false
  | .sig _ => false
  | .rdata _ _ _ => true
  | .wack _ => true

/-- KIND of a frame (R666). -/
def bodyKind : BrBody → Nat
  | .req _ => 1
  | .wdata _ _ _ => 2
  | .sig _ => 3
  | .rdata _ _ _ => 4
  | .wack _ => 5

/-- Replay buffer entries of a bundle, and the frames of a class's receive queue (R668, R669). -/
def replayDepth : Nat := 64
def brQueueDepth : Nat := 512

/-! ### Sending (R667, R668) -/

/-- Credits of a frame's class. -/
def brCredit (x : BrDir) (f : BrFrame) : Nat := if bodyRsp f.body then x.credRsp else x.credReq

/-- Change the credits of a frame's class: use one, or give one back. -/
def useCredit (x : BrDir) (f : BrFrame) : BrDir :=
  if bodyRsp f.body then { x with credRsp := x.credRsp - 1 } else { x with credReq := x.credReq - 1 }
def backCredit (x : BrDir) (f : BrFrame) : BrDir :=
  if bodyRsp f.body then { x with credRsp := x.credRsp + 1 } else { x with credReq := x.credReq + 1 }

/-- The bundle the next frame is dealt to: in rotation after the last one, those whose replay buffer is full
skipped (R667). -/
def dealTo (x : BrDir) : Option Nat :=
  ((List.range 24).map (fun i => (x.last + 1 + i) % 24)).find?
    (fun b => bundleUp x b && decide ((bundleAt x b).replay.length < replayDepth))

/-- The header fields of a frame as sent: bundle, KIND, SEQ, ORD. -/
def brOut (d : Dev) (dir b seq : Nat) (f : BrFrame) : Dev := send d (.bridge dir (bodyKind f.body) [b, seq, f.ord])

/-- A frame takes the next SEQ of a bundle, stays in its replay buffer and is counted. -/
def brIssue (d : Dev) (dir b : Nat) (f : BrFrame) : Dev :=
  let x := brDir d dir
  let u := bundleAt x b
  let x1 := putBundle (useCredit x f) b { u with nextSeq := (u.nextSeq + 1) % 256, replay := u.replay ++ [(u.nextSeq, f)] }
  bump (brOut (setBrDir d dir { x1 with last := b }) dir b u.nextSeq f) 0x8120 (dir + 1) 1

/-- Deal waiting frames while some class has a credit and some bundle room. -/
def brPump : Nat → Nat → Dev → Dev
  | 0, _, d => d
  | n + 1, dir, d =>
    let x := brDir d dir
    match x.waiting.find? (fun f => decide (0 < brCredit x f)), dealTo x with
    | some f, some b => brPump n dir (brIssue (setBrDir d dir { x with waiting := x.waiting.erase f }) dir b f)
    | _, _ => d

/-- Deal what can be dealt. -/
def brDeal (d : Dev) (dir : Nat) : Dev := brPump (brDir d dir).waiting.length dir d

/-- Give a frame the next ORD of its class. -/
def brQueue (d : Dev) (dir : Nat) (body : BrBody) : Dev :=
  let x := brDir d dir
  let ord := if bodyRsp body then x.ordRsp else x.ordReq
  let x1 := if bodyRsp body then { x with ordRsp := (ord + 1) % 4096 } else { x with ordReq := (ord + 1) % 4096 }
  setBrDir d dir { x1 with waiting := x1.waiting ++ [{ ord := ord, body := body }] }

/-- Send a frame. -/
def brSend (d : Dev) (dir : Nat) (body : BrBody) : Dev := brDeal (brQueue d dir body) dir

/-! ### What a presented frame does (R666, R212, R255, R98) -/

/-- Bytes cut into payloads of 128 B, the last one padded. -/
def payloads : Nat → List Byte → List (List Byte)
  | 0, _ => []
  | n + 1, bs => if bs.isEmpty then [] else padTo 128 0#8 (bs.take 128) :: payloads n (bs.drop 128)

/-- The stage context a request is made for: that of the cluster whose fetch engine asks, numbered in its half (R213); none
for the other requesters. `dir` is the direction the request crosses in. -/
def reqCtx (d : Dev) (dir requester : Nat) : Nat := if requester < 8 then clusterCtx d (8 * dir + requester) else 64

/-- Words of a transfer for request `r` that arrive uncorrectable although their source was read clean: each is counted and
raises 0x8D85 with the requester and the address, and R7 applies (R626). `a` is the address of the first payload word.
DESIGN CHOICE, log 97. -/
def brUe (d : Dev) (dir : Nat) (r : BridgeReq) (a : Nat) (ue : BadWords) : Dev :=
  ue.foldl (fun x w => raiseFault (bump x 0xD826 0 1) 0x8D85 r.requester (a + 4 * w) (reqCtx d dir r.requester)) d

/-- One request record on the half that owns the memory: a read is answered with RDATA frames the other way, a write
waits for its data. `dir` is the direction the request crossed in. -/
def brRequest (d : Dev) (dir : Nat) (r : BridgeReq) : Dev :=
  let x := brDir d dir
  let d1 := setBrDir d dir { x with open_ := x.open_ ++ [(r.tag, r.len)], asked := x.asked ++ [r] }
  if r.write then
    setBrDir d1 dir { brDir d1 dir with writes := (brDir d1 dir).writes ++ [(r.tag, r.addr, r.len)] }
  else
    match unitRead d1 dir (reqCtx d dir r.requester) 0 r.addr r.len with
    | (some bs, d2) => (payloads (bs.length + 1) bs).foldl (fun y p => brSend y (1 - dir) (.rdata r.tag p [])) d2
    | (none, d2) => d2

/-- The request record that an answer or write data with a tag belongs to. -/
def askedFor (x : BrDir) (tag : Nat) : BridgeReq :=
  (x.asked.find? (fun r => r.tag == tag)).getD { addr := 0, len := 0, requester := 15, tag, write := false }

/-- Write data for the first unfinished write request of its tag; the last of it is answered with a WACK. A word that
arrives uncorrectable is reported (R626) and written as such (R625). -/
def brWriteData (d : Dev) (dir tag : Nat) (bs : List Byte) (ue : BadWords) : Dev :=
  let x := brDir d dir
  match x.writes.find? (fun w => w.1 == tag) with
  | none => d
  | some w =>
    let n := min 128 w.2.2
    let us := ue.filter (fun i => decide (4 * i < n))
    let d0 := unitWrite (brUe d dir (askedFor x tag) w.2.1 us) dir (reqCtx d dir (askedFor x tag).requester) 0 w.2.1 (bs.take n)
    let d1 := { d0 with mem := markUe d0.mem (us.map (fun i => (w.2.1 + 4 * i) / 4 * 4)) }
    let rest := x.writes.erase w
    if w.2.2 ≤ n then brSend (setBrDir d1 dir { brDir d1 dir with writes := rest }) (1 - dir) (.wack [tag])
    else setBrDir d1 dir { brDir d1 dir with
      writes := x.writes.map (fun v => if v = w then (tag, w.2.1 + n, w.2.2 - n) else v) }

/-- One record of a SIG frame. -/
def brSignal (d : Dev) : BridgeSig → Dev
  | .signal c n amount ctx => semSignal d c n amount ctx
  | .report e amax flags step => conversionReport d e (BitVec.ofNat 32 amax) flags step
  | .notice _ _ => d

/-- What is still to come for a tag, less `n` bytes; a tag with nothing left is answered. -/
def tagDone (ts : List (Nat × Nat)) (tag n : Nat) : List (Nat × Nat) :=
  match ts.find? (fun e => e.1 == tag) with
  | none => ts
  | some e => if e.2 ≤ n then ts.erase e else ts.map (fun v => if v = e then (tag, e.2 - n) else v)

/-- Request records leave with the last of their answers. -/
def brClose (d : Dev) (dir : Nat) : Dev :=
  let o := brDir d dir
  setBrDir d dir { o with asked := o.asked.filter (fun r => o.open_.any (fun t => t.1 == r.tag)) }

/-- Read data for a tag: its words are delivered; one that arrives uncorrectable, its source clean, is reported (R626,
R670). -/
def brReadData (d : Dev) (dir tag : Nat) (ue : BadWords) : Dev :=
  let o := brDir d (1 - dir)
  let r := askedFor o tag
  let a := r.addr + (r.len - ((o.open_.find? (fun t => t.1 == tag)).map Prod.snd).getD 0)
  let us := ue.filter (fun i => (ueIn d.mem (a + 4 * i) 4).isEmpty)
  brClose (setBrDir (brUe d (1 - dir) r a us) (1 - dir) { o with open_ := tagDone o.open_ tag 128 }) (1 - dir)

/-- Present one frame to the half it was sent to (R667). -/
def brPresent (d : Dev) (dir : Nat) : BrBody → Dev
  | .req rs => (rs.take 8).foldl (fun y r => brRequest y dir r) d
  | .wdata tag bs ue => brWriteData d dir tag bs ue
  | .sig rs => (rs.take 16).foldl brSignal d
  | .rdata tag _ ue => brReadData d dir tag ue
  | .wack tags =>
    let o := brDir d (1 - dir)
    brClose (setBrDir d (1 - dir) { o with open_ := (tags.take 32).foldl (fun ts t => tagDone ts t (2 ^ 32)) o.open_ }) (1 - dir)

/-! ### Receiving (R667, R669 to R671) -/

/-- The next ORD to present in a class. -/
def nextOrd (x : BrDir) (rsp : Bool) : Nat := if rsp then x.nextRsp else x.nextReq

/-- One frame of a class has been presented: its place in the receive queue is free. -/
def presented (x : BrDir) (rsp : Bool) : BrDir :=
  if rsp then { x with nextRsp := (x.nextRsp + 1) % 4096, owedRsp := x.owedRsp + 1 }
  else { x with nextReq := (x.nextReq + 1) % 4096, owedReq := x.owedReq + 1 }

/-- Present held frames of a class in ORD order. -/
def brDeliver : Nat → Nat → Bool → Dev → Dev
  | 0, _, _, d => d
  | n + 1, dir, rsp, d =>
    let x := brDir d dir
    match x.held.find? (fun f => bodyRsp f.body == rsp && f.ord == nextOrd x rsp) with
    | none => d
    | some f =>
      let d1 := setBrDir d dir (presented { x with held := x.held.erase f } rsp)
      brDeliver n dir rsp (brPresent d1 dir f.body)

/-- R671: the frame lies up to 2,048 behind the next one to present, or is held already. DEDUCED, log 25. -/
def isRepeat (x : BrDir) (f : BrFrame) : Bool :=
  let back := (nextOrd x (bodyRsp f.body) + (4096 - f.ord)) % 4096
  (decide (1 ≤ back) && decide (back ≤ 2048)) ||
    x.held.any (fun g => bodyRsp g.body == bodyRsp f.body && g.ord == f.ord)

/-- A frame as its sender holds it: what goes wrong on the wires is not in it. -/
def sentBody : BrBody → BrBody
  | .wdata tag bs _ => .wdata tag bs []
  | .rdata tag bs _ => .rdata tag bs []
  | b => b

/-- A frame the sending half had not yet been seen to send takes its SEQ and its ORD there. DESIGN CHOICE, log 23. -/
def brSent (d : Dev) (dir b seq : Nat) (f : BrFrame) : Dev :=
  let x := brDir d dir
  let u := bundleAt x b
  if u.nextSeq = seq ∧ u.replay.length < replayDepth ∧ 0 < brCredit x f then
    let x1 := if bodyRsp f.body then { x with ordRsp := (f.ord + 1) % 4096 } else { x with ordReq := (f.ord + 1) % 4096 }
    brIssue (setBrDir d dir x1) dir b f
  else d

/-- A sequenced frame arrives on a bundle; `ok` says that its parity holds and its KIND is not reserved.
DESIGN CHOICE, log 23. DEDUCED, log 25. -/
def brArrive (d : Dev) (dir b seq ord : Nat) (body : BrBody) (ok : Bool) : Dev :=
  if !(decide (dir < 2) && bundleUp (brDir d dir) b) then d
  else
    let f : BrFrame := { ord := ord % 4096, body }
    let d1 := brSent d dir b (seq % 256) { f with body := sentBody body }
    let x := brDir d1 dir
    let u := bundleAt x b
    let ahead := (seq + (256 - u.expected)) % 256
    if !ok ∨ ahead ≠ 0 then
      bump (setBrDir d1 dir (putBundle x b { u with nak := u.nak || !ok || decide (ahead < 128) })) 0x8121 (dir + 1) 1
    else
      let x1 := putBundle x b { u with expected := (u.expected + 1) % 256, nak := false }
      if isRepeat x1 f then bump (setBrDir d1 dir x1) 0x8124 (dir + 1) 1
      else brDeliver (x1.held.length + 1) dir (bodyRsp body) (setBrDir d1 dir { x1 with held := x1.held ++ [f] })

/-! ### Retrain and disable (R672, R675, R676) -/

/-- R672: a bundle's unacknowledged frames are dealt again, ahead of frames not yet sent, with their ORD.
DEDUCED, log 25. -/
def brRedeal (d : Dev) (dir b : Nat) : Dev :=
  let x := brDir d dir
  let u := bundleAt x b
  let fs := u.replay.map Prod.snd
  let x1 := fs.foldl backCredit (putBundle x b { u with replay := [], replays := 0, replayAt := 256 })
  brDeal (setBrDir d dir { x1 with waiting := fs ++ x1.waiting }) dir

/-- Number of a bundle in an event: eastbound 0 to 23, westbound 24 to 47. DESIGN CHOICE, log 11. -/
def bundleNo (dir b : Nat) : Nat := 24 * dir + b

/-- R669: a bundle begins a retrain. DEDUCED, log 25. -/
def brRetrain (d : Dev) (dir b : Nat) : Dev :=
  let x := brDir d dir
  let u := bundleAt x b
  let d1 := setBrDir d dir (putBundle x b { u with state := 3, retrains := min (u.retrains + 1) (2 ^ 32 - 1) })
  brRedeal (raise (bump d1 0x8123 (dir + 1) 1) 0x4841 (bundleNo dir b) 0) dir b

/-- Every stage context stops (R296). -/
def stopAll (d : Dev) (code : Nat) : Dev := (enabledCtxs d).foldl (fun x c => unitFault x c code) d

/-- R676: what a direction that has lost a bundle raises; with no bundle left the fabric probe finds the device wedged,
with what the management controller has read of the units. DEDUCED, log 25. DEDUCED, log 26. -/
def brThin (d : Dev) (dir seqIdle feHeld : Nat) : Dev :=
  let x := brDir d dir
  let n := bundlesLeft x
  if n = 0 then wedge (stopAll (raise d 0xC848 dir 0) 0xC848) 2 seqIdle feHeld
  else if n < cfg d 0x8101 0 && !x.low then raise (setBrDir d dir { x with low := true }) 0x8843 dir n
  else d

/-- The failed set with new wires, rising. -/
def addWires (f ws : List Nat) : List Nat := (List.range 34).filter (fun k => f.contains k || ws.contains k)

/-- R675: the retrain of a bundle ends. DEDUCED, log 74. -/
def bundleRetrainDone (d : Dev) (dir b : Nat) (fails : List Nat) (ctl : Bool) (seqIdle feHeld : Nat) : Dev :=
  let x := brDir d dir
  let u := bundleAt x b
  if !(decide (dir < 2 ∧ b < 24) && u.state == 3) then d
  else
    let f := addWires u.failed fails
    let bad := ctl || decide (2 < f.length)
    let u1 : Bundle := { u with
      failed := f, ctlFail := ctl, state := if bad then 0 else 2, nextSeq := 0, replay := [], replays := 0, replayAt := 256
      expected := 0, nak := false }
    let d1 := setBrDir d dir (putBundle x b u1)
    if bad then brThin (raise d1 0x8842 (bundleNo dir b) 0) dir seqIdle feHeld else brDeal d1 dir

/-! ### Acknowledgement (R668, R669) -/

/-- The replay entries left when everything up to `seq` is accepted. -/
def ackedTo (r : List (Nat × BrFrame)) (seq : Nat) : List (Nat × BrFrame) :=
  if r.any (fun e => e.1 == seq) then (r.dropWhile (fun e => e.1 != seq)).drop 1 else r

/-- R669: a NAK sends a bundle's frames again, or begins its retrain. -/
def brReplay (d : Dev) (dir b : Nat) : Dev :=
  let x := brDir d dir
  let u := bundleAt x b
  match u.replay with
  | [] => d
  | (s, _) :: _ =>
    let n := if u.replayAt = s then u.replays + 1 else 1
    let d1 := setBrDir d dir (putBundle x b { u with replays := n, replayAt := s })
    let d2 := bump (u.replay.foldl (fun y e => brOut y dir b e.1 e.2) d1) 0x8122 (dir + 1) 1
    if cfg d 0x8102 0 ≤ n then brRetrain d2 dir b else d2

/-- One word of an ACK frame for bundle `b` of the direction it acknowledges: highest SEQ accepted, NAK. -/
def brAckWord (d : Dev) (dir b : Nat) (w : Nat × Bool) : Dev :=
  let x := brDir d dir
  if !bundleUp x b then d
  else
    let u := bundleAt x b
    let d1 := setBrDir d dir (putBundle x b { u with replay := ackedTo u.replay w.1 })
    if w.2 then brReplay d1 dir b else d1

/-- Words by bundle. -/
def brAckWords (dir : Nat) : Nat → List (Nat × Bool) → Dev → Dev
  | _, [], d => d
  | b, w :: ws, d => brAckWords dir (b + 1) ws (brAckWord d dir b w)

/-- R668: an ACK frame arrives in direction `dir`, for the frames of the other one, with the credits it returns. -/
def bridgeAck (d : Dev) (dir b : Nat) (words : List (Nat × Bool)) (credReq credRsp : Nat) (ok : Bool) : Dev :=
  if !(decide (dir < 2) && bundleUp (brDir d dir) b) then d
  else if !ok then bump d 0x8121 (dir + 1) 1
  else
    let o := 1 - dir
    let x := brDir d o
    let d1 := setBrDir d o { x with
      credReq := min (x.credReq + credReq) brQueueDepth, credRsp := min (x.credRsp + credRsp) brQueueDepth }
    brDeal (brAckWords o 0 (words.take 24) d1) o

/-- Some frame of a direction is unacknowledged, or something waits for an ACK frame to carry it. -/
def ackWanted (x : BrDir) : Bool :=
  (List.range 24).any (fun b => let u := bundleAt x b; !u.replay.isEmpty || u.nak) || decide (0 < x.owedReq + x.owedRsp)

/-- The words of an ACK frame: highest SEQ accepted in order and NAK per bundle, then the two credit words. -/
def ackFrame (x : BrDir) : List Nat :=
  ((List.range 24).map (fun b => let u := bundleAt x b; (u.expected + 255) % 256 + 256 * b2n u.nak)) ++
    [min x.owedReq 65535, min x.owedRsp 65535]

/-- R668: an ACK frame leaves in direction `dir` for the frames of the other one. -/
def bridgeAckTimer (d : Dev) (dir : Nat) : Dev :=
  let o := 1 - dir
  let x := brDir d o
  match bundlesActive (brDir d dir) with
  | [] => d
  | b :: _ =>
    if decide (dir < 2) && ackWanted x then
      setBrDir (send d (.bridge dir 6 (b :: ackFrame x))) o
        { x with owedReq := x.owedReq - min x.owedReq 65535, owedRsp := x.owedRsp - min x.owedRsp 65535
                 bundles := x.bundles.map (fun e => (e.1, { e.2 with nak := false })) }
    else d

/-! ### Start-up training (R674, R676) and status (R682) -/

/-- The wires of a bundle's assembly map (R673). -/
def assemblyWires (d : Dev) (dir b : Nat) : List Nat := setBits 34 (cfg d (0x8112 + dir) (b + 1))

/-- R674: one bundle after the test of a start: the wires that failed it, and whether a clock, valid or parity wire
failed. -/
def trainBundle (d : Dev) (dir b : Nat) (fails : List Nat) (ctl : Bool) : Dev :=
  let f := addWires (assemblyWires d dir b) fails
  let bad := ctl || decide (2 < f.length)
  let d1 := setBrDir d dir (putBundle (brDir d dir) b { bundleReset with
    failed := f, ctlFail := ctl, state := if bad then 0 else 2 })
  let new := f.filter (fun k => !(assemblyWires d dir b).contains k)
  let d2 := if new.isEmpty then d1 else raise d1 0x4840 (bundleNo dir b) (sumN (new.map (fun k => 2 ^ k)))
  if bad then raise d2 0x8842 (bundleNo dir b) 0 else d2

/-- R674: every bundle of both directions is tested; `fs` lists the failures found, by (direction, bundle, wires, clock,
valid or parity wire). -/
def trainBridge (d : Dev) (fs : List (Nat × Nat × List Nat × Bool)) : Dev :=
  (List.range 48).foldl (fun x i =>
    match fs.find? (fun e => e.1 == i / 24 && e.2.1 == i % 24) with
    | some e => trainBundle x (i / 24) (i % 24) e.2.2.1 e.2.2.2
    | none => trainBundle x (i / 24) (i % 24) [] false) { d with east := brDirReset, west := brDirReset }

/-- `BrEastStatus` and `BrWestStatus` (R682). -/
def bundleStatus (d : Dev) (dir b : Nat) : Nat :=
  let u := bundleAt (brDir d dir) b
  let a := (u.failed[0]?).getD 0x3F
  let c := (u.failed[1]?).getD 0x3F
  u.state * 2 ^ 61 + min u.failed.length 3 * 2 ^ 59 + a * 2 ^ 53 + c * 2 ^ 47 + b2n u.ctlFail * 2 ^ 46 + u.retrains

end Sys2Proof.Machine
end

