-- ==== Sys2Proof/Machine/Security.lean ====
section
/-! DEFINITION. The security block: boot, keys, rollback floor, image updates, attestation, debug (chapter 24). -/

namespace Sys2Proof.Machine

/-- Replace the block's state. -/
def setSec (d : Dev) (x : Sec) : Dev := { d with sec := x }

/-! ### Images (R643, R644) -/

/-- The programmed bytes of an image region. DESIGN CHOICE, log 64. -/
def imgOf (d : Dev) (i : Nat) : Tab Byte := if i = 0 then d.sec.img0 else d.sec.img1

/-- Replace an image region. -/
def setImg (d : Dev) (i : Nat) (t : Tab Byte) : Dev :=
  setSec d (if i = 0 then { d.sec with img0 := t } else { d.sec with img1 := t })

/-- `n` bytes of an image region from an offset; an erased byte reads 0xFF. DEDUCED, log 65. -/
def imgBytes (d : Dev) (i off n : Nat) : List Byte := (List.range n).map (fun k => tget 0xFF#8 (imgOf d i) (off + k))

/-- The first 256 B of a header, as the layout numbers its bits. DEDUCED, log 65. -/
def imgHead (d : Dev) (i : Nat) : Nat := leVal (imgBytes d i 0 256)

def ihLen (h : Nat) : Nat := fld h 1919 1888
def ihKey (h : Nat) : Nat := fld h 2007 2000
def ihFwver (h : Nat) : Nat := fld h 1983 1952
def ihSvn (h : Nat) : Nat := fld h 1951 1920

/-- Check 1 of R645. -/
def headOk (h : Nat) : Bool :=
  fld h 2047 2016 == 0x4858494D && fld h 2015 2008 == 1 && fld h 1999 1984 == 0 && fld h 1055 512 == 0 &&
    ihLen h % 4096 == 0 && decide (4096 ≤ ihLen h) && decide (ihLen h ≤ 67104768) &&
    decide (fld h 1887 1856 + fld h 1855 1824 ≤ ihLen h)

/-- R645: the cause of an image's failure, 0 when every check passes; `ue` says that a word read was uncorrectable.
DEDUCED, log 65. -/
def imageCause (d : Dev) (i : Nat) (ue : Bool) : Nat :=
  let h := imgHead d i
  let k := ihKey h
  if !headOk h then 1
  else if decide (3 < k) || Config.sha256 (leBytes 64 (fld h 1567 1056)) != cfg d 0xD001 (k + 1) then 2
  else if bitAt (cfg d 0xD002 0) k then 3
  else if !Config.ecdsaOk (fld h 1567 1056) (leBytes 192 (fld h 2047 512)) (fld h 511 0) then 4
  else if ihSvn h < cfg d 0xD020 0 then 5
  else if Config.sha256 (imgBytes d i 4096 (ihLen h)) != fld h 1823 1568 then 6
  else if ue then 7
  else 0

/-! ### Boot (R645 to R648) -/

/-- PREFER of the valid boot record copy with the higher SEQ, image A when neither is valid. -/
def bootPreferred (d : Dev) : Nat :=
  match d.sec.rec0, d.sec.rec1 with
  | some a, some b => if a.1 < b.1 then b.2 else a.2
  | some a, none => a.2
  | none, some b => b.2
  | none, none => 0

/-- `SecBootStatus` (R657). -/
def bootWord (recovery : Bool) (image : Nat) (fallback : Bool) (c0 c1 us : Nat) : Nat :=
  b2n recovery * 2 ^ 30 + image * 2 ^ 29 + b2n fallback * 2 ^ 28 + c0 * 2 ^ 24 + c1 * 2 ^ 20 + us / 1000 % 2 ^ 20

/-- An image starts: what it says of itself, and the keys derived from it (R644, R648, R653). -/
def imageStart (d : Dev) (i : Nat) : Dev :=
  let h := imgHead d i
  let m := Config.sha256 (imgBytes d i 0 256)
  let d1 := setSec d { d.sec with svn := ihSvn h, keyIdx := ihKey h, meas := m }
  let d2 := setObj (setObj d1 0x1006 0 (ihFwver h)) 0x1007 0 i
  let d3 := setObj d2 0x1008 0 (Config.sha256 (imgBytes d i (4096 + fld h 1887 1856) (fld h 1855 1824)))
  setObj (setObj d3 0xD032 0 (Config.aliasPub m)) 0xD033 0 (Config.aliasCert m)

/-- R645 to R647: the boot ROM takes the preferred image, else the other one, else recovery mode. -/
def bootSelect (d : Dev) (bad : List Nat) (us : Nat) : Bool × Dev :=
  let p := bootPreferred d % 2
  let c0 := imageCause d p (bad.contains p)
  let c1 := imageCause d (1 - p) (bad.contains (1 - p))
  if c0 = 0 then (true, setObj (imageStart d p) 0xD010 0 (bootWord false p false 0 0 us))
  else if c1 = 0 then
    (true, raise (setObj (imageStart d (1 - p)) 0xD010 0 (bootWord false (1 - p) true c0 c1 us)) 0x4D01 c0 c1)
  else (false, raise (setObj d 0xD010 0 (bootWord true p false c0 c1 us)) 0xCD02 c0 c1)

/-- The device is in recovery mode (R647). -/
def inRecovery (d : Dev) : Bool := bitAt (cfg d 0xD010 0) 30

/-! ### Keys and the rollback floor (R649, R650) -/

/-- R649: a write to SecRevokeKey. DESIGN CHOICE, log 22. -/
def revokeKey (d : Dev) (slot : Nat) : Dev :=
  let r := cfg d 0xD002 0 % 16
  let r1 := setBit r slot true
  if 4 ≤ slot then send d (.status 0xD003 0 5)
  else if (!inRecovery d && d.sec.keyIdx == slot) || r1 == 15 then send d (.status 0xD003 0 6)
  else send (raise (setObj d 0xD002 0 r1) 0x0D08 slot 0) (.status 0xD003 0 0)

/-- R650: a write to SecRollbackCommit; `good` fuses program before one fails. DESIGN CHOICE, log 22. -/
def rollbackCommit (d : Dev) (v good : Nat) : Dev :=
  let f := cfg d 0xD020 0
  if 64 < v then send d (.status 0xD021 0 5)
  else if d.sec.svn < v then send d (.status 0xD021 0 6)
  else if v ≤ f then send d (.status 0xD021 0 0)
  else if v - f ≤ good then send (raise (setObj d 0xD020 0 v) 0x0D03 v 0) (.status 0xD021 0 0)
  else send (raise (setObj d 0xD020 0 (f + good)) 0x8D04 (f + good) v) (.status 0xD021 0 6)

/-! ### Updating images (R651) -/

/-- The region an operation holds: image 0 or 1, or 2 the boot record. -/
def opRegion : FlashOp → Nat
  | .erase i => i
  | .program i _ _ => i
  | .verify i => i
  | .prefer _ => 2

/-- The object an operation was written to. -/
def opIdx : FlashOp → Nat
  | .erase _ => 0xD013
  | .program _ _ _ => 0xD014
  | .verify _ => 0xD015
  | .prefer _ => 0xD017

/-- The running image's region is refused, except in recovery mode. -/
def regionRunning (d : Dev) (r : Nat) : Bool := !inRecovery d && r == cfg d 0x1007 0

/-- Take an operation: refused on the running image's region and on a region another holds; else it is pending.
DESIGN CHOICE, log 64. -/
def flashTake (d : Dev) (o : FlashOp) : Dev :=
  if regionRunning d (opRegion o) || d.sec.ops.any (fun p => opRegion p == opRegion o) then send d (.status (opIdx o) 0 6)
  else send (setSec d { d.sec with ops := d.sec.ops ++ [o] }) (.status (opIdx o) 0 1)

/-- R651: a write to SecFlashErase. -/
def flashErase (d : Dev) (i : Nat) : Dev := if 2 ≤ i then send d (.status 0xD013 0 5) else flashTake d (.erase i)

/-- Bytes of an image region (R643). -/
def imageBytes : Nat := 0x4000000

/-- R651: a write to SecFlashWrite: image, reserved bytes, offset, then 8 to 4,088 B of data. -/
def flashWrite (d : Dev) (bs : List Byte) : Dev :=
  let i := ((bs.take 1).map BitVec.toNat).headD 0
  let off := leVal ((bs.drop 4).take 4)
  let data := bs.drop 8
  if data.length < 8 ∨ 4088 < data.length ∨ data.length % 8 ≠ 0 then send d (.status 0xD014 0 4)
  else if 2 ≤ i ∨ leVal ((bs.drop 1).take 3) ≠ 0 ∨ imageBytes < off + data.length then send d (.status 0xD014 0 5)
  else if addrBytes off data |>.any (fun e => (tfind (imgOf d i) e.1).isSome) then send d (.status 0xD014 0 6)
  else flashTake d (.program i off data)

/-- R651: a write to SecImageVerify. -/
def imageVerify (d : Dev) (i : Nat) : Dev := if 2 ≤ i then send d (.status 0xD015 0 5) else flashTake d (.verify i)

/-- R651: a write to SecBootPrefer. -/
def bootPrefer (d : Dev) (i : Nat) : Dev := if 2 ≤ i then send d (.status 0xD017 0 5) else flashTake d (.prefer i)

/-- Write the older boot record copy with PREFER and SEQ + 1. -/
def writeRecord (d : Dev) (i : Nat) : Dev :=
  let s0 := (d.sec.rec0.map Prod.fst).getD 0
  let s1 := (d.sec.rec1.map Prod.fst).getD 0
  let n := (max s0 s1 + 1) % 2 ^ 32
  let older0 := d.sec.rec0.isNone || (d.sec.rec1.isSome && decide (s0 < s1))
  setSec d (if older0 then { d.sec with rec0 := some (n, i) } else { d.sec with rec1 := some (n, i) })

/-- An operation's effect when the flash does it. DESIGN CHOICE, log 64. -/
def flashEffect (d : Dev) (ok : Bool) : FlashOp → Bool × Dev
  | .erase i => (ok, if ok then setImg d i [] else d)
  | .program i off data =>
    (ok, if ok then setImg d i ((addrBytes off data).foldl (fun t e => tset t e.1 e.2) (imgOf d i)) else d)
  | .verify i =>
    let c := imageCause d i (!ok)
    let h := imgHead d i
    let d1 := setObj d 0xD016 (i + 1) (ihFwver h * 2 ^ 32 + ihSvn h % 256 * 2 ^ 24 + c * 2 ^ 20)
    (c == 0, raise d1 (if c = 0 then 0x0D05 else 0x4D06) i c)
  | .prefer i => (ok, if ok then writeRecord d i else d)

/-- R651: the operation in progress on a region (2 the boot record) ends; `ok` says that the flash did it, or that
every word of a verified image was readable. -/
def flashOperationDone (d : Dev) (region : Nat) (ok : Bool) : Dev :=
  match d.sec.ops.find? (fun o => opRegion o == region) with
  | none => d
  | some o =>
    let r := flashEffect (setSec d { d.sec with ops := d.sec.ops.filter (fun p => opRegion p != region) }) ok o
    send r.2 (.done (opIdx o) region (if r.1 then 0 else 6))

/-! ### Attestation and debug (R654, R655) -/

/-- The report above its signature. -/
def reportHead (d : Dev) (nonce : Nat) : Nat :=
  let dbg := cfg d 0xD050 0
  0x48534154 * 2 ^ 2016 + 1 * 2 ^ 2008 + cfg d 0x1004 0 * 2 ^ 2000 + cfg d 0x1007 0 * 2 ^ 1992 +
    (b2n (bitAt (cfg d 0xD010 0) 28) * 2 ^ 7 + dbg % 2 * 2 ^ 6) * 2 ^ 1984 + cfg d 0x1006 0 * 2 ^ 1952 + d.sec.svn * 2 ^ 1920 +
    cfg d 0xD020 0 * 2 ^ 1888 + d.gn.current * 2 ^ 1856 + recsDigest (genValues d) * 2 ^ 1792 + d.ptp * 2 ^ 1728 +
    nonce % 2 ^ 256 * 2 ^ 1472 + d.sec.meas % 2 ^ 256 * 2 ^ 1216 + cfg d 0x1008 0 * 2 ^ 960 +
    Config.sha256 (leBytes 64 (cfg d 0xD030 0)) % 2 ^ 256 * 2 ^ 704

/-- R654: a write to SecAttestNonce forms and signs a report; with debug unlocked its SIG is 0. A second write of the same
instant finds it being formed. DESIGN CHOICE, log 22. -/
def attestNonce (d : Dev) (nonce : Nat) : Dev :=
  if d.sec.signedAt = some d.uptime then send d (.status 0xD040 0 6)
  else
    let h := reportHead d nonce
    let sig := if cfg d 0xD050 0 = 1 then 0 else Config.aliasSign d.sec.meas (leBytes 192 (h / 2 ^ 512)) % 2 ^ 512
    send (setObj (setSec d { d.sec with signedAt := some d.uptime }) 0xD041 0 (h + sig)) (.status 0xD040 0 0)

/-- R655: an answer to the debug challenge through JTAG; `ok` says that its signature verifies under root key `slot`.
DESIGN CHOICE, log 22. -/
def debugUnlock (d : Dev) (slot : Nat) (ok : Bool) : Dev :=
  if ok && decide (slot < 4) && !bitAt (cfg d 0xD002 0) slot then raise (setObj d 0xD050 0 1) 0x4D07 slot 0 else d

end Sys2Proof.Machine
end

