-- ==== Sys2Proof/Machine/Power.lean ====
section
/-! DEFINITION. Power, clocks, reset, start-up and JTAG (chapters 26 and 27). -/

namespace Sys2Proof.Machine

/-- Replace the power state. -/
def setPw (d : Dev) (x : Pw) : Dev := { d with pw := x }

/-! ### What stops (R686, R687, R691, R692, R698) -/

/-- The device is held in reset: power-fail, or RESET_N low. Nothing acts.
DESIGN CHOICE, log 9. DESIGN CHOICE, log 71. -/
def held (d : Dev) : Bool := d.pw.failed || d.pw.resetLow

/-- Every clock but the management clock has stopped, or the device is held. DESIGN CHOICE, log 71. -/
def unitsStopped (d : Dev) : Bool := held d || d.pw.tripped

/-- The arithmetic clocks have stopped and the clusters are gated: thermal hold, or as above. -/
def clustersStopped (d : Dev) : Bool := unitsStopped d || cfg d 0xE000 0 == 4

/-- A command of the management controller or the security block. -/
def onMgmt (d : Dev) (f : Dev → Dev) : Dev := if held d then d else f d

/-- A command of any other unit. -/
def onUnit (d : Dev) (f : Dev → Dev) : Dev := if unitsStopped d then d else f d

/-- A command of a cluster's units. -/
def onCluster (d : Dev) (f : Dev → Dev) : Dev := if clustersStopped d then d else f d

/-- `PwState` as it reads (R688). -/
def pwState (d : Dev) : Nat :=
  let s := cfg d 0xE000 0
  if s = 2 ∧ d.seq.job ≠ .idle then 3 else s

/-! ### Reset (R698, R699) -/

/-- Objects a reset keeps: what is fused or marked on the device, and what the assembly test found.
DESIGN CHOICE, log 6. DESIGN CHOICE, log 30. -/
def keptIdx (i : Nat) : Bool :=
  [0x1002, 0x1003, 0x1005, 0xB001, 0xD001, 0xD002, 0xD020, 0xD030, 0xD031, 0x8112, 0x8113].contains i

/-- A device with everything at its reset value, nothing fused, the boot flash blank and the drive empty. -/
def freshDev : Dev :=
  { objs := [], keyed := [], uptime := 0, ptp := 0, ev := evReset, out := [], freeCtr := 0, tus := [], shadows := []
    sup := supReset, tiles := [], vcs := [], mem := memReset, fes := [], sems := [], grants := [], seq := seqReset
    hp := hpReset, rl := rlReset, sq := sqReset, wv := wvReset, up := upReset, ce := ceReset, ex := exReset, fill := none
    gn := gnReset, sy := syReset, hm := hmReset, sn := snReset, rc := rcReset, cv := cvReset, sec := secReset
    east := brDirReset, west := brDirReset, pw := pwReset }

/-- The boot flash slots after a reset: the slot of an interrupted store is not valid (R567).
DESIGN CHOICE, log 30. -/
def slotsKept (d : Dev) : Gn :=
  let d1 := match d.gn.storing with
    | some s => setSlot d (storeSlot d) { valid := false, header := true, gen := s.gen, vals := s.vals }
    | none => d
  { gnReset with slot0 := d1.gn.slot0, slot1 := d1.gn.slot1 }

/-- The values of a device released into start-up step 1: both references active (R696, R701). -/
def startObjs (d : Dev) (cause : Nat) : Dev :=
  let c := Config.challenge d.freeCtr % 2 ^ 256
  let d1 := setObj { d with freeCtr := d.freeCtr + 1 } 0xD051 0 c
  setObj (setObj (setObj (setObj d1 0xE000 0 1) 0xE001 0 1) 0xE003 0 cause) 0xE030 0 0xC0000000

/-- R699: every reset loses all state but fuses, the boot flash and the drive; the device is released into step 1. The
model keeps beside them what it has sent, its free-value counter, the pins and, but for a power-on, the JTAG port.
DESIGN CHOICE, log 29. DESIGN CHOICE, log 30. -/
def deviceReset (d : Dev) (cause : Nat) : Dev :=
  let jtag := decide (cause ≠ 1 ∧ cause ≠ 5)
  startObjs { freshDev with
    objs := d.objs.filter (fun e => keptIdx (e.1 / 256))
    out := d.out
    freeCtr := d.freeCtr
    gn := slotsKept d
    sn := { snReset with slot0 := d.sn.slot0, slot1 := d.sn.slot1, newest := d.sn.newest }
    sec := { secReset with img0 := d.sec.img0, img1 := d.sec.img1, rec0 := d.sec.rec0, rec1 := d.sec.rec1 }
    pw := { pwReset with
      resetLow := d.pw.resetLow
      ir := if jtag then d.pw.ir else .idcode
      bypass := if jtag then d.pw.bypass else 0
      cells := if jtag then d.pw.cells else 0
      lands := if jtag then d.pw.lands else 0 } } cause

/-- R698: a power-on reset with cause 1. -/
def powerOnReset (d : Dev) : Dev := deviceReset d 1

/-- R712: RESET_N low for 1 µs or more resets the device and holds it; a tripped or failed one stays as it is.
DESIGN CHOICE, log 29. -/
def pinReset (d : Dev) : Dev :=
  let d1 := setPw d { d.pw with resetLow := true }
  if d.pw.failed || d.pw.tripped then d1 else deviceReset d1 2

/-- R698, R717: RESET_N rises: the device is released into start-up step 1, and the lands return to functional control.
DESIGN CHOICE, log 29. -/
def resetNRelease (d : Dev) : Dev := setPw d { d.pw with resetLow := false }

/-- R700: a write to PwResetCommand. -/
def resetCommand (d : Dev) (v : Nat) : Dev :=
  if v ≠ 1 then send d (.status 0xE004 0 5) else send (setPw d { d.pw with resetDue := true }) (.status 0xE004 0 0)

/-- R700: the reset of a reset command takes effect. -/
def resetTakeEffect (d : Dev) : Dev := if d.pw.resetDue && !d.pw.tripped then deviceReset d 3 else d

/-- R698: the watchdog is not serviced in time; PwWatchdogMs of 0 disables it. -/
def watchdogExpiry (d : Dev) : Dev := if cfg d 0xE032 0 ≠ 0 ∧ d.pw.tripped = false then deviceReset d 4 else d

/-! ### Input power (R685 to R687) -/

/-- A number of thousandths or millionths as FP32. -/
def f32Ratio (n q : Nat) : Nat := (toF32 (fxDiv (fxNat n) (fxNat q))).toNat

/-- Average input power in µW over the samples of the last ms. -/
def avgPower (d : Dev) : Nat := if d.pw.samples.isEmpty then 0 else sumN d.pw.samples / d.pw.samples.length

/-- The input is outside 40 V to 50 V, and not outside 38 V to 52 V. -/
def outOfBand (mv : Nat) : Bool := (decide (38000 ≤ mv) && decide (mv < 40000)) || (decide (50000 < mv) && decide (mv ≤ 52000))

/-- R685: the input monitor samples voltage (mV) and current (mA). -/
def inputSample (d : Dev) (mv ma : Nat) : Dev :=
  let band := if outOfBand mv then d.pw.bandUs + 1 else 0
  let d1 := setPw d { d.pw with samples := (mv * ma :: d.pw.samples).take 1000, bandUs := band }
  let d2 := setObj (setObj d1 0xE010 0 (f32Ratio mv 1000)) 0xE011 0 (f32Ratio ma 1000)
  let d3 := setObj d2 0xE012 0 (f32Ratio (avgPower d1) 1000000)
  if 100 ≤ band then raiseStep d3 0x4E08 0 mv else d3

/-- R686: a power-fail: every unit stops, and THERMTRIP_N is no longer driven (R713). DESIGN CHOICE, log 29. -/
def powerFail (d : Dev) : Dev :=
  let d1 := setPw d { d.pw with failed := true, tripped := false }
  if d.pw.tripped then send d1 (.pin 1 1) else d1

/-- R686: the input has been at or above 39.0 V for 10 ms after a power-fail. -/
def powerRestore (d : Dev) : Dev := if d.pw.failed then deviceReset d 5 else d

/-- R687, R692: the trip: THERMTRIP_N asserts (pin 1 at 0), every clock but the management clock stops. -/
def trip (d : Dev) (cause : Nat) : Dev :=
  if d.pw.tripped || d.pw.failed then d
  else
    let d1 := send (setPw d { d.pw with tripped := true }) (.pin 1 0)
    raise (setObj (setObj d1 0xE024 0 cause) 0xE000 0 5) 0xCE07 cause 0

/-- R692: a sensor reaches PwThermTripC. -/
def thermalTrip (d : Dev) : Dev := trip d 1

/-- R687: the input is above 52.0 V for 5 µs. -/
def overvoltageTrip (d : Dev) : Dev := trip d 2

/-! ### Power and thermal duty (R689 to R691) -/

/-- The duty that governs. -/
def governing (x : Pw) : Nat := min x.duty x.thermDuty

/-- Put the governing duty in PwDuty. -/
def setDuty (d : Dev) (x : Pw) : Dev := setObj (setPw d x) 0xE014 0 (governing x)

/-- The 1 ms average is above the cap, or below 95 % of it. -/
def aboveCap (d : Dev) : Bool := decide (cfg d 0xE013 0 * 1000000 < avgPower d)
def belowCap (d : Dev) : Bool := decide (avgPower d < cfg d 0xE013 0 * 950000)

/-- R689: the power duty, every 100 µs. DESIGN CHOICE, log 27. -/
def dutyAdjust (d : Dev) : Dev :=
  let d0 := if governing d.pw < 16 then bump d 0xE015 0 100 else d
  let x := d0.pw
  if aboveCap d then
    let low := decide (x.duty ≤ 4)
    let n := if low then x.floorTicks + 1 else 0
    let d1 := setDuty d0 { x with duty := max 4 (x.duty - 1), floorTicks := n }
    let d2 := if low then d1 else raiseStep d1 0x4E04 0 (x.duty - 1)
    if 100 ≤ n then raiseStep d2 0x4E0A 0 4 else d2
  else
    setDuty d0 { x with duty := if belowCap d then min 16 (x.duty + 1) else x.duty, floorTicks := 0 }

/-- A temperature is at or above a number of °C, or at least 5 °C below it. -/
def atLeastC (t : F32) (c : Nat) : Bool := !fxLt (ofF32 t) (fxNat c)
def wellBelow (t : F32) (c : Nat) : Bool := !fxLt (fxNat (c - 5)) (ofF32 t)

/-- R691: thermal hold: HALT, the clusters gated. -/
def thermalHold (d : Dev) : Dev :=
  if cfg d 0xE000 0 = 4 then d else raise (setObj (haltAll d) 0xE000 0 4) 0x8E06 0 0

/-- Put a list of values into the rows of a table object from row `r` on. -/
def setRows (d : Dev) (idx : Nat) : Nat → List Nat → Dev
  | _, [] => d
  | r, v :: vs => setRows (setObj d idx r v) idx (r + 1) vs

/-- R573 input 10: a 1 ms interval in which some sensor was at or above HmThermWarnC. DESIGN CHOICE, log 27. -/
def hotInterval (d : Dev) (ts : List F32) : Dev :=
  let hot := d.pw.hotSeen || ts.any (fun t => atLeastC t (cfg d 0xC00A 0))
  if d.pw.msTick < 99 then setPw d { d.pw with msTick := d.pw.msTick + 1, hotSeen := hot }
  else
    let d1 := setPw d { d.pw with msTick := 0, hotSeen := false }
    if hot then { d1 with hm := { d1.hm with hot := d1.hm.hot + 1 } } else d1

/-- R690: the thermal duty moves by one sixteenth at most once per 100 µs, that is per ten samples.
DESIGN CHOICE, log 27. -/
def thermalDuty (d : Dev) (ts : List F32) : Dev :=
  let x := d.pw
  let c := cfg d 0xE021 0
  let hot := ts.any (fun t => atLeastC t c)
  let cool := ts.all (fun t => wellBelow t c)
  if x.thermTick < 9 then setPw d { x with thermTick := x.thermTick + 1 }
  else if hot && decide (4 < x.thermDuty) then
    raiseStep (setDuty d { x with thermDuty := x.thermDuty - 1, thermTick := 0 }) 0x4E05 0 (x.thermDuty - 1)
  else if cool && decide (x.thermDuty < 16) then setDuty d { x with thermDuty := x.thermDuty + 1, thermTick := 0 }
  else d

/-- R690, R691: the 18 die sensors are read, every 10 µs. DESIGN CHOICE, log 27. -/
def sensorSample (d : Dev) (temps : List F32) : Dev :=
  let ts := temps.take 18
  let d1 := setRows d 0xE020 1 (ts.map BitVec.toNat)
  let m0 := match tfind d.objs (okey 0xE025 0) with
    | some v => BitVec.ofNat 32 v
    | none => ts.headD f32Zero
  let m := ts.foldl f32AmaxFold m0
  let d2 := thermalDuty (hotInterval (setObj d1 0xE025 0 m.toNat) ts) ts
  if ts.any (fun t => atLeastC t (cfg d 0xE022 0)) && !d.pw.tripped then thermalHold d2 else d2

/-! ### Clocks (R696) -/

/-- Clear a bit of PwClockStatus. DEDUCED, log 74. -/
def clockOff (d : Dev) (i : Nat) : Dev := setObj d 0xE030 0 (setBit (cfg d 0xE030 0) i false)

/-- The arithmetic, fabric and die-to-die clocks are gone: every context stops and the device is wedged.
DEDUCED, log 26. -/
def fabricLost (d : Dev) (seqIdle feHeld : Nat) : Dev := wedge (stopAll d 0xCE03) 2 seqIdle feHeld

/-- A site's PLL has lost lock. -/
def siteLost (d : Dev) (s : Nat) : Dev :=
  { d with mem := { d.mem with badSites := if d.mem.badSites.contains s then d.mem.badSites else s :: d.mem.badSites } }

/-- SerDes PLLs lose lock. -/
def serdesLost (d : Dev) (is : List Nat) : Dev := setPw d { d.pw with lostPlls := d.pw.lostPlls ++ is }

/-- The quads' PLLs and the host lane pairs', as PLL_UNLOCK numbers them. -/
def serdesPlls : List Nat := (List.range 20).map (· + 22)

/-- R696: a reference is lost: 0 REFCLK_A, 1 REFCLK_B. What the management controller reads of the units for a wedge
report is `seqIdle` and `feHeld`. -/
def refclkLoss (d : Dev) (which seqIdle feHeld : Nat) : Dev :=
  if which = 0 then
    let d1 := ([31, 29, 28, 27, 26, 25, 24, 23] ++ List.range 16 ++ if cfg d 0xE031 0 = 0 then [22] else []).foldl clockOff d
    fabricLost (raise ((List.range 16).foldl siteLost d1) 0xCE03 0 0) seqIdle feHeld
  else if which = 1 then
    hpLinkDown ((List.range 16).foldl quadDown (raise (serdesLost (clockOff d 30) serdesPlls) 0xCE03 1 0))
  else d

/-- R696: a PLL loses lock: 0, 1 arithmetic, 2, 3 fabric, 4, 5 die-to-die, 6 to 21 sites M0 to M15, 22 to 37 quads, 38 to
41 host lane pairs, 42 management, 43 PCIe. The last two show in PwClockStatus alone. DEDUCED, log 74. -/
def pllUnlock (d : Dev) (which seqIdle feHeld : Nat) : Dev :=
  if which < 6 then
    let bit := if which < 2 then 28 + which else if which < 4 then 24 + which else 20 + which
    fabricLost (raise (clockOff d bit) 0xCE03 (2 + which) 0) seqIdle feHeld
  else if which < 22 then siteLost (raise (clockOff d (which - 6)) 0xCE03 (2 + which) 0) (which - 6)
  else if which < 38 then quadDown (raise (serdesLost d [which]) 0xCE03 (2 + which) 0) (which - 22)
  else if which < 42 then hpLinkDown (raise (serdesLost d [which]) 0xCE03 (2 + which) 0)
  else if which = 42 then clockOff d 23
  else if which = 43 then clockOff d 22
  else d

/-! ### Start-up (R701 to R704) -/

/-- Set bits of PwClockStatus. -/
def clocksOn (d : Dev) (is : List Nat) : Dev :=
  setObj d 0xE030 0 (is.foldl (fun v i => setBit v i true) (cfg d 0xE030 0))

/-- Start-up stops (state 7). -/
def startStopped (d : Dev) (code arg0 arg1 : Nat) : Dev := raise (setObj d 0xE000 0 7) code arg0 arg1

/-- The next step begins. DESIGN CHOICE, log 28. -/
def nextStartStep (d : Dev) : Dev := setObj d 0xE001 0 (cfg d 0xE001 0 + 1)

/-- R677 to R679: protocol, features and effective stepping are fixed. -/
def fixStepping (d : Dev) : Dev :=
  let a := cfg d 0x1005 1
  let b := cfg d 0x1005 2
  let eff := min a b
  let both := decide (0xB0 ≤ eff)
  let mixed := !both && decide (0xB0 ≤ max a b)
  let d1 := setObj (setObj (setObj d 0x1004 0 eff) 0x8103 0 (if both then 2 else 1)) 0x8104 0 (if both then 7 else 0)
  let d2 := setObj (setObj d1 0x8105 0 (if mixed then 7 else 0)) 0x3004 0 (b2n both)
  if mixed then raise d2 0x0845 0 7 else d2

/-- The rates of R208, highest first. -/
def farRates : List Nat := [10667, 9600, 8533, 7500, 6400]

/-- R209: the running rate: the first one from the cap down to the floor that every site passes. -/
def farRate (d : Dev) (sites : List Nat) : Option Nat :=
  farRates.find? (fun r => decide (r ≤ cfg d 0x8010 0) && decide (cfg d 0x8011 0 ≤ r) &&
    (padTo 16 0 sites).all (fun s => decide (r ≤ s)))

/-- R209, R210: far memory training. DESIGN CHOICE, log 28. -/
def farTrain (d : Dev) (sites : List Nat) : Bool × Dev :=
  let floor := cfg d 0x8011 0
  let d1 := setRows d 0x8014 1 ((padTo 16 0 sites).map (fun s => (if floor ≤ s then 2 ^ 31 else 0) + s % 65536))
  match farRate d sites with
  | none => (false, d1)
  | some r =>
    let d2 := clocksOn (setObj (setObj d1 0x8012 0 r) 0x8013 0 (b2n (r == 6400))) (List.range 16)
    (true, if r < cfg d 0x8010 0 then raise d2 0x4806 0 r else d2)

/-- The sites at which no rate at or above the floor passes (R210). -/
def failedSites (d : Dev) (sites : List Nat) : List Nat :=
  (List.range 16).filter (fun s => decide ((padTo 16 0 sites).getD s 0 < cfg d 0x8011 0))

/-- Bytes of far memory a half initialises. -/
def farInitBytes : Nat := 640000000000

/-- R701 step 8, R703: the clears, and far memory initialisation begins. Lines not initialised read as zeros, so all of
memory reads zero. DESIGN CHOICE, log 8. -/
def clearMemories (d : Dev) : Dev :=
  let d1 := { d with tus := [], mem := { memReset with badSites := d.mem.badSites, farInitStarted := true } }
  setObj (setObj d1 0xE040 1 farInitBytes) 0xE040 2 farInitBytes

/-- R704: checked mode for the self-test, and its end. -/
def selfTest (d : Dev) (on : Bool) : Dev :=
  raise (setObj (setObj { d with sup := { d.sup with checked := on } } 0x4003 0 (b2n on)) 0x5003 0 (b2n on))
    (if on then 0x0405 else 0x0406) 0 0

/-- R646, R647: no image verified in time. -/
def bootFails (d : Dev) (us : Nat) : Dev :=
  raise (setObj (setObj d 0xD010 0 (bootWord true (bootPreferred d % 2) false 0 0 us)) 0xE000 0 6) 0xCD02 0 0

/-- What the step in progress does when it passes or fails (R701). DESIGN CHOICE, log 28. -/
def startWork (d : Dev) (n : Nat) (i : StartInfo) : Dev :=
  match n with
  | 1 => if i.pass then nextStartStep (clocksOn d [23]) else d
  | 2 =>
    let d1 := if cfg d 0xE003 0 = 4 then raise d 0x4E0B 0 0 else d
    nextStartStep (if i.pass then genLoad d1 else raise d1 0x4208 0 0)
  | 3 => nextStartStep (if i.pass then hpLinkUp d else raise (setObj d 0xB011 0 1) 0x4B01 0 0)
  | 4 =>
    if i.pass then
      match bootSelect d i.badReads i.us with
      | (true, d1) => nextStartStep d1
      | (false, d1) => setObj d1 0xE000 0 6
    else bootFails d i.us
  | 5 =>
    let d1 := fixStepping d
    if i.pass then nextStartStep d1 else startStopped d1 0xC846 i.unit (cfg d 0x1005 (i.unit % 2 + 1))
  | 6 =>
    if i.pass then
      let d1 := trainBridge (clocksOn d [24, 25, 26, 27, 28, 29]) i.bundles
      let low := [0, 1].filter (fun dir => decide ((bundlesActive (brDir d1 dir)).length < cfg d 0x8101 0))
      match low with
      | [] => nextStartStep d1
      | dir :: _ => startStopped d1 0xC844 dir (bundlesActive (brDir d1 dir)).length
    else startStopped d 0xCE03 i.unit 0
  | 7 =>
    match farTrain d i.sites with
    | (true, d1) => nextStartStep d1
    | (false, d1) => startStopped d1 0xC807 ((failedSites d i.sites).headD 0) (sumN ((failedSites d i.sites).map (fun s => 2 ^ s)))
  | 8 => if i.pass then nextStartStep (selfTest (clearMemories d) true) else startStopped d 0xCE02 i.unit 0
  | 9 => if i.pass then nextStartStep d else startStopped d 0xCE02 i.unit 0
  | 10 => nextStartStep d
  | 11 =>
    let d1 := setObj d 0xC108 0 i.port
    let up := i.pass && bitAt i.port 22
    nextStartStep (if up then clocksOn d1 [22] else raise d1 0x8C14 0 0)
  | 12 => raise (setObj (setObj (selfTest d false) 0xE001 0 0xFF) 0xE000 0 2) 0x0E01 0 0
  | _ => d

/-- R701: the start-up step in progress ends, with what it found. DESIGN CHOICE, log 12. DESIGN CHOICE, log 28. -/
def startupStep (d : Dev) (i : StartInfo) : Dev :=
  let n := cfg d 0xE001 0
  if cfg d 0xE000 0 = 1 ∧ 1 ≤ n ∧ n ≤ 12 then startWork (setObj d 0xE002 n (min i.us (2 ^ 32 - 1))) n i else d

/-- R701: a step exceeds its budget and fails. Steps 3 and 12 have none. DESIGN CHOICE, log 28. -/
def startupTimeout (d : Dev) (us unit : Nat) : Dev :=
  let n := cfg d 0xE001 0
  if n = 3 ∨ n = 12 then d
  else startupStep d { us, pass := false, badReads := [], bundles := [], sites := [], unit, port := 0 }

/-- R703: far memory initialisation has completed on every site. -/
def farInitDone (d : Dev) : Dev :=
  if d.mem.farInitStarted && !d.mem.farInitDone then
    let d1 := { d with mem := { d.mem with farInitDone := true } }
    raise (setObj (setObj d1 0xE040 1 0) 0xE040 2 0) 0x0E09 0 0
  else d

/-- R714: PE_PERST_N and XSPI_RESET_N are high from the start-up step that uses the drive or the flash.
DESIGN CHOICE, log 73. -/
def pePerstN (d : Dev) : Bool := !held d && decide (11 ≤ cfg d 0xE001 0)
def xspiResetN (d : Dev) : Bool := !held d && decide (2 ≤ cfg d 0xE001 0)

/-! ### JTAG (R715 to R717) -/

/-- The lands are under boundary-scan control. DESIGN CHOICE, log 73. -/
def landsDriven (d : Dev) : Bool :=
  d.pw.resetLow && (match d.pw.ir with
    | .extest => true
    | .pulse => true
    | .train => true
    | _ => false)

/-- The version nibble of IDCODE. -/
def idNibble (stepping : Nat) : Nat :=
  if stepping = 0xA1 then 1 else if stepping = 0xB0 then 4 else Config.idcodeNibble stepping % 16

/-- R716. -/
def idcode (d : Dev) : Nat := idNibble (cfg d 0x1004 0) * 2 ^ 28 + 0x9A30D35

/-- BYPASS: the bypass register is captured as 0 (IEEE 1149.1). -/
def jtagBypass (d : Dev) : Dev := setPw d { d.pw with ir := .bypass, bypass := 0 }

/-- IDCODE: the register is shifted out (pin 3). -/
def jtagIdcode (d : Dev) : Dev := send (setPw d { d.pw with ir := .idcode }) (.pin 3 (idcode d))

/-- SAMPLE/PRELOAD: the lands are sampled and the output cells loaded. -/
def jtagSamplePreload (d : Dev) (lands cells : Nat) : Dev := setPw d { d.pw with ir := .sample, lands, cells }

/-- One of the external tests: its instruction is in force, the lands are sampled, and while RESET_N is low the cells are
driven (pins 4, 5, 6). -/
def jtagTest (d : Dev) (ir : JtagIr) (pin lands : Nat) : Dev :=
  let d1 := setPw d { d.pw with ir, lands }
  if landsDriven d1 then send d1 (.pin pin d1.pw.cells) else d1

def jtagExtest (d : Dev) (lands : Nat) : Dev := jtagTest d .extest 4 lands
def jtagExtestPulse (d : Dev) (lands : Nat) : Dev := jtagTest d .pulse 5 lands
def jtagExtestTrain (d : Dev) (lands : Nat) : Dev := jtagTest d .train 6 lands

end Sys2Proof.Machine
end

