-- ==== Sys2Proof/Machine/Views.lean ====
section
/-! DEFINITION. Objects whose value is formed from the state of a unit: how each reads (R526, R529). -/

namespace Sys2Proof.Machine

/-! ### Events (R547 to R549) -/

/-- An event record (R547). -/
def evRecWord (e : EvRec) : Nat :=
  trunc 16 e.code * 2 ^ 240 + e.eseq * 2 ^ 208 + trunc 64 e.time * 2 ^ 144 + e.step * 2 ^ 112 + e.arg0 * 2 ^ 64 + e.arg1

/-- `EvLogRead`: the record of the selected ESEQ, 0 when it is not held. -/
def evLogRead (d : Dev) : Nat :=
  match d.ev.log.find? (fun e => e.eseq == cfg d 0x1122 0) with
  | some e => evRecWord e
  | none => 0

/-- `EvSubscriberState`. -/
def evSubState (d : Dev) (r : Nat) : Nat :=
  match tfind d.ev.subs r with
  | some s =>
    if subEnabled d r then (s.base + 2 ^ 32 - 1) % 2 ^ 32 * 2 ^ 32 + (if s.stalled then 2 else 1) * 2 ^ 30 else 0
  | none => 0

/-! ### Supervisor (R94, R131) -/

/-- A torpor slot (R131). -/
def torporWord (x : TorporSlot) : Nat :=
  trunc 64 x.live * 2 ^ 128 + trunc 64 x.zeros * 2 ^ 64 + trunc 32 x.silent * 2 ^ 32 + b2n x.ftrip * 2 ^ 31 + b2n x.rpt * 2 ^ 30

/-! ### Contexts, queues, versions, updates (R297, R317, R324, R376) -/

/-- How `SsContextState` numbers a state. -/
def ctxStateCode : CtxState → Nat
  | .disabled => 0
  | .swappedOut => 1
  | .resident => 2
  | .running => 3
  | .stopping => 4
  | .stopped => 5

/-- How `SsJobState` numbers a state. -/
def jobStateCode : JobState → Nat
  | .idle => 0
  | .running => 1
  | .stopping => 2
  | .halted => 3

/-- `SsContextState`. -/
def ctxStateWord (d : Dev) (c : Nat) : Nat :=
  let x := ctxAt d c
  ctxStateCode x.st * 2 ^ 29 + b2n x.frame.isSome * 2 ^ 28 + x.frame.getD 0 % 16 * 2 ^ 24 + x.inflight % 512 * 2 ^ 15

/-- `SqEntryRead`: the selected entry in arrival order, 0 when there is none. -/
def entryWord (d : Dev) : Nat :=
  ((presentEntries d (fld (cfg d 0x6112 0) 14 8))[fld (cfg d 0x6112 0) 7 0]?).getD 0

/-- `WvSlotRead`: slot records 0 to 7, slots at or above RING 0. -/
def slotRecords (d : Dev) (e : Nat) : Nat :=
  sumN ((ringSlots d e).map (fun s => slotRecord (vslotAt d e s) * 2 ^ (384 * s)))

/-! ### Fetch engines and faults (R224, R267) -/

/-- A record of `FeActiveRead` (R267). -/
def activeWord (a : FdActive) : Nat :=
  (a.fid % 65536 * 2 ^ 48 + a.entry.task % 256 * 2 ^ 40 + a.queue % 4 * 2 ^ 38 + 2 ^ 37 + b2n a.entry.wdone * 2 ^ 36 +
    b2n a.fault * 2 ^ 35 + b2n a.susp * 2 ^ 34 + b2n a.ready * 2 ^ 33 + b2n a.sigheld * 2 ^ 32) * 2 ^ 768 + a.entry.desc % 2 ^ 768

/-- A fault record (R224). -/
def faultWord (x : FaultRec) : Nat :=
  x.fid % 65536 * 2 ^ 240 + x.cause % 256 * 2 ^ 232 + x.fe % 256 * 2 ^ 224 + b2n x.write * 2 ^ 223 + x.ctx % 256 * 2 ^ 208 +
    trunc 32 x.step * 2 ^ 176 + x.jaddr % 2 ^ 48 * 2 ^ 128

/-! ### Read -/

/-- The list element at row `r` (from 1), 0 past the end. DESIGN CHOICE, log 70. -/
def nthRow (l : List Nat) (r : Nat) : Nat := (l[r - 1]?).getD 0

/-- Objects below 0x6000 that are formed from state. -/
def viewLow (d : Dev) (idx sub : Nat) : Option Nat :=
  match idx with
  | 0x100A => some (trunc 64 d.uptime)
  | 0x1103 => some (min 255 (d.sy.pend.filter (fun p => p.final.isNone)).length)
  | 0x1121 => some d.ev.eseq
  | 0x1123 => some (evLogRead d)
  | 0x1125 => some (evSubState d sub)
  | 0x2002 => some (genState d)
  | 0x2010 => some d.gn.staged.length
  | 0x2011 => some (recsBytes d.gn.staged)
  | 0x2012 => some (recsDigest d.gn.staged)
  | 0x2033 => some ((d.gn.armed.map Armed.raw).getD 0)
  | 0x2050 => some (nthRow d.gn.history sub)
  | 0x2060 => some (storedSlot (if sub = 1 then d.gn.slot0 else d.gn.slot1))
  | 0x4011 => some (tget 0 (vcAt d (fld (cfg d 0x4010 0) 11 8)).config (fld (cfg d 0x4010 0) 7 0))
  | 0x4054 => some (tget 0 (vcAt d (fld (cfg d 0x4053 0) 11 8)).masks (fld (cfg d 0x4053 0) 3 0))
  | 0x5011 => some (ledgerWord (ledgerAt d (cfg d 0x5010 0)))
  | 0x5035 => some (nthRow d.sup.shadowLog sub)
  | 0x5053 => some (torporWord (tget { live := 0, zeros := 0, silent := 0, ftrip := false, rpt := false } d.sup.torpor
      (cfg d 0x5052 0)))
  | _ => none

/-- Objects from 0x6000 to 0x8FFF that are formed from state. -/
def viewMid (d : Dev) (idx sub : Nat) : Option Nat :=
  match idx with
  | 0x6011 => some (ctxStateWord d (sub - 1))
  | 0x6012 => some (trunc 32 (ctxAt d (sub - 1)).fwd * 2 ^ 32 + trunc 32 (ctxAt d (sub - 1)).bwd)
  | 0x6020 => some d.seq.step
  | 0x6023 => some (jobStateCode d.seq.job)
  | 0x6111 => some (queueState d (sub - 1))
  | 0x6113 => some (entryWord d)
  | 0x6120 => some ((sqAt d (2 * (sub - 1))).headK % 2 ^ 24 * 2 ^ 8 + b2n (headFree d (sub - 1)))
  | 0x6811 => some (keyedAt d 0x6812 (cfg d 0x6810 0))
  | 0x6813 => some (slotRecords d (cfg d 0x6810 0))
  | 0x6814 => some ((wvAt d (cfg d 0x6810 0)).cur.getD 0)
  | 0x6822 => some (tagRecord d (fld (cfg d 0x6821 0) 29 24) (fld (cfg d 0x6821 0) 23 0))
  | 0x6832 => some (gcUsed d (sub - 1))
  | 0x6911 => some (keyedAt d 0x6912 (cfg d 0x6910 0))
  | 0x6913 => some (upState d (cfg d 0x6910 0))
  | 0x6932 => some (parkUsed d (sub - 1))
  | 0x7031 => some ((((feAt d (cfg d 0x7030 0)).active.map activeWord)[sub - 1]?).getD 0)
  | 0x7041 => some (semWord (semAt d (cfg d 0x7040 0)))
  | 0x8034 => some (((tfind d.mem.faults (sub - 1)).map faultWord).getD 0)
  | 0x8110 => some (bundleStatus d 0 (sub - 1))
  | 0x8111 => some (bundleStatus d 1 (sub - 1))
  | _ => none

/-- Objects from 0x9000 on that are formed from state. -/
def viewHigh (d : Dev) (idx sub : Nat) : Option Nat :=
  match idx with
  | 0x9021 => some (keyedAt d 0x9022 (cfg d 0x9020 0))
  | 0x9030 => some (quadStatus d (sub - 1))
  | 0x9039 => some (laneStatus d (sub - 1))
  | 0xA011 => some (keyedAt d 0xA012 (cfg d 0xA010 0))
  | 0xA014 => some (keyedAt d 0xA015 (cfg d 0xA013 0))
  | 0xA811 => some (keyedAt d 0xA812 (cfg d 0xA810 0))
  | 0xA817 => some (exLocal d (cfg d 0xA810 0))
  | 0xA818 => some (keyedAt d 0xA815 (fld (cfg d 0xA816 0) 23 16 * 65536 + fld (cfg d 0xA816 0) 11 0))
  | 0xB031 =>
    let q := qpAt d (sub - 1)
    some ((if !qpEnabled d (sub - 1) then 0 else if q.err then 2 else 1) * 2 ^ 30 + q.sendPsn % 2 ^ 24)
  | 0xB041 => some (trunc 64 d.ptp)
  | 0xB042 => some d.hp.ptp.state
  | 0xC110 => some (snState d)
  | 0xC212 => some (nthRow d.rc.queue sub)
  | 0xD803 => some (cvState d (sub - 1))
  | 0xD809 => some (cvAt d (sub - 1)).result
  | 0xD80A => some (tget 0 d.cv.channels (sub - 1))
  | 0xE000 => some (pwState d)
  | _ => none

/-- A table's subindex 0: its row count (R527). -/
def rowCount (idx : Nat) : Nat := objTable.foldl (fun n r => if r.idx = idx then max n r.hi else n) 0

/-- The value an object reads as (R529). A READ of a keyed object gives its entry of key 0. -/
def readObj (d : Dev) (idx sub : Nat) : Nat :=
  match viewLow d idx sub with
  | some v => v
  | none =>
    match viewMid d idx sub with
    | some v => v
    | none =>
      match viewHigh d idx sub with
      | some v => v
      | none => if isKeyed idx then recValue (stageKey idx 0 0) (keyedAt d idx 0) else cfg d idx sub

end Sys2Proof.Machine
end

