-- ==== Sys2Proof/Machine/Dictionary.lean ====
section
/-! DEFINITION. What a write of each object does: counter clears, command objects, selections (R526 to R531), and which
operations the management controller carries out without the fabric (R545, R702). -/

namespace Sys2Proof.Machine

/-! ### Counter clears -/

/-- Indices `lo` to `hi`. -/
def idxRange (lo hi : Nat) : List Nat := (List.range (hi + 1 - lo)).map (· + lo)

/-- The counters a counter-clear object clears, and the event it raises (0 for none). DESIGN CHOICE, log 72. -/
def clearList (idx : Nat) : Option (List Nat × Nat) :=
  match idx with
  | 0x1130 => some (idxRange 0x1110 0x1115 ++ [0x1124], 0x0106)
  | 0x3030 => some (idxRange 0x3020 0x3026, 0x0306)
  | 0x4040 => some (idxRange 0x4020 0x4029, 0x0409)
  | 0x4070 => some (idxRange 0x4060 0x4065, 0x0416)
  | 0x5070 => some ([0x5033, 0x5034] ++ idxRange 0x5040 0x5043 ++ [0x5060], 0)
  | 0x6040 => some (idxRange 0x6030 0x6033, 0x0609)
  | 0x6140 => some (idxRange 0x6130 0x6136, 0x0628)
  | 0x6850 => some (idxRange 0x6840 0x6848, 0x0688)
  | 0x6950 => some (idxRange 0x6940 0x6946, 0x0697)
  | 0x7050 => some (idxRange 0x7020 0x7026 ++ [0x7042], 0x0705)
  | 0x8070 => some (idxRange 0x8050 0x8053 ++ idxRange 0x8055 0x8057, 0x0824)
  | 0x8130 => some (idxRange 0x8120 0x8124, 0x0847)
  | 0x9061 => some (idxRange 0x9031 0x9038 ++ [0x9050], 0x0930)
  | 0xA070 => some (idxRange 0xA050 0xA059, 0x0A0D)
  | 0xA860 => some (idxRange 0xA850 0xA856, 0x0A8A)
  | 0xB060 => some (idxRange 0xB050 0xB056, 0x0B0B)
  | 0xC140 => some ([0xC130, 0xC131], 0x0C30)
  | 0xC240 => some ([0xC230], 0x0C4B)
  | 0xD830 => some (0xD80B :: idxRange 0xD824 0xD826, 0x0D86)
  | _ => none

/-- Every row of an object back to its default. -/
def clearObj (d : Dev) (i : Nat) : Dev :=
  forgetCounts { d with objs := d.objs.filter (fun e => e.1 / 256 != i) } i i

/-- A write to a counter-clear object: 1 clears, other values are ignored. DESIGN CHOICE, log 72. -/
def counterClear (d : Dev) (idx v : Nat) : Dev :=
  match clearList idx with
  | none => d
  | some (is, ev) =>
    let d1 := if v = 1 then is.foldl clearObj d else d
    let d2 := if v = 1 ∧ ev ≠ 0 then raise d1 ev 0 0 else d1
    send d2 (.status idx 0 0)

/-! ### Writes of RW and WO objects -/

/-- A write that only stores its value. -/
def keepValue (d : Dev) (idx sub v : Nat) : Dev := send (setObj d idx sub v) (.status idx sub 0)

/-- R549: a subscriber row; setting EN starts delivery from EvLogHead. -/
def subscriberWrite (d : Dev) (row v : Nat) : Dev :=
  let subs := if bitAt v 255 then tset d.ev.subs row { base := d.ev.eseq, next := d.ev.eseq, resends := 0, stalled := false }
    else tdel d.ev.subs row
  keepValue { d with ev := { d.ev with subs } } 0x1120 row v

/-- R295: a write to SsJobControl. -/
def jobControl (d : Dev) (v : Nat) : Dev :=
  match v with
  | 1 => jobStart d
  | 2 => jobStop d
  | 3 => jobHalt d
  | _ => send d (.status 0x6022 0 0)

/-- Command objects below 0x8000. -/
def commandLow (d : Dev) (idx v : Nat) : Option Dev :=
  match idx with
  | 0x2013 => some (stageDiscard d v)
  | 0x2020 => some (genCheck d v)
  | 0x2030 => some (genAttempt d v false)
  | 0x2031 => some (genCancel d v)
  | 0x2032 => some (genAttempt d v true)
  | 0x5023 => some (scaleRebuildStart d v)
  | 0x6022 => some (jobControl d v)
  | 0x6026 => some (stopAtStep d v)
  | 0x6121 => some (sqPost d v)
  | 0x6823 => some (releaseContext d v)
  | _ => none

/-- Command objects from 0x8000 to 0xCFFF. -/
def commandMid (d : Dev) (i : OpInfo) (idx v : Nat) : Option Dev :=
  match idx with
  | 0x8033 => some (xlatInvalidate d (fld v 63 0) (fld v 127 64))
  | 0x8035 => some (xlatResume d v)
  | 0x8036 => some (xlatFail d v)
  | 0x9060 => some (quadRetrain d v)
  | 0xB033 => some (qpReset d v)
  | 0xC009 => some (hmExternal d v)
  | 0xC100 => some (cutAtStep d v)
  | 0xC120 => some (snRestore d v)
  | 0xC210 => some (rcRecover d v)
  | 0xC221 => some (wedgeCapture d v i.seqIdle i.feHeld)
  | 0xCE30 => some (rngProbe d v)
  | 0xCE40 => some (rngFill d v)
  | _ => none

/-- Command objects from 0xD000 on. -/
def commandHigh (d : Dev) (i : OpInfo) (idx sub len v : Nat) : Option Dev :=
  match idx with
  | 0xD003 => some (revokeKey d v)
  | 0xD013 => some (flashErase d v)
  | 0xD014 => some (flashWrite d (leBytes len v))
  | 0xD015 => some (imageVerify d v)
  | 0xD017 => some (bootPrefer d v)
  | 0xD021 => some (rollbackCommit d v i.fuses)
  | 0xD040 => some (attestNonce d v)
  | 0xD802 => some (cvConfig d (sub - 1) v)
  | 0xD803 => some (cvStateLoad d (sub - 1) v)
  | 0xD804 => some (cvFeed8 d v)
  | 0xD805 => some (cvFeed16 d v)
  | 0xD806 => some (cvFeed32 d v)
  | 0xD807 => some (cvScan d v)
  | 0xD808 => some (cvFinish d v)
  | 0xE004 => some (resetCommand d v)
  | _ => none

/-- What a write of an RW or WO object does; its status is the last one sent for the object. -/
def writeEffect (d : Dev) (i : OpInfo) (idx sub len v : Nat) : Dev :=
  if (clearList idx).isSome then counterClear d idx v
  else if idx = 0x1120 then subscriberWrite d sub v
  else
    match commandLow d idx v with
    | some x => x
    | none =>
      match commandMid d i idx v with
      | some x => x
      | none => (commandHigh d i idx sub len v).getD (keepValue d idx sub v)

/-- The status a list of messages holds for an object, the last one. -/
def statusIn (idx : Nat) : List OutMsg → Nat → Nat
  | [], st => st
  | .status i _ s :: ms, st => statusIn idx ms (if i = idx then s else st)
  | _ :: ms, st => statusIn idx ms st

/-- The status of a write that took the device from `d` to `x`. -/
def writeStatus (d x : Dev) (idx : Nat) : Nat := statusIn idx (x.out.drop d.out.length) 0

/-- The unit or region a pending operation names. -/
def pendUnit (idx v : Nat) : Nat :=
  match idx with
  | 0xD807 => fld v 127 125
  | 0xD013 | 0xD014 | 0xD015 => v % 256
  | 0xD017 => 2
  | _ => 0

/-! ### What is served when (R545, R613, R647, R702) -/

/-- Objects marked health. -/
def isHealth (idx : Nat) : Bool :=
  (decide (0xC000 ≤ idx) && decide (idx < 0xC200)) || idx == 0xC220 || idx == 0xC221 ||
    (decide (0xE000 ≤ idx) && decide (idx ≤ 0xE025))

/-- Access right of `idx:sub`; subindex 0 of a table is CONST (R527). None: not an object. -/
def accessOf (idx sub : Nat) : Option Access :=
  match objRow idx sub with
  | some r => some r.acc
  | none => if sub = 0 ∧ (objRowOf idx).isSome then some .const else none

/-- The management controller carries the operation (0 READ, 1 WRITE, 2 READ-STAGED) out itself. DEDUCED, log 68. -/
def servedLocally (idx sub op : Nat) : Bool :=
  let a := accessOf idx sub
  (decide (0x1000 ≤ idx) && decide (idx < 0x3000)) || (decide (0xD000 ≤ idx) && decide (idx < 0xD800)) ||
    (decide (0xE000 ≤ idx) && decide (idx < 0xF000)) || a == some .rs || a == none ||
    (op != 1 && (a == some .const || isHealth idx))

/-- R647: what recovery mode and a stopped start-up serve. DEDUCED, log 68. -/
def servedInRecovery (idx op : Nat) : Bool :=
  (op != 1 && ((decide (0x1000 ≤ idx) && decide (idx < 0x2000)) || (decide (0xD000 ≤ idx) && decide (idx < 0xD800)))) ||
    [0xD013, 0xD014, 0xD015, 0xD016, 0xD017, 0xE004].contains idx

/-- The device serves the operation in its present state. DEDUCED, log 68. -/
def servedNow (d : Dev) (idx sub op : Nat) : Bool :=
  let s := cfg d 0xE000 0
  if s = 6 ∨ s = 7 then servedInRecovery idx op
  else if cfg d 0xE001 0 = 0xFF then true
  else decide (3 ≤ cfg d 0xE001 0) && servedLocally idx sub op

end Sys2Proof.Machine
end

