-- ==== Sys2Proof/Machine/Gates.lean ====
section
/-! DEFINITION. When a command has its effect: power, reset, trip and thermal hold stop units (R686, R691, R692, R698), and
a write of a command object is refused while the device does not serve it (R545, R647, R702). -/

namespace Sys2Proof.Machine

/-- A command that needs only the input power: monitors, sensors and the JTAG port (R693, R715). -/
def onPower (d : Dev) (f : Dev → Dev) : Dev := if d.pw.failed then d else f d

/-- A frame that the host port receives: there is none while its link is down (R507, R696). -/
def onHost (d : Dev) (f : Dev → Dev) : Dev := onUnit d (fun x => if x.hp.linkUp then f x else x)

/-- The device carries out a write of a command object. -/
def objectServed (d : Dev) (idx sub : Nat) : Bool :=
  servedNow d idx sub 1 && (!d.rc.wedged || servedLocally idx sub 1)

/-- A write of a command object: STATE while it is not served (R702), WEDGED when it needs a wedged fabric (R545).
DEDUCED, log 68. -/
def onObject (d : Dev) (idx sub : Nat) (f : Dev → Dev) : Dev :=
  if unitsStopped d then d
  else if objectServed d idx sub then f d
  else if servedNow d idx sub 1 then send d (.status idx sub 0xA)
  else send d (.status idx sub 6)

/-- R462, R492: an UNREACH goes to the unit that sent the message, which bits [127:64] of the header it answers name by its
kind: the expert exchange for its own, else the collective engine. -/
def unreachReceive (d : Dev) (header : Nat) : Dev :=
  if fld header 63 60 = 9 then exUnreach d header else ceUnreach d header

end Sys2Proof.Machine
end

