-- ==== Sys2Proof/Machine/State.lean ====
section
/-! DEFINITION. The state of the model: the device and the queue of commands that wait; the reasons a step can stop. -/

namespace Sys2Proof.Machine

/-- The HX9 and its commands. -/
structure State where
  /-- Every register, memory, queue and counter of the device. -/
  dev : Dev
  /-- The commands that wait, first in first out. -/
  pending : List Instr
  deriving DecidableEq, Repr

/-- Reasons a step stops with a fault. -/
inductive Fault where
  /-- Raised by no command: the HX9 answers every error with an event and goes on. Safe, for nothing stops. -/
  | neverRaised
  deriving DecidableEq, Repr

/-- Reasons a step is refused. -/
inductive Refusal where
  /-- Answered by an arm of `exec` whose command has no meaning yet. Safe, for nothing runs. -/
  | notModelled (mnemonic : String)
  deriving DecidableEq, Repr

/-- The state right after reset: the device released into start-up step 1 of a power-on reset (R698, R701), nothing fused,
blank flash, an empty drive, and no command waiting. -/
def State.reset : State := { dev := powerOnReset freshDev, pending := [] }

end Sys2Proof.Machine
end

