-- ==== Sys2Proof/Machine/ExecBridge.lean ====
section
/-! DEFINITION. Commands of the tandem bridge (chapter 25). Each changes the device and leaves the queue alone. -/

namespace Sys2Proof.Machine

/-- BRIDGE_REQ (R666). A REQ frame of request records arrives over the tandem bridge. -/
def execBridgeReq (dir bundle seq ord : Nat) (recs : List BridgeReq) (ok : Bool) (s : State) : Host.Outcome State
    Fault Refusal :=
  .next { s with dev := onUnit s.dev (fun d => brArrive d dir bundle seq ord (.req recs) ok) }

/-- BRIDGE_WDATA (R666). A WDATA frame delivers write data for a REQ record. -/
def execBridgeWdata (dir bundle seq ord tag : Nat) (data : BridgeData) (ok : Bool) (s : State) :
    Host.Outcome State Fault Refusal :=
  .next { s with dev := onUnit s.dev (fun d => brArrive d dir bundle seq ord (.wdata tag data.bytes data.ue) ok) }

/-- BRIDGE_SIG (R666). A SIG frame delivers semaphore signals, ledger reports and notices. -/
def execBridgeSig (dir bundle seq ord : Nat) (recs : List BridgeSig) (ok : Bool) (s : State) : Host.Outcome State
    Fault Refusal :=
  .next { s with dev := onUnit s.dev (fun d => brArrive d dir bundle seq ord (.sig recs) ok) }

/-- BRIDGE_RDATA (R666). An RDATA frame delivers tagged read data. -/
def execBridgeRdata (dir bundle seq ord tag : Nat) (data : BridgeData) (ok : Bool) (s : State) :
    Host.Outcome State Fault Refusal :=
  .next { s with dev := onUnit s.dev (fun d => brArrive d dir bundle seq ord (.rdata tag data.bytes data.ue) ok) }

/-- BRIDGE_WACK (R666). A WACK frame delivers write completions. -/
def execBridgeWack (dir bundle seq ord : Nat) (tags : List Nat) (ok : Bool) (s : State) : Host.Outcome State Fault
    Refusal :=
  .next { s with dev := onUnit s.dev (fun d => brArrive d dir bundle seq ord (.wack tags) ok) }

/-- BRIDGE_ACK (R668). An ACK frame acknowledges bundles, returns credits and triggers replays on NAK. -/
def execBridgeAck (dir bundle : Nat) (words : List (Nat × Bool)) (credReq credRsp : Nat) (ok : Bool) (s : State) :
    Host.Outcome State Fault Refusal :=
  .next { s with dev := onUnit s.dev (fun d => bridgeAck d dir bundle words credReq credRsp ok) }

/-- BRIDGE_ACK_TIMER (R668). Every 16 fabric cycles with frames unacknowledged a half sends an ACK frame. -/
def execBridgeAckTimer (dir : Nat) (s : State) : Host.Outcome State Fault Refusal :=
  .next { s with dev := onUnit s.dev (fun d => bridgeAckTimer d dir) }

/-- BUNDLE_RETRAIN_DONE (R675). A bundle retrain ends, reassigning wires or disabling the bundle. -/
def execBundleRetrainDone (dir bundle : Nat) (fails : List Nat) (ctl : Bool) (seqIdle feHeld : Nat) (s : State) :
    Host.Outcome State Fault Refusal :=
  .next { s with dev := onUnit s.dev (fun d => bundleRetrainDone d dir bundle fails ctl seqIdle feHeld) }

end Sys2Proof.Machine
end

