-- ==== Sys2Proof/Machine/ExecCollective.lean ====
section
/-! DEFINITION. Commands of the collective engine (chapter 15). Each changes the device and leaves the queue alone. -/

namespace Sys2Proof.Machine

/-- UNREACH_RECEIVE (R462). An UNREACH ends the operation that sent the request, and the contexts concerned stop. -/
def execUnreachReceive (header : Nat) (s : State) : Host.Outcome State Fault Refusal :=
  .next { s with dev := onUnit s.dev (fun d => unreachReceive d header) }

/-- BUCKET_HANDOFF (R450). Once a BKT's earlier passes are accepted, the engine announces the bucket to every owning
rank. -/
def execBucketHandoff (cluster : Nat) (s : State) : Host.Outcome State Fault Refusal :=
  .next { s with dev := onUnit s.dev (fun d => bucketHandoff d cluster) }

/-- STAGING_ALLOCATE (R449). A bucket's staging for a step and place is allocated, holding the pass when there is no
room. -/
def execStagingAllocate (bucket step place waited : Nat) (s : State) : Host.Outcome State Fault Refusal :=
  .next { s with dev := onUnit s.dev (fun d => stagingAllocate d bucket step place waited) }

/-- ANNOUNCE (R456). An ANNOUNCE is accepted within its lap window and reads for the part are issued, or it is
discarded. -/
def execAnnounce (src bucket lap place fver : Nat) (s : State) : Host.Outcome State Fault Refusal :=
  .next { s with dev := onUnit s.dev (fun d => announce d src bucket lap place fver) }

/-- READ (R461). A READ of a version slot or staged part is served with READ-DATA or an error status. -/
def execRead (src rlap ridx space flow body : Nat) (s : State) : Host.Outcome State Fault Refusal :=
  .next { s with dev := onUnit s.dev (fun d => ceServe d src rlap ridx space flow body) }

/-- READ_DATA (R459). READ-DATA matching an outstanding READ lands, or is discarded as stale. -/
def execReadData (src rlap ridx status chunk : Nat) (bytes : List Byte) (s : State) : Host.Outcome State Fault Refusal
    :=
  .next { s with dev := onUnit s.dev (fun d => readData d src rlap ridx status chunk bytes) }

/-- CHUNK_FOLD (R452). When every rank's share of a chunk has landed, it is decoded, summed in rank order and
delivered as pieces. -/
def execChunkFold (bucket step place chunk waited : Nat) (s : State) : Host.Outcome State Fault Refusal :=
  .next { s with dev := onUnit s.dev (fun d => chunkFold d bucket step place chunk waited) }

/-- MDATA (R464). A multicast data message lands in a prefetch buffer and is forwarded to children. -/
def execMdata (src pid version origin off : Nat) (bytes : List Byte) (s : State) : Host.Outcome State Fault Refusal :=
  .next { s with dev := onUnit s.dev (fun d => mdata d src pid version origin off bytes) }

/-- MACK (R465). A child's cumulative acknowledgement frees retained multicast bytes. -/
def execMack (src pid version origin count : Nat) (s : State) : Host.Outcome State Fault Refusal :=
  .next { s with dev := onUnit s.dev (fun d => mack d src pid version origin count) }

/-- FETCH (R466). A removed node reads its missing shard bytes from the origin by unicast. -/
def execFetch (src pid version origin : Nat) (s : State) : Host.Outcome State Fault Refusal :=
  .next { s with dev := onUnit s.dev (fun d => ceFetch d src pid version origin) }

/-- AUTOTOMY (R466). The retention buffer stays full past CeLagLimit and the lagging child is removed. -/
def execAutotomy (group us : Nat) (s : State) : Host.Outcome State Fault Refusal :=
  .next { s with dev := onUnit s.dev (fun d => autotomy d group us) }

/-- CLIP (R467). A CLIP total arrives, and when all ranks are in, Q and the clip factor are formed. -/
def execClip (src group lap : Nat) (total : F32) (s : State) : Host.Outcome State Fault Refusal :=
  .next { s with dev := onUnit s.dev (fun d => clip d src group lap total) }

end Sys2Proof.Machine
end

