-- ==== Sys2Proof/Machine/ExecExchange.lean ====
section
/-! DEFINITION. Commands of the expert exchange (chapter 16). Each changes the device and leaves the queue alone. -/

namespace Sys2Proof.Machine

/-- DISPATCH_DOORBELL (R481). A dispatch doorbell makes the exchange select experts, write assignments and send rows
and counts. -/
def execDispatchDoorbell (layer waited : Nat) (s : State) : Host.Outcome State Fault Refusal :=
  .next { s with dev := onUnit s.dev (fun d => dispatchDoorbell d layer waited) }

/-- COMBINE_DOORBELL (R486). A combine doorbell sends each counted expert output row back to its source rank. -/
def execCombineDoorbell (layer : Nat) (s : State) : Host.Outcome State Fault Refusal :=
  .next { s with dev := onUnit s.dev (fun d => combineDoorbell d layer) }

/-- EXPERT_ROWS (R484). Token rows arrive and land at ROFF or in the pending region. -/
def execExpertRows (src layer : Nat) (bwd : Bool) (tag slot pos part : Nat) (bytes : List Byte) (waited : Nat) (s :
    State) : Host.Outcome State Fault Refusal :=
  .next { s with dev := onUnit s.dev (fun d => expertRows d src layer bwd tag slot pos part bytes waited) }

/-- EXPERT_COUNT (R485). A COUNT message from a rank arrives. -/
def execExpertCount (src layer : Nat) (bwd : Bool) (tag : Nat) (counts : List Nat) (s : State) : Host.Outcome State
    Fault Refusal :=
  .next { s with dev := onUnit s.dev (fun d => expertCount d src layer bwd tag counts) }

/-- EXPERT_RESULT (R487). Result rows arrive, and each token whose results are all present gets its output row. -/
def execExpertResult (src layer : Nat) (bwd : Bool) (tag slot pos part : Nat) (bytes : List Byte) (waited : Nat) (s :
    State) : Host.Outcome State Fault Refusal :=
  .next { s with dev := onUnit s.dev (fun d => expertResult d src layer bwd tag slot pos part bytes waited) }

/-- DISPATCH_DONE (R485). All counts and rows for a tag have landed and DND is signalled. -/
def execDispatchDone (layer : Nat) (bwd : Bool) (tag : Nat) (s : State) : Host.Outcome State Fault Refusal :=
  .next { s with dev := onUnit s.dev (fun d => dispatchDone d layer bwd tag) }

/-- COMBINE_DONE (R488). All output rows are written and results acknowledged, and DNC is signalled. -/
def execCombineDone (layer : Nat) (bwd : Bool) (tag : Nat) (s : State) : Host.Outcome State Fault Refusal :=
  .next { s with dev := onUnit s.dev (fun d => combineDone d layer bwd tag) }

end Sys2Proof.Machine
end

