-- ==== Sys2Proof/Machine/ExecGenerations.lean ====
section
/-! DEFINITION. Commands of configuration generations (chapter 20). Each changes the device and leaves the queue alone. -/

namespace Sys2Proof.Machine

/-- GEN_CHECK (R555). A write runs the combined consistency check on the staging set. -/
def execGenCheck (value : Nat) (s : State) : Host.Outcome State Fault Refusal :=
  .next { s with dev := onObject s.dev 0x2020 0 (fun d => genCheck d value) }

/-- GEN_CHECK_DONE (R556). A consistency check finishes and GenCheckResult is written. -/
def execGenCheckDone (s : State) : Host.Outcome State Fault Refusal :=
  .next { s with dev := onUnit s.dev (fun d => genCheckDone d) }

/-- COMMIT_NOW (R558). A commit with WHEN now is checked and applied between ticks while idle. -/
def execCommitNow (record : Nat) (s : State) : Host.Outcome State Fault Refusal :=
  .next { s with dev := onObject s.dev 0x2030 0 (fun d => genAttemptAt d record 0 false) }

/-- COMMIT_AT_BOUNDARY (R561). A commit is armed to apply at the boundary that closes step AT. -/
def execCommitAtBoundary (record : Nat) (s : State) : Host.Outcome State Fault Refusal :=
  .next { s with dev := onObject s.dev 0x2030 0 (fun d => genAttemptAt d record 1 false) }

/-- COMMIT_AT_TIME (R560). A commit is armed to apply at PTP time AT. -/
def execCommitAtTime (record : Nat) (s : State) : Host.Outcome State Fault Refusal :=
  .next { s with dev := onObject s.dev 0x2030 0 (fun d => genAttemptAt d record 2 false) }

/-- ROLLBACK_NOW (R566). A rollback to the previous generation's values is checked and applied now. -/
def execRollbackNow (record : Nat) (s : State) : Host.Outcome State Fault Refusal :=
  .next { s with dev := onObject s.dev 0x2032 0 (fun d => genAttemptAt d record 0 true) }

/-- ROLLBACK_AT_BOUNDARY (R566). A rollback is armed for the boundary that closes step AT. -/
def execRollbackAtBoundary (record : Nat) (s : State) : Host.Outcome State Fault Refusal :=
  .next { s with dev := onObject s.dev 0x2032 0 (fun d => genAttemptAt d record 1 true) }

/-- ROLLBACK_AT_TIME (R566). A rollback is armed for PTP time AT. -/
def execRollbackAtTime (record : Nat) (s : State) : Host.Outcome State Fault Refusal :=
  .next { s with dev := onObject s.dev 0x2032 0 (fun d => genAttemptAt d record 2 true) }

/-- GEN_CANCEL (R564). A write discards the armed generation, returning its records to staging. -/
def execGenCancel (value : Nat) (s : State) : Host.Outcome State Fault Refusal :=
  .next { s with dev := onObject s.dev 0x2031 0 (fun d => genCancel d value) }

/-- STAGE_DISCARD (R554). A write empties the staging set. -/
def execStageDiscard (value : Nat) (s : State) : Host.Outcome State Fault Refusal :=
  .next { s with dev := onObject s.dev 0x2013 0 (fun d => stageDiscard d value) }

/-- ARMED_TIME_APPLY (R561). PTP time reaches AT and the armed generation is re-checked and applied. -/
def execArmedTimeApply (s : State) : Host.Outcome State Fault Refusal :=
  .next { s with dev := onUnit s.dev (fun d => armedTimeApply d) }

/-- GEN_STORE_DONE (R567). Storing a generation in boot flash completes or fails. -/
def execGenStoreDone (ok : Bool) (s : State) : Host.Outcome State Fault Refusal :=
  .next { s with dev := onMgmt s.dev (fun d => genStoreDone d ok) }

end Sys2Proof.Machine
end

