-- ==== Sys2Proof/Machine/ExecHealth.lean ====
section
/-! DEFINITION. Commands of the health monitor, snapshots and recovery (chapters 21 and 22). Each changes the device and leaves the queue alone. -/

namespace Sys2Proof.Machine

/-- HM_EXTERNAL (R572). A write adds a value to the external risk input. -/
def execHmExternal (value : Nat) (s : State) : Host.Outcome State Fault Refusal :=
  .next { s with dev := onObject s.dev 0xC009 0 (fun d => hmExternal d value) }

/-- CUT_AT_STEP (R575). A write sets, keeps the earlier of, or cancels the pending cut step. -/
def execCutAtStep (step : Nat) (s : State) : Host.Outcome State Fault Refusal :=
  .next { s with dev := onObject s.dev 0xC100 0 (fun d => cutAtStep d step) }

/-- CUT_CAPTURE (R583). At boundary step 5, after any earlier flush ends, the engine copies every item into the
reserves. -/
def execCutCapture (s : State) : Host.Outcome State Fault Refusal :=
  .next { s with dev := onUnit s.dev (fun d => cutCapture d) }

/-- CAPTURE_DONE (R584). The last item is in the reserve, the hold ends and the flush begins. -/
def execCaptureDone (us : Nat) (s : State) : Host.Outcome State Fault Refusal :=
  .next { s with dev := onUnit s.dev (fun d => captureDone d us) }

/-- NVME_COMPLETION (R586). An NVMe command completion advances the flush, verify or restore. -/
def execNvmeCompletion (ok : Bool) (s : State) : Host.Outcome State Fault Refusal :=
  .next { s with dev := onUnit s.dev (fun d => nvmeCompletion d ok) }

/-- CUT_COMPLETE (R588). The directory block write completes and the cut is complete on the drive. -/
def execCutComplete (ok : Bool) (s : State) : Host.Outcome State Fault Refusal :=
  .next { s with dev := onUnit s.dev (fun d => cutComplete d ok) }

/-- MIRROR_DONE (R597). The mirror copy of a cut finishes writing its directory block, or fails. -/
def execMirrorDone (ok : Bool) (s : State) : Host.Outcome State Fault Refusal :=
  .next { s with dev := onUnit s.dev (fun d => mirrorDone d ok) }

/-- SN_RESTORE (R589). A write starts restoring a cut from the drive or a host window while idle. -/
def execSnRestore (record : Nat) (s : State) : Host.Outcome State Fault Refusal :=
  .next { s with dev := onObject s.dev 0xC120 0 (fun d => snRestore d record) }

/-- RESTORE_DONE (R591). The restore writes every kind and sets SsStartStep to S + 1. -/
def execRestoreDone (image : Option Cut) (bad : List (Nat × Nat × Bool)) (s : State) : Host.Outcome State Fault Refusal :=
  .next { s with dev := onUnit s.dev (fun d => restoreDone d image bad) }

/-- RC_RECOVER (R600). A recovery record is accepted, queued or refused. -/
def execRcRecover (record : Nat) (s : State) : Host.Outcome State Fault Refusal :=
  .next { s with dev := onObject s.dev 0xC210 0 (fun d => rcRecover d record) }

/-- RECORD_START (R602). A recovery record starts on a device, choosing a spare and the device's role. -/
def execRecordStart (s : State) : Host.Outcome State Fault Refusal :=
  .next { s with dev := onUnit s.dev (fun d => recordStart d) }

/-- AXOLOTL_FILL (R607). Once the spare carries the failed device's ID, it retrains and restores through the mirror
window. -/
def execAxolotlFill (s : State) : Host.Outcome State Fault Refusal :=
  .next { s with dev := onUnit s.dev (fun d => axolotlFill d) }

/-- WEDGE_CAPTURE (R612). A write declares the device wedged. -/
def execWedgeCapture (value seqIdle feHeld : Nat) (s : State) : Host.Outcome State Fault Refusal :=
  .next { s with dev := onObject s.dev 0xC221 0 (fun d => wedgeCapture d value seqIdle feHeld) }

/-- FABRIC_PROBE_TIMEOUT (R612). The fabric probe goes unanswered for 10 ms and the device becomes wedged. -/
def execFabricProbeTimeout (seqIdle feHeld : Nat) (s : State) : Host.Outcome State Fault Refusal :=
  .next { s with dev := onMgmt s.dev (fun d => fabricProbeTimeout d seqIdle feHeld) }

end Sys2Proof.Machine
end

