-- ==== Sys2Proof/Machine/ExecHost.lean ====
section
/-! DEFINITION. Commands of the host port (chapter 18). Each changes the device and leaves the queue alone. -/

namespace Sys2Proof.Machine

/-- HP_LINK_DOWN (R507). A host lane loses lock or alignment and the link goes down. -/
def execHpLinkDown (s : State) : Host.Outcome State Fault Refusal :=
  .next { s with dev := onUnit s.dev (fun d => hpLinkDown d) }

/-- HP_LINK_UP (R507). The host link finishes training again. -/
def execHpLinkUp (s : State) : Host.Outcome State Fault Refusal :=
  .next { s with dev := onUnit s.dev (fun d => hpLinkUp d) }

/-- MGMT_QUEUE_FRAME (R510). A class 0 or 1 frame enters the management queue, or is discarded when it is full. -/
def execMgmtQueueFrame (cls src : Nat) (payload : List Byte) (s : State) : Host.Outcome State Fault Refusal :=
  .next { s with dev := onHost s.dev (fun d => mgmtQueueFrame d cls src payload) }

/-- ARP_REQUEST (R509). An ARP or neighbour solicitation for the device's address is answered. -/
def execArpRequest (v6 : Bool) (target requester : Nat) (s : State) : Host.Outcome State Fault Refusal :=
  .next { s with dev := onHost s.dev (fun d => arpRequest d v6 target requester) }

/-- RDMA_WRITE (R516). An RDMA WRITE is key-checked, translated and applied, or refused with a NAK. -/
def execRdmaWrite (qp op psn va rkey len : Nat) (bytes : List Byte) (ce : Bool) (s : State) : Host.Outcome State Fault
    Refusal :=
  .next { s with dev := onHost s.dev (fun d => rdmaWrite d qp op psn va rkey len bytes ce) }

/-- RDMA_READ (R516). An RDMA READ is key-checked, translated and answered, or refused with a NAK. -/
def execRdmaRead (qp psn va rkey len busy : Nat) (ce : Bool) (s : State) : Host.Outcome State Fault Refusal :=
  .next { s with dev := onHost s.dev (fun d => rdmaRead d qp psn va rkey len busy ce) }

/-- RDMA_ACK (R518). An ACK or NAK arrives for a queue pair and advances or retransmits. -/
def execRdmaAck (qp kind psn : Nat) (s : State) : Host.Outcome State Fault Refusal :=
  .next { s with dev := onHost s.dev (fun d => rdmaAck d qp kind psn) }

/-- READ_RESPONSE (R517). A read response for a host window READ lands. -/
def execReadResponse (qp psn : Nat) (bytes : List Byte) (ce : Bool) (s : State) : Host.Outcome State Fault Refusal :=
  .next { s with dev := onHost s.dev (fun d => readResponse d qp psn bytes ce) }

/-- CNP_RECEIVE (R513). A CNP halves the queue pair's transmit rate. -/
def execCnpReceive (qp : Nat) (s : State) : Host.Outcome State Fault Refusal :=
  .next { s with dev := onHost s.dev (fun d => cnpReceive d qp) }

/-- RATE_INCREASE (R513). 55 us without a CNP raises the queue pair's rate by 1/16 of the link rate. -/
def execRateIncrease (qp : Nat) (s : State) : Host.Outcome State Fault Refusal :=
  .next { s with dev := onUnit s.dev (fun d => rateIncrease d qp) }

/-- RETRANSMIT_TIMEOUT (R518). A queue pair's ACK timeout expires and it retransmits go-back-N or enters error. -/
def execRetransmitTimeout (qp : Nat) (s : State) : Host.Outcome State Fault Refusal :=
  .next { s with dev := onUnit s.dev (fun d => retransmitTimeout d qp) }

/-- PFC_PAUSE (R512). A PFC pause halts transmission of classes on that priority. -/
def execPfcPause (prio quanta : Nat) (s : State) : Host.Outcome State Fault Refusal :=
  .next { s with dev := onHost s.dev (fun d => pfcPause d prio quanta) }

/-- PFC_PAUSE_REFRESH (R512). Every half quanta period above the mark the port sends the pause again. -/
def execPfcPauseRefresh (prio used : Nat) (s : State) : Host.Outcome State Fault Refusal :=
  .next { s with dev := onUnit s.dev (fun d => pfcPauseRefresh d prio used) }

/-- PFC_STORM (R512). A transmit pause passes HpPfcStormUs and 0x4B07 is raised. -/
def execPfcStorm (prio : Nat) (s : State) : Host.Outcome State Fault Refusal :=
  .next { s with dev := onUnit s.dev (fun d => pfcStorm d prio) }

/-- QP_RESET (R519). A write returns a queue pair to ready with its IPSN and drops outstanding work. -/
def execQpReset (qp : Nat) (s : State) : Host.Outcome State Fault Refusal :=
  .next { s with dev := onObject s.dev 0xB033 0 (fun d => qpReset d qp) }

/-- PTP_SYNC (R520). A Sync message is timestamped and used to measure offset. -/
def execPtpSync (domain src seq : Nat) (twoStep : Bool) (origin rx : Nat) (s : State) : Host.Outcome State Fault
    Refusal :=
  .next { s with dev := onHost s.dev (fun d => ptpSync d domain src seq twoStep origin rx) }

/-- PTP_FOLLOW_UP (R520). A Follow_Up supplies the two-step Sync origin time. -/
def execPtpFollowUp (domain src seq origin : Nat) (s : State) : Host.Outcome State Fault Refusal :=
  .next { s with dev := onHost s.dev (fun d => ptpFollowUp d domain src seq origin) }

/-- PTP_DELAY_RESP (R520). A Delay_Resp completes a path delay measurement and the clock is stepped or slewed. -/
def execPtpDelayResp (domain src seq t4 : Nat) (s : State) : Host.Outcome State Fault Refusal :=
  .next { s with dev := onHost s.dev (fun d => ptpDelayResp d domain src seq t4) }

/-- PTP_ANNOUNCE (R520). An Announce feeds the best time transmitter choice. -/
def execPtpAnnounce (domain : Nat) (dataset : List Nat) (s : State) : Host.Outcome State Fault Refusal :=
  .next { s with dev := onHost s.dev (fun d => ptpAnnounce d domain dataset) }

/-- PTP_ANNOUNCE_TIMEOUT (R522). Three Announce intervals pass without the time transmitter and the clock enters
holdover. -/
def execPtpAnnounceTimeout (s : State) : Host.Outcome State Fault Refusal :=
  .next { s with dev := onUnit s.dev (fun d => ptpAnnounceTimeout d) }

/-- PAUSE_QUANTA_EXPIRY (R512). The quanta of a received IEEE 802.1Qbb pause run out and transmission on that priority
resumes. -/
def execPauseQuantaExpiry (prio : Nat) (s : State) : Host.Outcome State Fault Refusal :=
  .next { s with dev := onUnit s.dev (fun d => pauseQuantaExpiry d prio) }

/-- UNMATCHED_FRAME (R509). A received host-port frame that matches no classification row is discarded and counted in
HpRxDiscarded. -/
def execUnmatchedFrame (s : State) : Host.Outcome State Fault Refusal :=
  .next { s with dev := onHost s.dev (fun d => unmatchedFrame d) }

end Sys2Proof.Machine
end

