-- ==== Sys2Proof/Machine/Upset.lean ====
section
/-! DEFINITION. Upsets of stored check bits (R618), and the scrubber's command. -/

namespace Sys2Proof.Machine

/-- Change one element of a list. -/
def changeAt {α : Type} (f : α → α) : Nat → List α → List α
  | _, [] => []
  | 0, x :: xs => f x :: xs
  | n + 1, x :: xs => x :: changeAt f n xs

/-- One upset: what it strikes holds wrong bits until it is written whole. DESIGN CHOICE, log 99. -/
def upset (d : Dev) : Upset → Dev
  | .word a true => { d with mem := markUe { d.mem with ce := d.mem.ce.filter (fun w => w != a / 4 * 4) } [a / 4 * 4] }
  | .word a false =>
    if (d.mem.ce ++ d.mem.ue).contains (a / 4 * 4) then d else { d with mem := { d.mem with ce := d.mem.ce ++ [a / 4 * 4] } }
  | .sem g n => setSem d (semKey g n) { semAt d (semKey g n) with bad := true }
  | .descriptor f q i =>
    let e := feAt d f
    setFe d f { e with queues := tset e.queues q (changeAt (fun x => { x with bad := true }) i (tget [] e.queues q)) }
  | .pair e true => { d with sup := { d.sup with badActive := e :: d.sup.badActive.filter (fun x => x != e) } }
  | .pair e false => { d with sup := { d.sup with badIdle := e :: d.sup.badIdle.filter (fun x => x != e) } }
  | .mask c i => setVc d c { vcAt d c with badMasks := i :: (vcAt d c).badMasks.filter (fun x => x != i) }
  | .entry q i =>
    match (sqAt d q).resident[i]? with
    | some e => setSq d q { sqAt d q with bad := e :: (sqAt d q).bad.erase e }
    | none => d
  | .relay q v i =>
    let x := quadAt d q
    if i < (tget [] x.rx v).length then setQuad d q { x with rxBad := tset x.rxBad v (i :: (tget [] x.rxBad v).erase i) } else d
  | .record k => { d with mem := { d.mem with badRecs := k :: d.mem.badRecs.filter (fun x => x != k) } }

/-- R620: a scrubber's interval expires. What has been upset since the last command comes with it. DESIGN CHOICE, log 99. -/
def scrubTick (d : Dev) (u : Nat) (us : List Upset) : Dev := scrubLine (us.foldl upset d) u

end Sys2Proof.Machine
end

