-- ==== Sys2Proof/Machine/ExecIntegrity.lean ====
section
/-! DEFINITION. Commands of data integrity and the check-value units (chapter 23). Each changes the device and leaves the queue alone. -/

namespace Sys2Proof.Machine

/-- SCRUB_LINE (R620). A scrubber interval expires and one line is read, corrected words written back. -/
def execScrubLine (unit : Nat) (upsets : List Upset) (s : State) : Host.Outcome State Fault Refusal :=
  .next { s with dev := onUnit s.dev (fun d => scrubTick d unit upsets) }

/-- CV_CONFIG (R628). A write selects a unit's polynomial and fold and resets its running value. -/
def execCvConfig (unit value : Nat) (s : State) : Host.Outcome State Fault Refusal :=
  .next { s with dev := onObject s.dev 0xD802 (unit + 1) (fun d => cvConfig d unit value) }

/-- CV_FEED8 (R629). One byte is fed into a check-value unit. -/
def execCvFeed8 (value : Nat) (s : State) : Host.Outcome State Fault Refusal :=
  .next { s with dev := onObject s.dev 0xD804 0 (fun d => cvFeed8 d value) }

/-- CV_FEED16 (R629). A half-word is fed into a check-value unit. -/
def execCvFeed16 (value : Nat) (s : State) : Host.Outcome State Fault Refusal :=
  .next { s with dev := onObject s.dev 0xD805 0 (fun d => cvFeed16 d value) }

/-- CV_FEED32 (R629). A word is fed into a check-value unit. -/
def execCvFeed32 (value : Nat) (s : State) : Host.Outcome State Fault Refusal :=
  .next { s with dev := onObject s.dev 0xD806 0 (fun d => cvFeed32 d value) }

/-- CV_SCAN (R630). A write starts a scan of device memory into a unit. -/
def execCvScan (record : Nat) (s : State) : Host.Outcome State Fault Refusal :=
  .next { s with dev := onObject s.dev 0xD807 0 (fun d => cvScan d record) }

/-- CV_SCAN_DONE (R631). A scan folds its last byte, or stops at an uncorrectable word with ERR. -/
def execCvScanDone (unit : Nat) (s : State) : Host.Outcome State Fault Refusal :=
  .next { s with dev := onUnit s.dev (fun d => cvScanDone d unit) }

/-- CV_FINISH (R632). A unit applies its fold and final XOR, writes the result and resets. -/
def execCvFinish (unit : Nat) (s : State) : Host.Outcome State Fault Refusal :=
  .next { s with dev := onObject s.dev 0xD808 0 (fun d => cvFinish d unit) }

/-- CV_STATE_LOAD (R634). A write loads a unit's running state and clears ERR. -/
def execCvStateLoad (unit value : Nat) (s : State) : Host.Outcome State Fault Refusal :=
  .next { s with dev := onObject s.dev 0xD803 (unit + 1) (fun d => cvStateLoad d unit value) }

/-- CV_COMPARE_SET (R639). Privileged code writes a compare channel's unit or EXPECT. -/
def execCvCompareSet (channel value : Nat) (s : State) : Host.Outcome State Fault Refusal :=
  .next { s with dev := onUnit s.dev (fun d => cvCompareSet d channel value) }

end Sys2Proof.Machine
end

