-- ==== Sys2Proof/Machine/ExecMemory.lean ====
section
/-! DEFINITION. Commands of memory, translation, fetch engines and semaphores (chapters 07 and 08). Each changes the device and leaves the queue alone. -/

namespace Sys2Proof.Machine

/-- CACHE_FILL_LANDS (R206). A near-memory cache fill lands and held writes to the line are applied in arrival order.
-/
def execCacheFillLands (line : Nat) (s : State) : Host.Outcome State Fault Refusal :=
  .next { s with dev := onUnit s.dev (fun d => cacheFillLands d line) }

/-- LINE_READ_RETURN (R245). A line read returns to a fetch engine, freeing one of its outstanding read slots. -/
def execLineReadReturn (ret : LineReturn) (s : State) : Host.Outcome State Fault Refusal :=
  .next { s with dev := onCluster s.dev (fun d => lineReadReturn d ret.fe ret.waited) }

/-- FAULT_QUEUE_SLOT_FREE (R225). A fault queue slot frees and a held faulting fetch engine posts its record. -/
def execFaultQueueSlotFree (fe waited : Nat) (s : State) : Host.Outcome State Fault Refusal :=
  .next { s with dev := onCluster s.dev (fun d => faultQueueSlotFree d fe waited) }

/-- XLAT_INVALIDATE (R220). A write names a job address range whose cached translations are to be dropped; the reply
is pending. -/
def execXlatInvalidate (addr len : Nat) (s : State) : Host.Outcome State Fault Refusal :=
  .next { s with dev := onObject s.dev 0x8033 0 (fun d => xlatInvalidate d addr len) }

/-- XLAT_INVALIDATE_DONE (R220). Every overlapping cached translation has been dropped and its accesses have taken
effect, and the invalidate completes. -/
def execXlatInvalidateDone (s : State) : Host.Outcome State Fault Refusal :=
  .next { s with dev := onUnit s.dev (fun d => xlatInvalidateDone d) }

/-- XLAT_RESUME (R226). A FID written to XlatResume frees its slot and the fetch engine translates again. -/
def execXlatResume (fid : Nat) (s : State) : Host.Outcome State Fault Refusal :=
  .next { s with dev := onObject s.dev 0x8035 0 (fun d => xlatResume d fid) }

/-- XLAT_FAIL (R226). A FID written to XlatFail frees its slot, ends the descriptor without signal and stops the
context. -/
def execXlatFail (fid : Nat) (s : State) : Host.Outcome State Fault Refusal :=
  .next { s with dev := onObject s.dev 0x8036 0 (fun d => xlatFail d fid) }

/-- FD_NOP (R721). A NOP descriptor becomes active after its wait, completes at once and signals in queue order. -/
def execFdNop (fe : Nat) (s : State) : Host.Outcome State Fault Refusal :=
  .next { s with dev := onCluster s.dev (fun d => fdNop d fe) }

/-- FD_LOAD (R239). A LOAD becomes active and writes its elements into the idle operand store halves of the masked
TUs. -/
def execFdLoad (fe : Nat) (reload : Bool) (s : State) : Host.Outcome State Fault Refusal :=
  .next { s with dev := onCluster s.dev (fun d => fdLoad d fe reload) }

/-- FD_JOIN (R723). A JOIN descriptor becomes active and feeds join values to the chain's join port. -/
def execFdJoin (fe : Nat) (s : State) : Host.Outcome State Fault Refusal :=
  .next { s with dev := onCluster s.dev (fun d => fdJoin d fe) }

/-- FD_SRC (R282). A SRC descriptor becomes active and feeds one memory-sourced block to the chain. -/
def execFdSrc (fe : Nat) (s : State) : Host.Outcome State Fault Refusal :=
  .next { s with dev := onCluster s.dev (fun d => fdSrc d fe) }

/-- FD_STORE (R236). A STORE descriptor becomes active and writes the chain's output port to memory. -/
def execFdStore (fe : Nat) (s : State) : Host.Outcome State Fault Refusal :=
  .next { s with dev := onCluster s.dev (fun d => fdStore d fe) }

/-- FD_COPY (R236). A COPY descriptor becomes active and copies memory to memory. -/
def execFdCopy (fe : Nat) (s : State) : Host.Outcome State Fault Refusal :=
  .next { s with dev := onCluster s.dev (fun d => fdCopy d fe) }

/-- FD_DRAIN (R269). A DRAIN enters all four queues and blocks later descriptors until it completes. -/
def execFdDrain (fe : Nat) (s : State) : Host.Outcome State Fault Refusal :=
  .next { s with dev := onCluster s.dev (fun d => fdDrain d fe) }

/-- FD_DRAIN_DONE (R722). A DRAIN's conditions all hold; it waits on EMPTYS and signals FULLS. -/
def execFdDrainDone (fe : Nat) (s : State) : Host.Outcome State Fault Refusal :=
  .next { s with dev := onCluster s.dev (fun d => fdDrainDone d fe) }

/-- DESCRIPTOR_COMPLETE (R244). All writes of a descriptor take effect and it signals FULLS in queue order. -/
def execDescriptorComplete (fe queue : Nat) (s : State) : Host.Outcome State Fault Refusal :=
  .next { s with dev := onCluster s.dev (fun d => descriptorComplete d fe queue) }

/-- DEADLINE_MISS (R264). In paced mode a descriptor passes its DLN deadline incomplete and the miss is counted. -/
def execDeadlineMiss (fe slot : Nat) (s : State) : Host.Outcome State Fault Refusal :=
  .next { s with dev := onCluster s.dev (fun d => deadlineMiss d fe slot) }

/-- SEM_SIGNAL (R255). A signal adds its amount to a semaphore's count at the bank's settle. -/
def execSemSignal (cluster num amount ctx : Nat) (s : State) : Host.Outcome State Fault Refusal :=
  .next { s with dev := onCluster s.dev (fun d => semSignal d cluster num amount ctx) }

/-- SEM_WAIT (R255). A unit presents a wait of amount n on a semaphore of its cluster. -/
def execSemWait (cluster num amount requester : Nat) (s : State) : Host.Outcome State Fault Refusal :=
  .next { s with dev := onCluster s.dev (fun d => semWaitCmd d cluster num amount requester) }

/-- SEM_WAIT_SUCCEED (R256). A blocked wait succeeds in arrival order once the count suffices, and the count is
reduced. -/
def execSemWaitSucceed (cluster num : Nat) (s : State) : Host.Outcome State Fault Refusal :=
  .next { s with dev := onCluster s.dev (fun d => semWaitSucceed d cluster num) }

/-- LATE_WAIT (R262). A wait blocked for SemLateCycles becomes late and is reported to the stage sequencer. -/
def execLateWait (cluster num : Nat) (s : State) : Host.Outcome State Fault Refusal :=
  .next { s with dev := onCluster s.dev (fun d => lateWait d cluster num) }

end Sys2Proof.Machine
end

