-- ==== Sys2Proof/Machine/ExecPower.lean ====
section
/-! DEFINITION. Commands of power, clocks, reset, start-up and JTAG (chapters 26 and 27). Each changes the device and leaves the queue alone. -/

namespace Sys2Proof.Machine

/-- INPUT_SAMPLE (R685). The input monitor samples voltage and current every 1 us. -/
def execInputSample (millivolts milliamps : Nat) (s : State) : Host.Outcome State Fault Refusal :=
  .next { s with dev := onPower s.dev (fun d => inputSample d millivolts milliamps) }

/-- POWER_FAIL (R686). The input below 38.0 V for 5 us stops every unit and holds reset. -/
def execPowerFail (s : State) : Host.Outcome State Fault Refusal :=
  .next { s with dev := powerFail s.dev }

/-- POWER_RESTORE (R686). The input at or above 39.0 V for 10 ms causes a power-fail recovery reset. -/
def execPowerRestore (s : State) : Host.Outcome State Fault Refusal :=
  .next { s with dev := powerRestore s.dev }

/-- OVERVOLTAGE_TRIP (R687). The input above 52.0 V for 5 us trips the device. -/
def execOvervoltageTrip (s : State) : Host.Outcome State Fault Refusal :=
  .next { s with dev := onPower s.dev (fun d => overvoltageTrip d) }

/-- DUTY_ADJUST (R689). Every 100 us the power duty is lowered or raised by one sixteenth. -/
def execDutyAdjust (s : State) : Host.Outcome State Fault Refusal :=
  .next { s with dev := onUnit s.dev (fun d => dutyAdjust d) }

/-- SENSOR_SAMPLE (R690). Every 10 us the die sensors are read and the thermal duty adjusted. -/
def execSensorSample (temps : List F32) (s : State) : Host.Outcome State Fault Refusal :=
  .next { s with dev := onPower s.dev (fun d => sensorSample d temps) }

/-- THERMAL_TRIP (R692). A sensor at 115 C asserts THERMTRIP_N and powers down the core rails. -/
def execThermalTrip (s : State) : Host.Outcome State Fault Refusal :=
  .next { s with dev := onPower s.dev (fun d => thermalTrip d) }

/-- REFCLK_LOSS (R696). A reference input shows no edge for 1 us and is declared lost. -/
def execRefclkLoss (which seqIdle feHeld : Nat) (s : State) : Host.Outcome State Fault Refusal :=
  .next { s with dev := onUnit s.dev (fun d => refclkLoss d which seqIdle feHeld) }

/-- PLL_UNLOCK (R696). A PLL loses lock with the effect its domain gives. -/
def execPllUnlock (which seqIdle feHeld : Nat) (s : State) : Host.Outcome State Fault Refusal :=
  .next { s with dev := onUnit s.dev (fun d => pllUnlock d which seqIdle feHeld) }

/-- PIN_RESET (R712). RESET_N low for 1 us or more resets the device. -/
def execPinReset (s : State) : Host.Outcome State Fault Refusal :=
  .next { s with dev := pinReset s.dev }

/-- RESET_COMMAND (R700). A write of 1 requests a device reset after the tick's replies. -/
def execResetCommand (value : Nat) (s : State) : Host.Outcome State Fault Refusal :=
  .next { s with dev := onObject s.dev 0xE004 0 (fun d => resetCommand d value) }

/-- RESET_TAKE_EFFECT (R700). 100 us after a reset command the reset takes effect. -/
def execResetTakeEffect (s : State) : Host.Outcome State Fault Refusal :=
  .next { s with dev := onMgmt s.dev (fun d => resetTakeEffect d) }

/-- WATCHDOG_EXPIRY (R698). The management watchdog is not serviced in time and the device resets. -/
def execWatchdogExpiry (s : State) : Host.Outcome State Fault Refusal :=
  .next { s with dev := onMgmt s.dev (fun d => watchdogExpiry d) }

/-- STARTUP_STEP (R701). A start-up step passes and the next one begins. -/
def execStartupStep (info : StartInfo) (s : State) : Host.Outcome State Fault Refusal :=
  .next { s with dev := onUnit s.dev (fun d => startupStep d info) }

/-- STARTUP_TIMEOUT (R701). A start-up step exceeds its budget and fails. -/
def execStartupTimeout (us unit : Nat) (s : State) : Host.Outcome State Fault Refusal :=
  .next { s with dev := onUnit s.dev (fun d => startupTimeout d us unit) }

/-- FAR_INIT_DONE (R703). Far memory initialisation completes on every site and scrubbing starts. -/
def execFarInitDone (s : State) : Host.Outcome State Fault Refusal :=
  .next { s with dev := onUnit s.dev (fun d => farInitDone d) }

/-- JTAG_BYPASS (R715). The BYPASS instruction selects the one-bit bypass register. -/
def execJtagBypass (s : State) : Host.Outcome State Fault Refusal :=
  .next { s with dev := onPower s.dev (fun d => jtagBypass d) }

/-- JTAG_IDCODE (R716). The IDCODE instruction shifts out the device identification register. -/
def execJtagIdcode (s : State) : Host.Outcome State Fault Refusal :=
  .next { s with dev := onPower s.dev (fun d => jtagIdcode d) }

/-- JTAG_SAMPLE_PRELOAD (R715). SAMPLE/PRELOAD samples the 1.8 V CMOS lands and loads the output cells. -/
def execJtagSamplePreload (lands cells : Nat) (s : State) : Host.Outcome State Fault Refusal :=
  .next { s with dev := onPower s.dev (fun d => jtagSamplePreload d lands cells) }

/-- JTAG_EXTEST (R717). EXTEST drives the output cells onto the lands while RESET_N is low. -/
def execJtagExtest (lands : Nat) (s : State) : Host.Outcome State Fault Refusal :=
  .next { s with dev := onPower s.dev (fun d => jtagExtest d lands) }

/-- JTAG_EXTEST_PULSE (R715). EXTEST_PULSE runs the IEEE 1149.6 pulse test of the AC-coupled lanes. -/
def execJtagExtestPulse (lands : Nat) (s : State) : Host.Outcome State Fault Refusal :=
  .next { s with dev := onPower s.dev (fun d => jtagExtestPulse d lands) }

/-- JTAG_EXTEST_TRAIN (R715). EXTEST_TRAIN runs the IEEE 1149.6 train test of the AC-coupled lanes. -/
def execJtagExtestTrain (lands : Nat) (s : State) : Host.Outcome State Fault Refusal :=
  .next { s with dev := onPower s.dev (fun d => jtagExtestTrain d lands) }

/-- POWER_ON_RESET (R698). The 44 V input rises past 39.0 V with both references active for 1 ms, and the device
performs a power-on reset with cause 1. -/
def execPowerOnReset (s : State) : Host.Outcome State Fault Refusal :=
  .next { s with dev := powerOnReset s.dev }

/-- RESET_N_RELEASE (R698). RESET_N rises after being held low, releasing the device from reset into start-up step 1
and returning EXTEST lands to functional control. -/
def execResetNRelease (s : State) : Host.Outcome State Fault Refusal :=
  .next { s with dev := resetNRelease s.dev }

end Sys2Proof.Machine
end

