-- ==== Sys2Proof/Machine/ExecProgram.lean ====
section
/-! DEFINITION. Commands of the stage programs and the stage sequencer (chapter 09). Each changes the device and leaves the queue alone. -/

namespace Sys2Proof.Machine

/-- PROG_NOP (R280). A cluster sequencer issues a NOP program command. -/
def execProgNop (cluster : Nat) (s : State) : Host.Outcome State Fault Refusal :=
  .next { s with dev := onCluster s.dev (fun d => progNop d cluster) }

/-- PROG_TU (R280). The sequencer issues a TU command word to each TU in TMASK, setting SHD and SHP unless SHOWN. -/
def execProgTu (cluster : Nat) (s : State) : Host.Outcome State Fault Refusal :=
  .next { s with dev := onCluster s.dev (fun d => progTu d cluster) }

/-- PROG_FD (R280). The sequencer issues a fetch descriptor with register-adjusted addresses into the engine's queue.
-/
def execProgFd (cluster : Nat) (s : State) : Host.Outcome State Fault Refusal :=
  .next { s with dev := onCluster s.dev (fun d => progFd d cluster) }

/-- PROG_PASS (R281). The sequencer opens a vector chain pass with slot, mask and position settings. -/
def execProgPass (cluster : Nat) (s : State) : Host.Outcome State Fault Refusal :=
  .next { s with dev := onCluster s.dev (fun d => progPass d cluster) }

/-- PROG_WAIT (R280). The sequencer waits on a semaphore and issues nothing more until the wait succeeds. -/
def execProgWait (cluster : Nat) (s : State) : Host.Outcome State Fault Refusal :=
  .next { s with dev := onCluster s.dev (fun d => progWait d cluster) }

/-- PROG_SIG (R280). The sequencer signals a semaphore of any cluster. -/
def execProgSig (cluster : Nat) (s : State) : Host.Outcome State Fault Refusal :=
  .next { s with dev := onCluster s.dev (fun d => progSig d cluster) }

/-- PROG_SETA (R280). The sequencer sets an address register. -/
def execProgSeta (cluster : Nat) (s : State) : Host.Outcome State Fault Refusal :=
  .next { s with dev := onCluster s.dev (fun d => progSeta d cluster) }

/-- PROG_ADDA (R280). The sequencer adds a signed value to an address register modulo 2^48. -/
def execProgAdda (cluster : Nat) (s : State) : Host.Outcome State Fault Refusal :=
  .next { s with dev := onCluster s.dev (fun d => progAdda d cluster) }

/-- PROG_LOOP (R280). The sequencer opens a loop run count times. -/
def execProgLoop (cluster : Nat) (s : State) : Host.Outcome State Fault Refusal :=
  .next { s with dev := onCluster s.dev (fun d => progLoop d cluster) }

/-- PROG_ENDL (R280). The sequencer closes the innermost loop, repeating or leaving it. -/
def execProgEndl (cluster : Nat) (s : State) : Host.Outcome State Fault Refusal :=
  .next { s with dev := onCluster s.dev (fun d => progEndl d cluster) }

/-- PROG_YIELD (R287). The sequencer passes a switch point, where a pending switch may be made. -/
def execProgYield (cluster : Nat) (s : State) : Host.Outcome State Fault Refusal :=
  .next { s with dev := onCluster s.dev (fun d => progYield d cluster) }

/-- PROG_GATH (R341). A GATH asks the version store for the gathered parameter at the task's bound version. -/
def execProgGath (cluster : Nat) (s : State) : Host.Outcome State Fault Refusal :=
  .next { s with dev := onCluster s.dev (fun d => progGath d cluster) }

/-- PROG_BKT (R280). The sequencer issues a BKT for a bucket of the task. -/
def execProgBkt (cluster : Nat) (s : State) : Host.Outcome State Fault Refusal :=
  .next { s with dev := onCluster s.dev (fun d => progBkt d cluster) }

/-- PROG_EMIT (R284). An EMIT is issued and completes on its cluster when every earlier write of the task has taken
effect. -/
def execProgEmit (cluster : Nat) (s : State) : Host.Outcome State Fault Refusal :=
  .next { s with dev := onCluster s.dev (fun d => progEmit d cluster) }

/-- PROG_END (R280). The routine ends on this cluster. -/
def execProgEnd (cluster : Nat) (s : State) : Host.Outcome State Fault Refusal :=
  .next { s with dev := onCluster s.dev (fun d => progEnd d cluster) }

/-- EMIT_COMPLETE (R284). When EMIT has completed on every cluster, the manager writes the outbound spawn entry. -/
def execEmitComplete (task : Nat) (s : State) : Host.Outcome State Fault Refusal :=
  .next { s with dev := onCluster s.dev (fun d => emitComplete d task) }

/-- TASK_COMPLETE (R284). A task completes on all its clusters and its grants, references and records are released. -/
def execTaskComplete (task : Nat) (s : State) : Host.Outcome State Fault Refusal :=
  .next { s with dev := onCluster s.dev (fun d => taskComplete d task) }

/-- TASK_DEQUEUE (R286). A ready task is selected and dequeued for all clusters of its context, starting it. -/
def execTaskDequeue (cluster held idle : Nat) (s : State) : Host.Outcome State Fault Refusal :=
  .next { s with dev := onCluster s.dev (fun d => taskDequeue d cluster held idle) }

/-- FRAME_ASSIGN (R275). A context with a ready task is given a free frame, evicting a candidate if needed. -/
def execFrameAssign (ctx waited : Nat) (s : State) : Host.Outcome State Fault Refusal :=
  .next { s with dev := onCluster s.dev (fun d => frameAssign d ctx waited) }

/-- SWAP_IN_DONE (R276). A swap-in has read back the context record, semaphores, configuration table and mask
descriptors. -/
def execSwapInDone (ctx : Nat) (s : State) : Host.Outcome State Fault Refusal :=
  .next { s with dev := onCluster s.dev (fun d => swapInDone d ctx) }

/-- TASK_SWITCH (R289). At a switch point the cluster fences, suspends and drains, saves the outgoing task and loads
the incoming one. -/
def execTaskSwitch (cluster : Nat) (s : State) : Host.Outcome State Fault Refusal :=
  .next { s with dev := onCluster s.dev (fun d => taskSwitch d cluster) }

/-- JOB_START (R295). START sets the step to SsStartStep and admits tasks, after the offset and generation checks. -/
def execJobStart (s : State) : Host.Outcome State Fault Refusal :=
  .next { s with dev := onObject s.dev 0x6022 0 (fun d => jobStart d) }

/-- JOB_STOP (R295). STOP makes the next step boundary end with the job idle. -/
def execJobStop (s : State) : Host.Outcome State Fault Refusal :=
  .next { s with dev := onObject s.dev 0x6022 0 (fun d => jobStop d) }

/-- JOB_HALT (R295). HALT stops every context and leaves the job halted. -/
def execJobHalt (s : State) : Host.Outcome State Fault Refusal :=
  .next { s with dev := onObject s.dev 0x6022 0 (fun d => jobHalt d) }

/-- STEP_END (R293). A context reaches its step end and admits no further task. -/
def execStepEnd (ctx : Nat) (s : State) : Host.Outcome State Fault Refusal :=
  .next { s with dev := onUnit s.dev (fun d => stepEnd d ctx) }

/-- BOUNDARY_BEGIN (R270). All contexts are at step end; DRAINs and FENCEs are placed on every engine and TU. -/
def execBoundaryBegin (s : State) : Host.Outcome State Fault Refusal :=
  .next { s with dev := onUnit s.dev (fun d => boundaryBegin d) }

/-- BOUNDARY_WORK (R294). With drains done and step versions present, close_step, torpor tests, staged generation and
table swap run. -/
def execBoundaryWork (s : State) : Host.Outcome State Fault Refusal :=
  .next { s with dev := onUnit s.dev (fun d => boundaryWork d) }

/-- STEP_ADVANCE (R390). SsStep and ROFF become n + 1, counts reset and tasks of the next step are admitted. -/
def execStepAdvance (us : Nat) (s : State) : Host.Outcome State Fault Refusal :=
  .next { s with dev := onUnit s.dev (fun d => stepAdvance d us) }

/-- BOUNDARY_TIMEOUT (R294). The version wait of a boundary passes SsBoundaryTimeout and 0x8608 is raised. -/
def execBoundaryTimeout (s : State) : Host.Outcome State Fault Refusal :=
  .next { s with dev := onUnit s.dev (fun d => boundaryTimeout d) }

/-- CONTEXT_STOPPED (R296). After a unit fault every unit has finished for the context, which becomes stopped with
event 0x8603. -/
def execContextStopped (ctx : Nat) (s : State) : Host.Outcome State Fault Refusal :=
  .next { s with dev := onUnit s.dev (fun d => contextStopped d ctx) }

/-- STOP_AT_STEP (R502). A write sets, replaces or cancels the step whose closing boundary stops the job. -/
def execStopAtStep (step : Nat) (s : State) : Host.Outcome State Fault Refusal :=
  .next { s with dev := onObject s.dev 0x6026 0 (fun d => stopAtStep d step) }

/-- SWAP_OUT_DONE (R276). A context swap-out finishes writing its record and semaphore words to the spill region,
freeing the frame for the waiting context. -/
def execSwapOutDone (ctx : Nat) (s : State) : Host.Outcome State Fault Refusal :=
  .next { s with dev := onCluster s.dev (fun d => swapOutDone d ctx) }

end Sys2Proof.Machine
end

