-- ==== Sys2Proof/Machine/ExecRandom.lean ====
section
/-! DEFINITION. Commands of the random units (chapter 13). Each changes the device and leaves the queue alone. -/

namespace Sys2Proof.Machine

/-- RNG_FILL (R386). A write fills COUNT elements with random values of one distribution while idle. -/
def execRngFill (record : Nat) (s : State) : Host.Outcome State Fault Refusal :=
  .next { s with dev := onObject s.dev 0xCE40 0 (fun d => rngFill d record) }

/-- RNG_FILL_DONE (R388). A fill completes or stops at an unusable page, and its reply is sent. -/
def execRngFillDone (s : State) : Host.Outcome State Fault Refusal :=
  .next { s with dev := onUnit s.dev (fun d => rngFillDone d) }

/-- RNG_PROBE (R389). A probe write makes the probe object return the generator block and draw at a position. -/
def execRngProbe (select : Nat) (s : State) : Host.Outcome State Fault Refusal :=
  .next { s with dev := onObject s.dev 0xCE30 0 (fun d => rngProbe d select) }

end Sys2Proof.Machine
end

