-- ==== Sys2Proof/Machine/ExecRelay.lean ====
section
/-! DEFINITION. Commands of the Relay links (chapter 14). Each changes the device and leaves the queue alone. -/

namespace Sys2Proof.Machine

/-- QUAD_TRAIN (R404). A quad steps through signal detect, FEC lock, TRAIN exchange, credit set-up and first croak. -/
def execQuadTrain (quad : Nat) (info : TrainInfo) (s : State) : Host.Outcome State Fault Refusal :=
  .next { s with dev := onUnit s.dev (fun d => quadTrain d quad info) }

/-- TRAIN_TIMEOUT (R404). A quad not up within RelayTrainTimeout is down. -/
def execTrainTimeout (quad : Nat) (s : State) : Host.Outcome State Fault Refusal :=
  .next { s with dev := onUnit s.dev (fun d => trainTimeout d quad) }

/-- QUAD_RETRAIN (R434). A write retrains the named quads from step 1 of bring-up. -/
def execQuadRetrain (mask : Nat) (s : State) : Host.Outcome State Fault Refusal :=
  .next { s with dev := onObject s.dev 0x9060 0 (fun d => quadRetrain d mask) }

/-- RETRAIN_TIMEOUT (R434). A retrain that has not ended within 1 ms leaves the quad down. -/
def execRetrainTimeout (quad : Nat) (s : State) : Host.Outcome State Fault Refusal :=
  .next { s with dev := onUnit s.dev (fun d => retrainTimeout d quad) }

/-- DATA_FLIT (R409). A DATA flit is accepted, discarded as duplicate, or discarded with a NAK. -/
def execDataFlit (quad : Nat) (flit : DataFlit) (s : State) : Host.Outcome State Fault Refusal :=
  .next { s with dev := onUnit s.dev (fun d => dataFlit d quad flit) }

/-- CTRL_FLIT (R410). A CTRL flit delivers acknowledgements, NAKs and credits. -/
def execCtrlFlit (quad : Nat) (ack : FlitAck) (s : State) : Host.Outcome State Fault Refusal :=
  .next { s with dev := onUnit s.dev (fun d => ctrlFlit d quad ack) }

/-- IDLE_FLIT (R408). An IDLE flit's ack and credit fields are taken. -/
def execIdleFlit (quad : Nat) (ack : FlitAck) (s : State) : Host.Outcome State Fault Refusal :=
  .next { s with dev := onUnit s.dev (fun d => idleFlit d quad ack) }

/-- CROAK (R428). A CROAK arrives and the link hardware answers with a CROAK-REPLY. -/
def execCroak (quad : Nat) (body : CroakBody) (s : State) : Host.Outcome State Fault Refusal :=
  .next { s with dev := onUnit s.dev (fun d => croak d quad body) }

/-- CROAK_REPLY (R432). A CROAK-REPLY answers a croak, updating peer state and checking its device ID. -/
def execCroakReply (quad : Nat) (body : CroakBody) (s : State) : Host.Outcome State Fault Refusal :=
  .next { s with dev := onUnit s.dev (fun d => croakReply d quad body) }

/-- LANE_DROP (R433). A LANE-DROP flit names a new lane mask, which both ends switch to. -/
def execLaneDrop (quad mask : Nat) (s : State) : Host.Outcome State Fault Refusal :=
  .next { s with dev := onUnit s.dev (fun d => laneDrop d quad mask) }

/-- LANE_DROP_DETECT (R433). A lane loses lock or exceeds the symbol error threshold and a LANE-DROP is sent. -/
def execLaneDropDetect (quad lane : Nat) (s : State) : Host.Outcome State Fault Refusal :=
  .next { s with dev := onUnit s.dev (fun d => laneDropDetect d quad lane) }

/-- LANE_SIGNAL_LOSS (R430). All active lanes of a quad lose signal and the quad becomes down. -/
def execLaneSignalLoss (quad : Nat) (s : State) : Host.Outcome State Fault Refusal :=
  .next { s with dev := onUnit s.dev (fun d => laneSignalLoss d quad) }

/-- ACK_TIMER (R410). The 1 us acknowledgement interval expires with flits unacknowledged and an ack is sent. -/
def execAckTimer (quad : Nat) (s : State) : Host.Outcome State Fault Refusal :=
  .next { s with dev := onUnit s.dev (fun d => ackTimer d quad) }

/-- REPLAY_TIMEOUT (R411). The oldest unacknowledged flit sees no progress for 8 us and the sender replays. -/
def execReplayTimeout (quad : Nat) (s : State) : Host.Outcome State Fault Refusal :=
  .next { s with dev := onUnit s.dev (fun d => replayTimeout d quad) }

/-- CREDIT_RETURN_TIMER (R415). The 1 us credit return interval expires while credits are owed. -/
def execCreditReturnTimer (quad : Nat) (s : State) : Host.Outcome State Fault Refusal :=
  .next { s with dev := onUnit s.dev (fun d => creditReturnTimer d quad) }

/-- CREDIT_STALL (R417). A channel without credit past the stall limit raises 0x4912. -/
def execCreditStall (quad vc ns : Nat) (s : State) : Host.Outcome State Fault Refusal :=
  .next { s with dev := onUnit s.dev (fun d => creditStall d quad vc ns) }

/-- CROAK_TIMER (R428). Every 16 us an up quad sends a CROAK. -/
def execCroakTimer (quad : Nat) (s : State) : Host.Outcome State Fault Refusal :=
  .next { s with dev := onUnit s.dev (fun d => croakTimer d quad) }

/-- CROAK_WINDOW_CLOSE (R429). A croak reply window closes unanswered; the third miss makes the quad peer-lost. -/
def execCroakWindowClose (quad : Nat) (s : State) : Host.Outcome State Fault Refusal :=
  .next { s with dev := onUnit s.dev (fun d => croakWindowClose d quad) }

/-- MESSAGE_ROUTE (R423). A message header is buffered and the message is delivered locally or forwarded on a chosen
quad. -/
def execMessageRoute (quad vc : Nat) (s : State) : Host.Outcome State Fault Refusal :=
  .next { s with dev := onUnit s.dev (fun d => messageRoute d quad vc) }

end Sys2Proof.Machine
end

