-- ==== Sys2Proof/Machine/ExecSecurity.lean ====
section
/-! DEFINITION. Commands of the security block (chapter 24). Each changes the device and leaves the queue alone. -/

namespace Sys2Proof.Machine

/-- REVOKE_KEY (R649). A write blows a root key slot's revocation fuse. -/
def execRevokeKey (slot : Nat) (s : State) : Host.Outcome State Fault Refusal :=
  .next { s with dev := onObject s.dev 0xD003 0 (fun d => revokeKey d slot) }

/-- ROLLBACK_COMMIT (R650). A write raises the rollback floor by blowing fuses. -/
def execRollbackCommit (value good : Nat) (s : State) : Host.Outcome State Fault Refusal :=
  .next { s with dev := onObject s.dev 0xD021 0 (fun d => rollbackCommit d value good) }

/-- FLASH_ERASE (R651). A write erases an image region. -/
def execFlashErase (image : Nat) (s : State) : Host.Outcome State Fault Refusal :=
  .next { s with dev := onObject s.dev 0xD013 0 (fun d => flashErase d image) }

/-- FLASH_WRITE (R651). A write programs data into an image region. -/
def execFlashWrite (bytes : List Byte) (s : State) : Host.Outcome State Fault Refusal :=
  .next { s with dev := onObject s.dev 0xD014 0 (fun d => flashWrite d bytes) }

/-- IMAGE_VERIFY (R651). A write applies the boot checks to an image region. -/
def execImageVerify (image : Nat) (s : State) : Host.Outcome State Fault Refusal :=
  .next { s with dev := onObject s.dev 0xD015 0 (fun d => imageVerify d image) }

/-- BOOT_PREFER (R651). A write sets the preferred image in the older boot record copy. -/
def execBootPrefer (image : Nat) (s : State) : Host.Outcome State Fault Refusal :=
  .next { s with dev := onObject s.dev 0xD017 0 (fun d => bootPrefer d image) }

/-- FLASH_OPERATION_DONE (R651). An erase, program, verify or boot record write on the flash completes. -/
def execFlashOperationDone (region : Nat) (ok : Bool) (s : State) : Host.Outcome State Fault Refusal :=
  .next { s with dev := onMgmt s.dev (fun d => flashOperationDone d region ok) }

/-- ATTEST_NONCE (R654). A nonce write forms and signs a new attestation report. -/
def execAttestNonce (nonce : Nat) (s : State) : Host.Outcome State Fault Refusal :=
  .next { s with dev := onObject s.dev 0xD040 0 (fun d => attestNonce d nonce) }

/-- DEBUG_UNLOCK (R655). A signed JTAG challenge answer unlocks debug and disables the identity keys. -/
def execDebugUnlock (slot : Nat) (ok : Bool) (s : State) : Host.Outcome State Fault Refusal :=
  .next { s with dev := onMgmt s.dev (fun d => debugUnlock d slot ok) }

end Sys2Proof.Machine
end

