-- ==== Sys2Proof/Machine/ExecSpawn.lean ====
section
/-! DEFINITION. Commands of the spawn queues (chapter 10). Each changes the device and leaves the queue alone. -/

namespace Sys2Proof.Machine

/-- SQ_ENTRY_RECEIVE (R307). An arriving spawn entry is accepted, or discarded as duplicate, stale, misrouted or ahead
of window. -/
def execSqEntryReceive (queue entry : Nat) (s : State) : Host.Outcome State Fault Refusal :=
  .next { s with dev := onUnit s.dev (fun d => sqEntryReceive d queue entry) }

/-- SQ_DATA_WRITE (R306). A spawn data write lands in a granted receive slot or is discarded. -/
def execSqDataWrite (queue tag addr src id : Nat) (bytes : List Byte) (s : State) : Host.Outcome State Fault Refusal
    :=
  .next { s with dev := onUnit s.dev (fun d => sqDataWrite d queue tag addr src id bytes) }

/-- SQ_GRANT_RECEIVE (R304). A grant carrying a slot address arrives and is held for sending. -/
def execSqGrantReceive (ctx kind addr bytes : Nat) (s : State) : Host.Outcome State Fault Refusal :=
  .next { s with dev := onUnit s.dev (fun d => sqGrantReceive d ctx kind addr bytes) }

/-- SQ_POST (R314). A post forms a HEAD context forward entry for micro-batch k, or is refused. -/
def execSqPost (record : Nat) (s : State) : Host.Outcome State Fault Refusal :=
  .next { s with dev := onObject s.dev 0x6121 0 (fun d => sqPost d record) }

/-- SPILL_REFILL (R312). A queue whose resident count fell to half refills from spill, oldest first. -/
def execSpillRefill (queue : Nat) (s : State) : Host.Outcome State Fault Refusal :=
  .next { s with dev := onUnit s.dev (fun d => spillRefill d queue) }

/-- WRITE_DONE (R306). A Relay WRITE-DONE response arrives at the sender, telling it that spawn data writes have taken
effect at the receiver, so EMIT may complete and the entry be sent. -/
def execWriteDone (ctx id : Nat) (s : State) : Host.Outcome State Fault Refusal :=
  .next { s with dev := onUnit s.dev (fun d => writeDone d ctx id) }

end Sys2Proof.Machine
end

