-- ==== Sys2Proof/Machine/Syserid.lean ====
section
/-! DEFINITION. The Syserid protocol: frames, ticks, precedence, pending operations, the reply cache, event delivery
(R533 to R549). -/

namespace Sys2Proof.Machine

/-- Replace the protocol's state. -/
def setSy (d : Dev) (x : Sy) : Dev := { d with sy := x }

/-! ### Frames (R534 to R538) -/

/-- An operation record (R536). -/
structure SyRec where
  op : Nat
  idx : Nat
  sub : Nat
  status : Nat
  vlen : Nat
  ticket : Nat
  value : Nat
  deriving DecidableEq, Repr

/-- A frame that is not discarded. -/
inductive SyFrame where
  | request (node seq : Nat) (recs : List SyRec)
  | ack (events : Bool) (node seq : Nat)
  deriving DecidableEq, Repr

/-- The record a word starts, with its value. -/
def recOf (w : Nat) (value : List Byte) : SyRec :=
  { op := fld w 63 60, idx := fld w 59 44, sub := fld w 43 36, status := fld w 35 32, vlen := fld w 31 16, ticket := fld w 15 0
    value := leVal value }

/-- `n` records, which take every byte (R538). -/
def parseRecs : Nat → List Byte → Option (List SyRec)
  | 0, bs => if bs.isEmpty then some [] else none
  | n + 1, bs =>
    if bs.length < 8 then none
    else
      let w := beField (bs.take 8)
      let len := fld w 31 16
      let rest := bs.drop 8
      let pad := ceilDiv len 8 * 8
      if rest.length < pad then none
      else (parseRecs n (rest.drop pad)).map (fun rs => recOf w (rest.take len) :: rs)

/-- A frame as received, none when it is discarded (R538). DEDUCED, log 68. -/
def parseFrame (bs : List Byte) : Option SyFrame :=
  let h := beField (bs.take 16)
  let node := fld h 95 80
  let seq := fld h 79 48
  let nops := fld h 47 40
  let akind := fld h 97 96
  if bs.length < 16 ∨ 8192 < bs.length ∨ bs.length % 8 ≠ 0 then none
  else if fld h 127 112 ≠ 0x5359 ∨ fld h 111 108 ≠ 1 ∨ fld h 103 98 ≠ 0 ∨ fld h 23 0 ≠ 0 ∨ fld h 39 24 ≠ bs.length ∨ node = 0xFFFF then none
  else
    match fld h 107 104 with
    | 0 =>
      if akind ≠ 0 ∨ nops = 0 ∨ 32 < nops then none
      else (parseRecs nops (bs.drop 16)).map (.request node seq)
    | 4 => if 2 ≤ akind ∨ nops ≠ 0 ∨ bs.length ≠ 16 then none else some (.ack (akind == 1) node seq)
    | _ => none

/-- A record that gets FRAME (R538). -/
def recBad (r : SyRec) : Bool :=
  decide (2 < r.op) || decide (4096 < r.vlen) || r.status != 0 || r.ticket != 0 || (r.op != 1 && r.vlen != 0)

/-! ### Carrying an operation out -/

/-- Operations pending (R543). -/
def pendingOps (d : Dev) : Nat := (d.sy.pend.filter (fun p => p.final.isNone)).length

/-- A ticket no entry of the table uses. -/
def freeTicket (d : Dev) : Nat :=
  ((List.range 1024).map (fun i => (d.sy.nextTicket + i - 1) % 65535 + 1)).find? (fun t => d.sy.pend.all (fun p => p.ticket != t))
    |>.getD 1

/-- Where an operation comes from. -/
structure SyFrom where
  node : Nat
  seq : Nat
  src : Nat
  deriving DecidableEq, Repr

/-- A result without a ticket or a value. -/
def plainReply (idx sub status : Nat) : OpReply := { idx, sub, status, ticket := 0, len := 0, value := 0 }

/-- R543: the operation is pending, or gets BUSY when 64 are. `x` is the device once the operation has begun. -/
def makePending (d x : Dev) (f : SyFrom) (idx sub unit : Nat) : OpReply × Dev :=
  if 64 ≤ pendingOps d then
    (plainReply idx sub 8, raiseSec (bump d 0x1114 0 1) 0x4105 0 0)
  else
    let t := freeTicket d
    let p : SyPend := { ticket := t, node := f.node, seq := f.seq, src := f.src, idx, sub, unit, mark := x.out.length
                        final := none, sends := 0 }
    ({ idx, sub, status := 1, ticket := t, len := 0, value := 0 },
      setSy x { x.sy with pend := x.sy.pend ++ [p], nextTicket := t % 65535 + 1 })

/-- The reply of a write that has been carried out: PENDING takes a ticket. DEDUCED, log 68. -/
def settleWrite (d x : Dev) (f : SyFrom) (idx sub v : Nat) : OpReply × Dev :=
  match writeStatus d x idx with
  | 1 => makePending d x f idx sub (pendUnit idx v)
  | 8 => (plainReply idx sub 8, raiseSec (bump x 0x1114 0 1) 0x4105 0 0)
  | st => (plainReply idx sub st, x)

/-- The checks a write fails on its own (R540): its status, 0 when it passes. DESIGN CHOICE, log 67. -/
def ownCheck (d : Dev) (i : OpInfo) (r : SyRec) : Nat :=
  if recBad r then 9
  else
    match objRow r.idx r.sub with
    | none => if (accessOf r.idx r.sub).isSome then 3 else 2
    | some o =>
      if o.acc = .ro ∨ o.acc = .const then 3
      else if r.vlen ≠ o.bytes ∧ r.idx ≠ 0xD014 then 4
      else if o.acc = .rs then
        if !rangeOk o r.value then 5 else (stageWrite d r.idx r.sub r.value).1
      else if o.isBool && decide (1 < r.value) then 5
      else
        match writeStatus d (writeEffect d i r.idx r.sub r.vlen r.value) r.idx with
        | 4 => 4
        | 5 => 5
        | _ => 0

/-- Stage records; the limits of R553 are checked again, for earlier writes of the tick have taken room. -/
def stageRecs (d : Dev) (es : List (Nat × Nat)) : Nat × Dev :=
  let t := stageAll d.gn.staged es
  if stageFits t then (0, { d with gn := { d.gn with staged := t } }) else (6, d)

/-- Carry out a write that passed its own checks; `es` are the records it keeps when it stages. -/
def serveWrite (d : Dev) (i : OpInfo) (f : SyFrom) (r : SyRec) (es : List (Nat × Nat)) : OpReply × Dev :=
  if !servedNow d r.idx r.sub 1 then (plainReply r.idx r.sub 6, d)
  else if d.rc.wedged && !servedLocally r.idx r.sub 1 then makePending d d f r.idx r.sub 256
  else if accessOf r.idx r.sub = some .rs then
    let x := stageRecs d es
    (plainReply r.idx r.sub x.1, x.2)
  else settleWrite d (writeEffect d i r.idx r.sub r.vlen r.value) f r.idx r.sub r.value

/-- The reply of a read that is served. -/
def readAnswer (d : Dev) (idx sub : Nat) (staged : Bool) : OpReply :=
  match objRow idx sub with
  | none => { idx, sub, status := 0, ticket := 0, len := 1, value := rowCount idx }
  | some o =>
    let v := if staged && o.acc == .rs then
        (if isKeyed idx then recValue (stageKey idx 0 0) (stagedAt d (stageKey idx 0 0)) else stagedAt d (stageKey idx sub 0))
      else readObj d idx sub
    { idx, sub, status := 0, ticket := 0, len := o.bytes, value := v % 2 ^ (8 * o.bytes) }

/-- Carry out a READ or READ-STAGED. -/
def serveRead (d : Dev) (f : SyFrom) (r : SyRec) : OpReply × Dev :=
  match accessOf r.idx r.sub with
  | none => (plainReply r.idx r.sub 2, d)
  | some .wo => (plainReply r.idx r.sub 3, d)
  | some _ =>
    if !servedNow d r.idx r.sub r.op then (plainReply r.idx r.sub 6, d)
    else if d.rc.wedged && !servedLocally r.idx r.sub r.op then makePending d d f r.idx r.sub 256
    else (readAnswer d r.idx r.sub (r.op == 2), d)

/-- Send the record of a reply. -/
def sendReply (d : Dev) (f : SyFrom) (p : OpReply) : Dev :=
  send d (.reply f.node f.seq p.idx p.sub p.status p.ticket p.value)

/-! ### One operation on its own (R529, R536) -/

/-- Carry out one record and reply; a write whose staging exceeds the limits raises 0x4209 (R553). -/
def serveOne (d : Dev) (i : OpInfo) (f : SyFrom) (r : SyRec) : Dev :=
  if recBad r then sendReply d f (plainReply r.idx r.sub 9)
  else if r.op ≠ 1 then
    let x := serveRead d f r
    sendReply x.2 f x.1
  else
    match ownCheck d i r with
    | 0 =>
      let x := serveWrite d i f r (writeRecs r.idx r.sub r.value)
      sendReply x.2 f x.1
    | st =>
      let full := st == 6 && servedNow d r.idx r.sub 1 && accessOf r.idx r.sub == some .rs
      sendReply (if full then raise d 0x4209 r.idx 0 else d) f (plainReply r.idx r.sub st)

/-- R536: a READ, a READ-STAGED and a WRITE. DESIGN CHOICE, log 67. -/
def syseridRead (d : Dev) (node seq idx sub : Nat) : Dev :=
  serveOne d { seqIdle := 0, feHeld := 0, fuses := 0 } { node, seq, src := 0 }
    { op := 0, idx, sub, status := 0, vlen := 0, ticket := 0, value := 0 }
def syseridReadStaged (d : Dev) (node seq idx sub : Nat) : Dev :=
  serveOne d { seqIdle := 0, feHeld := 0, fuses := 0 } { node, seq, src := 0 }
    { op := 2, idx, sub, status := 0, vlen := 0, ticket := 0, value := 0 }
def syseridWrite (d : Dev) (node seq idx sub len value : Nat) (i : OpInfo) : Dev :=
  serveOne d i { node, seq, src := 0 } { op := 1, idx, sub, status := 0, vlen := len, ticket := 0, value := value % 2 ^ (8 * len) }

/-! ### Pending operations (R543) -/

/-- The final status of a pending operation that has ended. -/
def doneIn (idx unit : Nat) : List OutMsg → Option Nat
  | [] => none
  | .done i u s :: ms => if i = idx ∧ u = unit then some s else doneIn idx unit ms
  | _ :: ms => doneIn idx unit ms

/-- The cached reply with a pending record's final status. -/
def cacheFinal (c : List SyCache) (p : SyPend) (st : Nat) : List SyCache :=
  c.map (fun e => if e.node = p.node ∧ e.seq = p.seq then
    { e with reply := e.reply.map (fun r => if r.ticket = p.ticket then { r with status := st, ticket := 0 } else r) } else e)

/-- A pending operation ends: its COMPLETE frame is sent for the first time. -/
def finishPend (d : Dev) (p : SyPend) (st : Nat) : Dev :=
  send (setSy d { d.sy with
    pend := d.sy.pend.map (fun q => if q = p then { q with final := some st, sends := 1 } else q)
    cache := cacheFinal d.sy.cache p st }) (.complete p.node p.seq p.ticket st 0)

/-- The operation that holds a ticket and has not ended. -/
def pendOf (d : Dev) (ticket : Nat) : Option SyPend := d.sy.pend.find? (fun p => p.ticket == ticket && p.final.isNone)

/-- R543: a pending operation that its unit has ended is completed. -/
def pendingComplete (d : Dev) (ticket : Nat) : Dev :=
  match pendOf d ticket with
  | none => d
  | some p =>
    match doneIn p.idx p.unit (d.out.drop p.mark) with
    | some st => finishPend d p st
    | none => d

/-- R543: an unacknowledged COMPLETE is sent again, 16 times in all. -/
def completeResend (d : Dev) (ticket : Nat) : Dev :=
  match d.sy.pend.find? (fun p => p.ticket == ticket && p.final.isSome) with
  | none => d
  | some p =>
    let n := p.sends + 1
    let pend := if 16 ≤ n then d.sy.pend.erase p else d.sy.pend.map (fun q => if q = p then { q with sends := n } else q)
    send (setSy d { d.sy with pend }) (.complete p.node p.seq p.ticket (p.final.getD 0) 0)

/-- R543: an ACK acknowledges every COMPLETE of its request that has been sent. -/
def ackComplete (d : Dev) (node seq : Nat) : Dev :=
  setSy d { d.sy with pend := d.sy.pend.filter (fun p => !(p.node == node && p.seq == seq && p.final.isSome)) }

/-- R543, R612: no progress for SyStallTimeout: the operation completes with WEDGED. -/
def stallTimeout (d : Dev) (ticket seqIdle feHeld : Nat) : Dev :=
  match pendOf d ticket with
  | none => d
  | some p =>
    if (doneIn p.idx p.unit (d.out.drop p.mark)).isSome then d
    else wedge (raise (finishPend d p 0xA) 0x8104 p.idx p.ticket) 1 seqIdle feHeld

/-! ### Event delivery (R549) -/

/-- ESEQ `a` is at or after `b`, modulo 2^32. -/
def seqGe (a b : Nat) : Bool := decide ((a + (2 ^ 32 - b)) % 2 ^ 32 < 2 ^ 31)

/-- A row's severity and subsystem filter lets an event pass. -/
def rowTakes (d : Dev) (row code : Nat) : Bool :=
  let v := cfg d 0x1120 row
  decide (fld v 253 250 ≤ fld code 15 12) && bitAt (fld v 95 80) (fld code 11 8)

/-- ESEQs of the logged events of a row at or after `from_`, oldest first. -/
def rowEvents (d : Dev) (row from_ : Nat) : List Nat :=
  (d.ev.log.filter (fun e => seqGe e.eseq from_ && rowTakes d row e.code)).map EvRec.eseq

/-- Groups of up to 32. -/
def groups32 : Nat → List Nat → List (List Nat)
  | 0, _ => []
  | n + 1, l => if l.isEmpty then [] else l.take 32 :: groups32 n (l.drop 32)

/-- Replace a row's delivery. -/
def setSub (d : Dev) (row : Nat) (s : Subscriber) : Dev := { d with ev := { d.ev with subs := tset d.ev.subs row s } }

/-- Send a row what it has not been sent, with at most 256 records unacknowledged. -/
def pumpRow (d : Dev) (row : Nat) : Dev :=
  match tfind d.ev.subs row with
  | none => d
  | some s =>
    let open_ := ((rowEvents d row s.base).filter (fun e => !seqGe e s.next)).length
    let es := (rowEvents d row s.next).take (256 - open_)
    match es.getLast? with
    | none => d
    | some l =>
      (groups32 (es.length + 1) es).foldl (fun x g => send x (.eventFrame row g)) (setSub d row { s with next := (l + 1) % 2 ^ 32 })

/-- Send every active row what it has not been sent. -/
def pumpRows (d : Dev) : Dev :=
  [1, 2, 3, 4].foldl (fun x r =>
    match tfind x.ev.subs r with
    | some s => if s.stalled then x else pumpRow x r
    | none => x) d

/-- R549: an ACK of events up to `eseq`. -/
def ackEvents (d : Dev) (row eseq : Nat) : Dev :=
  match tfind d.ev.subs row with
  | none => d
  | some s =>
    let b := (eseq + 1) % 2 ^ 32
    if seqGe b s.base && seqGe s.next b then
      pumpRow (setSub d row { s with base := b, resends := 0, stalled := false }) row
    else d

/-- R549: 200 µs without progress: the records are sent again, and after 16 such resends the row is stalled. -/
def eventResend (d : Dev) (row : Nat) : Dev :=
  match tfind d.ev.subs row with
  | none => d
  | some s =>
    if s.stalled || (rowEvents d row s.base).isEmpty || s.base == s.next then d
    else if s.resends < 16 then pumpRow (setSub d row { s with next := s.base, resends := s.resends + 1 }) row
    else raise (setSub d row { s with stalled := true }) 0x4103 row 0

/-- R549: a stalled row is tried again. -/
def subscriberRetry (d : Dev) (row : Nat) : Dev :=
  match tfind d.ev.subs row with
  | none => d
  | some s => if s.stalled then pumpRow (setSub d row { s with next := s.base }) row else d

/-! ### The tick (R539 to R544) -/

/-- The address and port a row sends to, as a frame's source is numbered: address · 65,536 + port. -/
def rowSource (d : Dev) (row : Nat) : Nat := fld (cfg d 0x1120 row) 223 96 * 65536 + fld (cfg d 0x1120 row) 239 224

/-- A request taken in the tick. -/
structure SyReq where
  from_ : SyFrom
  recs : List SyRec
  content : List Byte
  deriving DecidableEq, Repr

/-- What a tick has taken: requests to serve, and repeats to answer. -/
structure SyTaken where
  dev : Dev
  reqs : List SyReq
  repeats : List SyReq
  deriving DecidableEq, Repr

/-- Entries of the reply cache, and how long one stays (R544). -/
def cacheSize : Nat := 1024
def cacheTime : Nat := 100000000

/-- Every record of a request answered alike. -/
def answerAll (d : Dev) (q : SyReq) (st : Nat) : Dev :=
  q.recs.foldl (fun x r => sendReply x q.from_ (plainReply r.idx r.sub st)) d

/-- R544: make room in the cache and enter a request, or answer BUSY. -/
def enterCache (t : SyTaken) (q : SyReq) : SyTaken :=
  let d := t.dev
  let young := match d.sy.cache with
    | e :: _ => decide (d.uptime < e.time + cacheTime)
    | [] => false
  if cacheSize ≤ d.sy.cache.length ∧ young = true then
    { t with dev := answerAll (raiseSec (bump d 0x1114 0 q.recs.length) 0x4105 0 0) q 8 }
  else
    let old := if cacheSize ≤ d.sy.cache.length then d.sy.cache.drop 1 else d.sy.cache
    let e : SyCache := { node := q.from_.node, seq := q.from_.seq, content := q.content, time := d.uptime, reply := [] }
    { t with dev := setSy d { d.sy with cache := old ++ [e] }, reqs := t.reqs ++ [q] }

/-- The cache entry of a request. -/
def cacheOf (d : Dev) (f : SyFrom) : Option SyCache := d.sy.cache.find? (fun e => e.node == f.node && e.seq == f.seq)

/-- One frame of the management queue. PTP event frames of class 1 are the PTP commands' matter. -/
def takeFrame (t : SyTaken) (m : MgmtFrame) : SyTaken :=
  if m.cls ≠ 0 then t
  else
    match parseFrame m.payload with
    | none => { t with dev := raiseSec (bump t.dev 0x1112 0 1) 0x4101 0 0 }
    | some (.ack false node seq) => { t with dev := ackComplete (bump t.dev 0x1110 0 1) node seq }
    | some (.ack true _ seq) =>
      { t with dev := [1, 2, 3, 4].foldl (fun x r => if rowSource x r = m.src then ackEvents x r seq else x)
                (bump t.dev 0x1110 0 1) }
    | some (.request node seq recs) =>
      let q : SyReq := { from_ := { node, seq, src := m.src }, recs, content := m.payload }
      let t1 := { t with dev := bump t.dev 0x1110 0 1 }
      if (cacheOf t1.dev q.from_).isSome then { t1 with repeats := t1.repeats ++ [q] } else enterCache t1 q

/-- An operation of the tick: its request and its record's places. -/
structure TickOp where
  req : Nat
  pos : Nat
  from_ : SyFrom
  rec_ : SyRec
  /-- The status of a write its own checks refuse, 0 for the rest. -/
  own : Nat
  deriving DecidableEq, Repr

/-- `a` has lower precedence than `b` (R540). -/
def precLt (a b : TickOp) : Bool :=
  decide (a.from_.seq < b.from_.seq) ||
    (a.from_.seq == b.from_.seq && (decide (b.from_.node < a.from_.node) ||
      (a.from_.node == b.from_.node && decide (a.pos < b.pos))))

/-- Insert by rising precedence. -/
def insertOp (o : TickOp) : List TickOp → List TickOp
  | [] => [o]
  | p :: ps => if precLt o p then o :: p :: ps else p :: insertOp o ps

/-- The operations of the requests, by rising precedence. -/
def tickOps (d : Dev) (i : OpInfo) (qs : List SyReq) : List TickOp :=
  let all := (qs.mapIdx (fun n q => q.recs.mapIdx (fun k r =>
    ({ req := n, pos := k, from_ := q.from_, rec_ := r, own := if r.op = 1 ∧ recBad r = false then ownCheck d i r else 0 } : TickOp)))).flatten
  all.foldl (fun l o => insertOp o l) []

/-- What a write writes, as keys by which writes conflict (R540). -/
def conflictKeys (r : SyRec) : List Nat :=
  match r.idx with
  | 0x8035 | 0x8036 => [stageKey 0x8035 0 r.value]
  | 0xB033 => [stageKey 0xB033 0 r.value]
  | 0x2030 | 0x2031 | 0x2032 => [stageKey 0x2030 0 0]
  | _ => if accessOf r.idx r.sub = some .rs then (writeRecs r.idx r.sub r.value).map Prod.fst else [stageKey r.idx r.sub 0]

/-- A write that takes part in the first pass. -/
def contends (o : TickOp) : Bool := o.rec_.op == 1 && !recBad o.rec_ && o.own == 0

/-- The keys each operation keeps: those no later one writes; operations by rising precedence. -/
def keepKeys : List TickOp → List (TickOp × List Nat)
  | [] => []
  | o :: os =>
    let later := (os.filter contends).flatMap (fun p => conflictKeys p.rec_)
    (o, if contends o then (conflictKeys o.rec_).filter (fun k => !later.contains k) else []) :: keepKeys os

/-- Carry out one operation of the tick. -/
def tickOne (d : Dev) (i : OpInfo) (o : TickOp) (keys : List Nat) : OpReply × Dev :=
  let r := o.rec_
  if recBad r then (plainReply r.idx r.sub 9, d)
  else if r.op ≠ 1 then serveRead d o.from_ r
  else if o.own ≠ 0 then (plainReply r.idx r.sub o.own, d)
  else if keys.isEmpty then (plainReply r.idx r.sub 7, bump d 0x1113 0 1)
  else
    let es := (writeRecs r.idx r.sub r.value).filter (fun e => accessOf r.idx r.sub != some .rs || keys.contains e.1)
    serveWrite d i o.from_ r es

/-- Carry out the operations, keeping each result with its places. DESIGN CHOICE, log 67. -/
def tickRun (i : OpInfo) : List (TickOp × List Nat) → Dev → List (Nat × Nat × OpReply) × Dev
  | [], d => ([], d)
  | (o, ks) :: os, d =>
    let x := tickOne d i o ks
    let y := tickRun i os x.2
    ((o.req, o.pos, x.1) :: y.1, y.2)

/-- The replies of one request in record order. -/
def repliesOf (rs : List (Nat × Nat × OpReply)) (n len : Nat) : List OpReply :=
  (List.range len).filterMap (fun k => (rs.find? (fun r => r.1 == n && r.2.1 == k)).map (fun r => r.2.2))

/-- Send a request's REPLY and keep it in the cache. -/
def sendReplies (d : Dev) (q : SyReq) (ps : List OpReply) : Dev :=
  let d1 := ps.foldl (fun x p => sendReply x q.from_ p) d
  setSy d1 { d1.sy with cache := d1.sy.cache.map (fun e =>
    if e.node = q.from_.node ∧ e.seq = q.from_.seq then { e with reply := ps } else e) }

/-- Send the replies of all requests, from request number `n` on. -/
def sendAll (rs : List (Nat × Nat × OpReply)) : Nat → List SyReq → Dev → Dev
  | _, [], d => d
  | n, q :: qs, d => sendAll rs (n + 1) qs (sendReplies d q (repliesOf rs n q.recs.length))

/-- R544: a repeat is answered from the cache, or with FRAME when it differs. -/
def answerRepeat (d : Dev) (q : SyReq) : Dev :=
  match cacheOf d q.from_ with
  | none => d
  | some e =>
    let d1 := bump d 0x1111 0 1
    if e.content = q.content then e.reply.foldl (fun x p => sendReply x q.from_ p) d1 else answerAll d1 q 9

/-- R553: some RS write of the tick found the staging set full. -/
def stageFull (d : Dev) (rs : List (Nat × Nat × OpReply)) : Bool :=
  rs.any (fun r => r.2.2.status == 6 && servedNow d r.2.2.idx r.2.2.sub 1 && accessOf r.2.2.idx r.2.2.sub == some .rs)

/-- R539: the queued frames are taken and served. -/
def serveTick (d : Dev) (i : OpInfo) : Dev :=
  let d0 := { d with rl := { d.rl with mclive := (d.rl.mclive + 1) % 65536 } }
  let t := d0.hp.queue.foldl takeFrame { dev := { d0 with hp := { d0.hp with queue := [] } }, reqs := [], repeats := [] }
  let x := tickRun i (keepKeys (tickOps t.dev i t.reqs)) t.dev
  let d1 := sendAll x.1 0 t.reqs x.2
  let d2 := t.repeats.foldl answerRepeat (if stageFull d x.1 then raise d1 0x4209 0 0 else d1)
  pumpRows d2

/-- R539: a tick of the management clock: time advances by 1 µs and the queued frames are served. In a tripped device the
host port has no power (R692), and time alone advances. DESIGN CHOICE, log 51. -/
def syseridTick (d : Dev) (i : OpInfo) : Dev := if d.pw.tripped then clockTick d else serveTick (clockTick d) i

end Sys2Proof.Machine
end

