-- ==== Sys2Proof/Machine/ExecSyserid.lean ====
section
/-! DEFINITION. Commands of the Syserid protocol (chapter 19). Each changes the device and leaves the queue alone. -/

namespace Sys2Proof.Machine

/-- SYSERID_TICK (R539). At each 1 us tick the controller takes queued requests and serves them by precedence. -/
def execSyseridTick (info : OpInfo) (s : State) : Host.Outcome State Fault Refusal :=
  .next { s with dev := onMgmt s.dev (fun d => syseridTick d info) }

/-- SYSERID_READ (R536). A READ operation returns an object's value in force. -/
def execSyseridRead (node seq idx sub : Nat) (s : State) : Host.Outcome State Fault Refusal :=
  .next { s with dev := onUnit s.dev (fun d => syseridRead d node seq idx sub) }

/-- SYSERID_READ_STAGED (R529). A READ-STAGED operation returns the staged value or the value in force. -/
def execSyseridReadStaged (node seq idx sub : Nat) (s : State) : Host.Outcome State Fault Refusal :=
  .next { s with dev := onUnit s.dev (fun d => syseridReadStaged d node seq idx sub) }

/-- SYSERID_WRITE (R529). A WRITE to an object without its own row stages, applies or refuses the value by access
right. -/
def execSyseridWrite (node seq idx sub len value : Nat) (info : OpInfo) (s : State) : Host.Outcome State Fault Refusal
    :=
  .next { s with dev := onUnit s.dev (fun d => syseridWrite d node seq idx sub len value info) }

/-- PENDING_COMPLETE (R543). A pending operation ends and a COMPLETE frame with its result is sent. -/
def execPendingComplete (ticket : Nat) (s : State) : Host.Outcome State Fault Refusal :=
  .next { s with dev := onUnit s.dev (fun d => pendingComplete d ticket) }

/-- COMPLETE_RESEND (R543). An unacknowledged COMPLETE is sent again after 100 us. -/
def execCompleteResend (ticket : Nat) (s : State) : Host.Outcome State Fault Refusal :=
  .next { s with dev := onUnit s.dev (fun d => completeResend d ticket) }

/-- ACK_COMPLETE (R543). An ACK acknowledges every COMPLETE sent for its request. -/
def execAckComplete (node seq : Nat) (s : State) : Host.Outcome State Fault Refusal :=
  .next { s with dev := onUnit s.dev (fun d => ackComplete d node seq) }

/-- STALL_TIMEOUT (R543). A pending operation shows no progress for SyStallTimeout and completes WEDGED. -/
def execStallTimeout (ticket seqIdle feHeld : Nat) (s : State) : Host.Outcome State Fault Refusal :=
  .next { s with dev := onUnit s.dev (fun d => stallTimeout d ticket seqIdle feHeld) }

/-- ACK_EVENTS (R549). A subscriber acknowledges events up to an ESEQ and delivery continues. -/
def execAckEvents (row eseq : Nat) (s : State) : Host.Outcome State Fault Refusal :=
  .next { s with dev := onUnit s.dev (fun d => ackEvents d row eseq) }

/-- EVENT_RESEND (R549). 200 us without progress resends events, stalling the subscriber after 16 resends. -/
def execEventResend (row : Nat) (s : State) : Host.Outcome State Fault Refusal :=
  .next { s with dev := onUnit s.dev (fun d => eventResend d row) }

/-- SUBSCRIBER_RETRY (R549). A stalled subscriber is tried again every 100 ms. -/
def execSubscriberRetry (row : Nat) (s : State) : Host.Outcome State Fault Refusal :=
  .next { s with dev := onUnit s.dev (fun d => subscriberRetry d row) }

end Sys2Proof.Machine
end

