-- ==== Sys2Proof/Machine/ExecTensor.lean ====
section
/-! DEFINITION. Commands of the tensor units and the numerics supervisor (chapters 02 and 04). Each changes the device and leaves the queue alone. -/

namespace Sys2Proof.Machine

/-- TU_NOP (R45). A TU takes a NOP command from its queue and does nothing. -/
def execTuNop (tu : Nat) (s : State) : Host.Outcome State Fault Refusal :=
  .next { s with dev := onCluster s.dev (fun d => tuNop d tu) }

/-- MMA (R46). A TU executes an MMA command: it accumulates over K into the selected bank, with masking, replay
scaling and optional shadow sampling. -/
def execMma (tu waited : Nat) (ecc : List (Nat × Bool)) (s : State) : Host.Outcome State Fault Refusal :=
  .next { s with dev := onCluster s.dev (fun d => mma d tu waited ecc) }

/-- SWAP (R42). A TU waits on the named full semaphores and then makes the other leapfrog half active. -/
def execSwap (tu waited : Nat) (s : State) : Host.Outcome State Fault Refusal :=
  .next { s with dev := onCluster s.dev (fun d => swap d tu waited) }

/-- HALF_RELEASE (R43). When the last read of a left half leaves the read pipeline, the TU signals that half's empty
semaphores. -/
def execHalfRelease (tu : Nat) (s : State) : Host.Outcome State Fault Refusal :=
  .next { s with dev := onCluster s.dev (fun d => halfRelease d tu) }

/-- FENCE (R45). A TU takes a FENCE command and begins waiting for earlier MMAs and owed signals. -/
def execFence (tu : Nat) (s : State) : Host.Outcome State Fault Refusal :=
  .next { s with dev := onCluster s.dev (fun d => fence d tu) }

/-- FENCE_DONE (R113). A FENCE completes once every earlier MMA has drained, every empty signal is raised and no
replay is outstanding. -/
def execFenceDone (tu : Nat) (s : State) : Host.Outcome State Fault Refusal :=
  .next { s with dev := onCluster s.dev (fun d => fenceDone d tu) }

/-- TILE_DRAIN (R53). A bank drains 128 descaled rows and a status word to the supervisor and vector chain, holding
while the receiver is not ready. -/
def execTileDrain (tu bank held slotWait : Nat) (s : State) : Host.Outcome State Fault Refusal :=
  .next { s with dev := onCluster s.dev (fun d => tileDrain d tu bank held slotWait) }

/-- REPLAY_SLOT_FREE (R109). A replay slot frees and a drain held for lack of a slot resumes. -/
def execReplaySlotFree (cluster : Nat) (s : State) : Host.Outcome State Fault Refusal :=
  .next { s with dev := onCluster s.dev (fun d => replaySlotFree d cluster) }

/-- SHADOW_COMPARE (R123). The shadow unit finishes its sub-block and compares it with the drained values, logging and
counting disagreements. -/
def execShadowCompare (cluster : Nat) (s : State) : Host.Outcome State Fault Refusal :=
  .next { s with dev := onCluster s.dev (fun d => shadowCompare d cluster) }

/-- COUNTER_CLEAR (R66). A write of 1 to a subsystem's counter-clear object clears its counters and raises its clear
event. -/
def execCounterClear (idx value : Nat) (s : State) : Host.Outcome State Fault Refusal :=
  .next { s with dev := onObject s.dev idx 0 (fun d => counterClear d idx value) }

/-- CONVERSION_REPORT (R98). A conversion report reaches a ledger entry's home, which folds its amax and flags. -/
def execConversionReport (entry : Nat) (amax : F32) (flags step : Nat) (s : State) : Host.Outcome State Fault Refusal
    :=
  .next { s with dev := onUnit s.dev (fun d => conversionReport d entry amax flags step) }

/-- SCALE_TABLE_SWAP (R104). Once both ledger engines have finished, both scale tables swap their active and idle
copies at one instant. -/
def execScaleTableSwap (s : State) : Host.Outcome State Fault Refusal :=
  .next { s with dev := onUnit s.dev (fun d => scaleTableSwap d) }

/-- SCALE_REBUILD_START (R135). A write of 1 commands scale rebuild, at once when idle or at the next boundary. -/
def execScaleRebuildStart (value : Nat) (s : State) : Host.Outcome State Fault Refusal :=
  .next { s with dev := onObject s.dev 0x5023 0 (fun d => scaleRebuildStart d value) }

end Sys2Proof.Machine
end

