-- ==== Sys2Proof/Machine/ExecVector.lean ====
section
/-! DEFINITION. Commands of the vector chains (chapters 05 and 06). Each changes the device and leaves the queue alone. -/

namespace Sys2Proof.Machine

/-- VC_PASS (R148). A vector chain pass opens on a drained tile or a memory block, is checked, and runs the element
through all eight stages. -/
def execVcPass (vc src : Nat) (ecc : Bool) (mismatch held : Nat) (s : State) : Host.Outcome State Fault Refusal :=
  .next { s with dev := onCluster s.dev (fun d => vcPass d vc src ecc mismatch held) }

/-- WRITE_SEMAPHORE_SIGNAL (R164). Once the fetch engine accepts a tile's last output write, the chain signals its
write semaphore. -/
def execWriteSemaphoreSignal (vc src : Nat) (s : State) : Host.Outcome State Fault Refusal :=
  .next { s with dev := onCluster s.dev (fun d => writeSemaphoreSignal d vc src) }

/-- DOC_TABLE_LOADED (R187). A document start table reload completes and the held pass proceeds. -/
def execDocTableLoaded (vc : Nat) (s : State) : Host.Outcome State Fault Refusal :=
  .next { s with dev := onCluster s.dev (fun d => docTableLoaded d vc) }

end Sys2Proof.Machine
end

