-- ==== Sys2Proof/Machine/ExecVersions.lean ====
section
/-! DEFINITION. Commands of weight versions and the update path (chapters 11 and 12). Each changes the device and leaves the queue alone. -/

namespace Sys2Proof.Machine

/-- COMMIT_NOTICE (R327). A commit notice for a version is accepted, held in PNMASK or discarded, possibly completing
the version. -/
def execCommitNotice (entry version rank : Nat) (s : State) : Host.Outcome State Fault Refusal :=
  .next { s with dev := onUnit s.dev (fun d => commitNotice d entry version rank) }

/-- RELEASE_NOTICE (R334). A release notice sets its rank's bit in RMASK. -/
def execReleaseNotice (entry version rank : Nat) (s : State) : Host.Outcome State Fault Refusal :=
  .next { s with dev := onUnit s.dev (fun d => releaseNotice d entry version rank) }

/-- MOLT (R334). With the slot released by every member, the molt engine drops the version's gathered copies. -/
def execMolt (entry slot : Nat) (s : State) : Host.Outcome State Fault Refusal :=
  .next { s with dev := onUnit s.dev (fun d => molt d entry slot) }

/-- MOLT_FINISH (R336). A molt finishes, the slot empties, PNMASK moves in and a waiting hand-over proceeds. -/
def execMoltFinish (entry slot : Nat) (s : State) : Host.Outcome State Fault Refusal :=
  .next { s with dev := onUnit s.dev (fun d => moltFinish d entry slot) }

/-- VIEW_REMAP_DONE (R340). A view remap completes once every fetch engine has dropped its translations, and waiting
GATHs are served. -/
def execViewRemapDone (entry waited : Nat) (s : State) : Host.Outcome State Fault Refusal :=
  .next { s with dev := onUnit s.dev (fun d => viewRemapDone d entry waited) }

/-- GC_ALLOCATE (R345). A gather cache allocation that waited finds an evictable buffer and proceeds. -/
def execGcAllocate (entry waited : Nat) (s : State) : Host.Outcome State Fault Refusal :=
  .next { s with dev := onUnit s.dev (fun d => gcAllocate d entry waited) }

/-- GATHER_DONE (R341). A gather completes and the store signals every waiting gather-done semaphore. -/
def execGatherDone (entry version : Nat) (s : State) : Host.Outcome State Fault Refusal :=
  .next { s with dev := onUnit s.dev (fun d => gatherDone d entry version) }

/-- RELEASE_CONTEXT (R338). A write releases every tag record of a stopped context. -/
def execReleaseContext (ctx : Nat) (s : State) : Host.Outcome State Fault Refusal :=
  .next { s with dev := onObject s.dev 0x6823 0 (fun d => releaseContext d ctx) }

/-- PIECE_RECEIVE (R358). A piece is added to its accumulator, parked, held or discarded by its place and step. -/
def execPieceReceive (piece : Piece) (waited : Nat) (s : State) : Host.Outcome State Fault Refusal :=
  .next { s with dev := onUnit s.dev (fun d => pieceReceive d piece waited) }

/-- APPLY_START (R361). When all conditions hold the apply begins, handing over the next version slot. -/
def execApplyStart (entry waited : Nat) (s : State) : Host.Outcome State Fault Refusal :=
  .next { s with dev := onUnit s.dev (fun d => applyStart d entry waited) }

/-- APPLY_DONE (R325). The last element of the version copy is written; the slot becomes OWNDONE and a commit notice
is sent. -/
def execApplyDone (entry : Nat) (s : State) : Host.Outcome State Fault Refusal :=
  .next { s with dev := onUnit s.dev (fun d => applyDone d entry) }

/-- CLIP_FACTOR (R365). With a clip group's entries complete, the device total is formed and sent to the collective
engine. -/
def execClipFactor (group : Nat) (s : State) : Host.Outcome State Fault Refusal :=
  .next { s with dev := onUnit s.dev (fun d => clipFactor d group) }

end Sys2Proof.Machine
end

