-- ==== Sys2Proof/Machine/Dispatch.lean ====
section
/-! DEFINITION. Dispatch: one arm per command, each one direct call of its meaning. -/

namespace Sys2Proof.Machine

def exec (i : Instr) (s : State) : Host.Outcome State Fault Refusal :=
  match i with
  | .tuNop tu => Sys2Proof.Machine.execTuNop tu s
  | .mma tu waited ecc => Sys2Proof.Machine.execMma tu waited ecc s
  | .swap tu waited => Sys2Proof.Machine.execSwap tu waited s
  | .halfRelease tu => Sys2Proof.Machine.execHalfRelease tu s
  | .fence tu => Sys2Proof.Machine.execFence tu s
  | .fenceDone tu => Sys2Proof.Machine.execFenceDone tu s
  | .tileDrain tu bank held slotWait => Sys2Proof.Machine.execTileDrain tu bank held slotWait s
  | .replaySlotFree cluster => Sys2Proof.Machine.execReplaySlotFree cluster s
  | .shadowCompare cluster => Sys2Proof.Machine.execShadowCompare cluster s
  | .counterClear idx value => Sys2Proof.Machine.execCounterClear idx value s
  | .conversionReport entry amax flags step => Sys2Proof.Machine.execConversionReport entry amax flags step s
  | .scaleTableSwap => Sys2Proof.Machine.execScaleTableSwap s
  | .scaleRebuildStart value => Sys2Proof.Machine.execScaleRebuildStart value s
  | .vcPass vc src ecc mismatch held => Sys2Proof.Machine.execVcPass vc src ecc mismatch held s
  | .writeSemaphoreSignal vc src => Sys2Proof.Machine.execWriteSemaphoreSignal vc src s
  | .docTableLoaded vc => Sys2Proof.Machine.execDocTableLoaded vc s
  | .cacheFillLands line => Sys2Proof.Machine.execCacheFillLands line s
  | .lineReadReturn ret => Sys2Proof.Machine.execLineReadReturn ret s
  | .faultQueueSlotFree fe waited => Sys2Proof.Machine.execFaultQueueSlotFree fe waited s
  | .xlatInvalidate addr len => Sys2Proof.Machine.execXlatInvalidate addr len s
  | .xlatInvalidateDone => Sys2Proof.Machine.execXlatInvalidateDone s
  | .xlatResume fid => Sys2Proof.Machine.execXlatResume fid s
  | .xlatFail fid => Sys2Proof.Machine.execXlatFail fid s
  | .fdNop fe => Sys2Proof.Machine.execFdNop fe s
  | .fdLoad fe reload => Sys2Proof.Machine.execFdLoad fe reload s
  | .fdJoin fe => Sys2Proof.Machine.execFdJoin fe s
  | .fdSrc fe => Sys2Proof.Machine.execFdSrc fe s
  | .fdStore fe => Sys2Proof.Machine.execFdStore fe s
  | .fdCopy fe => Sys2Proof.Machine.execFdCopy fe s
  | .fdDrain fe => Sys2Proof.Machine.execFdDrain fe s
  | .fdDrainDone fe => Sys2Proof.Machine.execFdDrainDone fe s
  | .descriptorComplete fe queue => Sys2Proof.Machine.execDescriptorComplete fe queue s
  | .deadlineMiss fe slot => Sys2Proof.Machine.execDeadlineMiss fe slot s
  | .semSignal cluster num amount ctx => Sys2Proof.Machine.execSemSignal cluster num amount ctx s
  | .semWait cluster num amount requester => Sys2Proof.Machine.execSemWait cluster num amount requester s
  | .semWaitSucceed cluster num => Sys2Proof.Machine.execSemWaitSucceed cluster num s
  | .lateWait cluster num => Sys2Proof.Machine.execLateWait cluster num s
  | .progNop cluster => Sys2Proof.Machine.execProgNop cluster s
  | .progTu cluster => Sys2Proof.Machine.execProgTu cluster s
  | .progFd cluster => Sys2Proof.Machine.execProgFd cluster s
  | .progPass cluster => Sys2Proof.Machine.execProgPass cluster s
  | .progWait cluster => Sys2Proof.Machine.execProgWait cluster s
  | .progSig cluster => Sys2Proof.Machine.execProgSig cluster s
  | .progSeta cluster => Sys2Proof.Machine.execProgSeta cluster s
  | .progAdda cluster => Sys2Proof.Machine.execProgAdda cluster s
  | .progLoop cluster => Sys2Proof.Machine.execProgLoop cluster s
  | .progEndl cluster => Sys2Proof.Machine.execProgEndl cluster s
  | .progYield cluster => Sys2Proof.Machine.execProgYield cluster s
  | .progGath cluster => Sys2Proof.Machine.execProgGath cluster s
  | .progBkt cluster => Sys2Proof.Machine.execProgBkt cluster s
  | .progEmit cluster => Sys2Proof.Machine.execProgEmit cluster s
  | .progEnd cluster => Sys2Proof.Machine.execProgEnd cluster s
  | .emitComplete task => Sys2Proof.Machine.execEmitComplete task s
  | .taskComplete task => Sys2Proof.Machine.execTaskComplete task s
  | .taskDequeue cluster held idle => Sys2Proof.Machine.execTaskDequeue cluster held idle s
  | .frameAssign ctx waited => Sys2Proof.Machine.execFrameAssign ctx waited s
  | .swapInDone ctx => Sys2Proof.Machine.execSwapInDone ctx s
  | .taskSwitch cluster => Sys2Proof.Machine.execTaskSwitch cluster s
  | .jobStart => Sys2Proof.Machine.execJobStart s
  | .jobStop => Sys2Proof.Machine.execJobStop s
  | .jobHalt => Sys2Proof.Machine.execJobHalt s
  | .stepEnd ctx => Sys2Proof.Machine.execStepEnd ctx s
  | .boundaryBegin => Sys2Proof.Machine.execBoundaryBegin s
  | .boundaryWork => Sys2Proof.Machine.execBoundaryWork s
  | .stepAdvance us => Sys2Proof.Machine.execStepAdvance us s
  | .boundaryTimeout => Sys2Proof.Machine.execBoundaryTimeout s
  | .contextStopped ctx => Sys2Proof.Machine.execContextStopped ctx s
  | .stopAtStep step => Sys2Proof.Machine.execStopAtStep step s
  | .sqEntryReceive queue entry => Sys2Proof.Machine.execSqEntryReceive queue entry s
  | .sqDataWrite queue tag addr src id bytes => Sys2Proof.Machine.execSqDataWrite queue tag addr src id bytes s
  | .sqGrantReceive ctx kind addr bytes => Sys2Proof.Machine.execSqGrantReceive ctx kind addr bytes s
  | .sqPost record => Sys2Proof.Machine.execSqPost record s
  | .spillRefill queue => Sys2Proof.Machine.execSpillRefill queue s
  | .commitNotice entry version rank => Sys2Proof.Machine.execCommitNotice entry version rank s
  | .releaseNotice entry version rank => Sys2Proof.Machine.execReleaseNotice entry version rank s
  | .molt entry slot => Sys2Proof.Machine.execMolt entry slot s
  | .moltFinish entry slot => Sys2Proof.Machine.execMoltFinish entry slot s
  | .viewRemapDone entry waited => Sys2Proof.Machine.execViewRemapDone entry waited s
  | .gcAllocate entry waited => Sys2Proof.Machine.execGcAllocate entry waited s
  | .gatherDone entry version => Sys2Proof.Machine.execGatherDone entry version s
  | .releaseContext ctx => Sys2Proof.Machine.execReleaseContext ctx s
  | .pieceReceive piece waited => Sys2Proof.Machine.execPieceReceive piece waited s
  | .applyStart entry waited => Sys2Proof.Machine.execApplyStart entry waited s
  | .applyDone entry => Sys2Proof.Machine.execApplyDone entry s
  | .clipFactor group => Sys2Proof.Machine.execClipFactor group s
  | .rngFill record => Sys2Proof.Machine.execRngFill record s
  | .rngFillDone => Sys2Proof.Machine.execRngFillDone s
  | .rngProbe select => Sys2Proof.Machine.execRngProbe select s
  | .quadTrain quad info => Sys2Proof.Machine.execQuadTrain quad info s
  | .trainTimeout quad => Sys2Proof.Machine.execTrainTimeout quad s
  | .quadRetrain mask => Sys2Proof.Machine.execQuadRetrain mask s
  | .retrainTimeout quad => Sys2Proof.Machine.execRetrainTimeout quad s
  | .dataFlit quad flit => Sys2Proof.Machine.execDataFlit quad flit s
  | .ctrlFlit quad ack => Sys2Proof.Machine.execCtrlFlit quad ack s
  | .idleFlit quad ack => Sys2Proof.Machine.execIdleFlit quad ack s
  | .croak quad body => Sys2Proof.Machine.execCroak quad body s
  | .croakReply quad body => Sys2Proof.Machine.execCroakReply quad body s
  | .laneDrop quad mask => Sys2Proof.Machine.execLaneDrop quad mask s
  | .laneDropDetect quad lane => Sys2Proof.Machine.execLaneDropDetect quad lane s
  | .laneSignalLoss quad => Sys2Proof.Machine.execLaneSignalLoss quad s
  | .ackTimer quad => Sys2Proof.Machine.execAckTimer quad s
  | .replayTimeout quad => Sys2Proof.Machine.execReplayTimeout quad s
  | .creditReturnTimer quad => Sys2Proof.Machine.execCreditReturnTimer quad s
  | .creditStall quad vc ns => Sys2Proof.Machine.execCreditStall quad vc ns s
  | .croakTimer quad => Sys2Proof.Machine.execCroakTimer quad s
  | .croakWindowClose quad => Sys2Proof.Machine.execCroakWindowClose quad s
  | .messageRoute quad vc => Sys2Proof.Machine.execMessageRoute quad vc s
  | .unreachReceive header => Sys2Proof.Machine.execUnreachReceive header s
  | .bucketHandoff cluster => Sys2Proof.Machine.execBucketHandoff cluster s
  | .stagingAllocate bucket step place waited => Sys2Proof.Machine.execStagingAllocate bucket step place waited s
  | .announce src bucket lap place fver => Sys2Proof.Machine.execAnnounce src bucket lap place fver s
  | .read src rlap ridx space flow body => Sys2Proof.Machine.execRead src rlap ridx space flow body s
  | .readData src rlap ridx status chunk bytes => Sys2Proof.Machine.execReadData src rlap ridx status chunk bytes s
  | .chunkFold bucket step place chunk waited => Sys2Proof.Machine.execChunkFold bucket step place chunk waited s
  | .mdata src pid version origin off bytes => Sys2Proof.Machine.execMdata src pid version origin off bytes s
  | .mack src pid version origin count => Sys2Proof.Machine.execMack src pid version origin count s
  | .fetch src pid version origin => Sys2Proof.Machine.execFetch src pid version origin s
  | .autotomy group us => Sys2Proof.Machine.execAutotomy group us s
  | .clip src group lap total => Sys2Proof.Machine.execClip src group lap total s
  | .dispatchDoorbell layer waited => Sys2Proof.Machine.execDispatchDoorbell layer waited s
  | .combineDoorbell layer => Sys2Proof.Machine.execCombineDoorbell layer s
  | .expertRows src layer bwd tag slot pos part bytes waited => Sys2Proof.Machine.execExpertRows src layer bwd tag slot pos part bytes waited s
  | .expertCount src layer bwd tag counts => Sys2Proof.Machine.execExpertCount src layer bwd tag counts s
  | .expertResult src layer bwd tag slot pos part bytes waited => Sys2Proof.Machine.execExpertResult src layer bwd tag slot pos part bytes waited s
  | .dispatchDone layer bwd tag => Sys2Proof.Machine.execDispatchDone layer bwd tag s
  | .combineDone layer bwd tag => Sys2Proof.Machine.execCombineDone layer bwd tag s
  | .hpLinkDown => Sys2Proof.Machine.execHpLinkDown s
  | .hpLinkUp => Sys2Proof.Machine.execHpLinkUp s
  | .mgmtQueueFrame cls src payload => Sys2Proof.Machine.execMgmtQueueFrame cls src payload s
  | .arpRequest v6 target requester => Sys2Proof.Machine.execArpRequest v6 target requester s
  | .rdmaWrite qp op psn va rkey len bytes ce => Sys2Proof.Machine.execRdmaWrite qp op psn va rkey len bytes ce s
  | .rdmaRead qp psn va rkey len busy ce => Sys2Proof.Machine.execRdmaRead qp psn va rkey len busy ce s
  | .rdmaAck qp kind psn => Sys2Proof.Machine.execRdmaAck qp kind psn s
  | .readResponse qp psn bytes ce => Sys2Proof.Machine.execReadResponse qp psn bytes ce s
  | .cnpReceive qp => Sys2Proof.Machine.execCnpReceive qp s
  | .rateIncrease qp => Sys2Proof.Machine.execRateIncrease qp s
  | .retransmitTimeout qp => Sys2Proof.Machine.execRetransmitTimeout qp s
  | .pfcPause prio quanta => Sys2Proof.Machine.execPfcPause prio quanta s
  | .pfcPauseRefresh prio used => Sys2Proof.Machine.execPfcPauseRefresh prio used s
  | .pfcStorm prio => Sys2Proof.Machine.execPfcStorm prio s
  | .qpReset qp => Sys2Proof.Machine.execQpReset qp s
  | .ptpSync domain src seq twoStep origin rx => Sys2Proof.Machine.execPtpSync domain src seq twoStep origin rx s
  | .ptpFollowUp domain src seq origin => Sys2Proof.Machine.execPtpFollowUp domain src seq origin s
  | .ptpDelayResp domain src seq t4 => Sys2Proof.Machine.execPtpDelayResp domain src seq t4 s
  | .ptpAnnounce domain dataset => Sys2Proof.Machine.execPtpAnnounce domain dataset s
  | .ptpAnnounceTimeout => Sys2Proof.Machine.execPtpAnnounceTimeout s
  | .syseridTick info => Sys2Proof.Machine.execSyseridTick info s
  | .syseridRead node seq idx sub => Sys2Proof.Machine.execSyseridRead node seq idx sub s
  | .syseridReadStaged node seq idx sub => Sys2Proof.Machine.execSyseridReadStaged node seq idx sub s
  | .syseridWrite node seq idx sub len value info => Sys2Proof.Machine.execSyseridWrite node seq idx sub len value info s
  | .pendingComplete ticket => Sys2Proof.Machine.execPendingComplete ticket s
  | .completeResend ticket => Sys2Proof.Machine.execCompleteResend ticket s
  | .ackComplete node seq => Sys2Proof.Machine.execAckComplete node seq s
  | .stallTimeout ticket seqIdle feHeld => Sys2Proof.Machine.execStallTimeout ticket seqIdle feHeld s
  | .ackEvents row eseq => Sys2Proof.Machine.execAckEvents row eseq s
  | .eventResend row => Sys2Proof.Machine.execEventResend row s
  | .subscriberRetry row => Sys2Proof.Machine.execSubscriberRetry row s
  | .genCheck value => Sys2Proof.Machine.execGenCheck value s
  | .genCheckDone => Sys2Proof.Machine.execGenCheckDone s
  | .commitNow record => Sys2Proof.Machine.execCommitNow record s
  | .commitAtBoundary record => Sys2Proof.Machine.execCommitAtBoundary record s
  | .commitAtTime record => Sys2Proof.Machine.execCommitAtTime record s
  | .rollbackNow record => Sys2Proof.Machine.execRollbackNow record s
  | .rollbackAtBoundary record => Sys2Proof.Machine.execRollbackAtBoundary record s
  | .rollbackAtTime record => Sys2Proof.Machine.execRollbackAtTime record s
  | .genCancel value => Sys2Proof.Machine.execGenCancel value s
  | .stageDiscard value => Sys2Proof.Machine.execStageDiscard value s
  | .armedTimeApply => Sys2Proof.Machine.execArmedTimeApply s
  | .genStoreDone ok => Sys2Proof.Machine.execGenStoreDone ok s
  | .hmExternal value => Sys2Proof.Machine.execHmExternal value s
  | .cutAtStep step => Sys2Proof.Machine.execCutAtStep step s
  | .cutCapture => Sys2Proof.Machine.execCutCapture s
  | .captureDone us => Sys2Proof.Machine.execCaptureDone us s
  | .nvmeCompletion ok => Sys2Proof.Machine.execNvmeCompletion ok s
  | .cutComplete ok => Sys2Proof.Machine.execCutComplete ok s
  | .mirrorDone ok => Sys2Proof.Machine.execMirrorDone ok s
  | .snRestore record => Sys2Proof.Machine.execSnRestore record s
  | .restoreDone image bad => Sys2Proof.Machine.execRestoreDone image bad s
  | .rcRecover record => Sys2Proof.Machine.execRcRecover record s
  | .recordStart => Sys2Proof.Machine.execRecordStart s
  | .axolotlFill => Sys2Proof.Machine.execAxolotlFill s
  | .wedgeCapture value seqIdle feHeld => Sys2Proof.Machine.execWedgeCapture value seqIdle feHeld s
  | .fabricProbeTimeout seqIdle feHeld => Sys2Proof.Machine.execFabricProbeTimeout seqIdle feHeld s
  | .scrubLine unit upsets => Sys2Proof.Machine.execScrubLine unit upsets s
  | .cvConfig unit value => Sys2Proof.Machine.execCvConfig unit value s
  | .cvFeed8 value => Sys2Proof.Machine.execCvFeed8 value s
  | .cvFeed16 value => Sys2Proof.Machine.execCvFeed16 value s
  | .cvFeed32 value => Sys2Proof.Machine.execCvFeed32 value s
  | .cvScan record => Sys2Proof.Machine.execCvScan record s
  | .cvScanDone unit => Sys2Proof.Machine.execCvScanDone unit s
  | .cvFinish unit => Sys2Proof.Machine.execCvFinish unit s
  | .cvStateLoad unit value => Sys2Proof.Machine.execCvStateLoad unit value s
  | .cvCompareSet channel value => Sys2Proof.Machine.execCvCompareSet channel value s
  | .revokeKey slot => Sys2Proof.Machine.execRevokeKey slot s
  | .rollbackCommit value good => Sys2Proof.Machine.execRollbackCommit value good s
  | .flashErase image => Sys2Proof.Machine.execFlashErase image s
  | .flashWrite bytes => Sys2Proof.Machine.execFlashWrite bytes s
  | .imageVerify image => Sys2Proof.Machine.execImageVerify image s
  | .bootPrefer image => Sys2Proof.Machine.execBootPrefer image s
  | .flashOperationDone region ok => Sys2Proof.Machine.execFlashOperationDone region ok s
  | .attestNonce nonce => Sys2Proof.Machine.execAttestNonce nonce s
  | .debugUnlock slot ok => Sys2Proof.Machine.execDebugUnlock slot ok s
  | .bridgeReq dir bundle seq ord recs ok => Sys2Proof.Machine.execBridgeReq dir bundle seq ord recs ok s
  | .bridgeWdata dir bundle seq ord tag data ok => Sys2Proof.Machine.execBridgeWdata dir bundle seq ord tag data ok s
  | .bridgeSig dir bundle seq ord recs ok => Sys2Proof.Machine.execBridgeSig dir bundle seq ord recs ok s
  | .bridgeRdata dir bundle seq ord tag data ok => Sys2Proof.Machine.execBridgeRdata dir bundle seq ord tag data ok s
  | .bridgeWack dir bundle seq ord tags ok => Sys2Proof.Machine.execBridgeWack dir bundle seq ord tags ok s
  | .bridgeAck dir bundle words credReq credRsp ok => Sys2Proof.Machine.execBridgeAck dir bundle words credReq credRsp ok s
  | .bridgeAckTimer dir => Sys2Proof.Machine.execBridgeAckTimer dir s
  | .bundleRetrainDone dir bundle fails ctl seqIdle feHeld => Sys2Proof.Machine.execBundleRetrainDone dir bundle fails ctl seqIdle feHeld s
  | .inputSample millivolts milliamps => Sys2Proof.Machine.execInputSample millivolts milliamps s
  | .powerFail => Sys2Proof.Machine.execPowerFail s
  | .powerRestore => Sys2Proof.Machine.execPowerRestore s
  | .overvoltageTrip => Sys2Proof.Machine.execOvervoltageTrip s
  | .dutyAdjust => Sys2Proof.Machine.execDutyAdjust s
  | .sensorSample temps => Sys2Proof.Machine.execSensorSample temps s
  | .thermalTrip => Sys2Proof.Machine.execThermalTrip s
  | .refclkLoss which seqIdle feHeld => Sys2Proof.Machine.execRefclkLoss which seqIdle feHeld s
  | .pllUnlock which seqIdle feHeld => Sys2Proof.Machine.execPllUnlock which seqIdle feHeld s
  | .pinReset => Sys2Proof.Machine.execPinReset s
  | .resetCommand value => Sys2Proof.Machine.execResetCommand value s
  | .resetTakeEffect => Sys2Proof.Machine.execResetTakeEffect s
  | .watchdogExpiry => Sys2Proof.Machine.execWatchdogExpiry s
  | .startupStep info => Sys2Proof.Machine.execStartupStep info s
  | .startupTimeout us unit => Sys2Proof.Machine.execStartupTimeout us unit s
  | .farInitDone => Sys2Proof.Machine.execFarInitDone s
  | .jtagBypass => Sys2Proof.Machine.execJtagBypass s
  | .jtagIdcode => Sys2Proof.Machine.execJtagIdcode s
  | .jtagSamplePreload lands cells => Sys2Proof.Machine.execJtagSamplePreload lands cells s
  | .jtagExtest lands => Sys2Proof.Machine.execJtagExtest lands s
  | .jtagExtestPulse lands => Sys2Proof.Machine.execJtagExtestPulse lands s
  | .jtagExtestTrain lands => Sys2Proof.Machine.execJtagExtestTrain lands s
  | .writeDone ctx id => Sys2Proof.Machine.execWriteDone ctx id s
  | .swapOutDone ctx => Sys2Proof.Machine.execSwapOutDone ctx s
  | .powerOnReset => Sys2Proof.Machine.execPowerOnReset s
  | .resetNRelease => Sys2Proof.Machine.execResetNRelease s
  | .pauseQuantaExpiry prio => Sys2Proof.Machine.execPauseQuantaExpiry prio s
  | .unmatchedFrame => Sys2Proof.Machine.execUnmatchedFrame s

end Sys2Proof.Machine
end

