-- ==== Sys2Proof/Safety.lean ====
section
/-! DEFINITION. The terms statements use: when the units act, when a command object is served, what a run is, and the
canonical form of memory. -/

namespace Sys2Proof.Machine

/-- The state with another device and the same queue, as a command answers it. -/
def after (s : State) (d : Dev) : Host.Outcome State Fault Refusal := .next { s with dev := d }

/-- The units act: the input has not failed, RESET_N is high and the device has not tripped (R686, R692, R698). -/
abbrev Acting (s : State) : Prop := unitsStopped s.dev = false

/-- The clusters act as well: no thermal hold (R691). -/
abbrev ClustersActing (s : State) : Prop := clustersStopped s.dev = false

/-- The units act and a write of the command object is served (R545, R647, R702). -/
abbrev Serving (s : State) (idx sub : Nat) : Prop := unitsStopped s.dev = false ∧ objectServed s.dev idx sub = true

/-- `n` steps one after another, ended by a fault or a refusal. -/
def runs : Nat → State → Host.Outcome State Fault Refusal
  | 0, s => .next s
  | n + 1, s =>
    match step s with
    | .next t => runs n t
    | o => o

/-- What a reset with `cause` leaves (R698, R699, R701): start-up step 1, every object at its default but those fused or
found at manufacture, memory and every unit cleared, and the flash images, boot records and the drive as they were. -/
def ResetTo (cause : Nat) (d e : Dev) : Prop :=
  cfg e 0xE000 0 = 1 ∧ cfg e 0xE001 0 = 1 ∧ cfg e 0xE003 0 = cause ∧
  (∀ i s, s < 256 → keptIdx i = true → cfg e i s = cfg d i s) ∧
  (∀ i s, s < 256 → keptIdx i = false → [0xE000, 0xE001, 0xE003, 0xE030, 0xD051].contains i = false →
    cfg e i s = objDefault i s) ∧
  e.keyed = [] ∧ e.uptime = 0 ∧ e.ptp = 0 ∧ e.ev = evReset ∧ e.tus = [] ∧ e.shadows = [] ∧ e.sup = supReset ∧
  e.tiles = [] ∧ e.vcs = [] ∧ e.mem = memReset ∧ e.fes = [] ∧ e.sems = [] ∧ e.grants = [] ∧ e.seq = seqReset ∧
  e.hp = hpReset ∧ e.rl = rlReset ∧ e.sq = sqReset ∧ e.wv = wvReset ∧ e.up = upReset ∧ e.ce = ceReset ∧ e.ex = exReset ∧
  e.fill = none ∧ e.sy = syReset ∧ e.hm = hmReset ∧ e.rc = rcReset ∧ e.cv = cvReset ∧ e.east = brDirReset ∧
  e.west = brDirReset ∧ e.gn = { gnReset with slot0 := e.gn.slot0, slot1 := e.gn.slot1 } ∧
  (d.gn.storing = none → e.gn.slot0 = d.gn.slot0 ∧ e.gn.slot1 = d.gn.slot1) ∧ e.out = d.out ∧
  e.sn = { snReset with slot0 := d.sn.slot0, slot1 := d.sn.slot1, newest := d.sn.newest } ∧
  e.sec = { secReset with img0 := d.sec.img0, img1 := d.sec.img1, rec0 := d.sec.rec0, rec1 := d.sec.rec1 } ∧
  e.pw = { pwReset with resetLow := d.pw.resetLow, ir := e.pw.ir, bypass := e.pw.bypass, cells := e.pw.cells, lands := e.pw.lands }

/-- The canonical form of memory: addresses strictly rising, no byte equal to what an unlisted address reads as. -/
def Mem.wf (m : Mem) : Bool := tabRising m.bytes && m.bytes.all (fun e => decide (e.2 ≠ memBase m e.1))

/-- The queue of a TU starts with `e` and goes on with `q`, and `e` may execute: its context is not dead and no FENCE
waits (R45, R49). -/
abbrev TuNext (s : State) (t : Nat) (e : TuEntry) (q : List TuEntry) : Prop :=
  (tuAt s.dev t).queue = e :: q ∧ (tuAt s.dev t).dead ≠ some e.ctx ∧ (tuAt s.dev t).fencing = false

/-- Queue `q` of fetch engine `f` starts with `x` and goes on with `l`; `x` can be read, its context's descriptors are
started, it is valid, fewer than FeRunAhead are active and no DRAIN is in the way (R240 to R243, R261, R269). -/
abbrev FdHead (s : State) (f q : Nat) (x : FdEntry) (l : List FdEntry) : Prop :=
  tget [] (feAt s.dev f).queues q = x :: l ∧ (feAt s.dev f).dead.contains x.ctx = false ∧ x.bad = false ∧
    fdValid x.desc x.reload.isSome = true ∧ mayActivate s.dev f q = true

/-- What the wait of `x` on EMPTYS gives in queue `q` of engine `f`: whether it has succeeded, and the device (R243). -/
def fdWait (d : Dev) (f q : Nat) (x : FdEntry) : Bool × Dev :=
  if x.wdone then (true, d) else semTake d f (fdEmptys x.desc) (headReq q) (fld x.desc 709 706 + 1)

/-- `x` heads queue `q` and may become active at once; `d` is the device once its wait has succeeded. -/
abbrev FdNext (s : State) (f q : Nat) (x : FdEntry) (l : List FdEntry) (d : Dev) : Prop :=
  FdHead s f q x l ∧ fdWait s.dev f q x = (true, d)

/-- The commands that take the head of a queue of engine `f` but for the reload queue: the command, the queue and the
OP (R236). -/
def fdCommands (f : Nat) : List (Instr × Nat × Nat) :=
  [(.fdNop f, 1, 0), (.fdLoad f false, 1, 1), (.fdJoin f, 2, 2), (.fdSrc f, 2, 3), (.fdStore f, 3, 4), (.fdCopy f, 3, 5)]

/-- Cluster `g` issues for task `t`, and the command at its program position is `op`, valid, with words `ws`; `p` is the
place as the command finds it, with a switch wanted no more once its switch point has passed (R288), and `d` the device
once the words are read (R280, R285). -/
def ProgAt (s : State) (g op : Nat) (t : Task) (p : Place) (ws : List Nat) (d : Dev) : Prop :=
  ∃ q w, issuing s.dev g = some (t, q) ∧ (readWords s.dev t g 1 q.pc).1 = some (some w) ∧
    fld (w.headD 0) 127 120 = op ∧ readWords s.dev t g (cmdWords op) q.pc = (some (some ws), d) ∧
    cmdValid s.dev g q ws = true ∧ p = { q with switchWanted := q.switchWanted && q.busySince }

/-- The event log holds a record of `code` with these arguments (R547). -/
def Logged (d : Dev) (code a b : Nat) : Prop :=
  ∃ r ∈ d.ev.log, r.code = code ∧ r.arg0 = trunc 48 a ∧ r.arg1 = trunc 64 b

/-- A command that ends a power-fail or a reset, or begins one: those that act whatever the power state (R686, R698). -/
def resets : Instr → Bool
  | .powerFail => true
  | .powerRestore => true
  | .pinReset => true
  | .resetNRelease => true
  | .powerOnReset => true
  | _ => false

end Sys2Proof.Machine
end

