-- ==== Sys2Proof/Certificates/Slice0/Obligations.lean ====
section
/-! DEFINITION. What is claimed of the model, for the provers. -/

open Sys2Proof Sys2Proof.Machine

/-- TU_NOP takes a NOP from the queue. SWAP, with no semaphore named, makes half 0 active at first (the model's choice, log
82) and the other half after that, owes the named empty semaphores of the half it leaves and counts the cycles waited; with
one full semaphore named it takes 1 from it. FENCE begins to wait; FENCE_DONE ends it once banks, owed signals and replays are
clear. HALF_RELEASE signals the one empty semaphore owed by 1. MMA discards, with 0x8302 and the context's stop, an
undefined opcode and an MMA that R48 finds invalid, and leaves the queue while the bank of a new accumulation drains. -/
def Obligations.TuQueueCommands : Prop :=
  (∀ (s : State) (t : Nat) (e : TuEntry) (q : List TuEntry), ClustersActing s → TuNext s t e q →
    fld e.word 127 120 = 0 → exec (.tuNop t) s = after s (setTu s.dev t { tuAt s.dev t with queue := q })) ∧
  (∀ (s : State) (t w : Nat) (e : TuEntry) (q : List TuEntry), ClustersActing s → TuNext s t e q →
    fld e.word 127 120 = 2 → e.reload = none → fld e.word 119 108 = 0xFFF → fld e.word 107 96 = 0xFFF →
    exec (.swap t w) s = after s (bump (setTu s.dev t { tuAt s.dev t with
      queue := q
      active := some (match (tuAt s.dev t).active with | none => 0 | some h => 1 - h)
      owed := match (tuAt s.dev t).active with
        | none => (tuAt s.dev t).owed
        | some _ => (tuAt s.dev t).owed ++ swapEmpties e.word
      releasing := (tuAt s.dev t).active.isSome || (tuAt s.dev t).releasing
      swaps := (tuAt s.dev t).swaps + 1 }) 0x3022 (t + 1) w)) ∧
  (∀ (s : State) (t w n : Nat) (e : TuEntry) (q : List TuEntry), ClustersActing s → TuNext s t e q →
    fld e.word 127 120 = 2 → e.reload = none → fld e.word 119 108 = n → n ≠ 0xFFF → fld e.word 107 96 = 0xFFF →
    (semAt s.dev (semKey (t / 8) n)).waits = [] → 1 ≤ (semAt s.dev (semKey (t / 8) n)).count →
    s.dev.grants.contains (semKey (t / 8) n, t % 8) = false → (semAt s.dev (semKey (t / 8) n)).bad = false →
    ∃ d, exec (.swap t w) s = after s d ∧ (tuAt d t).queue = q ∧
      (tuAt d t).active = some (match (tuAt s.dev t).active with | none => 0 | some h => 1 - h) ∧
      (semAt d (semKey (t / 8) n)).count = (semAt s.dev (semKey (t / 8) n)).count - 1 ∧ d.mem = s.dev.mem) ∧
  (∀ (s : State) (t : Nat) (e : TuEntry) (q : List TuEntry), ClustersActing s → TuNext s t e q →
    fld e.word 127 120 = 3 → exec (.fence t) s = after s (setTu s.dev t { tuAt s.dev t with fencing := true })) ∧
  (∀ (s : State) (t : Nat), ClustersActing s → (tuAt s.dev t).fencing = true → bankIdle (tuAt s.dev t).bank0 = true →
    bankIdle (tuAt s.dev t).bank1 = true → (tuAt s.dev t).releasing = false →
    (tuAt s.dev t).queue.all (fun e => !e.replay) = true →
    exec (.fenceDone t) s =
      after s (setTu s.dev t { tuAt s.dev t with queue := (tuAt s.dev t).queue.tail, fencing := false })) ∧
  (∀ (s : State) (t n : Nat), ClustersActing s → (tuAt s.dev t).releasing = true → (tuAt s.dev t).owed = [n] →
    (tuAt s.dev t).queue = [] → n ≠ 0xFFF → (semAt s.dev (semKey (t / 8) n)).count < 65535 →
    (semAt s.dev (semKey (t / 8) n)).bad = false →
    exec (.halfRelease t) s = after s (setSem (setTu s.dev t { tuAt s.dev t with owed := [], releasing := false })
      (semKey (t / 8) n) { semAt s.dev (semKey (t / 8) n) with count := (semAt s.dev (semKey (t / 8) n)).count + 1 })) ∧
  (∀ (s : State) (t w : Nat) (ecc : List (Nat × Bool)) (e : TuEntry) (q : List TuEntry), ClustersActing s →
    TuNext s t e q → 3 < fld e.word 127 120 →
    exec (.mma t w ecc) s = after s (raiseFault (setTu s.dev t { tuAt s.dev t with queue := q, dead := some e.ctx })
      0x8302 t (mmaTid e.word) e.ctx)) ∧
  (∀ (s : State) (t w : Nat) (ecc : List (Nat × Bool)) (e : TuEntry) (q : List TuEntry), ClustersActing s →
    TuNext s t e q → fld e.word 127 120 = 1 → mmaBlocks s.dev (tuAt s.dev t) e.word = none →
    exec (.mma t w ecc) s = after s (raiseFault (setTu s.dev t { tuAt s.dev t with queue := q, dead := some e.ctx })
      0x8302 t (mmaTid e.word) e.ctx)) ∧
  (∀ (s : State) (t w : Nat) (ecc : List (Nat × Bool)) (e : TuEntry) (q : List TuEntry) (a : Block × Block), ClustersActing s →
    TuNext s t e q → fld e.word 127 120 = 1 → mmaBlocks s.dev (tuAt s.dev t) e.word = some a → mmaAcc e.word = false →
    (tuBank (tuAt s.dev t) (mmaBank e.word)).draining = true → exec (.mma t w ecc) s = after s s.dev)

/-- A valid MMA that meets no uncorrectable word of its operands or of a scale table leaves the queue, gives each live position of its bank the accumulation over K of its
products, from +0 when ACC is 0 and from the old accumulator when ACC is 1, and leaves every other position, the other bank,
both halves, every other TU, memory and the semaphores. The bank drains next when DRN is 1. -/
def Obligations.MmaAccumulates : Prop :=
  ∀ (s : State) (t w : Nat) (e : TuEntry) (q : List TuEntry) (a b : Block), ClustersActing s → TuNext s t e q →
    fld e.word 127 120 = 1 → mmaBlocks s.dev (tuAt s.dev t) e.word = some (a, b) →
    (mmaAcc e.word = true ∨ (tuBank (tuAt s.dev t) (mmaBank e.word)).draining = false) →
    (tuHalf (tuAt s.dev t) ((tuAt s.dev t).active.getD 0)).ue = [] → s.dev.sup.badActive = [] →
    ∃ d, exec (.mma t w []) s = after s d ∧ (tuAt d t).queue = q ∧
      (∀ m n, m < 128 → n < 64 →
        tget f32Zero (tuBank (tuAt d t) (mmaBank e.word)).acc (posKey m n) =
          let old := if mmaAcc e.word then tget f32Zero (tuBank (tuAt s.dev t) (mmaBank e.word)).acc (posKey m n) else f32Zero
          if rowLive e.word m && colLive e.word n then
            (cellRun (tuHalf (tuAt s.dev t) ((tuAt s.dev t).active.getD 0)) a b e.word m n old).acc
          else old) ∧
      (tuBank (tuAt d t) (mmaBank e.word)).draining = mmaDrn e.word ∧
      (tuBank (tuAt d t) (mmaBank e.word)).isOpen = !mmaDrn e.word ∧
      tuBank (tuAt d t) (1 - mmaBank e.word) = tuBank (tuAt s.dev t) (1 - mmaBank e.word) ∧
      (tuAt d t).half0 = (tuAt s.dev t).half0 ∧ (tuAt d t).half1 = (tuAt s.dev t).half1 ∧
      (∀ v, v ≠ t → tuAt d v = tuAt s.dev v) ∧ d.mem = s.dev.mem ∧ d.sems = s.dev.sems ∧ d.vcs = s.dev.vcs

/-- TILE_DRAIN of a finished tile that has not overflowed, was not replayed or sampled, and has a replay slot and a free
receiver presents its values and status word, frees the bank and signals the bank's drain semaphore and the TU's tile
semaphore; a tile that overflowed with replay on is not presented, its bank is free and its drain semaphore signalled, and its
replay's commands with RPL one higher (or its BF16 recomputation after RPL 3) stand in the queue; a tile without a slot waits;
a tile whose receiver is not free waits. REPLAY_SLOT_FREE frees the slot of the first tile that passed, and the oldest waiting
tile takes it. SHADOW_COMPARE of a sample that agrees frees the shadow unit and counts one sample; of one that disagrees it
counts every disagreement and logs the first. -/
def Obligations.TileDrainAndShadow : Prop :=
  (∀ (s : State) (t b h w : Nat) (k : Bank), ClustersActing s → tuBank (tuAt s.dev t) b = k → k.draining = true →
    k.slotted = true → k.ue = false → ctxLive (ctxAt s.dev k.ctx) = true → k.ovf = false → mmaRpl k.last = 0 →
    tfind s.dev.tiles t = none → statusOvf (statusWord k (drainValues k s.dev.freeCtr)) = false →
    bitAt (statusWord k (drainValues k s.dev.freeCtr)) 52 = false → shadowHas s.dev t b = false →
    let tile : Tile := { tu := t, bank := b, vals := drainValues k s.dev.freeCtr, rpl := 0, last := k.last, ctx := k.ctx
                         status := statusWord k (drainValues k s.dev.freeCtr), tag := k.tag }
    exec (.tileDrain t b h w) s = after s (semSignal (semSignal
      (setTu (slotPassed { s.dev with tiles := tset s.dev.tiles t tile } t k.tile)
        t (setBank (tuAt s.dev t) b freeBank))
      (t / 8) (0xF00 + 2 * (t % 8) + b) 1 k.ctx) (t / 8) (0xF10 + t % 8) 1 k.ctx)) ∧
  (∀ (s : State) (t b h w : Nat) (k : Bank), ClustersActing s → b < 2 → tuBank (tuAt s.dev t) b = k → k.draining = true →
    k.slotted = true → ctxLive (ctxAt s.dev k.ctx) = true → k.ovf = true → replayOn s.dev = true → k.fallback = false →
    (semAt s.dev (semKey (t / 8) (0xF00 + 2 * (t % 8) + b))).count < 65535 →
    (semAt s.dev (semKey (t / 8) (0xF00 + 2 * (t % 8) + b))).bad = false →
    let r := mmaRpl k.last
    let es := if r = 3 then fallbackEntries k t (k.chunks.flatMap (fun c => c.mmas.flatMap (fallbackPieces c.loads)))
      else replayEntries k t (r + 1) 0 k.chunks
    ∃ d, exec (.tileDrain t b h w) s = after s d ∧ d.tiles = s.dev.tiles ∧ tuBank (tuAt d t) b = freeBank ∧
      (tuAt d t).queue.map (fun e => e.word) =
        (insertReplay (setBank (tuAt s.dev t) b freeBank) b es).queue.map (fun e => e.word) ∧
      (semAt d (semKey (t / 8) (0xF00 + 2 * (t % 8) + b))).count =
        (semAt s.dev (semKey (t / 8) (0xF00 + 2 * (t % 8) + b))).count + 1 ∧ d.mem = s.dev.mem) ∧
  (∀ (s : State) (t b h w : Nat), ClustersActing s → (tuBank (tuAt s.dev t) b).draining = true →
    (tuBank (tuAt s.dev t) b).slotted = false → exec (.tileDrain t b h w) s = after s (slotWaitNote s.dev t w)) ∧
  (∀ (s : State) (t b h w : Nat) (k : Bank) (x : Tile), ClustersActing s → tuBank (tuAt s.dev t) b = k → k.draining = true →
    k.slotted = true → k.ue = false → ctxLive (ctxAt s.dev k.ctx) = true → k.ovf = false → tfind s.dev.tiles t = some x →
    exec (.tileDrain t b h w) s = after s (bump s.dev 0x4022 (t / 8 + 1) h)) ∧
  (∀ (s : State) (c : Nat) (p : Nat × Nat) (ps : List (Nat × Nat)), ClustersActing s →
    tget [] s.dev.sup.passed c = p :: ps → tget [] s.dev.sup.waiting c = [] →
    exec (.replaySlotFree c) s = after s { s.dev with sup := { s.dev.sup with
      passed := tset s.dev.sup.passed c ps, slots := tset s.dev.sup.slots c ((tget [] s.dev.sup.slots c).erase p) } }) ∧
  (∀ (s : State) (c : Nat) (p q : Nat × Nat) (ps qs : List (Nat × Nat)), ClustersActing s →
    tget [] s.dev.sup.passed c = p :: ps → tget [] s.dev.sup.waiting c = q :: qs →
    ∃ d, exec (.replaySlotFree c) s = after s d ∧ tget [] d.sup.waiting c = qs ∧
      tget [] d.sup.slots c = (tget [] s.dev.sup.slots c).erase p ++ [(q.1, (tuBank (tuAt s.dev q.1) q.2).tile)] ∧
      (tuBank (tuAt d q.1) q.2).slotted = true ∧ d.mem = s.dev.mem) ∧
  (∀ (s : State) (c : Nat) (ps : List (Nat × F32)), ClustersActing s → (shadowAt s.dev c).drained = some ps →
    shadowBad s.dev (shadowAt s.dev c) ps = [] →
    exec (.shadowCompare c) s =
      after s (bump (setShadow s.dev c shadowFree) 0x5033 ((shadowAt s.dev c).tu + 1) 1)) ∧
  (∀ (s : State) (c : Nat) (ps : List (Nat × F32)) (x : Nat × F32 × F32 × Fx) (xs : List (Nat × F32 × F32 × Fx)),
    ClustersActing s → (shadowAt s.dev c).drained = some ps → shadowBad s.dev (shadowAt s.dev c) ps = x :: xs →
    ∃ d, exec (.shadowCompare c) s = after s d ∧
      tget 0 d.sup.disagree (shadowAt s.dev c).tu = tget 0 s.dev.sup.disagree (shadowAt s.dev c).tu + (xs.length + 1) ∧
      d.sup.shadowLog = (shadowRecord s.dev (shadowAt s.dev c) (xs.length + 1) x :: s.dev.sup.shadowLog).take 16 ∧
      shadowAt d c = shadowFree ∧ d.mem = s.dev.mem)

/-- CONVERSION_REPORT of an open step to an entry whose home copy reads well folds its amax and flags into the entry and
touches it; one of a closed step is dropped, counted and raises 0x4540 once per step and entry. SCALE_TABLE_SWAP exchanges
the two copies with their errors once both engines have finished, and leaves them before that. SCALE_REBUILD_START of 1 waits
for the boundary while the job runs; on an idle job it enters rebuild at once, for SupScaleRebuildSteps boundaries; another
value is ignored. COUNTER_CLEAR of 1 puts every row of every counter of its object back to its default, forgets what the health
monitor saw of them, raises the object's event and answers OK; any other value changes nothing and answers OK. -/
def Obligations.LedgerCommands : Prop :=
  (∀ (s : State) (e f n : Nat) (v : F32), Acting s → s.dev.seq.step ≤ n → s.dev.sup.closed ≠ some n →
    ueIn s.dev.mem (ledgerHome e) 160 = [] →
    exec (.conversionReport e v f n) s = after s (setLedger s.dev e { ledgerAt s.dev e with
      runamax := f32AmaxFold (ledgerAt s.dev e).runamax v, cflags := (ledgerAt s.dev e).cflags ||| f % 16, tch := true })) ∧
  (∀ (s : State) (e f n : Nat) (v : F32), Acting s → (n < s.dev.seq.step ∨ s.dev.sup.closed = some n) →
    exec (.conversionReport e v f n) s = after s (raiseOnce (bump s.dev 0x5060 0 1) 0x4540 0 e n)) ∧
  (∀ s : State, Acting s → s.dev.sup.enginesDone = 2 →
    exec .scaleTableSwap s = after s { s.dev with sup := { s.dev.sup with
      active := s.dev.sup.idle, idle := s.dev.sup.active, enginesDone := 0
      badActive := s.dev.sup.badIdle, badIdle := s.dev.sup.badActive } }) ∧
  (∀ s : State, Acting s → s.dev.sup.enginesDone ≠ 2 → exec .scaleTableSwap s = after s s.dev) ∧
  (∀ s : State, Serving s 0x5023 0 → s.dev.seq.job = .running ∨ s.dev.seq.job = .stopping →
    exec (.scaleRebuildStart 1) s = after s { send s.dev (.status 0x5023 0 0) with
      sup := { s.dev.sup with rebuildPending := true } }) ∧
  (∀ s : State, Serving s 0x5023 0 → s.dev.seq.job = .idle →
    ∃ d, exec (.scaleRebuildStart 1) s = after s d ∧ cfg d 0x5022 0 = cfg s.dev 0x5021 0 ∧
      Logged d 0x4530 0 (cfg s.dev 0x5021 0) ∧ d.sup.rebuildPending = false ∧ d.mem = s.dev.mem ∧
      d.out = s.dev.out ++ [.status 0x5023 0 0]) ∧
  (∀ (s : State) (v : Nat), Serving s 0x5023 0 → v ≠ 1 →
    exec (.scaleRebuildStart v) s = after s (send s.dev (.status 0x5023 0 0))) ∧
  (∀ (s : State) (i code : Nat) (l : List Nat), Serving s i 0 → clearList i = some (l, code) →
    let c : Dev := { s.dev with
      objs := s.dev.objs.filter (fun e => !l.contains (e.1 / 256))
      hm := { s.dev.hm with last := s.dev.hm.last.filter (fun e => !l.contains (e.1 / 256)) } }
    (∀ j r, j ∈ l → r < 256 → cfg c j r = objDefault j r) ∧
    exec (.counterClear i 1) s = after s (send (if code = 0 then c else raise c code 0 0) (.status i 0 0))) ∧
  (∀ (s : State) (i v : Nat) (l : List Nat × Nat), Serving s i 0 → clearList i = some l → v ≠ 1 →
    exec (.counterClear i v) s = after s (send s.dev (.status i 0 0)))

/-- Two conversion reports of the same open step to one entry whose home copy reads well leave the same state in either order, for reports and a running
amax that are non-negative FP32 values or infinity. -/
def Obligations.ReportsFoldInAnyOrder : Prop :=
  ∀ (s : State) (e f g n : Nat) (v w : F32), Acting s → s.dev.seq.step ≤ n → s.dev.sup.closed ≠ some n →
    ueIn s.dev.mem (ledgerHome e) 160 = [] → v.toNat ≤ 0x7F800000 → w.toNat ≤ 0x7F800000 → (ledgerAt s.dev e).runamax.toNat ≤ 0x7F800000 →
    ∃ a b t, exec (.conversionReport e v f n) s = .next a ∧ exec (.conversionReport e w g n) a = .next t ∧
      exec (.conversionReport e w g n) s = .next b ∧ exec (.conversionReport e v f n) b = .next t

/-- VC_PASS on a tile or block that has come, without join, mask, reduction, compression or scale reports and with the
primary output to memory or the spawn buffer, puts the converted bytes on the output port with the write semaphore, counts
its flags, takes pass and tile away and feeds the waiting STOREs; in checked mode the 32-element groups that mismatched take
part in nothing, are counted, and 0x8402 stops the context; an uncorrectable configuration word discards it with
0x8408, and a check that fails with the event of that check. A pass of any other kind that may run does what `passRun` says,
and once that has ended it leaves with its tile and joined block. A pass whose join block is not there waits and counts the
cycles, one whose document table is not the one kept starts its load, and a pass whose tile or block has not come changes
nothing. WRITE_SEMAPHORE_SIGNAL signals the owed semaphore by 1, and changes nothing where none is owed.
DOC_TABLE_LOADED installs the entries that the table's read through the fetch engine returns. -/
def Obligations.VectorChainCommands : Prop :=
  (∀ (s : State) (c src m h : Nat) (p : Pass) (i : PassIn) (t : Option Tile) (b : Option PortBlock), ClustersActing s →
    (vcAt s.dev c).passes.find? (fun q => q.src == src) = some p →
    let w := tget configReset (vcAt s.dev c).config p.slot
    passIng s.dev c w p = some (i, t, b) → ctxLive (ctxAt s.dev p.ctx) = true → configValid w = true → cwJen w = false →
    p.mask = none → p.jrec = false → p.srec = false → passFault s.dev c w p i none = none → s.dev.sup.checked = false →
    cwCmp w = false → cwRed w = 0 → cwTen w = false → cwTsen w = false → cwDest w ≤ 1 →
    let d1 := notePass (bump s.dev 0x4022 (c + 1) h) c w p i t []
    let o := passOutputs d1 w p i (elemsRun (bump s.dev 0x4022 (c + 1) h) w p i [] []) 0
    let fl := orFlags o.2.1 o.2.2
    exec (.vcPass c src false m h) s = after s (resumeStores (consumePass (notePassFlags (putOutputs d1 c p o.1) c
      { fl with ovf := fl.ovf || decide (0 < overCount i) }) c p none) c)) ∧
  (∀ (s : State) (c src m h : Nat) (p : Pass) (i : PassIn) (t : Option Tile) (b : Option PortBlock), ClustersActing s →
    (vcAt s.dev c).passes.find? (fun q => q.src == src) = some p →
    let w := tget configReset (vcAt s.dev c).config p.slot
    passIng s.dev c w p = some (i, t, b) → ctxLive (ctxAt s.dev p.ctx) = true → configValid w = true → cwJen w = false →
    p.mask = none → p.jrec = false → p.srec = false → passFault s.dev c w p i none = none → s.dev.sup.checked = true →
    cwCmp w = false → cwRed w = 0 → cwTen w = false → cwTsen w = false → cwDest w ≤ 1 →
    let k := m % 2 ^ ceilDiv (i.rows * i.cols) 32
    k ≠ 0 →
    let j := dropGroups k i
    let d1 := notePass (bump s.dev 0x4022 (c + 1) h) c w p j t []
    let o := passOutputs d1 w p j (elemsRun (bump s.dev 0x4022 (c + 1) h) w p j [] []) k
    let fl := orFlags o.2.1 o.2.2
    let d2 := resumeStores (consumePass (notePassFlags (putOutputs d1 c p o.1) c
      { fl with ovf := fl.ovf || decide (0 < overCount j) }) c p none) c
    exec (.vcPass c src false m h) s =
      after s (raiseFault (bump d2 0x4029 (c + 1) (popCount 256 k)) 0x8402 c (p.slot * 256 + tileTid t) p.ctx)) ∧
  (∀ (s : State) (c src m h : Nat) (p : Pass) (i : PassIn) (t : Option Tile) (b : Option PortBlock), ClustersActing s →
    (vcAt s.dev c).passes.find? (fun q => q.src == src) = some p →
    passIng s.dev c (tget configReset (vcAt s.dev c).config p.slot) p = some (i, t, b) → ctxLive (ctxAt s.dev p.ctx) = true →
    exec (.vcPass c src true m h) s =
      after s (raiseFault (consumePass s.dev c p none) 0x8408 c (p.slot * 256 + tileTid t) p.ctx)) ∧
  (∀ (s : State) (c src m h code : Nat) (p : Pass) (i : PassIn) (t : Option Tile) (b : Option PortBlock), ClustersActing s →
    (vcAt s.dev c).passes.find? (fun q => q.src == src) = some p →
    let w := tget configReset (vcAt s.dev c).config p.slot
    let join := if cwJen w then (vcAt s.dev c).joins.head? else none
    passIng s.dev c w p = some (i, t, b) → ctxLive (ctxAt s.dev p.ctx) = true →
    p.mask.any (fun k => (vcAt s.dev c).badMasks.contains k) = false →
    (configValid w && cwJen w && join.isNone) = false → docNeeded (vcAt s.dev c) p = none →
    passFault s.dev c w p i join = some code →
    exec (.vcPass c src false m h) s = after s (discardPass s.dev c code p join (tileTid t))) ∧
  (∀ (s : State) (c src m h : Nat) (p : Pass) (i : PassIn) (t : Option Tile) (b : Option PortBlock), ClustersActing s →
    (vcAt s.dev c).passes.find? (fun q => q.src == src) = some p →
    let v := vcAt s.dev c
    let w := tget configReset v.config p.slot
    let join := if cwJen w then v.joins.head? else none
    passIng s.dev c w p = some (i, t, b) → ctxLive (ctxAt s.dev p.ctx) = true →
    p.mask.any (fun k => v.badMasks.contains k) = false → (configValid w && cwJen w && join.isNone) = false →
    docNeeded v p = none → passFault s.dev c w p i join = none → join.any (fun x => !x.full) = false →
    let k := if s.dev.sup.checked then m % 2 ^ ceilDiv (i.rows * i.cols) 32 else 0
    let jb := (join.map (fun x => x.data)).getD []
    let j := dropGroups k (match p.mask with
      | some x => maskIn s.dev p (tget maskReset v.masks x) v.doc.entries i
      | none => i)
    let d1 := bump (bitmapTouch s.dev c p v i) 0x4022 (c + 1) h
    let r := passRun d1 c w p j t b (joinVals w p.jrec (p.draw + 1) jb) (if p.jrec then recordsOf jb else []) h k
    ctxLive (ctxAt d1 p.ctx) = true →
    (r.1 = true → exec (.vcPass c src false m h) s =
      after s (passMismatch (resumeStores (consumePass r.2 c p join) c) c p (tileTid t) k)) ∧
    (r.1 = false → exec (.vcPass c src false m h) s = after s r.2)) ∧
  (∀ (s : State) (c src m h : Nat) (p : Pass) (i : PassIn) (t : Option Tile) (b : Option PortBlock), ClustersActing s →
    (vcAt s.dev c).passes.find? (fun q => q.src == src) = some p →
    let w := tget configReset (vcAt s.dev c).config p.slot
    passIng s.dev c w p = some (i, t, b) → ctxLive (ctxAt s.dev p.ctx) = true →
    p.mask.any (fun k => (vcAt s.dev c).badMasks.contains k) = false → configValid w = true → cwJen w = true →
    (vcAt s.dev c).joins = [] →
    exec (.vcPass c src false m h) s = after s (bump s.dev 0x4023 (c + 1) h)) ∧
  (∀ (s : State) (c src m h : Nat) (p : Pass) (i : PassIn) (t : Option Tile) (b : Option PortBlock) (n : Nat × Nat),
    ClustersActing s → (vcAt s.dev c).passes.find? (fun q => q.src == src) = some p →
    let w := tget configReset (vcAt s.dev c).config p.slot
    passIng s.dev c w p = some (i, t, b) → ctxLive (ctxAt s.dev p.ctx) = true →
    p.mask.any (fun k => (vcAt s.dev c).badMasks.contains k) = false → cwJen w = false →
    docNeeded (vcAt s.dev c) p = some n → (vcAt s.dev c).doc.loading ≠ some n →
    exec (.vcPass c src false m h) s = after s (setVc s.dev c { vcAt s.dev c with
      doc := { (vcAt s.dev c).doc with loading := some n } })) ∧
  (∀ (s : State) (c src m h : Nat) (e : Bool) (p : Pass), ClustersActing s →
    (vcAt s.dev c).passes.find? (fun q => q.src == src) = some p →
    passIng s.dev c (tget configReset (vcAt s.dev c).config p.slot) p = none →
    exec (.vcPass c src e m h) s = after s s.dev) ∧
  (∀ (s : State) (c src : Nat) (o : Nat × Nat × Nat), ClustersActing s →
    (vcAt s.dev c).owed.find? (fun x => x.1 == src) = some o →
    exec (.writeSemaphoreSignal c src) s = after s (semSignal
      (setVc s.dev c { vcAt s.dev c with owed := (vcAt s.dev c).owed.erase o }) c o.2.1 1 o.2.2)) ∧
  (∀ (s : State) (c src : Nat), ClustersActing s → (vcAt s.dev c).owed.find? (fun x => x.1 == src) = none →
    exec (.writeSemaphoreSignal c src) s = after s s.dev) ∧
  (∀ (s : State) (c a n : Nat), ClustersActing s → (vcAt s.dev c).doc.loading = some (a, n) →
    let r := chainRead s.dev c (clusterCtx s.dev c) a (4 * n)
    exec (.docTableLoaded c) s = after s (setVc r.2 c { vcAt r.2 c with
      doc := { addr := a, count := n, entries := docEntries (r.1.getD []), loading := none } })) ∧
  (∀ (s : State) (c : Nat), ClustersActing s → (vcAt s.dev c).doc.loading = none →
    exec (.docTableLoaded c) s = after s s.dev)

/-- FD_NOP, FD_LOAD (operand and reload queue), FD_JOIN, FD_SRC, FD_STORE and FD_COPY take the head of their queue once its
wait on EMPTYS has succeeded, make it active and run it: a NOP completes at once, a JOIN and a SRC first open their port
block, a replay's reload runs the recorded LOAD into one TU. A LOAD naming a TU whose replay's reloads are outstanding stays
queued. A head whose wait blocks stays queued; an invalid one, or a SRC too large for the pass that takes it, is discarded
with 0x8701; one whose queue word is uncorrectable is lost with 0x8704. -/
def Obligations.DescriptorsBecomeActive : Prop :=
  (∀ (s : State) (f : Nat) (x : FdEntry) (l : List FdEntry) (d : Dev), ClustersActing s → FdNext s f 1 x l d → fdOp x.desc = 0 →
    exec (.fdNop f) s = after s (completeActive (activate d f 1 x).2 f { (activate d f 1 x).1 with moved := true })) ∧
  (∀ (s : State) (f : Nat) (x : FdEntry) (l : List FdEntry) (d : Dev), ClustersActing s → FdNext s f 1 x l d → fdOp x.desc = 1 →
    (loadTus f x.desc).any (replayHeld s.dev f) = false →
    exec (.fdLoad f false) s = after s (runActive (activate d f 1 x).2 f (activate d f 1 x).1)) ∧
  (∀ (s : State) (f : Nat) (x : FdEntry) (l : List FdEntry), ClustersActing s → FdHead s f 1 x l → fdOp x.desc = 1 →
    (loadTus f x.desc).any (replayHeld s.dev f) = true → exec (.fdLoad f false) s = after s s.dev) ∧
  (∀ (s : State) (f : Nat) (x : FdEntry) (r : Reload) (l : List FdEntry), ClustersActing s →
    tget [] (feAt s.dev f).queues 0 = x :: l → mayTry s.dev f = true → x.bad = false → x.reload = some r →
    let b := activate s.dev f 0 { x with desc := reloadDesc x.desc x.tu }
    exec (.fdLoad f true) s = after s (runActive b.2 f b.1)) ∧
  (∀ (s : State) (f : Nat) (x : FdEntry) (l : List FdEntry) (d : Dev), ClustersActing s → FdNext s f 2 x l d → fdOp x.desc = 2 →
    let b := activate d f 2 x
    exec (.fdJoin f) s = after s (runActive (setVc b.2 f { vcAt b.2 f with joins := (vcAt b.2 f).joins ++
      [{ desc := b.1.entry.desc, ctx := b.1.entry.ctx, seq := b.1.seq, data := [], full := false }] }) f b.1)) ∧
  (∀ (s : State) (f : Nat) (x : FdEntry) (l : List FdEntry) (d : Dev), ClustersActing s → FdNext s f 2 x l d → fdOp x.desc = 3 →
    (nextSrcBits (vcAt s.dev f)).any (fun b => !srcFits x.desc b) = false →
    let b := activate d f 2 x
    exec (.fdSrc f) s = after s (runActive (setVc b.2 f { vcAt b.2 f with srcs := (vcAt b.2 f).srcs ++
      [{ desc := b.1.entry.desc, ctx := b.1.entry.ctx, seq := b.1.seq, data := [], full := false }] }) f b.1)) ∧
  (∀ (s : State) (f : Nat) (x : FdEntry) (l : List FdEntry), ClustersActing s → FdHead s f 2 x l → fdOp x.desc = 3 →
    (nextSrcBits (vcAt s.dev f)).any (fun b => !srcFits x.desc b) = true →
    exec (.fdSrc f) s = after s (fdInvalid s.dev f 2 x)) ∧
  (∀ (s : State) (f : Nat) (x : FdEntry) (l : List FdEntry) (d : Dev), ClustersActing s → FdNext s f 3 x l d → fdOp x.desc = 4 →
    exec (.fdStore f) s = after s (runActive (activate d f 3 x).2 f (activate d f 3 x).1)) ∧
  (∀ (s : State) (f : Nat) (x : FdEntry) (l : List FdEntry) (d : Dev), ClustersActing s → FdNext s f 3 x l d → fdOp x.desc = 5 →
    exec (.fdCopy f) s = after s (runActive (activate d f 3 x).2 f (activate d f 3 x).1)) ∧
  (∀ (s : State) (f q : Nat) (c : Instr) (x : FdEntry) (l : List FdEntry) (d : Dev), ClustersActing s → FdHead s f q x l →
    (c, q, fdOp x.desc) ∈ fdCommands f → fdWait s.dev f q x = (false, d) →
    (fdOp x.desc = 1 → (loadTus f x.desc).any (replayHeld s.dev f) = false) →
    (fdOp x.desc = 3 → (nextSrcBits (vcAt s.dev f)).any (fun b => !srcFits x.desc b) = false) →
    exec c s = after s d) ∧
  (∀ (s : State) (f q : Nat) (c : Instr) (x : FdEntry) (l : List FdEntry), ClustersActing s →
    (c, q, fdOp x.desc) ∈ fdCommands f → tget [] (feAt s.dev f).queues q = x :: l →
    (feAt s.dev f).dead.contains x.ctx = false → x.bad = false → fdValid x.desc x.reload.isSome = false →
    exec c s = after s (fdInvalid s.dev f q x)) ∧
  (∀ (s : State) (f q : Nat) (c : Instr) (x : FdEntry) (l : List FdEntry), ClustersActing s →
    (c, q, fdOp x.desc) ∈ fdCommands f → tget [] (feAt s.dev f).queues q = x :: l →
    (feAt s.dev f).dead.contains x.ctx = false → x.bad = true → exec c s = after s (fdBad s.dev f q x))

/-- FD_COPY of a descriptor with one element and no wait left, both addresses in near scratch with translation off, no fill outstanding and
no uncorrectable word: the destination bytes computed from the descriptor hold the source bytes, every other byte of memory
reads as before, and the semaphores, TUs and vector chains are unchanged. -/
def Obligations.CopyMovesItsElement : Prop :=
  ∀ (s : State) (f : Nat) (x : FdEntry) (l : List FdEntry), ClustersActing s → f < 16 → FdNext s f 3 x l s.dev →
    fdOp x.desc = 5 →
    let j := srcAt x.desc (fdPos x.desc)
    let k := dstAt x.desc (fdPos x.desc)
    let n := unitSrc x.desc
    nextPos x.desc (fdPos x.desc) = none → 0 < elemTotal x.desc → (feAt s.dev f).reads < 1023 → cfg s.dev 0x8031 0 = 0 →
    j % 0x10000 + n ≤ 0x10000 → k % 0x10000 + n ≤ 0x10000 → j < 2 * nearSize → k < 2 * nearSize →
    accessible s.dev j n = true → accessible s.dev k n = true → s.dev.mem.ue = [] → s.dev.mem.badSites = [] →
    s.dev.mem.fills = [] → Mem.wf s.dev.mem = true →
    ∃ d, exec (.fdCopy f) s = after s d ∧
      (∀ i, i < n → memByte d.mem (k + i) = memByte s.dev.mem (j + i)) ∧
      (∀ a, ¬ (k ≤ a ∧ a < k + n) → memByte d.mem a = memByte s.dev.mem a) ∧
      Mem.wf d.mem = true ∧ d.sems = s.dev.sems ∧ d.tus = s.dev.tus ∧ d.vcs = s.dev.vcs ∧
      tget [] (feAt d f).queues 3 = l

/-- DESCRIPTOR_COMPLETE of a moved descriptor signals in queue order, and changes nothing while no descriptor of the queue
has moved all its data; FD_DRAIN takes a DRAIN from all four queues; FD_DRAIN_DONE signals its FULLS once no descriptor of
the engine is active, held or suspended and the wait on EMPTYS succeeds, and keeps it while one is active;
LINE_READ_RETURN counts the cycles waited and frees one read slot, and a transfer held for a slot goes on; CACHE_FILL_LANDS
allocates the line and applies the held writes in order; DEADLINE_MISS counts a late descriptor once and marks it. -/
def Obligations.EndsOfTransfers : Prop :=
  (∀ (s : State) (f q : Nat) (a : FdActive), ClustersActing s →
    (activeOf (feAt s.dev f) q).find? (fun a => a.moved && !a.sigheld && !hostPending s.dev f a.seq) = some a →
    exec (.descriptorComplete f q) s = after s (completeActive s.dev f a)) ∧
  (∀ (s : State) (f q : Nat), ClustersActing s →
    (activeOf (feAt s.dev f) q).find? (fun a => a.moved && !a.sigheld && !hostPending s.dev f a.seq) = none →
    exec (.descriptorComplete f q) s = after s s.dev) ∧
  (∀ (s : State) (f : Nat) (a b c x : FdEntry), ClustersActing s → (feAt s.dev f).draining = none →
    [0, 1, 2, 3].map (fun q => (tget [] (feAt s.dev f).queues q).head?) = [some a, some b, some c, some x] →
    fdOp a.desc = 6 → fdOp b.desc = 6 → fdOp c.desc = 6 → fdOp x.desc = 6 → a.reload = none → fdValid a.desc false = true →
    exec (.fdDrain f) s = after s (setFe s.dev f { feAt s.dev f with
      draining := some a, queues := (feAt s.dev f).queues.map (fun q => (q.1, q.2.tail)) })) ∧
  (∀ (s : State) (f : Nat) (x : FdEntry), ClustersActing s → (feAt s.dev f).draining = some x →
    (feAt s.dev f).active = [] → (feAt s.dev f).recs = [] → suspendedAt s.dev f = false → (feAt s.dev f).drainWait = [] →
    fdEmptys x.desc = 0xFFF →
    exec (.fdDrainDone f) s = after s (semSignal (setFe s.dev f { feAt s.dev f with draining := none })
      (fdFulls x.desc / 4096) (fdFulls x.desc % 4096) (fld x.desc 725 722 + 1) x.ctx)) ∧
  (∀ (s : State) (f : Nat) (x : FdEntry) (l : List FdEntry) (d : Dev), ClustersActing s → (feAt s.dev f).draining = none →
    (feAt s.dev f).drainWait = x :: l →
    semTake s.dev f (fdEmptys x.desc) (headReq 4) (fld x.desc 709 706 + 1) = (true, d) →
    exec (.fdDrainDone f) s = after s (semSignal (setFe d f { feAt d f with drainWait := l })
      (fdFulls x.desc / 4096) (fdFulls x.desc % 4096) (fld x.desc 725 722 + 1) x.ctx)) ∧
  (∀ (s : State) (f : Nat) (x : FdEntry), ClustersActing s → (feAt s.dev f).draining = some x →
    (feAt s.dev f).active ≠ [] → (feAt s.dev f).drainWait = [] → exec (.fdDrainDone f) s = after s s.dev) ∧
  (∀ (s : State) (f w : Nat), ClustersActing s → 0 < (feAt s.dev f).reads →
    (feAt s.dev f).active.find? (fun a => a.stalled && fdOp a.entry.desc != 4) = none →
    exec (.lineReadReturn ⟨f, w⟩) s = after s (setFe (bump s.dev 0x7026 (f + 1) w) f
      { feAt s.dev f with reads := (feAt s.dev f).reads - 1 })) ∧
  (∀ (s : State) (f w : Nat) (a : FdActive), ClustersActing s → 0 < (feAt s.dev f).reads →
    (feAt s.dev f).active.find? (fun a => a.stalled && fdOp a.entry.desc != 4) = some a →
    exec (.lineReadReturn ⟨f, w⟩) s = after s (runActive (setFe (bump s.dev 0x7026 (f + 1) w) f
      { feAt s.dev f with reads := (feAt s.dev f).reads - 1 }) f a)) ∧
  (∀ (s : State) (line : Nat) (x : Fill), Acting s → s.dev.mem.fills.find? (fun f => f.line == line) = some x →
    let d := cacheAllocate s.dev line (!x.held.isEmpty)
    exec (.cacheFillLands line) s = after s { d with mem := { d.mem with
      fills := d.mem.fills.filter (fun f => f.line != line), bytes := putBytes (memBase d.mem) d.mem.bytes x.held } }) ∧
  (∀ (s : State) (f n : Nat) (x : FdEntry), ClustersActing s →
    (entriesOf s.dev f).find? (fun x => x.num == n && x.reload.isNone) = some x →
    cfg s.dev 0x7013 0 = 1 → fld x.desc 697 678 ≠ 0 → x.missed = false → x.start + fld x.desc 697 678 * 64 ≤ s.dev.uptime →
    exec (.deadlineMiss f n) s = after s (raiseStep (bump (mapEntries s.dev f (fun y =>
      if y.num = n ∧ y.reload = none then { y with missed := true } else y)) 0x7024 (f + 1) 1) 0x4703 f (fdTask x.desc)))

/-- XLAT_INVALIDATE is answered PENDING; XLAT_INVALIDATE_DONE drops every overlapping cached translation, and completes it
once no host-window access made with one is out. XLAT_RESUME and XLAT_FAIL of a FID in the fault queue free its slot;
resume runs the active descriptor that holds the FID from its restart point, or writes the record that holds it; fail ends
descriptor or record without signal and stops its context with 0x8823; a FID not in the queue is ignored.
FAULT_QUEUE_SLOT_FREE posts the record an engine holds in the lowest free slot, counts the cycles waited and gives the FID to
the record's own transfer. -/
def Obligations.TranslationFaultCommands : Prop :=
  (∀ (s : State) (a n : Nat), Serving s 0x8033 0 → exec (.xlatInvalidate a n) s =
    after s (send { s.dev with mem := { s.dev.mem with invalidating := s.dev.mem.invalidating ++ [(a, n)] } }
      (.status 0x8033 0 1))) ∧
  (∀ s : State, Acting s → s.dev.mem.invalidating ≠ [] →
    ∃ d, exec .xlatInvalidateDone s = after s d ∧ d.mem.bytes = s.dev.mem.bytes ∧
      (s.dev.mem.invalidating.any (fun r => windowBusy s.dev r.1 r.2) = false →
        d.mem.invalidating = [] ∧ d.out = s.dev.out ++ [.done 0x8033 0 0]) ∧
      (s.dev.mem.invalidating.any (fun r => windowBusy s.dev r.1 r.2) = true →
        d.mem.invalidating = s.dev.mem.invalidating ∧ d.out = s.dev.out) ∧
      (∀ e ∈ d.mem.tlb, ∀ c ∈ e.2, ∀ r ∈ s.dev.mem.invalidating, overlaps r.1 r.2 c.base c.size = false)) ∧
  (∀ (s : State) (fid r : Nat) (x : FaultRec) (a : FdActive), Serving s 0x8035 0 → faultRow s.dev fid = some (r, x) →
    (feAt s.dev x.fe).active.find? (fun a => a.fault && a.fid == fid) = some a → a.redo = [] → a.moved = false →
    exec (.xlatResume fid) s = after s (runActive (freeRow (send s.dev (.status 0x8035 0 0)) r) x.fe a)) ∧
  (∀ (s : State) (fid r : Nat) (x : FaultRec) (y : RecWrite), Serving s 0x8035 0 → faultRow s.dev fid = some (r, x) →
    (feAt s.dev x.fe).active.find? (fun a => a.fault && a.fid == fid) = none →
    (feAt s.dev x.fe).recs.find? (fun y => y.fid == fid) = some y →
    exec (.xlatResume fid) s = after s (putRecord (dropRecord (freeRow (send s.dev (.status 0x8035 0 0)) r) x.fe fid)
      x.fe y.ctx y.task y.jaddr y.bytes)) ∧
  (∀ (s : State) (fid : Nat), Serving s 0x8035 0 → faultRow s.dev fid = none →
    exec (.xlatResume fid) s = after s (send s.dev (.status 0x8035 0 0))) ∧
  (∀ (s : State) (fid r : Nat) (x : FaultRec), Serving s 0x8036 0 → faultRow s.dev fid = some (r, x) →
    let d := dropRecord (freeRow (send s.dev (.status 0x8036 0 0)) r) x.fe fid
    exec (.xlatFail fid) s = after s (raiseFault ([0, 1, 2, 3].foldl (fun y q => releaseSignals y x.fe q)
      (setFe d x.fe { feAt d x.fe with active := (feAt d x.fe).active.filter (fun a => !(a.fault && a.fid == fid)) }))
      0x8823 x.fe fid x.ctx)) ∧
  (∀ (s : State) (fid : Nat), Serving s 0x8036 0 → faultRow s.dev fid = none →
    exec (.xlatFail fid) s = after s (send s.dev (.status 0x8036 0 0))) ∧
  (∀ (s : State) (f w r : Nat) (x : FaultRec), ClustersActing s →
    s.dev.mem.faultHold.find? (fun x => x.fe == f) = some x → freeFaultRow s.dev = some r →
    ∃ d, exec (.faultQueueSlotFree f w) s = after s d ∧ tfind d.mem.faults r = some { x with fid := s.dev.mem.nextFid } ∧
      d.mem.faultHold = s.dev.mem.faultHold.erase x ∧ d.mem.nextFid = fidAfter s.dev.mem.nextFid ∧
      (feAt d f).active = (feAt s.dev f).active.map (fun a =>
        if a.seq = x.item ∧ a.fault then { a with fid := s.dev.mem.nextFid } else a) ∧
      d.mem.bytes = s.dev.mem.bytes)

/-- SEM_SIGNAL adds its amount; SEM_WAIT subtracts its amount when nothing is blocked before it and the count suffices, and
blocks behind the waits before it otherwise; SEM_WAIT_SUCCEED takes the oldest blocked wait once the count suffices;
LATE_WAIT counts a blocked wait. Each leaves every other semaphore and all of memory. An access to a semaphore whose word is
uncorrectable raises 0x8704 before it is made; a wait that has succeeded before is used up. -/
def Obligations.SemaphoreSignalsAndWaits : Prop :=
  (∀ (s : State) (g n a c : Nat), ClustersActing s → n ≠ 0xFFF →
    (semAt s.dev (semKey g n)).bad = false → (semAt s.dev (semKey g n)).count + a ≤ 65535 →
    exec (.semSignal g n a c) s = after s (setSem s.dev (semKey g n)
      { semAt s.dev (semKey g n) with count := (semAt s.dev (semKey g n)).count + a })) ∧
  (∀ (s : State) (g n a r : Nat), ClustersActing s → n ≠ 0xFFF →
    (semAt s.dev (semKey g n)).bad = false → s.dev.grants.contains (semKey g n, r) = false →
    (semAt s.dev (semKey g n)).waits = [] → a ≤ (semAt s.dev (semKey g n)).count →
    exec (.semWait g n a r) s = after s (keepGrant (setSem s.dev (semKey g n)
      { semAt s.dev (semKey g n) with count := (semAt s.dev (semKey g n)).count - a, waits := [] }) g n r)) ∧
  (∀ (s : State) (g n a r : Nat), ClustersActing s → n ≠ 0xFFF →
    (semAt s.dev (semKey g n)).bad = false → s.dev.grants.contains (semKey g n, r) = false →
    (semAt s.dev (semKey g n)).waits.all (fun w => w.req != r) = true →
    ((semAt s.dev (semKey g n)).waits ≠ [] ∨ (semAt s.dev (semKey g n)).count < a) →
    exec (.semWait g n a r) s = after s (setSem s.dev (semKey g n) { semAt s.dev (semKey g n) with
      waits := (semAt s.dev (semKey g n)).waits ++ [{ req := r, amount := a }] })) ∧
  (∀ (s : State) (g n : Nat) (w : SemWaiter) (ws : List SemWaiter), ClustersActing s → n ≠ 0xFFF →
    (semAt s.dev (semKey g n)).waits = w :: ws → w.amount ≤ (semAt s.dev (semKey g n)).count →
    (w.req % 16 = 8 → w.req ≠ headReq 4 → mayTry s.dev g = true) →
    exec (.semWaitSucceed g n) s = after s (keepGrant (setSem s.dev (semKey g n)
      { semAt s.dev (semKey g n) with count := (semAt s.dev (semKey g n)).count - w.amount, waits := ws }) g n w.req)) ∧
  (∀ (s : State) (g n : Nat), ClustersActing s → (semAt s.dev (semKey g n)).waits = [] →
    exec (.semWaitSucceed g n) s = after s s.dev) ∧
  (∀ (s : State) (g n a c : Nat), ClustersActing s → n ≠ 0xFFF → (semAt s.dev (semKey g n)).bad = true →
    (semAt s.dev (semKey g n)).count + a ≤ 65535 →
    exec (.semSignal g n a c) s = after s (setSem (raiseFault s.dev 0x8704 g n c) (semKey g n)
      { semAt s.dev (semKey g n) with count := (semAt s.dev (semKey g n)).count + a })) ∧
  (∀ (s : State) (g n a r : Nat), ClustersActing s → n ≠ 0xFFF → (semAt s.dev (semKey g n)).bad = false →
    s.dev.grants.contains (semKey g n, r) = true →
    exec (.semWait g n a r) s = after s (keepGrant { s.dev with grants := s.dev.grants.erase (semKey g n, r) } g n r)) ∧
  (∀ (s : State) (g n : Nat) (w : SemWaiter) (ws : List SemWaiter), ClustersActing s →
    (semAt s.dev (semKey g n)).waits = w :: ws → cfg (bump s.dev 0x7042 (g + 1) 1) 0x7013 0 ≠ 0 →
    exec (.lateWait g n) s = after s (bump s.dev 0x7042 (g + 1) 1))

/-- SEM_SIGNAL past 65,535 sets COUNT to 65,535, raises 0x8702 with the cluster and the number, and the stage context it is
raised for, when at work, stops by the rule for unit faults. -/
def Obligations.SignalPastLimitSaturates : Prop :=
  ∀ (s : State) (g n a c : Nat), ClustersActing s → n ≠ 0xFFF → 65535 < (semAt s.dev (semKey g n)).count + a →
    ∃ d, exec (.semSignal g n a c) s = after s d ∧ (semAt d (semKey g n)).count = 65535 ∧
      (semAt d (semKey g n)).waits = (semAt s.dev (semKey g n)).waits ∧ Logged d 0x8702 g n ∧
      (c < 64 → ctxLive (ctxAt s.dev c) = true → (ctxAt d c).st = .stopping ∧
        (ctxAt d c).cause = if (semAt s.dev (semKey g n)).bad then 0x8704 else 0x8702) ∧
      (∀ x, x ≠ c → ctxAt d x = ctxAt s.dev x) ∧ d.mem = s.dev.mem

/-- PROG_NOP, PROG_SETA, PROG_ADDA, PROG_LOOP, PROG_ENDL, PROG_YIELD, PROG_EMIT and PROG_END at the program position of the
cluster's task write the address register, the loops, the switch point or the marks the table of R280 gives, move the
position by one word (an ENDL with runs left moves it to the loop's first word), and change nothing else beyond what
reading the words counts; END then hands the cluster to the next started task. -/
def Obligations.SequencerCommands : Prop :=
  (∀ (s : State) (g : Nat) (t : Task) (p : Place) (ws : List Nat) (d : Dev), ClustersActing s → ProgAt s g 0 t p ws d →
    exec (.progNop g) s = after s (setPlace d t g { p with pc := p.pc + 1 })) ∧
  (∀ (s : State) (g : Nat) (t : Task) (p : Place) (ws : List Nat) (d : Dev), ClustersActing s → ProgAt s g 6 t p ws d →
    let r := fld (ws.headD 0) 119 116
    exec (.progSeta g) s = after s (setPlace d t g { p with
      pc := p.pc + 1, regs := if r = 15 then p.regs else setAt p.regs r (fld (ws.headD 0) 47 0) })) ∧
  (∀ (s : State) (g : Nat) (t : Task) (p : Place) (ws : List Nat) (d : Dev), ClustersActing s → ProgAt s g 7 t p ws d →
    let r := fld (ws.headD 0) 119 116
    exec (.progAdda g) s = after s (setPlace d t g { p with
      pc := p.pc + 1
      regs := if r = 15 then p.regs else setAt p.regs r ((p.regs.getD r 0 + fld (ws.headD 0) 47 0) % 2 ^ 48) })) ∧
  (∀ (s : State) (g : Nat) (t : Task) (p : Place) (ws : List Nat) (d : Dev), ClustersActing s → ProgAt s g 8 t p ws d →
    exec (.progLoop g) s = after s (setPlace d t g { p with
      pc := p.pc + 1, loops := (p.pc + 1, fld (ws.headD 0) 119 104) :: p.loops })) ∧
  (∀ (s : State) (g : Nat) (t : Task) (p : Place) (ws : List Nat) (d : Dev) (a n : Nat) (l : List (Nat × Nat)),
    ClustersActing s → ProgAt s g 9 t p ws d → p.loops = (a, n) :: l →
    exec (.progEndl g) s = after s (setPlace d t g (if n = 0 then { p with pc := p.pc + 1, loops := l }
      else { p with pc := a, loops := (a, n - 1) :: l }))) ∧
  (∀ (s : State) (g : Nat) (t : Task) (p : Place) (ws : List Nat) (d : Dev), ClustersActing s → ProgAt s g 10 t p ws d →
    exec (.progYield g) s = after s (setPlace d t g { p with pc := p.pc + 1, busySince := false })) ∧
  (∀ (s : State) (g : Nat) (t : Task) (p : Place) (ws : List Nat) (d : Dev), ClustersActing s → ProgAt s g 13 t p ws d →
    exec (.progEmit g) s = after s (setPlace d t g { p with
      pc := p.pc + 1, emitIssued := true, emitMark := ((vcAt d g).nextPass, d.seq.nextDesc) })) ∧
  (∀ (s : State) (g : Nat) (t : Task) (p : Place) (ws : List Nat) (d : Dev), ClustersActing s → ProgAt s g 14 t p ws d →
    exec (.progEnd g) s = after s (takeStarted (setPlace d t g { p with pc := p.pc + 1, ended := true }) g))

/-- PROG_TU appends word 1 to the command queue of every TU of TMASK with room; PROG_FD enters its descriptor, with the
registers added to SADDR and DADDR and the task's number, at the end of its queue (a DRAIN at the end of all four);
PROG_PASS opens its pass; PROG_WAIT
takes the semaphore and goes on, or stays on its word while it is blocked; PROG_SIG signals; PROG_GATH asks for the gather
and PROG_BKT queues the bucket behind the passes already opened on every cluster of the context. A full queue holds PROG_TU and PROG_FD back. -/
def Obligations.ProgramFeedsUnits : Prop :=
  (∀ (s : State) (g : Nat) (t : Task) (p : Place) (ws : List Nat) (d : Dev), ClustersActing s → ProgAt s g 1 t p ws d →
    let us := (setBits 8 (fld (ws.headD 0) 119 112)).map (fun i => 8 * g + i)
    (∀ u ∈ us, (tuAt d u).queue.length < 64) →
    exec (.progTu g) s = after s (setPlace (us.foldl (fun y u =>
      let m := shadowMark y u (ws.getD 1 0) (bitAt (ws.headD 0) 111)
      setTu m.2 u { tuAt m.2 u with queue := (tuAt m.2 u).queue ++
        [{ word := m.1, ctx := t.ctx, tag := t.tag, replay := false, fallback := false, reload := none }] }) d)
      t g { p with pc := p.pc + 2, busySince := true })) ∧
  (∀ (s : State) (g i : Nat) (t : Task) (p : Place) (ws : List Nat) (d : Dev), ClustersActing s → ProgAt s g 1 t p ws d →
    i < 8 → bitAt (ws.headD 0) (112 + i) = true → 64 ≤ (tuAt d (8 * g + i)).queue.length → exec (.progTu g) s = after s s.dev) ∧
  (∀ (s : State) (g : Nat) (t : Task) (p : Place) (ws : List Nat) (d : Dev), ClustersActing s → ProgAt s g 2 t p ws d →
    let w0 := ws.headD 0
    let raw := fdOfWords ws
    let desc := setFld (setFld (setFld raw 639 592 (fdSaddr raw + areg p (fld w0 119 116)))
      591 544 (fdDaddr raw + areg p (fld w0 115 112))) 705 698 t.id
    (∀ q ∈ fdQueues desc, (tget [] (feAt d g).queues q).length < queueDepth q) →
    ∃ e, exec (.progFd g) s = after s e ∧
      (∀ q ∈ fdQueues desc, tget [] (feAt e g).queues q = tget [] (feAt d g).queues q ++
        [{ desc, ctx := t.ctx, task := t.id, start := t.start, tu := 128, reload := none, wdone := false
           num := d.seq.nextDesc }]) ∧
      (∀ k, ¬ k ∈ fdQueues desc → tget [] (feAt e g).queues k = tget [] (feAt d g).queues k) ∧
      (∀ k, k ≠ g → feAt e k = feAt d k) ∧
      e.seq.nextDesc = d.seq.nextDesc + 1 ∧ e.tus = d.tus ∧ e.vcs = d.vcs ∧ e.sems = d.sems ∧ e.mem = d.mem) ∧
  (∀ (s : State) (g q : Nat) (t : Task) (p : Place) (ws : List Nat) (d : Dev), ClustersActing s → ProgAt s g 2 t p ws d →
    let w0 := ws.headD 0
    let raw := fdOfWords ws
    q ∈ fdQueues (setFld (setFld (setFld raw 639 592 (fdSaddr raw + areg p (fld w0 119 116)))
      591 544 (fdDaddr raw + areg p (fld w0 115 112))) 705 698 t.id) →
    queueDepth q ≤ (tget [] (feAt d g).queues q).length → exec (.progFd g) s = after s s.dev) ∧
  (∀ (s : State) (g : Nat) (t : Task) (p : Place) (ws : List Nat) (d : Dev), ClustersActing s → ProgAt s g 3 t p ws d →
    fld (ws.headD 0) 111 104 = 0 →
    exec (.progPass g) s = after s (setPlace (openPass d g t p (ws.headD 0) (ws.getD 1 0) 8 0) t g { p with pc := p.pc + 2 })) ∧
  (∀ (s : State) (g : Nat) (t : Task) (p : Place) (ws : List Nat) (d : Dev), ClustersActing s → ProgAt s g 3 t p ws d →
    let ls := setBits 8 (fld (ws.headD 0) 111 104)
    ls ≠ [] →
    exec (.progPass g) s = after s (setPlace (ls.zipIdx.foldl (fun y l =>
      openPass y g t p (ws.headD 0) (ws.getD 1 0) l.1 l.2) d) t g { p with pc := p.pc + 2 })) ∧
  (∀ (s : State) (g : Nat) (t : Task) (p : Place) (ws : List Nat) (d : Dev), ClustersActing s → ProgAt s g 4 t p ws d →
    let n := fld (ws.headD 0) 119 108
    let r := semTake d g n 11 (fld (ws.headD 0) 107 104 + 1)
    exec (.progWait g) s = after s (if r.1 then setPlace r.2 t g { p with pc := p.pc + 1, waiting := none }
      else setPlace r.2 t g { p with waiting := some n })) ∧
  (∀ (s : State) (g : Nat) (t : Task) (p : Place) (ws : List Nat) (d : Dev), ClustersActing s → ProgAt s g 5 t p ws d →
    let dest := fld (ws.headD 0) 119 116
    let n := fld (ws.headD 0) 115 104
    exec (.progSig g) s = after s (semSignal (ringBells (setPlace d t g { p with pc := p.pc + 1 }) t.ctx g dest n
      (fld (ws.headD 0) 103 100 + 1) t.bwd t.tag t.step (areg p 0)) dest n (fld (ws.headD 0) 103 100 + 1) t.ctx)) ∧
  (∀ (s : State) (g : Nat) (t : Task) (p : Place) (ws : List Nat) (d : Dev), ClustersActing s → ProgAt s g 11 t p ws d →
    exec (.progGath g) s = after s (gath (setPlace d t g { p with pc := p.pc + 1 }) t.id t.ctx t.tag
      (fld (ws.headD 0) 119 96) g (fld (ws.headD 0) 95 84))) ∧
  (∀ (s : State) (g : Nat) (t : Task) (p : Place) (ws : List Nat) (d : Dev), ClustersActing s → ProgAt s g 12 t p ws d →
    ∃ e, exec (.progBkt g) s = after s e ∧ e.ce.buckets = d.ce.buckets ++
        [{ cluster := g, task := t.id, bucket := fld (ws.headD 0) 119 96, step := fwdStep d t.ctx t.tag, place := t.place
           before := (ctxClusters d t.ctx).map (fun k => (k, (vcAt d k).nextPass)) }] ∧
      (∀ u, taskAt d t.id = some u → ∃ v, taskAt e t.id = some v ∧ placeAt v g = { p with pc := p.pc + 1 }) ∧
      e.mem = d.mem ∧ e.sems = d.sems ∧ e.fes = d.fes ∧ e.tus = d.tus ∧ e.vcs = d.vcs)

/-- Words of an image in the scratch of the cluster's own half, with no wrong bit in them, are the 16 B groups at the image's
base, and reading them changes nothing. Past LEN, and for a word that is no valid command, whichever of the fifteen commands is asked for, 0x8601
is logged with the context and the place, the context stops, and no byte of memory changes. A cluster that issues for no
task does nothing, whichever is asked for. -/
def Obligations.ProgramWords : Prop :=
  (∀ (d : Dev) (t : Task) (g n pc a : Nat), a = ctxImage d t.ctx + 16 * pc → g < 16 → 0 < n → 16 * (pc + n) ≤ (ctxAt d t.ctx).imgLen →
    a / nearSize = g / 8 → a < 2 * nearSize → accessible d a (16 * n) = true → ueIn d.mem a (16 * n) = [] →
    ceIn d.mem a (16 * n) = [] → ctxLive (ctxAt d t.ctx) = true →
    readWords d t g n pc = (some (some ((List.range n).map (fun i => memVal d.mem (a + 16 * i) 16))), d)) ∧
  (∀ (s : State) (g : Nat) (t : Task) (p : Place), ClustersActing s → issuing s.dev g = some (t, p) → t.ctx < 64 →
    ((ctxAt s.dev t.ctx).imgLen < 16 * (p.pc + 1) ∨ (∃ w ws, readWords s.dev t g 1 p.pc = (some (some w), s.dev) ∧
      readWords s.dev t g (cmdWords (fld (w.headD 0) 127 120)) p.pc = (some (some ws), s.dev) ∧
      cmdValid s.dev g p ws = false)) →
    ∀ c ∈ [Instr.progNop g, .progTu g, .progFd g, .progPass g, .progWait g, .progSig g, .progSeta g, .progAdda g,
        .progLoop g, .progEndl g, .progYield g, .progGath g, .progBkt g, .progEmit g, .progEnd g],
      ∃ d, exec c s = after s d ∧ Logged d 0x8601 t.ctx (g * 2 ^ 32 + p.pc) ∧ (ctxAt d t.ctx).st = .stopping ∧
        (ctxAt d t.ctx).cause = 0x8601 ∧ d.mem = s.dev.mem ∧ d.sems = s.dev.sems) ∧
  (∀ (s : State) (g : Nat), issuing s.dev g = none →
    ∀ c ∈ [Instr.progNop g, .progTu g, .progFd g, .progPass g, .progWait g, .progSig g, .progSeta g, .progAdda g,
        .progLoop g, .progEndl g, .progYield g, .progGath g, .progBkt g, .progEmit g, .progEnd g],
      exec c s = after s s.dev)

/-- TASK_DEQUEUE of a cluster without a task takes the started task of its bank's context, else the first ready entry, which
becomes a task of every cluster of its CMASK; EMIT_COMPLETE writes the outbound entry once; TASK_COMPLETE removes the task,
gives its slot back, ends its uses and, for a backward, the tag; TASK_SWITCH places what is owed as room has come, then
the FENCEs, then takes the task's work out and places the DRAIN, then exchanges the tasks. A FENCE enters a queue with
room at once and is owed to a full one. -/
def Obligations.TasksStartAndComplete : Prop :=
  (∀ (s : State) (g h i : Nat) (t : Task), ClustersActing s → needsTask s.dev g = true → tfind s.dev.seq.switching g = none →
    let d := (heldByStore s.dev g).foldl (fun x c => raiseStep x 0x4681 c g)
      (bump (bump s.dev 0x6841 0 h) 0x6031 (g + 1) i)
    selectStarted d g = some t → exec (.taskDequeue g h i) s = after s (takeStarted d g)) ∧
  (∀ (s : State) (g h i c : Nat) (b : Bool), ClustersActing s → needsTask s.dev g = true →
    tfind s.dev.seq.switching g = none →
    let d := (heldByStore s.dev g).foldl (fun x c => raiseStep x 0x4681 c g)
      (bump (bump s.dev 0x6841 0 h) 0x6031 (g + 1) i)
    selectStarted d g = none → selectNew d g = some (c, b) →
    exec (.taskDequeue g h i) s = after s ((ctxClusters d c).foldl takeStarted (startTask d c b))) ∧
  (∀ (s : State) (id : Nat) (t : Task), ClustersActing s → taskAt s.dev id = some t → t.emitted = false →
    ctxLive (ctxAt s.dev t.ctx) = true → (ctxClusters s.dev t.ctx).all (emitDone s.dev t) = true →
    writesDone s.dev t = true →
    exec (.emitComplete id) s = after s (sendEntry (setTask s.dev { t with emitted := true }) t)) ∧
  (∀ (s : State) (id : Nat) (t : Task), ClustersActing s → taskAt s.dev id = some t → ctxLive (ctxAt s.dev t.ctx) = true →
    (ctxClusters s.dev t.ctx).all (placeDone s.dev t) = true → writesDone s.dev t = true →
    ((ctxClusters s.dev t.ctx).all (fun g => !(placeAt t g).emitIssued) || t.emitted) = true →
    let d := stampRun (slotDone (dropTask s.dev id) (taskQueue t.ctx t.bwd) t.inAddr) t.ctx
    exec (.taskComplete id) s =
      after s (settleCtx (dropUses (if t.bwd then unbindTag d t.ctx t.tag else d) id) t.ctx)) ∧
  (∀ (s : State) (g : Nat), ClustersActing s →
    let d := placeOwed s.dev g
    tfind d.seq.switching g = none → switchDue d g = true →
    let e := oweFences d ((List.range 8).map (fun i => 8 * g + i))
    exec (.taskSwitch g) s = after s { e with seq := { e.seq with switching := tset e.seq.switching g 1 } }) ∧
  (∀ (s : State) (g : Nat) (t : Task), ClustersActing s →
    let d := placeOwed s.dev g
    tfind d.seq.switching g = some 1 → currentTask d g = some t →
    (List.range 8).all (fun i => fenced (tuAt d (8 * g + i))) = true → (∀ u ∈ d.seq.owedFences, u / 8 ≠ g) →
    let e := oweDrains (suspendTask d g t) [g]
    exec (.taskSwitch g) s = after s { e with seq := { e.seq with switching := tset e.seq.switching g 2 } }) ∧
  (∀ (s : State) (g : Nat), ClustersActing s →
    let d := placeOwed s.dev g
    tfind d.seq.switching g = some 2 → drained (feAt d g) = true → ¬ g ∈ d.seq.owedDrains →
    exec (.taskSwitch g) s = after s (switchIn d g)) ∧
  (∀ (d : Dev) (t : Nat), d.seq.owedFences = [] → (tuAt d t).queue.length < 64 →
    tuAt (oweFences d [t]) t = { tuAt d t with queue := (tuAt d t).queue ++
      [{ word := 3 * 2 ^ 120, ctx := 64, tag := 0, replay := false, fallback := false, reload := none }] } ∧
    (oweFences d [t]).seq.owedFences = []) ∧
  (∀ (d : Dev) (t : Nat), 64 ≤ (tuAt d t).queue.length →
    oweFences d [t] = { d with seq := { d.seq with owedFences := d.seq.owedFences ++ [t] } })

/-- One forward, one backward: FWD while F < M and F - B is at most WARM, else BWD while B < F, and no other kind. The
asynchronous schedule admits a FWD while F < M and I is at most WARM and any BWD. The interleaved order takes VORD
floor(u/C) mod V forward and V - 1 less that backward. A BWD goes before a FWD, whatever arrived first. -/
def Obligations.SchedulesAdmit : Prop :=
  (∀ f b m w : Nat, nextKind f b m w = some false ↔ f < m ∧ f ≤ b + w) ∧
  (∀ f b m w : Nat, nextKind f b m w = some true ↔ ¬ (f < m ∧ f ≤ b + w) ∧ b < f) ∧
  (∀ (d : Dev) (c : Nat), d.seq.job = .running → d.seq.phase = .stepRunning → ctxLive (ctxAt d c) = true →
    (ctxAt d c).atEnd = false → ctxSched d c = 2 →
    admits d c true = true ∧
    (admits d c false = true ↔ (ctxAt d c).fwd < ctxM d c ∧ (ctxAt d c).inflight ≤ ctxWarm d c)) ∧
  (∀ (d : Dev) (c : Nat), 0 < (groupCtxs d (ctxGroup d c)).length →
    nextVord d c false = fwdCount d c / ctxChunk d c % (groupCtxs d (ctxGroup d c)).length ∧
    nextVord d c true = (groupCtxs d (ctxGroup d c)).length - 1 -
      bwdCount d c / ctxChunk d c % (groupCtxs d (ctxGroup d c)).length) ∧
  (∀ (d : Dev) (a b : Nat), selectBefore d (a, true) (b, false) = true ∧ selectBefore d (a, false) (b, true) = false)

/-- FRAME_ASSIGN gives a context with a ready task, first in its turn, the lowest free frame, its image checked; with none
free it begins the swap-out of the context that ran least recently, or waits. SWAP_IN_DONE makes it resident, or running
with a task started, and frees what it had spilled; SWAP_OUT_DONE leaves it without a frame. A bad image stops it with
0x8602. -/
def Obligations.FramesAndSwaps : Prop :=
  (∀ (s : State) (c w f : Nat), ClustersActing s → ctxEn s.dev c = true → (ctxAt s.dev c).st = .swappedOut →
    (ctxAt s.dev c).frame = none → ctxReady s.dev c = true → s.dev.seq.frameWait = [] →
    (List.range 16).find? (fun f => !(framesUsed s.dev).contains f) = some f →
    let d := bump s.dev 0x6033 0 w
    exec (.frameAssign c w) s = after s (giveFrame { d with seq := { d.seq with frameWait := [c] } } c f)) ∧
  (∀ (s : State) (c w : Nat), ClustersActing s → ctxEn s.dev c = true → (ctxAt s.dev c).st = .swappedOut →
    (ctxAt s.dev c).frame = none → ctxReady s.dev c = true → ¬ c ∈ s.dev.seq.frameWait →
    let b := bump s.dev 0x6033 0 w
    let d := { b with seq := { b.seq with frameWait := b.seq.frameWait ++ [c] } }
    (∀ f, f < 16 → f ∈ framesUsed s.dev) → (d.seq.ctxs.any (fun e => e.2.swapping && e.2.st != .swappedOut)) = false →
    (evictFirst d = none → exec (.frameAssign c w) s = after s d) ∧
    (∀ k l e, evictFirst d = some k → spillAll d (spillNeeds d k) = (some l, e) →
      exec (.frameAssign c w) s = after s (setCtx e k { ctxAt e k with swapping := true, spilled := l }))) ∧
  (∀ (d : Dev) (c f : Nat), (ctxAt d c).st = .swappedOut →
    let b := ctxImage d c
    let clean := fun (a n : Nat) => ueIn d.mem a n = [] ∧ ceIn d.mem a n = []
    accessible d b 64 = true → b < 2 * nearSize → b / nearSize = ctxHalf d c → clean b 64 →
    clean (b + imgOff (imgHeader d c) 0) (8 * (ctxClusters d c).length) → clean (b + imgOff (imgHeader d c) 4) 72 →
    let e := { d with seq := { d.seq with frameWait := d.seq.frameWait.filter (fun x => x != c) } }
    giveFrame d c f = if imageOk e c then setCtx e c { readImage e c (ctxAt e c) with frame := some f, swapping := true }
      else raiseFault e 0x8602 c 0 c) ∧
  (∀ (s : State) (c f : Nat), ClustersActing s → (ctxAt s.dev c).swapping = true → (ctxAt s.dev c).frame = some f →
    (ctxAt s.dev c).st = .swappedOut → s.dev.mem.ue = [] → s.dev.mem.badSites = [] →
    ∃ d, exec (.swapInDone c) s = after s d ∧
      (ctxAt d c).st = (if s.dev.seq.tasks.any (fun t => t.ctx == c) then .running else .resident) ∧
      (ctxAt d c).swapping = false ∧ (ctxAt d c).frame = some f ∧ (ctxAt d c).spilled = [] ∧ (ctxAt d c).loaded = true ∧
      (∀ x, x ≠ c → ctxAt d x = ctxAt s.dev x) ∧ d.mem.bytes = s.dev.mem.bytes ∧ d.out = s.dev.out) ∧
  (∀ (s : State) (c : Nat), ClustersActing s → (ctxAt s.dev c).swapping = true → (ctxAt s.dev c).st = .resident →
    ∃ d, exec (.swapOutDone c) s = after s d ∧
      ctxAt d c = { ctxAt s.dev c with swapping := false, st := .swappedOut, frame := none } ∧
      (∀ x, x ≠ c → ctxAt d x = ctxAt s.dev x) ∧ (∀ g, tfind d.seq.bankOwner g ≠ some c) ∧ d.sems = s.dev.sems)

/-- START of an idle job runs it from SsStartStep when the device runs, recovery and generation permit it and the offset
check passes; with a wrong offset it fails with STATE and 0x8CE1. STOP makes a running job stop at its next boundary. HALT
stops every context at work, whatever it does. STOP_AT_STEP sets the stop step, 0 for none, or answers STATE for a step
that is past and once the boundary of the pending one has done its work. -/
def Obligations.JobControl : Prop :=
  (∀ s : State, Serving s 0x6022 0 → s.dev.seq.job = .idle → cfg s.dev 0xE001 0 = 0xFF → recoveryForbids s.dev = false →
    genForbids s.dev = false → (startCheck s.dev).1 = true →
    ∃ d, exec .jobStart s = after s d ∧ d.seq.job = .running ∧ d.seq.phase = .stepRunning ∧ d.seq.step = cfg s.dev 0x6021 0 ∧
      d.seq.tasks = [] ∧ d.out.getLast? = some (.status 0x6022 0 0) ∧ Logged d 0x0606 0 (cfg s.dev 0x6021 0)) ∧
  (∀ s : State, Serving s 0x6022 0 → s.dev.seq.job = .idle → cfg s.dev 0xE001 0 = 0xFF → recoveryForbids s.dev = false →
    genForbids s.dev = false → cfg s.dev 0xCE11 0 ≠ cfg s.dev 0x6021 0 →
    ∃ d, exec .jobStart s = after s d ∧ d.seq = s.dev.seq ∧ d.out.getLast? = some (.status 0x6022 0 6) ∧
      Logged d 0x8CE1 (cfg s.dev 0xCE11 0) (fld (cfg d 0xCE20 0) 63 32) ∧ d.mem = s.dev.mem) ∧
  (∀ s : State, Serving s 0x6022 0 → s.dev.seq.job = .running →
    exec .jobStop s = after s (send { s.dev with seq := { s.dev.seq with job := .stopping, stopPending := true } }
      (.status 0x6022 0 0))) ∧
  (∀ s : State, Serving s 0x6022 0 → s.dev.seq.job ≠ .running →
    exec .jobStop s = after s (send s.dev (.status 0x6022 0 0))) ∧
  (∀ s : State, Serving s 0x6022 0 →
    ∃ d, exec .jobHalt s = after s d ∧ d.seq.job = .halted ∧ d.out = s.dev.out ++ [.status 0x6022 0 0] ∧ d.mem = s.dev.mem ∧
      (∀ c ∈ enabledCtxs s.dev, ctxLive (ctxAt d c) = false)) ∧
  (∀ (s : State) (n : Nat), Serving s 0x6026 0 → n ≠ 0 → s.dev.seq.step ≤ n → s.dev.seq.phase = .stepRunning →
    exec (.stopAtStep n) s = after s (send (setObj s.dev 0x6026 0 n) (.status 0x6026 0 0))) ∧
  (∀ (s : State) (n : Nat), Serving s 0x6026 0 → n ≠ 0 → n < s.dev.seq.step →
    exec (.stopAtStep n) s = after s (send s.dev (.status 0x6026 0 6))) ∧
  (∀ s : State, Serving s 0x6026 0 → s.dev.seq.phase = .stepRunning →
    ∃ d, exec (.stopAtStep 0) s = after s d ∧ cfg d 0x6026 0 = 0 ∧ d.out = s.dev.out ++ [.status 0x6026 0 0] ∧
      d.mem = s.dev.mem ∧ d.seq.tasks = s.dev.seq.tasks) ∧
  (∀ (s : State) (n : Nat), Serving s 0x6026 0 → s.dev.seq.phase = .worked → cfg s.dev 0x6026 0 = s.dev.seq.step →
    s.dev.seq.step ≠ 0 → exec (.stopAtStep n) s = after s (send s.dev (.status 0x6026 0 6)))

/-- STEP_END marks a context whose tasks of the step are done; BOUNDARY_BEGIN, with every context at its end, puts a DRAIN
into every engine and a FENCE into every TU, and asked again places what full queues held back; BOUNDARY_TIMEOUT raises
0x8608 once while versions are awaited; BOUNDARY_WORK does the boundary's work; STEP_ADVANCE takes SsStep and the random
offset to n + 1 and admits tasks again, or leaves the job idle with no stop step where a stop is pending. CONTEXT_STOPPED
makes a stopping context stopped once its units have finished. -/
def Obligations.StepBoundary : Prop :=
  (∀ (s : State) (c : Nat), Acting s → jobActive s.dev = true → s.dev.seq.phase = .stepRunning → ctxEn s.dev c = true →
    ctxLive (ctxAt s.dev c) = true → atStepEnd s.dev c = true →
    exec (.stepEnd c) s = after s (setCtx s.dev c { ctxAt s.dev c with atEnd := true })) ∧
  (∀ s : State, Acting s → jobActive s.dev = true → s.dev.seq.phase = .stepRunning → s.dev.seq.switching = [] →
    boundaryReady s.dev = true → (∀ t, t < 128 → (tuAt s.dev t).queue.length < 64) →
    (∀ f q, f < 16 → q < 4 → (tget [] (feAt s.dev f).queues q).length < queueDepth q) →
    ∃ d, exec .boundaryBegin s = after s d ∧ d.seq.phase = .draining ∧ d.mem = s.dev.mem ∧ d.out = s.dev.out ∧
      (∀ t, t < 128 → (tuAt d t).queue.length = (tuAt s.dev t).queue.length + 1) ∧
      (∀ f q, f < 16 → q < 4 → (tget [] (feAt d f).queues q).length = (tget [] (feAt s.dev f).queues q).length + 1)) ∧
  (∀ s : State, Acting s → s.dev.seq.phase = .draining →
    exec .boundaryBegin s = after s ((List.range 16).foldl placeOwed s.dev)) ∧
  (∀ s : State, Acting s → s.dev.seq.phase = .draining → unitsQuiet s.dev = true → versionsDone s.dev = true →
    let d1 := torporTests (rebuildTick (closeAll s.dev))
    let d2 := healthStep (genBoundary { d1 with seq := { d1.seq with phase := .worked } } s.dev.seq.step)
    exec .boundaryWork s = after s { d2 with
      seq := { d2.seq with cutHeld := cutHere d2 }, up := { d2.up with heldForCut := cutHere d2 } }) ∧
  (∀ s : State, Acting s → s.dev.seq.phase = .draining → s.dev.seq.timedOut = false → unitsQuiet s.dev = true →
    versionsDone s.dev = false →
    exec .boundaryTimeout s = after s (raise { s.dev with seq := { s.dev.seq with timedOut := true } } 0x8608 0 s.dev.seq.step)) ∧
  (∀ (s : State) (us : Nat), Acting s → s.dev.seq.phase = .worked → s.dev.sup.enginesDone = 0 → s.dev.seq.cutHeld = false →
    ∃ d, exec (.stepAdvance us) s = after s d ∧ d.seq.step = (s.dev.seq.step + 1) % 2 ^ 64 ∧ d.seq.phase = .stepRunning ∧
      cfg d 0xCE11 0 = (s.dev.seq.step + 1) % 2 ^ 64 ∧ cfg d 0x6025 0 = us ∧ d.mem = s.dev.mem ∧
      (stopHere s.dev = true → d.seq.job = .idle ∧ cfg d 0x6026 0 = 0 ∧ Logged d 0x0607 0 s.dev.seq.step) ∧
      (stopHere s.dev = false → d.seq.job = s.dev.seq.job)) ∧
  (∀ (s : State) (c : Nat), Acting s → (ctxAt s.dev c).st = .stopping →
    (∀ g ∈ ctxClusters s.dev c, ∀ i, i < 8 → ∀ b ∈ [(tuAt s.dev (8 * g + i)).bank0, (tuAt s.dev (8 * g + i)).bank1],
      ¬ (b.draining = true ∧ b.ctx = c)) →
    ∃ d, exec (.contextStopped c) s = after s d ∧ (ctxAt d c).st = .stopped ∧
      Logged d 0x8603 c (ctxAt s.dev c).cause ∧ (∀ t ∈ d.seq.tasks, t.ctx ≠ c))

/-- SQ_ENTRY_RECEIVE of an in-window entry from the queue's peer joins its queue, in the spill area once the resident part is
full; one below the window, one received before and one from another sender are discarded, counted and leave the queue;
one ahead of the window stops the context. SQ_DATA_WRITE to a slot not lent to its tag is discarded, and its WRITE-DONE is
sent all the same. SQ_GRANT_RECEIVE holds one grant more, WRITE_DONE ends one outstanding write, SPILL_REFILL reads the
oldest spilled entries back behind the resident ones, once half the resident part is free. -/
def Obligations.SpawnQueueCommands : Prop :=
  (∀ (s : State) (q e : Nat), Acting s →
    queuePeer s.dev (q / 2) (q % 2) = some (entSrcdev e, entSrcctx e, entKind e) →
    tagDist (sqAt s.dev q).low (entTag e) < 256 → bitAt (sqAt s.dev q).rcvd (tagDist (sqAt s.dev q).low (entTag e)) = false →
    (sqAt s.dev q).spilled = [] → (sqAt s.dev q).resident.length < poolRes s.dev (q / 2) (q % 2) →
    ∃ d, exec (.sqEntryReceive q e) s = after s d ∧ (sqAt d q).resident = (sqAt s.dev q).resident ++ [e] ∧
      (sqAt d q).spilled = [] ∧ d.sq.arrivals = s.dev.sq.arrivals ++ [q] ∧ (∀ k, k ≠ q → sqAt d k = sqAt s.dev k) ∧
      d.mem = s.dev.mem ∧ d.out = s.dev.out) ∧
  (∀ (s : State) (q e : Nat), Acting s →
    queuePeer s.dev (q / 2) (q % 2) = some (entSrcdev e, entSrcctx e, entKind e) →
    tagDist (sqAt s.dev q).low (entTag e) < 256 → bitAt (sqAt s.dev q).rcvd (tagDist (sqAt s.dev q).low (entTag e)) = false →
    (sqAt s.dev q).spilled ≠ [] ∨ poolRes s.dev (q / 2) (q % 2) ≤ (sqAt s.dev q).resident.length →
    let a := spillArea s.dev q + 64 * ((sqAt s.dev q).spillNext % 256)
    ∃ d low rcvd, exec (.sqEntryReceive q e) s = after s d ∧ (sqAt d q).resident = (sqAt s.dev q).resident ∧
      (sqAt d q).spilled = (sqAt s.dev q).spilled ++ [a] ∧ d.sq.arrivals = s.dev.sq.arrivals ++ [q] ∧
      (∀ k, k ≠ q → sqAt d k = sqAt s.dev k) ∧ d.out = s.dev.out ∧
      d.mem = (devWrite (setSq s.dev q { sqAt s.dev q with low, rcvd }) a (leBytes 64 e)).mem) ∧
  (∀ (s : State) (q e : Nat), Acting s →
    queuePeer s.dev (q / 2) (q % 2) = some (entSrcdev e, entSrcctx e, entKind e) →
    256 ≤ tagDist (sqAt s.dev q).low (entTag e) → tagDist (sqAt s.dev q).low (entTag e) < 8388608 →
    exec (.sqEntryReceive q e) s = after s (raiseFault (bump s.dev 0x6132 (q + 1) 1) 0x8622 q (entTag e) (q / 2))) ∧
  (∀ (s : State) (q e : Nat), Acting s →
    queuePeer s.dev (q / 2) (q % 2) = some (entSrcdev e, entSrcctx e, entKind e) →
    8388608 ≤ tagDist (sqAt s.dev q).low (entTag e) →
    exec (.sqEntryReceive q e) s = after s (sqDiscard s.dev q 0x6130 0x4620 (entTag e))) ∧
  (∀ (s : State) (q e : Nat), Acting s →
    queuePeer s.dev (q / 2) (q % 2) = some (entSrcdev e, entSrcctx e, entKind e) →
    tagDist (sqAt s.dev q).low (entTag e) < 256 → bitAt (sqAt s.dev q).rcvd (tagDist (sqAt s.dev q).low (entTag e)) = true →
    exec (.sqEntryReceive q e) s = after s (sqDiscard s.dev q 0x6131 0x4621 (entTag e))) ∧
  (∀ (s : State) (q e : Nat), Acting s →
    queuePeer s.dev (q / 2) (q % 2) ≠ some (entSrcdev e, entSrcctx e, entKind e) →
    exec (.sqEntryReceive q e) s = after s (sqDiscard s.dev q 0x6133 0x4623 (entTag e))) ∧
  (∀ (s : State) (q tag a src id : Nat) (bs : List Byte), Acting s →
    (∀ i, slotOf s.dev q a = some i → ¬ ((recvSlot s.dev q i).granted = true ∧
      ((recvSlot s.dev q i).tag = none ∨ (recvSlot s.dev q i).tag = some tag) ∧
      tagDist (sqAt s.dev q).low tag < 256 ∧ bitAt (sqAt s.dev q).rcvd (tagDist (sqAt s.dev q).low tag) = false)) →
    exec (.sqDataWrite q tag a src id bs) s =
      after s (relaySend (sqDiscard s.dev q 0x6134 0x4624 tag) src 2 (q % 2) 1 (q / 2 % 256) id [])) ∧
  (∀ (s : State) (q tag a src id i : Nat) (bs : List Byte) (r : ReadRes) (d : Dev), Acting s →
    slotOf s.dev q a = some i →
    (recvSlot s.dev q i).granted = true → ((recvSlot s.dev q i).tag = none ∨ (recvSlot s.dev q i).tag = some tag) →
    tagDist (sqAt s.dev q).low tag < 256 → bitAt (sqAt s.dev q).rcvd (tagDist (sqAt s.dev q).low tag) = false →
    jobWrite (setRecvSlot s.dev q i { recvSlot s.dev q i with tag := some tag })
      ((ctxClusters s.dev (q / 2)).headD 0) (q / 2) 65537 none a bs = (r, d) → (∀ x y, r ≠ .fault x y) →
    exec (.sqDataWrite q tag a src id bs) s = after s (relaySend d src 2 (q % 2) 1 (q / 2 % 256) id [])) ∧
  (∀ (s : State) (c k a n : Nat), Acting s →
    let q := 2 * (c % 64) + k % 2
    exec (.sqGrantReceive c k a n) s = after s (setSq s.dev q { sqAt s.dev q with held := (sqAt s.dev q).held ++ [(a, n)] })) ∧
  (∀ (s : State) (c id : Nat), Acting s → exec (.writeDone c id) s = after s { s.dev with sq := { s.dev.sq with
    writesOut := s.dev.sq.writesOut.filter (fun w => !(w.1 == c && w.2.2 == id)) } }) ∧
  (∀ (s : State) (q : Nat), Acting s → (sqAt s.dev q).spilled ≠ [] →
    2 * (sqAt s.dev q).resident.length ≤ poolRes s.dev (q / 2) (q % 2) →
    let n := poolRes s.dev (q / 2) (q % 2) - (sqAt s.dev q).resident.length
    ∃ d, exec (.spillRefill q) s = after s d ∧
      (sqAt d q).resident = (sqAt s.dev q).resident ++ ((sqAt s.dev q).spilled.take n).map (spilledEntry s.dev) ∧
      (sqAt d q).spilled = (sqAt s.dev q).spilled.drop n ∧ (∀ k, k ≠ q → sqAt d k = sqAt s.dev k) ∧
      d.mem.bytes = s.dev.mem.bytes ∧ d.out = s.dev.out) ∧
  (∀ (s : State) (q : Nat), Acting s →
    (sqAt s.dev q).spilled = [] ∨ poolRes s.dev (q / 2) (q % 2) < 2 * (sqAt s.dev q).resident.length →
    exec (.spillRefill q) s = after s s.dev)

/-- SQ_POST to an enabled head context with a free slot appends an entry with the next sequence number, slot and place in
step, advances the sequence and answers OK; with the check on, a post at the first place of a step whose position differs
from the base plus step times positions per step is refused with STATE and 0x8CE2 and leaves the queue. A record with a
reserved bit is RANGE, and one for a context without a free head slot STATE. -/
def Obligations.PostsEnterTheHeadQueue : Prop :=
  (∀ (s : State) (r : Nat), Serving s 0x6121 0 → fld r 121 96 = 0 →
    let c := fld r 127 122
    let q := sqAt s.dev (2 * c)
    ctxEn s.dev c = true → ctxHead s.dev c = true → headFree s.dev c = true → cfg s.dev 0xCE14 0 = 0 →
    tagDist q.low (q.headK % 2 ^ 24) < 256 → bitAt q.rcvd (tagDist q.low (q.headK % 2 ^ 24)) = false →
    let e := mkEntry (q.headK % 2 ^ 24) 0 (ctxStage s.dev c) (ownDev s.dev) c ((q.headK - q.headK0) % ctxM s.dev c)
      s.dev.seq.step (slotAddr s.dev (2 * c) (headSlot s.dev c)) (fld r 95 64) (fld r 63 0)
    ∃ d, exec (.sqPost r) s = after s d ∧ (sqAt d (2 * c)).headK = q.headK + 1 ∧
      d.out = s.dev.out ++ [.status 0x6121 0 0] ∧ d.sq.arrivals = s.dev.sq.arrivals ++ [2 * c] ∧
      (q.spilled = [] → q.resident.length < poolRes s.dev c 0 →
        (sqAt d (2 * c)).resident = q.resident ++ [e] ∧ (sqAt d (2 * c)).spilled = [] ∧ d.mem = s.dev.mem) ∧
      (q.spilled ≠ [] ∨ poolRes s.dev c 0 ≤ q.resident.length →
        (sqAt d (2 * c)).resident = q.resident ∧
        (sqAt d (2 * c)).spilled = q.spilled ++ [spillArea s.dev (2 * c) + 64 * (q.spillNext % 256)])) ∧
  (∀ (s : State) (r : Nat), Serving s 0x6121 0 → fld r 121 96 = 0 →
    let c := fld r 127 122
    let q := sqAt s.dev (2 * c)
    let n := (cfg s.dev 0x6021 0 + (q.headK - q.headK0) / ctxM s.dev c) % 2 ^ 64
    ctxEn s.dev c = true → ctxHead s.dev c = true → headFree s.dev c = true → cfg s.dev 0xCE14 0 = 1 →
    (q.headK - q.headK0) % ctxM s.dev c = 0 →
    (cfg s.dev 0xCE12 0 + n * cfg s.dev 0xCE13 0) % 2 ^ 64 ≠ fld r 63 0 →
    ∃ d, exec (.sqPost r) s = after s d ∧ d.sq = s.dev.sq ∧ Logged d 0x8CE2 c (fld r 63 0) ∧
      d.out = s.dev.out ++ [.status 0x6121 0 6] ∧ d.mem = s.dev.mem) ∧
  (∀ (s : State) (r : Nat), Serving s 0x6121 0 → fld r 121 96 ≠ 0 →
    exec (.sqPost r) s = after s (send s.dev (.status 0x6121 0 5))) ∧
  (∀ (s : State) (r : Nat), Serving s 0x6121 0 → fld r 121 96 = 0 → headFree s.dev (fld r 127 122) = false →
    ∃ d, exec (.sqPost r) s = after s d ∧ d.sq = s.dev.sq ∧ d.out = s.dev.out ++ [.status 0x6121 0 6] ∧ d.mem = s.dev.mem)

/-- With the slot record read, COMMIT_NOTICE sets the rank's bit of the version's slot, of the next version's where the
slot holds the one before it, and discards and counts any other; RELEASE_NOTICE sets the release bit of a complete version,
and discards and counts any other; MOLT of a slot that every rank has released takes it to molting and drops its copies;
MOLT_FINISH empties it for VER + RING with PNMASK as CMASK, and a waiting hand-over proceeds; VIEW_REMAP_DONE gives the view
its version, GC_ALLOCATE the oldest waiting gather its buffer, GATHER_DONE completes a whole buffer, and RELEASE_CONTEXT
releases the records of a stopped context. A slot record that cannot be read raises 0x8684 and stops the contexts that bind
the entry. -/
def Obligations.VersionCommands : Prop :=
  (∀ (s : State) (e v r : Nat), Acting s →
    let i := ringSlot s.dev e v
    let d := readSlot s.dev e i
    let x := vslotAt d e i
    let w := (v + (2 ^ 32 - parRing d e)) % 2 ^ 32
    (memberRank d e r = true → x.ver = some v → 3 ≤ x.state →
      exec (.commitNotice e v r) s = after s (setVslot d e i { x with cmask := x.cmask ||| 2 ^ r })) ∧
    (memberRank d e r = true → x.ver = none ∧ x.state = 0 ∨ x.ver = some v ∧ x.state ≤ 2 →
      exec (.commitNotice e v r) s =
        after s (completeCheck (setVslot d e i { x with ver := some v, cmask := x.cmask ||| 2 ^ r }) e i)) ∧
    (memberRank d e r = true → x.ver ≠ some v → x.ver = some w →
      exec (.commitNotice e v r) s = after s (setVslot d e i { x with pnmask := x.pnmask ||| 2 ^ r })) ∧
    (memberRank d e r = false ∨ (x.ver ≠ some v ∧ x.ver ≠ some w ∧ ¬ (x.ver = none ∧ x.state = 0)) →
      exec (.commitNotice e v r) s = after s (raiseStep (bump d 0x6848 0 1) 0x4685 e v)) ∧
    (memberRank d e r = true → x.ver = some v → x.state = 3 →
      exec (.releaseNotice e v r) s = after s (setVslot d e i { x with rmask := x.rmask ||| 2 ^ r })) ∧
    (memberRank d e r = false ∨ x.ver ≠ some v ∨ x.state ≠ 3 →
      exec (.releaseNotice e v r) s = after s (raiseStep (bump d 0x6848 0 1) 0x4685 e v))) ∧
  (∀ (d : Dev) (e i : Nat), eccBad d (.slot e i) = false → readSlot d e i = d) ∧
  (∀ (d : Dev) (e i : Nat), eccBad d (.slot e i) = true →
    readSlot d e i = stopBinders (raise d 0x8684 e i) e 0x8684) ∧
  (∀ (s : State) (e i : Nat), Acting s → moltReady s.dev e i = true →
    ∃ d, exec (.molt e i) s = after s d ∧ vslotAt d e i = { vslotAt s.dev e i with state := 4 } ∧
      (∀ b ∈ d.wv.bufs, ¬ (b.entry = e ∧ b.ver = (vslotAt s.dev e i).ver.getD 0)) ∧ d.mem = s.dev.mem) ∧
  (∀ (s : State) (e i : Nat), Acting s → (vslotAt s.dev e i).state = 4 → (vslotAt s.dev e i).holdq = false →
    exec (.moltFinish e i) s = after s (setVslot (endRec s.dev (.slot e i)) e i { vslotReset with
      ver := (vslotAt s.dev e i).ver.map (fun v => (v + parRing s.dev e) % 2 ^ 32), cmask := (vslotAt s.dev e i).pnmask })) ∧
  (∀ (s : State) (e i : Nat), Acting s → (vslotAt s.dev e i).state = 4 → (vslotAt s.dev e i).holdq = true →
    exec (.moltFinish e i) s = after s (applyStart (setVslot (endRec s.dev (.slot e i)) e i { vslotReset with
      ver := (vslotAt s.dev e i).ver.map (fun v => (v + parRing s.dev e) % 2 ^ 32), cmask := (vslotAt s.dev e i).pnmask
      holdq := true }) e 0)) ∧
  (∀ (s : State) (e w v : Nat), Acting s → (wvAt s.dev e).remap = some v → (wvAt s.dev e).waits = [] →
    ∃ d, exec (.viewRemapDone e w) s = after s d ∧ (wvAt d e).view = some v ∧ (wvAt d e).remap = none ∧
      d.mem.bytes = s.dev.mem.bytes ∧ (∀ t ∈ d.mem.tlb, ∀ c ∈ t.2,
        overlaps (parGjaddr s.dev e) (parGbytes s.dev e) c.base c.size = false)) ∧
  (∀ (s : State) (e w v : Nat), Acting s → (wvAt s.dev e).remap = some v →
    let d := { s.dev with mem := { s.dev.mem with tlb := s.dev.mem.tlb.map (fun t =>
      (t.1, t.2.filter (fun c => !overlaps (parGjaddr s.dev e) (parGbytes s.dev e) c.base c.size))) } }
    exec (.viewRemapDone e w) s = after s (serveEntry
      (bump (setWv d e { wvAt s.dev e with remap := none, view := some v }) 0x6847 0 w) e)) ∧
  (∀ (s : State) (e w v : Nat) (d : Dev), Acting s → s.dev.wv.allocWait.find? (fun a => a.1 == e) = some (e, v) →
    let x := (gcShares s.dev e).foldl (fun x p => bump x 0x6842 (p.1 + 1) w) s.dev
    startGather { x with wv := { x.wv with allocWait := x.wv.allocWait.erase (e, v) } } e v false = some d →
    exec (.gcAllocate e w) s = after s (serveEntry d e)) ∧
  (∀ (s : State) (e w : Nat), Acting s → s.dev.wv.allocWait.find? (fun a => a.1 == e) = none →
    exec (.gcAllocate e w) s = after s s.dev) ∧
  (∀ (s : State) (e v : Nat) (b : Gbuf), Acting s → bufOf s.dev e v = some b → b.missing = 0 → b.complete = false →
    exec (.gatherDone e v) s = after s (serveEntry (setBuf s.dev { b with complete := true }) e)) ∧
  (∀ (s : State) (c : Nat), Serving s 0x6823 0 → (ctxAt s.dev c).st = .stopped →
    let ts := (s.dev.wv.tags.filter (fun e => e.1 / 2 ^ 24 == c)).map (fun e => e.1 % 2 ^ 24)
    exec (.releaseContext c) s =
      after s (raise (ts.foldl (fun x t => unbindTag x c t) (send s.dev (.status 0x6823 0 0))) 0x0686 c ts.length)) ∧
  (∀ (s : State) (c : Nat), Serving s 0x6823 0 → (ctxAt s.dev c).st ≠ .stopped →
    exec (.releaseContext c) s = after s (send s.dev (.status 0x6823 0 0)))

/-- When the rank's notice is the last of the group's, the slot of an OWNDONE version becomes COMPLETE with every rank in
CMASK, and a version newer than CUR becomes CUR; other slots of other entries and memory stay. (An entry that is not
prefetched.) -/
def Obligations.LastNoticeCompletes : Prop :=
  ∀ (s : State) (e v r c : Nat), Acting s → memberRank s.dev e r = true → (wvAt s.dev e).cur = some c → older c v = true →
    let x := vslotAt s.dev e (ringSlot s.dev e v)
    x.ver = some v → x.state = 2 → x.cmask ||| 2 ^ r = allRanks s.dev e → parPref s.dev e = false →
    ∃ d, exec (.commitNotice e v r) s = after s d ∧ (wvAt d e).cur = some v ∧
      (vslotAt d e (ringSlot s.dev e v)).state = 3 ∧ (vslotAt d e (ringSlot s.dev e v)).cmask = allRanks s.dev e ∧
      (∀ k, k ≠ e → wvAt d k = wvAt s.dev k) ∧ d.mem = s.dev.mem

/-- PIECE_RECEIVE of a piece out of range stops the binders; one of a step already applied, or of a place already added, is
discarded and counted; one of a later step than its buffer's, and one for which the park region has no room, is held; one of
a later place than the next is parked. APPLY_START of a whole buffer hands the version slot over and freezes hyperparameters
and clip factor, or waits for the ring; APPLY_DONE writes the master, the moments and the version copy that the summed
gradients give, frees the buffer and passes the version on, and with a word it cannot read changes none of them; CLIP_FACTOR
forms the device's total once and sends it to every other member. An entry stopped by an error neither starts nor ends an
apply. -/
def Obligations.UpdateCommands : Prop :=
  (∀ (s : State) (p : Piece) (w : Nat), Acting s →
    (parEn s.dev p.entry = false ∨ updUses s.dev p.entry < p.use ∨ updExp s.dev p.entry < p.place ∨
      updNelem s.dev p.entry < p.off + p.vals.length) →
    exec (.pieceReceive p w) s = after s (stopBinders (raise s.dev 0x8692 p.entry p.off) p.entry 0x8692)) ∧
  (∀ (s : State) (p : Piece) (w : Nat), Acting s → parEn s.dev p.entry = true → p.use ≤ updUses s.dev p.entry →
    p.place ≤ updExp s.dev p.entry → p.off + p.vals.length ≤ updNelem s.dev p.entry →
    let x := upAt s.dev p.entry
    let y := upBuf x (p.step % 2)
    let half := updHalf s.dev p.entry
    (p.step < x.applied ∨ (y.st ≠ 0 ∧ p.step < y.step) ∨ (y.st ≠ 0 ∧ p.step = y.step ∧ p.place < nextOf y p.use) →
      exec (.pieceReceive p w) s = after s (raiseStep (bump s.dev 0x6944 0 1) 0x4691 p.entry p.step)) ∧
    (x.applied ≤ p.step → y.st ≠ 0 → y.step < p.step →
      exec (.pieceReceive p w) s = after s (raiseStep (bump s.dev 0x6943 (half + 1) w) 0x4696 p.entry p.step)) ∧
    (x.applied ≤ p.step → y.st ≠ 0 → y.step = p.step → nextOf y p.use < p.place →
      cfg s.dev 0x6931 (half + 1) < parkUsed s.dev half + 4 * p.vals.length →
      exec (.pieceReceive p w) s = after s (raiseStep (bump s.dev 0x6943 (half + 1) w) 0x4690 half p.step)) ∧
    (x.applied ≤ p.step → y.st ≠ 0 → y.step = p.step → nextOf y p.use < p.place →
      parkUsed s.dev half + 4 * p.vals.length ≤ cfg s.dev 0x6931 (half + 1) →
      exec (.pieceReceive p w) s =
        after s (bump (setUp s.dev p.entry { x with parked := x.parked ++ [p] }) 0x6942 0 1))) ∧
  (∀ (s : State) (e w b : Nat) (cf : F32), Acting s → oldestBuf (upAt s.dev e) = some b → parEn s.dev e = true →
    (upBuf (upAt s.dev e) b).st = 2 → s.dev.up.heldForCut = false → (upAt s.dev e).stopped = false →
    applyClip s.dev e (upBuf (upAt s.dev e) b).step = some cf →
    let v := ((upAt s.dev e).lastv + 1) % 2 ^ 32
    (handoverFree s.dev e v = true → exec (.applyStart e w) s =
      after s (setUp (handover s.dev e v (upBuf (upAt s.dev e) b).step) e
        { setUpBuf (upAt s.dev e) b { upBuf (upAt s.dev e) b with st := 3 } with hyper := hyperOf s.dev e, cf })) ∧
    (handoverFree s.dev e v = false → exec (.applyStart e w) s = after s (handoverWait s.dev e v w))) ∧
  (∀ (s : State) (e b : Nat), Acting s →
    let x := upAt s.dev e
    [0, 1].find? (fun b => (upBuf x b).st == 3) = some b → applyWhole s.dev e x = true → x.stopped = false →
    let r := updRead s.dev e (applyRanges s.dev e b)
    let v := (x.lastv + 1) % 2 ^ 32
    let k := applyScalars x.hyper (upBuf x b).step (x.t + 1)
    let new := (List.range (updNelem s.dev e)).map (fun i => applyElement (updOpt s.dev e) x.hyper k
      (applyGrad x.hyper x.cf (gradSum s.dev e b x.fused i))
      { w := memF32 s.dev (updMbase s.dev e + 4 * i), m1 := memF32 s.dev (updM1base s.dev e + 4 * i)
        m2 := if updOpt s.dev e = 1 then memF32 s.dev (updM2base s.dev e + 4 * i) else f32Zero })
    let d1 := updWrite r.2 e (updMbase s.dev e) (f32Bytes (new.map (fun n => n.w)))
    let d2 := updWrite d1 e (updM1base s.dev e) (f32Bytes (new.map (fun n => n.m1)))
    let d3 := if updOpt s.dev e = 1 then updWrite d2 e (updM2base s.dev e) (f32Bytes (new.map (fun n => n.m2))) else d2
    let d4 := updWrite d3 e (slotCopy s.dev e v) (versionCopy s.dev e (upBuf x b).step (new.map (fun n => n.w))).1
    (r.1 = true → ∃ f, exec (.applyDone e) s = after s (ownDone f e v) ∧ f.mem = d4.mem ∧
      upBuf (upAt f e) b = upBufReset ∧ (upAt f e).t = x.t + 1 ∧ (upAt f e).lastv = v ∧ (upAt f e).fused = [] ∧
      (upAt f e).applied = (upBuf x b).step + 1 ∧ (∀ k, k ≠ e → upAt f k = upAt s.dev k)) ∧
    (r.1 = false → exec (.applyDone e) s = after s r.2)) ∧
  (∀ (s : State) (e w : Nat), Acting s → (upAt s.dev e).stopped = true →
    exec (.applyStart e w) s = after s s.dev ∧ exec (.applyDone e) s = after s s.dev) ∧
  (∀ (s : State) (g : Nat), Acting s → g ≠ 0 → clipEntries s.dev g ≠ [] →
    let c := clipNext s.dev g
    (∀ e ∈ clipEntries s.dev g, (upBuf (upAt s.dev e) (c % 2)).st = 2 ∧ (upBuf (upAt s.dev e) (c % 2)).step = c ∧
      (upAt s.dev e).stopped = false) →
    let me := grpRank s.dev (clipGroup s.dev g)
    let q := clipTotal s.dev g c
    s.dev.up.totals.any (fun t => t.1 == g && t.2.1 == c && t.2.2.1 == me) = false →
    let r := (clipEntries s.dev g).foldl (fun (s : Bool × Dev) e =>
      let x := updRead s.2 e (clipRanges s.2 e c)
      (s.1 && x.1, x.2)) (true, s.dev)
    (r.1 = true → exec (.clipFactor g) s =
      after s (clipForm (((List.range (grpNmem s.dev (clipGroup s.dev g) + 1)).filter (fun r => r != me)).foldl
        (fun x r => relaySend x (grpMember s.dev (clipGroup s.dev g) r) 8 2 0 g
          (4 * 2 ^ 60 + g * 2 ^ 56 + c % 256 * 2 ^ 48) (leBytes 16 (q.toNat * 2 ^ 96)))
        { r.2 with up := { r.2.up with totals := s.dev.up.totals ++ [(g, c, me, q)] } }) g c)) ∧
    (r.1 = false → exec (.clipFactor g) s = after s r.2))

/-- A piece of one element whose place is the next, in a buffer of its step that is not fused and not yet whole, leaves in
the accumulator at the address computed from entry, use, step and offset the sum of 0 and the value (place 0) or of the word
that stood there and the value; the four bytes are the only memory it changes. -/
def Obligations.PieceIsAdded : Prop :=
  ∀ (s : State) (p : Piece) (w : Nat) (x : F32), Acting s → parEn s.dev p.entry = true → p.use ≤ updUses s.dev p.entry →
    p.place ≤ updExp s.dev p.entry → p.vals = [x] → p.off < updNelem s.dev p.entry →
    fusedEntry s.dev p.entry = false → (upAt s.dev p.entry).applied ≤ p.step →
    let y := upBuf (upAt s.dev p.entry) (p.step % 2)
    y.st = 1 → y.step = p.step → p.place = nextOf y p.use → tget 0 y.added p.use + 1 ≠ updNelem s.dev p.entry →
    s.dev.mem.fills = [] → Mem.wf s.dev.mem = true →
    let a := accAddr s.dev p.entry p.use (p.step % 2) p.off
    ∃ d, exec (.pieceReceive p w) s = after s d ∧
      memF32 d a = (if p.place = 0 then f32Add f32Zero x else f32Add (memF32 s.dev a) x) ∧
      (∀ b, ¬ (a ≤ b ∧ b < a + 4) → memByte d.mem b = memByte s.dev.mem b) ∧ Mem.wf d.mem = true ∧
      (tget 0 (upBuf (upAt d p.entry) (p.step % 2)).added p.use = tget 0 y.added p.use + 1)

/-- RNG_FILL of a valid record while the job is idle and no fill runs is answered PENDING and runs; with a job STATE, with a
fill running BUSY, and with an invalid record RANGE. RNG_FILL_DONE writes the fill's elements one after another, each the
value its position draws, up to a page it cannot use, records how many were written and where it stopped, and answers OK or
STATE. RNG_PROBE answers the block and the draw that its selector and the seed give; a reserved bit is RANGE. -/
def Obligations.RandomCommands : Prop :=
  (∀ (s : State) (r : Nat), Serving s 0xCE40 0 → s.dev.seq.job = .idle → s.dev.fill = none → rfValid r = true →
    exec (.rngFill r) s = after s (send { s.dev with fill := some r } (.status 0xCE40 0 1))) ∧
  (∀ (s : State) (r : Nat), Serving s 0xCE40 0 → s.dev.seq.job ≠ .idle →
    exec (.rngFill r) s = after s (send s.dev (.status 0xCE40 0 6))) ∧
  (∀ (s : State) (r x : Nat), Serving s 0xCE40 0 → s.dev.seq.job = .idle → s.dev.fill = some x →
    exec (.rngFill r) s = after s (send s.dev (.status 0xCE40 0 8))) ∧
  (∀ (s : State) (r : Nat), Serving s 0xCE40 0 → s.dev.seq.job = .idle → s.dev.fill = none → rfValid r = false →
    exec (.rngFill r) s = after s (send s.dev (.status 0xCE40 0 5))) ∧
  (∀ (s : State) (r : Nat), Acting s → s.dev.fill = some r →
    let x := (List.range (rfCount r)).foldl (fillElem r)
      { dev := { s.dev with fill := none }, written := 0, stop := none, page := none }
    exec .rngFillDone s = after s (send (setObj (setObj x.dev 0xCE41 0 x.written) 0xCE42 0 (x.stop.getD 0))
      (.done 0xCE40 0 (if x.stop.isSome then 6 else 0)))) ∧
  (∀ s : State, Acting s → s.dev.fill = none → exec .rngFillDone s = after s s.dev) ∧
  (∀ (r i a : Nat) (x : FillRun), x.stop = none →
    let j := (rfDaddr r + i * rfBytes r) % 2 ^ 48
    (x.page = some (j / 65536, a) →
      fillElem r x i = { x with
        dev := writeThrough x.dev 0 0 (a + j % 65536) (fillBytes (cfg x.dev 0xCE10 0) r i), written := x.written + 1 }) ∧
    (x.page = none → (fillPage x.dev j).1 = some a →
      fillElem r x i = { dev := writeThrough (fillPage x.dev j).2 0 0 (a + j % 65536) (fillBytes (cfg (fillPage x.dev j).2 0xCE10 0) r i)
                         written := x.written + 1, stop := none, page := some (j / 65536, a) }) ∧
    (x.page = none → (fillPage x.dev j).1 = none →
      fillElem r x i = { x with dev := (fillPage x.dev j).2, stop := some (j / 65536 * 65536) })) ∧
  (∀ (s : State) (v : Nat), Serving s 0xCE30 0 → v < 2 ^ 128 → fld v 115 112 = 0 →
    ∃ d, exec (.rngProbe v) s = after s d ∧ cfg d 0xCE31 0 =
        quadVal (rngBlock (cfg s.dev 0xCE10 0) (fld v 127 116) (fld v 63 0) (fld v 111 64 / 8)) +
          draw16 (cfg s.dev 0xCE10 0) (fld v 127 116) (fld v 63 0) (fld v 111 64) * 2 ^ 128 ∧
      cfg d 0xCE30 0 = v ∧ d.out = s.dev.out ++ [.status 0xCE30 0 0] ∧ d.mem = s.dev.mem) ∧
  (∀ (s : State) (v : Nat), Serving s 0xCE30 0 → fld v 115 112 ≠ 0 →
    exec (.rngProbe v) s = after s (send s.dev (.status 0xCE30 0 5)))

/-- On an up quad a DATA flit whose CRC passes and whose SEQ is the expected one has its units appended to its channel's
receive buffer, moves the expected SEQ on by one and is counted, and the 64th without an acknowledgement sends one; a repeat,
a flit past a gap and one whose CRC fails deliver nothing, keep the expected SEQ, and count. The first bad flit of a gap
makes one NAK. CTRL_FLIT and IDLE_FLIT take acknowledgements and credits. ACK_TIMER and CREDIT_RETURN_TIMER send a CTRL flit,
REPLAY_TIMEOUT resends the first stream's unacknowledged flits, CREDIT_STALL counts, and past the limit raises 0x4912. On a
quad that is not up none of them does anything. -/
def Obligations.FlitsArriveInOrder : Prop :=
  (∀ (s : State) (q : Nat) (f : DataFlit), Acting s → (quadAt s.dev q).state = 2 → flitOk f = true →
    let p := (quadAt s.dev q).peerDev
    let e := takeAck s.dev q f.ack
    let n := (rxAt e p f.stream).unacked
    let d := setRx (bump (setQuad e q { quadAt e q with
      rx := tset (quadAt e q).rx f.fvc (tget [] (quadAt e q).rx f.fvc ++ padTo 15 0 f.units) }) 0x9032 (q + 1) 1)
      p f.stream { expected := (f.seq + 1) % 4096, nakSent := false, unacked := n + 1 }
    f.seq = (rxAt e p f.stream).expected →
    (n < 63 → exec (.dataFlit q f) s = after s d) ∧ (63 ≤ n → exec (.dataFlit q f) s = after s (sendFlit d q 2 none []))) ∧
  (∀ (s : State) (q : Nat) (f : DataFlit), Acting s → (quadAt s.dev q).state = 2 → flitOk f = true →
    let p := (quadAt s.dev q).peerDev
    let e := takeAck s.dev q f.ack
    let behind := ((rxAt e p f.stream).expected + (4096 - f.seq)) % 4096
    f.seq ≠ (rxAt e p f.stream).expected → 1 ≤ behind → behind ≤ 2048 →
    exec (.dataFlit q f) s = after s (bump e 0x9033 (q + 1) 1)) ∧
  (∀ (s : State) (q : Nat) (f : DataFlit), Acting s → (quadAt s.dev q).state = 2 →
    let p := (quadAt s.dev q).peerDev
    let e := if flitOk f then takeAck s.dev q f.ack else s.dev
    let r := rxAt e p f.stream
    let behind := (r.expected + (4096 - f.seq)) % 4096
    (flitOk f = false ∨ (f.seq ≠ r.expected ∧ (behind = 0 ∨ 2048 < behind))) →
    exec (.dataFlit q f) s = after s (if r.nakSent then bump e 0x9033 (q + 1) 1
      else sendFlit (setRx (bump e 0x9033 (q + 1) 1) p f.stream { r with nakSent := true }) q 2 (some f.stream) [])) ∧
  (∀ (s : State) (q : Nat) (f : DataFlit), Acting s → (quadAt s.dev q).state = 2 → flitOk f = false →
    let p := (quadAt s.dev q).peerDev
    ∃ d, exec (.dataFlit q f) s = after s d ∧ (∀ c, tget [] (quadAt d q).rx c = tget [] (quadAt s.dev q).rx c) ∧
      (rxAt d p f.stream).expected = (rxAt s.dev p f.stream).expected ∧ (rxAt d p f.stream).nakSent = true ∧
      ((rxAt s.dev p f.stream).nakSent = true → d.out = s.dev.out) ∧
      ((rxAt s.dev p f.stream).nakSent = false → d.out.length = s.dev.out.length + 1)) ∧
  (∀ (s : State) (q : Nat) (a : FlitAck), Acting s → (quadAt s.dev q).state = 2 →
    exec (.ctrlFlit q a) s = after s (takeAck s.dev q a) ∧ exec (.idleFlit q a) s = after s (takeAck s.dev q a)) ∧
  (∀ (s : State) (q : Nat), Acting s → (quadAt s.dev q).state = 2 → (ackDue s.dev q).isSome = true →
    exec (.ackTimer q) s = after s (sendFlit s.dev q 2 none [])) ∧
  (∀ (s : State) (q : Nat), Acting s → (quadAt s.dev q).state = 2 → (creditNext (quadAt s.dev q)).isSome = true →
    exec (.creditReturnTimer q) s = after s (sendFlit s.dev q 2 none [])) ∧
  (∀ (s : State) (q k : Nat), Acting s → (quadAt s.dev q).state = 2 →
    (List.range 16).find? (fun k => carrierOf s.dev k == q && !(streamAt s.dev k).unacked.isEmpty) = some k →
    exec (.replayTimeout q) s = after s (replayStream s.dev q k)) ∧
  (∀ (s : State) (q v ns : Nat), Acting s → (quadAt s.dev q).state = 2 → tget 0 (quadAt s.dev q).credits v = 0 →
    ns ≤ cfg s.dev 0x9019 0 * 1000 →
    exec (.creditStall q v ns) s = after s (bump s.dev 0x9037 (q + 1) ns)) ∧
  (∀ (s : State) (q v ns : Nat), Acting s → (quadAt s.dev q).state = 2 → tget 0 (quadAt s.dev q).credits v = 0 →
    cfg s.dev 0x9019 0 * 1000 < ns →
    exec (.creditStall q v ns) s = after s (raiseStep (bump s.dev 0x9037 (q + 1) ns) 0x4912 (4 * q + v) ns)) ∧
  (∀ (s : State) (q v ns : Nat) (f : DataFlit) (a : FlitAck), Acting s → (quadAt s.dev q).state ≠ 2 →
    ∀ c ∈ [Instr.dataFlit q f, .ctrlFlit q a, .idleFlit q a, .ackTimer q, .creditReturnTimer q, .replayTimeout q,
      .creditStall q v ns], exec c s = after s s.dev)

/-- QUAD_TRAIN of an enabled quad with its clock first passes on the messages it had taken whole; finding its paired role and
a common rate it is up with the peer, the lower version, full credits and nothing owed; a wrong role or its own ID disables
it with 0x8902; disabled, without its clock, in another state or
without a common rate it stays. TRAIN_TIMEOUT and RETRAIN_TIMEOUT take it down,
QUAD_RETRAIN retrains the enabled quads of the mask, LANE_SIGNAL_LOSS takes it down, LANE_DROP takes the peer's mask, or keeps
its own when both were sent and its device is the lower, LANE_DROP_DETECT drops its lane and names the new mask, and takes
the quad down when no lanes are left to use. -/
def Obligations.QuadTraining : Prop :=
  (∀ (s : State) (q r m : Nat) (t : TrainInfo), Acting s → q < 16 → bitAt (cfg s.dev 0x9012 0) q = true →
    s.dev.pw.lostPlls.contains (22 + q) = false → ((quadAt s.dev q).state = 1 ∨ (quadAt s.dev q).state = 3) →
    let e := settleRx s.dev q
    t.peerRole = pairedRole (quadRole e q) → t.peerDev ≠ ownDev e →
    pickRate (min (cfg e 0x9013 0) t.peerCap) (cfg e 0x9014 0) t = some (r, m) →
    (streamAt e q).unacked = [] → (streamAt e q).waiting = [] →
    (∀ k, k < 16 → k ≠ q → (streamAt e k).carrier = none) →
    ∃ d, exec (.quadTrain q t) s = after s d ∧ (quadAt d q).state = 2 ∧ (quadAt d q).rate = rateCode r ∧
      (quadAt d q).lmask = m ∧ (quadAt d q).peerDev = t.peerDev ∧
      (quadAt d q).pver = min t.peerVersion (cfg e 0x9005 0) ∧ (quadAt d q).owed = [] ∧
      (∀ v, v < 4 → tget 0 (quadAt d q).credits v = splitCredits e v) ∧ (streamAt d q).nextSeq = 0 ∧
      rxAt d t.peerDev t.peerQuad = rxReset) ∧
  (∀ (s : State) (q : Nat) (t : TrainInfo), Acting s → q < 16 → bitAt (cfg s.dev 0x9012 0) q = true →
    s.dev.pw.lostPlls.contains (22 + q) = false → ((quadAt s.dev q).state = 1 ∨ (quadAt s.dev q).state = 3) →
    let e := settleRx s.dev q
    (t.peerRole ≠ pairedRole (quadRole e q) ∨ t.peerDev = ownDev e) →
    exec (.quadTrain q t) s =
      after s (raise (setQuad e q { quadAt e q with state := 0, idChanged := false }) 0x8902 q t.peerDev)) ∧
  (∀ (s : State) (q : Nat) (t : TrainInfo), Acting s →
    (16 ≤ q ∨ bitAt (cfg s.dev 0x9012 0) q = false ∨ s.dev.pw.lostPlls.contains (22 + q) = true ∨
      ((quadAt s.dev q).state ≠ 1 ∧ (quadAt s.dev q).state ≠ 3)) →
    exec (.quadTrain q t) s = after s s.dev) ∧
  (∀ (s : State) (q : Nat) (t : TrainInfo), Acting s →
    let e := settleRx s.dev q
    t.peerRole = pairedRole (quadRole e q) → t.peerDev ≠ ownDev e →
    pickRate (min (cfg e 0x9013 0) t.peerCap) (cfg e 0x9014 0) t = none →
    exec (.quadTrain q t) s = after s s.dev) ∧
  (∀ (s : State) (q : Nat), Acting s → (quadAt s.dev q).state = 1 →
    exec (.trainTimeout q) s = after s (quadDown (raise s.dev 0x4901 q 0) q)) ∧
  (∀ (s : State) (q : Nat), Acting s → (quadAt s.dev q).state = 3 → exec (.retrainTimeout q) s = after s (quadDown s.dev q)) ∧
  (∀ (s : State) (q : Nat), Acting s → 1 ≤ (quadAt s.dev q).state → (quadAt s.dev q).state ≤ 3 →
    exec (.laneSignalLoss q) s = after s (quadDown s.dev q)) ∧
  (∀ (s : State) (q : Nat), Serving s 0x9060 0 → q < 16 → bitAt (cfg s.dev 0x9012 0) q = true →
    ∃ d, exec (.quadRetrain (2 ^ q)) s = after s d ∧ (quadAt d q).state = 3 ∧ (∀ k, k ≠ q → quadAt d k = quadAt s.dev k) ∧
      Logged d 0x4905 q 0 ∧ d.out = s.dev.out ++ [.status 0x9060 0 0]) ∧
  (∀ (s : State) (m : Nat), Serving s 0x9060 0 →
    ∃ d, exec (.quadRetrain m) s = after s d ∧ d.out = s.dev.out ++ [.status 0x9060 0 0] ∧
      (∀ k, quadAt d k = if k < 16 ∧ bitAt m k = true ∧ bitAt (cfg s.dev 0x9012 0) k = true
        then { quadAt s.dev k with state := 3, croakOut := none, misses := 0 } else quadAt s.dev k)) ∧
  (∀ (s : State) (q m : Nat), Acting s → (quadAt s.dev q).state = 2 → m % 16 ≠ 0 → (quadAt s.dev q).dropSent = none →
    ∃ d, exec (.laneDrop q m) s = after s d ∧ (quadAt d q).lmask = m % 16 ∧ (quadAt d q).state = 2 ∧
      Logged d 0x4904 q (4 * q + ((List.range 4).find? (fun j => bitAt (quadAt s.dev q).lmask j && !bitAt m j)).getD 0) ∧
      d.rl.streams = s.dev.rl.streams) ∧
  (∀ (s : State) (q m n : Nat), Acting s → (quadAt s.dev q).state = 2 → m % 16 ≠ 0 → (quadAt s.dev q).dropSent = some n →
    (ownDev s.dev < (quadAt s.dev q).peerDev → exec (.laneDrop q m) s = after s s.dev) ∧
    ((quadAt s.dev q).peerDev ≤ ownDev s.dev → n ≠ m % 16 →
      ∃ d, exec (.laneDrop q m) s = after s d ∧ (quadAt d q).lmask = m % 16 ∧ (quadAt d q).state = 2 ∧
        d.rl.streams = s.dev.rl.streams)) ∧
  (∀ (s : State) (q l m : Nat), Acting s → (quadAt s.dev q).state = 2 → l < 4 → bitAt (quadAt s.dev q).lmask l = true →
    pickLanes ((quadAt s.dev q).lmask - 2 ^ l) = some m →
    ∃ d, exec (.laneDropDetect q l) s = after s d ∧ (quadAt d q).lmask = m ∧ (quadAt d q).state = 2 ∧
      Logged d 0x4904 q (4 * q + l)) ∧
  (∀ (s : State) (q l : Nat), Acting s → (quadAt s.dev q).state = 2 → l < 4 → bitAt (quadAt s.dev q).lmask l = true →
    pickLanes ((quadAt s.dev q).lmask - 2 ^ l) = none → exec (.laneDropDetect q l) s = after s (quadDown s.dev q))

/-- CROAK_TIMER sends a CROAK and opens its window; CROAK is answered by a CROAK-REPLY with its CSEQ; CROAK_REPLY of the open
croak closes the window and clears the misses; CROAK_WINDOW_CLOSE counts a miss, and the limit's miss in a row makes the
quad peer-lost and moves its stream. A croak or a reply from another device disables the quad with 0x8922; one from a wedged
peer raises 0x8921. -/
def Obligations.Croaks : Prop :=
  (∀ (s : State) (q : Nat), Acting s → (quadAt s.dev q).state = 2 →
    exec (.croakTimer q) s = after s (sendFlit (setQuad s.dev q { quadAt s.dev q with
      cseq := ((quadAt s.dev q).cseq + 1) % 65536, croakOut := some (quadAt s.dev q).cseq, dropSent := none }) q 3 none
      (croakFields s.dev q (quadAt s.dev q).cseq))) ∧
  (∀ (s : State) (q : Nat) (b : CroakBody), Acting s → (quadAt s.dev q).state = 2 →
    b.devid = (quadAt s.dev q).peerDev → b.pstate ≠ 1 →
    ∃ d, exec (.croak q b) s = after s d ∧ (quadAt d q).pstate = b.pstate ∧ (quadAt d q).state = 2 ∧
      (∃ h : FlitAck, d.out = s.dev.out ++ [.flit q 4 (ackFields h ++ croakFields s.dev q b.cseq ++
        [flitCrc (flitHeader 4 0 0 h 0 15) (croakUnits (croakFields s.dev q b.cseq))])]) ∧ d.ev = s.dev.ev) ∧
  (∀ (s : State) (q : Nat) (b : CroakBody), Acting s → (quadAt s.dev q).state = 2 →
    b.devid = (quadAt s.dev q).peerDev → b.pstate ≠ 1 → (quadAt s.dev q).croakOut = some b.cseq →
    ∃ d, exec (.croakReply q b) s = after s d ∧ (quadAt d q).croakOut = none ∧ (quadAt d q).misses = 0 ∧
      (quadAt d q).pstate = b.pstate ∧ d.out = s.dev.out) ∧
  (∀ (s : State) (q : Nat) (b : CroakBody), Acting s → (quadAt s.dev q).state = 2 →
    b.devid ≠ (quadAt s.dev q).peerDev → (quadAt s.dev q).croakOut ≠ some b.cseq →
    exec (.croakReply q b) s = after s (quadFail (raise (setQuad s.dev q { quadAt s.dev q with
      state := 0, idChanged := true, croakOut := none }) 0x8922 q b.devid) q)) ∧
  (∀ (s : State) (q : Nat) (b : CroakBody), Acting s → (quadAt s.dev q).state = 2 →
    let e := sendFlit s.dev q 4 none (croakFields s.dev q b.cseq)
    let x := quadAt e q
    (b.devid ≠ x.peerDev → exec (.croak q b) s = after s (quadFail (raise (setQuad e q
      { x with state := 0, idChanged := true, croakOut := none }) 0x8922 q b.devid) q)) ∧
    (b.devid = x.peerDev → b.pstate = 1 →
      exec (.croak q b) s = after s (raiseStep (setQuad e q { x with pstate := 1 }) 0x8921 x.peerDev q))) ∧
  (∀ (s : State) (q : Nat) (b : CroakBody), Acting s → (quadAt s.dev q).state = 2 →
    b.devid = (quadAt s.dev q).peerDev → (quadAt s.dev q).croakOut = some b.cseq → b.pstate = 1 →
    exec (.croakReply q b) s = after s (raiseStep (setQuad s.dev q { quadAt s.dev q with
      croakOut := none, misses := 0, pstate := 1 }) 0x8921 (quadAt s.dev q).peerDev q)) ∧
  (∀ (s : State) (q c : Nat), Acting s → (quadAt s.dev q).state = 2 → (quadAt s.dev q).croakOut = some c →
    let d := bump (setQuad s.dev q { quadAt s.dev q with croakOut := none, misses := (quadAt s.dev q).misses + 1 })
      0x9038 (q + 1) 1
    ((quadAt s.dev q).misses + 1 < cfg s.dev 0x9004 0 → exec (.croakWindowClose q) s = after s d) ∧
    (cfg s.dev 0x9004 0 ≤ (quadAt s.dev q).misses + 1 → exec (.croakWindowClose q) s =
      after s (quadFail (setQuad d q { quadAt d q with state := 4 }) q)))

/-- MESSAGE_ROUTE of a whole message for this device delivers it once and changes no quad but its receive buffer, from which
the message goes with the filler behind it; one for another device with HOPS above 0 and a chosen quad goes on with HOPS one
less; one with HOPS 0 and a kind of R420 is dropped, and 0x8911 is raised; one of a fenced device is dropped. A dropped
request is answered by an UNREACH. One with an uncorrectable word goes nowhere and raises 0x8D85. Without a whole message
nothing happens. -/
def Obligations.MessagesAreRouted : Prop :=
  (∀ (s : State) (q v n : Nat) (m : RelayMsg) (us : List Nat), Acting s →
    takeMsg 0 (tget [] (quadAt s.dev q).rx v) = some (m, us, n) → (∀ i ∈ tget [] (quadAt s.dev q).rxBad v, n ≤ i) →
    s.dev.rl.fenced.contains (fld m.header 107 96) = false →
    kindOk (fld m.header 127 124) = true → fld m.header 119 108 = ownDev s.dev →
    ∃ d, exec (.messageRoute q v) s = after s d ∧
      d.out = s.dev.out ++ [.msg (ownDev s.dev) (fld m.header 127 124) [m.header] m.body] ∧
      tget [] (quadAt d q).rx v = us.dropWhile (fun u => u == 0) ∧ (∀ k, k ≠ q → quadAt d k = quadAt s.dev k) ∧
      d.mem = s.dev.mem ∧ d.ev = s.dev.ev) ∧
  (∀ (s : State) (q v n i : Nat) (m : RelayMsg) (us : List Nat), Acting s →
    takeMsg 0 (tget [] (quadAt s.dev q).rx v) = some (m, us, n) → i ∈ tget [] (quadAt s.dev q).rxBad v → i < n →
    ∃ d, exec (.messageRoute q v) s = after s d ∧ Logged d 0x8D85 q 0 ∧ d.out = s.dev.out ∧
      tget [] (quadAt d q).rx v = us.dropWhile (fun u => u == 0) ∧ (∀ k, k ≠ q → quadAt d k = quadAt s.dev k) ∧
      d.mem = s.dev.mem) ∧
  (∀ (s : State) (q v : Nat), Acting s → takeMsg 0 (tget [] (quadAt s.dev q).rx v) = none →
    exec (.messageRoute q v) s = after s s.dev) ∧
  (∀ (d : Dev) (m : RelayMsg), d.rl.fenced.contains (fld m.header 107 96) = true → routeMsg d m true = dropMsg d m.header) ∧
  (∀ (d : Dev) (h : Nat), bitAt h 121 = false →
    dropMsg d h = (forwardMsg (noteDrop d h) (unreachMsg (noteDrop d h) h) false).getD
      (noteDrop (noteDrop d h) (unreachMsg (noteDrop d h) h).header)) ∧
  (∀ (d : Dev) (m : RelayMsg) (q : Nat), kindOk (fld m.header 127 124) = true → fld m.header 119 108 ≠ ownDev d →
    d.rl.fenced.contains (fld m.header 107 96) = false → 0 < fld m.header 95 88 →
    bitAt (routeOf d (aliasOf d (fld m.header 119 108))) 15 = true → peerDown d (aliasOf d (fld m.header 119 108)) = false →
    chooseQuad d m.header = some q → bitAt (routeOf d (aliasOf d (fld m.header 119 108))) 14 = false →
    routeMsg d m true = queueMsg d q { m with header := setFld m.header 95 88 (fld m.header 95 88 - 1) }) ∧
  (∀ (s : State) (q v n : Nat) (m : RelayMsg) (us : List Nat), Acting s →
    takeMsg 0 (tget [] (quadAt s.dev q).rx v) = some (m, us, n) → (∀ i ∈ tget [] (quadAt s.dev q).rxBad v, n ≤ i) →
    s.dev.rl.fenced.contains (fld m.header 107 96) = false →
    kindOk (fld m.header 127 124) = true → fld m.header 119 108 ≠ ownDev s.dev → fld m.header 95 88 = 0 →
    bitAt m.header 121 = true → ¬ (0x8911, 0) ∈ s.dev.ev.onceStep → ¬ (0x4910, fld m.header 119 108) ∈ s.dev.ev.onceStep →
    ∃ d, exec (.messageRoute q v) s = after s d ∧ Logged d 0x8911 0 m.header ∧ Logged d 0x4910 (fld m.header 119 108) m.header ∧
      d.out = s.dev.out ∧ cfg d 0x9051 0 = m.header ∧
      tget [] (quadAt d q).rx v = us.dropWhile (fun u => u == 0) ∧ d.mem = s.dev.mem)

/-- STAGING_ALLOCATE places the bucket's arrays, filled with +0, at the lowest free place of its half, or counts the wait;
BUCKET_HANDOFF announces the oldest BKT whose passes are in on every cluster, and waits for the others; ANNOUNCE of a member
in the window is recorded, a repeat, a stale one and one of a stranger are discarded and counted, one of another format and
one ahead of the window stop the contexts that bind the entry; CHUNK_FOLD of a landed chunk delivers its pieces, of another
does nothing, and with a match record that cannot be read raises 0x8A0B. -/
def Obligations.BucketCommands : Prop :=
  (∀ (s : State) (b c p w : Nat), Acting s → bktEn s.dev b = true → (stagingOf s.dev b c p).isSome = false →
    let h := bktHalf s.dev b
    let n := bktNblk s.dev b * 36
    let a := firstGap (cfg s.dev 0xA020 (h + 1)) n (stagingBlocks s.dev h)
    (a + n ≤ cfg s.dev 0xA020 (h + 1) + cfg s.dev 0xA021 (h + 1) → s.dev.mem.fills = [] → Mem.wf s.dev.mem = true →
      ∃ d, exec (.stagingAllocate b c p w) s = after s d ∧ (stagingOf d b c p).isSome = true ∧
        (∀ i, i < n → memByte d.mem (a + i) = 0#8) ∧ (∀ i, ¬ (a ≤ i ∧ i < a + n) → memByte d.mem i = memByte s.dev.mem i)) ∧
    (cfg s.dev 0xA020 (h + 1) + cfg s.dev 0xA021 (h + 1) < a + n →
      exec (.stagingAllocate b c p w) s = after s (raiseStep (bump s.dev 0xA057 (h + 1) w) 0x4A07 h b))) ∧
  (∀ (s : State) (b c p w : Nat), Acting s → (bktEn s.dev b = false ∨ (stagingOf s.dev b c p).isSome = true) →
    exec (.stagingAllocate b c p w) s = after s s.dev) ∧
  (∀ (s : State) (g : Nat) (x : BktWait), Acting s → s.dev.ce.buckets.find? (fun x => x.cluster == g) = some x →
    let d := { s.dev with ce := { s.dev.ce with buckets := s.dev.ce.buckets.erase x } }
    ((∀ b ∈ x.before, ∀ q ∈ (vcAt s.dev b.1).passes, q.task = x.task → b.2 ≤ q.num) →
      (bktEn s.dev x.bucket = true → exec (.bucketHandoff g) s = after s (announceBucket d x.bucket x.step x.place)) ∧
      (bktEn s.dev x.bucket = false → exec (.bucketHandoff g) s = after s d)) ∧
    (∀ b ∈ x.before, ∀ q ∈ (vcAt s.dev b.1).passes, q.task = x.task → q.num < b.2 →
      exec (.bucketHandoff g) s = after s s.dev)) ∧
  (∀ (s : State) (src b lap p r : Nat), Acting s → grpRankOf s.dev (bktGroup s.dev b) src = some r → bktEn s.dev b = true →
    (bktOwners s.dev b).contains (grpRank s.dev (bktGroup s.dev b)) = true → src ≠ ownDev s.dev →
    let low := lowStep s.dev (bktPent s.dev b)
    let x := (lap + (256 - low % 256)) % 256
    let e := bktPent s.dev b
    (x < 4 → (matchOf s.dev b (low + x) p).any (fun m => m.ranks.contains r) = false →
      exec (.announce src b lap p (cfg s.dev 0xA016 0)) s = after s (noteAnnounce (bump s.dev 0xA050 0 1) b (low + x) p r)) ∧
    (x < 4 → (matchOf s.dev b (low + x) p).any (fun m => m.ranks.contains r) = true →
      exec (.announce src b lap p (cfg s.dev 0xA016 0)) s = after s (raiseStep (bump s.dev 0xA054 0 1) 0x4A04 b src)) ∧
    (4 ≤ x → x < 128 → exec (.announce src b lap p (cfg s.dev 0xA016 0)) s =
      after s (stopBinders (raise s.dev 0x8A05 e src) e 0x8A05)) ∧
    (128 ≤ x → exec (.announce src b lap p (cfg s.dev 0xA016 0)) s =
      after s (raiseStep (bump s.dev 0xA053 0 1) 0x4A03 (bktGroup s.dev b) src)) ∧
    (∀ f, f ≠ cfg s.dev 0xA016 0 →
      exec (.announce src b lap p f) s = after s (stopBinders (raise s.dev 0x8A02 e src) e 0x8A02))) ∧
  (∀ (s : State) (src b lap p f : Nat), Acting s → (grpRankOf s.dev (bktGroup s.dev b) src = none ∨ bktEn s.dev b = false ∨
      (bktOwners s.dev b).contains (grpRank s.dev (bktGroup s.dev b)) = false ∨ src = ownDev s.dev) →
    exec (.announce src b lap p f) s = after s (raiseStep (bump s.dev 0xA055 0 1) 0x4A06 (bktGroup s.dev b) src)) ∧
  (∀ (s : State) (b c p k w : Nat) (m : Match), Acting s → matchOf s.dev b c p = some m →
    eccBad s.dev (.match_ b c p) = false → chunkLanded s.dev m k = true →
    m.delivered.contains k = false → k < chunkCount s.dev b (grpRank s.dev (bktGroup s.dev b)) →
    let r := deliverPieces w ((chunkPieces s.dev m k).drop (tget 0 m.taken k)) (tget 0 m.taken k) s.dev
    let m1 := { m with delivered := m.delivered ++ [k], taken := tdel m.taken k }
    (r.2.1 = false →
      exec (.chunkFold b c p k w) s = after s (setMatch r.2.2 { m with taken := tset m.taken k r.1 })) ∧
    (r.2.1 = true →
      exec (.chunkFold b c p k w) s = after s (issueAll
        (if m1.delivered.length = chunkCount s.dev b (grpRank s.dev (bktGroup s.dev b)) then closeMatch (setMatch r.2.2 m1) m1
         else setMatch r.2.2 m1)))) ∧
  (∀ (s : State) (b c p k w : Nat) (m : Match), Acting s → matchOf s.dev b c p = some m →
    (eccBad s.dev (.match_ b c p) = false → (chunkLanded s.dev m k = false ∨ m.delivered.contains k = true ∨
        chunkCount s.dev b (grpRank s.dev (bktGroup s.dev b)) ≤ k) →
      exec (.chunkFold b c p k w) s = after s s.dev) ∧
    (eccBad s.dev (.match_ b c p) = true → exec (.chunkFold b c p k w) s =
      after s (stopBinders (raise s.dev 0x8A0B (bktPent s.dev b) b) (bktPent s.dev b) 0x8A0B)))

/-- READ of a version slot in OWNDONE or COMPLETE is answered with its bytes, otherwise with STATUS 1, and of staged bytes
with them, otherwise with STATUS 2; bytes with an uncorrectable word are reported and not sent. READ_DATA that matches no
outstanding READ is stale, one with a STATUS stops what waits for it. Multicast messages of no parameter or of a stranger are
misrouted; MDATA waits while the retention buffer is full, goes on to the children, lands in a prefetch buffer and is counted,
and acknowledged at every 64 KiB and at the end; MACK raises the child's count, and the last frees the retention record;
FETCH reads the rest by unicast; AUTOTOMY does nothing before the limit; CLIP of a member in the window is kept, a repeat
too but once; UNREACH_RECEIVE ends the operation it answers. -/
def Obligations.CollectiveMessages : Prop :=
  (∀ (s : State) (src l i f body e : Nat), Acting s → parOf s.dev (fld body 127 104) = some e →
    (grpRankOf s.dev (parGroup s.dev e) src).isSome = true →
    let v := fld body 103 72
    let x := vslotAt s.dev e (ringSlot s.dev e v)
    (x.ver = some v → (x.state = 2 ∨ x.state = 3) → exec (.read src l i 0 f body) s =
      after s (serveData s.dev src f l i (slotCopy s.dev e v + fld body 71 32) (fld body 31 0))) ∧
    (x.ver ≠ some v ∨ (x.state ≠ 2 ∧ x.state ≠ 3) →
      exec (.read src l i 0 f body) s = after s (replyStatus s.dev src f l i 1))) ∧
  (∀ (s : State) (src l i f body sp r : Nat), Acting s → sp ≠ 0 →
    let b := fld body 127 104
    let st := s.dev.ce.staging.find? (fun x =>
      x.bucket == b && x.step % 256 == fld body 103 96 && x.place == fld body 95 80 && x.announced)
    grpRankOf s.dev (bktGroup s.dev b) src = some r →
    (st = none → exec (.read src l i sp f body) s = after s (replyStatus s.dev src f l i 2)) ∧
    (∀ x, st = some x →
      let a := x.base + (if bitAt body 79 then 32 * bktNblk s.dev b else 0) + fld body 63 32
      let e := serveData s.dev src f l i a (fld body 31 0)
      (ueIn s.dev.mem a (fld body 31 0) = [] → exec (.read src l i sp f body) s = after s (partRead e x r (fld body 31 0))) ∧
      (ueIn s.dev.mem a (fld body 31 0) ≠ [] → exec (.read src l i sp f body) s = after s (ceFail e (bktPent s.dev b) b)))) ∧
  (∀ (d : Dev) (src f l i a n : Nat), ueIn d.mem a n = [] → serveData d src f l i a n =
    replyData (readThrough d (ownerHalf a) 64 0 a n).2 src f l i (memRead d.mem a n)) ∧
  (∀ (d : Dev) (src f l i a n : Nat), ueIn d.mem a n ≠ [] → (serveData d src f l i a n).out = d.out ∧
    ∀ x, memByte (serveData d src f l i a n).mem x = memByte d.mem x) ∧
  (∀ (s : State) (src l i st k : Nat) (bs : List Byte), Acting s →
    s.dev.ce.reads.find? (fun r => r.sent && r.ridx == i && r.rlap == l && r.dst == src && !r.got.contains k) = none →
    exec (.readData src l i st k bs) s = after s (raiseStep (bump s.dev 0xA053 0 1) 0x4A03 0xFFFF src)) ∧
  (∀ (s : State) (src l i k : Nat) (bs : List Byte) (r : CeRead), Acting s →
    s.dev.ce.reads.find? (fun r => r.sent && r.ridx == i && r.rlap == l && r.dst == src && !r.got.contains k) = some r →
    let d0 := { s.dev with ce := { s.dev.ce with reads := s.dev.ce.reads.filter (fun x => x.what != r.what) } }
    let d := bump (landRead d0 r (8192 * k) bs) 0xA052 0 bs.length
    ((r.got ++ [k]).length ≠ max 1 (ceilDiv r.len 8192) → exec (.readData src l i 0 k bs) s =
      after s { d with ce := { d.ce with reads := d.ce.reads ++ [{ r with got := r.got ++ [k] }] } }) ∧
    ((r.got ++ [k]).length = max 1 (ceilDiv r.len 8192) →
      exec (.readData src l i 0 k bs) s = after s (pumpReads d r.unit 1)) ∧
    (∀ st e v q o, st ≠ 0 → r.what = .gather e v q o → exec (.readData src l i st k bs) s =
      after s (pumpReads (stopWaiters (raise d0 0x8683 e v) e v 0x8683) r.unit 1)) ∧
    (∀ st b c p q n o, st ≠ 0 → r.what = .share b c p q n o → exec (.readData src l i st k bs) s =
      after s (pumpReads (stopBinders (raise d0 0x8A0A b src) (bktPent s.dev b) 0x8A0A) r.unit 1))) ∧
  (∀ (s : State) (src p v o off n : Nat) (bs : List Byte), Acting s →
    ∀ c ∈ [Instr.mdata src p v o off bs, .mack src p v o n, .fetch src p v o],
      (parOf s.dev p = none → exec c s = after s (raiseStep (bump s.dev 0xA055 0 1) 0x4A06 0xFFFF src)) ∧
      (∀ e, parOf s.dev p = some e → grpRankOf s.dev (parGroup s.dev e) src = none →
        exec c s = after s (raiseStep (bump s.dev 0xA055 0 1) 0x4A06 (parGroup s.dev e) src))) ∧
  (∀ (s : State) (src p v o off e : Nat) (bs : List Byte), Acting s → parOf s.dev p = some e →
    (grpRankOf s.dev (parGroup s.dev e) src).isSome = true →
    let cs := treeChildren s.dev (parGroup s.dev e) o (parRank s.dev e)
    let got := pushedOf s.dev e v o + bs.length
    (cs ≠ [] → cfg s.dev 0xA030 0 < retained s.dev (parGroup s.dev e) + bs.length →
      exec (.mdata src p v o off bs) s = after s s.dev) ∧
    (cs = [] → bufOf s.dev e v = none → got / 65536 = pushedOf s.dev e v o / 65536 → got ≠ parVbytes s.dev e →
      exec (.mdata src p v o off bs) s = after s (setPushed s.dev e v o got)) ∧
    (cs = [] → bufOf s.dev e v = none → (got / 65536 ≠ pushedOf s.dev e v o / 65536 ∨ got = parVbytes s.dev e) →
      exec (.mdata src p v o off bs) s = after s (relaySend (setPushed s.dev e v o got) src 8 2 0 (p % 256)
        (mcastArg s.dev 2 e v) (leBytes 16 (mcastWord o got)))) ∧
    (∀ b, cs = [] → bufOf s.dev e v = some b → b.pushed.contains o = true → b.complete = false →
      got / 65536 = pushedOf s.dev e v o / 65536 → got ≠ parVbytes s.dev e →
      exec (.mdata src p v o off bs) s = after s (bump (setBuf
        (bufWrite (setPushed s.dev e v o got) b (o * parVbytes s.dev e + off) bs) { b with missing := b.missing - bs.length })
        0xA052 0 bs.length)) ∧
    (∀ m, cs ≠ [] → retained s.dev (parGroup s.dev e) + bs.length ≤ cfg s.dev 0xA030 0 →
      s.dev.ce.mcasts.find? (fun m => m.entry == e && m.ver == v && m.origin == o) = some m → bufOf s.dev e v = none →
      let x := setPushed (setMcast (mcastSend s.dev e v o off (m.acks.map Prod.fst) bs) { m with sent := m.sent + bs.length })
        e v o got
      (got / 65536 = pushedOf s.dev e v o / 65536 → got ≠ parVbytes s.dev e →
        exec (.mdata src p v o off bs) s = after s x) ∧
      (got / 65536 ≠ pushedOf s.dev e v o / 65536 ∨ got = parVbytes s.dev e → exec (.mdata src p v o off bs) s =
        after s (relaySend x src 8 2 0 (p % 256) (mcastArg s.dev 2 e v) (leBytes 16 (mcastWord o got)))))) ∧
  (∀ (s : State) (src p v o n e r : Nat) (m : Mcast), Acting s → parOf s.dev p = some e →
    grpRankOf s.dev (parGroup s.dev e) src = some r →
    s.dev.ce.mcasts.find? (fun m => m.entry == e && m.ver == v && m.origin == o) = some m → (tfind m.acks r).isSome = true →
    eccBad s.dev (.retention e v o) = false →
    let m1 := { m with acks := tset m.acks r (max n (tget 0 m.acks r)) }
    (m1.sent = m1.total → m1.acks.all (fun a => decide (m1.total ≤ a.2)) = true →
      ∃ d, exec (.mack src p v o n) s = after s d ∧
        (∀ x ∈ d.ce.mcasts, ¬ (x.entry = e ∧ x.ver = v ∧ x.origin = o)) ∧ d.mem.bytes = s.dev.mem.bytes ∧ d.out = s.dev.out) ∧
    (m1.sent ≠ m1.total ∨ m1.acks.all (fun a => decide (m1.total ≤ a.2)) = false →
      exec (.mack src p v o n) s = after s (if o = parRank s.dev e
        then mcastPump (parVbytes s.dev e / 8192 + 1) (setMcast s.dev m1) m1 else setMcast s.dev m1))) ∧
  (∀ (s : State) (src p v o n e r : Nat) (m : Mcast), Acting s → parOf s.dev p = some e →
    grpRankOf s.dev (parGroup s.dev e) src = some r →
    s.dev.ce.mcasts.find? (fun m => m.entry == e && m.ver == v && m.origin == o) = some m → (tfind m.acks r).isSome = true →
    eccBad s.dev (.retention e v o) = true → exec (.mack src p v o n) s = after s (ceFail s.dev e v)) ∧
  (∀ (s : State) (src p v o e : Nat), Acting s → parOf s.dev p = some e →
    (grpRankOf s.dev (parGroup s.dev e) src).isSome = true →
    (∀ b, bufOf s.dev e v = some b → b.pushed.contains o = true →
      exec (.fetch src p v o) s = after s (readShard (setBuf s.dev { b with pushed := b.pushed.filter (fun r => r != o) })
        e v o (pushedOf s.dev e v o))) ∧
    ((∀ b, bufOf s.dev e v = some b → b.pushed.contains o = false) → exec (.fetch src p v o) s = after s s.dev)) ∧
  (∀ (s : State) (g us : Nat) (m : Mcast) (r n : Nat), Acting s →
    s.dev.ce.mcasts.filter (fun m => parGroup s.dev m.entry == g && !m.acks.isEmpty && decide (m.sent < m.total)) = [m] →
    cfg s.dev 0xA031 0 ≤ us → cfg s.dev 0xA030 0 < retained s.dev g + min 8192 (m.total - m.sent) →
    m.acks.find? (fun a => a.2 == (m.acks.map Prod.snd).foldl min m.sent) = some (r, n) →
    ∃ d e, exec (.autotomy g us) s = after s d ∧ Logged e 0x4A08 (grpMember s.dev g r) g ∧
      (d = e ∨ ∃ k x, d = mcastPump k e x) ∧ (g, r) ∈ e.ce.removed) ∧
  (∀ (s : State) (g us : Nat), Acting s → us < cfg s.dev 0xA031 0 → exec (.autotomy g us) s = after s s.dev) ∧
  (∀ (s : State) (src g l r : Nat) (q : F32), Acting s → 1 ≤ g → g ≤ 15 → grpRankOf s.dev (clipGroup s.dev g) src = some r →
    let x := (l + (256 - clipNext s.dev g % 256)) % 256
    let t := s.dev.up.totals.any (fun t => t.1 == g && t.2.1 == clipNext s.dev g + x && t.2.2.1 == r)
    (x < 4 → t = false → exec (.clip src g l q) s = after s (clipForm { s.dev with up := { s.dev.up with
      totals := s.dev.up.totals ++ [(g, clipNext s.dev g + x, r, q)] } } g (clipNext s.dev g + x))) ∧
    (x < 4 → t = true → exec (.clip src g l q) s = after s s.dev) ∧
    (4 ≤ x → x < 128 → exec (.clip src g l q) s =
      after s ((clipEntries s.dev g).foldl (fun z e => stopBinders z e 0x8A05) (raise s.dev 0x8A05 g src))) ∧
    (128 ≤ x → exec (.clip src g l q) s = after s (raiseStep (bump s.dev 0xA053 0 1) 0x4A03 (clipGroup s.dev g) src))) ∧
  (∀ (s : State) (src g l : Nat) (q : F32), Acting s → grpRankOf s.dev (clipGroup s.dev g) src = none →
    exec (.clip src g l q) s = after s (raiseStep (bump s.dev 0xA055 0 1) 0x4A06 (clipGroup s.dev g) src)) ∧
  (∀ (s : State) (h : Nat), Acting s → (fld h 63 60 = 6 ∨ fld h 63 60 = 8) → (∀ r ∈ s.dev.ce.reads, r.sent = true) →
    ∃ d, exec (.unreachReceive h) s = after s d ∧ Logged d 0x8A0A (fld h 55 44) h ∧
      (fld h 63 60 = 6 → d.ce.reads = s.dev.ce.reads.filter (fun r => !(r.dst == fld h 55 44 && r.flow == fld h 23 16))) ∧
      (fld h 63 60 = 8 → d.ce.reads = s.dev.ce.reads) ∧ d.mem.bytes = s.dev.mem.bytes)

/-- DISPATCH_DOORBELL and COMBINE_DOORBELL take the layer's oldest bell of the kind by a wait of 1: a bad bell stops the
context with 0x8A88, records that cannot be read stop it with 0x8A89, a FWD whose route store slot holds an earlier tag waits
and is counted, a wait not granted and a missing bell leave the exchange as it was, and otherwise the dispatch of the bell's
kind runs or the counted rows go back and tokens without a kept entry get their row. EXPERT_ROWS, EXPERT_COUNT and
EXPERT_RESULT of a stranger, of a layer not enabled or of a slot not placed are counted as misrouted, stale ones are counted,
one ahead stops the context; in the window rows land or wait in the pending region, counts and results are recorded, and a
message with no room is held. DISPATCH_DONE writes counts and fill and signals DND, COMBINE_DONE closes the tag, frees the
route of a BWD and signals DNC, and neither does anything before its conditions hold. -/
def Obligations.ExchangeCommands : Prop :=
  (∀ (s : State) (l w : Nat) (b : ExBell), Acting s → s.dev.ex.bells.find? (fun b => b.layer == l && b.combine == false) = some b →
    let d1 := { s.dev with ex := { s.dev.ex with bells := s.dev.ex.bells.erase b } }
    let t := semTake d1 (exCluster s.dev l) (exDbd s.dev l) 14 1
    let held := tfind s.dev.ex.routes (exRouteKey s.dev l b.tag)
    let free := held = none ∨ ∃ es, held = some (b.tag, es)
    let good := placesBad s.dev l = false ∧ eccBad s.dev (.pending l b.bwd b.tag) = false ∧
      (b.bwd = true → eccBad s.dev (.route (exRouteKey s.dev l b.tag)) = false)
    (b.bad = true → exec (.dispatchDoorbell l w) s = after s (raiseFault d1 0x8A88 b.layer b.tag (exCtx d1 b.layer))) ∧
    (b.bad = false → b.bwd = false → (∃ r, held = some r ∧ r.1 ≠ b.tag) →
      exec (.dispatchDoorbell l w) s = after s (raiseStep (bump s.dev 0xA856 0 w) 0x4A87 0 l)) ∧
    (b.bad = false → (b.bwd = true ∨ free) → t.1 = false →
      exec (.dispatchDoorbell l w) s = after s { t.2 with ex := s.dev.ex }) ∧
    (b.bad = false → (b.bwd = true ∨ free) → t.1 = true → ¬ good →
      exec (.dispatchDoorbell l w) s = after s (raiseFault t.2 0x8A89 l b.tag (exCtx t.2 l))) ∧
    (b.bad = false → b.bwd = true → t.1 = true → good → exec (.dispatchDoorbell l w) s = after s (dispatchBwd t.2 b)) ∧
    (b.bad = false → b.bwd = false → free → t.1 = true → good →
      exec (.dispatchDoorbell l w) s = after s (dispatchFwd t.2 b))) ∧
  (∀ (s : State) (l : Nat) (b : ExBell), Acting s → s.dev.ex.bells.find? (fun b => b.layer == l && b.combine == true) = some b →
    let d1 := { s.dev with ex := { s.dev.ex with bells := s.dev.ex.bells.erase b } }
    let w := semTake d1 (exCluster s.dev l) (exDbc s.dev l) 14 1
    let good := placesBad s.dev l = false ∧ eccBad s.dev (.pending l b.bwd b.tag) = false
    let t := exTagAt w.2 l b.bwd b.tag
    let rows := fun (y : Dev) (i r : Nat) => exReadRows l (b.a0 + exQoff s.dev l + exPlace s.dev l i r 0) (exW s.dev l)
      (exEbytes s.dev l) ((tget [] t.counts r).getD i 0) y
    let send := fun (y : Dev) (i r : Nat) =>
      match (rows y i r).1 with
      | some bs =>
        exSendRows (rows y i r).2 (grpMember s.dev (exGroup s.dev l) r) 2 l b.tag b.bwd i 0 (exEbytes s.dev l) bs
      | none => (rows y i r).2
    (b.bad = true → exec (.combineDoorbell l) s = after s (raiseFault d1 0x8A88 b.layer b.tag (exCtx d1 b.layer))) ∧
    (b.bad = false → w.1 = false → exec (.combineDoorbell l) s = after s { w.2 with ex := s.dev.ex }) ∧
    (b.bad = false → w.1 = true → ¬ good →
      exec (.combineDoorbell l) s = after s (raiseFault w.2 0x8A89 l b.tag (exCtx w.2 l))) ∧
    (b.bad = false → w.1 = true → good → exec (.combineDoorbell l) s = after s
      ((List.range (exNtok s.dev l)).foldl (fun x k =>
        if ((t.entries.drop (k * exK s.dev l)).take (exK s.dev l)).all (fun e => e.drop) then exToken x l b.bwd b.tag k else x)
        ((List.range (exLocal s.dev l)).foldl (fun x i => (List.range (exRanks s.dev l)).foldl (fun y r => send y i r) x)
          (setExTag w.2 { t with combined := true }))))) ∧
  (∀ (s : State) (l w : Nat), Acting s →
    (s.dev.ex.bells.find? (fun b => b.layer == l && b.combine == false) = none →
      exec (.dispatchDoorbell l w) s = after s s.dev) ∧
    (s.dev.ex.bells.find? (fun b => b.layer == l && b.combine == true) = none →
      exec (.combineDoorbell l) s = after s s.dev)) ∧
  (∀ (s : State) (src l tag i p k w r : Nat) (b : Bool) (bs : List Byte), Acting s → exEn s.dev l = true →
    grpRankOf s.dev (exGroup s.dev l) src = some r → i < exLocal s.dev l → exCheck s.dev l b tag = .open_ →
    let t := exTagAt s.dev l b tag
    let ps := exParts r i p k (exSent s.dev l b) bs
    (t.a0 = none → exRoom s.dev l bs.length = true →
      exec (.expertRows src l b tag i p k bs w) s = after s (setExTag s.dev { t with pend := t.pend ++ ps })) ∧
    (t.a0 = none → exRoom s.dev l bs.length = false →
      exec (.expertRows src l b tag i p k bs w) s = after s (raiseStep (bump s.dev 0xA856 0 w) 0x4A87 0 l)) ∧
    (∀ a, t.a0 = some a → exec (.expertRows src l b tag i p k bs w) s = after s (setExTag
      (ps.foldl (fun y p => exLand y t a p.1 p.2) s.dev) { t with landed := t.landed ++ ps.map Prod.fst }))) ∧
  (∀ (s : State) (src l tag r : Nat) (b : Bool) (cs : List Nat), Acting s → exEn s.dev l = true →
    grpRankOf s.dev (exGroup s.dev l) src = some r → exCheck s.dev l b tag = .open_ →
    exec (.expertCount src l b tag cs) s = after s (setExTag s.dev { exTagAt s.dev l b tag with
      counts := tset (exTagAt s.dev l b tag).counts r (padTo 64 0 cs) })) ∧
  (∀ (s : State) (src l tag i p k w r : Nat) (b : Bool) (bs : List Byte), Acting s → exEn s.dev l = true →
    grpRankOf s.dev (exGroup s.dev l) src = some r → (exExperts s.dev l src).any (fun e => (exHome s.dev l e).2 == i) = true →
    exCheck s.dev l b tag = .open_ →
    (exRoom s.dev l bs.length = true →
      exec (.expertResult src l b tag i p k bs w) s = after s ((List.range (exNtok s.dev l)).foldl
        (fun y n => exToken y l b tag n) (setExTag s.dev { exTagAt s.dev l b tag with
        results := (exParts r i p k (exEbytes s.dev l) bs).foldl (fun m p => tset m p.1 p.2) (exTagAt s.dev l b tag).results }))) ∧
    (exRoom s.dev l bs.length = false →
      exec (.expertResult src l b tag i p k bs w) s = after s (raiseStep (bump s.dev 0xA856 0 w) 0x4A87 0 l))) ∧
  (∀ (s : State) (src l tag i p k w : Nat) (b : Bool) (bs : List Byte) (cs : List Nat), Acting s →
    let member := exEn s.dev l = true ∧ ∃ r, grpRankOf s.dev (exGroup s.dev l) src = some r
    let mine := i < exLocal s.dev l
    let its := (exExperts s.dev l src).any (fun e => (exHome s.dev l e).2 == i) = true
    let misrouted := raiseStep (bump s.dev 0xA855 0 1) 0x4A85 l 0
    let stale := raiseStep (bump s.dev 0xA854 0 1) 0x4A83 l tag
    let stopped := raiseFault s.dev 0x8A84 l tag (exCtx s.dev l)
    (¬ (member ∧ mine) → exec (.expertRows src l b tag i p k bs w) s = after s misrouted) ∧
    (¬ member → exec (.expertCount src l b tag cs) s = after s misrouted) ∧
    (¬ (member ∧ its) → exec (.expertResult src l b tag i p k bs w) s = after s misrouted) ∧
    (exCheck s.dev l b tag = .stale → (member → mine → exec (.expertRows src l b tag i p k bs w) s = after s stale) ∧
      (member → exec (.expertCount src l b tag cs) s = after s stale) ∧
      (member → its → exec (.expertResult src l b tag i p k bs w) s = after s stale)) ∧
    (exCheck s.dev l b tag = .ahead → (member → mine → exec (.expertRows src l b tag i p k bs w) s = after s stopped) ∧
      (member → exec (.expertCount src l b tag cs) s = after s stopped) ∧
      (member → its → exec (.expertResult src l b tag i p k bs w) s = after s stopped))) ∧
  (∀ (s : State) (l tag a : Nat) (b : Bool), Acting s → (exTagAt s.dev l b tag).a0 = some a →
    let t := exTagAt s.dev l b tag
    let n := fun (r i : Nat) => (tget [] t.counts r).getD i 0
    let cells := (List.range (exLocal s.dev l)).flatMap (fun i => (List.range (exRanks s.dev l)).map (fun r => (i, r)))
    let complete := (∀ r < exRanks s.dev l, (tfind t.counts r).isSome = true) ∧
      (∀ c ∈ cells, ∀ p < n c.2 c.1, ∀ k < exPartsOf (exSent s.dev l b), t.landed.contains (exKey c.2 c.1 p k) = true)
    (t.dispatched = false → complete →
      exec (.dispatchDone l b tag) s = after s (semSignal (setExTag (cells.foldl (fun x c => exWrite x l
      ((a + exRoff s.dev l + exPlace s.dev l c.1 c.2 (n c.2 c.1)) % 2 ^ 48)
      (List.replicate ((exCap s.dev l - n c.2 c.1) * exW s.dev l) 0#8)) (exWrite s.dev l
        ((a + exAoff s.dev l + 8 * (exNtok s.dev l * exK s.dev l)) % 2 ^ 48) (cells.flatMap (fun c => leBytes 2 (n c.2 c.1)))))
      { t with dispatched := true }) (exCluster s.dev l) (exDnd s.dev l) 1 (exCtx s.dev l))) ∧
    (t.dispatched = true ∨ ¬ complete → exec (.dispatchDone l b tag) s = after s s.dev)) ∧
  (∀ (s : State) (l tag : Nat) (b : Bool), Acting s → (exTagAt s.dev l b tag).a0 = none →
    exec (.dispatchDone l b tag) s = after s s.dev) ∧
  (∀ (s : State) (l tag : Nat) (b : Bool), Acting s →
    let t := exTagAt s.dev l b tag
    let finished := t.combined = true ∧ t.dispatched = true ∧ ∀ k < exNtok s.dev l, t.written.contains k = true
    let d1 := exClose s.dev l b tag
    let key := exRouteKey s.dev l tag
    let d2 := if b then { endRec d1 (.route key) with ex := { d1.ex with routes := tdel d1.ex.routes key } } else d1
    (finished →
      exec (.combineDone l b tag) s = after s (semSignal d2 (exCluster s.dev l) (exDnc s.dev l) 1 (exCtx s.dev l))) ∧
    (¬ finished → exec (.combineDone l b tag) s = after s s.dev))

/-- HP_LINK_DOWN and HP_LINK_UP change the link, raise their events, and send what waited; a link that is as they leave it,
and a host port whose clock is lost, stays. With the link down no frame is received. MGMT_QUEUE_FRAME enters a queue of 512
or is dropped and counted; ARP_REQUEST for the own address of either version is answered, for another it is discarded;
UNMATCHED_FRAME is discarded; PFC_PAUSE, PAUSE_QUANTA_EXPIRY, PFC_PAUSE_REFRESH and PFC_STORM keep the pauses of R512. The PTP
messages of the chosen transmitter measure offset and delay and others are only counted, Announces of the domain choose it,
and its absence is holdover. -/
def Obligations.HostPortCommands : Prop :=
  (∀ s : State, Acting s →
    (s.dev.hp.linkUp = true → exec .hpLinkDown s =
      after s (raise (setObj { s.dev with hp := { s.dev.hp with linkUp := false } } 0xB011 0 1) 0x4B01 0 0)) ∧
    (s.dev.hp.linkUp = false → exec .hpLinkDown s = after s s.dev) ∧
    (s.dev.hp.linkUp = false → (∀ n ∈ s.dev.pw.lostPlls, n < 38) → exec .hpLinkUp s =
      after s (txDrain (raise (setObj { s.dev with hp := { s.dev.hp with linkUp := true } } 0xB011 0 2) 0x0B02 0 0))) ∧
    (s.dev.hp.linkUp = true ∨ (∃ n ∈ s.dev.pw.lostPlls, 38 ≤ n) → exec .hpLinkUp s = after s s.dev)) ∧
  (∀ (s : State) (c n t r v k l o x y : Nat) (b : Bool) (bs : List Byte) (ns : List Nat), s.dev.hp.linkUp = false →
    ∀ i ∈ [Instr.mgmtQueueFrame c n bs, .arpRequest b t r, .unmatchedFrame, .pfcPause c n, .rdmaWrite c o t v k l bs b,
      .rdmaRead c t v k l n b, .rdmaAck c k n, .readResponse c n bs b, .cnpReceive c, .ptpSync c n t b x y,
      .ptpFollowUp c n t x, .ptpDelayResp c n t x, .ptpAnnounce c ns], exec i s = after s s.dev) ∧
  (∀ (s : State) (c n : Nat) (bs : List Byte), Acting s → s.dev.hp.linkUp = true →
    let d := bump s.dev 0xB050 0 1
    (s.dev.hp.queue.length < 512 → exec (.mgmtQueueFrame c n bs) s = after s { d with hp := { d.hp with
      queue := d.hp.queue ++ [{ cls := c, src := n, payload := bs }] } }) ∧
    (512 ≤ s.dev.hp.queue.length → exec (.mgmtQueueFrame c n bs) s = after s (raiseSec (bump d 0xB053 0 1) 0x4B03 0 0))) ∧
  (∀ (s : State) (v : Bool) (t r : Nat), Acting s → s.dev.hp.linkUp = true →
    let own := if v then cfg s.dev 0xB021 0 else cfg s.dev 0xB020 0
    (own ≠ 0 → t = own → exec (.arpRequest v t r) s =
      after s (hostSend (bump s.dev 0xB050 0 1) 1 [b2n v, t, cfg s.dev 0xB001 0, r] [])) ∧
    (own = 0 ∨ t ≠ own → exec (.arpRequest v t r) s = after s (bump (bump s.dev 0xB050 0 1) 0xB052 0 1))) ∧
  (∀ s : State, Acting s → s.dev.hp.linkUp = true →
    exec .unmatchedFrame s = after s (bump (bump s.dev 0xB050 0 1) 0xB052 0 1)) ∧
  (∀ (s : State) (p q : Nat), Acting s → s.dev.hp.linkUp = true →
    let d := bump s.dev 0xB050 0 1
    let x := pfcAt s.dev p
    (bitAt (cfg s.dev 0xB025 0) p = false → exec (.pfcPause p q) s = after s d) ∧
    (bitAt (cfg s.dev 0xB025 0) p = true → q ≠ 0 → exec (.pfcPause p q) s =
      after s (setPfc d p { x with paused := true, since := if x.paused then x.since else s.dev.uptime })) ∧
    (bitAt (cfg s.dev 0xB025 0) p = true →
      exec (.pfcPause p 0) s = after s (txDrain (setPfc d p { x with paused := false })))) ∧
  (∀ (s : State) (p : Nat), Acting s →
    exec (.pauseQuantaExpiry p) s = after s (txDrain (setPfc s.dev p { pfcAt s.dev p with paused := false }))) ∧
  (∀ (s : State) (p u : Nat), Acting s →
    let n := 8388608 / max 1 (popCount 8 (cfg s.dev 0xB025 0))
    let x := pfcAt s.dev p
    let due := n * 3 < u * 4 ∨ (x.sent = true ∧ n < u * 2)
    (bitAt (cfg s.dev 0xB025 0) p = true → due → exec (.pfcPauseRefresh p u) s =
      after s (hostSend (setPfc s.dev p { x with sent := true }) 8 [p, 0xFFFF] [])) ∧
    (bitAt (cfg s.dev 0xB025 0) p = true → u * 2 < n → x.sent = true → exec (.pfcPauseRefresh p u) s =
      after s (hostSend (setPfc s.dev p { x with sent := false }) 8 [p, 0] [])) ∧
    (bitAt (cfg s.dev 0xB025 0) p = false ∨ (¬ due ∧ ¬ (x.sent = true ∧ u * 2 < n)) →
      exec (.pfcPauseRefresh p u) s = after s s.dev)) ∧
  (∀ (s : State) (p : Nat), Acting s →
    let long := (pfcAt s.dev p).paused = true ∧ (pfcAt s.dev p).since + 1000 * cfg s.dev 0xB026 0 < s.dev.uptime
    (long → exec (.pfcStorm p) s = after s (raiseStep s.dev 0x4B07 p 0)) ∧ (¬ long → exec (.pfcStorm p) s = after s s.dev)) ∧
  (∀ (s : State) (dom src q o r : Nat), Acting s → s.dev.hp.linkUp = true →
    let d := bump s.dev 0xB050 0 1
    let mine := ptpMine s.dev dom src = true
    (mine → exec (.ptpSync dom src q false o r) s = after s (ptpMeasure d o r)) ∧
    (mine → exec (.ptpSync dom src q true o r) s = after s (setPtp d { s.dev.hp.ptp with sync := some (q, r) })) ∧
    (¬ mine → ∀ b, exec (.ptpSync dom src q b o r) s = after s d) ∧
    (mine → s.dev.hp.ptp.sync = some (q, r) → exec (.ptpFollowUp dom src q o) s = after s (ptpMeasure d o r)) ∧
    (¬ mine ∨ (∀ r, s.dev.hp.ptp.sync ≠ some (q, r)) → exec (.ptpFollowUp dom src q o) s = after s d)) ∧
  (∀ (s : State) (dom src q t3 t4 : Nat), Acting s → s.dev.hp.linkUp = true →
    let p := s.dev.hp.ptp
    let y : Int := (((p.t2 : Int) - p.t1) + ((t4 : Int) - t3)) / 2
    let o : Int := (p.t2 : Int) - p.t1 - y
    (ptpMine s.dev dom src = true → p.haveSync = true → p.delayReq = some (t3, q) →
      exec (.ptpDelayResp dom src q t4) s = after s (ptpCorrect (setObj (setPtp (bump s.dev 0xB050 0 1)
        { p with delay := y, offset := o, delayReq := none }) 0xB044 0 (ofSigned 32 o)) o)) ∧
    (ptpMine s.dev dom src = false ∨ p.haveSync = false ∨ (∀ t, p.delayReq ≠ some (t, q)) →
      exec (.ptpDelayResp dom src q t4) s = after s (bump s.dev 0xB050 0 1))) ∧
  (∀ (s : State) (dom : Nat) (l : List Nat), Acting s → s.dev.hp.linkUp = true →
    let d := bump s.dev 0xB050 0 1
    let p := s.dev.hp.ptp
    let better := ∀ b, p.best = some b → b.getLast? = l.getLast? ∨ listBefore l b = true
    (dom = cfg s.dev 0xB040 0 → better → exec (.ptpAnnounce dom l) s = after s (setPtp d { p with best := some l })) ∧
    (dom ≠ cfg s.dev 0xB040 0 ∨ ¬ better → exec (.ptpAnnounce dom l) s = after s d)) ∧
  (∀ s : State, Acting s →
    let p := s.dev.hp.ptp
    (p.state = 1 ∨ p.state = 2 → exec .ptpAnnounceTimeout s =
      after s (raise (setPtp s.dev { p with state := 3, good := 0, best := none, sync := none }) 0x4B09 0 0)) ∧
    (p.state ≠ 1 → p.state ≠ 2 → exec .ptpAnnounceTimeout s = after s (setPtp s.dev { p with best := none })))

/-- Packets of a pair not in use or in error are discarded and counted. Otherwise a packet is counted, and a CE mark makes a
CNP unless one has left within 50 µs; then an RDMA_WRITE of the expected PSN lands where its key allows and moves the PSN on,
one its key refuses makes a NAK and an error, one that does not fit its request or has another opcode is invalid, a repeat
is acknowledged again, one ahead makes one NAK; RDMA_READ is answered in packets, or refused in the same ways; RDMA_ACK and
READ_RESPONSE advance the requester, RETRANSMIT_TIMEOUT retries it, CNP_RECEIVE halves the rate unless it fell within 50 µs,
and RATE_INCREASE raises it. QP_RESET starts a pair in use afresh, and is refused for another and out of range. -/
def Obligations.QueuePairCommands : Prop :=
  (∀ (s : State) (i o p v k n : Nat) (bs : List Byte) (c : Bool), Acting s → s.dev.hp.linkUp = true →
    (qpEnabled s.dev i = false ∨ (qpAt s.dev i).err = true) →
    ∀ x ∈ [Instr.rdmaWrite i o p v k n bs c, .rdmaRead i p v k n o c, .rdmaAck i k p, .readResponse i p bs c, .cnpReceive i],
      exec x s = after s (bump (bump s.dev 0xB050 0 1) 0xB052 0 1)) ∧
  (∀ (s : State) (i : Nat), Acting s → s.dev.hp.linkUp = true → qpEnabled s.dev i = true → (qpAt s.dev i).err = false →
    let q := qpStart s.dev i
    let x0 := setQp (bump s.dev 0xB050 0 1) i q
    let marked := fun (c : Bool) => c && (q.lastCnpSent.all (fun t => decide (t + 50000 ≤ s.dev.uptime)))
    let x := fun (c : Bool) => if marked c then
        hostSend (bump (setQp x0 i { q with lastCnpSent := some s.dev.uptime }) 0xB056 0 1) 7 [i, fld (qpRow s.dev i) 252 229] []
      else x0
    (∀ (o p v k n : Nat) (bs : List Byte) (c : Bool),
      let r := psnDist q p
      let w := exec (.rdmaWrite i o p v k n bs c) s
      (4 ≤ o → w = after s (qpInvalid (x c) i p)) ∧
      (o < 4 → 8388608 ≤ r → w = after s (qpAck (x c) i p)) ∧
      (o < 4 → r ≠ 0 → r < 8388608 → w = after s (qpAhead (x c) i)) ∧
      (o = 0 ∨ o = 3 → r = 0 →
        let fits := q.writing = none ∧ bs.length ≤ n ∧ (o = 3 → bs.length = n)
        let ok := remoteOk (x c) k v n true
        (fits → ok.1 = true → w = after s (writeBody ok.2 i p v n (o == 3) bs)) ∧
        (fits → ok.1 = false → w = after s (remoteRefused ok.2 i p)) ∧
        (¬ fits → w = after s (qpInvalid (x c) i p))) ∧
      (o = 1 ∨ o = 2 → r = 0 →
        (∀ a left, q.writing = some (a, left) → bs.length ≤ left → (o = 2 → bs.length = left) →
          w = after s (writeBody (x c) i p a left (o == 2) bs)) ∧
        (∀ a left, q.writing = some (a, left) → (left < bs.length ∨ (o = 2 ∧ bs.length ≠ left)) →
          w = after s (qpInvalid (x c) i p)) ∧
        (q.writing = none → w = after s (qpInvalid (x c) i p)))) ∧
    (∀ (p v k n b : Nat) (c : Bool),
      let r := psnDist q p
      let ok := remoteOk (x c) k v n false
      let m := max 1 (ceilDiv n (qpMtu s.dev i))
      let w := exec (.rdmaRead i p v k n b c) s
      let y := readReply i p (qpMtu s.dev i) v n m 0 (if r = 0 then
        setQp ok.2 i { qpAt (x c) i with expPsn := (q.expPsn + m) % 2 ^ 24, nakSent := false } else ok.2)
      (r ≠ 0 → r < 8388608 → w = after s (qpAhead (x c) i)) ∧
      ((r = 0 ∨ 8388608 ≤ r) → fld (qpRow s.dev i) 16 13 < b → w = after s (qpInvalid (x c) i p)) ∧
      ((r = 0 ∨ 8388608 ≤ r) → b ≤ fld (qpRow s.dev i) 16 13 →
        (ok.1 = false → w = after s (remoteRefused ok.2 i p)) ∧
        (ok.1 = true → w = after s (if y.1 then y.2 else qpError y.2 i)))) ∧
    (∀ k p, exec (.rdmaAck i k p) s = after s (if k = 0 then qpAcked x0 i p
      else if k = 1 then qpRetry (qpAcked x0 i ((p + 2 ^ 24 - 1) % 2 ^ 24)) i else qpError x0 i)) ∧
    (∀ (p : Nat) (bs : List Byte) (c : Bool),
      let hit := q.reqs.find? (fun r => r.read && (r.psn + r.got) % 2 ^ 24 == p)
      (hit = none → exec (.readResponse i p bs c) s = after s (x c)) ∧
      (∀ r, hit = some r → exec (.readResponse i p bs c) s = after s (qpPump 16 (landHost (setQp (x c) i { qpAt (x c) i with
        reqs := if r.packets ≤ r.got + 1 then q.reqs.erase r
          else q.reqs.map (fun y => if y.psn = r.psn then { r with got := r.got + 1 } else y)
        retries := 0 }) r (r.got * qpMtu s.dev i) bs (decide (r.packets ≤ r.got + 1))) i))) ∧
    ((∀ t, q.lastDecrease = some t → t + 50000 ≤ s.dev.uptime) → exec (.cnpReceive i) s =
      after s (setQp x0 i { q with rate := max (2 ^ 26) (q.rate / 2), lastDecrease := some s.dev.uptime })) ∧
    (∀ t, q.lastDecrease = some t → s.dev.uptime < t + 50000 → exec (.cnpReceive i) s = after s x0)) ∧
  (∀ (s : State) (i : Nat), Acting s →
    (qpEnabled s.dev i = true → (qpAt s.dev i).err = false → exec (.retransmitTimeout i) s = after s (qpRetry s.dev i)) ∧
    (qpEnabled s.dev i = false ∨ (qpAt s.dev i).err = true → exec (.retransmitTimeout i) s = after s s.dev) ∧
    (qpEnabled s.dev i = true → exec (.rateIncrease i) s =
      after s (setQp s.dev i { qpAt s.dev i with rate := min (2 ^ 32) ((qpAt s.dev i).rate + 2 ^ 28) })) ∧
    (qpEnabled s.dev i = false → exec (.rateIncrease i) s = after s s.dev)) ∧
  (∀ (s : State) (i : Nat), Serving s 0xB033 0 →
    (i < 128 → qpEnabled s.dev i = true →
      exec (.qpReset i) s = after s (send (setQp (dropTx s.dev i) i qpReset0) (.status 0xB033 0 0))) ∧
    (i < 128 → qpEnabled s.dev i = false → exec (.qpReset i) s = after s (send s.dev (.status 0xB033 0 6))) ∧
    (128 ≤ i → exec (.qpReset i) s = after s (send s.dev (.status 0xB033 0 5))))

/-- SYSERID_READ of a served object that is not write-only answers OK with its value, SYSERID_READ_STAGED with the staged
value of a staged object, else the one in force; neither changes anything else. SYSERID_WRITE of a staged object within type,
range and room stages it, answers OK and leaves the value in force; with no room it answers STATE and raises 0x4209. A write
of an RW or WO object has its effect and answers that effect's status. An unknown object answers NOOBJ, one the access does
not allow ACCESS, a wrong length TYPE, a value out of range RANGE, an oversized record FRAME, an operation not served STATE,
all without effect; one that needs a wedged fabric becomes pending, or BUSY when 64 are. -/
def Obligations.ObjectOperations : Prop :=
  (∀ (s : State) (n q i k : Nat) (staged : Bool), Acting s →
    let c := if staged then Instr.syseridReadStaged n q i k else .syseridRead n q i k
    let op := if staged then 2 else 0
    let here := s.dev.rc.wedged = false ∨ servedLocally i k op = true
    let p := makePending s.dev s.dev { node := n, seq := q, src := 0 } i k 256
    (accessOf i k = none → exec c s = after s (send s.dev (.reply n q i k 2 0 0))) ∧
    (accessOf i k = some .wo → exec c s = after s (send s.dev (.reply n q i k 3 0 0))) ∧
    (∀ a, accessOf i k = some a → a ≠ .wo →
      (servedNow s.dev i k op = false → exec c s = after s (send s.dev (.reply n q i k 6 0 0))) ∧
      (servedNow s.dev i k op = true → here →
        (objRow i k = none → exec c s = after s (send s.dev (.reply n q i k 0 0 (rowCount i)))) ∧
        (∀ o, objRow i k = some o →
          let v := if staged = true ∧ o.acc = .rs then
              (if isKeyed i then recValue (stageKey i 0 0) (stagedAt s.dev (stageKey i 0 0)) else stagedAt s.dev (stageKey i k 0))
            else readObj s.dev i k
          exec c s = after s (send s.dev (.reply n q i k 0 0 (v % 2 ^ (8 * o.bytes)))))) ∧
      (servedNow s.dev i k op = true → ¬ here →
        exec c s = after s (sendReply p.2 { node := n, seq := q, src := 0 } p.1) ∧
        (pendingOps s.dev < 64 → p.1.status = 1 ∧ p.2.sy.pend.length = s.dev.sy.pend.length + 1) ∧
        (64 ≤ pendingOps s.dev → p = (plainReply i k 8, raiseSec (bump s.dev 0x1114 0 1) 0x4105 0 0))))) ∧
  (∀ (s : State) (n q i k l v : Nat) (x : OpInfo), Acting s →
    let c := exec (.syseridWrite n q i k l v x) s
    (4096 < l → c = after s (send s.dev (.reply n q i k 9 0 0))) ∧
    (l ≤ 4096 → accessOf i k = none → c = after s (send s.dev (.reply n q i k 2 0 0))) ∧
    (l ≤ 4096 → (accessOf i k).isSome = true → objRow i k = none → c = after s (send s.dev (.reply n q i k 3 0 0)))) ∧
  (∀ (s : State) (n q i k l v : Nat) (x : OpInfo) (o : ObjRow), Acting s → objRow i k = some o → l ≤ 4096 → v < 2 ^ (8 * l) →
    let c := exec (.syseridWrite n q i k l v x) s
    let reply := fun (d : Dev) (st : Nat) => after s (send d (.reply n q i k st 0 0))
    let sized := l = o.bytes ∨ i = 0xD014
    (o.acc = .ro ∨ o.acc = .const → c = reply s.dev 3) ∧
    (o.acc ≠ .ro → o.acc ≠ .const → ¬ sized → c = reply s.dev 4) ∧
    (o.acc = .rs → sized →
      let t := stageAll s.dev.gn.staged (writeRecs i k v)
      (rangeOk o v = false → c = reply s.dev 5) ∧
      (rangeOk o v = true → servedNow s.dev i k 1 = false → c = reply s.dev 6) ∧
      (rangeOk o v = true → servedNow s.dev i k 1 = true → stageFits t = true →
        c = reply { s.dev with gn := { s.dev.gn with staged := t } } 0) ∧
      (rangeOk o v = true → servedNow s.dev i k 1 = true → stageFits t = false → c = reply (raise s.dev 0x4209 i 0) 6)) ∧
    (o.acc = .rw ∨ o.acc = .wo → sized →
      let e := writeEffect s.dev x i k l v
      let st := writeStatus s.dev e i
      let f : SyFrom := { node := n, seq := q, src := 0 }
      let p := makePending s.dev s.dev f i k 256
      let w := makePending s.dev e f i k (pendUnit i v)
      let ok := st ≠ 4 ∧ st ≠ 5
      let here := s.dev.rc.wedged = false ∨ servedLocally i k 1 = true
      (st = 4 ∨ st = 5 → c = reply s.dev st) ∧
      (ok → servedNow s.dev i k 1 = false → c = reply s.dev 6) ∧
      (ok → servedNow s.dev i k 1 = true → ¬ here → c = after s (sendReply p.2 f p.1)) ∧
      (ok → servedNow s.dev i k 1 = true → here →
        (st ≠ 1 → st ≠ 8 → c = reply e st) ∧
        (st = 8 → c = reply (raiseSec (bump e 0x1114 0 1) 0x4105 0 0) 8) ∧
        (st = 1 → c = after s (sendReply w.2 f w.1)))))

/-- PENDING_COMPLETE of an operation whose unit has ended sends its COMPLETE with the final status; COMPLETE_RESEND sends it
again and forgets it after 16; ACK_COMPLETE forgets what the request had completed; STALL_TIMEOUT of one whose unit has not
ended completes it with WEDGED and wedges. ACK_EVENTS of what the row was sent moves its base, EVENT_RESEND repeats from the
base and stalls after 16, SUBSCRIBER_RETRY of a stalled row sends again. Each does nothing where it finds nothing to do.
SYSERID_TICK advances the clocks by 1 us, and serves the queued frames unless the device has tripped; with no frame and no
subscriber the controller's liveness count alone moves. -/
def Obligations.PendingAndDelivery : Prop :=
  (∀ (s : State) (t : Nat), Acting s →
    (∀ p st, pendOf s.dev t = some p → doneIn p.idx p.unit (s.dev.out.drop p.mark) = some st →
      exec (.pendingComplete t) s = after s (finishPend s.dev p st) ∧
      (∀ a b, exec (.stallTimeout t a b) s = after s s.dev)) ∧
    (∀ p, pendOf s.dev t = some p → doneIn p.idx p.unit (s.dev.out.drop p.mark) = none →
      exec (.pendingComplete t) s = after s s.dev ∧
      (∀ a b, exec (.stallTimeout t a b) s =
        after s (wedge (raise (finishPend s.dev p 0xA) 0x8104 p.idx p.ticket) 1 a b))) ∧
    (pendOf s.dev t = none → exec (.pendingComplete t) s = after s s.dev ∧
      (∀ a b, exec (.stallTimeout t a b) s = after s s.dev))) ∧
  (∀ (s : State) (t : Nat), Acting s →
    let hit := s.dev.sy.pend.find? (fun p => p.ticket == t && p.final.isSome)
    (∀ p, hit = some p → exec (.completeResend t) s = after s (send { s.dev with sy := { s.dev.sy with
      pend := if 15 ≤ p.sends then s.dev.sy.pend.erase p
        else s.dev.sy.pend.map (fun q => if q = p then { q with sends := p.sends + 1 } else q) } }
      (.complete p.node p.seq p.ticket (p.final.getD 0) 0))) ∧
    (hit = none → exec (.completeResend t) s = after s s.dev)) ∧
  (∀ (s : State) (n q : Nat), Acting s → exec (.ackComplete n q) s = after s { s.dev with sy := { s.dev.sy with
    pend := s.dev.sy.pend.filter (fun p => !(p.node == n && p.seq == q && p.final.isSome)) } }) ∧
  (∀ (s : State) (r e : Nat) (x : Subscriber), Acting s → tfind s.dev.ev.subs r = some x →
    let b := (e + 1) % 2 ^ 32
    let sent := seqGe b x.base = true ∧ seqGe x.next b = true
    (sent → exec (.ackEvents r e) s =
      after s (pumpRow (setSub s.dev r { x with base := b, resends := 0, stalled := false }) r)) ∧
    (¬ sent → exec (.ackEvents r e) s = after s s.dev)) ∧
  (∀ (s : State) (r : Nat) (x : Subscriber), Acting s → tfind s.dev.ev.subs r = some x →
    let due := x.stalled = false ∧ rowEvents s.dev r x.base ≠ [] ∧ x.base ≠ x.next
    (due → x.resends < 16 → exec (.eventResend r) s =
      after s (pumpRow (setSub s.dev r { x with next := x.base, resends := x.resends + 1 }) r)) ∧
    (due → 16 ≤ x.resends →
      exec (.eventResend r) s = after s (raise (setSub s.dev r { x with stalled := true }) 0x4103 r 0)) ∧
    (¬ due → exec (.eventResend r) s = after s s.dev) ∧
    (x.stalled = true →
      exec (.subscriberRetry r) s = after s (pumpRow (setSub s.dev r { x with next := x.base }) r)) ∧
    (x.stalled = false → exec (.subscriberRetry r) s = after s s.dev)) ∧
  (∀ (s : State) (r e : Nat), Acting s → tfind s.dev.ev.subs r = none →
    ∀ i ∈ [Instr.ackEvents r e, .eventResend r, .subscriberRetry r], exec i s = after s s.dev) ∧
  (∀ (s : State) (i : OpInfo), held s.dev = false →
    (s.dev.pw.tripped = false → exec (.syseridTick i) s = after s (serveTick (clockTick s.dev) i)) ∧
    (s.dev.pw.tripped = false → s.dev.hp.queue = [] → s.dev.ev.subs = [] → exec (.syseridTick i) s =
      after s { clockTick s.dev with rl := { s.dev.rl with mclive := (s.dev.rl.mclive + 1) % 65536 } }) ∧
    (s.dev.pw.tripped = true → exec (.syseridTick i) s = after s (clockTick s.dev)) ∧
    (clockTick s.dev).uptime = s.dev.uptime + 1000 ∧
    (clockTick s.dev).ptp =
      ((s.dev.ptp : Int) + 1000 + (s.dev.hp.ptp.frac + s.dev.hp.ptp.slew) / 1000000).toNat % 2 ^ 64) ∧
  (∀ (s : State) (i : OpInfo), held s.dev = true → exec (.syseridTick i) s = after s s.dev)

/-- GEN_CHECK forms its result, an armed generation failing it, unless one is formed already, and GEN_CHECK_DONE writes it. A
COMMIT_NOW that fails no test puts its generation in force, empties the staging set, keeps the former generation as previous,
logs 0x0201 and answers OK, as ROLLBACK_NOW does with the previous one's values; at a boundary or a time a generation is
armed instead, with 0x4202 for a time in holdover; one that fails a test writes the result, answers STATE and changes nothing
else, and a record out of range answers RANGE. At its instant the armed generation is tested again and applied or discarded
with 0x8203. GEN_CANCEL returns its records to staging, STAGE_DISCARD empties staging, GEN_STORE_DONE ends the store and
begins the next. Each does nothing where there is nothing to end. -/
def Obligations.GenerationCommands : Prop :=
  (∀ (s : State) (v : Nat), Serving s 0x2020 0 →
    let armed := if s.dev.gn.armed.isSome then [({ idx := 0x2020, sub := 0, cause := 6, rule := 559 } : GenFail)] else []
    (s.dev.gn.checking = none →
      exec (.genCheck 1) s = after s (send { s.dev with gn := { s.dev.gn with checking := some (checkWord
        (firstFail (genFails s.dev s.dev.gn.staged true 0x2020 ++ armed)) (recsDigest s.dev.gn.staged) 0 false) } }
        (.status 0x2020 0 1))) ∧
    (s.dev.gn.checking.isSome = true → exec (.genCheck 1) s = after s (send s.dev (.status 0x2020 0 8))) ∧
    (v ≠ 1 → exec (.genCheck v) s = after s (send s.dev (.status 0x2020 0 0)))) ∧
  (∀ s : State, Acting s →
    (∀ w, s.dev.gn.checking = some w → exec .genCheckDone s =
      after s (send (setObj { s.dev with gn := { s.dev.gn with checking := none } } 0x2021 0 w)
        (.done 0x2020 0 (if bitAt w 0 then 0 else 6)))) ∧
    (s.dev.gn.checking = none → exec .genCheckDone s = after s s.dev)) ∧
  (∀ (s : State) (r : Nat), Serving s 0x2030 0 → gcOk r false = true → gcWhen r = 0 →
    firstFail (genFails s.dev s.dev.gn.staged (gcStore r) 0x2030 ++ commitFails s.dev r false s.dev.gn.staged) = none →
    ∃ d, exec (.commitNow r) s = after s d ∧
      d = send (genApply { s.dev with gn := { s.dev.gn with staged := [] } } r false s.dev.gn.staged) (.status 0x2030 0 0) ∧
      d.gn.current = gcGen r ∧ d.gn.staged = [] ∧ d.gn.previous = some (s.dev.gn.current, genValues s.dev) ∧
      cfg d 0x2000 0 = gcGen r ∧ cfg d 0x2001 0 = s.dev.gn.current ∧ Logged d 0x0201 (gcGen r) 0) ∧
  (∀ (s : State) (r w : Nat), Serving s 0x2030 0 → gcOk r false = true → gcWhen r = w → 1 ≤ w →
    firstFail (genFails s.dev s.dev.gn.staged (gcStore r) 0x2030 ++ commitFails s.dev r false s.dev.gn.staged) = none →
    let d := { s.dev with gn := { s.dev.gn with
      staged := [], armed := some { raw := r, rollback := false, recs := s.dev.gn.staged } } }
    (w = 1 → exec (.commitAtBoundary r) s = after s (send d (.status 0x2030 0 0))) ∧
    (w = 2 → exec (.commitAtTime r) s =
      after s (send (if s.dev.hp.ptp.state = 3 then raise d 0x4202 (gcGen r) 0 else d) (.status 0x2030 0 0)))) ∧
  (∀ (s : State) (r : Nat), Serving s 0x2030 0 →
    ∀ c ∈ [(0, Instr.commitNow r), (1, .commitAtBoundary r), (2, .commitAtTime r)], gcWhen r = c.1 →
      (gcOk r false = false → exec c.2 s = after s (send s.dev (.status 0x2030 0 5))) ∧
      (∀ f, gcOk r false = true →
        firstFail (genFails s.dev s.dev.gn.staged (gcStore r) 0x2030 ++ commitFails s.dev r false s.dev.gn.staged) = some f →
        exec c.2 s = after s (send (setObj s.dev 0x2021 0 (checkWord (some f) (recsDigest s.dev.gn.staged) (gcGen r) false))
          (.status 0x2030 0 6)))) ∧
  (∀ (s : State) (r : Nat), Serving s 0x2032 0 → gcOk r true = true →
    let recs := rollbackRecs s.dev ((s.dev.gn.previous.map Prod.snd).getD [])
    let tests := firstFail (genFails s.dev recs (gcStore r) 0x2032 ++ commitFails s.dev r true recs)
    let d := { s.dev with gn := { s.dev.gn with armed := some { raw := r, rollback := true, recs := [] } } }
    (tests = none → gcWhen r = 0 →
      exec (.rollbackNow r) s = after s (send (genApply s.dev r true recs) (.status 0x2032 0 0))) ∧
    (tests = none → gcWhen r = 1 → exec (.rollbackAtBoundary r) s = after s (send d (.status 0x2032 0 0))) ∧
    (tests = none → gcWhen r = 2 → exec (.rollbackAtTime r) s =
      after s (send (if s.dev.hp.ptp.state = 3 then raise d 0x4202 (gcGen r) 0 else d) (.status 0x2032 0 0))) ∧
    (∀ f, tests = some f →
      ∀ c ∈ [(0, Instr.rollbackNow r), (1, .rollbackAtBoundary r), (2, .rollbackAtTime r)], gcWhen r = c.1 →
        exec c.2 s = after s (send (setObj s.dev 0x2021 0 (checkWord (some f) (recsDigest s.dev.gn.staged) (gcGen r) false))
          (.status 0x2032 0 6)))) ∧
  (∀ (s : State) (r : Nat), Serving s 0x2032 0 → gcOk r true = false →
    ∀ c ∈ [(0, Instr.rollbackNow r), (1, .rollbackAtBoundary r), (2, .rollbackAtTime r)], gcWhen r = c.1 →
      exec c.2 s = after s (send s.dev (.status 0x2032 0 5))) ∧
  (∀ (s : State) (a : Armed), Acting s → s.dev.gn.armed = some a → gcWhen a.raw = 2 → gcAt a.raw ≤ s.dev.ptp →
    let d := { s.dev with gn := { s.dev.gn with armed := none } }
    let recs := if a.rollback then rollbackRecs d ((s.dev.gn.previous.map Prod.snd).getD []) else a.recs
    let tests := firstFail (genFails d recs (gcStore a.raw) (if a.rollback then 0x2032 else 0x2030))
    (tests = none → exec .armedTimeApply s = after s (genApply d a.raw a.rollback recs)) ∧
    (∀ f, tests = some f → exec .armedTimeApply s =
      after s (raise (setObj d 0x2021 0 (checkWord (some f) (recsDigest recs) (gcGen a.raw) true)) 0x8203 (gcGen a.raw) f.idx))) ∧
  (∀ s : State, Acting s → (∀ a, s.dev.gn.armed = some a → gcWhen a.raw ≠ 2 ∨ s.dev.ptp < gcAt a.raw) →
    exec .armedTimeApply s = after s s.dev) ∧
  (∀ (s : State) (v : Nat), Serving s 0x2031 0 →
    (∀ a, s.dev.gn.armed = some a → exec (.genCancel 1) s =
      after s (send (raise { s.dev with gn := { s.dev.gn with armed := none, staged := stageAll a.recs s.dev.gn.staged } }
        0x0204 (gcGen a.raw) 0) (.status 0x2031 0 0))) ∧
    (s.dev.gn.armed = none → exec (.genCancel 1) s = after s (send s.dev (.status 0x2031 0 6))) ∧
    (v ≠ 1 → exec (.genCancel v) s = after s (send s.dev (.status 0x2031 0 0)))) ∧
  (∀ (s : State) (v : Nat), Serving s 0x2013 0 →
    exec (.stageDiscard 1) s = after s (send { s.dev with gn := { s.dev.gn with staged := [] } } (.status 0x2013 0 0)) ∧
    (v ≠ 1 → exec (.stageDiscard v) s = after s (send s.dev (.status 0x2013 0 0)))) ∧
  (∀ (s : State) (ok : Bool), held s.dev = false →
    (∀ g, s.dev.gn.storing = some g → ∃ d, exec (.genStoreDone ok) s = after s d ∧
      d.gn.storing = s.dev.gn.queue.head? ∧ d.gn.queue = s.dev.gn.queue.tail ∧
      d.gn.storeState = (if s.dev.gn.queue = [] then (if ok then 0 else 2) else 1) ∧
      (if storeSlot s.dev = 0 then d.gn.slot0 else d.gn.slot1) = { valid := ok, header := true, gen := g.gen, vals := g.vals } ∧
      (if storeSlot s.dev = 0 then d.gn.slot1 else d.gn.slot0) = (if storeSlot s.dev = 0 then s.dev.gn.slot1 else s.dev.gn.slot0) ∧
      Logged d (if ok then 0x0206 else 0x8207) g.gen 0) ∧
    (s.dev.gn.storing = none → exec (.genStoreDone ok) s = after s s.dev))

/-- HM_EXTERNAL adds its value. CUT_AT_STEP keeps the earlier of two steps, cancels with 0, and answers STATE for a past step and
once the cut is under way. CUT_CAPTURE takes a cut of the boundary's step, with every context, semaphore and memory item, once
the engines are done and no flush or mirror runs, and changes no byte outside the reserves; an unreadable record or word, an
untranslated region and a missing reserve leave no cut. CAPTURE_DONE ends the hold and begins flush and mirror;
NVME_COMPLETION carries the flush from its segments over Flush and an optional verify to the directory, or fails it with
0x8C12; CUT_COMPLETE makes the cut the newest one; MIRROR_DONE ends the mirror copy; SN_RESTORE begins a restore of an idle
device; RESTORE_DONE with no record active writes every kind and sets SsStartStep, or writes the failing segment and ends with
STATE. A command that finds nothing to go on with changes nothing. (A record of the cut is the model's own structure, and
which segments fail is an operand, log 20.) -/
def Obligations.SnapshotCommands : Prop :=
  (∀ (s : State) (v : Nat), Serving s 0xC009 0 → exec (.hmExternal v) s =
    after s (send { s.dev with hm := { s.dev.hm with external := f32Add s.dev.hm.external (BitVec.ofNat 32 v) } }
      (.status 0xC009 0 0))) ∧
  (∀ (s : State) (n : Nat), Serving s 0xC100 0 →
    let p := cfg s.dev 0xC100 0
    let underWay := p ≠ 0 ∧ p = s.dev.seq.step ∧ s.dev.seq.phase = .worked
    (¬ underWay → s.dev.seq.step ≤ n → n ≠ 0 → exec (.cutAtStep n) s =
      after s (send (setObj s.dev 0xC100 0 (if p = 0 then n else min p n)) (.status 0xC100 0 0))) ∧
    (¬ underWay → exec (.cutAtStep 0) s = after s (send (setObj s.dev 0xC100 0 0) (.status 0xC100 0 0))) ∧
    (underWay ∨ (n ≠ 0 ∧ n < s.dev.seq.step) → exec (.cutAtStep n) s = after s (send s.dev (.status 0xC100 0 6)))) ∧
  (∀ s : State, Acting s → s.dev.seq.cutHeld = true → s.dev.sn.captured = none → s.dev.sup.enginesDone = 0 →
    let ready := s.dev.sn.flush = none ∧ s.dev.sn.mirror = none
    let missing := halves.any (reserveSet s.dev) = false ∨ ∃ i ∈ jobItems s.dev, jobPieces s.dev i.2.2.1 i.2.2.2 false = none
    (ready → ¬ missing → (capturedRecs s.dev).1 = true →
      (∀ i ∈ devItems s.dev, ueIn s.dev.mem i.2.2.1 i.2.2.2 = []) →
      (∀ i ∈ jobItems s.dev, ∀ l, jobPieces s.dev i.2.2.1 i.2.2.2 false = some l → ∀ x ∈ l, ueIn s.dev.mem x.1 x.2 = []) →
      ∃ c d, exec .cutCapture s = after s d ∧ d.sn.captured = some c ∧ d.sn.flush = none ∧ d.sn.waited = false ∧
        c.step = s.dev.seq.step ∧ c.ctxs = s.dev.seq.ctxs ∧ c.sems = s.dev.sems ∧ c.savedSems = s.dev.seq.savedSems ∧
        c.up = s.dev.up ∧ c.ledger = s.dev.sup.ledger ∧ c.ex = s.dev.ex ∧ c.roff = (s.dev.seq.step + 1) % 2 ^ 64 ∧
        (∀ i ∈ devItems s.dev, { kind := i.1, item := i.2.1, addr := i.2.2.1, bytes := memRead s.dev.mem i.2.2.1 i.2.2.2 } ∈ c.mem) ∧
        (∀ i ∈ jobItems s.dev, ∀ l, jobPieces s.dev i.2.2.1 i.2.2.2 false = some l →
          { kind := i.1, item := i.2.1, addr := i.2.2.1, bytes := l.flatMap (fun x => memRead s.dev.mem x.1 x.2) } ∈ c.mem) ∧
        d.seq.cutHeld = true ∧ ∀ x, (∀ h ∈ halves, reserveSet s.dev h = true →
          ¬ ((reserveOf s.dev h).1 ≤ x ∧ x < (reserveOf s.dev h).1 + (reserveOf s.dev h).2)) →
          memByte d.mem x = memByte s.dev.mem x) ∧
    (ready → missing → exec .cutCapture s = after s (abandonCut s.dev)) ∧
    (ready → ¬ missing → (capturedRecs s.dev).1 = false →
      exec .cutCapture s = after s (abandonCut (capturedRecs s.dev).2)) ∧
    (ready → ¬ missing → (capturedRecs s.dev).1 = true →
      ((∃ i ∈ devItems s.dev, ueIn s.dev.mem i.2.2.1 i.2.2.2 ≠ []) ∨
        ∃ i ∈ jobItems s.dev, ∃ l, jobPieces s.dev i.2.2.1 i.2.2.2 false = some l ∧ ∃ x ∈ l, ueIn s.dev.mem x.1 x.2 ≠ []) →
      ∃ d, exec .cutCapture s = after s d ∧ d.sn.captured = none ∧ d.seq.cutHeld = false ∧ Logged d 0x8C12 0 s.dev.seq.step) ∧
    (¬ ready → exec .cutCapture s = after s (if s.dev.sn.waited then s.dev
      else raise (setSn s.dev { s.dev.sn with waited := true }) 0x4C13 0 s.dev.seq.step))) ∧
  (∀ s : State, Acting s → (s.dev.seq.cutHeld = false ∨ s.dev.sn.captured ≠ none ∨ s.dev.sup.enginesDone ≠ 0) →
    exec .cutCapture s = after s s.dev) ∧
  (∀ (s : State) (us : Nat), Acting s →
    (∀ c, s.dev.sn.captured = some c →
      ∃ d, exec (.captureDone us) s = after s d ∧ d.seq = { s.dev.seq with cutHeld := false } ∧ d.sn.captured = none ∧
      cfg d 0xC100 0 = 0 ∧ cfg d 0xC132 0 = us ∧ d.mem = s.dev.mem ∧
      d.sn.mirror = (if (mirrorWindow s.dev).isSome then some c else s.dev.sn.mirror) ∧
      (driveReady s.dev = true → d.sn.flush = some { cut := c, slot := cutSlot s.dev, phase := .writing, left := segCount c } ∧
        driveSlot d (cutSlot s.dev) = some { cut := c, complete := false } ∧ Logged d 0x0C10 0 c.step) ∧
      (driveReady s.dev = false → d.sn.flush = s.dev.sn.flush ∧ Logged d 0x8C14 0 c.step ∧ Logged d 0x8C12 0 c.step)) ∧
    (s.dev.sn.captured = none → exec (.captureDone us) s = after s s.dev)) ∧
  (∀ (s : State) (f : Flush), Acting s → s.dev.sn.flush = some f →
    let goOn := fun (x : Dev) (p : FlushPhase) (n k : Nat) =>
      send (setSn x { x.sn with flush := some { f with phase := p, left := n } }) (.nvme k [f.slot, n])
    let fail := fun (x : Dev) => raise (setSn x { x.sn with flush := none }) 0x8C12 0 f.cut.step
    let rd := reserveRead s.dev
    let part := setObj rd.2 0xC112 0 (flushedBytes f.cut (f.left - 1))
    (f.phase = .writing → rd.1 = true → 2 ≤ f.left →
      exec (.nvmeCompletion true) s = after s (goOn part .writing (f.left - 1) 1)) ∧
    (f.phase = .writing → rd.1 = true → f.left ≤ 1 → exec (.nvmeCompletion true) s = after s (goOn part .syncing 1 2)) ∧
    (f.phase = .writing → rd.1 = false → exec (.nvmeCompletion true) s = after s (fail rd.2)) ∧
    (f.phase = .syncing → cfg s.dev 0xC107 0 = 1 →
      exec (.nvmeCompletion true) s = after s (goOn s.dev .verifying (segCount f.cut) 3)) ∧
    (f.phase = .syncing → cfg s.dev 0xC107 0 ≠ 1 → exec (.nvmeCompletion true) s = after s (goOn s.dev .directory 1 4)) ∧
    (f.phase = .verifying → 2 ≤ f.left → exec (.nvmeCompletion true) s = after s (goOn s.dev .verifying (f.left - 1) 3)) ∧
    (f.phase = .verifying → f.left ≤ 1 → exec (.nvmeCompletion true) s = after s (goOn s.dev .directory 1 4)) ∧
    (f.phase ≠ .directory → exec (.nvmeCompletion false) s = after s (fail s.dev)) ∧
    (f.phase = .directory → ∀ ok, exec (.nvmeCompletion ok) s = after s s.dev) ∧
    (f.phase ≠ .directory → ∀ ok, exec (.cutComplete ok) s = after s s.dev) ∧
    (f.phase = .directory → exec (.cutComplete false) s = after s (fail s.dev)) ∧
    (f.phase = .directory → ∃ d, exec (.cutComplete true) s = after s d ∧ d.sn.flush = none ∧ d.sn.newest = some f.slot ∧
      driveSlot d f.slot = some { cut := f.cut, complete := true } ∧
      cfg d 0xC111 0 = lastCutWord f.cut f.slot true ∧ d.mem = s.dev.mem ∧ d.seq = s.dev.seq ∧
      Logged d 0x0C11 0 f.cut.step)) ∧
  (∀ (s : State) (ok : Bool), Acting s → s.dev.sn.flush = none →
    exec (.nvmeCompletion ok) s = after s s.dev ∧ exec (.cutComplete ok) s = after s s.dev) ∧
  (∀ (s : State) (ok : Bool), Acting s →
    let rd := reserveRead s.dev
    let d := setSn rd.2 { s.dev.sn with mirror := none }
    (∀ c, s.dev.sn.mirror = some c → rd.1 = true →
      exec (.mirrorDone true) s = after s (raise (setObj d 0xC206 0 (c.step * 2 ^ 64 + c.jobTag)) 0x0C48 0 c.step)) ∧
    (∀ c, s.dev.sn.mirror = some c → (ok && rd.1) = false →
      exec (.mirrorDone ok) s = after s (raise d 0x8C49 0 c.step)) ∧
    (s.dev.sn.mirror = none → exec (.mirrorDone ok) s = after s s.dev)) ∧
  (∀ (s : State) (r : Nat), Serving s 0xC120 0 →
    let defined := srSource r ≠ 3 ∧ fld r 106 0 = 0
    (s.dev.seq.job = .idle → defined → s.dev.sn.restoring = none → exec (.snRestore r) s =
      after s (send (setSn s.dev { s.dev.sn with restoring := some r }) (.status 0xC120 0 1))) ∧
    (s.dev.seq.job = .idle → defined → s.dev.sn.restoring ≠ none →
      exec (.snRestore r) s = after s (send s.dev (.status 0xC120 0 8))) ∧
    (s.dev.seq.job = .idle → ¬ defined → exec (.snRestore r) s = after s (send s.dev (.status 0xC120 0 5))) ∧
    (s.dev.seq.job ≠ .idle → exec (.snRestore r) s = after s (send s.dev (.status 0xC120 0 6)))) ∧
  (∀ (s : State) (r : Nat) (i : Option Cut) (bad : List (Nat × Nat × Bool)) (c : Cut), Acting s → s.dev.rc.active = none →
    s.dev.sn.restoring = some r → restoreCut s.dev r i = some c → restoreFail s.dev r (some c) bad = none →
    ∃ d, exec (.restoreDone i bad) s = after s d ∧ cfg d 0x6021 0 = (c.step + 1) % 2 ^ 64 ∧ d.seq.ctxs = c.ctxs ∧
      d.seq.savedSems = c.savedSems ∧ d.sems = c.sems ∧ d.wv = c.wv ∧ d.ce = c.ce ∧ d.ex = c.ex ∧
      ((∀ q, (tget spawnQReset c.sq.queues q).resident.length ≤ poolRes s.dev (q / 2) (q % 2)) →
        ∀ q, sqAt d q = tget spawnQReset c.sq.queues q) ∧
      ((∀ b ∈ bad, b.2.1 ≠ 0x40) → d.sup.ledger = c.ledger) ∧ ((∀ b ∈ bad, b.2.1 ≠ 0x41) → d.sup.torpor = c.torpor) ∧
      cfg d 0xCE11 0 = c.roff ∧ cfg d 0xCE10 0 = c.seed ∧ cfg d 0xC000 0 = 0 ∧ d.sn.restoring = none ∧
      d.rc.restoredAt = s.dev.rc.stoppedAt ∧ d.out.getLast? = some (.done 0xC120 0 0) ∧ Logged d 0x0C20 0 c.step) ∧
  (∀ (s : State) (r : Nat) (i : Option Cut) (bad : List (Nat × Nat × Bool)) (f : Nat × Nat × Nat), Acting s →
    s.dev.rc.active = none → s.dev.sn.restoring = some r → restoreFail s.dev r (restoreCut s.dev r i) bad = some f →
    exec (.restoreDone i bad) s = after s (send (raise (setObj (setSn s.dev { s.dev.sn with restoring := none }) 0xC121 0
      (restoreWord (some f))) 0x8C21 0 0) (.done 0xC120 0 6))) ∧
  (∀ (s : State) (i : Option Cut) (bad : List (Nat × Nat × Bool)), Acting s → s.dev.sn.restoring = none →
    exec (.restoreDone i bad) s = after s s.dev)

/-- RC_RECOVER refuses a bad record with 0x8C45 and STATE, accepts without effect a record it holds and one for a device whose
record runs or waits, and queues a new one with 0x0C40, fencing its device at once when another record is open; one that
names the spare another record is using restarts that record. RECORD_START gives the record a free spare row, its alias and
this device's role; with no free row every record is dropped and counted and the device stays stopped at the cut; a survivor
whose contexts have stopped goes idle and restores from its own slot. AXOLOTL_FILL starts the chosen spare's restore through
the mirror window in checked mode. A restore that passes ends a survivor's or a spare's part, one that fails leaves it.
WEDGE_CAPTURE of 1 and FABRIC_PROBE_TIMEOUT declare the device wedged once, with a report. A command that finds nothing to go
on with changes nothing. (The spare's restore record is the model's own, log 20.) -/
def Obligations.RecoveryCommands : Prop :=
  (∀ (s : State) (r : Nat), Serving s 0xC210 0 →
    let d1 := raise s.dev 0x0C40 (rrRid r) (rrFailed r)
    let d2 := setRc d1 { s.dev.rc with queue := s.dev.rc.queue ++ [r] }
    let ok := fun (d : Dev) => send d (.status 0xC210 0 0)
    let fresh := (heldRecords s.dev).contains r = false ∧ recordRefused s.dev r = false ∧
      ∀ x ∈ runningRecords s.dev, rrFailed x ≠ rrFailed r
    ((heldRecords s.dev).contains r = true → exec (.rcRecover r) s = after s (ok s.dev)) ∧
    ((heldRecords s.dev).contains r = false → recordRefused s.dev r = true → exec (.rcRecover r) s =
      after s (send (raise s.dev 0x8C45 (rrRid r) (rrFailed r)) (.status 0xC210 0 6))) ∧
    (recordRefused s.dev r = false → (∃ x ∈ runningRecords s.dev, rrFailed x = rrFailed r) →
      exec (.rcRecover r) s = after s (ok s.dev)) ∧
    (fresh → heldRecords s.dev = [] → exec (.rcRecover r) s = after s (ok d2)) ∧
    (fresh → heldRecords s.dev ≠ [] → spareLost s.dev r = none → exec (.rcRecover r) s =
      after s (ok (raise (fenceDev d2 (rrFailed r)) 0x4C42 (rrRid r) (rrFailed r)))) ∧
    (∀ row x, fresh → spareLost s.dev r = some (row, x) →
      let d3 := restartRecord d1 row x r
      exec (.rcRecover r) s = after s (ok (if rrFailed r = cfg s.dev 0xC203 0 then fenceSelf d3 r else d3)) ∧
      cfg d3 0xC202 row = 2 ∧ d3.rc.queue = x :: s.dev.rc.queue ∧ r ∈ d3.rc.ended ∧
      Logged d3 0x4C43 (rrRid r) (rrFailed r))) ∧
  (∀ (s : State) (r row : Nat) (rest : List Nat), Acting s → s.dev.rc.active = none → s.dev.rc.queue = r :: rest →
    freeSpare s.dev = some row →
    let st := fun (d : Dev) (n : Nat) => cfg d 0xC211 0 = n * 2 ^ 28 + rrFailed r * 2 ^ 16 + rrRid r
    ∃ d, exec .recordStart s = after s d ∧ d.rc.queue = rest ∧ d.rc.row = row ∧ d.rc.replay = some (rrReplay r) ∧
      cfg d 0xC202 row = 1 ∧ cfg d 0xC215 row = 2 ^ 31 + rrFailed r * 2 ^ 16 + spareId s.dev row ∧
      (roleOf s.dev r row = .chosen → d.rc.active = some (r, .chosen, false) ∧ st d 3) ∧
      (roleOf s.dev r row = .other → d.rc.active = none ∧ d.rc.ended = s.dev.rc.ended ++ [r]) ∧
      (roleOf s.dev r row = .failed → d.rc.active = none ∧ st d 6 ∧ (∀ q, q < 16 → (quadAt d q).state = 0) ∧
        Logged d 0x8C47 (rrRid r) (rrFailed r)) ∧
      (roleOf s.dev r row = .survivor →
        if s.dev.seq.job = .idle ∧ s.dev.rc.restoredAt = some (rrCut r) then d.rc.active = none ∧ st d 2
        else if s.dev.seq.job = .idle ∧ s.dev.sn.restoring = some (survivorRecord s.dev r) then
          d.rc.active = some (r, .survivor, true) ∧ st d 1 ∧ d.sn.restoring = s.dev.sn.restoring
        else d.rc.active = some (r, .survivor, false) ∧ st d 1 ∧ d.seq.job = .halted ∧ d.sn.flush = none ∧
          d.sn.captured = none ∧ d.sn.mirror = none ∧ d.gn.armed = none)) ∧
  (∀ (s : State) (r : Nat) (rest : List Nat), Acting s → s.dev.rc.active = none → s.dev.rc.queue = r :: rest →
    freeSpare s.dev = none → exec .recordStart s = after s (raise (setObj
      (setRc (bump s.dev 0xC230 0 (heldRecords s.dev).length) { s.dev.rc with
        active := none, queue := [], ended := [], stoppedAt := some (rrCut r), replay := none, forced := false })
      0xC211 0 (7 * 2 ^ 28 + rrFailed r * 2 ^ 16 + rrRid r)) 0x8C44 (rrFailed r) (rrCut r))) ∧
  (∀ (s : State) (r : Nat), Acting s → s.dev.rc.active = some (r, .survivor, false) → allStopped s.dev = true →
    s.dev.sn.restoring = none → ∃ d, exec .recordStart s = after s d ∧ d.rc.active = some (r, .survivor, true) ∧
      d.seq.job = .idle ∧ d.seq.tasks = [] ∧ d.seq.cutHeld = false ∧ d.sq = sqReset ∧ d.wv.tags = [] ∧
      d.sn.restoring = some (1 * 2 ^ 126 + (slotOfStep s.dev (rrCut r)).getD 0 * 2 ^ 125 + ownDev s.dev * 2 ^ 107)) ∧
  (∀ s : State, Acting s →
    (s.dev.rc.active = none ∧ s.dev.rc.queue = []) ∨
      (∃ r role b, s.dev.rc.active = some (r, role, b) ∧
        (role ≠ .survivor ∨ b = true ∨ allStopped s.dev = false ∨ s.dev.sn.restoring ≠ none)) →
    exec .recordStart s = after s s.dev) ∧
  (∀ (s : State) (r : Nat), Acting s → s.dev.rc.active = some (r, .chosen, false) →
    let ready := ownDev s.dev = rrFailed r ∧ s.dev.gn.armed = none ∧ s.dev.seq.job = .idle
    (ready → ∃ d, exec .axolotlFill s = after s d ∧ d.rc.active = some (r, .chosen, true) ∧ d.rc.forced = true ∧
      cfg d 0xC211 0 = 4 * 2 ^ 28 + rrFailed r * 2 ^ 16 + rrRid r ∧ d.sup.checked = true ∧ d.mem = s.dev.mem ∧
      (∀ q, q < 16 → bitAt (cfg s.dev 0x9012 0) q = true → (quadAt d q).state = 3) ∧
      d.sn.restoring = some (2 * 2 ^ 126 + cfg s.dev 0xC204 0 % 64 * 2 ^ 119 + rrFailed r * 2 ^ 107)) ∧
    (¬ ready → exec .axolotlFill s = after s s.dev)) ∧
  (∀ s : State, Acting s → (∀ r, s.dev.rc.active ≠ some (r, .chosen, false)) → exec .axolotlFill s = after s s.dev) ∧
  (∀ (s : State) (q r : Nat) (i : Option Cut) (bad : List (Nat × Nat × Bool)) (role : Role), Acting s →
    s.dev.rc.active = some (r, role, true) → role = .survivor ∨ role = .chosen → s.dev.sn.restoring = some q →
    (∀ c, restoreCut s.dev q i = some c → restoreFail s.dev q (some c) bad = none →
      ∃ d, exec (.restoreDone i bad) s = after s d ∧ d.rc.active = none ∧ d.rc.ended = s.dev.rc.ended ++ [r] ∧
      cfg d 0xC211 0 = 2 * 2 ^ 28 + rrFailed r * 2 ^ 16 + rrRid r ∧ d.seq.ctxs = c.ctxs ∧
      (role = .survivor → d.rc.restoredAt = some (rrCut r)) ∧ (role = .chosen → Logged d 0x0C41 (rrRid r) (rrFailed r))) ∧
    (∀ f, restoreFail s.dev q (restoreCut s.dev q i) bad = some f →
      let e := send (raise (setObj (setSn s.dev { s.dev.sn with restoring := none }) 0xC121 0 (restoreWord (some f)))
        0x8C21 0 0) (.done 0xC120 0 6)
      (role = .survivor → exec (.restoreDone i bad) s = after s e) ∧
      (role = .chosen → exec (.restoreDone i bad) s = after s (setObj
        (setRc e { s.dev.rc with active := some (r, .chosen, false) }) 0xC211 0
        (3 * 2 ^ 28 + rrFailed r * 2 ^ 16 + rrRid r))))) ∧
  (∀ (s : State) (v q f : Nat), Serving s 0xC221 0 →
    (v = 1 → s.dev.rc.wedged = false → exec (.wedgeCapture v q f) s = after s (send (raise (setObj (setRc s.dev
      { s.dev.rc with wedged := true }) 0xC220 0 (wedgeReport s.dev 3 q f)) 0x8C4A 3 0) (.status 0xC221 0 0))) ∧
    (v ≠ 1 ∨ s.dev.rc.wedged = true → exec (.wedgeCapture v q f) s = after s (send s.dev (.status 0xC221 0 0)))) ∧
  (∀ (s : State) (q f : Nat), held s.dev = false →
    (s.dev.rc.wedged = false → exec (.fabricProbeTimeout q f) s = after s (raise (setObj (setRc s.dev
      { s.dev.rc with wedged := true }) 0xC220 0 (wedgeReport s.dev 2 q f)) 0x8C4A 2 0)) ∧
    (s.dev.rc.wedged = true → exec (.fabricProbeTimeout q f) s = after s s.dev))

/-- The upsets that come with a SCRUB_LINE strike first (log 99). Then a scrubber that runs moves one line on, mends and counts
the words with one wrong bit, leaves and reports each uncorrectable one with 0x4D81, and changes no byte of memory; one that is
stopped does nothing. Each feed folds its 1, 2 or 4 bytes, lowest first, and counts them; CV_SCAN is taken for a range of one
memory and CV_SCAN_DONE folds its bytes, or stops at the lowest uncorrectable word with 0x8D83; CV_FINISH gives the result,
starts again, and marks every enabled channel of the unit that compares unequal; CV_STATE_LOAD replaces a unit's value;
CV_COMPARE_SET writes a channel but for its own fields. A unit that does not exist, a reserved bit and a bad range are answered
with RANGE, a unit that scans with STATE. (A feed completes at once and MIS is cleared by writing 0: the model's reading, log
21.) -/
def Obligations.IntegrityCommands : Prop :=
  (∀ (s : State) (u : Nat) (us : List Upset), Acting s →
    let running := (u < 4 ∧ cfg s.dev 0xD820 0 ≠ 0) ∨
      (16 ≤ u ∧ u < 32 ∧ cfg s.dev 0xD821 0 ≠ 0 ∧ s.dev.mem.farInitDone = true)
    let e := us.foldl upset s.dev
    let k := tget 0 s.dev.mem.scrub u
    let bad := ueIn e.mem (scrubAddr u k) 256
    let fixed := ceIn e.mem (scrubAddr u k) 256
    let mended := { e with mem := { e.mem with ce := e.mem.ce.filter (fun w => !fixed.contains w) } }
    let noted := if fixed = [] then e
      else ceNote (bump mended 0xD824 0 fixed.length) (if u < 4 then 0x4802 else 0x4804) (if u < 4 then u else u - 16)
        (cfg s.dev 0x8060 0) fixed.length
    (¬ running → exec (.scrubLine u us) s = after s e) ∧
    (running → k + 1 ≠ scrubLines u → exec (.scrubLine u us) s =
      let d := bad.foldl (fun x w => raise (bump x 0xD825 0 1) 0x4D81 w 0) noted
      after s { d with mem := { d.mem with scrub := tset d.mem.scrub u (k + 1) } }) ∧
    (running → k + 1 = scrubLines u → ∃ d, exec (.scrubLine u us) s = after s d ∧ tget 0 d.mem.scrub u = 0 ∧
      d.mem.bytes = s.dev.mem.bytes ∧ d.mem.ue = e.mem.ue ∧ d.mem.ce = mended.mem.ce ∧
      (u < 4 → cfg s.dev 0xD822 (u + 1) + 1 < 2 ^ 32 → cfg d 0xD822 (u + 1) = cfg s.dev 0xD822 (u + 1) + 1) ∧
      (16 ≤ u → cfg s.dev 0xD823 (u - 15) + 1 < 2 ^ 32 → cfg d 0xD823 (u - 15) = cfg s.dev 0xD823 (u - 15) + 1)) ∧
    e.mem.bytes = s.dev.mem.bytes) ∧
  (∀ (s : State) (u : Nat), Acting s → u < 8 →
    let fed := fun (bs : List Byte) => setCv s.dev u { cvAt s.dev u with
      run := crcBytes (polyOf (fld (cfg s.dev 0xD802 (u + 1)) 31 30)) (cvAt s.dev u).run bs
      count := ((cvAt s.dev u).count + bs.length) % 2 ^ 40 }
    let reply := fun (i : Nat) (bs : List Byte) =>
      if (cvAt s.dev u).scan = none then after s (send (fed bs) (.status i 0 0)) else after s (send s.dev (.status i 0 6))
    (∀ b0 : Byte, objectServed s.dev 0xD804 0 = true → exec (.cvFeed8 (u * 2 ^ 8 + b0.toNat)) s = reply 0xD804 [b0]) ∧
    (∀ b0 b1 : Byte, objectServed s.dev 0xD805 0 = true →
      exec (.cvFeed16 (u * 2 ^ 24 + b1.toNat * 2 ^ 8 + b0.toNat)) s = reply 0xD805 [b0, b1]) ∧
    (∀ b0 b1 b2 b3 : Byte, objectServed s.dev 0xD806 0 = true →
      exec (.cvFeed32 (u * 2 ^ 56 + b3.toNat * 2 ^ 24 + b2.toNat * 2 ^ 16 + b1.toNat * 2 ^ 8 + b0.toNat)) s =
        reply 0xD806 [b0, b1, b2, b3])) ∧
  (∀ (s : State) (v : Nat), Acting s →
    (objectServed s.dev 0xD804 0 = true → 8 ≤ fld v 15 8 →
      exec (.cvFeed8 v) s = after s (send s.dev (.status 0xD804 0 5))) ∧
    (objectServed s.dev 0xD805 0 = true → (8 ≤ fld v 31 24 ∨ fld v 23 16 ≠ 0) →
      exec (.cvFeed16 v) s = after s (send s.dev (.status 0xD805 0 5))) ∧
    (objectServed s.dev 0xD806 0 = true → (8 ≤ fld v 63 56 ∨ fld v 55 32 ≠ 0) →
      exec (.cvFeed32 v) s = after s (send s.dev (.status 0xD806 0 5)))) ∧
  (∀ (s : State) (r : Nat), Serving s 0xD807 0 →
    let u := fld r 127 125
    let a := fld r 111 64
    let n := fld r 63 32
    let good := fld r 124 112 = 0 ∧ fld r 31 0 = 0 ∧ n ≠ 0 ∧ scanOk s.dev a n = true
    (good → (cvAt s.dev u).scan = none → exec (.cvScan r) s = after s (send (setCv s.dev u { cvAt s.dev u with
      scan := some (a, n), foldAddr := if (cvAt s.dev u).count = 0 then a else (cvAt s.dev u).foldAddr })
      (.status 0xD807 0 1))) ∧
    (good → (cvAt s.dev u).scan ≠ none → exec (.cvScan r) s = after s (send s.dev (.status 0xD807 0 6))) ∧
    (¬ good → exec (.cvScan r) s = after s (send s.dev (.status 0xD807 0 5)))) ∧
  (∀ (s : State) (u a n : Nat), Acting s → (cvAt s.dev u).scan = some (a, n) →
    let x := cvAt s.dev u
    let folded := fun (l : List Byte) => crcBytes (polyOf (fld (cfg s.dev 0xD802 (u + 1)) 31 30)) x.run l
    let bytes := fun (k m : Nat) => (List.range m).map (fun i => scanByte s.dev k (a + i))
    (ueIn s.dev.mem a n = [] → ∃ k d, exec (.cvScanDone u) s = after s d ∧ (cvAt d u).scan = none ∧
      (cvAt d u).run = folded (bytes k n) ∧ (cvAt d u).count = (x.count + n) % 2 ^ 40 ∧ (cvAt d u).err = x.err ∧
      d.mem.bytes = s.dev.mem.bytes ∧ d.out.getLast? = some (.done 0xD807 u 0)) ∧
    (∀ w ∈ ueIn s.dev.mem a n, (∀ y ∈ ueIn s.dev.mem a n, w ≤ y) → ∃ k d, exec (.cvScanDone u) s = after s d ∧
      (cvAt d u).scan = none ∧ (cvAt d u).run = folded (bytes k (w - a)) ∧ (cvAt d u).count = (x.count + (w - a)) % 2 ^ 40 ∧
      (cvAt d u).err = true ∧ d.mem.bytes = s.dev.mem.bytes ∧ d.out.getLast? = some (.done 0xD807 u 6) ∧
      Logged d 0x8D83 u w)) ∧
  (∀ (s : State) (u : Nat), Acting s → (cvAt s.dev u).scan = none → exec (.cvScanDone u) s = after s s.dev) ∧
  (∀ (s : State) (u : Nat), Serving s 0xD808 0 →
    let x := cvAt s.dev u
    let p := polyOf (fld (cfg s.dev 0xD802 (u + 1)) 31 30)
    let fold := fld (cfg s.dev 0xD802 (u + 1)) 29 28
    let v := crcBytes p x.run (if fold = 1 then leBytes 8 x.foldAddr else if fold = 2 then leBytes 4 x.seq else []) ^^^ p.xorOut
    (8 ≤ u → exec (.cvFinish u) s = after s (send s.dev (.status 0xD808 0 5))) ∧
    (u < 8 → x.scan ≠ none → exec (.cvFinish u) s = after s (send s.dev (.status 0xD808 0 6))) ∧
    (u < 8 → x.scan = none →
    ∃ d, exec (.cvFinish u) s = after s d ∧ (cvAt d u).run = p.init ∧ (cvAt d u).count = 0 ∧
      (cvAt d u).seq = (if fold = 2 then (x.seq + 1) % 2 ^ 32 else x.seq) ∧
      (cvAt d u).result = v * 2 ^ 64 + x.count * 2 ^ 24 + fld (cfg s.dev 0xD802 (u + 1)) 31 30 * 2 ^ 22 + fold * 2 ^ 20 +
        (fld x.result 19 4 + 1) % 65536 * 2 ^ 4 + b2n x.err * 2 + 1 ∧
      (∀ ch, ch < 8 → bitAt (tget 0 s.dev.cv.channels ch) 127 = true → fld (tget 0 s.dev.cv.channels ch) 125 123 = u →
        (x.err = true ∨ fld (tget 0 s.dev.cv.channels ch) 63 0 ≠ v) → bitAt (tget 0 d.cv.channels ch) 126 = true) ∧
      (∀ ch, (bitAt (tget 0 s.dev.cv.channels ch) 127 = false ∨ fld (tget 0 s.dev.cv.channels ch) 125 123 ≠ u ∨
        (x.err = false ∧ fld (tget 0 s.dev.cv.channels ch) 63 0 = v)) →
        tget 0 d.cv.channels ch = tget 0 s.dev.cv.channels ch) ∧
      d.mem = s.dev.mem ∧ d.seq = s.dev.seq)) ∧
  (∀ (s : State) (u v : Nat), Serving s 0xD803 (u + 1) →
    (8 ≤ u → exec (.cvStateLoad u v) s = after s (send s.dev (.status 0xD803 (u + 1) 5))) ∧
    (u < 8 → (cvAt s.dev u).scan ≠ none → exec (.cvStateLoad u v) s = after s (send s.dev (.status 0xD803 (u + 1) 6))) ∧
    (u < 8 → (cvAt s.dev u).scan = none → exec (.cvStateLoad u v) s = after s (send (setCv s.dev u { cvAt s.dev u with
      run := fld v 191 128 % 2 ^ (polyOf (fld (cfg s.dev 0xD802 (u + 1)) 31 30)).width, foldAddr := fld v 127 80
      seq := fld v 79 48, count := fld v 47 8, err := false }) (.status 0xD803 (u + 1) 0)))) ∧
  (∀ (s : State) (ch v : Nat), Acting s →
    (ch < 8 → ∃ w, exec (.cvCompareSet ch v) s =
        after s { s.dev with cv := { s.dev.cv with channels := tset s.dev.cv.channels ch w } } ∧ bitAt w 127 = bitAt v 127 ∧
      fld w 125 123 = fld v 125 123 ∧ fld w 63 0 = fld v 63 0 ∧ fld w 122 64 = 0 ∧
      bitAt w 126 = (bitAt (tget 0 s.dev.cv.channels ch) 126 && bitAt v 126)) ∧
    (8 ≤ ch → exec (.cvCompareSet ch v) s = after s s.dev))

/-- CV_CONFIG of a unit puts POLY's initial value in its running value, 0 in its COUNT, clears ERR and keeps the value written,
and answers OK; while a scan of the unit runs it answers STATE, and a reserved FOLD or a reserved bit set it answers with
RANGE, and changes nothing. -/
def Obligations.CvConfigRestartsItsUnit : Prop :=
  ∀ (s : State) (u v : Nat), Serving s 0xD802 (u + 1) → u < 8 → v < 2 ^ 32 →
    let init := if fld v 31 30 = 0 ∨ fld v 31 30 = 1 then 0xFFFFFFFF else if fld v 31 30 = 2 then 0 else 0xFFFF
    (fld v 29 28 ≠ 3 → fld v 27 0 = 0 → (cvAt s.dev u).scan = none → exec (.cvConfig u v) s =
      after s (send (setObj (setCv s.dev u { cvAt s.dev u with run := init, count := 0, err := false }) 0xD802 (u + 1) v)
        (.status 0xD802 (u + 1) 0))) ∧
    (fld v 29 28 ≠ 3 → fld v 27 0 = 0 → (cvAt s.dev u).scan ≠ none →
      exec (.cvConfig u v) s = after s (send s.dev (.status 0xD802 (u + 1) 6))) ∧
    (fld v 29 28 = 3 ∨ fld v 27 0 ≠ 0 → exec (.cvConfig u v) s = after s (send s.dev (.status 0xD802 (u + 1) 5)))

/-- REVOKE_KEY fuses a slot with 0x0D08 but neither the running image's slot nor the last one; ROLLBACK_COMMIT raises the floor
with 0x0D03, or as far as its fuses program with 0x8D04; a value out of range is refused. FLASH_ERASE, FLASH_WRITE,
IMAGE_VERIFY and BOOT_PREFER are pending unless the region is running or busy; a bad length, an image that does not exist, a
range outside the region and bytes already programmed are refused. FLASH_OPERATION_DONE erases, programs, verifies or writes
the older boot record, fails without effect, or finds nothing in progress; ATTEST_NONCE forms a report with the nonce,
unsigned while debug is unlocked, unless one is being formed; DEBUG_UNLOCK unlocks with 0x4D07 under an unrevoked root key
alone. (Revoking, fusing and signing complete at once, and the hash and the signature are opaque: the model's choice, log
22.) -/
def Obligations.SecurityCommands : Prop :=
  (∀ (s : State) (k : Nat), Serving s 0xD003 0 →
    let r := setBit (cfg s.dev 0xD002 0 % 16) k true
    let barred := (inRecovery s.dev = false ∧ s.dev.sec.keyIdx = k) ∨ r = 15
    (k < 4 → ¬ barred →
      exec (.revokeKey k) s = after s (send (raise (setObj s.dev 0xD002 0 r) 0x0D08 k 0) (.status 0xD003 0 0))) ∧
    (k < 4 → barred → exec (.revokeKey k) s = after s (send s.dev (.status 0xD003 0 6))) ∧
    (4 ≤ k → exec (.revokeKey k) s = after s (send s.dev (.status 0xD003 0 5)))) ∧
  (∀ (s : State) (v good : Nat), Serving s 0xD021 0 →
    let f := cfg s.dev 0xD020 0
    (64 < v → exec (.rollbackCommit v good) s = after s (send s.dev (.status 0xD021 0 5))) ∧
    (v ≤ 64 → s.dev.sec.svn < v → exec (.rollbackCommit v good) s = after s (send s.dev (.status 0xD021 0 6))) ∧
    (v ≤ 64 → v ≤ s.dev.sec.svn → v ≤ f → exec (.rollbackCommit v good) s = after s (send s.dev (.status 0xD021 0 0))) ∧
    (v ≤ 64 → v ≤ s.dev.sec.svn → f < v → v - f ≤ good → exec (.rollbackCommit v good) s =
      after s (send (raise (setObj s.dev 0xD020 0 v) 0x0D03 v 0) (.status 0xD021 0 0))) ∧
    (v ≤ 64 → v ≤ s.dev.sec.svn → f < v → good < v - f → exec (.rollbackCommit v good) s =
      after s (send (raise (setObj s.dev 0xD020 0 (f + good)) 0x8D04 (f + good) v) (.status 0xD021 0 6)))) ∧
  (∀ (s : State) (i : Nat) (p : FlashOp × Instr),
    p ∈ [(.erase i, Instr.flashErase i), (.verify i, .imageVerify i), (.prefer i, .bootPrefer i)] →
    Serving s (opIdx p.1) 0 →
    let busy := regionRunning s.dev (opRegion p.1) || s.dev.sec.ops.any (fun o => opRegion o == opRegion p.1)
    (i < 2 → busy = false → exec p.2 s =
      after s (send (setSec s.dev { s.dev.sec with ops := s.dev.sec.ops ++ [p.1] }) (.status (opIdx p.1) 0 1))) ∧
    (i < 2 → busy = true → exec p.2 s = after s (send s.dev (.status (opIdx p.1) 0 6))) ∧
    (2 ≤ i → exec p.2 s = after s (send s.dev (.status (opIdx p.1) 0 5)))) ∧
  (∀ (s : State) (image r0 r1 r2 o0 o1 o2 o3 : Byte) (data : List Byte), Serving s 0xD014 0 →
    let c := exec (.flashWrite ([image, r0, r1, r2, o0, o1, o2, o3] ++ data)) s
    let i := image.toNat
    let off := leVal [o0, o1, o2, o3]
    let sized := 8 ≤ data.length ∧ data.length ≤ 4088 ∧ data.length % 8 = 0
    let placed := i < 2 ∧ leVal [r0, r1, r2] = 0 ∧ off + data.length ≤ 0x4000000
    let erased := ∀ k < data.length, tfind (imgOf s.dev i) (off + k) = none
    let busy := regionRunning s.dev i || s.dev.sec.ops.any (fun o => opRegion o == i)
    (¬ sized → c = after s (send s.dev (.status 0xD014 0 4))) ∧
    (sized → ¬ placed → c = after s (send s.dev (.status 0xD014 0 5))) ∧
    (sized → placed → ¬ erased ∨ busy = true → c = after s (send s.dev (.status 0xD014 0 6))) ∧
    (sized → placed → erased → busy = false → c = after s (send (setSec s.dev { s.dev.sec with
      ops := s.dev.sec.ops ++ [.program i off data] }) (.status 0xD014 0 1)))) ∧
  (∀ (s : State) (o : FlashOp), held s.dev = false → s.dev.sec.ops.find? (fun p => opRegion p == opRegion o) = some o →
    let left := s.dev.sec.ops.filter (fun p => opRegion p != opRegion o)
    let e := setSec s.dev { s.dev.sec with ops := left }
    ((∀ p, o ≠ .verify p) →
      exec (.flashOperationDone (opRegion o) false) s = after s (send e (.done (opIdx o) (opRegion o) 6))) ∧
    (∀ i, o = .erase i → i < 2 → ∃ d, exec (.flashOperationDone i true) s = after s d ∧ d.sec.ops = left ∧ imgOf d i = [] ∧
      imgOf d (1 - i) = imgOf s.dev (1 - i) ∧ d.out.getLast? = some (.done 0xD013 i 0)) ∧
    (∀ i off data, o = .program i off data → i < 2 →
      ∃ d, exec (.flashOperationDone i true) s = after s d ∧ d.sec.ops = left ∧ imgOf d (1 - i) = imgOf s.dev (1 - i) ∧
      (∀ k, k < data.length → tfind (imgOf d i) (off + k) = some (data.getD k 0)) ∧
      (∀ k, k < off ∨ off + data.length ≤ k → tfind (imgOf d i) k = tfind (imgOf s.dev i) k) ∧
      d.out.getLast? = some (.done 0xD014 i 0)) ∧
    (∀ i ok, o = .verify i →
      let c := imageCause s.dev i (!ok)
      exec (.flashOperationDone i ok) s = after s (send (raise (setObj e 0xD016 (i + 1)
        (ihFwver (imgHead s.dev i) * 2 ^ 32 + ihSvn (imgHead s.dev i) % 256 * 2 ^ 24 + c * 2 ^ 20))
        (if c = 0 then 0x0D05 else 0x4D06) i c) (.done 0xD015 i (if c = 0 then 0 else 6)))) ∧
    (∀ i, o = .prefer i →
      let s0 := (s.dev.sec.rec0.map Prod.fst).getD 0
      let s1 := (s.dev.sec.rec1.map Prod.fst).getD 0
      let r := some ((max s0 s1 + 1) % 2 ^ 32, i)
      exec (.flashOperationDone 2 true) s = after s (send (setSec e
        (if s.dev.sec.rec0 = none ∨ (s.dev.sec.rec1 ≠ none ∧ s0 < s1) then { e.sec with rec0 := r }
         else { e.sec with rec1 := r })) (.done 0xD017 2 0)))) ∧
  (∀ (s : State) (n : Nat) (ok : Bool), held s.dev = false → s.dev.sec.ops.find? (fun p => opRegion p == n) = none →
    exec (.flashOperationDone n ok) s = after s s.dev) ∧
  (∀ (s : State) (n : Nat), Serving s 0xD040 0 →
    (s.dev.sec.signedAt ≠ some s.dev.uptime → ∃ w, exec (.attestNonce n) s = after s (send (setObj
      (setSec s.dev { s.dev.sec with signedAt := some s.dev.uptime }) 0xD041 0 w) (.status 0xD040 0 0)) ∧
      (cfg s.dev 0x1008 0 < 2 ^ 256 → fld w 1727 1472 = n % 2 ^ 256) ∧
      fld w 511 0 = (if cfg s.dev 0xD050 0 = 1 then 0
        else Config.aliasSign s.dev.sec.meas (leBytes 192 (reportHead s.dev n / 2 ^ 512)) % 2 ^ 512)) ∧
    (s.dev.sec.signedAt = some s.dev.uptime → exec (.attestNonce n) s = after s (send s.dev (.status 0xD040 0 6)))) ∧
  (∀ (s : State) (k : Nat), held s.dev = false →
    (k < 4 → bitAt (cfg s.dev 0xD002 0) k = false →
      exec (.debugUnlock k true) s = after s (raise (setObj s.dev 0xD050 0 1) 0x4D07 k 0)) ∧
    (4 ≤ k ∨ bitAt (cfg s.dev 0xD002 0) k = true → exec (.debugUnlock k true) s = after s s.dev) ∧
    exec (.debugUnlock k false) s = after s s.dev)

/-- A frame of any KIND that is bad or out of SEQ order is dropped and counted, on a bundle that is not up it does not arrive; one
in SEQ order advances the SEQ expected, and is dropped when it repeats an ORD, held when its ORD is not next, and presented
when it is, with the held ones that follow: REQ records are carried out, WDATA is written, SIG records signal, RDATA and WACK
answer their tags. An ACK frees replay entries and returns credits, a NAK sends the bundle's frames again or begins its
retrain, a bad ACK is counted; BRIDGE_ACK_TIMER sends an ACK that clears what it carries, when there is something to carry;
BUNDLE_RETRAIN_DONE brings a bundle in retrain up from SEQ 0, or disables it with more than two failed wires. (What brSent adds,
the sending half's first sight of a frame, is the model's own bookkeeping, log 23.) -/
def Obligations.BridgeFrames : Prop :=
  (∀ (s : State) (dir b seq ord tag : Nat) (ok : Bool) (bytes : List Byte) (ue : BadWords) (reqs : List BridgeReq)
    (sigs : List BridgeSig) (tags : List Nat), Acting s → dir < 2 → seq < 256 → ord < 4096 →
    ∀ p ∈ [(Instr.bridgeReq dir b seq ord reqs ok, BrBody.req reqs),
      (.bridgeWdata dir b seq ord tag ⟨bytes, ue⟩ ok, .wdata tag bytes ue), (.bridgeSig dir b seq ord sigs ok, .sig sigs),
      (.bridgeRdata dir b seq ord tag ⟨bytes, ue⟩ ok, .rdata tag bytes ue), (.bridgeWack dir b seq ord tags ok, .wack tags)],
    let rsp := bodyRsp p.2
    let d1 := brSent s.dev dir b seq { ord, body := sentBody p.2 }
    let x := brDir d1 dir
    let u := bundleAt x b
    let ahead := (seq + (256 - u.expected)) % 256
    let y := putBundle x b { u with expected := (u.expected + 1) % 256, nak := false }
    let d := setBrDir d1 dir (presented y rsp)
    let o := brDir d (1 - dir)
    let next := ok = true ∧ ahead = 0
    (bundleUp (brDir s.dev dir) b = false → exec p.1 s = after s s.dev) ∧
    ((bundleAt (brDir s.dev dir) b).nextSeq ≠ seq → d1 = s.dev) ∧
    (bundleUp (brDir s.dev dir) b = true →
      (¬ next → exec p.1 s = after s (bump (setBrDir d1 dir
        (putBundle x b { u with nak := u.nak || !ok || decide (ahead < 128) })) 0x8121 (dir + 1) 1)) ∧
      (next → isRepeat y { ord, body := p.2 } = true → exec p.1 s = after s (bump (setBrDir d1 dir y) 0x8124 (dir + 1) 1)) ∧
      (next → isRepeat y { ord, body := p.2 } = false → ord ≠ nextOrd x rsp →
        (∀ g ∈ x.held, ¬(bodyRsp g.body = rsp ∧ g.ord = nextOrd x rsp)) →
        exec p.1 s = after s (setBrDir d1 dir { y with held := x.held ++ [{ ord, body := p.2 }] })) ∧
      (next → isRepeat y { ord, body := p.2 } = false → ord = nextOrd x rsp →
        exec p.1 s = after s (brDeliver x.held.length dir rsp (brPresent d dir p.2)) ∧
        (x.held = [] →
          (p.2 = .req reqs → exec p.1 s = after s ((reqs.take 8).foldl (fun z q => brRequest z dir q) d)) ∧
          (p.2 = .wdata tag bytes ue → exec p.1 s = after s (brWriteData d dir tag bytes ue)) ∧
          (p.2 = .sig sigs → exec p.1 s = after s ((sigs.take 16).foldl brSignal d)) ∧
          (p.2 = .rdata tag bytes ue → exec p.1 s = after s (brReadData d dir tag ue)) ∧
          (p.2 = .rdata tag bytes ue → ue = [] → exec p.1 s =
            after s (brClose (setBrDir d (1 - dir) { o with open_ := tagDone o.open_ tag 128 }) (1 - dir))) ∧
          (p.2 = .wack tags → exec p.1 s = after s (brClose (setBrDir d (1 - dir) { o with
            open_ := (tags.take 32).foldl (fun ts k => tagDone ts k (2 ^ 32)) o.open_ }) (1 - dir))))))) ∧
  (∀ (s : State) (dir b : Nat) (ws : List (Nat × Bool)) (cq cr : Nat) (ok : Bool), Acting s → dir < 2 →
    bundleUp (brDir s.dev dir) b = false → exec (.bridgeAck dir b ws cq cr ok) s = after s s.dev) ∧
  (∀ (s : State) (dir b : Nat) (ws : List (Nat × Bool)) (cq cr : Nat), Acting s → dir < 2 →
    bundleUp (brDir s.dev dir) b = true →
    let x := brDir s.dev (1 - dir)
    (exec (.bridgeAck dir b ws cq cr false) s = after s (bump s.dev 0x8121 (dir + 1) 1)) ∧
    (exec (.bridgeAck dir b ws cq cr true) s = after s (brDeal (brAckWords (1 - dir) 0 (ws.take 24) (setBrDir s.dev (1 - dir)
      { x with credReq := min (x.credReq + cq) 512, credRsp := min (x.credRsp + cr) 512 })) (1 - dir))) ∧
    (x.waiting = [] → (∀ w ∈ ws, w.2 = false) → ∃ d, exec (.bridgeAck dir b ws cq cr true) s = after s d ∧
      (brDir d (1 - dir)).credReq = min (x.credReq + cq) 512 ∧ (brDir d (1 - dir)).credRsp = min (x.credRsp + cr) 512 ∧
      (∀ i (w : Nat × Bool), i < 24 → ws[i]? = some w → bundleUp x i = true →
        (bundleAt (brDir d (1 - dir)) i).replay = ackedTo (bundleAt x i).replay w.1) ∧
      brDir d dir = brDir s.dev dir ∧ d.mem = s.dev.mem ∧ d.out = s.dev.out) ∧
    (∀ w q f rest, x.waiting = [] → bundleUp x 0 = true → ackedTo (bundleAt x 0).replay w = (q, f) :: rest →
      let n := if (bundleAt x 0).replayAt = q then (bundleAt x 0).replays + 1 else 1
      (n < cfg s.dev 0x8102 0 → ∃ d, exec (.bridgeAck dir b [(w, true)] cq cr true) s = after s d ∧
        (bundleAt (brDir d (1 - dir)) 0).replay = (q, f) :: rest ∧ (bundleAt (brDir d (1 - dir)) 0).replays = n ∧
        d.out = s.dev.out ++ ((q, f) :: rest).map (fun e => .bridge (1 - dir) (bodyKind e.2.body) [0, e.1, e.2.ord])) ∧
      (cfg s.dev 0x8102 0 ≤ n → ∃ d, exec (.bridgeAck dir b [(w, true)] cq cr true) s = after s d ∧
        (bundleAt (brDir d (1 - dir)) 0).state = 3 ∧ (bundleAt (brDir d (1 - dir)) 0).replay = [] ∧
        Logged d 0x4841 (bundleNo (1 - dir) 0) 0))) ∧
  (∀ (s : State) (dir b : Nat) (l : List Nat), Acting s → dir < 2 → bundlesActive (brDir s.dev dir) = b :: l →
    let x := brDir s.dev (1 - dir)
    (ackWanted x = false → exec (.bridgeAckTimer dir) s = after s s.dev) ∧
    (ackWanted x = true → ∃ d, exec (.bridgeAckTimer dir) s = after s d ∧
      d.out = s.dev.out ++ [.bridge dir 6 (b :: ackFrame x)] ∧
      (∀ i, (bundleAt (brDir d (1 - dir)) i).nak = false ∧
        (bundleAt (brDir d (1 - dir)) i).expected = (bundleAt x i).expected) ∧
      (brDir d (1 - dir)).owedReq = x.owedReq - 65535 ∧ (brDir d (1 - dir)).owedRsp = x.owedRsp - 65535 ∧
      brDir d dir = brDir s.dev dir ∧ d.mem = s.dev.mem)) ∧
  (∀ (s : State) (dir : Nat), Acting s → (2 ≤ dir ∨ bundlesActive (brDir s.dev dir) = []) →
    exec (.bridgeAckTimer dir) s = after s s.dev) ∧
  (∀ (s : State) (dir b : Nat) (fails : List Nat) (ctl : Bool) (q f : Nat), Acting s →
    let x := brDir s.dev dir
    let training := dir < 2 ∧ b < 24 ∧ (bundleAt x b).state = 3
    let fs := addWires (bundleAt x b).failed fails
    let up := { bundleAt x b with
      failed := fs, ctlFail := ctl, state := 2, nextSeq := 0, replay := [], replays := 0, replayAt := 256, expected := 0
      nak := false }
    let down := { up with state := 0 }
    (training → ctl = false → fs.length ≤ 2 →
      exec (.bundleRetrainDone dir b fails ctl q f) s = after s (brDeal (setBrDir s.dev dir (putBundle x b up)) dir)) ∧
    (training → ctl = true ∨ 2 < fs.length → ∃ d, exec (.bundleRetrainDone dir b fails ctl q f) s = after s d ∧
      bundleAt (brDir d dir) b = down ∧ d.mem = s.dev.mem ∧ Logged d 0x8842 (bundleNo dir b) 0 ∧
      (bundlesLeft (brDir d dir) = 0 → d.rc.wedged = true ∧ Logged d 0xC848 dir 0)) ∧
    (¬ training → exec (.bundleRetrainDone dir b fails ctl q f) s = after s s.dev))

/-- POWER_ON_RESET, POWER_RESTORE of a failed device, PIN_RESET, RESET_TAKE_EFFECT of a commanded reset and WATCHDOG_EXPIRY
answer a device in start-up step 1 with their cause, all state at its reset value but fuses, flash and drive. A POWER_RESTORE
with no power-fail, a RESET_TAKE_EFFECT with no reset commanded and a WATCHDOG_EXPIRY with PwWatchdogMs 0 change nothing, nor
do the last two on a held or tripped device. (Which values the fused objects and the model's own fields keep is the model's
choice, log 30.) -/
def Obligations.EveryResetStartsOver : Prop :=
  (∀ s : State, ∃ d, exec .powerOnReset s = after s d ∧ ResetTo 1 s.dev d) ∧
  (∀ s : State, s.dev.pw.failed = true → ∃ d, exec .powerRestore s = after s d ∧ ResetTo 5 s.dev d) ∧
  (∀ s : State, s.dev.pw.failed = false → s.dev.pw.tripped = false →
    ∃ d, exec .pinReset s = after s d ∧ ResetTo 2 (setPw s.dev { s.dev.pw with resetLow := true }) d) ∧
  (∀ s : State, Acting s → s.dev.pw.resetDue = true →
    ∃ d, exec .resetTakeEffect s = after s d ∧ ResetTo 3 s.dev d) ∧
  (∀ s : State, Acting s → cfg s.dev 0xE032 0 ≠ 0 →
    ∃ d, exec .watchdogExpiry s = after s d ∧ ResetTo 4 s.dev d) ∧
  (∀ s : State, s.dev.pw.failed = false → exec .powerRestore s = after s s.dev) ∧
  (∀ s : State, unitsStopped s.dev = true ∨ s.dev.pw.resetDue = false → exec .resetTakeEffect s = after s s.dev) ∧
  (∀ s : State, unitsStopped s.dev = true ∨ cfg s.dev 0xE032 0 = 0 → exec .watchdogExpiry s = after s s.dev)

/-- RESET_N_RELEASE raises RESET_N and changes nothing else; PIN_RESET holds a tripped or failed device without a reset;
RESET_COMMAND takes 1 and refuses every other value with RANGE, one that the device does not serve is answered STATE, or
WEDGED where only a wedged fabric bars it, and a stopped device ignores it; while RESET_N is low PE_PERST_N and XSPI_RESET_N
are low. -/
def Obligations.ResetPinAndCommand : Prop :=
  (∀ s : State, exec .resetNRelease s = after s (setPw s.dev { s.dev.pw with resetLow := false })) ∧
  (∀ s : State, s.dev.pw.failed || s.dev.pw.tripped →
    exec .pinReset s = after s (setPw s.dev { s.dev.pw with resetLow := true })) ∧
  (∀ s : State, Serving s 0xE004 0 → exec (.resetCommand 1) s =
    after s (send (setPw s.dev { s.dev.pw with resetDue := true }) (.status 0xE004 0 0))) ∧
  (∀ (s : State) (v : Nat), Serving s 0xE004 0 → v ≠ 1 →
    exec (.resetCommand v) s = after s (send s.dev (.status 0xE004 0 5))) ∧
  (∀ (s : State) (v : Nat), Acting s → objectServed s.dev 0xE004 0 = false → exec (.resetCommand v) s =
    after s (send s.dev (.status 0xE004 0 (if servedNow s.dev 0xE004 0 1 then 0xA else 6)))) ∧
  (∀ (s : State) (v : Nat), unitsStopped s.dev = true → exec (.resetCommand v) s = after s s.dev) ∧
  (∀ s : State, s.dev.pw.resetLow = true → pePerstN s.dev = false ∧ xspiResetN s.dev = false)

/-- INPUT_SAMPLE keeps the last 1,000 products and gives voltage, current and their 1 ms average; 100 samples in a band raise
0x4E08 once per step. POWER_FAIL stops the device and ends THERMTRIP_N. THERMAL_TRIP and OVERVOLTAGE_TRIP assert THERMTRIP_N
and record their cause with 0xCE07. A failed device takes no sample, and a failed or tripped one does not trip. -/
def Obligations.InputPowerAndTrips : Prop :=
  (∀ (s : State) (mv ma : Nat), s.dev.pw.failed = false →
    let smp := (mv * ma :: s.dev.pw.samples).take 1000
    let band := if outOfBand mv then s.dev.pw.bandUs + 1 else 0
    let d := setObj (setObj (setObj (setPw s.dev { s.dev.pw with samples := smp, bandUs := band })
      0xE010 0 (f32Ratio mv 1000)) 0xE011 0 (f32Ratio ma 1000)) 0xE012 0 (f32Ratio (sumN smp / smp.length) 1000000)
    exec (.inputSample mv ma) s = after s (if 100 ≤ band then raiseStep d 0x4E08 0 mv else d)) ∧
  (∀ s : State, s.dev.pw.tripped = false →
    exec .powerFail s = after s (setPw s.dev { s.dev.pw with failed := true, tripped := false })) ∧
  (∀ s : State, s.dev.pw.tripped = true →
    exec .powerFail s = after s (send (setPw s.dev { s.dev.pw with failed := true, tripped := false }) (.pin 1 1))) ∧
  (∀ s : State, s.dev.pw.failed = false → s.dev.pw.tripped = false →
    exec .thermalTrip s = after s (raise (setObj (setObj (send (setPw s.dev { s.dev.pw with tripped := true }) (.pin 1 0))
      0xE024 0 1) 0xE000 0 5) 0xCE07 1 0)) ∧
  (∀ s : State, s.dev.pw.failed = false → s.dev.pw.tripped = false →
    exec .overvoltageTrip s = after s (raise (setObj (setObj (send (setPw s.dev { s.dev.pw with tripped := true })
      (.pin 1 0)) 0xE024 0 2) 0xE000 0 5) 0xCE07 2 0)) ∧
  (∀ (s : State) (mv ma : Nat), s.dev.pw.failed = true → exec (.inputSample mv ma) s = after s s.dev) ∧
  (∀ s : State, s.dev.pw.failed = true ∨ s.dev.pw.tripped = true →
    exec .thermalTrip s = after s s.dev ∧ exec .overvoltageTrip s = after s s.dev)

/-- DUTY_ADJUST lowers the duty by one sixteenth, never below 4, when the average is above the cap, and raises it, never
above 16, when the average is below 95 % of it; the lower of the two duties governs. SENSOR_SAMPLE gives every sensor row its
reading, keeps the highest, and never moves the thermal duty out of 4 to 16; a reading at the shutdown threshold puts a device
that has not tripped in thermal hold, with 0x8E06 when it enters it. Stopped units adjust no duty, and a failed device reads no
sensor. -/
def Obligations.DutyAndSensors : Prop :=
  (∀ s : State, Acting s → aboveCap s.dev = true →
    ∃ d, exec .dutyAdjust s = after s d ∧ d.pw.duty = max 4 (s.dev.pw.duty - 1) ∧
      cfg d 0xE014 0 = min d.pw.duty d.pw.thermDuty ∧ d.pw.thermDuty = s.dev.pw.thermDuty ∧ d.mem = s.dev.mem ∧
      d.seq = s.dev.seq) ∧
  (∀ s : State, Acting s → aboveCap s.dev = false →
    ∃ d, exec .dutyAdjust s = after s d ∧
      d.pw.duty = (if belowCap s.dev then min 16 (s.dev.pw.duty + 1) else s.dev.pw.duty) ∧ d.pw.floorTicks = 0 ∧
      cfg d 0xE014 0 = min d.pw.duty d.pw.thermDuty ∧ d.pw.thermDuty = s.dev.pw.thermDuty ∧ d.mem = s.dev.mem ∧
      d.seq = s.dev.seq) ∧
  (∀ s : State, unitsStopped s.dev = true → exec .dutyAdjust s = after s s.dev) ∧
  (∀ (s : State) (ts : List F32), s.dev.pw.failed = false →
    let hot := (ts.take 18).any (fun t => atLeastC t (cfg s.dev 0xE022 0)) && !s.dev.pw.tripped
    let top := match tfind s.dev.objs (okey 0xE025 0) with
      | some v => BitVec.ofNat 32 v
      | none => ts.headD f32Zero
    ∃ d, exec (.sensorSample ts) s = after s d ∧
      (∀ i, i < 18 → i < ts.length → cfg d 0xE020 (i + 1) = (ts.getD i 0).toNat) ∧
      cfg d 0xE025 0 = ((ts.take 18).foldl f32AmaxFold top).toNat ∧
      (4 ≤ s.dev.pw.thermDuty ∧ s.dev.pw.thermDuty ≤ 16 → 4 ≤ d.pw.thermDuty ∧ d.pw.thermDuty ≤ 16) ∧
      d.pw.duty = s.dev.pw.duty ∧ d.mem = s.dev.mem ∧ (hot = false → d.seq = s.dev.seq ∧ cfg d 0xE000 0 = cfg s.dev 0xE000 0) ∧
      (hot = true → cfg d 0xE000 0 = 4 ∧ clustersStopped d = true) ∧
      (hot = true → cfg s.dev 0xE000 0 ≠ 4 → Logged d 0x8E06 0 0 ∧ d.seq.job = .halted ∧
        ∀ c ∈ enabledCtxs s.dev, ctxLive (ctxAt d c) = false)) ∧
  (∀ (s : State) (ts : List F32), s.dev.pw.failed = true → exec (.sensorSample ts) s = after s s.dev)

/-- REFCLK_LOSS of A and a lost arithmetic, fabric or die-to-die PLL raise 0xCE03, stop every context and wedge the device; A
takes every site with it. Of B, every quad and the host port go down; PLL_UNLOCK of a site marks the site, of a SerDes its
quad or the host port, all with 0xCE03, and of the management or the PCIe PLL shows in PwClockStatus. Other numbers name no
clock and change nothing, nor does any loss in stopped units. -/
def Obligations.LostClocks : Prop :=
  (∀ (s : State) (q f : Nat), Acting s →
    let pcie := if cfg s.dev 0xE031 0 = 0 then [22] else []
    let lost := ([31, 29, 28, 27, 26, 25, 24, 23] ++ List.range 16 ++ pcie).foldl clockOff s.dev
    ∃ d, exec (.refclkLoss 0 q f) s = after s d ∧
      d = fabricLost (raise ((List.range 16).foldl siteLost lost) 0xCE03 0 0) q f ∧ d.rc.wedged = true ∧
      (∀ c ∈ enabledCtxs s.dev, ctxLive (ctxAt d c) = false) ∧ (∀ i, i < 16 → d.mem.badSites.contains i = true) ∧
      d.mem.bytes = s.dev.mem.bytes) ∧
  (∀ (s : State) (q f : Nat), Acting s → exec (.refclkLoss 1 q f) s =
    after s (hpLinkDown ((List.range 16).foldl quadDown (raise (serdesLost (clockOff s.dev 30) serdesPlls) 0xCE03 1 0)))) ∧
  (∀ (s : State) (w q f : Nat), Acting s → w < 6 →
    let bit := if w < 2 then 28 + w else if w < 4 then 24 + w else 20 + w
    ∃ d, exec (.pllUnlock w q f) s = after s d ∧ d = fabricLost (raise (clockOff s.dev bit) 0xCE03 (2 + w) 0) q f ∧
      d.rc.wedged = true ∧ (∀ c ∈ enabledCtxs s.dev, ctxLive (ctxAt d c) = false) ∧ d.mem = s.dev.mem) ∧
  (∀ (s : State) (w q f : Nat), Acting s → 6 ≤ w → w < 22 →
    ∃ d, exec (.pllUnlock w q f) s = after s d ∧ d.mem.badSites.contains (w - 6) = true ∧ d.mem.bytes = s.dev.mem.bytes ∧
      d.seq = s.dev.seq ∧ d.rl = s.dev.rl ∧ Logged d 0xCE03 (2 + w) 0) ∧
  (∀ (s : State) (w q f : Nat), Acting s → 22 ≤ w → w < 38 →
    exec (.pllUnlock w q f) s = after s (quadDown (raise (serdesLost s.dev [w]) 0xCE03 (2 + w) 0) (w - 22))) ∧
  (∀ (s : State) (w q f : Nat), Acting s → 38 ≤ w → w < 42 →
    exec (.pllUnlock w q f) s = after s (hpLinkDown (raise (serdesLost s.dev [w]) 0xCE03 (2 + w) 0))) ∧
  (∀ (s : State) (q f : Nat), Acting s → exec (.pllUnlock 42 q f) s = after s (clockOff s.dev 23)) ∧
  (∀ (s : State) (q f : Nat), Acting s → exec (.pllUnlock 43 q f) s = after s (clockOff s.dev 22)) ∧
  (∀ (s : State) (w q f : Nat), (unitsStopped s.dev = true ∨ 2 ≤ w → exec (.refclkLoss w q f) s = after s s.dev) ∧
    (unitsStopped s.dev = true ∨ 44 ≤ w → exec (.pllUnlock w q f) s = after s s.dev))

/-- STARTUP_STEP records the step's time in PwStartTimes and begins the next step when the one in progress passes; steps 2, 3,
10 and 11 begin it either way. Step 2 loads the stored generation, 3 brings the host port up, 4 selects an image, 5 fixes the
stepping, 6 trains the bridge, 7 far memory, 8 clears memory and begins the self-test, and 12 makes the device ready. A failure
holds step 1, ends 4 in recovery mode (state 6) and 5 to 9 in state 7, each with its event. STARTUP_TIMEOUT is that failure,
and changes nothing in steps 3 and 12. Neither does anything outside start-up. FAR_INIT_DONE ends far memory initialisation
once. -/
def Obligations.StartUpSteps : Prop :=
  let stops := fun (s : State) (i : StartInfo) (code a b : Nat) => ∃ d, exec (.startupStep i) s = after s d ∧
    cfg d 0xE000 0 = 7 ∧ cfg d 0xE001 0 = cfg s.dev 0xE001 0 ∧ Logged d code a b ∧ d.mem = s.dev.mem
  (∀ (s : State) (i : StartInfo) (n : Nat), Acting s → cfg s.dev 0xE000 0 = 1 → cfg s.dev 0xE001 0 = n →
    let d := setObj s.dev 0xE002 n (min i.us (2 ^ 32 - 1))
    let goes := fun e => exec (.startupStep i) s = after s (nextStartStep e)
    (n = 1 → i.pass = true → goes (clocksOn d [23])) ∧
    (n = 1 → i.pass = false → exec (.startupStep i) s = after s d) ∧
    (n = 2 → let e := if cfg d 0xE003 0 = 4 then raise d 0x4E0B 0 0 else d
      goes (if i.pass then genLoad e else raise e 0x4208 0 0)) ∧
    (n = 3 → i.pass = true → goes (hpLinkUp d)) ∧
    (n = 3 → i.pass = false → goes (raise (setObj d 0xB011 0 1) 0x4B01 0 0)) ∧
    (n = 4 → i.pass = true → (bootSelect d i.badReads i.us).1 = true → goes (bootSelect d i.badReads i.us).2) ∧
    (n = 4 → i.pass = true → (bootSelect d i.badReads i.us).1 = false →
      exec (.startupStep i) s = after s (setObj (bootSelect d i.badReads i.us).2 0xE000 0 6)) ∧
    (n = 4 → i.pass = false → ∃ e, exec (.startupStep i) s = after s e ∧ cfg e 0xE000 0 = 6 ∧ cfg e 0xE001 0 = 4 ∧
      Logged e 0xCD02 0 0) ∧
    (n = 5 → i.pass = true → goes (fixStepping d)) ∧
    (n = 5 → i.pass = false → stops s i 0xC846 i.unit (cfg d 0x1005 (i.unit % 2 + 1))) ∧
    (n = 6 → i.pass = true → let e := trainBridge (clocksOn d [24, 25, 26, 27, 28, 29]) i.bundles
      let low := fun k => (bundlesActive (brDir e k)).length < cfg e 0x8101 0
      (¬ low 0 → ¬ low 1 → goes e) ∧
      (low 0 → exec (.startupStep i) s = after s (startStopped e 0xC844 0 (bundlesActive (brDir e 0)).length)) ∧
      (¬ low 0 → low 1 → exec (.startupStep i) s = after s (startStopped e 0xC844 1 (bundlesActive (brDir e 1)).length))) ∧
    (n = 6 → i.pass = false → stops s i 0xCE03 i.unit 0) ∧
    (n = 7 → ∀ r, farRate d i.sites = some r → ∃ e, exec (.startupStep i) s = after s e ∧ cfg e 0xE001 0 = 8 ∧
      cfg e 0x8012 0 = r ∧ cfg e 0x8013 0 = b2n (r == 6400) ∧ e.mem = s.dev.mem) ∧
    (n = 7 → farRate d i.sites = none → stops s i 0xC807 ((failedSites d i.sites).headD 0)
      (sumN ((failedSites d i.sites).map (fun x => 2 ^ x)))) ∧
    (n = 8 → i.pass = true → ∃ e, exec (.startupStep i) s = after s e ∧ cfg e 0xE001 0 = 9 ∧ e.mem.bytes = [] ∧
      e.mem.farInitStarted = true ∧ e.tus = [] ∧ e.sup.checked = true ∧ cfg e 0x4003 0 = 1 ∧ cfg e 0x5003 0 = 1 ∧
      Logged e 0x0405 0 0) ∧
    (n = 8 ∨ n = 9 → i.pass = false → stops s i 0xCE02 i.unit 0) ∧
    (n = 9 → i.pass = true → goes d) ∧
    (n = 10 → goes d) ∧
    (n = 11 → let e := setObj d 0xC108 0 i.port
      goes (if i.pass && bitAt i.port 22 then clocksOn e [22] else raise e 0x8C14 0 0)) ∧
    (n = 12 → ∃ e, exec (.startupStep i) s = after s e ∧ cfg e 0xE000 0 = 2 ∧ cfg e 0xE001 0 = 0xFF ∧
      e.sup.checked = false ∧ cfg e 0x4003 0 = 0 ∧ cfg e 0x5003 0 = 0 ∧ Logged e 0x0E01 0 0 ∧ e.mem = s.dev.mem)) ∧
  (∀ d : Dev, nextStartStep d = setObj d 0xE001 0 (cfg d 0xE001 0 + 1)) ∧
  (∀ (s : State) (us u : Nat), cfg s.dev 0xE001 0 ≠ 3 → cfg s.dev 0xE001 0 ≠ 12 → exec (.startupTimeout us u) s =
    exec (.startupStep { us, pass := false, badReads := [], bundles := [], sites := [], unit := u, port := 0 }) s) ∧
  (∀ (s : State) (us u : Nat), cfg s.dev 0xE001 0 = 3 ∨ cfg s.dev 0xE001 0 = 12 →
    exec (.startupTimeout us u) s = after s s.dev) ∧
  (∀ (s : State) (i : StartInfo), unitsStopped s.dev = true ∨ cfg s.dev 0xE000 0 ≠ 1 ∨ cfg s.dev 0xE001 0 = 0 ∨
    12 < cfg s.dev 0xE001 0 → exec (.startupStep i) s = after s s.dev) ∧
  (∀ s : State, Acting s → s.dev.mem.farInitStarted = true → s.dev.mem.farInitDone = false →
    exec .farInitDone s = after s (raise (setObj (setObj { s.dev with mem := { s.dev.mem with farInitDone := true } }
      0xE040 1 0) 0xE040 2 0) 0x0E09 0 0)) ∧
  (∀ s : State, unitsStopped s.dev = true ∨ s.dev.mem.farInitStarted = false ∨ s.dev.mem.farInitDone = true →
    exec .farInitDone s = after s s.dev)

/-- JTAG_IDCODE shifts out 0xV9A3_0D35, where V is 1 for effective stepping A1 and 4 for B0: bits [27:12] are 0x9A30 and bit 0
is 1, and the A1 value is 0x19A3_0D35. -/
def Obligations.JtagIdcodeRegister : Prop :=
  (∀ s : State, s.dev.pw.failed = false → ∃ v, exec .jtagIdcode s =
      after s (send (setPw s.dev { s.dev.pw with ir := .idcode }) (.pin 3 v)) ∧
    fld v 27 12 = 0x9A30 ∧ fld v 11 1 = 0x69A ∧ bitAt v 0 = true ∧ v < 2 ^ 32 ∧
    (cfg s.dev 0x1004 0 = 0xA1 → fld v 31 28 = 1 ∧ v = 0x19A30D35) ∧
    (cfg s.dev 0x1004 0 = 0xB0 → fld v 31 28 = 4))

/-- JTAG_BYPASS and JTAG_SAMPLE_PRELOAD load their registers; each external test samples the lands, and drives the output
cells only while RESET_N is low. None, nor JTAG_IDCODE, does anything while the input has failed. -/
def Obligations.JtagInstructions : Prop :=
  (∀ s : State, s.dev.pw.failed = false →
    exec .jtagBypass s = after s (setPw s.dev { s.dev.pw with ir := .bypass, bypass := 0 })) ∧
  (∀ (s : State) (l c : Nat), s.dev.pw.failed = false →
    exec (.jtagSamplePreload l c) s = after s (setPw s.dev { s.dev.pw with ir := .sample, lands := l, cells := c })) ∧
  (∀ (s : State) (l : Nat), s.dev.pw.failed = false → s.dev.pw.resetLow = true →
    exec (.jtagExtest l) s =
        after s (send (setPw s.dev { s.dev.pw with ir := .extest, lands := l }) (.pin 4 s.dev.pw.cells)) ∧
    exec (.jtagExtestPulse l) s =
        after s (send (setPw s.dev { s.dev.pw with ir := .pulse, lands := l }) (.pin 5 s.dev.pw.cells)) ∧
    exec (.jtagExtestTrain l) s =
        after s (send (setPw s.dev { s.dev.pw with ir := .train, lands := l }) (.pin 6 s.dev.pw.cells))) ∧
  (∀ (s : State) (l : Nat), s.dev.pw.failed = false → s.dev.pw.resetLow = false →
    exec (.jtagExtest l) s = after s (setPw s.dev { s.dev.pw with ir := .extest, lands := l }) ∧
    exec (.jtagExtestPulse l) s = after s (setPw s.dev { s.dev.pw with ir := .pulse, lands := l }) ∧
    exec (.jtagExtestTrain l) s = after s (setPw s.dev { s.dev.pw with ir := .train, lands := l })) ∧
  (∀ (s : State) (l k : Nat), s.dev.pw.failed = true → ∀ c ∈ [Instr.jtagBypass, .jtagIdcode, .jtagSamplePreload l k,
    .jtagExtest l, .jtagExtestPulse l, .jtagExtestTrain l], exec c s = after s s.dev)

/-- A step at a state whose queue starts with a command is that command's effect on the state with the queue's rest. On an
empty queue the block idles, which is the model's choice (log 4). -/
def Obligations.StepRunsTheFrontCommand : Prop :=
  (∀ (s : State) (c : Instr), step { s with pending := c :: s.pending } = exec c s) ∧
  (∀ s : State, s.pending = [] → step s = .next s)

/-- After State.reset the device is in start-up step 1 with reset cause 1, full duty, an empty event log, step 0, no waiting
command, no task and no tensor unit, fetch engine or semaphore away from its reset value; it is neither failed nor tripped, the
units act, and JOB_START is answered STATE until start-up has ended. -/
def Obligations.PowerOnResetState : Prop :=
  State.reset.pending = [] ∧ readObj State.reset.dev 0xE000 0 = 1 ∧ readObj State.reset.dev 0xE001 0 = 1 ∧
  readObj State.reset.dev 0xE003 0 = 1 ∧ readObj State.reset.dev 0xE014 0 = 16 ∧ readObj State.reset.dev 0x1121 0 = 0 ∧
  readObj State.reset.dev 0x1124 0 = 0 ∧ readObj State.reset.dev 0x6020 0 = 0 ∧ State.reset.dev.seq.tasks = [] ∧
  (∀ t, tuAt State.reset.dev t = tuReset) ∧ (∀ f, feAt State.reset.dev f = feReset) ∧
  (∀ k, semAt State.reset.dev k = semReset) ∧ Acting State.reset ∧ State.reset.dev.pw.failed = false ∧
  State.reset.dev.pw.tripped = false ∧ Mem.wf State.reset.dev.mem = true ∧
  exec .jobStart State.reset = after State.reset (send State.reset.dev (.status 0x6022 0 6))

/-- Whatever the state, n steps answer a next state and take the first n commands from the queue, and a run of m + n steps is
one of m steps and then one of n: the HX9 answers every error with an event and goes on. -/
def Obligations.RunsNeverStop : Prop :=
  ∀ (m n : Nat) (s : State), ∃ t u, runs m s = .next t ∧ t.pending = s.pending.drop m ∧ runs n t = .next u ∧
    runs (m + n) s = .next u ∧ u.pending = s.pending.drop (m + n)

/-- From a power-fail on, any run over any queue of commands, of any number of steps, leaves every register, memory, queue and
output of the device as it was, until a command that ends the power-fail or drives a reset is at hand. -/
def Obligations.PowerFailFreezesTheDevice : Prop :=
  ∀ (n : Nat) (s : State), s.dev.pw.failed = true → (∀ c ∈ s.pending.take n, resets c = false) →
    ∃ t, runs n s = .next t ∧ t.dev = s.dev ∧ t.pending = s.pending.drop n

/-- Every step of a tripped device but POWER_FAIL and POWER_ON_RESET leaves it tripped, with THERMTRIP_N low, and leaves memory,
the tensor units, vector chains, fetch engines, semaphores, sequencer, spawn queues, weight versions, update path, Relay,
collective engine, expert exchange, snapshot engine, check-value units and bridge unchanged; so does every run of them. -/
def Obligations.TrippedDeviceStaysTripped : Prop :=
  (∀ s t : State, s.dev.pw.tripped = true → s.dev.pw.failed = false →
    s.pending.head? ≠ some .powerFail → s.pending.head? ≠ some .powerOnReset → step s = .next t →
    t.dev.pw.tripped = true ∧ t.dev.pw.failed = false ∧ t.dev.mem = s.dev.mem ∧ t.dev.tus = s.dev.tus ∧
      t.dev.shadows = s.dev.shadows ∧ t.dev.sup = s.dev.sup ∧ t.dev.tiles = s.dev.tiles ∧ t.dev.vcs = s.dev.vcs ∧
      t.dev.fes = s.dev.fes ∧ t.dev.sems = s.dev.sems ∧ t.dev.grants = s.dev.grants ∧ t.dev.seq = s.dev.seq ∧
      t.dev.sq = s.dev.sq ∧ t.dev.wv = s.dev.wv ∧ t.dev.up = s.dev.up ∧ t.dev.rl = s.dev.rl ∧ t.dev.ce = s.dev.ce ∧
      t.dev.ex = s.dev.ex ∧ t.dev.sn = s.dev.sn ∧ t.dev.cv = s.dev.cv ∧ t.dev.east = s.dev.east ∧
      t.dev.west = s.dev.west ∧ (.pin 1 1) ∉ t.dev.out.drop s.dev.out.length) ∧
  (∀ (n : Nat) (s t : State), s.dev.pw.tripped = true → s.dev.pw.failed = false →
    .powerFail ∉ s.pending.take n → .powerOnReset ∉ s.pending.take n → runs n s = .next t →
    t.dev.pw.tripped = true ∧ t.dev.pw.failed = false ∧ t.dev.mem = s.dev.mem ∧ t.dev.seq = s.dev.seq ∧
      t.dev.tus = s.dev.tus)

/-- After a write of any bytes at any address a read of them gives those bytes, every other byte reads as before, whether or
not a fill of a line is outstanding; the canonical form and the fills' bounds hold again; a word stays uncorrectable exactly
if the write does not cover it whole. At reset both premises hold. -/
def Obligations.MemoryHoldsWhatIsWritten : Prop :=
  let ok := fun (m : Mem) => Mem.wf m = true ∧ ∀ f ∈ m.fills, ∀ e ∈ f.held, f.line ≤ e.1 ∧ e.1 < f.line + 256
  (∀ (m : Mem) (a : Nat) (bs : List Byte), ok m →
    memRead (memWrite m a bs) a bs.length = bs ∧
    (∀ b, b < a ∨ a + bs.length ≤ b → memByte (memWrite m a bs) b = memByte m b) ∧ ok (memWrite m a bs) ∧
    (∀ w, w ∈ (memWrite m a bs).ue ↔ w ∈ m.ue ∧ ¬(a ≤ w ∧ w + 4 ≤ a + bs.length))) ∧
  ok State.reset.dev.mem

/-- An event raised while no undelivered record is overwritten is appended with the ESEQ that EvLogHead gave, its time and step,
and the log keeps its last 4,096; EvLogHead moves on by one and EvLost stays. One that overwrites a record some active
subscriber has not acknowledged adds 1 to EvLost and also logs 0x4102, unless that was logged in the same second. Writing an
ESEQ to EvLogSelect makes EvLogRead that record, or 0 when none is held. -/
def Obligations.EventLogKeepsTheLastRecords : Prop :=
  let last := fun (l : List EvRec) => l.drop (l.length - 4096)
  (∀ (d : Dev) (c a b : Nat), d.ev.log.length ≤ 4096 →
    let r : EvRec := { code := c, eseq := d.ev.eseq, time := d.ptp, step := d.seq.step % 2 ^ 32, arg0 := a % 2 ^ 48, arg1 := b % 2 ^ 64 }
    let r2 : EvRec := { code := 0x4102, eseq := (d.ev.eseq + 1) % 2 ^ 32, time := d.ptp, step := d.seq.step % 2 ^ 32, arg0 := 0, arg1 := 0 }
    let gone := fun (l : List EvRec) => 4096 ≤ l.length ∧ ∃ e, l.head? = some e ∧ undelivered d e.eseq = true
    let said := tget 0 d.ev.onceSec 0x4102 = d.uptime / 1000000000 + 1
    let e := raise d c a b
    (¬gone d.ev.log → e.ev.log = last (d.ev.log ++ [r]) ∧ e.ev.eseq = (d.ev.eseq + 1) % 2 ^ 32 ∧
      cfg e 0x1124 0 = cfg d 0x1124 0) ∧
    (gone d.ev.log → said → cfg d 0x1124 0 < 2 ^ 32 - 1 → e.ev.log = last (d.ev.log ++ [r]) ∧
      cfg e 0x1124 0 = cfg d 0x1124 0 + 1) ∧
    (gone d.ev.log → ¬said → cfg d 0x1124 0 < 2 ^ 32 - 2 → e.ev.log = last (d.ev.log ++ [r, r2]) ∧
      cfg d 0x1124 0 + 1 ≤ cfg e 0x1124 0 ∧ cfg e 0x1124 0 ≤ cfg d 0x1124 0 + 2 ∧
      tget 0 e.ev.onceSec 0x4102 = d.uptime / 1000000000 + 1)) ∧
  (∀ d : Dev, readObj d 0x1121 0 = d.ev.eseq) ∧
  (∀ (s : State) (n q v : Nat) (x : OpInfo), Acting s → servedNow s.dev 0x1122 0 1 = true → s.dev.rc.wedged = false →
    v < 2 ^ 32 → ∃ d, exec (.syseridWrite n q 0x1122 0 4 v x) s = after s d ∧
      d.out = s.dev.out ++ [.reply n q 0x1122 0 0 0 0] ∧ d.ev = s.dev.ev ∧
      readObj d 0x1123 0 = match s.dev.ev.log.find? (fun e => e.eseq == v) with
        | some e => e.code % 2 ^ 16 * 2 ^ 240 + e.eseq * 2 ^ 208 + e.time % 2 ^ 64 * 2 ^ 144 + e.step * 2 ^ 112 +
            e.arg0 * 2 ^ 64 + e.arg1
        | none => 0)
end

