-- ==== Sys2Proof/Laws/Exec.lean ====
section
/-! SUPPORT. What each command answers: its gate on its effect, with the queue as it was. -/

namespace Sys2Proof.Machine

theorem exec_tuNop (s : State) (tu : Nat) : exec (.tuNop tu) s =
    after s (onCluster s.dev (fun d => tuNop d tu)) := rfl
theorem exec_mma (s : State) (tu waited : Nat) (ecc : List (Nat × Bool)) : exec (.mma tu waited ecc) s =
    after s (onCluster s.dev (fun d => mma d tu waited ecc)) := rfl
theorem exec_swap (s : State) (tu waited : Nat) : exec (.swap tu waited) s =
    after s (onCluster s.dev (fun d => swap d tu waited)) := rfl
theorem exec_halfRelease (s : State) (tu : Nat) : exec (.halfRelease tu) s =
    after s (onCluster s.dev (fun d => halfRelease d tu)) := rfl
theorem exec_fence (s : State) (tu : Nat) : exec (.fence tu) s =
    after s (onCluster s.dev (fun d => fence d tu)) := rfl
theorem exec_fenceDone (s : State) (tu : Nat) : exec (.fenceDone tu) s =
    after s (onCluster s.dev (fun d => fenceDone d tu)) := rfl
theorem exec_tileDrain (s : State) (tu bank held slotWait : Nat) : exec (.tileDrain tu bank held slotWait) s =
    after s (onCluster s.dev (fun d => tileDrain d tu bank held slotWait)) := rfl
theorem exec_replaySlotFree (s : State) (cluster : Nat) : exec (.replaySlotFree cluster) s =
    after s (onCluster s.dev (fun d => replaySlotFree d cluster)) := rfl
theorem exec_shadowCompare (s : State) (cluster : Nat) : exec (.shadowCompare cluster) s =
    after s (onCluster s.dev (fun d => shadowCompare d cluster)) := rfl
theorem exec_counterClear (s : State) (idx value : Nat) : exec (.counterClear idx value) s =
    after s (onObject s.dev idx 0 (fun d => counterClear d idx value)) := rfl
theorem exec_conversionReport (s : State) (entry : Nat) (amax : F32) (flags step : Nat) : exec (.conversionReport entry amax flags step) s =
    after s (onUnit s.dev (fun d => conversionReport d entry amax flags step)) := rfl
theorem exec_scaleTableSwap (s : State) : exec .scaleTableSwap s =
    after s (onUnit s.dev (fun d => scaleTableSwap d)) := rfl
theorem exec_scaleRebuildStart (s : State) (value : Nat) : exec (.scaleRebuildStart value) s =
    after s (onObject s.dev 0x5023 0 (fun d => scaleRebuildStart d value)) := rfl
theorem exec_vcPass (s : State) (vc src : Nat) (ecc : Bool) (mismatch held : Nat) : exec (.vcPass vc src ecc mismatch held) s =
    after s (onCluster s.dev (fun d => vcPass d vc src ecc mismatch held)) := rfl
theorem exec_writeSemaphoreSignal (s : State) (vc src : Nat) : exec (.writeSemaphoreSignal vc src) s =
    after s (onCluster s.dev (fun d => writeSemaphoreSignal d vc src)) := rfl
theorem exec_docTableLoaded (s : State) (vc : Nat) : exec (.docTableLoaded vc) s =
    after s (onCluster s.dev (fun d => docTableLoaded d vc)) := rfl
theorem exec_cacheFillLands (s : State) (line : Nat) : exec (.cacheFillLands line) s =
    after s (onUnit s.dev (fun d => cacheFillLands d line)) := rfl
theorem exec_lineReadReturn (s : State) (ret : LineReturn) : exec (.lineReadReturn ret) s =
    after s (onCluster s.dev (fun d => lineReadReturn d ret.fe ret.waited)) := rfl
theorem exec_faultQueueSlotFree (s : State) (fe waited : Nat) : exec (.faultQueueSlotFree fe waited) s =
    after s (onCluster s.dev (fun d => faultQueueSlotFree d fe waited)) := rfl
theorem exec_xlatInvalidate (s : State) (addr len : Nat) : exec (.xlatInvalidate addr len) s =
    after s (onObject s.dev 0x8033 0 (fun d => xlatInvalidate d addr len)) := rfl
theorem exec_xlatInvalidateDone (s : State) : exec .xlatInvalidateDone s =
    after s (onUnit s.dev (fun d => xlatInvalidateDone d)) := rfl
theorem exec_xlatResume (s : State) (fid : Nat) : exec (.xlatResume fid) s =
    after s (onObject s.dev 0x8035 0 (fun d => xlatResume d fid)) := rfl
theorem exec_xlatFail (s : State) (fid : Nat) : exec (.xlatFail fid) s =
    after s (onObject s.dev 0x8036 0 (fun d => xlatFail d fid)) := rfl
theorem exec_fdNop (s : State) (fe : Nat) : exec (.fdNop fe) s =
    after s (onCluster s.dev (fun d => fdNop d fe)) := rfl
theorem exec_fdLoad (s : State) (fe : Nat) (reload : Bool) : exec (.fdLoad fe reload) s =
    after s (onCluster s.dev (fun d => fdLoad d fe reload)) := rfl
theorem exec_fdJoin (s : State) (fe : Nat) : exec (.fdJoin fe) s =
    after s (onCluster s.dev (fun d => fdJoin d fe)) := rfl
theorem exec_fdSrc (s : State) (fe : Nat) : exec (.fdSrc fe) s =
    after s (onCluster s.dev (fun d => fdSrc d fe)) := rfl
theorem exec_fdStore (s : State) (fe : Nat) : exec (.fdStore fe) s =
    after s (onCluster s.dev (fun d => fdStore d fe)) := rfl
theorem exec_fdCopy (s : State) (fe : Nat) : exec (.fdCopy fe) s =
    after s (onCluster s.dev (fun d => fdCopy d fe)) := rfl
theorem exec_fdDrain (s : State) (fe : Nat) : exec (.fdDrain fe) s =
    after s (onCluster s.dev (fun d => fdDrain d fe)) := rfl
theorem exec_fdDrainDone (s : State) (fe : Nat) : exec (.fdDrainDone fe) s =
    after s (onCluster s.dev (fun d => fdDrainDone d fe)) := rfl
theorem exec_descriptorComplete (s : State) (fe queue : Nat) : exec (.descriptorComplete fe queue) s =
    after s (onCluster s.dev (fun d => descriptorComplete d fe queue)) := rfl
theorem exec_deadlineMiss (s : State) (fe slot : Nat) : exec (.deadlineMiss fe slot) s =
    after s (onCluster s.dev (fun d => deadlineMiss d fe slot)) := rfl
theorem exec_semSignal (s : State) (cluster num amount ctx : Nat) : exec (.semSignal cluster num amount ctx) s =
    after s (onCluster s.dev (fun d => semSignal d cluster num amount ctx)) := rfl
theorem exec_semWait (s : State) (cluster num amount requester : Nat) : exec (.semWait cluster num amount requester) s =
    after s (onCluster s.dev (fun d => semWaitCmd d cluster num amount requester)) := rfl
theorem exec_semWaitSucceed (s : State) (cluster num : Nat) : exec (.semWaitSucceed cluster num) s =
    after s (onCluster s.dev (fun d => semWaitSucceed d cluster num)) := rfl
theorem exec_lateWait (s : State) (cluster num : Nat) : exec (.lateWait cluster num) s =
    after s (onCluster s.dev (fun d => lateWait d cluster num)) := rfl
theorem exec_progNop (s : State) (cluster : Nat) : exec (.progNop cluster) s =
    after s (onCluster s.dev (fun d => progNop d cluster)) := rfl
theorem exec_progTu (s : State) (cluster : Nat) : exec (.progTu cluster) s =
    after s (onCluster s.dev (fun d => progTu d cluster)) := rfl
theorem exec_progFd (s : State) (cluster : Nat) : exec (.progFd cluster) s =
    after s (onCluster s.dev (fun d => progFd d cluster)) := rfl
theorem exec_progPass (s : State) (cluster : Nat) : exec (.progPass cluster) s =
    after s (onCluster s.dev (fun d => progPass d cluster)) := rfl
theorem exec_progWait (s : State) (cluster : Nat) : exec (.progWait cluster) s =
    after s (onCluster s.dev (fun d => progWait d cluster)) := rfl
theorem exec_progSig (s : State) (cluster : Nat) : exec (.progSig cluster) s =
    after s (onCluster s.dev (fun d => progSig d cluster)) := rfl
theorem exec_progSeta (s : State) (cluster : Nat) : exec (.progSeta cluster) s =
    after s (onCluster s.dev (fun d => progSeta d cluster)) := rfl
theorem exec_progAdda (s : State) (cluster : Nat) : exec (.progAdda cluster) s =
    after s (onCluster s.dev (fun d => progAdda d cluster)) := rfl
theorem exec_progLoop (s : State) (cluster : Nat) : exec (.progLoop cluster) s =
    after s (onCluster s.dev (fun d => progLoop d cluster)) := rfl
theorem exec_progEndl (s : State) (cluster : Nat) : exec (.progEndl cluster) s =
    after s (onCluster s.dev (fun d => progEndl d cluster)) := rfl
theorem exec_progYield (s : State) (cluster : Nat) : exec (.progYield cluster) s =
    after s (onCluster s.dev (fun d => progYield d cluster)) := rfl
theorem exec_progGath (s : State) (cluster : Nat) : exec (.progGath cluster) s =
    after s (onCluster s.dev (fun d => progGath d cluster)) := rfl
theorem exec_progBkt (s : State) (cluster : Nat) : exec (.progBkt cluster) s =
    after s (onCluster s.dev (fun d => progBkt d cluster)) := rfl
theorem exec_progEmit (s : State) (cluster : Nat) : exec (.progEmit cluster) s =
    after s (onCluster s.dev (fun d => progEmit d cluster)) := rfl
theorem exec_progEnd (s : State) (cluster : Nat) : exec (.progEnd cluster) s =
    after s (onCluster s.dev (fun d => progEnd d cluster)) := rfl
theorem exec_emitComplete (s : State) (task : Nat) : exec (.emitComplete task) s =
    after s (onCluster s.dev (fun d => emitComplete d task)) := rfl
theorem exec_taskComplete (s : State) (task : Nat) : exec (.taskComplete task) s =
    after s (onCluster s.dev (fun d => taskComplete d task)) := rfl
theorem exec_taskDequeue (s : State) (cluster held idle : Nat) : exec (.taskDequeue cluster held idle) s =
    after s (onCluster s.dev (fun d => taskDequeue d cluster held idle)) := rfl
theorem exec_frameAssign (s : State) (ctx waited : Nat) : exec (.frameAssign ctx waited) s =
    after s (onCluster s.dev (fun d => frameAssign d ctx waited)) := rfl
theorem exec_swapInDone (s : State) (ctx : Nat) : exec (.swapInDone ctx) s =
    after s (onCluster s.dev (fun d => swapInDone d ctx)) := rfl
theorem exec_taskSwitch (s : State) (cluster : Nat) : exec (.taskSwitch cluster) s =
    after s (onCluster s.dev (fun d => taskSwitch d cluster)) := rfl
theorem exec_jobStart (s : State) : exec .jobStart s =
    after s (onObject s.dev 0x6022 0 (fun d => jobStart d)) := rfl
theorem exec_jobStop (s : State) : exec .jobStop s =
    after s (onObject s.dev 0x6022 0 (fun d => jobStop d)) := rfl
theorem exec_jobHalt (s : State) : exec .jobHalt s =
    after s (onObject s.dev 0x6022 0 (fun d => jobHalt d)) := rfl
theorem exec_stepEnd (s : State) (ctx : Nat) : exec (.stepEnd ctx) s =
    after s (onUnit s.dev (fun d => stepEnd d ctx)) := rfl
theorem exec_boundaryBegin (s : State) : exec .boundaryBegin s =
    after s (onUnit s.dev (fun d => boundaryBegin d)) := rfl
theorem exec_boundaryWork (s : State) : exec .boundaryWork s =
    after s (onUnit s.dev (fun d => boundaryWork d)) := rfl
theorem exec_stepAdvance (s : State) (us : Nat) : exec (.stepAdvance us) s =
    after s (onUnit s.dev (fun d => stepAdvance d us)) := rfl
theorem exec_boundaryTimeout (s : State) : exec .boundaryTimeout s =
    after s (onUnit s.dev (fun d => boundaryTimeout d)) := rfl
theorem exec_contextStopped (s : State) (ctx : Nat) : exec (.contextStopped ctx) s =
    after s (onUnit s.dev (fun d => contextStopped d ctx)) := rfl
theorem exec_stopAtStep (s : State) (step : Nat) : exec (.stopAtStep step) s =
    after s (onObject s.dev 0x6026 0 (fun d => stopAtStep d step)) := rfl
theorem exec_sqEntryReceive (s : State) (queue entry : Nat) : exec (.sqEntryReceive queue entry) s =
    after s (onUnit s.dev (fun d => sqEntryReceive d queue entry)) := rfl
theorem exec_sqDataWrite (s : State) (queue tag addr src id : Nat) (bytes : List Byte) : exec (.sqDataWrite queue tag addr src id bytes) s =
    after s (onUnit s.dev (fun d => sqDataWrite d queue tag addr src id bytes)) := rfl
theorem exec_sqGrantReceive (s : State) (ctx kind addr bytes : Nat) : exec (.sqGrantReceive ctx kind addr bytes) s =
    after s (onUnit s.dev (fun d => sqGrantReceive d ctx kind addr bytes)) := rfl
theorem exec_sqPost (s : State) (record : Nat) : exec (.sqPost record) s =
    after s (onObject s.dev 0x6121 0 (fun d => sqPost d record)) := rfl
theorem exec_spillRefill (s : State) (queue : Nat) : exec (.spillRefill queue) s =
    after s (onUnit s.dev (fun d => spillRefill d queue)) := rfl
theorem exec_commitNotice (s : State) (entry version rank : Nat) : exec (.commitNotice entry version rank) s =
    after s (onUnit s.dev (fun d => commitNotice d entry version rank)) := rfl
theorem exec_releaseNotice (s : State) (entry version rank : Nat) : exec (.releaseNotice entry version rank) s =
    after s (onUnit s.dev (fun d => releaseNotice d entry version rank)) := rfl
theorem exec_molt (s : State) (entry slot : Nat) : exec (.molt entry slot) s =
    after s (onUnit s.dev (fun d => molt d entry slot)) := rfl
theorem exec_moltFinish (s : State) (entry slot : Nat) : exec (.moltFinish entry slot) s =
    after s (onUnit s.dev (fun d => moltFinish d entry slot)) := rfl
theorem exec_viewRemapDone (s : State) (entry waited : Nat) : exec (.viewRemapDone entry waited) s =
    after s (onUnit s.dev (fun d => viewRemapDone d entry waited)) := rfl
theorem exec_gcAllocate (s : State) (entry waited : Nat) : exec (.gcAllocate entry waited) s =
    after s (onUnit s.dev (fun d => gcAllocate d entry waited)) := rfl
theorem exec_gatherDone (s : State) (entry version : Nat) : exec (.gatherDone entry version) s =
    after s (onUnit s.dev (fun d => gatherDone d entry version)) := rfl
theorem exec_releaseContext (s : State) (ctx : Nat) : exec (.releaseContext ctx) s =
    after s (onObject s.dev 0x6823 0 (fun d => releaseContext d ctx)) := rfl
theorem exec_pieceReceive (s : State) (piece : Piece) (waited : Nat) : exec (.pieceReceive piece waited) s =
    after s (onUnit s.dev (fun d => pieceReceive d piece waited)) := rfl
theorem exec_applyStart (s : State) (entry waited : Nat) : exec (.applyStart entry waited) s =
    after s (onUnit s.dev (fun d => applyStart d entry waited)) := rfl
theorem exec_applyDone (s : State) (entry : Nat) : exec (.applyDone entry) s =
    after s (onUnit s.dev (fun d => applyDone d entry)) := rfl
theorem exec_clipFactor (s : State) (group : Nat) : exec (.clipFactor group) s =
    after s (onUnit s.dev (fun d => clipFactor d group)) := rfl
theorem exec_rngFill (s : State) (record : Nat) : exec (.rngFill record) s =
    after s (onObject s.dev 0xCE40 0 (fun d => rngFill d record)) := rfl
theorem exec_rngFillDone (s : State) : exec .rngFillDone s =
    after s (onUnit s.dev (fun d => rngFillDone d)) := rfl
theorem exec_rngProbe (s : State) (select : Nat) : exec (.rngProbe select) s =
    after s (onObject s.dev 0xCE30 0 (fun d => rngProbe d select)) := rfl
theorem exec_quadTrain (s : State) (quad : Nat) (info : TrainInfo) : exec (.quadTrain quad info) s =
    after s (onUnit s.dev (fun d => quadTrain d quad info)) := rfl
theorem exec_trainTimeout (s : State) (quad : Nat) : exec (.trainTimeout quad) s =
    after s (onUnit s.dev (fun d => trainTimeout d quad)) := rfl
theorem exec_quadRetrain (s : State) (mask : Nat) : exec (.quadRetrain mask) s =
    after s (onObject s.dev 0x9060 0 (fun d => quadRetrain d mask)) := rfl
theorem exec_retrainTimeout (s : State) (quad : Nat) : exec (.retrainTimeout quad) s =
    after s (onUnit s.dev (fun d => retrainTimeout d quad)) := rfl
theorem exec_dataFlit (s : State) (quad : Nat) (flit : DataFlit) : exec (.dataFlit quad flit) s =
    after s (onUnit s.dev (fun d => dataFlit d quad flit)) := rfl
theorem exec_ctrlFlit (s : State) (quad : Nat) (ack : FlitAck) : exec (.ctrlFlit quad ack) s =
    after s (onUnit s.dev (fun d => ctrlFlit d quad ack)) := rfl
theorem exec_idleFlit (s : State) (quad : Nat) (ack : FlitAck) : exec (.idleFlit quad ack) s =
    after s (onUnit s.dev (fun d => idleFlit d quad ack)) := rfl
theorem exec_croak (s : State) (quad : Nat) (body : CroakBody) : exec (.croak quad body) s =
    after s (onUnit s.dev (fun d => croak d quad body)) := rfl
theorem exec_croakReply (s : State) (quad : Nat) (body : CroakBody) : exec (.croakReply quad body) s =
    after s (onUnit s.dev (fun d => croakReply d quad body)) := rfl
theorem exec_laneDrop (s : State) (quad mask : Nat) : exec (.laneDrop quad mask) s =
    after s (onUnit s.dev (fun d => laneDrop d quad mask)) := rfl
theorem exec_laneDropDetect (s : State) (quad lane : Nat) : exec (.laneDropDetect quad lane) s =
    after s (onUnit s.dev (fun d => laneDropDetect d quad lane)) := rfl
theorem exec_laneSignalLoss (s : State) (quad : Nat) : exec (.laneSignalLoss quad) s =
    after s (onUnit s.dev (fun d => laneSignalLoss d quad)) := rfl
theorem exec_ackTimer (s : State) (quad : Nat) : exec (.ackTimer quad) s =
    after s (onUnit s.dev (fun d => ackTimer d quad)) := rfl
theorem exec_replayTimeout (s : State) (quad : Nat) : exec (.replayTimeout quad) s =
    after s (onUnit s.dev (fun d => replayTimeout d quad)) := rfl
theorem exec_creditReturnTimer (s : State) (quad : Nat) : exec (.creditReturnTimer quad) s =
    after s (onUnit s.dev (fun d => creditReturnTimer d quad)) := rfl
theorem exec_creditStall (s : State) (quad vc ns : Nat) : exec (.creditStall quad vc ns) s =
    after s (onUnit s.dev (fun d => creditStall d quad vc ns)) := rfl
theorem exec_croakTimer (s : State) (quad : Nat) : exec (.croakTimer quad) s =
    after s (onUnit s.dev (fun d => croakTimer d quad)) := rfl
theorem exec_croakWindowClose (s : State) (quad : Nat) : exec (.croakWindowClose quad) s =
    after s (onUnit s.dev (fun d => croakWindowClose d quad)) := rfl
theorem exec_messageRoute (s : State) (quad vc : Nat) : exec (.messageRoute quad vc) s =
    after s (onUnit s.dev (fun d => messageRoute d quad vc)) := rfl
theorem exec_unreachReceive (s : State) (header : Nat) : exec (.unreachReceive header) s =
    after s (onUnit s.dev (fun d => unreachReceive d header)) := rfl
theorem exec_bucketHandoff (s : State) (cluster : Nat) : exec (.bucketHandoff cluster) s =
    after s (onUnit s.dev (fun d => bucketHandoff d cluster)) := rfl
theorem exec_stagingAllocate (s : State) (bucket step place waited : Nat) : exec (.stagingAllocate bucket step place waited) s =
    after s (onUnit s.dev (fun d => stagingAllocate d bucket step place waited)) := rfl
theorem exec_announce (s : State) (src bucket lap place fver : Nat) : exec (.announce src bucket lap place fver) s =
    after s (onUnit s.dev (fun d => announce d src bucket lap place fver)) := rfl
theorem exec_read (s : State) (src rlap ridx space flow body : Nat) : exec (.read src rlap ridx space flow body) s =
    after s (onUnit s.dev (fun d => ceServe d src rlap ridx space flow body)) := rfl
theorem exec_readData (s : State) (src rlap ridx status chunk : Nat) (bytes : List Byte) : exec (.readData src rlap ridx status chunk bytes) s =
    after s (onUnit s.dev (fun d => readData d src rlap ridx status chunk bytes)) := rfl
theorem exec_chunkFold (s : State) (bucket step place chunk waited : Nat) : exec (.chunkFold bucket step place chunk waited) s =
    after s (onUnit s.dev (fun d => chunkFold d bucket step place chunk waited)) := rfl
theorem exec_mdata (s : State) (src pid version origin off : Nat) (bytes : List Byte) : exec (.mdata src pid version origin off bytes) s =
    after s (onUnit s.dev (fun d => mdata d src pid version origin off bytes)) := rfl
theorem exec_mack (s : State) (src pid version origin count : Nat) : exec (.mack src pid version origin count) s =
    after s (onUnit s.dev (fun d => mack d src pid version origin count)) := rfl
theorem exec_fetch (s : State) (src pid version origin : Nat) : exec (.fetch src pid version origin) s =
    after s (onUnit s.dev (fun d => ceFetch d src pid version origin)) := rfl
theorem exec_autotomy (s : State) (group us : Nat) : exec (.autotomy group us) s =
    after s (onUnit s.dev (fun d => autotomy d group us)) := rfl
theorem exec_clip (s : State) (src group lap : Nat) (total : F32) : exec (.clip src group lap total) s =
    after s (onUnit s.dev (fun d => clip d src group lap total)) := rfl
theorem exec_dispatchDoorbell (s : State) (layer waited : Nat) : exec (.dispatchDoorbell layer waited) s =
    after s (onUnit s.dev (fun d => dispatchDoorbell d layer waited)) := rfl
theorem exec_combineDoorbell (s : State) (layer : Nat) : exec (.combineDoorbell layer) s =
    after s (onUnit s.dev (fun d => combineDoorbell d layer)) := rfl
theorem exec_expertRows (s : State) (src layer : Nat) (bwd : Bool) (tag slot pos part : Nat) (bytes : List Byte) (waited : Nat) : exec (.expertRows src layer bwd tag slot pos part bytes waited) s =
    after s (onUnit s.dev (fun d => expertRows d src layer bwd tag slot pos part bytes waited)) := rfl
theorem exec_expertCount (s : State) (src layer : Nat) (bwd : Bool) (tag : Nat) (counts : List Nat) : exec (.expertCount src layer bwd tag counts) s =
    after s (onUnit s.dev (fun d => expertCount d src layer bwd tag counts)) := rfl
theorem exec_expertResult (s : State) (src layer : Nat) (bwd : Bool) (tag slot pos part : Nat) (bytes : List Byte) (waited : Nat) : exec (.expertResult src layer bwd tag slot pos part bytes waited) s =
    after s (onUnit s.dev (fun d => expertResult d src layer bwd tag slot pos part bytes waited)) := rfl
theorem exec_dispatchDone (s : State) (layer : Nat) (bwd : Bool) (tag : Nat) : exec (.dispatchDone layer bwd tag) s =
    after s (onUnit s.dev (fun d => dispatchDone d layer bwd tag)) := rfl
theorem exec_combineDone (s : State) (layer : Nat) (bwd : Bool) (tag : Nat) : exec (.combineDone layer bwd tag) s =
    after s (onUnit s.dev (fun d => combineDone d layer bwd tag)) := rfl
theorem exec_hpLinkDown (s : State) : exec .hpLinkDown s =
    after s (onUnit s.dev (fun d => hpLinkDown d)) := rfl
theorem exec_hpLinkUp (s : State) : exec .hpLinkUp s =
    after s (onUnit s.dev (fun d => hpLinkUp d)) := rfl
theorem exec_mgmtQueueFrame (s : State) (cls src : Nat) (payload : List Byte) : exec (.mgmtQueueFrame cls src payload) s =
    after s (onHost s.dev (fun d => mgmtQueueFrame d cls src payload)) := rfl
theorem exec_arpRequest (s : State) (v6 : Bool) (target requester : Nat) : exec (.arpRequest v6 target requester) s =
    after s (onHost s.dev (fun d => arpRequest d v6 target requester)) := rfl
theorem exec_rdmaWrite (s : State) (qp op psn va rkey len : Nat) (bytes : List Byte) (ce : Bool) : exec (.rdmaWrite qp op psn va rkey len bytes ce) s =
    after s (onHost s.dev (fun d => rdmaWrite d qp op psn va rkey len bytes ce)) := rfl
theorem exec_rdmaRead (s : State) (qp psn va rkey len busy : Nat) (ce : Bool) : exec (.rdmaRead qp psn va rkey len busy ce) s =
    after s (onHost s.dev (fun d => rdmaRead d qp psn va rkey len busy ce)) := rfl
theorem exec_rdmaAck (s : State) (qp kind psn : Nat) : exec (.rdmaAck qp kind psn) s =
    after s (onHost s.dev (fun d => rdmaAck d qp kind psn)) := rfl
theorem exec_readResponse (s : State) (qp psn : Nat) (bytes : List Byte) (ce : Bool) : exec (.readResponse qp psn bytes ce) s =
    after s (onHost s.dev (fun d => readResponse d qp psn bytes ce)) := rfl
theorem exec_cnpReceive (s : State) (qp : Nat) : exec (.cnpReceive qp) s =
    after s (onHost s.dev (fun d => cnpReceive d qp)) := rfl
theorem exec_rateIncrease (s : State) (qp : Nat) : exec (.rateIncrease qp) s =
    after s (onUnit s.dev (fun d => rateIncrease d qp)) := rfl
theorem exec_retransmitTimeout (s : State) (qp : Nat) : exec (.retransmitTimeout qp) s =
    after s (onUnit s.dev (fun d => retransmitTimeout d qp)) := rfl
theorem exec_pfcPause (s : State) (prio quanta : Nat) : exec (.pfcPause prio quanta) s =
    after s (onHost s.dev (fun d => pfcPause d prio quanta)) := rfl
theorem exec_pfcPauseRefresh (s : State) (prio used : Nat) : exec (.pfcPauseRefresh prio used) s =
    after s (onUnit s.dev (fun d => pfcPauseRefresh d prio used)) := rfl
theorem exec_pfcStorm (s : State) (prio : Nat) : exec (.pfcStorm prio) s =
    after s (onUnit s.dev (fun d => pfcStorm d prio)) := rfl
theorem exec_qpReset (s : State) (qp : Nat) : exec (.qpReset qp) s =
    after s (onObject s.dev 0xB033 0 (fun d => qpReset d qp)) := rfl
theorem exec_ptpSync (s : State) (domain src seq : Nat) (twoStep : Bool) (origin rx : Nat) : exec (.ptpSync domain src seq twoStep origin rx) s =
    after s (onHost s.dev (fun d => ptpSync d domain src seq twoStep origin rx)) := rfl
theorem exec_ptpFollowUp (s : State) (domain src seq origin : Nat) : exec (.ptpFollowUp domain src seq origin) s =
    after s (onHost s.dev (fun d => ptpFollowUp d domain src seq origin)) := rfl
theorem exec_ptpDelayResp (s : State) (domain src seq t4 : Nat) : exec (.ptpDelayResp domain src seq t4) s =
    after s (onHost s.dev (fun d => ptpDelayResp d domain src seq t4)) := rfl
theorem exec_ptpAnnounce (s : State) (domain : Nat) (dataset : List Nat) : exec (.ptpAnnounce domain dataset) s =
    after s (onHost s.dev (fun d => ptpAnnounce d domain dataset)) := rfl
theorem exec_ptpAnnounceTimeout (s : State) : exec .ptpAnnounceTimeout s =
    after s (onUnit s.dev (fun d => ptpAnnounceTimeout d)) := rfl
theorem exec_syseridTick (s : State) (info : OpInfo) : exec (.syseridTick info) s =
    after s (onMgmt s.dev (fun d => syseridTick d info)) := rfl
theorem exec_syseridRead (s : State) (node seq idx sub : Nat) : exec (.syseridRead node seq idx sub) s =
    after s (onUnit s.dev (fun d => syseridRead d node seq idx sub)) := rfl
theorem exec_syseridReadStaged (s : State) (node seq idx sub : Nat) : exec (.syseridReadStaged node seq idx sub) s =
    after s (onUnit s.dev (fun d => syseridReadStaged d node seq idx sub)) := rfl
theorem exec_syseridWrite (s : State) (node seq idx sub len value : Nat) (info : OpInfo) : exec (.syseridWrite node seq idx sub len value info) s =
    after s (onUnit s.dev (fun d => syseridWrite d node seq idx sub len value info)) := rfl
theorem exec_pendingComplete (s : State) (ticket : Nat) : exec (.pendingComplete ticket) s =
    after s (onUnit s.dev (fun d => pendingComplete d ticket)) := rfl
theorem exec_completeResend (s : State) (ticket : Nat) : exec (.completeResend ticket) s =
    after s (onUnit s.dev (fun d => completeResend d ticket)) := rfl
theorem exec_ackComplete (s : State) (node seq : Nat) : exec (.ackComplete node seq) s =
    after s (onUnit s.dev (fun d => ackComplete d node seq)) := rfl
theorem exec_stallTimeout (s : State) (ticket seqIdle feHeld : Nat) : exec (.stallTimeout ticket seqIdle feHeld) s =
    after s (onUnit s.dev (fun d => stallTimeout d ticket seqIdle feHeld)) := rfl
theorem exec_ackEvents (s : State) (row eseq : Nat) : exec (.ackEvents row eseq) s =
    after s (onUnit s.dev (fun d => ackEvents d row eseq)) := rfl
theorem exec_eventResend (s : State) (row : Nat) : exec (.eventResend row) s =
    after s (onUnit s.dev (fun d => eventResend d row)) := rfl
theorem exec_subscriberRetry (s : State) (row : Nat) : exec (.subscriberRetry row) s =
    after s (onUnit s.dev (fun d => subscriberRetry d row)) := rfl
theorem exec_genCheck (s : State) (value : Nat) : exec (.genCheck value) s =
    after s (onObject s.dev 0x2020 0 (fun d => genCheck d value)) := rfl
theorem exec_genCheckDone (s : State) : exec .genCheckDone s =
    after s (onUnit s.dev (fun d => genCheckDone d)) := rfl
theorem exec_commitNow (s : State) (record : Nat) : exec (.commitNow record) s =
    after s (onObject s.dev 0x2030 0 (fun d => genAttemptAt d record 0 false)) := rfl
theorem exec_commitAtBoundary (s : State) (record : Nat) : exec (.commitAtBoundary record) s =
    after s (onObject s.dev 0x2030 0 (fun d => genAttemptAt d record 1 false)) := rfl
theorem exec_commitAtTime (s : State) (record : Nat) : exec (.commitAtTime record) s =
    after s (onObject s.dev 0x2030 0 (fun d => genAttemptAt d record 2 false)) := rfl
theorem exec_rollbackNow (s : State) (record : Nat) : exec (.rollbackNow record) s =
    after s (onObject s.dev 0x2032 0 (fun d => genAttemptAt d record 0 true)) := rfl
theorem exec_rollbackAtBoundary (s : State) (record : Nat) : exec (.rollbackAtBoundary record) s =
    after s (onObject s.dev 0x2032 0 (fun d => genAttemptAt d record 1 true)) := rfl
theorem exec_rollbackAtTime (s : State) (record : Nat) : exec (.rollbackAtTime record) s =
    after s (onObject s.dev 0x2032 0 (fun d => genAttemptAt d record 2 true)) := rfl
theorem exec_genCancel (s : State) (value : Nat) : exec (.genCancel value) s =
    after s (onObject s.dev 0x2031 0 (fun d => genCancel d value)) := rfl
theorem exec_stageDiscard (s : State) (value : Nat) : exec (.stageDiscard value) s =
    after s (onObject s.dev 0x2013 0 (fun d => stageDiscard d value)) := rfl
theorem exec_armedTimeApply (s : State) : exec .armedTimeApply s =
    after s (onUnit s.dev (fun d => armedTimeApply d)) := rfl
theorem exec_genStoreDone (s : State) (ok : Bool) : exec (.genStoreDone ok) s =
    after s (onMgmt s.dev (fun d => genStoreDone d ok)) := rfl
theorem exec_hmExternal (s : State) (value : Nat) : exec (.hmExternal value) s =
    after s (onObject s.dev 0xC009 0 (fun d => hmExternal d value)) := rfl
theorem exec_cutAtStep (s : State) (step : Nat) : exec (.cutAtStep step) s =
    after s (onObject s.dev 0xC100 0 (fun d => cutAtStep d step)) := rfl
theorem exec_cutCapture (s : State) : exec .cutCapture s =
    after s (onUnit s.dev (fun d => cutCapture d)) := rfl
theorem exec_captureDone (s : State) (us : Nat) : exec (.captureDone us) s =
    after s (onUnit s.dev (fun d => captureDone d us)) := rfl
theorem exec_nvmeCompletion (s : State) (ok : Bool) : exec (.nvmeCompletion ok) s =
    after s (onUnit s.dev (fun d => nvmeCompletion d ok)) := rfl
theorem exec_cutComplete (s : State) (ok : Bool) : exec (.cutComplete ok) s =
    after s (onUnit s.dev (fun d => cutComplete d ok)) := rfl
theorem exec_mirrorDone (s : State) (ok : Bool) : exec (.mirrorDone ok) s =
    after s (onUnit s.dev (fun d => mirrorDone d ok)) := rfl
theorem exec_snRestore (s : State) (record : Nat) : exec (.snRestore record) s =
    after s (onObject s.dev 0xC120 0 (fun d => snRestore d record)) := rfl
theorem exec_restoreDone (s : State) (image : Option Cut) (bad : List (Nat × Nat × Bool)) : exec (.restoreDone image bad) s =
    after s (onUnit s.dev (fun d => restoreDone d image bad)) := rfl
theorem exec_rcRecover (s : State) (record : Nat) : exec (.rcRecover record) s =
    after s (onObject s.dev 0xC210 0 (fun d => rcRecover d record)) := rfl
theorem exec_recordStart (s : State) : exec .recordStart s =
    after s (onUnit s.dev (fun d => recordStart d)) := rfl
theorem exec_axolotlFill (s : State) : exec .axolotlFill s =
    after s (onUnit s.dev (fun d => axolotlFill d)) := rfl
theorem exec_wedgeCapture (s : State) (value seqIdle feHeld : Nat) : exec (.wedgeCapture value seqIdle feHeld) s =
    after s (onObject s.dev 0xC221 0 (fun d => wedgeCapture d value seqIdle feHeld)) := rfl
theorem exec_fabricProbeTimeout (s : State) (seqIdle feHeld : Nat) : exec (.fabricProbeTimeout seqIdle feHeld) s =
    after s (onMgmt s.dev (fun d => fabricProbeTimeout d seqIdle feHeld)) := rfl
theorem exec_scrubLine (s : State) (unit : Nat) (upsets : List Upset) : exec (.scrubLine unit upsets) s =
    after s (onUnit s.dev (fun d => scrubTick d unit upsets)) := rfl
theorem exec_cvConfig (s : State) (unit value : Nat) : exec (.cvConfig unit value) s =
    after s (onObject s.dev 0xD802 (unit + 1) (fun d => cvConfig d unit value)) := rfl
theorem exec_cvFeed8 (s : State) (value : Nat) : exec (.cvFeed8 value) s =
    after s (onObject s.dev 0xD804 0 (fun d => cvFeed8 d value)) := rfl
theorem exec_cvFeed16 (s : State) (value : Nat) : exec (.cvFeed16 value) s =
    after s (onObject s.dev 0xD805 0 (fun d => cvFeed16 d value)) := rfl
theorem exec_cvFeed32 (s : State) (value : Nat) : exec (.cvFeed32 value) s =
    after s (onObject s.dev 0xD806 0 (fun d => cvFeed32 d value)) := rfl
theorem exec_cvScan (s : State) (record : Nat) : exec (.cvScan record) s =
    after s (onObject s.dev 0xD807 0 (fun d => cvScan d record)) := rfl
theorem exec_cvScanDone (s : State) (unit : Nat) : exec (.cvScanDone unit) s =
    after s (onUnit s.dev (fun d => cvScanDone d unit)) := rfl
theorem exec_cvFinish (s : State) (unit : Nat) : exec (.cvFinish unit) s =
    after s (onObject s.dev 0xD808 0 (fun d => cvFinish d unit)) := rfl
theorem exec_cvStateLoad (s : State) (unit value : Nat) : exec (.cvStateLoad unit value) s =
    after s (onObject s.dev 0xD803 (unit + 1) (fun d => cvStateLoad d unit value)) := rfl
theorem exec_cvCompareSet (s : State) (channel value : Nat) : exec (.cvCompareSet channel value) s =
    after s (onUnit s.dev (fun d => cvCompareSet d channel value)) := rfl
theorem exec_revokeKey (s : State) (slot : Nat) : exec (.revokeKey slot) s =
    after s (onObject s.dev 0xD003 0 (fun d => revokeKey d slot)) := rfl
theorem exec_rollbackCommit (s : State) (value good : Nat) : exec (.rollbackCommit value good) s =
    after s (onObject s.dev 0xD021 0 (fun d => rollbackCommit d value good)) := rfl
theorem exec_flashErase (s : State) (image : Nat) : exec (.flashErase image) s =
    after s (onObject s.dev 0xD013 0 (fun d => flashErase d image)) := rfl
theorem exec_flashWrite (s : State) (bytes : List Byte) : exec (.flashWrite bytes) s =
    after s (onObject s.dev 0xD014 0 (fun d => flashWrite d bytes)) := rfl
theorem exec_imageVerify (s : State) (image : Nat) : exec (.imageVerify image) s =
    after s (onObject s.dev 0xD015 0 (fun d => imageVerify d image)) := rfl
theorem exec_bootPrefer (s : State) (image : Nat) : exec (.bootPrefer image) s =
    after s (onObject s.dev 0xD017 0 (fun d => bootPrefer d image)) := rfl
theorem exec_flashOperationDone (s : State) (region : Nat) (ok : Bool) : exec (.flashOperationDone region ok) s =
    after s (onMgmt s.dev (fun d => flashOperationDone d region ok)) := rfl
theorem exec_attestNonce (s : State) (nonce : Nat) : exec (.attestNonce nonce) s =
    after s (onObject s.dev 0xD040 0 (fun d => attestNonce d nonce)) := rfl
theorem exec_debugUnlock (s : State) (slot : Nat) (ok : Bool) : exec (.debugUnlock slot ok) s =
    after s (onMgmt s.dev (fun d => debugUnlock d slot ok)) := rfl
theorem exec_bridgeReq (s : State) (dir bundle seq ord : Nat) (recs : List BridgeReq) (ok : Bool) : exec (.bridgeReq dir bundle seq ord recs ok) s =
    after s (onUnit s.dev (fun d => brArrive d dir bundle seq ord (.req recs) ok)) := rfl
theorem exec_bridgeWdata (s : State) (dir bundle seq ord tag : Nat) (data : BridgeData) (ok : Bool) : exec (.bridgeWdata dir bundle seq ord tag data ok) s =
    after s (onUnit s.dev (fun d => brArrive d dir bundle seq ord (.wdata tag data.bytes data.ue) ok)) := rfl
theorem exec_bridgeSig (s : State) (dir bundle seq ord : Nat) (recs : List BridgeSig) (ok : Bool) : exec (.bridgeSig dir bundle seq ord recs ok) s =
    after s (onUnit s.dev (fun d => brArrive d dir bundle seq ord (.sig recs) ok)) := rfl
theorem exec_bridgeRdata (s : State) (dir bundle seq ord tag : Nat) (data : BridgeData) (ok : Bool) : exec (.bridgeRdata dir bundle seq ord tag data ok) s =
    after s (onUnit s.dev (fun d => brArrive d dir bundle seq ord (.rdata tag data.bytes data.ue) ok)) := rfl
theorem exec_bridgeWack (s : State) (dir bundle seq ord : Nat) (tags : List Nat) (ok : Bool) : exec (.bridgeWack dir bundle seq ord tags ok) s =
    after s (onUnit s.dev (fun d => brArrive d dir bundle seq ord (.wack tags) ok)) := rfl
theorem exec_bridgeAck (s : State) (dir bundle : Nat) (words : List (Nat × Bool)) (credReq credRsp : Nat) (ok : Bool) : exec (.bridgeAck dir bundle words credReq credRsp ok) s =
    after s (onUnit s.dev (fun d => bridgeAck d dir bundle words credReq credRsp ok)) := rfl
theorem exec_bridgeAckTimer (s : State) (dir : Nat) : exec (.bridgeAckTimer dir) s =
    after s (onUnit s.dev (fun d => bridgeAckTimer d dir)) := rfl
theorem exec_bundleRetrainDone (s : State) (dir bundle : Nat) (fails : List Nat) (ctl : Bool) (seqIdle feHeld : Nat) : exec (.bundleRetrainDone dir bundle fails ctl seqIdle feHeld) s =
    after s (onUnit s.dev (fun d => bundleRetrainDone d dir bundle fails ctl seqIdle feHeld)) := rfl
theorem exec_inputSample (s : State) (millivolts milliamps : Nat) : exec (.inputSample millivolts milliamps) s =
    after s (onPower s.dev (fun d => inputSample d millivolts milliamps)) := rfl
theorem exec_powerFail (s : State) : exec .powerFail s =
    after s (powerFail s.dev) := rfl
theorem exec_powerRestore (s : State) : exec .powerRestore s =
    after s (powerRestore s.dev) := rfl
theorem exec_overvoltageTrip (s : State) : exec .overvoltageTrip s =
    after s (onPower s.dev (fun d => overvoltageTrip d)) := rfl
theorem exec_dutyAdjust (s : State) : exec .dutyAdjust s =
    after s (onUnit s.dev (fun d => dutyAdjust d)) := rfl
theorem exec_sensorSample (s : State) (temps : List F32) : exec (.sensorSample temps) s =
    after s (onPower s.dev (fun d => sensorSample d temps)) := rfl
theorem exec_thermalTrip (s : State) : exec .thermalTrip s =
    after s (onPower s.dev (fun d => thermalTrip d)) := rfl
theorem exec_refclkLoss (s : State) (which seqIdle feHeld : Nat) : exec (.refclkLoss which seqIdle feHeld) s =
    after s (onUnit s.dev (fun d => refclkLoss d which seqIdle feHeld)) := rfl
theorem exec_pllUnlock (s : State) (which seqIdle feHeld : Nat) : exec (.pllUnlock which seqIdle feHeld) s =
    after s (onUnit s.dev (fun d => pllUnlock d which seqIdle feHeld)) := rfl
theorem exec_pinReset (s : State) : exec .pinReset s =
    after s (pinReset s.dev) := rfl
theorem exec_resetCommand (s : State) (value : Nat) : exec (.resetCommand value) s =
    after s (onObject s.dev 0xE004 0 (fun d => resetCommand d value)) := rfl
theorem exec_resetTakeEffect (s : State) : exec .resetTakeEffect s =
    after s (onMgmt s.dev (fun d => resetTakeEffect d)) := rfl
theorem exec_watchdogExpiry (s : State) : exec .watchdogExpiry s =
    after s (onMgmt s.dev (fun d => watchdogExpiry d)) := rfl
theorem exec_startupStep (s : State) (info : StartInfo) : exec (.startupStep info) s =
    after s (onUnit s.dev (fun d => startupStep d info)) := rfl
theorem exec_startupTimeout (s : State) (us unit : Nat) : exec (.startupTimeout us unit) s =
    after s (onUnit s.dev (fun d => startupTimeout d us unit)) := rfl
theorem exec_farInitDone (s : State) : exec .farInitDone s =
    after s (onUnit s.dev (fun d => farInitDone d)) := rfl
theorem exec_jtagBypass (s : State) : exec .jtagBypass s =
    after s (onPower s.dev (fun d => jtagBypass d)) := rfl
theorem exec_jtagIdcode (s : State) : exec .jtagIdcode s =
    after s (onPower s.dev (fun d => jtagIdcode d)) := rfl
theorem exec_jtagSamplePreload (s : State) (lands cells : Nat) : exec (.jtagSamplePreload lands cells) s =
    after s (onPower s.dev (fun d => jtagSamplePreload d lands cells)) := rfl
theorem exec_jtagExtest (s : State) (lands : Nat) : exec (.jtagExtest lands) s =
    after s (onPower s.dev (fun d => jtagExtest d lands)) := rfl
theorem exec_jtagExtestPulse (s : State) (lands : Nat) : exec (.jtagExtestPulse lands) s =
    after s (onPower s.dev (fun d => jtagExtestPulse d lands)) := rfl
theorem exec_jtagExtestTrain (s : State) (lands : Nat) : exec (.jtagExtestTrain lands) s =
    after s (onPower s.dev (fun d => jtagExtestTrain d lands)) := rfl
theorem exec_writeDone (s : State) (ctx id : Nat) : exec (.writeDone ctx id) s =
    after s (onUnit s.dev (fun d => writeDone d ctx id)) := rfl
theorem exec_swapOutDone (s : State) (ctx : Nat) : exec (.swapOutDone ctx) s =
    after s (onCluster s.dev (fun d => swapOutDone d ctx)) := rfl
theorem exec_powerOnReset (s : State) : exec .powerOnReset s =
    after s (powerOnReset s.dev) := rfl
theorem exec_resetNRelease (s : State) : exec .resetNRelease s =
    after s (resetNRelease s.dev) := rfl
theorem exec_pauseQuantaExpiry (s : State) (prio : Nat) : exec (.pauseQuantaExpiry prio) s =
    after s (onUnit s.dev (fun d => pauseQuantaExpiry d prio)) := rfl
theorem exec_unmatchedFrame (s : State) : exec .unmatchedFrame s =
    after s (onHost s.dev (fun d => unmatchedFrame d)) := rfl

end Sys2Proof.Machine
end

