-- ==== Sys2Proof/Laws/State.lean ====
section
/-! SUPPORT. One lemma per field per update of the state, true by unfolding. -/

namespace Sys2Proof.Machine

@[simp] theorem State.withDev_dev (s : State) (d : Dev) : ({ s with dev := d } : State).dev = d := rfl
@[simp] theorem State.withDev_pending (s : State) (d : Dev) : ({ s with dev := d } : State).pending = s.pending := rfl
@[simp] theorem State.withPending_dev (s : State) (q : List Instr) : ({ s with pending := q } : State).dev = s.dev := rfl
@[simp] theorem State.withPending_pending (s : State) (q : List Instr) : ({ s with pending := q } : State).pending = q := rfl

@[simp] theorem setObj_keyed (d : Dev) (idx sub v : Nat) : (setObj d idx sub v).keyed = d.keyed := rfl
@[simp] theorem setObj_uptime (d : Dev) (idx sub v : Nat) : (setObj d idx sub v).uptime = d.uptime := rfl
@[simp] theorem setObj_ptp (d : Dev) (idx sub v : Nat) : (setObj d idx sub v).ptp = d.ptp := rfl
@[simp] theorem setObj_ev (d : Dev) (idx sub v : Nat) : (setObj d idx sub v).ev = d.ev := rfl
@[simp] theorem setObj_out (d : Dev) (idx sub v : Nat) : (setObj d idx sub v).out = d.out := rfl
@[simp] theorem setObj_freeCtr (d : Dev) (idx sub v : Nat) : (setObj d idx sub v).freeCtr = d.freeCtr := rfl
@[simp] theorem setObj_tus (d : Dev) (idx sub v : Nat) : (setObj d idx sub v).tus = d.tus := rfl
@[simp] theorem setObj_shadows (d : Dev) (idx sub v : Nat) : (setObj d idx sub v).shadows = d.shadows := rfl
@[simp] theorem setObj_sup (d : Dev) (idx sub v : Nat) : (setObj d idx sub v).sup = d.sup := rfl
@[simp] theorem setObj_tiles (d : Dev) (idx sub v : Nat) : (setObj d idx sub v).tiles = d.tiles := rfl
@[simp] theorem setObj_vcs (d : Dev) (idx sub v : Nat) : (setObj d idx sub v).vcs = d.vcs := rfl
@[simp] theorem setObj_mem (d : Dev) (idx sub v : Nat) : (setObj d idx sub v).mem = d.mem := rfl
@[simp] theorem setObj_fes (d : Dev) (idx sub v : Nat) : (setObj d idx sub v).fes = d.fes := rfl
@[simp] theorem setObj_sems (d : Dev) (idx sub v : Nat) : (setObj d idx sub v).sems = d.sems := rfl
@[simp] theorem setObj_grants (d : Dev) (idx sub v : Nat) : (setObj d idx sub v).grants = d.grants := rfl
@[simp] theorem setObj_seq (d : Dev) (idx sub v : Nat) : (setObj d idx sub v).seq = d.seq := rfl
@[simp] theorem setObj_hp (d : Dev) (idx sub v : Nat) : (setObj d idx sub v).hp = d.hp := rfl
@[simp] theorem setObj_rl (d : Dev) (idx sub v : Nat) : (setObj d idx sub v).rl = d.rl := rfl
@[simp] theorem setObj_sq (d : Dev) (idx sub v : Nat) : (setObj d idx sub v).sq = d.sq := rfl
@[simp] theorem setObj_wv (d : Dev) (idx sub v : Nat) : (setObj d idx sub v).wv = d.wv := rfl
@[simp] theorem setObj_up (d : Dev) (idx sub v : Nat) : (setObj d idx sub v).up = d.up := rfl
@[simp] theorem setObj_ce (d : Dev) (idx sub v : Nat) : (setObj d idx sub v).ce = d.ce := rfl
@[simp] theorem setObj_ex (d : Dev) (idx sub v : Nat) : (setObj d idx sub v).ex = d.ex := rfl
@[simp] theorem setObj_fill (d : Dev) (idx sub v : Nat) : (setObj d idx sub v).fill = d.fill := rfl
@[simp] theorem setObj_gn (d : Dev) (idx sub v : Nat) : (setObj d idx sub v).gn = d.gn := rfl
@[simp] theorem setObj_sy (d : Dev) (idx sub v : Nat) : (setObj d idx sub v).sy = d.sy := rfl
@[simp] theorem setObj_hm (d : Dev) (idx sub v : Nat) : (setObj d idx sub v).hm = d.hm := rfl
@[simp] theorem setObj_sn (d : Dev) (idx sub v : Nat) : (setObj d idx sub v).sn = d.sn := rfl
@[simp] theorem setObj_rc (d : Dev) (idx sub v : Nat) : (setObj d idx sub v).rc = d.rc := rfl
@[simp] theorem setObj_cv (d : Dev) (idx sub v : Nat) : (setObj d idx sub v).cv = d.cv := rfl
@[simp] theorem setObj_sec (d : Dev) (idx sub v : Nat) : (setObj d idx sub v).sec = d.sec := rfl
@[simp] theorem setObj_east (d : Dev) (idx sub v : Nat) : (setObj d idx sub v).east = d.east := rfl
@[simp] theorem setObj_west (d : Dev) (idx sub v : Nat) : (setObj d idx sub v).west = d.west := rfl
@[simp] theorem setObj_pw (d : Dev) (idx sub v : Nat) : (setObj d idx sub v).pw = d.pw := rfl

@[simp] theorem send_objs (d : Dev) (m : OutMsg) : (send d m).objs = d.objs := rfl
@[simp] theorem send_keyed (d : Dev) (m : OutMsg) : (send d m).keyed = d.keyed := rfl
@[simp] theorem send_uptime (d : Dev) (m : OutMsg) : (send d m).uptime = d.uptime := rfl
@[simp] theorem send_ptp (d : Dev) (m : OutMsg) : (send d m).ptp = d.ptp := rfl
@[simp] theorem send_ev (d : Dev) (m : OutMsg) : (send d m).ev = d.ev := rfl
@[simp] theorem send_freeCtr (d : Dev) (m : OutMsg) : (send d m).freeCtr = d.freeCtr := rfl
@[simp] theorem send_tus (d : Dev) (m : OutMsg) : (send d m).tus = d.tus := rfl
@[simp] theorem send_shadows (d : Dev) (m : OutMsg) : (send d m).shadows = d.shadows := rfl
@[simp] theorem send_sup (d : Dev) (m : OutMsg) : (send d m).sup = d.sup := rfl
@[simp] theorem send_tiles (d : Dev) (m : OutMsg) : (send d m).tiles = d.tiles := rfl
@[simp] theorem send_vcs (d : Dev) (m : OutMsg) : (send d m).vcs = d.vcs := rfl
@[simp] theorem send_mem (d : Dev) (m : OutMsg) : (send d m).mem = d.mem := rfl
@[simp] theorem send_fes (d : Dev) (m : OutMsg) : (send d m).fes = d.fes := rfl
@[simp] theorem send_sems (d : Dev) (m : OutMsg) : (send d m).sems = d.sems := rfl
@[simp] theorem send_grants (d : Dev) (m : OutMsg) : (send d m).grants = d.grants := rfl
@[simp] theorem send_seq (d : Dev) (m : OutMsg) : (send d m).seq = d.seq := rfl
@[simp] theorem send_hp (d : Dev) (m : OutMsg) : (send d m).hp = d.hp := rfl
@[simp] theorem send_rl (d : Dev) (m : OutMsg) : (send d m).rl = d.rl := rfl
@[simp] theorem send_sq (d : Dev) (m : OutMsg) : (send d m).sq = d.sq := rfl
@[simp] theorem send_wv (d : Dev) (m : OutMsg) : (send d m).wv = d.wv := rfl
@[simp] theorem send_up (d : Dev) (m : OutMsg) : (send d m).up = d.up := rfl
@[simp] theorem send_ce (d : Dev) (m : OutMsg) : (send d m).ce = d.ce := rfl
@[simp] theorem send_ex (d : Dev) (m : OutMsg) : (send d m).ex = d.ex := rfl
@[simp] theorem send_fill (d : Dev) (m : OutMsg) : (send d m).fill = d.fill := rfl
@[simp] theorem send_gn (d : Dev) (m : OutMsg) : (send d m).gn = d.gn := rfl
@[simp] theorem send_sy (d : Dev) (m : OutMsg) : (send d m).sy = d.sy := rfl
@[simp] theorem send_hm (d : Dev) (m : OutMsg) : (send d m).hm = d.hm := rfl
@[simp] theorem send_sn (d : Dev) (m : OutMsg) : (send d m).sn = d.sn := rfl
@[simp] theorem send_rc (d : Dev) (m : OutMsg) : (send d m).rc = d.rc := rfl
@[simp] theorem send_cv (d : Dev) (m : OutMsg) : (send d m).cv = d.cv := rfl
@[simp] theorem send_sec (d : Dev) (m : OutMsg) : (send d m).sec = d.sec := rfl
@[simp] theorem send_east (d : Dev) (m : OutMsg) : (send d m).east = d.east := rfl
@[simp] theorem send_west (d : Dev) (m : OutMsg) : (send d m).west = d.west := rfl
@[simp] theorem send_pw (d : Dev) (m : OutMsg) : (send d m).pw = d.pw := rfl

@[simp] theorem setTu_objs (d : Dev) (t : Nat) (u : Tu) : (setTu d t u).objs = d.objs := rfl
@[simp] theorem setTu_keyed (d : Dev) (t : Nat) (u : Tu) : (setTu d t u).keyed = d.keyed := rfl
@[simp] theorem setTu_uptime (d : Dev) (t : Nat) (u : Tu) : (setTu d t u).uptime = d.uptime := rfl
@[simp] theorem setTu_ptp (d : Dev) (t : Nat) (u : Tu) : (setTu d t u).ptp = d.ptp := rfl
@[simp] theorem setTu_ev (d : Dev) (t : Nat) (u : Tu) : (setTu d t u).ev = d.ev := rfl
@[simp] theorem setTu_out (d : Dev) (t : Nat) (u : Tu) : (setTu d t u).out = d.out := rfl
@[simp] theorem setTu_freeCtr (d : Dev) (t : Nat) (u : Tu) : (setTu d t u).freeCtr = d.freeCtr := rfl
@[simp] theorem setTu_shadows (d : Dev) (t : Nat) (u : Tu) : (setTu d t u).shadows = d.shadows := rfl
@[simp] theorem setTu_sup (d : Dev) (t : Nat) (u : Tu) : (setTu d t u).sup = d.sup := rfl
@[simp] theorem setTu_tiles (d : Dev) (t : Nat) (u : Tu) : (setTu d t u).tiles = d.tiles := rfl
@[simp] theorem setTu_vcs (d : Dev) (t : Nat) (u : Tu) : (setTu d t u).vcs = d.vcs := rfl
@[simp] theorem setTu_mem (d : Dev) (t : Nat) (u : Tu) : (setTu d t u).mem = d.mem := rfl
@[simp] theorem setTu_fes (d : Dev) (t : Nat) (u : Tu) : (setTu d t u).fes = d.fes := rfl
@[simp] theorem setTu_sems (d : Dev) (t : Nat) (u : Tu) : (setTu d t u).sems = d.sems := rfl
@[simp] theorem setTu_grants (d : Dev) (t : Nat) (u : Tu) : (setTu d t u).grants = d.grants := rfl
@[simp] theorem setTu_seq (d : Dev) (t : Nat) (u : Tu) : (setTu d t u).seq = d.seq := rfl
@[simp] theorem setTu_hp (d : Dev) (t : Nat) (u : Tu) : (setTu d t u).hp = d.hp := rfl
@[simp] theorem setTu_rl (d : Dev) (t : Nat) (u : Tu) : (setTu d t u).rl = d.rl := rfl
@[simp] theorem setTu_sq (d : Dev) (t : Nat) (u : Tu) : (setTu d t u).sq = d.sq := rfl
@[simp] theorem setTu_wv (d : Dev) (t : Nat) (u : Tu) : (setTu d t u).wv = d.wv := rfl
@[simp] theorem setTu_up (d : Dev) (t : Nat) (u : Tu) : (setTu d t u).up = d.up := rfl
@[simp] theorem setTu_ce (d : Dev) (t : Nat) (u : Tu) : (setTu d t u).ce = d.ce := rfl
@[simp] theorem setTu_ex (d : Dev) (t : Nat) (u : Tu) : (setTu d t u).ex = d.ex := rfl
@[simp] theorem setTu_fill (d : Dev) (t : Nat) (u : Tu) : (setTu d t u).fill = d.fill := rfl
@[simp] theorem setTu_gn (d : Dev) (t : Nat) (u : Tu) : (setTu d t u).gn = d.gn := rfl
@[simp] theorem setTu_sy (d : Dev) (t : Nat) (u : Tu) : (setTu d t u).sy = d.sy := rfl
@[simp] theorem setTu_hm (d : Dev) (t : Nat) (u : Tu) : (setTu d t u).hm = d.hm := rfl
@[simp] theorem setTu_sn (d : Dev) (t : Nat) (u : Tu) : (setTu d t u).sn = d.sn := rfl
@[simp] theorem setTu_rc (d : Dev) (t : Nat) (u : Tu) : (setTu d t u).rc = d.rc := rfl
@[simp] theorem setTu_cv (d : Dev) (t : Nat) (u : Tu) : (setTu d t u).cv = d.cv := rfl
@[simp] theorem setTu_sec (d : Dev) (t : Nat) (u : Tu) : (setTu d t u).sec = d.sec := rfl
@[simp] theorem setTu_east (d : Dev) (t : Nat) (u : Tu) : (setTu d t u).east = d.east := rfl
@[simp] theorem setTu_west (d : Dev) (t : Nat) (u : Tu) : (setTu d t u).west = d.west := rfl
@[simp] theorem setTu_pw (d : Dev) (t : Nat) (u : Tu) : (setTu d t u).pw = d.pw := rfl

@[simp] theorem setShadow_objs (d : Dev) (c : Nat) (u : Shadow) : (setShadow d c u).objs = d.objs := rfl
@[simp] theorem setShadow_keyed (d : Dev) (c : Nat) (u : Shadow) : (setShadow d c u).keyed = d.keyed := rfl
@[simp] theorem setShadow_uptime (d : Dev) (c : Nat) (u : Shadow) : (setShadow d c u).uptime = d.uptime := rfl
@[simp] theorem setShadow_ptp (d : Dev) (c : Nat) (u : Shadow) : (setShadow d c u).ptp = d.ptp := rfl
@[simp] theorem setShadow_ev (d : Dev) (c : Nat) (u : Shadow) : (setShadow d c u).ev = d.ev := rfl
@[simp] theorem setShadow_out (d : Dev) (c : Nat) (u : Shadow) : (setShadow d c u).out = d.out := rfl
@[simp] theorem setShadow_freeCtr (d : Dev) (c : Nat) (u : Shadow) : (setShadow d c u).freeCtr = d.freeCtr := rfl
@[simp] theorem setShadow_tus (d : Dev) (c : Nat) (u : Shadow) : (setShadow d c u).tus = d.tus := rfl
@[simp] theorem setShadow_sup (d : Dev) (c : Nat) (u : Shadow) : (setShadow d c u).sup = d.sup := rfl
@[simp] theorem setShadow_tiles (d : Dev) (c : Nat) (u : Shadow) : (setShadow d c u).tiles = d.tiles := rfl
@[simp] theorem setShadow_vcs (d : Dev) (c : Nat) (u : Shadow) : (setShadow d c u).vcs = d.vcs := rfl
@[simp] theorem setShadow_mem (d : Dev) (c : Nat) (u : Shadow) : (setShadow d c u).mem = d.mem := rfl
@[simp] theorem setShadow_fes (d : Dev) (c : Nat) (u : Shadow) : (setShadow d c u).fes = d.fes := rfl
@[simp] theorem setShadow_sems (d : Dev) (c : Nat) (u : Shadow) : (setShadow d c u).sems = d.sems := rfl
@[simp] theorem setShadow_grants (d : Dev) (c : Nat) (u : Shadow) : (setShadow d c u).grants = d.grants := rfl
@[simp] theorem setShadow_seq (d : Dev) (c : Nat) (u : Shadow) : (setShadow d c u).seq = d.seq := rfl
@[simp] theorem setShadow_hp (d : Dev) (c : Nat) (u : Shadow) : (setShadow d c u).hp = d.hp := rfl
@[simp] theorem setShadow_rl (d : Dev) (c : Nat) (u : Shadow) : (setShadow d c u).rl = d.rl := rfl
@[simp] theorem setShadow_sq (d : Dev) (c : Nat) (u : Shadow) : (setShadow d c u).sq = d.sq := rfl
@[simp] theorem setShadow_wv (d : Dev) (c : Nat) (u : Shadow) : (setShadow d c u).wv = d.wv := rfl
@[simp] theorem setShadow_up (d : Dev) (c : Nat) (u : Shadow) : (setShadow d c u).up = d.up := rfl
@[simp] theorem setShadow_ce (d : Dev) (c : Nat) (u : Shadow) : (setShadow d c u).ce = d.ce := rfl
@[simp] theorem setShadow_ex (d : Dev) (c : Nat) (u : Shadow) : (setShadow d c u).ex = d.ex := rfl
@[simp] theorem setShadow_fill (d : Dev) (c : Nat) (u : Shadow) : (setShadow d c u).fill = d.fill := rfl
@[simp] theorem setShadow_gn (d : Dev) (c : Nat) (u : Shadow) : (setShadow d c u).gn = d.gn := rfl
@[simp] theorem setShadow_sy (d : Dev) (c : Nat) (u : Shadow) : (setShadow d c u).sy = d.sy := rfl
@[simp] theorem setShadow_hm (d : Dev) (c : Nat) (u : Shadow) : (setShadow d c u).hm = d.hm := rfl
@[simp] theorem setShadow_sn (d : Dev) (c : Nat) (u : Shadow) : (setShadow d c u).sn = d.sn := rfl
@[simp] theorem setShadow_rc (d : Dev) (c : Nat) (u : Shadow) : (setShadow d c u).rc = d.rc := rfl
@[simp] theorem setShadow_cv (d : Dev) (c : Nat) (u : Shadow) : (setShadow d c u).cv = d.cv := rfl
@[simp] theorem setShadow_sec (d : Dev) (c : Nat) (u : Shadow) : (setShadow d c u).sec = d.sec := rfl
@[simp] theorem setShadow_east (d : Dev) (c : Nat) (u : Shadow) : (setShadow d c u).east = d.east := rfl
@[simp] theorem setShadow_west (d : Dev) (c : Nat) (u : Shadow) : (setShadow d c u).west = d.west := rfl
@[simp] theorem setShadow_pw (d : Dev) (c : Nat) (u : Shadow) : (setShadow d c u).pw = d.pw := rfl

@[simp] theorem setFe_objs (d : Dev) (f : Nat) (e : Fe) : (setFe d f e).objs = d.objs := rfl
@[simp] theorem setFe_keyed (d : Dev) (f : Nat) (e : Fe) : (setFe d f e).keyed = d.keyed := rfl
@[simp] theorem setFe_uptime (d : Dev) (f : Nat) (e : Fe) : (setFe d f e).uptime = d.uptime := rfl
@[simp] theorem setFe_ptp (d : Dev) (f : Nat) (e : Fe) : (setFe d f e).ptp = d.ptp := rfl
@[simp] theorem setFe_ev (d : Dev) (f : Nat) (e : Fe) : (setFe d f e).ev = d.ev := rfl
@[simp] theorem setFe_out (d : Dev) (f : Nat) (e : Fe) : (setFe d f e).out = d.out := rfl
@[simp] theorem setFe_freeCtr (d : Dev) (f : Nat) (e : Fe) : (setFe d f e).freeCtr = d.freeCtr := rfl
@[simp] theorem setFe_tus (d : Dev) (f : Nat) (e : Fe) : (setFe d f e).tus = d.tus := rfl
@[simp] theorem setFe_shadows (d : Dev) (f : Nat) (e : Fe) : (setFe d f e).shadows = d.shadows := rfl
@[simp] theorem setFe_sup (d : Dev) (f : Nat) (e : Fe) : (setFe d f e).sup = d.sup := rfl
@[simp] theorem setFe_tiles (d : Dev) (f : Nat) (e : Fe) : (setFe d f e).tiles = d.tiles := rfl
@[simp] theorem setFe_vcs (d : Dev) (f : Nat) (e : Fe) : (setFe d f e).vcs = d.vcs := rfl
@[simp] theorem setFe_mem (d : Dev) (f : Nat) (e : Fe) : (setFe d f e).mem = d.mem := rfl
@[simp] theorem setFe_sems (d : Dev) (f : Nat) (e : Fe) : (setFe d f e).sems = d.sems := rfl
@[simp] theorem setFe_grants (d : Dev) (f : Nat) (e : Fe) : (setFe d f e).grants = d.grants := rfl
@[simp] theorem setFe_seq (d : Dev) (f : Nat) (e : Fe) : (setFe d f e).seq = d.seq := rfl
@[simp] theorem setFe_hp (d : Dev) (f : Nat) (e : Fe) : (setFe d f e).hp = d.hp := rfl
@[simp] theorem setFe_rl (d : Dev) (f : Nat) (e : Fe) : (setFe d f e).rl = d.rl := rfl
@[simp] theorem setFe_sq (d : Dev) (f : Nat) (e : Fe) : (setFe d f e).sq = d.sq := rfl
@[simp] theorem setFe_wv (d : Dev) (f : Nat) (e : Fe) : (setFe d f e).wv = d.wv := rfl
@[simp] theorem setFe_up (d : Dev) (f : Nat) (e : Fe) : (setFe d f e).up = d.up := rfl
@[simp] theorem setFe_ce (d : Dev) (f : Nat) (e : Fe) : (setFe d f e).ce = d.ce := rfl
@[simp] theorem setFe_ex (d : Dev) (f : Nat) (e : Fe) : (setFe d f e).ex = d.ex := rfl
@[simp] theorem setFe_fill (d : Dev) (f : Nat) (e : Fe) : (setFe d f e).fill = d.fill := rfl
@[simp] theorem setFe_gn (d : Dev) (f : Nat) (e : Fe) : (setFe d f e).gn = d.gn := rfl
@[simp] theorem setFe_sy (d : Dev) (f : Nat) (e : Fe) : (setFe d f e).sy = d.sy := rfl
@[simp] theorem setFe_hm (d : Dev) (f : Nat) (e : Fe) : (setFe d f e).hm = d.hm := rfl
@[simp] theorem setFe_sn (d : Dev) (f : Nat) (e : Fe) : (setFe d f e).sn = d.sn := rfl
@[simp] theorem setFe_rc (d : Dev) (f : Nat) (e : Fe) : (setFe d f e).rc = d.rc := rfl
@[simp] theorem setFe_cv (d : Dev) (f : Nat) (e : Fe) : (setFe d f e).cv = d.cv := rfl
@[simp] theorem setFe_sec (d : Dev) (f : Nat) (e : Fe) : (setFe d f e).sec = d.sec := rfl
@[simp] theorem setFe_east (d : Dev) (f : Nat) (e : Fe) : (setFe d f e).east = d.east := rfl
@[simp] theorem setFe_west (d : Dev) (f : Nat) (e : Fe) : (setFe d f e).west = d.west := rfl
@[simp] theorem setFe_pw (d : Dev) (f : Nat) (e : Fe) : (setFe d f e).pw = d.pw := rfl

@[simp] theorem setCtx_objs (d : Dev) (c : Nat) (x : Ctx) : (setCtx d c x).objs = d.objs := rfl
@[simp] theorem setCtx_keyed (d : Dev) (c : Nat) (x : Ctx) : (setCtx d c x).keyed = d.keyed := rfl
@[simp] theorem setCtx_uptime (d : Dev) (c : Nat) (x : Ctx) : (setCtx d c x).uptime = d.uptime := rfl
@[simp] theorem setCtx_ptp (d : Dev) (c : Nat) (x : Ctx) : (setCtx d c x).ptp = d.ptp := rfl
@[simp] theorem setCtx_ev (d : Dev) (c : Nat) (x : Ctx) : (setCtx d c x).ev = d.ev := rfl
@[simp] theorem setCtx_out (d : Dev) (c : Nat) (x : Ctx) : (setCtx d c x).out = d.out := rfl
@[simp] theorem setCtx_freeCtr (d : Dev) (c : Nat) (x : Ctx) : (setCtx d c x).freeCtr = d.freeCtr := rfl
@[simp] theorem setCtx_tus (d : Dev) (c : Nat) (x : Ctx) : (setCtx d c x).tus = d.tus := rfl
@[simp] theorem setCtx_shadows (d : Dev) (c : Nat) (x : Ctx) : (setCtx d c x).shadows = d.shadows := rfl
@[simp] theorem setCtx_sup (d : Dev) (c : Nat) (x : Ctx) : (setCtx d c x).sup = d.sup := rfl
@[simp] theorem setCtx_tiles (d : Dev) (c : Nat) (x : Ctx) : (setCtx d c x).tiles = d.tiles := rfl
@[simp] theorem setCtx_vcs (d : Dev) (c : Nat) (x : Ctx) : (setCtx d c x).vcs = d.vcs := rfl
@[simp] theorem setCtx_mem (d : Dev) (c : Nat) (x : Ctx) : (setCtx d c x).mem = d.mem := rfl
@[simp] theorem setCtx_fes (d : Dev) (c : Nat) (x : Ctx) : (setCtx d c x).fes = d.fes := rfl
@[simp] theorem setCtx_sems (d : Dev) (c : Nat) (x : Ctx) : (setCtx d c x).sems = d.sems := rfl
@[simp] theorem setCtx_grants (d : Dev) (c : Nat) (x : Ctx) : (setCtx d c x).grants = d.grants := rfl
@[simp] theorem setCtx_hp (d : Dev) (c : Nat) (x : Ctx) : (setCtx d c x).hp = d.hp := rfl
@[simp] theorem setCtx_rl (d : Dev) (c : Nat) (x : Ctx) : (setCtx d c x).rl = d.rl := rfl
@[simp] theorem setCtx_sq (d : Dev) (c : Nat) (x : Ctx) : (setCtx d c x).sq = d.sq := rfl
@[simp] theorem setCtx_wv (d : Dev) (c : Nat) (x : Ctx) : (setCtx d c x).wv = d.wv := rfl
@[simp] theorem setCtx_up (d : Dev) (c : Nat) (x : Ctx) : (setCtx d c x).up = d.up := rfl
@[simp] theorem setCtx_ce (d : Dev) (c : Nat) (x : Ctx) : (setCtx d c x).ce = d.ce := rfl
@[simp] theorem setCtx_ex (d : Dev) (c : Nat) (x : Ctx) : (setCtx d c x).ex = d.ex := rfl
@[simp] theorem setCtx_fill (d : Dev) (c : Nat) (x : Ctx) : (setCtx d c x).fill = d.fill := rfl
@[simp] theorem setCtx_gn (d : Dev) (c : Nat) (x : Ctx) : (setCtx d c x).gn = d.gn := rfl
@[simp] theorem setCtx_sy (d : Dev) (c : Nat) (x : Ctx) : (setCtx d c x).sy = d.sy := rfl
@[simp] theorem setCtx_hm (d : Dev) (c : Nat) (x : Ctx) : (setCtx d c x).hm = d.hm := rfl
@[simp] theorem setCtx_sn (d : Dev) (c : Nat) (x : Ctx) : (setCtx d c x).sn = d.sn := rfl
@[simp] theorem setCtx_rc (d : Dev) (c : Nat) (x : Ctx) : (setCtx d c x).rc = d.rc := rfl
@[simp] theorem setCtx_cv (d : Dev) (c : Nat) (x : Ctx) : (setCtx d c x).cv = d.cv := rfl
@[simp] theorem setCtx_sec (d : Dev) (c : Nat) (x : Ctx) : (setCtx d c x).sec = d.sec := rfl
@[simp] theorem setCtx_east (d : Dev) (c : Nat) (x : Ctx) : (setCtx d c x).east = d.east := rfl
@[simp] theorem setCtx_west (d : Dev) (c : Nat) (x : Ctx) : (setCtx d c x).west = d.west := rfl
@[simp] theorem setCtx_pw (d : Dev) (c : Nat) (x : Ctx) : (setCtx d c x).pw = d.pw := rfl

@[simp] theorem setTask_objs (d : Dev) (t : Task) : (setTask d t).objs = d.objs := rfl
@[simp] theorem setTask_keyed (d : Dev) (t : Task) : (setTask d t).keyed = d.keyed := rfl
@[simp] theorem setTask_uptime (d : Dev) (t : Task) : (setTask d t).uptime = d.uptime := rfl
@[simp] theorem setTask_ptp (d : Dev) (t : Task) : (setTask d t).ptp = d.ptp := rfl
@[simp] theorem setTask_ev (d : Dev) (t : Task) : (setTask d t).ev = d.ev := rfl
@[simp] theorem setTask_out (d : Dev) (t : Task) : (setTask d t).out = d.out := rfl
@[simp] theorem setTask_freeCtr (d : Dev) (t : Task) : (setTask d t).freeCtr = d.freeCtr := rfl
@[simp] theorem setTask_tus (d : Dev) (t : Task) : (setTask d t).tus = d.tus := rfl
@[simp] theorem setTask_shadows (d : Dev) (t : Task) : (setTask d t).shadows = d.shadows := rfl
@[simp] theorem setTask_sup (d : Dev) (t : Task) : (setTask d t).sup = d.sup := rfl
@[simp] theorem setTask_tiles (d : Dev) (t : Task) : (setTask d t).tiles = d.tiles := rfl
@[simp] theorem setTask_vcs (d : Dev) (t : Task) : (setTask d t).vcs = d.vcs := rfl
@[simp] theorem setTask_mem (d : Dev) (t : Task) : (setTask d t).mem = d.mem := rfl
@[simp] theorem setTask_fes (d : Dev) (t : Task) : (setTask d t).fes = d.fes := rfl
@[simp] theorem setTask_sems (d : Dev) (t : Task) : (setTask d t).sems = d.sems := rfl
@[simp] theorem setTask_grants (d : Dev) (t : Task) : (setTask d t).grants = d.grants := rfl
@[simp] theorem setTask_hp (d : Dev) (t : Task) : (setTask d t).hp = d.hp := rfl
@[simp] theorem setTask_rl (d : Dev) (t : Task) : (setTask d t).rl = d.rl := rfl
@[simp] theorem setTask_sq (d : Dev) (t : Task) : (setTask d t).sq = d.sq := rfl
@[simp] theorem setTask_wv (d : Dev) (t : Task) : (setTask d t).wv = d.wv := rfl
@[simp] theorem setTask_up (d : Dev) (t : Task) : (setTask d t).up = d.up := rfl
@[simp] theorem setTask_ce (d : Dev) (t : Task) : (setTask d t).ce = d.ce := rfl
@[simp] theorem setTask_ex (d : Dev) (t : Task) : (setTask d t).ex = d.ex := rfl
@[simp] theorem setTask_fill (d : Dev) (t : Task) : (setTask d t).fill = d.fill := rfl
@[simp] theorem setTask_gn (d : Dev) (t : Task) : (setTask d t).gn = d.gn := rfl
@[simp] theorem setTask_sy (d : Dev) (t : Task) : (setTask d t).sy = d.sy := rfl
@[simp] theorem setTask_hm (d : Dev) (t : Task) : (setTask d t).hm = d.hm := rfl
@[simp] theorem setTask_sn (d : Dev) (t : Task) : (setTask d t).sn = d.sn := rfl
@[simp] theorem setTask_rc (d : Dev) (t : Task) : (setTask d t).rc = d.rc := rfl
@[simp] theorem setTask_cv (d : Dev) (t : Task) : (setTask d t).cv = d.cv := rfl
@[simp] theorem setTask_sec (d : Dev) (t : Task) : (setTask d t).sec = d.sec := rfl
@[simp] theorem setTask_east (d : Dev) (t : Task) : (setTask d t).east = d.east := rfl
@[simp] theorem setTask_west (d : Dev) (t : Task) : (setTask d t).west = d.west := rfl
@[simp] theorem setTask_pw (d : Dev) (t : Task) : (setTask d t).pw = d.pw := rfl

@[simp] theorem setSem_objs (d : Dev) (k : Nat) (x : Sem) : (setSem d k x).objs = d.objs := rfl
@[simp] theorem setSem_keyed (d : Dev) (k : Nat) (x : Sem) : (setSem d k x).keyed = d.keyed := rfl
@[simp] theorem setSem_uptime (d : Dev) (k : Nat) (x : Sem) : (setSem d k x).uptime = d.uptime := rfl
@[simp] theorem setSem_ptp (d : Dev) (k : Nat) (x : Sem) : (setSem d k x).ptp = d.ptp := rfl
@[simp] theorem setSem_ev (d : Dev) (k : Nat) (x : Sem) : (setSem d k x).ev = d.ev := rfl
@[simp] theorem setSem_out (d : Dev) (k : Nat) (x : Sem) : (setSem d k x).out = d.out := rfl
@[simp] theorem setSem_freeCtr (d : Dev) (k : Nat) (x : Sem) : (setSem d k x).freeCtr = d.freeCtr := rfl
@[simp] theorem setSem_tus (d : Dev) (k : Nat) (x : Sem) : (setSem d k x).tus = d.tus := rfl
@[simp] theorem setSem_shadows (d : Dev) (k : Nat) (x : Sem) : (setSem d k x).shadows = d.shadows := rfl
@[simp] theorem setSem_sup (d : Dev) (k : Nat) (x : Sem) : (setSem d k x).sup = d.sup := rfl
@[simp] theorem setSem_tiles (d : Dev) (k : Nat) (x : Sem) : (setSem d k x).tiles = d.tiles := rfl
@[simp] theorem setSem_vcs (d : Dev) (k : Nat) (x : Sem) : (setSem d k x).vcs = d.vcs := rfl
@[simp] theorem setSem_mem (d : Dev) (k : Nat) (x : Sem) : (setSem d k x).mem = d.mem := rfl
@[simp] theorem setSem_fes (d : Dev) (k : Nat) (x : Sem) : (setSem d k x).fes = d.fes := rfl
@[simp] theorem setSem_grants (d : Dev) (k : Nat) (x : Sem) : (setSem d k x).grants = d.grants := rfl
@[simp] theorem setSem_seq (d : Dev) (k : Nat) (x : Sem) : (setSem d k x).seq = d.seq := rfl
@[simp] theorem setSem_hp (d : Dev) (k : Nat) (x : Sem) : (setSem d k x).hp = d.hp := rfl
@[simp] theorem setSem_rl (d : Dev) (k : Nat) (x : Sem) : (setSem d k x).rl = d.rl := rfl
@[simp] theorem setSem_sq (d : Dev) (k : Nat) (x : Sem) : (setSem d k x).sq = d.sq := rfl
@[simp] theorem setSem_wv (d : Dev) (k : Nat) (x : Sem) : (setSem d k x).wv = d.wv := rfl
@[simp] theorem setSem_up (d : Dev) (k : Nat) (x : Sem) : (setSem d k x).up = d.up := rfl
@[simp] theorem setSem_ce (d : Dev) (k : Nat) (x : Sem) : (setSem d k x).ce = d.ce := rfl
@[simp] theorem setSem_ex (d : Dev) (k : Nat) (x : Sem) : (setSem d k x).ex = d.ex := rfl
@[simp] theorem setSem_fill (d : Dev) (k : Nat) (x : Sem) : (setSem d k x).fill = d.fill := rfl
@[simp] theorem setSem_gn (d : Dev) (k : Nat) (x : Sem) : (setSem d k x).gn = d.gn := rfl
@[simp] theorem setSem_sy (d : Dev) (k : Nat) (x : Sem) : (setSem d k x).sy = d.sy := rfl
@[simp] theorem setSem_hm (d : Dev) (k : Nat) (x : Sem) : (setSem d k x).hm = d.hm := rfl
@[simp] theorem setSem_sn (d : Dev) (k : Nat) (x : Sem) : (setSem d k x).sn = d.sn := rfl
@[simp] theorem setSem_rc (d : Dev) (k : Nat) (x : Sem) : (setSem d k x).rc = d.rc := rfl
@[simp] theorem setSem_cv (d : Dev) (k : Nat) (x : Sem) : (setSem d k x).cv = d.cv := rfl
@[simp] theorem setSem_sec (d : Dev) (k : Nat) (x : Sem) : (setSem d k x).sec = d.sec := rfl
@[simp] theorem setSem_east (d : Dev) (k : Nat) (x : Sem) : (setSem d k x).east = d.east := rfl
@[simp] theorem setSem_west (d : Dev) (k : Nat) (x : Sem) : (setSem d k x).west = d.west := rfl
@[simp] theorem setSem_pw (d : Dev) (k : Nat) (x : Sem) : (setSem d k x).pw = d.pw := rfl

@[simp] theorem setPw_objs (d : Dev) (x : Pw) : (setPw d x).objs = d.objs := rfl
@[simp] theorem setPw_keyed (d : Dev) (x : Pw) : (setPw d x).keyed = d.keyed := rfl
@[simp] theorem setPw_uptime (d : Dev) (x : Pw) : (setPw d x).uptime = d.uptime := rfl
@[simp] theorem setPw_ptp (d : Dev) (x : Pw) : (setPw d x).ptp = d.ptp := rfl
@[simp] theorem setPw_ev (d : Dev) (x : Pw) : (setPw d x).ev = d.ev := rfl
@[simp] theorem setPw_out (d : Dev) (x : Pw) : (setPw d x).out = d.out := rfl
@[simp] theorem setPw_freeCtr (d : Dev) (x : Pw) : (setPw d x).freeCtr = d.freeCtr := rfl
@[simp] theorem setPw_tus (d : Dev) (x : Pw) : (setPw d x).tus = d.tus := rfl
@[simp] theorem setPw_shadows (d : Dev) (x : Pw) : (setPw d x).shadows = d.shadows := rfl
@[simp] theorem setPw_sup (d : Dev) (x : Pw) : (setPw d x).sup = d.sup := rfl
@[simp] theorem setPw_tiles (d : Dev) (x : Pw) : (setPw d x).tiles = d.tiles := rfl
@[simp] theorem setPw_vcs (d : Dev) (x : Pw) : (setPw d x).vcs = d.vcs := rfl
@[simp] theorem setPw_mem (d : Dev) (x : Pw) : (setPw d x).mem = d.mem := rfl
@[simp] theorem setPw_fes (d : Dev) (x : Pw) : (setPw d x).fes = d.fes := rfl
@[simp] theorem setPw_sems (d : Dev) (x : Pw) : (setPw d x).sems = d.sems := rfl
@[simp] theorem setPw_grants (d : Dev) (x : Pw) : (setPw d x).grants = d.grants := rfl
@[simp] theorem setPw_seq (d : Dev) (x : Pw) : (setPw d x).seq = d.seq := rfl
@[simp] theorem setPw_hp (d : Dev) (x : Pw) : (setPw d x).hp = d.hp := rfl
@[simp] theorem setPw_rl (d : Dev) (x : Pw) : (setPw d x).rl = d.rl := rfl
@[simp] theorem setPw_sq (d : Dev) (x : Pw) : (setPw d x).sq = d.sq := rfl
@[simp] theorem setPw_wv (d : Dev) (x : Pw) : (setPw d x).wv = d.wv := rfl
@[simp] theorem setPw_up (d : Dev) (x : Pw) : (setPw d x).up = d.up := rfl
@[simp] theorem setPw_ce (d : Dev) (x : Pw) : (setPw d x).ce = d.ce := rfl
@[simp] theorem setPw_ex (d : Dev) (x : Pw) : (setPw d x).ex = d.ex := rfl
@[simp] theorem setPw_fill (d : Dev) (x : Pw) : (setPw d x).fill = d.fill := rfl
@[simp] theorem setPw_gn (d : Dev) (x : Pw) : (setPw d x).gn = d.gn := rfl
@[simp] theorem setPw_sy (d : Dev) (x : Pw) : (setPw d x).sy = d.sy := rfl
@[simp] theorem setPw_hm (d : Dev) (x : Pw) : (setPw d x).hm = d.hm := rfl
@[simp] theorem setPw_sn (d : Dev) (x : Pw) : (setPw d x).sn = d.sn := rfl
@[simp] theorem setPw_rc (d : Dev) (x : Pw) : (setPw d x).rc = d.rc := rfl
@[simp] theorem setPw_cv (d : Dev) (x : Pw) : (setPw d x).cv = d.cv := rfl
@[simp] theorem setPw_sec (d : Dev) (x : Pw) : (setPw d x).sec = d.sec := rfl
@[simp] theorem setPw_east (d : Dev) (x : Pw) : (setPw d x).east = d.east := rfl
@[simp] theorem setPw_west (d : Dev) (x : Pw) : (setPw d x).west = d.west := rfl

@[simp] theorem bump_keyed (d : Dev) (idx sub n : Nat) : (bump d idx sub n).keyed = d.keyed := rfl
@[simp] theorem bump_uptime (d : Dev) (idx sub n : Nat) : (bump d idx sub n).uptime = d.uptime := rfl
@[simp] theorem bump_ptp (d : Dev) (idx sub n : Nat) : (bump d idx sub n).ptp = d.ptp := rfl
@[simp] theorem bump_ev (d : Dev) (idx sub n : Nat) : (bump d idx sub n).ev = d.ev := rfl
@[simp] theorem bump_out (d : Dev) (idx sub n : Nat) : (bump d idx sub n).out = d.out := rfl
@[simp] theorem bump_freeCtr (d : Dev) (idx sub n : Nat) : (bump d idx sub n).freeCtr = d.freeCtr := rfl
@[simp] theorem bump_tus (d : Dev) (idx sub n : Nat) : (bump d idx sub n).tus = d.tus := rfl
@[simp] theorem bump_shadows (d : Dev) (idx sub n : Nat) : (bump d idx sub n).shadows = d.shadows := rfl
@[simp] theorem bump_sup (d : Dev) (idx sub n : Nat) : (bump d idx sub n).sup = d.sup := rfl
@[simp] theorem bump_tiles (d : Dev) (idx sub n : Nat) : (bump d idx sub n).tiles = d.tiles := rfl
@[simp] theorem bump_vcs (d : Dev) (idx sub n : Nat) : (bump d idx sub n).vcs = d.vcs := rfl
@[simp] theorem bump_mem (d : Dev) (idx sub n : Nat) : (bump d idx sub n).mem = d.mem := rfl
@[simp] theorem bump_fes (d : Dev) (idx sub n : Nat) : (bump d idx sub n).fes = d.fes := rfl
@[simp] theorem bump_sems (d : Dev) (idx sub n : Nat) : (bump d idx sub n).sems = d.sems := rfl
@[simp] theorem bump_grants (d : Dev) (idx sub n : Nat) : (bump d idx sub n).grants = d.grants := rfl
@[simp] theorem bump_seq (d : Dev) (idx sub n : Nat) : (bump d idx sub n).seq = d.seq := rfl
@[simp] theorem bump_hp (d : Dev) (idx sub n : Nat) : (bump d idx sub n).hp = d.hp := rfl
@[simp] theorem bump_rl (d : Dev) (idx sub n : Nat) : (bump d idx sub n).rl = d.rl := rfl
@[simp] theorem bump_sq (d : Dev) (idx sub n : Nat) : (bump d idx sub n).sq = d.sq := rfl
@[simp] theorem bump_wv (d : Dev) (idx sub n : Nat) : (bump d idx sub n).wv = d.wv := rfl
@[simp] theorem bump_up (d : Dev) (idx sub n : Nat) : (bump d idx sub n).up = d.up := rfl
@[simp] theorem bump_ce (d : Dev) (idx sub n : Nat) : (bump d idx sub n).ce = d.ce := rfl
@[simp] theorem bump_ex (d : Dev) (idx sub n : Nat) : (bump d idx sub n).ex = d.ex := rfl
@[simp] theorem bump_fill (d : Dev) (idx sub n : Nat) : (bump d idx sub n).fill = d.fill := rfl
@[simp] theorem bump_gn (d : Dev) (idx sub n : Nat) : (bump d idx sub n).gn = d.gn := rfl
@[simp] theorem bump_sy (d : Dev) (idx sub n : Nat) : (bump d idx sub n).sy = d.sy := rfl
@[simp] theorem bump_hm (d : Dev) (idx sub n : Nat) : (bump d idx sub n).hm = d.hm := rfl
@[simp] theorem bump_sn (d : Dev) (idx sub n : Nat) : (bump d idx sub n).sn = d.sn := rfl
@[simp] theorem bump_rc (d : Dev) (idx sub n : Nat) : (bump d idx sub n).rc = d.rc := rfl
@[simp] theorem bump_cv (d : Dev) (idx sub n : Nat) : (bump d idx sub n).cv = d.cv := rfl
@[simp] theorem bump_sec (d : Dev) (idx sub n : Nat) : (bump d idx sub n).sec = d.sec := rfl
@[simp] theorem bump_east (d : Dev) (idx sub n : Nat) : (bump d idx sub n).east = d.east := rfl
@[simp] theorem bump_west (d : Dev) (idx sub n : Nat) : (bump d idx sub n).west = d.west := rfl
@[simp] theorem bump_pw (d : Dev) (idx sub n : Nat) : (bump d idx sub n).pw = d.pw := rfl

@[simp] theorem send_out (d : Dev) (m : OutMsg) : (send d m).out = d.out ++ [m] := rfl
@[simp] theorem setPw_pw (d : Dev) (x : Pw) : (setPw d x).pw = x := rfl
@[simp] theorem setObj_objs (d : Dev) (idx sub v : Nat) : (setObj d idx sub v).objs = tset d.objs (okey idx sub) v := rfl

end Sys2Proof.Machine
end

