-- ==== Sys2Proof/Laws/Tab.lean ====
section
/-! SUPPORT. Laws of sparse tables: a read after a write, and the canonical form every write keeps. -/

namespace Sys2Proof.Machine

variable {α : Type}

@[simp] theorem tfind_tset_same (t : Tab α) (k : Nat) (v : α) : tfind (tset t k v) k = some v := by
  induction t with
  | nil => simp [tset, tfind]
  | cons e t ih =>
    obtain ⟨j, w⟩ := e
    by_cases h : k < j
    · simp [tset, tfind, h]
    · by_cases h2 : k = j
      · simp [tset, tfind, h2]
      · simp [tset, tfind, h, h2, ih, Ne.symm h2]

@[simp] theorem tfind_tset_ne (t : Tab α) (k k' : Nat) (v : α) (h : k ≠ k') : tfind (tset t k v) k' = tfind t k' := by
  induction t with
  | nil => simp [tset, tfind, h]
  | cons e t ih =>
    obtain ⟨j, w⟩ := e
    by_cases h1 : k < j
    · simp [tset, tfind, h1, h]
    · by_cases h2 : k = j
      · subst h2; simp [tset, tfind, h]
      · simp [tset, tfind, h1, h2, ih]

@[simp] theorem tget_tset_same (d : α) (t : Tab α) (k : Nat) (v : α) : tget d (tset t k v) k = v := by simp [tget]

@[simp] theorem tget_tset_ne (d : α) (t : Tab α) (k k' : Nat) (v : α) (h : k ≠ k') :
    tget d (tset t k v) k' = tget d t k' := by simp [tget, h]

/-- Only the last value put under a key counts. -/
@[simp] theorem tset_tset (t : Tab α) (k : Nat) (a b : α) : tset (tset t k a) k b = tset t k b := by
  induction t with
  | nil => simp [tset]
  | cons e t ih =>
    obtain ⟨j, w⟩ := e
    by_cases h : k < j
    · simp [tset, h]
    · by_cases h2 : k = j
      · subst h2; simp [tset]
      · simp [tset, h, h2, ih]

@[simp] theorem tget_nil (d : α) (k : Nat) : tget d ([] : Tab α) k = d := rfl

/-- Keys strictly rising, as a proposition on the list. -/
theorem tabRising_iff (t : Tab α) : tabRising t = true ↔ t.Pairwise (fun a b => a.1 < b.1) := by
  induction t with
  | nil => simp [tabRising]
  | cons e t ih =>
    obtain ⟨j, v⟩ := e
    cases t with
    | nil => simp [tabRising]
    | cons f t =>
      obtain ⟨k, w⟩ := f
      simp only [tabRising, Bool.and_eq_true, decide_eq_true_eq, ih, List.pairwise_cons]
      constructor
      · rintro ⟨hjk, hk, ht⟩
        refine ⟨?_, hk, ht⟩
        intro a ha
        rcases List.mem_cons.mp ha with rfl | ha
        · exact hjk
        · exact lt_trans hjk (hk a ha)
      · rintro ⟨hj, hk, ht⟩
        exact ⟨hj (k, w) (by simp), hk, ht⟩

theorem mem_tset (t : Tab α) (k : Nat) (v : α) (e : Nat × α) (h : e ∈ tset t k v) : e = (k, v) ∨ e ∈ t := by
  induction t with
  | nil => left; simpa [tset] using h
  | cons f t ih =>
    obtain ⟨j, w⟩ := f
    by_cases h1 : k < j
    · simpa [tset, h1] using h
    · by_cases h2 : k = j
      · simp [tset, h2] at h ⊢
        rcases h with h | h
        · left; simpa [h2] using h
        · right; right; exact h
      · simp [tset, h1, h2] at h ⊢
        rcases h with h | h
        · right; left; exact h
        · rcases ih h with h | h
          · left; exact h
          · right; right; exact h

theorem tset_rising (t : Tab α) (k : Nat) (v : α) (h : tabRising t = true) : tabRising (tset t k v) = true := by
  rw [tabRising_iff] at h ⊢
  induction t with
  | nil => simp [tset]
  | cons f t ih =>
    obtain ⟨j, w⟩ := f
    have ht := List.pairwise_cons.mp h
    by_cases h1 : k < j
    · simp only [tset, h1, if_true]
      refine List.pairwise_cons.mpr ⟨?_, h⟩
      intro a ha
      rcases List.mem_cons.mp ha with rfl | ha
      · exact h1
      · exact lt_trans h1 (ht.1 a ha)
    · by_cases h2 : k = j
      · subst h2
        simp only [tset, lt_self_iff_false, if_false, if_true]
        exact List.pairwise_cons.mpr ⟨fun a ha => ht.1 a ha, ht.2⟩
      · simp only [tset, h1, h2, if_false]
        refine List.pairwise_cons.mpr ⟨?_, ih ht.2⟩
        intro a ha
        rcases mem_tset t k v a ha with rfl | ha
        · simp; omega
        · exact ht.1 a ha

theorem mem_tdel (t : Tab α) (k : Nat) (e : Nat × α) (h : e ∈ tdel t k) : e ∈ t := by
  induction t with
  | nil => simp [tdel] at h
  | cons f t ih =>
    obtain ⟨j, w⟩ := f
    by_cases h1 : j = k
    · simp [tdel, h1] at h; simp [h]
    · simp [tdel, h1] at h
      rcases h with h | h
      · simp [h]
      · simp [ih h]

theorem tdel_rising (t : Tab α) (k : Nat) (h : tabRising t = true) : tabRising (tdel t k) = true := by
  rw [tabRising_iff] at h ⊢
  induction t with
  | nil => simp [tdel]
  | cons f t ih =>
    obtain ⟨j, w⟩ := f
    have ht := List.pairwise_cons.mp h
    by_cases h1 : j = k
    · simpa [tdel, h1] using ht.2
    · simp only [tdel, h1, if_false]
      exact List.pairwise_cons.mpr ⟨fun a ha => ht.1 a (mem_tdel t k a ha), ih ht.2⟩

/-- A write in the canonical form keeps it: keys strictly rising, no entry equal to the default. -/
theorem tput_wf [DecidableEq α] (d : α) (t : Tab α) (k : Nat) (v : α) (h : tabWf d t = true) :
    tabWf d (tput d t k v) = true := by
  simp only [tabWf, Bool.and_eq_true, List.all_eq_true, decide_eq_true_eq] at h ⊢
  by_cases hv : v = d
  · simp only [tput, hv, if_true]
    exact ⟨tdel_rising t k h.1, fun e he => h.2 e (mem_tdel t k e he)⟩
  · simp only [tput, hv, if_false]
    refine ⟨tset_rising t k v h.1, fun e he => ?_⟩
    rcases mem_tset t k v e he with rfl | he
    · exact hv
    · exact h.2 e he

/-- A key below every key of a rising table is not in it. -/
theorem tfind_none_of_lt (t : Tab α) (k : Nat) (h : ∀ e ∈ t, k < e.1) : tfind t k = none := by
  induction t with
  | nil => rfl
  | cons f t ih =>
    obtain ⟨j, w⟩ := f
    have hj : k < j := h (j, w) (by simp)
    simp only [tfind, if_neg (Nat.ne_of_gt hj)]
    exact ih (fun e he => h e (List.mem_cons_of_mem _ he))

theorem tfind_tdel_same (t : Tab α) (k : Nat) (h : tabRising t = true) : tfind (tdel t k) k = none := by
  rw [tabRising_iff] at h
  induction t with
  | nil => rfl
  | cons f t ih =>
    obtain ⟨j, w⟩ := f
    have ht := List.pairwise_cons.mp h
    by_cases h1 : j = k
    · subst h1
      simp only [tdel, if_true]
      exact tfind_none_of_lt t j ht.1
    · simp only [tdel, tfind, h1, if_false]
      exact ih ht.2

theorem tfind_tdel_ne (t : Tab α) (k k' : Nat) (h : k ≠ k') : tfind (tdel t k) k' = tfind t k' := by
  induction t with
  | nil => rfl
  | cons f t ih =>
    obtain ⟨j, w⟩ := f
    by_cases h1 : j = k
    · subst h1; simp [tdel, tfind, h]
    · simp [tdel, tfind, h1, ih]

/-- In a rising table, a write in canonical form is read back at its key. -/
theorem tget_tput_same [DecidableEq α] (d : α) (t : Tab α) (k : Nat) (v : α) (h : tabRising t = true) :
    tget d (tput d t k v) k = v := by
  by_cases hv : v = d
  · simp [tput, hv, tget, tfind_tdel_same t k h]
  · simp [tput, hv]

/-- A write in canonical form leaves every other key. -/
theorem tget_tput_ne [DecidableEq α] (d : α) (t : Tab α) (k k' : Nat) (v : α) (h : k ≠ k') :
    tget d (tput d t k v) k' = tget d t k' := by
  by_cases hv : v = d
  · simp [tput, hv, tget, tfind_tdel_ne t k k' h]
  · simp [tput, hv, h]

end Sys2Proof.Machine
end

