-- ==== Sys2Proof/Laws/Ops.lean ====
section
/-! SUPPORT. Laws of the named operations: what each can change, said once. -/

namespace Sys2Proof.Machine

/-! ### Object values -/

@[simp] theorem cfg_setObj_same (d : Dev) (idx sub v : Nat) : cfg (setObj d idx sub v) idx sub = v := by
  simp [cfg]

theorem cfg_setObj_ne (d : Dev) (idx sub v i s : Nat) (h : okey idx sub ≠ okey i s) :
    cfg (setObj d idx sub v) i s = cfg d i s := by
  simp [cfg, h]

/-- A value depends on the object table alone. -/
theorem cfg_congr {d e : Dev} (h : d.objs = e.objs) (idx sub : Nat) : cfg d idx sub = cfg e idx sub := by simp [cfg, h]

/-! ### Events: raising one changes the event log and at most the count of lost records -/

/-- Only the event log and the object table differ. -/
def OnlyEvents (d e : Dev) : Prop := ∃ ev objs, e = { d with ev := ev, objs := objs }

theorem logEvent_only (d : Dev) (code a b : Nat) : OnlyEvents d (logEvent d code a b) := by
  unfold logEvent
  simp only
  split
  · exact ⟨_, d.objs, rfl⟩
  · exact ⟨_, _, rfl⟩

theorem OnlyEvents.trans {a b c : Dev} (h : OnlyEvents a b) (g : OnlyEvents b c) : OnlyEvents a c := by
  obtain ⟨e1, o1, rfl⟩ := h
  obtain ⟨e2, o2, rfl⟩ := g
  exact ⟨e2, o2, rfl⟩

theorem raiseSec_only (d : Dev) (code a b : Nat) : OnlyEvents d (raiseSec d code a b) := by
  unfold raiseSec
  split
  · exact ⟨d.ev, d.objs, rfl⟩
  · exact OnlyEvents.trans ⟨_, d.objs, rfl⟩ (logEvent_only _ _ _ _)

theorem raise_only (d : Dev) (code a b : Nat) : OnlyEvents d (raise d code a b) := by
  unfold raise
  simp only
  split
  · exact logEvent_only _ _ _ _
  · exact (logEvent_only _ _ _ _).trans (raiseSec_only _ _ _ _)

theorem raiseOnce_only (d : Dev) (code k a b : Nat) : OnlyEvents d (raiseOnce d code k a b) := by
  unfold raiseOnce
  split
  · exact ⟨d.ev, d.objs, rfl⟩
  · exact OnlyEvents.trans ⟨_, d.objs, rfl⟩ (raise_only _ _ _ _)

theorem raiseStep_only (d : Dev) (code a b : Nat) : OnlyEvents d (raiseStep d code a b) := raiseOnce_only d code a a b

@[simp] theorem raise_keyed (d : Dev) (c a b : Nat) : (raise d c a b).keyed = d.keyed := by
  obtain ⟨_, _, h⟩ := raise_only d c a b; rw [h]
@[simp] theorem raise_uptime (d : Dev) (c a b : Nat) : (raise d c a b).uptime = d.uptime := by
  obtain ⟨_, _, h⟩ := raise_only d c a b; rw [h]
@[simp] theorem raise_ptp (d : Dev) (c a b : Nat) : (raise d c a b).ptp = d.ptp := by
  obtain ⟨_, _, h⟩ := raise_only d c a b; rw [h]
@[simp] theorem raise_out (d : Dev) (c a b : Nat) : (raise d c a b).out = d.out := by
  obtain ⟨_, _, h⟩ := raise_only d c a b; rw [h]
@[simp] theorem raise_freeCtr (d : Dev) (c a b : Nat) : (raise d c a b).freeCtr = d.freeCtr := by
  obtain ⟨_, _, h⟩ := raise_only d c a b; rw [h]
@[simp] theorem raise_tus (d : Dev) (c a b : Nat) : (raise d c a b).tus = d.tus := by
  obtain ⟨_, _, h⟩ := raise_only d c a b; rw [h]
@[simp] theorem raise_shadows (d : Dev) (c a b : Nat) : (raise d c a b).shadows = d.shadows := by
  obtain ⟨_, _, h⟩ := raise_only d c a b; rw [h]
@[simp] theorem raise_sup (d : Dev) (c a b : Nat) : (raise d c a b).sup = d.sup := by
  obtain ⟨_, _, h⟩ := raise_only d c a b; rw [h]
@[simp] theorem raise_tiles (d : Dev) (c a b : Nat) : (raise d c a b).tiles = d.tiles := by
  obtain ⟨_, _, h⟩ := raise_only d c a b; rw [h]
@[simp] theorem raise_vcs (d : Dev) (c a b : Nat) : (raise d c a b).vcs = d.vcs := by
  obtain ⟨_, _, h⟩ := raise_only d c a b; rw [h]
@[simp] theorem raise_mem (d : Dev) (c a b : Nat) : (raise d c a b).mem = d.mem := by
  obtain ⟨_, _, h⟩ := raise_only d c a b; rw [h]
@[simp] theorem raise_fes (d : Dev) (c a b : Nat) : (raise d c a b).fes = d.fes := by
  obtain ⟨_, _, h⟩ := raise_only d c a b; rw [h]
@[simp] theorem raise_sems (d : Dev) (c a b : Nat) : (raise d c a b).sems = d.sems := by
  obtain ⟨_, _, h⟩ := raise_only d c a b; rw [h]
@[simp] theorem raise_grants (d : Dev) (c a b : Nat) : (raise d c a b).grants = d.grants := by
  obtain ⟨_, _, h⟩ := raise_only d c a b; rw [h]
@[simp] theorem raise_seq (d : Dev) (c a b : Nat) : (raise d c a b).seq = d.seq := by
  obtain ⟨_, _, h⟩ := raise_only d c a b; rw [h]
@[simp] theorem raise_hp (d : Dev) (c a b : Nat) : (raise d c a b).hp = d.hp := by
  obtain ⟨_, _, h⟩ := raise_only d c a b; rw [h]
@[simp] theorem raise_rl (d : Dev) (c a b : Nat) : (raise d c a b).rl = d.rl := by
  obtain ⟨_, _, h⟩ := raise_only d c a b; rw [h]
@[simp] theorem raise_sq (d : Dev) (c a b : Nat) : (raise d c a b).sq = d.sq := by
  obtain ⟨_, _, h⟩ := raise_only d c a b; rw [h]
@[simp] theorem raise_wv (d : Dev) (c a b : Nat) : (raise d c a b).wv = d.wv := by
  obtain ⟨_, _, h⟩ := raise_only d c a b; rw [h]
@[simp] theorem raise_up (d : Dev) (c a b : Nat) : (raise d c a b).up = d.up := by
  obtain ⟨_, _, h⟩ := raise_only d c a b; rw [h]
@[simp] theorem raise_ce (d : Dev) (c a b : Nat) : (raise d c a b).ce = d.ce := by
  obtain ⟨_, _, h⟩ := raise_only d c a b; rw [h]
@[simp] theorem raise_ex (d : Dev) (c a b : Nat) : (raise d c a b).ex = d.ex := by
  obtain ⟨_, _, h⟩ := raise_only d c a b; rw [h]
@[simp] theorem raise_fill (d : Dev) (c a b : Nat) : (raise d c a b).fill = d.fill := by
  obtain ⟨_, _, h⟩ := raise_only d c a b; rw [h]
@[simp] theorem raise_gn (d : Dev) (c a b : Nat) : (raise d c a b).gn = d.gn := by
  obtain ⟨_, _, h⟩ := raise_only d c a b; rw [h]
@[simp] theorem raise_sy (d : Dev) (c a b : Nat) : (raise d c a b).sy = d.sy := by
  obtain ⟨_, _, h⟩ := raise_only d c a b; rw [h]
@[simp] theorem raise_hm (d : Dev) (c a b : Nat) : (raise d c a b).hm = d.hm := by
  obtain ⟨_, _, h⟩ := raise_only d c a b; rw [h]
@[simp] theorem raise_sn (d : Dev) (c a b : Nat) : (raise d c a b).sn = d.sn := by
  obtain ⟨_, _, h⟩ := raise_only d c a b; rw [h]
@[simp] theorem raise_rc (d : Dev) (c a b : Nat) : (raise d c a b).rc = d.rc := by
  obtain ⟨_, _, h⟩ := raise_only d c a b; rw [h]
@[simp] theorem raise_cv (d : Dev) (c a b : Nat) : (raise d c a b).cv = d.cv := by
  obtain ⟨_, _, h⟩ := raise_only d c a b; rw [h]
@[simp] theorem raise_sec (d : Dev) (c a b : Nat) : (raise d c a b).sec = d.sec := by
  obtain ⟨_, _, h⟩ := raise_only d c a b; rw [h]
@[simp] theorem raise_east (d : Dev) (c a b : Nat) : (raise d c a b).east = d.east := by
  obtain ⟨_, _, h⟩ := raise_only d c a b; rw [h]
@[simp] theorem raise_west (d : Dev) (c a b : Nat) : (raise d c a b).west = d.west := by
  obtain ⟨_, _, h⟩ := raise_only d c a b; rw [h]
@[simp] theorem raise_pw (d : Dev) (c a b : Nat) : (raise d c a b).pw = d.pw := by
  obtain ⟨_, _, h⟩ := raise_only d c a b; rw [h]

@[simp] theorem raiseSec_keyed (d : Dev) (c a b : Nat) : (raiseSec d c a b).keyed = d.keyed := by
  obtain ⟨_, _, h⟩ := raiseSec_only d c a b; rw [h]
@[simp] theorem raiseSec_uptime (d : Dev) (c a b : Nat) : (raiseSec d c a b).uptime = d.uptime := by
  obtain ⟨_, _, h⟩ := raiseSec_only d c a b; rw [h]
@[simp] theorem raiseSec_ptp (d : Dev) (c a b : Nat) : (raiseSec d c a b).ptp = d.ptp := by
  obtain ⟨_, _, h⟩ := raiseSec_only d c a b; rw [h]
@[simp] theorem raiseSec_out (d : Dev) (c a b : Nat) : (raiseSec d c a b).out = d.out := by
  obtain ⟨_, _, h⟩ := raiseSec_only d c a b; rw [h]
@[simp] theorem raiseSec_freeCtr (d : Dev) (c a b : Nat) : (raiseSec d c a b).freeCtr = d.freeCtr := by
  obtain ⟨_, _, h⟩ := raiseSec_only d c a b; rw [h]
@[simp] theorem raiseSec_tus (d : Dev) (c a b : Nat) : (raiseSec d c a b).tus = d.tus := by
  obtain ⟨_, _, h⟩ := raiseSec_only d c a b; rw [h]
@[simp] theorem raiseSec_shadows (d : Dev) (c a b : Nat) : (raiseSec d c a b).shadows = d.shadows := by
  obtain ⟨_, _, h⟩ := raiseSec_only d c a b; rw [h]
@[simp] theorem raiseSec_sup (d : Dev) (c a b : Nat) : (raiseSec d c a b).sup = d.sup := by
  obtain ⟨_, _, h⟩ := raiseSec_only d c a b; rw [h]
@[simp] theorem raiseSec_tiles (d : Dev) (c a b : Nat) : (raiseSec d c a b).tiles = d.tiles := by
  obtain ⟨_, _, h⟩ := raiseSec_only d c a b; rw [h]
@[simp] theorem raiseSec_vcs (d : Dev) (c a b : Nat) : (raiseSec d c a b).vcs = d.vcs := by
  obtain ⟨_, _, h⟩ := raiseSec_only d c a b; rw [h]
@[simp] theorem raiseSec_mem (d : Dev) (c a b : Nat) : (raiseSec d c a b).mem = d.mem := by
  obtain ⟨_, _, h⟩ := raiseSec_only d c a b; rw [h]
@[simp] theorem raiseSec_fes (d : Dev) (c a b : Nat) : (raiseSec d c a b).fes = d.fes := by
  obtain ⟨_, _, h⟩ := raiseSec_only d c a b; rw [h]
@[simp] theorem raiseSec_sems (d : Dev) (c a b : Nat) : (raiseSec d c a b).sems = d.sems := by
  obtain ⟨_, _, h⟩ := raiseSec_only d c a b; rw [h]
@[simp] theorem raiseSec_grants (d : Dev) (c a b : Nat) : (raiseSec d c a b).grants = d.grants := by
  obtain ⟨_, _, h⟩ := raiseSec_only d c a b; rw [h]
@[simp] theorem raiseSec_seq (d : Dev) (c a b : Nat) : (raiseSec d c a b).seq = d.seq := by
  obtain ⟨_, _, h⟩ := raiseSec_only d c a b; rw [h]
@[simp] theorem raiseSec_hp (d : Dev) (c a b : Nat) : (raiseSec d c a b).hp = d.hp := by
  obtain ⟨_, _, h⟩ := raiseSec_only d c a b; rw [h]
@[simp] theorem raiseSec_rl (d : Dev) (c a b : Nat) : (raiseSec d c a b).rl = d.rl := by
  obtain ⟨_, _, h⟩ := raiseSec_only d c a b; rw [h]
@[simp] theorem raiseSec_sq (d : Dev) (c a b : Nat) : (raiseSec d c a b).sq = d.sq := by
  obtain ⟨_, _, h⟩ := raiseSec_only d c a b; rw [h]
@[simp] theorem raiseSec_wv (d : Dev) (c a b : Nat) : (raiseSec d c a b).wv = d.wv := by
  obtain ⟨_, _, h⟩ := raiseSec_only d c a b; rw [h]
@[simp] theorem raiseSec_up (d : Dev) (c a b : Nat) : (raiseSec d c a b).up = d.up := by
  obtain ⟨_, _, h⟩ := raiseSec_only d c a b; rw [h]
@[simp] theorem raiseSec_ce (d : Dev) (c a b : Nat) : (raiseSec d c a b).ce = d.ce := by
  obtain ⟨_, _, h⟩ := raiseSec_only d c a b; rw [h]
@[simp] theorem raiseSec_ex (d : Dev) (c a b : Nat) : (raiseSec d c a b).ex = d.ex := by
  obtain ⟨_, _, h⟩ := raiseSec_only d c a b; rw [h]
@[simp] theorem raiseSec_fill (d : Dev) (c a b : Nat) : (raiseSec d c a b).fill = d.fill := by
  obtain ⟨_, _, h⟩ := raiseSec_only d c a b; rw [h]
@[simp] theorem raiseSec_gn (d : Dev) (c a b : Nat) : (raiseSec d c a b).gn = d.gn := by
  obtain ⟨_, _, h⟩ := raiseSec_only d c a b; rw [h]
@[simp] theorem raiseSec_sy (d : Dev) (c a b : Nat) : (raiseSec d c a b).sy = d.sy := by
  obtain ⟨_, _, h⟩ := raiseSec_only d c a b; rw [h]
@[simp] theorem raiseSec_hm (d : Dev) (c a b : Nat) : (raiseSec d c a b).hm = d.hm := by
  obtain ⟨_, _, h⟩ := raiseSec_only d c a b; rw [h]
@[simp] theorem raiseSec_sn (d : Dev) (c a b : Nat) : (raiseSec d c a b).sn = d.sn := by
  obtain ⟨_, _, h⟩ := raiseSec_only d c a b; rw [h]
@[simp] theorem raiseSec_rc (d : Dev) (c a b : Nat) : (raiseSec d c a b).rc = d.rc := by
  obtain ⟨_, _, h⟩ := raiseSec_only d c a b; rw [h]
@[simp] theorem raiseSec_cv (d : Dev) (c a b : Nat) : (raiseSec d c a b).cv = d.cv := by
  obtain ⟨_, _, h⟩ := raiseSec_only d c a b; rw [h]
@[simp] theorem raiseSec_sec (d : Dev) (c a b : Nat) : (raiseSec d c a b).sec = d.sec := by
  obtain ⟨_, _, h⟩ := raiseSec_only d c a b; rw [h]
@[simp] theorem raiseSec_east (d : Dev) (c a b : Nat) : (raiseSec d c a b).east = d.east := by
  obtain ⟨_, _, h⟩ := raiseSec_only d c a b; rw [h]
@[simp] theorem raiseSec_west (d : Dev) (c a b : Nat) : (raiseSec d c a b).west = d.west := by
  obtain ⟨_, _, h⟩ := raiseSec_only d c a b; rw [h]
@[simp] theorem raiseSec_pw (d : Dev) (c a b : Nat) : (raiseSec d c a b).pw = d.pw := by
  obtain ⟨_, _, h⟩ := raiseSec_only d c a b; rw [h]

@[simp] theorem raiseStep_keyed (d : Dev) (c a b : Nat) : (raiseStep d c a b).keyed = d.keyed := by
  obtain ⟨_, _, h⟩ := raiseStep_only d c a b; rw [h]
@[simp] theorem raiseStep_uptime (d : Dev) (c a b : Nat) : (raiseStep d c a b).uptime = d.uptime := by
  obtain ⟨_, _, h⟩ := raiseStep_only d c a b; rw [h]
@[simp] theorem raiseStep_ptp (d : Dev) (c a b : Nat) : (raiseStep d c a b).ptp = d.ptp := by
  obtain ⟨_, _, h⟩ := raiseStep_only d c a b; rw [h]
@[simp] theorem raiseStep_out (d : Dev) (c a b : Nat) : (raiseStep d c a b).out = d.out := by
  obtain ⟨_, _, h⟩ := raiseStep_only d c a b; rw [h]
@[simp] theorem raiseStep_freeCtr (d : Dev) (c a b : Nat) : (raiseStep d c a b).freeCtr = d.freeCtr := by
  obtain ⟨_, _, h⟩ := raiseStep_only d c a b; rw [h]
@[simp] theorem raiseStep_tus (d : Dev) (c a b : Nat) : (raiseStep d c a b).tus = d.tus := by
  obtain ⟨_, _, h⟩ := raiseStep_only d c a b; rw [h]
@[simp] theorem raiseStep_shadows (d : Dev) (c a b : Nat) : (raiseStep d c a b).shadows = d.shadows := by
  obtain ⟨_, _, h⟩ := raiseStep_only d c a b; rw [h]
@[simp] theorem raiseStep_sup (d : Dev) (c a b : Nat) : (raiseStep d c a b).sup = d.sup := by
  obtain ⟨_, _, h⟩ := raiseStep_only d c a b; rw [h]
@[simp] theorem raiseStep_tiles (d : Dev) (c a b : Nat) : (raiseStep d c a b).tiles = d.tiles := by
  obtain ⟨_, _, h⟩ := raiseStep_only d c a b; rw [h]
@[simp] theorem raiseStep_vcs (d : Dev) (c a b : Nat) : (raiseStep d c a b).vcs = d.vcs := by
  obtain ⟨_, _, h⟩ := raiseStep_only d c a b; rw [h]
@[simp] theorem raiseStep_mem (d : Dev) (c a b : Nat) : (raiseStep d c a b).mem = d.mem := by
  obtain ⟨_, _, h⟩ := raiseStep_only d c a b; rw [h]
@[simp] theorem raiseStep_fes (d : Dev) (c a b : Nat) : (raiseStep d c a b).fes = d.fes := by
  obtain ⟨_, _, h⟩ := raiseStep_only d c a b; rw [h]
@[simp] theorem raiseStep_sems (d : Dev) (c a b : Nat) : (raiseStep d c a b).sems = d.sems := by
  obtain ⟨_, _, h⟩ := raiseStep_only d c a b; rw [h]
@[simp] theorem raiseStep_grants (d : Dev) (c a b : Nat) : (raiseStep d c a b).grants = d.grants := by
  obtain ⟨_, _, h⟩ := raiseStep_only d c a b; rw [h]
@[simp] theorem raiseStep_seq (d : Dev) (c a b : Nat) : (raiseStep d c a b).seq = d.seq := by
  obtain ⟨_, _, h⟩ := raiseStep_only d c a b; rw [h]
@[simp] theorem raiseStep_hp (d : Dev) (c a b : Nat) : (raiseStep d c a b).hp = d.hp := by
  obtain ⟨_, _, h⟩ := raiseStep_only d c a b; rw [h]
@[simp] theorem raiseStep_rl (d : Dev) (c a b : Nat) : (raiseStep d c a b).rl = d.rl := by
  obtain ⟨_, _, h⟩ := raiseStep_only d c a b; rw [h]
@[simp] theorem raiseStep_sq (d : Dev) (c a b : Nat) : (raiseStep d c a b).sq = d.sq := by
  obtain ⟨_, _, h⟩ := raiseStep_only d c a b; rw [h]
@[simp] theorem raiseStep_wv (d : Dev) (c a b : Nat) : (raiseStep d c a b).wv = d.wv := by
  obtain ⟨_, _, h⟩ := raiseStep_only d c a b; rw [h]
@[simp] theorem raiseStep_up (d : Dev) (c a b : Nat) : (raiseStep d c a b).up = d.up := by
  obtain ⟨_, _, h⟩ := raiseStep_only d c a b; rw [h]
@[simp] theorem raiseStep_ce (d : Dev) (c a b : Nat) : (raiseStep d c a b).ce = d.ce := by
  obtain ⟨_, _, h⟩ := raiseStep_only d c a b; rw [h]
@[simp] theorem raiseStep_ex (d : Dev) (c a b : Nat) : (raiseStep d c a b).ex = d.ex := by
  obtain ⟨_, _, h⟩ := raiseStep_only d c a b; rw [h]
@[simp] theorem raiseStep_fill (d : Dev) (c a b : Nat) : (raiseStep d c a b).fill = d.fill := by
  obtain ⟨_, _, h⟩ := raiseStep_only d c a b; rw [h]
@[simp] theorem raiseStep_gn (d : Dev) (c a b : Nat) : (raiseStep d c a b).gn = d.gn := by
  obtain ⟨_, _, h⟩ := raiseStep_only d c a b; rw [h]
@[simp] theorem raiseStep_sy (d : Dev) (c a b : Nat) : (raiseStep d c a b).sy = d.sy := by
  obtain ⟨_, _, h⟩ := raiseStep_only d c a b; rw [h]
@[simp] theorem raiseStep_hm (d : Dev) (c a b : Nat) : (raiseStep d c a b).hm = d.hm := by
  obtain ⟨_, _, h⟩ := raiseStep_only d c a b; rw [h]
@[simp] theorem raiseStep_sn (d : Dev) (c a b : Nat) : (raiseStep d c a b).sn = d.sn := by
  obtain ⟨_, _, h⟩ := raiseStep_only d c a b; rw [h]
@[simp] theorem raiseStep_rc (d : Dev) (c a b : Nat) : (raiseStep d c a b).rc = d.rc := by
  obtain ⟨_, _, h⟩ := raiseStep_only d c a b; rw [h]
@[simp] theorem raiseStep_cv (d : Dev) (c a b : Nat) : (raiseStep d c a b).cv = d.cv := by
  obtain ⟨_, _, h⟩ := raiseStep_only d c a b; rw [h]
@[simp] theorem raiseStep_sec (d : Dev) (c a b : Nat) : (raiseStep d c a b).sec = d.sec := by
  obtain ⟨_, _, h⟩ := raiseStep_only d c a b; rw [h]
@[simp] theorem raiseStep_east (d : Dev) (c a b : Nat) : (raiseStep d c a b).east = d.east := by
  obtain ⟨_, _, h⟩ := raiseStep_only d c a b; rw [h]
@[simp] theorem raiseStep_west (d : Dev) (c a b : Nat) : (raiseStep d c a b).west = d.west := by
  obtain ⟨_, _, h⟩ := raiseStep_only d c a b; rw [h]
@[simp] theorem raiseStep_pw (d : Dev) (c a b : Nat) : (raiseStep d c a b).pw = d.pw := by
  obtain ⟨_, _, h⟩ := raiseStep_only d c a b; rw [h]

/-! ### Reads of one unit after a write of another -/

@[simp] theorem cfg_send (d : Dev) (m : OutMsg) (i j : Nat) : cfg (send d m) i j = cfg d i j := rfl
@[simp] theorem cfg_setTu (d : Dev) (t : Nat) (u : Tu) (i j : Nat) : cfg (setTu d t u) i j = cfg d i j := rfl
@[simp] theorem cfg_setShadow (d : Dev) (c : Nat) (u : Shadow) (i j : Nat) : cfg (setShadow d c u) i j = cfg d i j := rfl
@[simp] theorem cfg_setFe (d : Dev) (f : Nat) (e : Fe) (i j : Nat) : cfg (setFe d f e) i j = cfg d i j := rfl
@[simp] theorem cfg_setCtx (d : Dev) (c : Nat) (x : Ctx) (i j : Nat) : cfg (setCtx d c x) i j = cfg d i j := rfl
@[simp] theorem cfg_setTask (d : Dev) (t : Task) (i j : Nat) : cfg (setTask d t) i j = cfg d i j := rfl
@[simp] theorem cfg_setSem (d : Dev) (k : Nat) (x : Sem) (i j : Nat) : cfg (setSem d k x) i j = cfg d i j := rfl
@[simp] theorem cfg_setPw (d : Dev) (x : Pw) (i j : Nat) : cfg (setPw d x) i j = cfg d i j := rfl

@[simp] theorem tuAt_setObj (d : Dev) (idx sub v : Nat) (i : Nat) : tuAt (setObj d idx sub v) i = tuAt d i := rfl
@[simp] theorem tuAt_send (d : Dev) (m : OutMsg) (i : Nat) : tuAt (send d m) i = tuAt d i := rfl
@[simp] theorem tuAt_setShadow (d : Dev) (c : Nat) (u : Shadow) (i : Nat) : tuAt (setShadow d c u) i = tuAt d i := rfl
@[simp] theorem tuAt_setFe (d : Dev) (f : Nat) (e : Fe) (i : Nat) : tuAt (setFe d f e) i = tuAt d i := rfl
@[simp] theorem tuAt_setCtx (d : Dev) (c : Nat) (x : Ctx) (i : Nat) : tuAt (setCtx d c x) i = tuAt d i := rfl
@[simp] theorem tuAt_setTask (d : Dev) (t : Task) (i : Nat) : tuAt (setTask d t) i = tuAt d i := rfl
@[simp] theorem tuAt_setSem (d : Dev) (k : Nat) (x : Sem) (i : Nat) : tuAt (setSem d k x) i = tuAt d i := rfl
@[simp] theorem tuAt_setPw (d : Dev) (x : Pw) (i : Nat) : tuAt (setPw d x) i = tuAt d i := rfl
@[simp] theorem tuAt_bump (d : Dev) (idx sub n : Nat) (i : Nat) : tuAt (bump d idx sub n) i = tuAt d i := rfl
@[simp] theorem tuAt_raise (d : Dev) (c a b : Nat) (i : Nat) : tuAt (raise d c a b) i = tuAt d i := by simp [tuAt]
@[simp] theorem tuAt_raiseSec (d : Dev) (c a b : Nat) (i : Nat) : tuAt (raiseSec d c a b) i = tuAt d i := by simp [tuAt]
@[simp] theorem tuAt_raiseStep (d : Dev) (c a b : Nat) (i : Nat) : tuAt (raiseStep d c a b) i = tuAt d i := by simp [tuAt]

@[simp] theorem shadowAt_setObj (d : Dev) (idx sub v : Nat) (i : Nat) : shadowAt (setObj d idx sub v) i = shadowAt d i := rfl
@[simp] theorem shadowAt_send (d : Dev) (m : OutMsg) (i : Nat) : shadowAt (send d m) i = shadowAt d i := rfl
@[simp] theorem shadowAt_setTu (d : Dev) (t : Nat) (u : Tu) (i : Nat) : shadowAt (setTu d t u) i = shadowAt d i := rfl
@[simp] theorem shadowAt_setFe (d : Dev) (f : Nat) (e : Fe) (i : Nat) : shadowAt (setFe d f e) i = shadowAt d i := rfl
@[simp] theorem shadowAt_setCtx (d : Dev) (c : Nat) (x : Ctx) (i : Nat) : shadowAt (setCtx d c x) i = shadowAt d i := rfl
@[simp] theorem shadowAt_setTask (d : Dev) (t : Task) (i : Nat) : shadowAt (setTask d t) i = shadowAt d i := rfl
@[simp] theorem shadowAt_setSem (d : Dev) (k : Nat) (x : Sem) (i : Nat) : shadowAt (setSem d k x) i = shadowAt d i := rfl
@[simp] theorem shadowAt_setPw (d : Dev) (x : Pw) (i : Nat) : shadowAt (setPw d x) i = shadowAt d i := rfl
@[simp] theorem shadowAt_bump (d : Dev) (idx sub n : Nat) (i : Nat) : shadowAt (bump d idx sub n) i = shadowAt d i := rfl
@[simp] theorem shadowAt_raise (d : Dev) (c a b : Nat) (i : Nat) : shadowAt (raise d c a b) i = shadowAt d i := by simp [shadowAt]
@[simp] theorem shadowAt_raiseSec (d : Dev) (c a b : Nat) (i : Nat) : shadowAt (raiseSec d c a b) i = shadowAt d i := by simp [shadowAt]
@[simp] theorem shadowAt_raiseStep (d : Dev) (c a b : Nat) (i : Nat) : shadowAt (raiseStep d c a b) i = shadowAt d i := by simp [shadowAt]

@[simp] theorem feAt_setObj (d : Dev) (idx sub v : Nat) (i : Nat) : feAt (setObj d idx sub v) i = feAt d i := rfl
@[simp] theorem feAt_send (d : Dev) (m : OutMsg) (i : Nat) : feAt (send d m) i = feAt d i := rfl
@[simp] theorem feAt_setTu (d : Dev) (t : Nat) (u : Tu) (i : Nat) : feAt (setTu d t u) i = feAt d i := rfl
@[simp] theorem feAt_setShadow (d : Dev) (c : Nat) (u : Shadow) (i : Nat) : feAt (setShadow d c u) i = feAt d i := rfl
@[simp] theorem feAt_setCtx (d : Dev) (c : Nat) (x : Ctx) (i : Nat) : feAt (setCtx d c x) i = feAt d i := rfl
@[simp] theorem feAt_setTask (d : Dev) (t : Task) (i : Nat) : feAt (setTask d t) i = feAt d i := rfl
@[simp] theorem feAt_setSem (d : Dev) (k : Nat) (x : Sem) (i : Nat) : feAt (setSem d k x) i = feAt d i := rfl
@[simp] theorem feAt_setPw (d : Dev) (x : Pw) (i : Nat) : feAt (setPw d x) i = feAt d i := rfl
@[simp] theorem feAt_bump (d : Dev) (idx sub n : Nat) (i : Nat) : feAt (bump d idx sub n) i = feAt d i := rfl
@[simp] theorem feAt_raise (d : Dev) (c a b : Nat) (i : Nat) : feAt (raise d c a b) i = feAt d i := by simp [feAt]
@[simp] theorem feAt_raiseSec (d : Dev) (c a b : Nat) (i : Nat) : feAt (raiseSec d c a b) i = feAt d i := by simp [feAt]
@[simp] theorem feAt_raiseStep (d : Dev) (c a b : Nat) (i : Nat) : feAt (raiseStep d c a b) i = feAt d i := by simp [feAt]

@[simp] theorem ctxAt_setObj (d : Dev) (idx sub v : Nat) (i : Nat) : ctxAt (setObj d idx sub v) i = ctxAt d i := rfl
@[simp] theorem ctxAt_send (d : Dev) (m : OutMsg) (i : Nat) : ctxAt (send d m) i = ctxAt d i := rfl
@[simp] theorem ctxAt_setTu (d : Dev) (t : Nat) (u : Tu) (i : Nat) : ctxAt (setTu d t u) i = ctxAt d i := rfl
@[simp] theorem ctxAt_setShadow (d : Dev) (c : Nat) (u : Shadow) (i : Nat) : ctxAt (setShadow d c u) i = ctxAt d i := rfl
@[simp] theorem ctxAt_setFe (d : Dev) (f : Nat) (e : Fe) (i : Nat) : ctxAt (setFe d f e) i = ctxAt d i := rfl
@[simp] theorem ctxAt_setSem (d : Dev) (k : Nat) (x : Sem) (i : Nat) : ctxAt (setSem d k x) i = ctxAt d i := rfl
@[simp] theorem ctxAt_setPw (d : Dev) (x : Pw) (i : Nat) : ctxAt (setPw d x) i = ctxAt d i := rfl
@[simp] theorem ctxAt_bump (d : Dev) (idx sub n : Nat) (i : Nat) : ctxAt (bump d idx sub n) i = ctxAt d i := rfl
@[simp] theorem ctxAt_raise (d : Dev) (c a b : Nat) (i : Nat) : ctxAt (raise d c a b) i = ctxAt d i := by simp [ctxAt]
@[simp] theorem ctxAt_raiseSec (d : Dev) (c a b : Nat) (i : Nat) : ctxAt (raiseSec d c a b) i = ctxAt d i := by simp [ctxAt]
@[simp] theorem ctxAt_raiseStep (d : Dev) (c a b : Nat) (i : Nat) : ctxAt (raiseStep d c a b) i = ctxAt d i := by simp [ctxAt]

@[simp] theorem taskAt_setObj (d : Dev) (idx sub v : Nat) (i : Nat) : taskAt (setObj d idx sub v) i = taskAt d i := rfl
@[simp] theorem taskAt_send (d : Dev) (m : OutMsg) (i : Nat) : taskAt (send d m) i = taskAt d i := rfl
@[simp] theorem taskAt_setTu (d : Dev) (t : Nat) (u : Tu) (i : Nat) : taskAt (setTu d t u) i = taskAt d i := rfl
@[simp] theorem taskAt_setShadow (d : Dev) (c : Nat) (u : Shadow) (i : Nat) : taskAt (setShadow d c u) i = taskAt d i := rfl
@[simp] theorem taskAt_setFe (d : Dev) (f : Nat) (e : Fe) (i : Nat) : taskAt (setFe d f e) i = taskAt d i := rfl
@[simp] theorem taskAt_setSem (d : Dev) (k : Nat) (x : Sem) (i : Nat) : taskAt (setSem d k x) i = taskAt d i := rfl
@[simp] theorem taskAt_setPw (d : Dev) (x : Pw) (i : Nat) : taskAt (setPw d x) i = taskAt d i := rfl
@[simp] theorem taskAt_bump (d : Dev) (idx sub n : Nat) (i : Nat) : taskAt (bump d idx sub n) i = taskAt d i := rfl
@[simp] theorem taskAt_raise (d : Dev) (c a b : Nat) (i : Nat) : taskAt (raise d c a b) i = taskAt d i := by simp [taskAt]
@[simp] theorem taskAt_raiseSec (d : Dev) (c a b : Nat) (i : Nat) : taskAt (raiseSec d c a b) i = taskAt d i := by simp [taskAt]
@[simp] theorem taskAt_raiseStep (d : Dev) (c a b : Nat) (i : Nat) : taskAt (raiseStep d c a b) i = taskAt d i := by simp [taskAt]

@[simp] theorem semAt_setObj (d : Dev) (idx sub v : Nat) (i : Nat) : semAt (setObj d idx sub v) i = semAt d i := rfl
@[simp] theorem semAt_send (d : Dev) (m : OutMsg) (i : Nat) : semAt (send d m) i = semAt d i := rfl
@[simp] theorem semAt_setTu (d : Dev) (t : Nat) (u : Tu) (i : Nat) : semAt (setTu d t u) i = semAt d i := rfl
@[simp] theorem semAt_setShadow (d : Dev) (c : Nat) (u : Shadow) (i : Nat) : semAt (setShadow d c u) i = semAt d i := rfl
@[simp] theorem semAt_setFe (d : Dev) (f : Nat) (e : Fe) (i : Nat) : semAt (setFe d f e) i = semAt d i := rfl
@[simp] theorem semAt_setCtx (d : Dev) (c : Nat) (x : Ctx) (i : Nat) : semAt (setCtx d c x) i = semAt d i := rfl
@[simp] theorem semAt_setTask (d : Dev) (t : Task) (i : Nat) : semAt (setTask d t) i = semAt d i := rfl
@[simp] theorem semAt_setPw (d : Dev) (x : Pw) (i : Nat) : semAt (setPw d x) i = semAt d i := rfl
@[simp] theorem semAt_bump (d : Dev) (idx sub n : Nat) (i : Nat) : semAt (bump d idx sub n) i = semAt d i := rfl
@[simp] theorem semAt_raise (d : Dev) (c a b : Nat) (i : Nat) : semAt (raise d c a b) i = semAt d i := by simp [semAt]
@[simp] theorem semAt_raiseSec (d : Dev) (c a b : Nat) (i : Nat) : semAt (raiseSec d c a b) i = semAt d i := by simp [semAt]
@[simp] theorem semAt_raiseStep (d : Dev) (c a b : Nat) (i : Nat) : semAt (raiseStep d c a b) i = semAt d i := by simp [semAt]

@[simp] theorem tuAt_setTu_same (d : Dev) (k : Nat) (x : Tu) : tuAt (setTu d k x) k = x := by simp [tuAt, setTu]
theorem tuAt_setTu_ne (d : Dev) (k i : Nat) (x : Tu) (h : k ≠ i) : tuAt (setTu d k x) i = tuAt d i := by simp [tuAt, setTu, h]
@[simp] theorem shadowAt_setShadow_same (d : Dev) (k : Nat) (x : Shadow) : shadowAt (setShadow d k x) k = x := by simp [shadowAt, setShadow]
theorem shadowAt_setShadow_ne (d : Dev) (k i : Nat) (x : Shadow) (h : k ≠ i) : shadowAt (setShadow d k x) i = shadowAt d i := by simp [shadowAt, setShadow, h]
@[simp] theorem feAt_setFe_same (d : Dev) (k : Nat) (x : Fe) : feAt (setFe d k x) k = x := by simp [feAt, setFe]
theorem feAt_setFe_ne (d : Dev) (k i : Nat) (x : Fe) (h : k ≠ i) : feAt (setFe d k x) i = feAt d i := by simp [feAt, setFe, h]
@[simp] theorem ctxAt_setCtx_same (d : Dev) (k : Nat) (x : Ctx) : ctxAt (setCtx d k x) k = x := by simp [ctxAt, setCtx]
theorem ctxAt_setCtx_ne (d : Dev) (k i : Nat) (x : Ctx) (h : k ≠ i) : ctxAt (setCtx d k x) i = ctxAt d i := by simp [ctxAt, setCtx, h]
@[simp] theorem semAt_setSem_same (d : Dev) (k : Nat) (x : Sem) : semAt (setSem d k x) k = x := by simp [semAt, setSem]
theorem semAt_setSem_ne (d : Dev) (k i : Nat) (x : Sem) (h : k ≠ i) : semAt (setSem d k x) i = semAt d i := by simp [semAt, setSem, h]


/-! ### What is in the log after an event is raised -/

theorem logEvent_ev (d : Dev) (c a b : Nat) : (logEvent d c a b).ev = { d.ev with
    log := pushLog d.ev.log (newRec d c a b), eseq := trunc 32 (d.ev.eseq + 1),
    counts := tset d.ev.counts c (tget 0 d.ev.counts c + 1) } := by
  unfold logEvent
  simp only
  split <;> rfl

theorem logEvent_log (d : Dev) (c a b : Nat) :
    ∃ l r, (logEvent d c a b).ev.log = l ++ [r] ∧ r.code = c ∧ r.arg0 = trunc 48 a ∧ r.arg1 = trunc 64 b ∧
      (∀ l' x, d.ev.log = l' ++ [x] → x ∈ l) := by
  rw [logEvent_ev]
  simp only [pushLog]
  split
  · rename_i hl
    refine ⟨_, newRec d c a b, rfl, rfl, rfl, rfl, ?_⟩
    intro l' x h
    cases l' with
    | nil => simp [h] at hl
    | cons z zs => rw [h]; simp
  · exact ⟨_, newRec d c a b, rfl, rfl, rfl, rfl, fun l' x h => by rw [h]; simp⟩

theorem logEvent_keeps (d : Dev) (c a b : Nat) (l : List EvRec) (r : EvRec) (h : d.ev.log = l ++ [r]) :
    r ∈ (logEvent d c a b).ev.log := by
  obtain ⟨l2, r2, h2, _, _, _, hk⟩ := logEvent_log d c a b
  rw [h2]
  exact List.mem_append_left _ (hk l r h)

theorem raiseSec_keeps (d : Dev) (c a b : Nat) (l : List EvRec) (r : EvRec) (h : d.ev.log = l ++ [r]) :
    r ∈ (raiseSec d c a b).ev.log := by
  unfold raiseSec
  split
  · rw [h]; simp
  · exact logEvent_keeps _ _ _ _ l r h

theorem raise_cases (d : Dev) (c a b : Nat) :
    raise d c a b = logEvent d c a b ∨ raise d c a b = raiseSec (logEvent d c a b) 0x4102 0 0 := by
  unfold raise
  simp only
  split
  · exact .inl rfl
  · exact .inr rfl

/-- Raising an event puts its record in the log. -/
theorem raise_logged (d : Dev) (c a b : Nat) : Logged (raise d c a b) c a b := by
  obtain ⟨l, r, h, hc, ha, hb, _⟩ := logEvent_log d c a b
  have hr : r ∈ (logEvent d c a b).ev.log := by rw [h]; simp
  rcases raise_cases d c a b with e | e
  · exact ⟨r, by rw [e]; exact hr, hc, ha, hb⟩
  · exact ⟨r, by rw [e]; exact raiseSec_keeps _ _ _ _ l r h, hc, ha, hb⟩

theorem Logged_congr {d e : Dev} (h : d.ev = e.ev) (c a b : Nat) : Logged d c a b ↔ Logged e c a b := by
  unfold Logged; rw [h]

@[simp] theorem Logged_send (d : Dev) (m : OutMsg) (c a b : Nat) : Logged (send d m) c a b ↔ Logged d c a b := Iff.rfl

@[simp] theorem Logged_setObj (d : Dev) (i s v c a b : Nat) : Logged (setObj d i s v) c a b ↔ Logged d c a b := Iff.rfl

theorem logEvent_cfg (d : Dev) (c a b i s : Nat) (h : okey 0x1124 0 ≠ okey i s) :
    cfg (logEvent d c a b) i s = cfg d i s := by
  unfold logEvent
  simp only
  split
  · simp only [cfg]
  · unfold bump
    rw [cfg_setObj_ne _ _ _ _ _ _ h]
    simp only [cfg]

theorem raiseSec_cfg (d : Dev) (c a b i s : Nat) (h : okey 0x1124 0 ≠ okey i s) :
    cfg (raiseSec d c a b) i s = cfg d i s := by
  unfold raiseSec
  split
  · rfl
  · exact (logEvent_cfg _ _ _ _ _ _ h).trans (cfg_congr rfl i s)

/-- Raising an event changes no object but the count of lost records. -/
theorem raise_cfg (d : Dev) (c a b i s : Nat) (h : okey 0x1124 0 ≠ okey i s) :
    cfg (raise d c a b) i s = cfg d i s := by
  unfold raise
  simp only
  split
  · exact logEvent_cfg _ _ _ _ _ _ h
  · exact (raiseSec_cfg _ _ _ _ _ _ h).trans (logEvent_cfg _ _ _ _ _ _ h)

theorem raiseOnce_cfg (d : Dev) (c k a b i s : Nat) (h : okey 0x1124 0 ≠ okey i s) :
    cfg (raiseOnce d c k a b) i s = cfg d i s := by
  unfold raiseOnce
  split
  · rfl
  · exact (raise_cfg _ _ _ _ _ _ h).trans (cfg_congr rfl i s)

theorem raiseStep_cfg (d : Dev) (c a b i s : Nat) (h : okey 0x1124 0 ≠ okey i s) :
    cfg (raiseStep d c a b) i s = cfg d i s := raiseOnce_cfg d c a a b i s h

theorem bump_cfg_ne (d : Dev) (idx sub n i s : Nat) (h : okey idx sub ≠ okey i s) :
    cfg (bump d idx sub n) i s = cfg d i s := cfg_setObj_ne _ _ _ _ _ _ h

theorem okey_inj {i s i' s' : Nat} (h : s < 256) (h' : s' < 256) : okey i s = okey i' s' ↔ i = i' ∧ s = s' := by
  unfold okey; omega

/-- An object value is left by a write of an object of another index. -/
theorem cfg_setObj_idx (d : Dev) (j k v i s : Nat) (hk : k < 256) (hs : s < 256) (h : j ≠ i) :
    cfg (setObj d j k v) i s = cfg d i s := cfg_setObj_ne _ _ _ _ _ _ (fun e => h ((okey_inj hk hs).1 e).1)

theorem cfg_bump_idx (d : Dev) (j k v i s : Nat) (hk : k < 256) (hs : s < 256) (h : j ≠ i) :
    cfg (bump d j k v) i s = cfg d i s := cfg_setObj_idx _ _ _ _ _ _ hk hs h

theorem cfg_raise_idx (d : Dev) (c a b i s : Nat) (hs : s < 256) (h : i ≠ 0x1124) :
    cfg (raise d c a b) i s = cfg d i s :=
  raise_cfg _ _ _ _ _ _ (fun e => h ((okey_inj (by omega) hs).1 e).1.symm)

/-! ### When the units act -/

theorem acting_iff (s : State) :
    Acting s ↔ s.dev.pw.failed = false ∧ s.dev.pw.resetLow = false ∧ s.dev.pw.tripped = false := by
  show unitsStopped s.dev = false ↔ _
  simp [unitsStopped, held, and_assoc]

theorem Acting.held {s : State} (h : Acting s) : held s.dev = false := by
  have h : unitsStopped s.dev = false := h
  simp only [unitsStopped, Bool.or_eq_false_iff] at h
  exact h.1

theorem ClustersActing.acting {s : State} (h : ClustersActing s) : Acting s := by
  have h : clustersStopped s.dev = false := h
  simp only [clustersStopped, Bool.or_eq_false_iff] at h
  exact h.1

/-! ### Gates -/

theorem onUnit_acting (d : Dev) (f : Dev → Dev) (h : unitsStopped d = false) : onUnit d f = f d := by simp [onUnit, h]

theorem onUnit_stopped (d : Dev) (f : Dev → Dev) (h : unitsStopped d = true) : onUnit d f = d := by simp [onUnit, h]

/-- With its link up the host port takes a frame. -/
theorem onHost_acting (d : Dev) (f : Dev → Dev) (h : unitsStopped d = false) (l : d.hp.linkUp = true) : onHost d f = f d := by
  simp [onHost, onUnit, h, l]

/-- With its link down the host port receives nothing. -/
theorem onHost_down (d : Dev) (f : Dev → Dev) (l : d.hp.linkUp = false) : onHost d f = d := by
  simp [onHost, onUnit, l]

theorem onCluster_acting (d : Dev) (f : Dev → Dev) (h : clustersStopped d = false) : onCluster d f = f d := by
  simp [onCluster, h]

theorem onCluster_stopped (d : Dev) (f : Dev → Dev) (h : clustersStopped d = true) : onCluster d f = d := by
  simp [onCluster, h]

theorem onMgmt_acting (d : Dev) (f : Dev → Dev) (h : held d = false) : onMgmt d f = f d := by simp [onMgmt, h]

theorem onMgmt_held (d : Dev) (f : Dev → Dev) (h : held d = true) : onMgmt d f = d := by simp [onMgmt, h]

theorem onPower_acting (d : Dev) (f : Dev → Dev) (h : d.pw.failed = false) : onPower d f = f d := by simp [onPower, h]

theorem onPower_failed (d : Dev) (f : Dev → Dev) (h : d.pw.failed = true) : onPower d f = d := by simp [onPower, h]

theorem onObject_served (d : Dev) (idx sub : Nat) (f : Dev → Dev) (h : unitsStopped d = false)
    (hs : objectServed d idx sub = true) : onObject d idx sub f = f d := by simp [onObject, h, hs]

theorem onObject_stopped (d : Dev) (idx sub : Nat) (f : Dev → Dev) (h : unitsStopped d = true) :
    onObject d idx sub f = d := by simp [onObject, h]

/-! ### Faults of a unit (R7, R296) -/

@[simp] theorem raiseFault_uptime (d : Dev) (c a b x : Nat) : (raiseFault d c a b x).uptime = d.uptime := by
  unfold raiseFault unitFault; simp only; split <;> simp [setCtx]
@[simp] theorem raiseFault_ptp (d : Dev) (c a b x : Nat) : (raiseFault d c a b x).ptp = d.ptp := by
  unfold raiseFault unitFault; simp only; split <;> simp [setCtx]
@[simp] theorem raiseFault_out (d : Dev) (c a b x : Nat) : (raiseFault d c a b x).out = d.out := by
  unfold raiseFault unitFault; simp only; split <;> simp [setCtx]
@[simp] theorem raiseFault_freeCtr (d : Dev) (c a b x : Nat) : (raiseFault d c a b x).freeCtr = d.freeCtr := by
  unfold raiseFault unitFault; simp only; split <;> simp [setCtx]
@[simp] theorem raiseFault_shadows (d : Dev) (c a b x : Nat) : (raiseFault d c a b x).shadows = d.shadows := by
  unfold raiseFault unitFault; simp only; split <;> simp [setCtx]
@[simp] theorem raiseFault_sup (d : Dev) (c a b x : Nat) : (raiseFault d c a b x).sup = d.sup := by
  unfold raiseFault unitFault; simp only; split <;> simp [setCtx]
@[simp] theorem raiseFault_tiles (d : Dev) (c a b x : Nat) : (raiseFault d c a b x).tiles = d.tiles := by
  unfold raiseFault unitFault; simp only; split <;> simp [setCtx]
@[simp] theorem raiseFault_vcs (d : Dev) (c a b x : Nat) : (raiseFault d c a b x).vcs = d.vcs := by
  unfold raiseFault unitFault; simp only; split <;> simp [setCtx]
@[simp] theorem raiseFault_mem (d : Dev) (c a b x : Nat) : (raiseFault d c a b x).mem = d.mem := by
  unfold raiseFault unitFault; simp only; split <;> simp [setCtx]
@[simp] theorem raiseFault_sems (d : Dev) (c a b x : Nat) : (raiseFault d c a b x).sems = d.sems := by
  unfold raiseFault unitFault; simp only; split <;> simp [setCtx]
@[simp] theorem raiseFault_grants (d : Dev) (c a b x : Nat) : (raiseFault d c a b x).grants = d.grants := by
  unfold raiseFault unitFault; simp only; split <;> simp [setCtx]
@[simp] theorem raiseFault_hp (d : Dev) (c a b x : Nat) : (raiseFault d c a b x).hp = d.hp := by
  unfold raiseFault unitFault; simp only; split <;> simp [setCtx]
@[simp] theorem raiseFault_rl (d : Dev) (c a b x : Nat) : (raiseFault d c a b x).rl = d.rl := by
  unfold raiseFault unitFault; simp only; split <;> simp [setCtx]
@[simp] theorem raiseFault_sq (d : Dev) (c a b x : Nat) : (raiseFault d c a b x).sq = d.sq := by
  unfold raiseFault unitFault; simp only; split <;> simp [setCtx]
@[simp] theorem raiseFault_wv (d : Dev) (c a b x : Nat) : (raiseFault d c a b x).wv = d.wv := by
  unfold raiseFault unitFault; simp only; split <;> simp [setCtx]
@[simp] theorem raiseFault_up (d : Dev) (c a b x : Nat) : (raiseFault d c a b x).up = d.up := by
  unfold raiseFault unitFault; simp only; split <;> simp [setCtx]
@[simp] theorem raiseFault_ce (d : Dev) (c a b x : Nat) : (raiseFault d c a b x).ce = d.ce := by
  unfold raiseFault unitFault; simp only; split <;> simp [setCtx]
@[simp] theorem raiseFault_ex (d : Dev) (c a b x : Nat) : (raiseFault d c a b x).ex = d.ex := by
  unfold raiseFault unitFault; simp only; split <;> simp [setCtx]
@[simp] theorem raiseFault_fill (d : Dev) (c a b x : Nat) : (raiseFault d c a b x).fill = d.fill := by
  unfold raiseFault unitFault; simp only; split <;> simp [setCtx]
@[simp] theorem raiseFault_gn (d : Dev) (c a b x : Nat) : (raiseFault d c a b x).gn = d.gn := by
  unfold raiseFault unitFault; simp only; split <;> simp [setCtx]
@[simp] theorem raiseFault_sy (d : Dev) (c a b x : Nat) : (raiseFault d c a b x).sy = d.sy := by
  unfold raiseFault unitFault; simp only; split <;> simp [setCtx]
@[simp] theorem raiseFault_hm (d : Dev) (c a b x : Nat) : (raiseFault d c a b x).hm = d.hm := by
  unfold raiseFault unitFault; simp only; split <;> simp [setCtx]
@[simp] theorem raiseFault_sn (d : Dev) (c a b x : Nat) : (raiseFault d c a b x).sn = d.sn := by
  unfold raiseFault unitFault; simp only; split <;> simp [setCtx]
@[simp] theorem raiseFault_rc (d : Dev) (c a b x : Nat) : (raiseFault d c a b x).rc = d.rc := by
  unfold raiseFault unitFault; simp only; split <;> simp [setCtx]
@[simp] theorem raiseFault_cv (d : Dev) (c a b x : Nat) : (raiseFault d c a b x).cv = d.cv := by
  unfold raiseFault unitFault; simp only; split <;> simp [setCtx]
@[simp] theorem raiseFault_sec (d : Dev) (c a b x : Nat) : (raiseFault d c a b x).sec = d.sec := by
  unfold raiseFault unitFault; simp only; split <;> simp [setCtx]
@[simp] theorem raiseFault_east (d : Dev) (c a b x : Nat) : (raiseFault d c a b x).east = d.east := by
  unfold raiseFault unitFault; simp only; split <;> simp [setCtx]
@[simp] theorem raiseFault_west (d : Dev) (c a b x : Nat) : (raiseFault d c a b x).west = d.west := by
  unfold raiseFault unitFault; simp only; split <;> simp [setCtx]
@[simp] theorem raiseFault_pw (d : Dev) (c a b x : Nat) : (raiseFault d c a b x).pw = d.pw := by
  unfold raiseFault unitFault; simp only; split <;> simp [setCtx]
@[simp] theorem semAt_raiseFault (d : Dev) (c a b x k : Nat) : semAt (raiseFault d c a b x) k = semAt d k := by simp [semAt]

/-- The log and the objects are those of the event alone. -/
theorem raiseFault_ev (d : Dev) (c a b x : Nat) : (raiseFault d c a b x).ev = (raise d c a b).ev := by
  unfold raiseFault unitFault; simp only; split <;> simp [setCtx]

@[simp] theorem cfg_raiseFault (d : Dev) (c a b x i s : Nat) : cfg (raiseFault d c a b x) i s = cfg (raise d c a b) i s := by
  unfold raiseFault unitFault; simp only; split <;> simp [setCtx, cfg]

theorem raiseFault_logged (d : Dev) (c a b x : Nat) : Logged (raiseFault d c a b x) c a b :=
  (Logged_congr (raiseFault_ev d c a b x) c a b).2 (raise_logged d c a b)

/-- A context that is not at work stays as it is. -/
theorem raiseFault_dead (d : Dev) (c a b x : Nat) (h : ctxLive (ctxAt d x) = false) :
    raiseFault d c a b x = raise d c a b := by
  simp [raiseFault, unitFault, h]

/-- The context named, when at work, is stopping with the event as its cause. -/
theorem raiseFault_ctx (d : Dev) (c a b x : Nat) (hx : x < 64) (h : ctxLive (ctxAt d x) = true) :
    ctxAt (raiseFault d c a b x) x = { ctxAt d x with st := .stopping, cause := c } := by
  unfold raiseFault unitFault
  simp only [ctxAt_raise, hx, h, and_self, if_true]
  simp [ctxAt, setCtx]

/-- Every other context stays as it is. -/
theorem raiseFault_ctx_ne (d : Dev) (c a b x y : Nat) (h : x ≠ y) : ctxAt (raiseFault d c a b x) y = ctxAt d y := by
  unfold raiseFault unitFault
  simp only
  split
  · simp [ctxAt, setCtx, h]
  · simp

/-- Only what raising events and stopping contexts changes differs: the log, the objects, the clusters' TUs and engines, and
the contexts. -/
def FaultsOnly (d e : Dev) : Prop :=
  ∃ ev objs tus fes ctxs, e = { d with ev := ev, objs := objs, tus := tus, fes := fes, seq := { d.seq with ctxs := ctxs } }

theorem FaultsOnly.trans {a b c : Dev} (h : FaultsOnly a b) (g : FaultsOnly b c) : FaultsOnly a c := by
  obtain ⟨_, _, _, _, _, rfl⟩ := h
  obtain ⟨e2, o2, t2, f2, c2, rfl⟩ := g
  exact ⟨e2, o2, t2, f2, c2, rfl⟩

theorem FaultsOnly.refl (d : Dev) : FaultsOnly d d := ⟨d.ev, d.objs, d.tus, d.fes, d.seq.ctxs, rfl⟩

theorem raise_faults (d : Dev) (c a b : Nat) : FaultsOnly d (raise d c a b) := by
  obtain ⟨e, o, h⟩ := raise_only d c a b
  exact ⟨e, o, d.tus, d.fes, d.seq.ctxs, h⟩

theorem unitFault_faults (d : Dev) (x c : Nat) : FaultsOnly d (unitFault d x c) := by
  unfold unitFault
  simp only
  split
  · exact ⟨d.ev, d.objs, _, _, _, rfl⟩
  · exact .refl d

theorem foldl_faults {α : Type} (f : Dev → α → Dev) (h : ∀ d x, FaultsOnly d (f d x)) (l : List α) (d : Dev) :
    FaultsOnly d (l.foldl f d) := by
  induction l generalizing d with
  | nil => exact .refl d
  | cons x l ih => exact (h d x).trans (ih _)

theorem stopBinders_faults (d : Dev) (e c : Nat) : FaultsOnly d (stopBinders d e c) :=
  foldl_faults _ (fun d x => unitFault_faults d x c) _ d

/-- Reading an engine record raises an event and stops contexts at most. -/
theorem readRec_faults (d : Dev) (k : EccRec) (c e a : Nat) : FaultsOnly d (readRec d k c e a) := by
  unfold readRec
  split
  · exact (raise_faults d c e a).trans (stopBinders_faults _ e c)
  · exact .refl d

/-! ### Reads of memory -/

/-- Reading words with no wrong bit changes nothing. -/
theorem noteRead_clean (d : Dev) (c a n : Nat) (hu : ueIn d.mem a n = []) (hc : ceIn d.mem a n = []) :
    noteRead d c a n = d := by
  have : noteCorrects d a n = d := by
    simp only [noteCorrects, hc, List.foldl_nil, List.contains_nil, Bool.not_false, List.filter_true]
  simp only [noteRead, hu, noteUe, this]

/-- A read of the near memory of the unit's own half, with no wrong bit in it, answers the bytes and changes nothing. -/
theorem unitRead_local (d : Dev) (half c a n : Nat) (hacc : accessible d a n = true) (h : a / nearSize = half)
    (hn : a < 2 * nearSize) (hu : ueIn d.mem a n = []) (hc : ceIn d.mem a n = []) :
    unitRead d half c 0 a n = (some (memRead d.mem a n), d) := by
  have hl : farLine a = none := by simp [farLine, regionOf, hn]
  have ho : ownerHalf a = half := by simp [ownerHalf, regionOf, hn, h]
  have hx : linesOf a n = [] := by simp [linesOf, hl]
  have hr : noteRead d c a n = d := noteRead_clean d c a n hu hc
  simp [unitRead, accessOk, hacc, readThrough, cacheLines, hx, noteRemote, ho, hr]

/-! ### Semaphores -/

/-- A word that reads well raises nothing. -/
theorem semRead_clean (d : Dev) (c n ctx : Nat) (h : (semAt d (semKey c n)).bad = false) : semRead d c n ctx = d := by
  simp [semRead, h]

/-- A signal that stays within 65,535 adds to the count and does nothing else. -/
theorem semSignal_clean (d : Dev) (c n a ctx : Nat) (hn : n ≠ 0xFFF) (hb : (semAt d (semKey c n)).bad = false)
    (hc : (semAt d (semKey c n)).count + a ≤ 65535) :
    semSignal d c n a ctx = setSem d (semKey c n) { semAt d (semKey c n) with count := (semAt d (semKey c n)).count + a } := by
  simp [semSignal, hn, semRead_clean _ _ _ _ hb, show ¬ 65535 < (semAt d (semKey c n)).count + a by omega]

/-- A wait that nothing is ahead of and that the count covers succeeds at once. -/
theorem semTake_clean (d : Dev) (c n r a : Nat) (hn : n ≠ 0xFFF) (hb : (semAt d (semKey c n)).bad = false)
    (hw : (semAt d (semKey c n)).waits = []) (hc : a ≤ (semAt d (semKey c n)).count)
    (hg : d.grants.contains (semKey c n, r) = false) :
    semTake d c n r a = (true, setSem d (semKey c n) { semAt d (semKey c n) with
      count := (semAt d (semKey c n)).count - a }) := by
  simp only [semTake, hn, if_false, semRead_clean _ _ _ _ hb, hg, hw]
  simp [hc]

/-! ### Memory -/

/-- Storing bytes keeps the keys rising and no entry equal to what its address reads as when unlisted. -/
theorem putBytes_wf (base : Nat → Byte) (t : List (Nat × Byte)) (es : List (Nat × Byte))
    (h : (tabRising t && t.all (fun e => decide (e.2 ≠ base e.1))) = true) :
    (tabRising (putBytes base t es) && (putBytes base t es).all (fun e => decide (e.2 ≠ base e.1))) = true := by
  induction es generalizing t with
  | nil => exact h
  | cons e es ih =>
    obtain ⟨a, b⟩ := e
    refine ih _ ?_
    simp only [Bool.and_eq_true, List.all_eq_true, decide_eq_true_eq] at h ⊢
    by_cases hv : b = base a
    · simp only [tput, hv, if_true]
      exact ⟨tdel_rising t a h.1, fun e he => h.2 e (mem_tdel t a e he)⟩
    · simp only [tput, hv, if_false]
      refine ⟨tset_rising t a b h.1, fun e he => ?_⟩
      rcases mem_tset t a b e he with rfl | he
      · exact hv
      · exact h.2 e he

/-- A write keeps the canonical form of memory. -/
theorem memWrite_wf (m : Mem) (a : Nat) (bs : List Byte) (h : Mem.wf m = true) : Mem.wf (memWrite m a bs) = true :=
  putBytes_wf (memBase m) _ _ h

/-- Reset memory has the canonical form. -/
theorem reset_mem_wf : Mem.wf State.reset.dev.mem = true := rfl

/-! ### The object tables -/

/-- The row of an object is a row of the tables. -/
theorem objRow_mem {i k : Nat} {o : ObjRow} (h : objRow i k = some o) : o ∈ objTable := List.mem_of_find?_eq_some h

/-- No object that a WRITE applies at once is Boolean, so that R531 asks nothing of its value by that. -/
theorem writable_not_bool : ∀ o ∈ objTable, o.acc = .rw ∨ o.acc = .wo → o.isBool = false := by decide +kernel

end Sys2Proof.Machine
end

