-- ==== Sys2Proof/Laws/Mem.lean ====
section
/-! SUPPORT. What reads and writes of device memory by a unit do: a read changes no byte, a write changes its own bytes and
no other (R195, R202, R206, R230, R231). -/

namespace Sys2Proof.Machine

/-- Only what a read of memory changes differs: what faults change (`FaultsOnly`), the cache's tags, fills begun with
nothing held, and the words with one wrong bit. -/
def ReadsOnly (d e : Dev) : Prop :=
  ∃ ev objs tus fes ctxs tags fs ce, (∀ f ∈ fs, f.held = []) ∧
    e = { d with ev := ev, objs := objs, tus := tus, fes := fes, seq := { d.seq with ctxs := ctxs },
                 mem := { d.mem with tags := tags, fills := d.mem.fills ++ fs, ce := ce } }

theorem FaultsOnly.reads {d e : Dev} (h : FaultsOnly d e) : ReadsOnly d e := by
  obtain ⟨ev, o, t, f, c, rfl⟩ := h
  exact ⟨ev, o, t, f, c, d.mem.tags, [], d.mem.ce, by simp, by simp⟩

/-- New cache tags change nothing else. -/
theorem tags_reads (d : Dev) (t : Tab (Tab CacheTag)) : ReadsOnly d { d with mem := { d.mem with tags := t } } :=
  ⟨d.ev, d.objs, d.tus, d.fes, d.seq.ctxs, t, [], d.mem.ce, by simp, by simp⟩

/-- Neither do words whose wrong bit is corrected. -/
theorem ce_reads (d : Dev) (l : List Nat) : ReadsOnly d { d with mem := { d.mem with ce := l } } :=
  ⟨d.ev, d.objs, d.tus, d.fes, d.seq.ctxs, d.mem.tags, [], l, by simp, by simp⟩

theorem ReadsOnly.refl (d : Dev) : ReadsOnly d d := (FaultsOnly.refl d).reads

theorem ReadsOnly.trans {a b c : Dev} (h : ReadsOnly a b) (g : ReadsOnly b c) : ReadsOnly a c := by
  obtain ⟨_, _, _, _, _, _, f1, _, h1, rfl⟩ := h
  obtain ⟨ev, o, t, f, c, tg, f2, ce, h2, rfl⟩ := g
  refine ⟨ev, o, t, f, c, tg, f1 ++ f2, ce, ?_, by simp⟩
  intro x hx
  rcases List.mem_append.1 hx with hx | hx
  · exact h1 x hx
  · exact h2 x hx

theorem foldl_reads {α : Type} (f : Dev → α → Dev) (h : ∀ d x, ReadsOnly d (f d x)) (l : List α) (d : Dev) :
    ReadsOnly d (l.foldl f d) := by
  induction l generalizing d with
  | nil => exact .refl d
  | cons x l ih => exact (h d x).trans (ih _)

theorem bump_faults (d : Dev) (i s n : Nat) : FaultsOnly d (bump d i s n) :=
  ⟨d.ev, _, d.tus, d.fes, d.seq.ctxs, rfl⟩

theorem bumpPart_faults (d : Dev) (i s p n : Nat) : FaultsOnly d (bumpPart d i s p n) :=
  ⟨d.ev, _, d.tus, d.fes, d.seq.ctxs, rfl⟩

theorem raiseFault_faults (d : Dev) (c a b x : Nat) : FaultsOnly d (raiseFault d c a b x) :=
  (raise_faults d c a b).trans (unitFault_faults _ x c)

theorem ceNote_faults (d : Dev) (c u l n : Nat) : FaultsOnly d (ceNote d c u l n) := by
  unfold ceNote
  simp only
  split
  · exact FaultsOnly.trans ⟨_, d.objs, d.tus, d.fes, d.seq.ctxs, rfl⟩ (raise_faults _ c u _)
  · exact ⟨_, d.objs, d.tus, d.fes, d.seq.ctxs, rfl⟩

/-! ### The cache -/

theorem writeBack_faults (d : Dev) (t : CacheTag) : FaultsOnly d (writeBack d t) := by
  unfold writeBack
  split
  · exact (bumpPart_faults _ _ _ _ _).trans (foldl_faults _ (fun d w => raise_faults d _ w 0) _ _)
  · exact .refl d

theorem setCacheSet_reads (d : Dev) (l : Nat) (s : Tab CacheTag) : ReadsOnly d (setCacheSet d l s) :=
  tags_reads d _

theorem cacheAllocate_reads (d : Dev) (l : Nat) (b : Bool) : ReadsOnly d (cacheAllocate d l b) := by
  unfold cacheAllocate
  simp only
  split
  · exact (writeBack_faults d _).reads.trans (setCacheSet_reads _ _ _)
  · exact setCacheSet_reads _ _ _

/-- An access of the cache changes no byte of memory: bytes are held once, and a fill it begins holds nothing yet. -/
theorem cacheAccess_reads (d : Dev) (l h : Nat) (w b : Bool) : ReadsOnly d (cacheAccess d l h w b) := by
  unfold cacheAccess
  simp only
  split
  · exact .refl d
  split
  · split
    · exact ((bumpPart_faults _ _ _ _ _).trans (writeBack_faults _ _)).reads.trans (setCacheSet_reads _ _ _)
    split
    · exact (bumpPart_faults _ _ _ _ _).reads.trans (setCacheSet_reads _ _ _)
    · exact (bumpPart_faults _ _ _ _ _).reads.trans (setCacheSet_reads _ _ _)
  · split
    · exact (bumpPart_faults _ _ _ _ _).reads
    split
    · exact (bumpPart_faults _ _ _ _ _).reads.trans (cacheAllocate_reads _ _ _)
    · exact (bumpPart_faults _ _ _ _ _).reads.trans
        ⟨_, _, _, _, _, _, [{ line := l, held := [] }], _, by simp, rfl⟩

theorem cacheLines_reads (d : Dev) (a n h : Nat) (w : Bool) (q : Acc) : ReadsOnly d (cacheLines d a n h w q) :=
  foldl_reads _ (fun d l => cacheAccess_reads d l h w _) _ d

theorem noteRemote_reads (d : Dev) (h a n : Nat) : ReadsOnly d (noteRemote d h a n) := by
  unfold noteRemote
  split
  · exact .refl d
  · exact (bump_faults _ _ _ _).reads

/-! ### Reads -/

theorem noteGathered_faults (d : Dev) (w : Nat) : FaultsOnly d (noteGathered d w) :=
  foldl_faults _ (fun d _ => (raise_faults d _ _ w).trans (stopBinders_faults _ _ _)) _ d

theorem noteUe_faults (d : Dev) (c : Nat) (ws : List Nat) : FaultsOnly d (noteUe d c ws) := by
  induction ws generalizing d with
  | nil => exact .refl d
  | cons w ws ih =>
    refine FaultsOnly.trans ?_ (ih _)
    split
    · exact ((bump_faults _ _ _ _).trans (raiseFault_faults _ _ _ _ _)).trans (noteGathered_faults _ w)
    · exact (bump_faults _ _ _ _).trans (raiseFault_faults _ _ _ _ _)
    · exact .refl d

theorem noteCorrected_faults (d : Dev) (w : Nat) : FaultsOnly d (noteCorrected d w) := by
  unfold noteCorrected
  split
  · exact (bump_faults _ _ _ _).trans (ceNote_faults _ _ _ _ _)
  · exact (bump_faults _ _ _ _).trans (ceNote_faults _ _ _ _ _)
  · exact .refl d

theorem noteCorrects_reads (d : Dev) (a n : Nat) : ReadsOnly d (noteCorrects d a n) :=
  (foldl_faults _ noteCorrected_faults _ d).reads.trans
    (ce_reads _ _)

/-- What a read of memory does with the check bits changes no byte. -/
theorem noteRead_reads (d : Dev) (c a n : Nat) : ReadsOnly d (noteRead d c a n) :=
  (noteCorrects_reads d a n).trans (noteUe_faults _ c _).reads

/-- A read of device memory changes no byte of it, no message and none of the engines' records. -/
theorem readThrough_reads (d : Dev) (h c t a n : Nat) (q : Acc) : ReadsOnly d (readThrough d h c t a n q).2 :=
  ((cacheLines_reads d a n t false q).trans (noteRemote_reads _ h a n)).trans (noteRead_reads _ c a n)

theorem unitRead_reads (d : Dev) (h c t a n : Nat) (q : Acc) : ReadsOnly d (unitRead d h c t a n q).2 := by
  unfold unitRead
  split
  · exact readThrough_reads d h c t a n q
  · exact (raiseFault_faults _ _ _ _ _).reads

theorem readRanges_reads (d : Dev) (h c : Nat) (zs : List (Nat × Nat)) : ReadsOnly d (readRanges d h c zs).2 := by
  unfold readRanges
  generalize true = b
  induction zs generalizing d b with
  | nil => exact .refl d
  | cons z zs ih => exact (readThrough_reads d h c 0 z.1 z.2 {}).trans (ih _ _)

/-! ### Bytes -/

/-- Every byte that a fill holds lies in its line. -/
def FillsOk (m : Mem) : Prop := ∀ f ∈ m.fills, ∀ e ∈ f.held, f.line ≤ e.1 ∧ e.1 < f.line + 256

theorem heldByte_append (fs gs : List Fill) (x : Nat) (h : ∀ f ∈ gs, f.held = []) :
    heldByte (fs ++ gs) x = heldByte fs x := by
  have : gs.filterMap (fun f => (f.held.reverse.find? (fun e => e.1 == x)).map Prod.snd) = [] := by
    simp only [List.filterMap_eq_nil_iff]
    intro f hf
    simp [h f hf]
  simp [heldByte, this]

/-- A read changes no byte. -/
theorem ReadsOnly.memByte {d e : Dev} (h : ReadsOnly d e) (x : Nat) : memByte e.mem x = memByte d.mem x := by
  obtain ⟨_, _, _, _, _, _, fs, _, hf, rfl⟩ := h
  simp only [Machine.memByte, heldByte_append _ _ _ hf]
  rfl

theorem ReadsOnly.memVal {d e : Dev} (h : ReadsOnly d e) (a n : Nat) : memVal e.mem a n = memVal d.mem a n := by
  simp [Machine.memVal, memRead, h.memByte]

theorem ReadsOnly.bytes {d e : Dev} (h : ReadsOnly d e) : e.mem.bytes = d.mem.bytes := by
  obtain ⟨_, _, _, _, _, _, _, _, _, rfl⟩ := h; rfl

theorem ReadsOnly.fillsOk {d e : Dev} (h : ReadsOnly d e) (k : FillsOk d.mem) : FillsOk e.mem := by
  obtain ⟨_, _, _, _, _, _, fs, _, hf, rfl⟩ := h
  intro f hx
  rcases List.mem_append.1 hx with hx | hx
  · exact k f hx
  · simp [hf f hx]

theorem ReadsOnly.wf {d e : Dev} (h : ReadsOnly d e) (k : Mem.wf d.mem = true) : Mem.wf e.mem = true := by
  obtain ⟨_, _, _, _, _, _, _, _, _, rfl⟩ := h; exact k

/-! ### Writes -/

/-- The last byte of `es` for an address, when there is one. -/
def lastFor (es : List (Nat × Byte)) (x : Nat) : Option Byte := (es.reverse.find? (fun e => e.1 == x)).map Prod.snd

theorem lastFor_cons (e : Nat × Byte) (es : List (Nat × Byte)) (x : Nat) :
    lastFor (e :: es) x = (lastFor es x).or (if e.1 = x then some e.2 else none) := by
  simp only [lastFor, List.reverse_cons, List.find?_append]
  cases h : es.reverse.find? (fun e => e.1 == x)
  · by_cases hx : e.1 = x <;> simp [hx]
  · simp

theorem lastFor_append (es fs : List (Nat × Byte)) (x : Nat) : lastFor (es ++ fs) x = (lastFor fs x).or (lastFor es x) := by
  simp only [lastFor, List.reverse_append, List.find?_append]
  cases fs.reverse.find? (fun e => e.1 == x) <;> simp

theorem lastFor_filter (es : List (Nat × Byte)) (p : Nat → Bool) (x : Nat) :
    lastFor (es.filter (fun e => p e.1)) x = if p x then lastFor es x else none := by
  induction es with
  | nil => simp [lastFor]
  | cons e es ih =>
    by_cases hp : p e.1
    · rw [List.filter_cons_of_pos (by simpa using hp), lastFor_cons, ih, lastFor_cons]
      by_cases hx : e.1 = x
      · subst hx; simp [hp]
      · by_cases hq : p x <;> simp [hq, hx]
    · rw [List.filter_cons_of_neg (by simpa using hp), ih, lastFor_cons]
      by_cases hx : e.1 = x
      · subst hx; simp [hp]
      · by_cases hq : p x <;> simp [hq, hx]

theorem lastFor_addrBytes (k : Nat) (bs : List Byte) (x : Nat) :
    lastFor (addrBytes k bs) x = if k ≤ x ∧ x < k + bs.length then some (bs.getD (x - k) 0#8) else none := by
  induction bs generalizing k with
  | nil => simp [addrBytes, lastFor]
  | cons b bs ih =>
    rw [addrBytes, lastFor_cons, ih, List.length_cons]
    by_cases h1 : k + 1 ≤ x ∧ x < k + 1 + bs.length
    · rw [if_pos h1, if_pos (show k ≤ x ∧ x < k + (bs.length + 1) by omega), show x - k = (x - (k + 1)) + 1 by omega]
      simp
    · rw [if_neg h1]
      by_cases h2 : k = x
      · subst h2; simp
      · rw [if_neg (show ¬ (k ≤ x ∧ x < k + (bs.length + 1)) by omega)]
        simp [h2]

theorem tget_putBytes_list (base : Nat → Byte) (es t : List (Nat × Byte)) (x : Nat) (hr : tabRising t = true) :
    tget (base x) (putBytes base t es) x = (lastFor es x).getD (tget (base x) t x) := by
  induction es generalizing t with
  | nil => simp [putBytes, lastFor]
  | cons e es ih =>
    obtain ⟨k, b⟩ := e
    have hr2 : tabRising (tput (base k) t k b) = true := by
      unfold tput
      split
      · exact tdel_rising t k hr
      · exact tset_rising t k b hr
    have hput : tget (base x) (tput (base k) t k b) x = if k = x then b else tget (base x) t x := by
      by_cases h : k = x
      · subst h; rw [if_pos rfl, tget_tput_same _ _ _ _ hr]
      · rw [if_neg h]
        unfold tput
        split
        · simp [tget, tfind_tdel_ne _ _ _ h]
        · exact tget_tset_ne _ _ _ _ _ h
    rw [putBytes, ih _ hr2, hput, lastFor_cons]
    cases h : lastFor es x <;> by_cases hx : k = x <;> simp [hx]

theorem heldByte_cons (f : Fill) (fs : List Fill) (x : Nat) : heldByte (f :: fs) x = (lastFor f.held x).or (heldByte fs x) := by
  simp only [heldByte, lastFor, List.filterMap_cons]
  cases (f.held.reverse.find? (fun e => e.1 == x)).map Prod.snd <;> simp

/-- A fill line covers an address. -/
abbrev covers (x : Nat) (f : Fill) : Prop := f.line ≤ x ∧ x < f.line + 256

theorem lastFor_none {es : List (Nat × Byte)} {x : Nat} (h : ∀ e ∈ es, e.1 ≠ x) : lastFor es x = none := by
  simp only [lastFor, Option.map_eq_none_iff, List.find?_eq_none, List.mem_reverse]
  intro e he
  simpa using h e he

theorem heldByte_write (fs : List Fill) (es : List (Nat × Byte)) (x : Nat)
    (hf : ∀ f ∈ fs, ∀ e ∈ f.held, f.line ≤ e.1 ∧ e.1 < f.line + 256) :
    heldByte (fs.map (fun f => { f with held := f.held ++ es.filter (fun e => decide (f.line ≤ e.1 ∧ e.1 < f.line + 256)) })) x
      = if (∃ f ∈ fs, covers x f) then (lastFor es x).or (heldByte fs x) else none := by
  induction fs with
  | nil => simp [heldByte]
  | cons f fs ih =>
    have ih := ih (fun g hg => hf g (List.mem_cons_of_mem _ hg))
    have h1 := lastFor_filter es (fun y => decide (f.line ≤ y ∧ y < f.line + 256)) x
    rw [List.map_cons, heldByte_cons, ih, lastFor_append, h1, heldByte_cons]
    by_cases hc : covers x f
    · have : ∃ g ∈ f :: fs, covers x g := ⟨f, by simp, hc⟩
      rw [if_pos this, if_pos (by simpa using hc)]
      split
      · cases lastFor es x <;> simp
      · rename_i hn
        have hno : heldByte fs x = none := by
          simp only [heldByte, List.head?_eq_none_iff, List.filterMap_eq_nil_iff]
          intro g hg
          refine lastFor_none ?_
          intro e he hx
          exact hn ⟨g, hg, hx ▸ hf g (List.mem_cons_of_mem _ hg) e he⟩
        rw [hno]
        cases lastFor es x <;> simp
    · have hl : lastFor f.held x = none := lastFor_none (fun e he hx => hc (hx ▸ hf f (by simp) e he))
      rw [if_neg (by simpa using hc), hl]
      simp [hc]

/-- A write is read back at its bytes and leaves every other byte as it reads, held back by a fill or not. -/
theorem memByte_write (m : Mem) (k : Nat) (bs : List Byte) (x : Nat) (hf : FillsOk m) (hr : Mem.wf m = true) :
    memByte (memWrite m k bs) x = if k ≤ x ∧ x < k + bs.length then bs.getD (x - k) 0#8 else memByte m x := by
  have hr1 : tabRising m.bytes = true := by
    unfold Mem.wf at hr; rw [Bool.and_eq_true] at hr; exact hr.1
  have h1 := heldByte_write m.fills (addrBytes k bs) x hf
  have h2 := tget_putBytes_list (memBase m)
    ((addrBytes k bs).filter (fun e => !(m.fills.any (fun f => decide (f.line ≤ e.1) && decide (e.1 < f.line + 256))))) m.bytes x hr1
  have h3 := lastFor_filter (addrBytes k bs)
    (fun y => !(m.fills.any (fun f => decide (f.line ≤ y) && decide (y < f.line + 256)))) x
  have h4 := lastFor_addrBytes k bs x
  have hb : memBase (memWrite m k bs) x = memBase m x := rfl
  simp only [memByte, hb]
  simp only [memWrite]
  rw [h1, h2, h3, h4]
  by_cases hc : ∃ f ∈ m.fills, covers x f
  · have : (m.fills.any (fun f => decide (f.line ≤ x) && decide (x < f.line + 256))) = true := by
      obtain ⟨f, hm, h⟩ := hc
      exact List.any_eq_true.2 ⟨f, hm, by simpa using h⟩
    rw [if_pos hc, this]
    split <;> simp
  · have : (m.fills.any (fun f => decide (f.line ≤ x) && decide (x < f.line + 256))) = false := by
      rw [List.any_eq_false]
      intro f hm
      simp only [Bool.and_eq_true, decide_eq_true_eq]
      exact fun h => hc ⟨f, hm, h⟩
    have hno : heldByte m.fills x = none := by
      simp only [heldByte, List.head?_eq_none_iff, List.filterMap_eq_nil_iff]
      intro g hg
      refine lastFor_none ?_
      intro e he hx
      exact hc ⟨g, hg, hx ▸ hf g hg e he⟩
    rw [if_neg hc, this, hno]
    by_cases hx : k ≤ x ∧ x < k + bs.length <;> simp [hx]

theorem memWrite_fillsOk (m : Mem) (k : Nat) (bs : List Byte) (h : FillsOk m) : FillsOk (memWrite m k bs) := by
  intro f hf e he
  simp only [memWrite, List.mem_map] at hf
  obtain ⟨g, hg, rfl⟩ := hf
  rcases List.mem_append.1 he with he | he
  · exact h g hg e he
  · simpa using (List.mem_filter.1 he).2

/-- One write by a unit: its bytes are read back, every other byte reads as before, and memory keeps its form. -/
theorem writeThrough_spec (d : Dev) (h t a : Nat) (bs : List Byte) (q : Acc) (hf : FillsOk d.mem) (hr : Mem.wf d.mem = true) :
    (∀ x, memByte (writeThrough d h t a bs q).mem x =
      if a ≤ x ∧ x < a + bs.length then bs.getD (x - a) 0#8 else memByte d.mem x) ∧
    FillsOk (writeThrough d h t a bs q).mem ∧ Mem.wf (writeThrough d h t a bs q).mem = true := by
  have k := (cacheLines_reads d a bs.length t true q).trans (noteRemote_reads _ h a bs.length)
  have w := fun x => memByte_write _ a bs x (k.fillsOk hf) (k.wf hr)
  have f := memWrite_fillsOk _ a bs (k.fillsOk hf)
  have c := memWrite_wf _ a bs (k.wf hr)
  unfold writeThrough
  simp only
  split
  · exact ⟨fun x => (w x).trans (by rw [k.memByte]), f, c⟩
  · exact ⟨fun x => (w x).trans (by rw [k.memByte]), f, c⟩

end Sys2Proof.Machine
end

