-- ==== Sys2Proof/WellFormed.lean ====
section
/-! DEFINITION. Which commands are well formed: each operand fits the field, the register or the count of units the manual
gives it. `exec` has a meaning for every command; an operand out of range names no unit of the part, and such a command is never
presented to it. -/

namespace Sys2Proof

/-- Every operand of the command is in the range of what it names. -/
def Instr.wf : Instr → Bool
  | .tuNop tu => decide (tu < 128)
  | .mma tu _ _ => decide (tu < 128)
  | .swap tu _ => decide (tu < 128)
  | .halfRelease tu => decide (tu < 128)
  | .fence tu => decide (tu < 128)
  | .fenceDone tu => decide (tu < 128)
  | .tileDrain tu bank _ _ => decide (tu < 128) && decide (bank < 2)
  | .replaySlotFree cluster => decide (cluster < 16)
  | .shadowCompare cluster => decide (cluster < 16)
  | .counterClear idx value => decide (idx < 65536) && decide (value < 256)
  | .conversionReport entry _ flags step => decide (entry < 65536) && decide (flags < 65536) && decide (step < 2 ^ 64)
  | .scaleTableSwap => true
  | .scaleRebuildStart value => decide (value < 256)
  | .vcPass vc src _ _ _ => decide (vc < 16) && decide (src < 9)
  | .writeSemaphoreSignal vc src => decide (vc < 16) && decide (src < 9)
  | .docTableLoaded vc => decide (vc < 16)
  | .cacheFillLands _ => true
  | .lineReadReturn ret => decide (ret.fe < 16)
  | .faultQueueSlotFree fe _ => decide (fe < 16)
  | .xlatInvalidate addr len => decide (addr < 2 ^ 64) && decide (len < 2 ^ 64)
  | .xlatInvalidateDone => true
  | .xlatResume fid => decide (fid < 65536)
  | .xlatFail fid => decide (fid < 65536)
  | .fdNop fe => decide (fe < 16)
  | .fdLoad fe _ => decide (fe < 16)
  | .fdJoin fe => decide (fe < 16)
  | .fdSrc fe => decide (fe < 16)
  | .fdStore fe => decide (fe < 16)
  | .fdCopy fe => decide (fe < 16)
  | .fdDrain fe => decide (fe < 16)
  | .fdDrainDone fe => decide (fe < 16)
  | .descriptorComplete fe queue => decide (fe < 16) && decide (queue < 4)
  | .deadlineMiss fe slot => decide (fe < 16) && decide (slot < 16)
  | .semSignal cluster num amount ctx =>
    decide (cluster < 16) && decide (num < 4096) && decide (amount < 65536) && decide (ctx < 64)
  | .semWait cluster num amount requester =>
    decide (cluster < 16) && decide (num < 4096) && decide (amount < 65536) && decide (requester < 65536)
  | .semWaitSucceed cluster num => decide (cluster < 16) && decide (num < 4096)
  | .lateWait cluster num => decide (cluster < 16) && decide (num < 4096)
  | .progNop cluster => decide (cluster < 16)
  | .progTu cluster => decide (cluster < 16)
  | .progFd cluster => decide (cluster < 16)
  | .progPass cluster => decide (cluster < 16)
  | .progWait cluster => decide (cluster < 16)
  | .progSig cluster => decide (cluster < 16)
  | .progSeta cluster => decide (cluster < 16)
  | .progAdda cluster => decide (cluster < 16)
  | .progLoop cluster => decide (cluster < 16)
  | .progEndl cluster => decide (cluster < 16)
  | .progYield cluster => decide (cluster < 16)
  | .progGath cluster => decide (cluster < 16)
  | .progBkt cluster => decide (cluster < 16)
  | .progEmit cluster => decide (cluster < 16)
  | .progEnd cluster => decide (cluster < 16)
  | .emitComplete _ => true
  | .taskComplete _ => true
  | .taskDequeue cluster _ _ => decide (cluster < 16)
  | .frameAssign ctx _ => decide (ctx < 64)
  | .swapInDone ctx => decide (ctx < 64)
  | .taskSwitch cluster => decide (cluster < 16)
  | .jobStart => true
  | .jobStop => true
  | .jobHalt => true
  | .stepEnd ctx => decide (ctx < 64)
  | .boundaryBegin => true
  | .boundaryWork => true
  | .stepAdvance _ => true
  | .boundaryTimeout => true
  | .contextStopped ctx => decide (ctx < 64)
  | .stopAtStep step => decide (step < 2 ^ 64)
  | .sqEntryReceive queue entry => decide (queue < 128) && decide (entry < 2 ^ 256 * 2 ^ 256)
  | .sqDataWrite queue tag addr src _ _ =>
    decide (queue < 128) && decide (tag < 2 ^ 32) && decide (addr < 2 ^ 48) && decide (src < 4096)
  | .sqGrantReceive ctx kind addr _ => decide (ctx < 64) && decide (kind < 2) && decide (addr < 2 ^ 48)
  | .sqPost record => decide (record < 2 ^ 128)
  | .spillRefill queue => decide (queue < 128)
  | .commitNotice entry version _ => decide (entry < 4096) && decide (version < 2 ^ 32)
  | .releaseNotice entry version _ => decide (entry < 4096) && decide (version < 2 ^ 32)
  | .molt entry slot => decide (entry < 4096) && decide (slot < 8)
  | .moltFinish entry slot => decide (entry < 4096) && decide (slot < 8)
  | .viewRemapDone entry _ => decide (entry < 4096)
  | .gcAllocate entry _ => decide (entry < 4096)
  | .gatherDone entry version => decide (entry < 4096) && decide (version < 2 ^ 32)
  | .releaseContext ctx => decide (ctx < 256)
  | .pieceReceive _ _ => true
  | .applyStart entry _ => decide (entry < 4096)
  | .applyDone entry => decide (entry < 4096)
  | .clipFactor group => decide (group < 1024)
  | .rngFill record => decide (record < 2 ^ 256)
  | .rngFillDone => true
  | .rngProbe select => decide (select < 2 ^ 128)
  | .quadTrain quad _ => decide (quad < 16)
  | .trainTimeout quad => decide (quad < 16)
  | .quadRetrain mask => decide (mask < 65536)
  | .retrainTimeout quad => decide (quad < 16)
  | .dataFlit quad _ => decide (quad < 16)
  | .ctrlFlit quad _ => decide (quad < 16)
  | .idleFlit quad _ => decide (quad < 16)
  | .croak quad _ => decide (quad < 16)
  | .croakReply quad _ => decide (quad < 16)
  | .laneDrop quad mask => decide (quad < 16) && decide (mask < 16)
  | .laneDropDetect quad lane => decide (quad < 16) && decide (lane < 4)
  | .laneSignalLoss quad => decide (quad < 16)
  | .ackTimer quad => decide (quad < 16)
  | .replayTimeout quad => decide (quad < 16)
  | .creditReturnTimer quad => decide (quad < 16)
  | .creditStall quad vc _ => decide (quad < 16) && decide (vc < 4)
  | .croakTimer quad => decide (quad < 16)
  | .croakWindowClose quad => decide (quad < 16)
  | .messageRoute quad vc => decide (quad < 16) && decide (vc < 4)
  | .unreachReceive header => decide (header < 2 ^ 128)
  | .bucketHandoff cluster => decide (cluster < 16)
  | .stagingAllocate bucket step place _ => decide (bucket < 4096) && decide (step < 2 ^ 64) && decide (place < 65536)
  | .announce src bucket lap place fver =>
    decide (src < 4096) && decide (bucket < 4096) && decide (lap < 256) && decide (place < 65536) && decide (fver < 16)
  | .read src rlap ridx space flow body =>
    decide (src < 4096) && decide (rlap < 256) && decide (ridx < 65536) && decide (space < 16) && decide (flow < 256) && decide (body < 2 ^ 128)
  | .readData src rlap ridx status _ _ =>
    decide (src < 4096) && decide (rlap < 256) && decide (ridx < 65536) && decide (status < 16)
  | .chunkFold bucket step place _ _ => decide (bucket < 4096) && decide (step < 2 ^ 64) && decide (place < 65536)
  | .mdata src pid version origin _ _ =>
    decide (src < 4096) && decide (pid < 2 ^ 24) && decide (version < 2 ^ 32) && decide (origin < 65536)
  | .mack src pid version origin _ =>
    decide (src < 4096) && decide (pid < 2 ^ 24) && decide (version < 2 ^ 32) && decide (origin < 65536)
  | .fetch src pid version origin =>
    decide (src < 4096) && decide (pid < 2 ^ 24) && decide (version < 2 ^ 32) && decide (origin < 65536)
  | .autotomy group _ => decide (group < 1024)
  | .clip src group lap _ => decide (src < 4096) && decide (group < 1024) && decide (lap < 256)
  | .dispatchDoorbell layer _ => decide (layer < 256)
  | .combineDoorbell layer => decide (layer < 256)
  | .expertRows src layer _ tag _ _ _ _ _ => decide (src < 4096) && decide (layer < 256) && decide (tag < 2 ^ 32)
  | .expertCount src layer _ tag _ => decide (src < 4096) && decide (layer < 256) && decide (tag < 2 ^ 32)
  | .expertResult src layer _ tag _ _ _ _ _ => decide (src < 4096) && decide (layer < 256) && decide (tag < 2 ^ 32)
  | .dispatchDone layer _ tag => decide (layer < 256) && decide (tag < 2 ^ 32)
  | .combineDone layer _ tag => decide (layer < 256) && decide (tag < 2 ^ 32)
  | .hpLinkDown => true
  | .hpLinkUp => true
  | .mgmtQueueFrame cls src _ => decide (cls < 2) && decide (src < 65536)
  | .arpRequest _ target requester => decide (target < 2 ^ 128) && decide (requester < 2 ^ 128)
  | .rdmaWrite qp op psn va rkey _ _ _ =>
    decide (qp < 128) && decide (op < 256) && decide (psn < 2 ^ 24) && decide (va < 2 ^ 64) && decide (rkey < 2 ^ 32)
  | .rdmaRead qp psn va rkey _ _ _ =>
    decide (qp < 128) && decide (psn < 2 ^ 24) && decide (va < 2 ^ 64) && decide (rkey < 2 ^ 32)
  | .rdmaAck qp kind psn => decide (qp < 128) && decide (kind < 4) && decide (psn < 2 ^ 24)
  | .readResponse qp psn _ _ => decide (qp < 128) && decide (psn < 2 ^ 24)
  | .cnpReceive qp => decide (qp < 128)
  | .rateIncrease qp => decide (qp < 128)
  | .retransmitTimeout qp => decide (qp < 128)
  | .pfcPause prio quanta => decide (prio < 8) && decide (quanta < 65536)
  | .pfcPauseRefresh prio _ => decide (prio < 8)
  | .pfcStorm prio => decide (prio < 8)
  | .qpReset qp => decide (qp < 256)
  | .ptpSync domain src seq _ origin rx =>
    decide (domain < 256) && decide (src < 2 ^ 80) && decide (seq < 65536) && decide (origin < 2 ^ 80) && decide (rx < 2 ^ 80)
  | .ptpFollowUp domain src seq origin =>
    decide (domain < 256) && decide (src < 2 ^ 80) && decide (seq < 65536) && decide (origin < 2 ^ 80)
  | .ptpDelayResp domain src seq t4 =>
    decide (domain < 256) && decide (src < 2 ^ 80) && decide (seq < 65536) && decide (t4 < 2 ^ 80)
  | .ptpAnnounce domain _ => decide (domain < 256)
  | .ptpAnnounceTimeout => true
  | .syseridTick _ => true
  | .syseridRead node seq idx sub =>
    decide (node < 65536) && decide (seq < 2 ^ 32) && decide (idx < 65536) && decide (sub < 256)
  | .syseridReadStaged node seq idx sub =>
    decide (node < 65536) && decide (seq < 2 ^ 32) && decide (idx < 65536) && decide (sub < 256)
  | .syseridWrite node seq idx sub len _ _ =>
    decide (node < 65536) && decide (seq < 2 ^ 32) && decide (idx < 65536) && decide (sub < 256) && decide (len < 65536)
  | .pendingComplete ticket => decide (ticket < 65536)
  | .completeResend ticket => decide (ticket < 65536)
  | .ackComplete node seq => decide (node < 65536) && decide (seq < 2 ^ 32)
  | .stallTimeout ticket _ _ => decide (ticket < 65536)
  | .ackEvents row eseq => decide (row < 4) && decide (eseq < 2 ^ 32)
  | .eventResend row => decide (row < 4)
  | .subscriberRetry row => decide (row < 4)
  | .genCheck value => decide (value < 256)
  | .genCheckDone => true
  | .commitNow record => decide (record < 2 ^ 256)
  | .commitAtBoundary record => decide (record < 2 ^ 256)
  | .commitAtTime record => decide (record < 2 ^ 256)
  | .rollbackNow record => decide (record < 2 ^ 256)
  | .rollbackAtBoundary record => decide (record < 2 ^ 256)
  | .rollbackAtTime record => decide (record < 2 ^ 256)
  | .genCancel value => decide (value < 256)
  | .stageDiscard value => decide (value < 256)
  | .armedTimeApply => true
  | .genStoreDone _ => true
  | .hmExternal value => decide (value < 2 ^ 32)
  | .cutAtStep step => decide (step < 2 ^ 64)
  | .cutCapture => true
  | .captureDone _ => true
  | .nvmeCompletion _ => true
  | .cutComplete _ => true
  | .mirrorDone _ => true
  | .snRestore record => decide (record < 2 ^ 128)
  | .restoreDone _ _ => true
  | .rcRecover record => decide (record < 2 ^ 192)
  | .recordStart => true
  | .axolotlFill => true
  | .wedgeCapture value _ _ => decide (value < 256)
  | .fabricProbeTimeout _ _ => true
  | .scrubLine unit _ => decide (unit < 48)
  | .cvConfig unit value => decide (unit < 8) && decide (value < 2 ^ 32)
  | .cvFeed8 value => decide (value < 65536)
  | .cvFeed16 value => decide (value < 2 ^ 32)
  | .cvFeed32 value => decide (value < 2 ^ 64)
  | .cvScan record => decide (record < 2 ^ 128)
  | .cvScanDone unit => decide (unit < 8)
  | .cvFinish unit => decide (unit < 256)
  | .cvStateLoad unit value => decide (unit < 8) && decide (value < 2 ^ 192)
  | .cvCompareSet channel value => decide (channel < 8) && decide (value < 2 ^ 64)
  | .revokeKey slot => decide (slot < 256)
  | .rollbackCommit value good => decide (value < 256) && decide (good < 2 ^ 32)
  | .flashErase image => decide (image < 256)
  | .flashWrite bytes => decide (bytes.length = 4096)
  | .imageVerify image => decide (image < 256)
  | .bootPrefer image => decide (image < 256)
  | .flashOperationDone region _ => decide (region < 3)
  | .attestNonce nonce => decide (nonce < 2 ^ 256)
  | .debugUnlock _ _ => true
  | .bridgeReq dir bundle seq ord _ _ =>
    decide (dir < 2) && decide (bundle < 24) && decide (seq < 256) && decide (ord < 4096)
  | .bridgeWdata dir bundle seq ord tag data _ =>
    decide (dir < 2) && decide (bundle < 24) && decide (seq < 256) && decide (ord < 4096) && decide (tag < 65536) &&
      data.ue.all (fun i => decide (i < 32))
  | .bridgeSig dir bundle seq ord _ _ =>
    decide (dir < 2) && decide (bundle < 24) && decide (seq < 256) && decide (ord < 4096)
  | .bridgeRdata dir bundle seq ord tag data _ =>
    decide (dir < 2) && decide (bundle < 24) && decide (seq < 256) && decide (ord < 4096) && decide (tag < 65536) &&
      data.ue.all (fun i => decide (i < 32))
  | .bridgeWack dir bundle seq ord _ _ =>
    decide (dir < 2) && decide (bundle < 24) && decide (seq < 256) && decide (ord < 4096)
  | .bridgeAck dir bundle _ _ _ _ => decide (dir < 2) && decide (bundle < 24)
  | .bridgeAckTimer dir => decide (dir < 2)
  | .bundleRetrainDone dir bundle _ _ _ _ => decide (dir < 2) && decide (bundle < 24)
  | .inputSample _ _ => true
  | .powerFail => true
  | .powerRestore => true
  | .overvoltageTrip => true
  | .dutyAdjust => true
  | .sensorSample _ => true
  | .thermalTrip => true
  | .refclkLoss which _ _ => decide (which < 2)
  | .pllUnlock _ _ _ => true
  | .pinReset => true
  | .resetCommand value => decide (value < 256)
  | .resetTakeEffect => true
  | .watchdogExpiry => true
  | .startupStep _ => true
  | .startupTimeout _ _ => true
  | .farInitDone => true
  | .jtagBypass => true
  | .jtagIdcode => true
  | .jtagSamplePreload _ _ => true
  | .jtagExtest _ => true
  | .jtagExtestPulse _ => true
  | .jtagExtestTrain _ => true
  | .writeDone ctx _ => decide (ctx < 64)
  | .swapOutDone ctx => decide (ctx < 64)
  | .powerOnReset => true
  | .resetNRelease => true
  | .pauseQuantaExpiry prio => decide (prio < 8)
  | .unmatchedFrame => true

end Sys2Proof
end

