-- ==== Sys2Proof/Tests/Slice0.lean ====
section
/-! SUPPORT. The author's own tests: commands the well-formedness check refuses, the manual's worked examples, and for every
obligation with hypotheses concrete states and operands that meet them, clause by clause. -/

namespace Sys2Proof.Tests.Slice0

open Sys2Proof.Machine

set_option Elab.async false

/-! ### Ill-formed commands -/

theorem test_illFormed_tensor : ([.tuNop 128,
    .mma 128 0 [],
    .swap 128 0,
    .halfRelease 128,
    .fence 128,
    .fenceDone 128,
    .tileDrain 128 0 0 0,
    .tileDrain 0 2 0 0,
    .replaySlotFree 16,
    .shadowCompare 16,
    .counterClear 65536 0,
    .counterClear 0 256,
    .conversionReport 65536 0 0 0,
    .conversionReport 0 0 65536 0,
    .conversionReport 0 0 0 (2 ^ 64),
    .scaleRebuildStart 256] : List Instr).all (fun i => !i.wf) = true := by decide

theorem test_illFormed_vector : ([.vcPass 16 0 true 0 0,
    .vcPass 0 9 true 0 0,
    .writeSemaphoreSignal 16 0,
    .writeSemaphoreSignal 0 9,
    .docTableLoaded 16] : List Instr).all (fun i => !i.wf) = true := by decide

theorem test_illFormed_memory : ([.lineReadReturn ⟨16, 0⟩,
    .faultQueueSlotFree 16 0,
    .xlatInvalidate (2 ^ 64) 0,
    .xlatInvalidate 0 (2 ^ 64),
    .xlatResume 65536,
    .xlatFail 65536,
    .fdNop 16,
    .fdLoad 16 true,
    .fdJoin 16,
    .fdSrc 16,
    .fdStore 16,
    .fdCopy 16,
    .fdDrain 16,
    .fdDrainDone 16,
    .descriptorComplete 16 0,
    .descriptorComplete 0 4,
    .deadlineMiss 16 0,
    .deadlineMiss 0 16,
    .semSignal 16 0 0 0,
    .semSignal 0 4096 0 0,
    .semSignal 0 0 65536 0,
    .semSignal 0 0 0 64,
    .semWait 16 0 0 0,
    .semWait 0 4096 0 0,
    .semWait 0 0 65536 0,
    .semWait 0 0 0 65536,
    .semWaitSucceed 16 0,
    .semWaitSucceed 0 4096,
    .lateWait 16 0,
    .lateWait 0 4096] : List Instr).all (fun i => !i.wf) = true := by decide

theorem test_illFormed_program : ([.progNop 16,
    .progTu 16,
    .progFd 16,
    .progPass 16,
    .progWait 16,
    .progSig 16,
    .progSeta 16,
    .progAdda 16,
    .progLoop 16,
    .progEndl 16,
    .progYield 16,
    .progGath 16,
    .progBkt 16,
    .progEmit 16,
    .progEnd 16,
    .taskDequeue 16 0 0,
    .frameAssign 64 0,
    .swapInDone 64,
    .taskSwitch 16,
    .stepEnd 64,
    .contextStopped 64,
    .stopAtStep (2 ^ 64),
    .swapOutDone 64] : List Instr).all (fun i => !i.wf) = true := by decide

theorem test_illFormed_spawn : ([.sqEntryReceive 128 0,
    .sqEntryReceive 0 (2 ^ 256 * 2 ^ 256),
    .sqDataWrite 128 0 0 0 0 [],
    .sqDataWrite 0 (2 ^ 32) 0 0 0 [],
    .sqDataWrite 0 0 (2 ^ 48) 0 0 [],
    .sqDataWrite 0 0 0 4096 0 [],
    .sqGrantReceive 64 0 0 0,
    .sqGrantReceive 0 2 0 0,
    .sqGrantReceive 0 0 (2 ^ 48) 0,
    .sqPost (2 ^ 128),
    .spillRefill 128,
    .writeDone 64 0] : List Instr).all (fun i => !i.wf) = true := by decide

theorem test_illFormed_versions : ([.commitNotice 4096 0 0,
    .commitNotice 0 (2 ^ 32) 0,
    .releaseNotice 4096 0 0,
    .releaseNotice 0 (2 ^ 32) 0,
    .molt 4096 0,
    .molt 0 8,
    .moltFinish 4096 0,
    .moltFinish 0 8,
    .viewRemapDone 4096 0,
    .gcAllocate 4096 0,
    .gatherDone 4096 0,
    .gatherDone 0 (2 ^ 32),
    .releaseContext 256,
    .applyStart 4096 0,
    .applyDone 4096,
    .clipFactor 1024] : List Instr).all (fun i => !i.wf) = true := by decide

theorem test_illFormed_random : ([.rngFill (2 ^ 256),
    .rngProbe (2 ^ 128)] : List Instr).all (fun i => !i.wf) = true := by decide

theorem test_illFormed_relay : ([.quadTrain 16 ⟨0, 0, 0, 0, 0, 0, 0, 0⟩,
    .trainTimeout 16,
    .quadRetrain 65536,
    .retrainTimeout 16,
    .dataFlit 16 ⟨0, 0, ⟨0, 0, false, false, 0, 0⟩, 0, 0, [], 0, true⟩,
    .ctrlFlit 16 ⟨0, 0, false, false, 0, 0⟩,
    .idleFlit 16 ⟨0, 0, false, false, 0, 0⟩,
    .croak 16 ⟨0, 0, 0, 0, 0, 0⟩,
    .croakReply 16 ⟨0, 0, 0, 0, 0, 0⟩,
    .laneDrop 16 0,
    .laneDrop 0 16,
    .laneDropDetect 16 0,
    .laneDropDetect 0 4,
    .laneSignalLoss 16,
    .ackTimer 16,
    .replayTimeout 16,
    .creditReturnTimer 16,
    .creditStall 16 0 0,
    .creditStall 0 4 0,
    .croakTimer 16,
    .croakWindowClose 16,
    .messageRoute 16 0,
    .messageRoute 0 4] : List Instr).all (fun i => !i.wf) = true := by decide

theorem test_illFormed_collective : ([.unreachReceive (2 ^ 128),
    .bucketHandoff 16,
    .stagingAllocate 4096 0 0 0,
    .stagingAllocate 0 (2 ^ 64) 0 0,
    .stagingAllocate 0 0 65536 0,
    .announce 4096 0 0 0 0,
    .announce 0 4096 0 0 0,
    .announce 0 0 256 0 0,
    .announce 0 0 0 65536 0,
    .announce 0 0 0 0 16,
    .read 4096 0 0 0 0 0,
    .read 0 256 0 0 0 0,
    .read 0 0 65536 0 0 0,
    .read 0 0 0 16 0 0,
    .read 0 0 0 0 256 0,
    .read 0 0 0 0 0 (2 ^ 128),
    .readData 4096 0 0 0 0 [],
    .readData 0 256 0 0 0 [],
    .readData 0 0 65536 0 0 [],
    .readData 0 0 0 16 0 [],
    .chunkFold 4096 0 0 0 0,
    .chunkFold 0 (2 ^ 64) 0 0 0,
    .chunkFold 0 0 65536 0 0,
    .mdata 4096 0 0 0 0 [],
    .mdata 0 (2 ^ 24) 0 0 0 [],
    .mdata 0 0 (2 ^ 32) 0 0 [],
    .mdata 0 0 0 65536 0 [],
    .mack 4096 0 0 0 0,
    .mack 0 (2 ^ 24) 0 0 0,
    .mack 0 0 (2 ^ 32) 0 0,
    .mack 0 0 0 65536 0,
    .fetch 4096 0 0 0,
    .fetch 0 (2 ^ 24) 0 0,
    .fetch 0 0 (2 ^ 32) 0,
    .fetch 0 0 0 65536,
    .autotomy 1024 0,
    .clip 4096 0 0 0,
    .clip 0 1024 0 0,
    .clip 0 0 256 0] : List Instr).all (fun i => !i.wf) = true := by decide

theorem test_illFormed_exchange : ([.dispatchDoorbell 256 0,
    .combineDoorbell 256,
    .expertRows 4096 0 true 0 0 0 0 [] 0,
    .expertRows 0 256 true 0 0 0 0 [] 0,
    .expertRows 0 0 true (2 ^ 32) 0 0 0 [] 0,
    .expertCount 4096 0 true 0 [],
    .expertCount 0 256 true 0 [],
    .expertCount 0 0 true (2 ^ 32) [],
    .expertResult 4096 0 true 0 0 0 0 [] 0,
    .expertResult 0 256 true 0 0 0 0 [] 0,
    .expertResult 0 0 true (2 ^ 32) 0 0 0 [] 0,
    .dispatchDone 256 true 0,
    .dispatchDone 0 true (2 ^ 32),
    .combineDone 256 true 0,
    .combineDone 0 true (2 ^ 32)] : List Instr).all (fun i => !i.wf) = true := by decide

theorem test_illFormed_host0 : ([.mgmtQueueFrame 2 0 [],
    .mgmtQueueFrame 0 65536 [],
    .arpRequest true (2 ^ 128) 0,
    .arpRequest true 0 (2 ^ 128),
    .rdmaWrite 128 0 0 0 0 0 [] true,
    .rdmaWrite 0 256 0 0 0 0 [] true,
    .rdmaWrite 0 0 (2 ^ 24) 0 0 0 [] true,
    .rdmaWrite 0 0 0 (2 ^ 64) 0 0 [] true,
    .rdmaWrite 0 0 0 0 (2 ^ 32) 0 [] true,
    .rdmaRead 128 0 0 0 0 0 true,
    .rdmaRead 0 (2 ^ 24) 0 0 0 0 true,
    .rdmaRead 0 0 (2 ^ 64) 0 0 0 true,
    .rdmaRead 0 0 0 (2 ^ 32) 0 0 true,
    .rdmaAck 128 0 0,
    .rdmaAck 0 4 0,
    .rdmaAck 0 0 (2 ^ 24),
    .readResponse 128 0 [] true,
    .readResponse 0 (2 ^ 24) [] true,
    .cnpReceive 128,
    .rateIncrease 128,
    .retransmitTimeout 128,
    .pfcPause 8 0,
    .pfcPause 0 65536,
    .pfcPauseRefresh 8 0,
    .pfcStorm 8,
    .qpReset 256,
    .ptpSync 256 0 0 true 0 0,
    .ptpSync 0 (2 ^ 80) 0 true 0 0,
    .ptpSync 0 0 65536 true 0 0,
    .ptpSync 0 0 0 true (2 ^ 80) 0,
    .ptpSync 0 0 0 true 0 (2 ^ 80),
    .ptpFollowUp 256 0 0 0,
    .ptpFollowUp 0 (2 ^ 80) 0 0,
    .ptpFollowUp 0 0 65536 0,
    .ptpFollowUp 0 0 0 (2 ^ 80),
    .ptpDelayResp 256 0 0 0,
    .ptpDelayResp 0 (2 ^ 80) 0 0,
    .ptpDelayResp 0 0 65536 0,
    .ptpDelayResp 0 0 0 (2 ^ 80),
    .ptpAnnounce 256 []] : List Instr).all (fun i => !i.wf) = true := by decide

theorem test_illFormed_host1 : ([.pauseQuantaExpiry 8] : List Instr).all (fun i => !i.wf) = true := by decide

theorem test_illFormed_syserid : ([.syseridRead 65536 0 0 0,
    .syseridRead 0 (2 ^ 32) 0 0,
    .syseridRead 0 0 65536 0,
    .syseridRead 0 0 0 256,
    .syseridReadStaged 65536 0 0 0,
    .syseridReadStaged 0 (2 ^ 32) 0 0,
    .syseridReadStaged 0 0 65536 0,
    .syseridReadStaged 0 0 0 256,
    .syseridWrite 65536 0 0 0 0 0 ⟨0, 0, 0⟩,
    .syseridWrite 0 (2 ^ 32) 0 0 0 0 ⟨0, 0, 0⟩,
    .syseridWrite 0 0 65536 0 0 0 ⟨0, 0, 0⟩,
    .syseridWrite 0 0 0 256 0 0 ⟨0, 0, 0⟩,
    .syseridWrite 0 0 0 0 65536 0 ⟨0, 0, 0⟩,
    .pendingComplete 65536,
    .completeResend 65536,
    .ackComplete 65536 0,
    .ackComplete 0 (2 ^ 32),
    .stallTimeout 65536 0 0,
    .ackEvents 4 0,
    .ackEvents 0 (2 ^ 32),
    .eventResend 4,
    .subscriberRetry 4] : List Instr).all (fun i => !i.wf) = true := by decide

theorem test_illFormed_generations : ([.genCheck 256,
    .commitNow (2 ^ 256),
    .commitAtBoundary (2 ^ 256),
    .commitAtTime (2 ^ 256),
    .rollbackNow (2 ^ 256),
    .rollbackAtBoundary (2 ^ 256),
    .rollbackAtTime (2 ^ 256),
    .genCancel 256,
    .stageDiscard 256] : List Instr).all (fun i => !i.wf) = true := by decide

theorem test_illFormed_health : ([.hmExternal (2 ^ 32),
    .cutAtStep (2 ^ 64),
    .snRestore (2 ^ 128),
    .rcRecover (2 ^ 192),
    .wedgeCapture 256 0 0] : List Instr).all (fun i => !i.wf) = true := by decide

theorem test_illFormed_integrity : ([.scrubLine 48 [],
    .cvConfig 8 0,
    .cvConfig 0 (2 ^ 32),
    .cvFeed8 65536,
    .cvFeed16 (2 ^ 32),
    .cvFeed32 (2 ^ 64),
    .cvScan (2 ^ 128),
    .cvScanDone 8,
    .cvFinish 256,
    .cvStateLoad 8 0,
    .cvStateLoad 0 (2 ^ 192),
    .cvCompareSet 8 0,
    .cvCompareSet 0 (2 ^ 64)] : List Instr).all (fun i => !i.wf) = true := by decide

theorem test_illFormed_security : ([.revokeKey 256,
    .rollbackCommit 256 0,
    .rollbackCommit 0 (2 ^ 32),
    .flashErase 256,
    .flashWrite [],
    .imageVerify 256,
    .bootPrefer 256,
    .flashOperationDone 3 true,
    .attestNonce (2 ^ 256)] : List Instr).all (fun i => !i.wf) = true := by decide

theorem test_illFormed_bridge : ([.bridgeReq 2 0 0 0 [] true,
    .bridgeReq 0 24 0 0 [] true,
    .bridgeReq 0 0 256 0 [] true,
    .bridgeReq 0 0 0 4096 [] true,
    .bridgeWdata 2 0 0 0 0 ⟨[], []⟩ true,
    .bridgeWdata 0 24 0 0 0 ⟨[], []⟩ true,
    .bridgeWdata 0 0 256 0 0 ⟨[], []⟩ true,
    .bridgeWdata 0 0 0 4096 0 ⟨[], []⟩ true,
    .bridgeWdata 0 0 0 0 65536 ⟨[], []⟩ true,
    .bridgeWdata 0 0 0 0 0 ⟨[], [32]⟩ true,
    .bridgeSig 2 0 0 0 [] true,
    .bridgeSig 0 24 0 0 [] true,
    .bridgeSig 0 0 256 0 [] true,
    .bridgeSig 0 0 0 4096 [] true,
    .bridgeRdata 2 0 0 0 0 ⟨[], []⟩ true,
    .bridgeRdata 0 24 0 0 0 ⟨[], []⟩ true,
    .bridgeRdata 0 0 256 0 0 ⟨[], []⟩ true,
    .bridgeRdata 0 0 0 4096 0 ⟨[], []⟩ true,
    .bridgeRdata 0 0 0 0 65536 ⟨[], []⟩ true,
    .bridgeRdata 0 0 0 0 0 ⟨[], [32]⟩ true,
    .bridgeWack 2 0 0 0 [] true,
    .bridgeWack 0 24 0 0 [] true,
    .bridgeWack 0 0 256 0 [] true,
    .bridgeWack 0 0 0 4096 [] true,
    .bridgeAck 2 0 [] 0 0 true,
    .bridgeAck 0 24 [] 0 0 true,
    .bridgeAckTimer 2,
    .bundleRetrainDone 2 0 [] true 0 0,
    .bundleRetrainDone 0 24 [] true 0 0] : List Instr).all (fun i => !i.wf) = true := by decide

theorem test_illFormed_power : ([.refclkLoss 2 0 0,
    .resetCommand 256] : List Instr).all (fun i => !i.wf) = true := by decide

/-! ### Small devices -/

/-- A device that has finished its start-up: ready, every start-up step passed, no job. -/
def dev0 : Dev := setObj (setObj freshDev 0xE000 0 2) 0xE001 0 0xFF

/-- A state with nothing waiting. -/
def st (d : Dev) : State := { dev := d, pending := [] }

/-- Object values put in force. -/
def withObjs (d : Dev) (l : List (Nat × Nat × Nat)) : Dev := l.foldl (fun d o => setObj d o.1 o.2.1 o.2.2) d

/-- A TU command of context 0. -/
def tuCmd (w : Nat) : TuEntry := { word := w, ctx := 0, tag := 0, replay := false, fallback := false, reload := none }

/-- The device with TU `t` as given. -/
def onTu (t : Nat) (x : Tu) : State := st { dev0 with tus := [(t, x)] }

/-- A sequencer whose context 0 is resident. -/
def oneCtx : Seq := { seqReset with ctxs := [(0, { ctxReset with st := .resident })] }

/-- A slotted bank that waits to drain the tile of one MMA with one live position. -/
def drainBank : Bank := { freeBank with draining := true, slotted := true, opener := 0x1000800000008000008000000000000, last := 0x1000800000008000008000000000000 }

/-- A shadow unit whose tile has the descale NaN, so that its sum is NaN where the tile drained 1. -/
def shadowNan : Shadow := { shadowFree with busy := true, drained := some [(0, f32One)], descale := f32Nan }

/-- A product with NaN is NaN. -/
theorem f32Mul_nan (x : F32) : f32Mul x f32Nan = f32Nan := by
  have h : ofF32 f32Nan = .nan := by decide +kernel
  have e : ∀ v, fxMul v .nan = .nan := by intro v; cases v <;> rfl
  have k : toF32 .nan = f32Nan := by decide +kernel
  rw [f32Mul, h, e, k]

/-- What that shadow unit finds wrong. -/
theorem shadowNan_bad : shadowBad dev0 shadowNan [(0, f32One)] = [(0, f32One, f32Nan, shadowTau dev0 shadowNan f32Nan)] := by
  have h : shadowSums shadowNan 0 = (f32Nan, f32Nan) := by simp only [shadowSums, shadowNan, f32Mul_nan]
  have k : shadowAgree (shadowTau dev0 shadowNan f32Nan) (ofF32 f32One) (ofF32 f32Nan) = false := by decide +kernel
  simp only [shadowBad, List.filterMap, h, k, Bool.false_eq_true, if_false]

/-- A queue entry of context 0 with descriptor `w`. -/
def fdE (w : Nat) : FdEntry := { desc := w, ctx := 0, task := 0, start := 0, tu := 0, reload := none, wdone := false }

/-- The device with entry `x` at the head of queue `q` of fetch engine 15. -/
def onFe (q : Nat) (x : FdEntry) : State := st { dev0 with fes := [(15, { feReset with queues := [(q, [x])] })] }

/-- An active record of the write queue. -/
def act (x : FdEntry) : FdActive :=
  { entry := x, queue := 3, seq := 0, halves := [], ids := [], hostBytes := [], hostWait := false, stalled := false
    srcReq := (0, 0), dstReq := (0, 0), fid := 0, fault := false, susp := false, ready := false, moved := false, sigheld := false
    redo := [] }

/-- The device with records active in fetch engine 0. -/
def onActive (l : List FdActive) : Dev := { dev0 with fes := [(0, { feReset with active := l })] }

/-- A pass of slot 0 for lane group `src` of context 0. -/
def pass0 (src : Nat) : Pass :=
  { num := 0, slot := 0, src, ctx := 0, task := 0, tag := 0, step := 0, place := 0, mask := none, qpos := 0, kpos := 0
    srec := false, jrec := false, red := 0, block := 0, pos := 0 }

/-- A pass's configuration word, its JOIN block, its discarded groups and its input under its mask. -/
abbrev passCw (s : State) (c : Nat) (p : Pass) : Nat := tget configReset (vcAt s.dev c).config p.slot
abbrev passJoin (s : State) (c : Nat) (p : Pass) : Option PortBlock :=
  if cwJen (passCw s c p) then (vcAt s.dev c).joins.head? else none
abbrev passMis (s : State) (m : Nat) (i : PassIn) : Nat := if s.dev.sup.checked then m % 2 ^ ceilDiv (i.rows * i.cols) 32 else 0
abbrev passMasked (s : State) (c : Nat) (p : Pass) (i : PassIn) : PassIn :=
  match p.mask with
  | some x => maskIn s.dev p (tget maskReset (vcAt s.dev c).masks x) (vcAt s.dev c).doc.entries i
  | none => i

/-- A tile of one position. -/
def tile0 : Tile := { tu := 0, bank := 0, vals := [(0, f32One)], status := 0, rpl := 0, last := 0, ctx := 0, tag := 0 }

/-- A device whose chain 0 has an opened pass for TU 0 and its tile. -/
def passDev : Dev :=
  { dev0 with seq := oneCtx, tiles := [(0, tile0)], vcs := [(0, { vcReset with config := [(0, 2 ^ 248)], passes := [pass0 0] })] }

/-- The near memory of half 0 set aside for the scratchpad, and one fault record. -/
def fault0 : FaultRec := { fid := 1, cause := 0, fe := 0, write := false, ctx := 0, step := 0, jaddr := 0 }

/-- Context 0 of the device: the head of a pipeline, enabled on cluster 0, image at the foot of the scratch, M = 1. -/
def dev1 : Dev := setObj dev0 0x6010 1 (2 ^ 255 + 2 ^ 251 + 2 ^ 224 + 0x4000000)

/-- Task 1 of context 0 with a place on cluster 0. -/
def task1 (p : Place) : Task :=
  { id := 1, ctx := 0, bwd := false, tag := 0, place := 0, step := 0, inAddr := 0, outAddr := 0, entry := 0, start := 0
    places := [(0, p)], outBytes := 0, wrote := 0, emitted := false }

/-- A place at the start of a program. -/
def place1 : Place := { placeReset with begun := true, regs := List.replicate 15 0 }

/-- Cluster 0 works on task 1 with a place `p`; the image of the context holds `ws`. -/
def progDev (ws : List Nat) (p : Place) : Dev :=
  { dev1 with mem := memWrite memReset 0x4000000 (ws.flatMap (leBytes 16))
              seq := { seqReset with ctxs := [(0, { ctxReset with st := .running, imgLen := 16 * ws.length })]
                                     tasks := [task1 p], current := [(0, 1)], job := .running } }

/-- What makes the command at a program position issue. -/
theorem progAt_of {s : State} {g op : Nat} {t : Task} {q : Place} {w ws : List Nat}
    (h : issuing s.dev g = some (t, q) ∧ (readWords s.dev t g 1 q.pc).1 = some (some w) ∧ fld (w.headD 0) 127 120 = op ∧
      (readWords s.dev t g (cmdWords op) q.pc).1 = some (some ws) ∧ cmdValid s.dev g q ws = true) :
    ProgAt s g op t { q with switchWanted := q.switchWanted && q.busySince } ws (readWords s.dev t g (cmdWords op) q.pc).2 :=
  ⟨q, w, h.1, h.2.1, h.2.2.1, Prod.ext h.2.2.2.1 rfl, h.2.2.2.2, rfl⟩

/-- A running context 0 with a frame, one FWD started, and the entry of its BWD in the backward queue. -/
def readyDev : Dev :=
  { dev1 with seq := { seqReset with ctxs := [(0, { ctxReset with st := .running, frame := some 0, fwd := 1, inflight := 1 })]
                                     job := .running }
              sq := { sqReset with queues := [(1, { spawnQReset with resident := [0] })], arrivals := [1] } }

/-- Context 0 ready to start a task, and contexts 1 to 16 in every frame, in state `x`; context 1 is the only other one enabled. -/
def fullFrames (x : CtxState) : Dev :=
  { setObj readyDev 0x6010 2 (2 ^ 255) with seq := { readyDev.seq with
      ctxs := (0, { ctxReset with st := .swappedOut, fwd := 1, inflight := 1 }) ::
        (List.range 16).map (fun f => (f + 1, { ctxReset with st := x, frame := some f })) } }

/-- Keyed entries put in force. -/
def withKeyed (d : Dev) (l : List (Nat × Nat × Nat)) : Dev :=
  { d with keyed := l.foldl (fun t o => tset t (o.1 * 2 ^ 24 + o.2.1) o.2.2) d.keyed }

/-- Context 0 with a forward pool of two slots at the foot of the scratch, four resident entries, and no translation. -/
def poolDev : Dev :=
  withObjs dev0 [(0x6010, 1, 2 ^ 255 + 2 ^ 224), (0x8031, 0, 0),
    (0x6110, 1, 0x4000000 * 2 ^ 464 + 64 * 2 ^ 432 + 2 * 2 ^ 423 + 4 * 2 ^ 291)]

/-- The device with forward queue 0 as given. -/
def onQueue (x : SpawnQ) : Dev := { poolDev with sq := { sqReset with queues := [(0, x)] } }

/-- Parameter entry 0: enabled, a ring of two, a group of one member. -/
def parDev : Dev := withKeyed dev0 [(0x6812, 0, 2 ^ 511 + 2 * 2 ^ 483)]

/-- Parameter entry 0 with its store as given. -/
def onPar (x : WvEntry) : Dev := { parDev with wv := { wvReset with entries := [(0, x)] } }

/-- Parameter entry 0 with slot 0 as given. -/
def onSlot (x : VSlot) : Dev := onPar { wvEntryReset with slots := [(0, x)] }

/-- The device with update entry 0 as given, of one element and one place, its accumulators at the foot of the scratch. -/
def onUp (x : UpEntry) : Dev :=
  { withKeyed parDev [(0x6912, 0, 2 ^ 510 + 2 ^ 501 + 2 * 2 ^ 378 + 0x4000000 * 2 ^ 186)] with up := { upReset with entries := [(0, x)] } }

/-- A pair whose first part is known. -/
theorem pair_of {α β : Type} {p : α × β} {a : α} (h : p.1 = a) : p = (a, p.2) := Prod.ext h rfl

/-- An option that holds something. -/
theorem some_of {α : Type} {o : Option α} (h : o.isSome = true) : o = some (o.get h) := (Option.some_get h).symm

/-- A quad that is up with device 1. -/
def upQuad : Quad := { quadReset with state := 2, peerDev := 1, lmask := 15, rate := 200 }

/-- The device with quad `q` as given. -/
def onQuad (q : Nat) (x : Quad) : Dev := { dev0 with rl := { rlReset with quads := [(q, x)] } }

/-- A flit header that acknowledges nothing and returns no credit. -/
def noAck : FlitAck := { astream := 0, aseq := 0, nak := false, avalid := false, cvc := 0, credit := 0 }

/-- A DATA flit of stream 0 that carries filler, with its CRC. -/
def flit0 (seq : Nat) : DataFlit :=
  { stream := 0, seq, ack := noAck, fvc := 0, msgoff := 15, units := List.replicate 15 0
    crc := flitCrc (flitHeader 1 0 seq noAck 0 15) (List.replicate 15 0), fec := true }

/-- Bucket 0 of parameter entry 0 with one row of one block, in a group of this device and device 5; its staging region. -/
def bktDev : Dev :=
  withKeyed (withObjs dev0 [(0xA020, 1, 0x5000000), (0xA021, 1, 1152)])
    [(0x6812, 0, 2 ^ 511 + 2 * 2 ^ 483 + 2 ^ 464), (0x6912, 0, 2 ^ 510 + 2 ^ 501 + 64 * 2 ^ 378 + 0x4000000 * 2 ^ 186),
     (0xA012, 0, 2 ^ 1017 + 2 * 2 ^ 1007 + 5 * 2 ^ 12), (0xA015, 0, 2 ^ 127 + 2 ^ 80 + 2 ^ 64 + 2 ^ 40 + 2 ^ 17)]

/-- A match of that bucket for step 2 whose shares have all landed. -/
def match0 : Match :=
  { bucket := 0, step := 2, place := 0, ranks := [0, 1], shares := [(0, 0), (2 ^ 32, 0)], data := [], delivered := [], taken := [] }

/-- The device with that match and update entry 0 as given. -/
def onMatch (x : UpEntry) : Dev :=
  { bktDev with ce := { ceReset with matches_ := [match0] }, up := { upReset with entries := [(0, x)] } }

/-- A multicast of entry 0 with nothing sent. -/
def mcast0 : Mcast := { entry := 0, ver := 0, origin := 0, acks := [(1, 0)], sent := 0, total := 0 }

/-- That multicast with an acknowledgement of rank `r` up to `n`. -/
abbrev acked (m : Mcast) (r n : Nat) : Mcast := { m with acks := tset m.acks r (max n (tget 0 m.acks r)) }

/-- Exchange layer 0 with one expert, on this device, and a group of one. -/
def exDev : Dev := withKeyed dev0 [(0xA812, 0, 2 ^ 511 + 2 ^ 482)]

/-- A doorbell of layer 0. -/
def bell0 : ExBell := { layer := 0, combine := false, bwd := false, tag := 0, step := 0, a0 := 0, bad := false }

/-- The device of `s` with doorbell `b` taken from its queue. -/
abbrev bellTaken (s : State) (b : ExBell) : Dev := { s.dev with ex := { s.dev.ex with bells := s.dev.ex.bells.erase b } }

/-- The exchange layer with a tag and doorbells as given. -/
def onEx (ts : List ExTag) (bs : List ExBell) : Dev := { exDev with ex := { exReset with tags := ts, bells := bs } }

/-- The host port with its link up and nothing else. -/
def hpUp : Hp := { hpReset with linkUp := true }

/-- The device with its host port as given. -/
def onHp (x : Hp) : State := st { dev0 with hp := x }

/-- Queue pair 127 enabled, and a memory key for one page at the foot of the scratch, without translation. -/
def qpDev : Dev :=
  { withObjs dev0 [(0xB030, 128, 2 ^ 255), (0xB032, 1, 7 * 2 ^ 189 + 0x4000000 * 2 ^ 80 + 65536 * 2 ^ 32), (0x8031, 0, 0)] with hp := hpUp }

/-- The device with queue pair 127 as given. -/
def onQp (x : Qp) : Dev := { qpDev with hp := { hpUp with qps := [(127, x)] } }

/-- The device of `s` with a request of queue pair `i` noted; with `c` set, its CNP sent as well. -/
abbrev qpNoted (s : State) (i : Nat) (c : Bool) : Dev :=
  let q := qpStart s.dev i
  let d := setQp (bump s.dev 0xB050 0 1) i q
  if (fun c => c && Option.all (fun t => decide (t + 50000 ≤ s.dev.uptime)) q.lastCnpSent) c = true then
    hostSend (bump (setQp d i { q with lastCnpSent := some s.dev.uptime }) 0xB056 0 1) 7 [i, fld (qpRow s.dev i) 252 229] []
  else d

/-- The device with the PTP clock as given. -/
def onPtp (x : Ptp) : Dev := { dev0 with hp := { hpUp with ptp := x } }

/-- The device of `s` with nothing armed. -/
abbrev disarmed (s : State) : Dev := { s.dev with gn := { s.dev.gn with armed := none } }

/-- More than 4,096 ledger records do not fit in the staging set. -/
theorem ledger_full (t : Tab Nat) (h : 4096 < ledgerRecs t) : stageFits t = false := by
  simp only [stageFits, decide_eq_false_iff_not]
  omega

/-- The row of an object. -/
def rowAt (i k : Nat) : ObjRow := (objRow i k).getD (row 0 0 0 .ro 0 false 0 .i)

/-- What a cut of the idle device holds. -/
def cut0 : Cut := cutOf dev0 []

/-- The device with the snapshot engine as given. -/
def onSn (x : Sn) : Dev := { dev0 with sn := x }

/-- A device held at a boundary for its cut, with one registered region and a reserve. -/
def heldDev : Dev :=
  { withObjs dev0 [(0x8031, 0, 0), (0xC103, 1, 1), (0xC104, 1, 2 ^ 127 + 0x4000000 * 2 ^ 72 + 65536 * 2 ^ 24)] with
    seq := { seqReset with cutHeld := true } }

/-- A flush of that cut in phase `p` with `n` segments left. -/
def flush0 (p : FlushPhase) (n : Nat) : Flush := { cut := cut0, slot := 0, phase := p, left := n }

/-- A recovery record: RID and the failed device. -/
def rec0 (rid failed : Nat) : Nat := rid * 2 ^ 176 + failed * 2 ^ 164

/-- The device with the recovery controller as given. -/
def onRc (x : Rc) : Dev := { dev0 with rc := x }

/-- That device with uncorrectable words. -/
def heldUe (l : List Nat) : Dev := { heldDev with mem := { memReset with ue := l } }

/-- Every registered byte of that device is where its cut can read it. -/
theorem heldUe_items (l : List Nat) (h : jobItems (heldUe l) = [(0x80, 0, 0x4000000, 65536)])
    (k : (jobPieces (heldUe l) 0x4000000 65536 false).isSome = true) (r : halves.any (reserveSet (heldUe l)) = true) :
    ¬ (halves.any (reserveSet (heldUe l)) = false ∨
      ∃ i ∈ jobItems (heldUe l), jobPieces (heldUe l) i.2.2.1 i.2.2.2 false = none) := by
  rintro (g | ⟨i, hi, e⟩)
  · simp [r] at g
  · rw [h] at hi
    obtain rfl := List.mem_singleton.mp hi
    rw [e] at k
    cases k

/-- With no such word, the cut can take what the item holds. -/
theorem heldUe_read (i : Nat × Nat × Nat × Nat) (_ : i ∈ jobItems (heldUe [])) (l : List (Nat × Nat))
    (_ : jobPieces (heldUe []) i.2.2.1 i.2.2.2 false = some l) (x : Nat × Nat) (_ : x ∈ l) :
    ueIn (heldUe []).mem x.1 x.2 = [] := by
  simp [heldUe, ueIn, siteWords, memReset]

/-- A bundle that is up. -/
def upBundle : Bundle := { bundleReset with state := 2, nextSeq := 1 }

/-- The eastbound direction with bundle 0 as given. -/
def onEast (u : Bundle) : Dev := { dev0 with east := { brDirReset with bundles := [(0, u)] } }

/-- The five sequenced frames that can cross a bundle, with what each carries. -/
abbrev frameCommands (dir b seq ord tag : Nat) (ok : Bool) (bytes : List Byte) (ue : BadWords) (reqs : List BridgeReq)
    (sigs : List BridgeSig) (tags : List Nat) : List (Instr × BrBody) :=
  [(.bridgeReq dir b seq ord reqs ok, .req reqs), (.bridgeWdata dir b seq ord tag ⟨bytes, ue⟩ ok, .wdata tag bytes ue),
    (.bridgeSig dir b seq ord sigs ok, .sig sigs), (.bridgeRdata dir b seq ord tag ⟨bytes, ue⟩ ok, .rdata tag bytes ue),
    (.bridgeWack dir b seq ord tags ok, .wack tags)]

/-- A direction once its sender is seen to send a frame, its bundle then, and the direction once the bundle has taken it. -/
abbrev frameSent (s : State) (dir b seq ord : Nat) (f : BrBody) : BrDir :=
  brDir (brSent s.dev dir b seq { ord, body := sentBody f }) dir
abbrev frameBundle (s : State) (dir b seq ord : Nat) (f : BrBody) : Bundle := bundleAt (frameSent s dir b seq ord f) b
abbrev frameTaken (s : State) (dir b seq ord : Nat) (f : BrBody) : BrDir :=
  putBundle (frameSent s dir b seq ord f) b { frameBundle s dir b seq ord f with
    expected := ((frameBundle s dir b seq ord f).expected + 1) % 256, nak := false }

/-- The device in start-up step `k` or past it, in power state `st`. -/
def onStart (st k : Nat) : State := { dev := withObjs dev0 [(0xE000, 0, st), (0xE001, 0, k)], pending := [] }

/-- The device with its die-to-die bundles trained in start-up step 6. -/
abbrev trained (s : State) (i : StartInfo) (n : Nat) : Dev :=
  trainBridge (clocksOn (setObj s.dev 0xE002 n (min i.us (2 ^ 32 - 1))) [24, 25, 26, 27, 28, 29]) i.bundles

/-- A device about to boot, with `t` in the region of image A. -/
def bootDev (t : Tab Byte) : State := { dev := { (onStart 1 4).dev with sec := { secReset with img0 := t } }, pending := [] }

/-- It boots image A if its checks pass. -/
theorem bootDev_selects (t : Tab Byte) (h : imageCause (setObj (bootDev t).dev 0xE002 4 0) 0 false = 0) :
    (bootSelect (setObj (bootDev t).dev 0xE002 4 0) [] 0).1 = true := by
  have p : bootPreferred (setObj (bootDev t).dev 0xE002 4 0) % 2 = 0 := rfl
  simp only [bootSelect, p, List.contains_nil, h, if_true]

/-- The device with the power record as given. -/
def onPw (x : Pw) : State := { dev := { dev0 with pw := x }, pending := [] }

/-- A device whose log is full of records that its one subscriber has not acknowledged. -/
def fullDev : Dev :=
  { setObj dev0 0x1120 1 (2 ^ 255) with
    ev := { evReset with log := List.replicate 4096 { code := 0x0100, eseq := 0, time := 0, step := 0, arg0 := 0, arg1 := 0 }
                         eseq := 4096, subs := [(1, { base := 0, next := 0, resends := 0, stalled := false })] } }

/-- That log holds 4,096 records. -/
theorem fullDev_length : fullDev.ev.log.length = 4096 := by
  unfold fullDev
  exact List.length_replicate

/-- The oldest record of that log is still to be delivered. -/
theorem fullDev_gone : 4096 ≤ fullDev.ev.log.length ∧ ∃ e, fullDev.ev.log.head? = some e ∧ undelivered fullDev e.eseq = true :=
  ⟨Nat.le_of_eq fullDev_length.symm, { code := 0x0100, eseq := 0, time := 0, step := 0, arg0 := 0, arg1 := 0 },
    by decide +kernel, by decide +kernel⟩

/-! ### Worked examples and check values of the manual -/

/-- The state a command answers. -/
def ran (c : Instr) (s : State) : State :=
  match exec c s with
  | .next t => t
  | _ => s

/-- The bytes of "123456789". -/
def digits : List Byte := [0x31, 0x32, 0x33, 0x34, 0x35, 0x36, 0x37, 0x38, 0x39]

/-- The check values of the table of R627 and of R469. -/
theorem test_crc_check_values :
    [0, 1, 2, 3].map (fun k => crcBytes (polyOf k) (polyOf k).init digits ^^^ (polyOf k).xorOut) =
      [0xCBF43926, 0xE3069283, 0x6C40DF5F0B497347, 0x29B1] ∧ crc64 digits = 0x6C40DF5F0B497347 := by decide +kernel

/-- Chapter 23's worked example, step 6: unit 3 takes "9" after eight bytes; step 7: its value. -/
theorem test_fingerprint :
    let d := (ran (.cvFeed8 0x0339) (st { setObj dev0 0xD802 4 (2 ^ 30) with
      cv := { cvReset with units := [(3, { cvUnitReset with run := crcBytes (polyOf 1) 0xFFFFFFFF (digits.take 8), count := 8 })] } })).dev
    (cvAt d 3).count = 9 ∧ (cvAt d 3).run ^^^ 0xFFFFFFFF = 0xE3069283 := by decide +kernel

/-- Chapter 03's worked example of an MXFP4 block, positions 0 to 6: the scale 0x80, the codes, and UNF alone. -/
theorem test_mxfp4_block :
    mxQuantize .e2m1 .rne [0, 0, 0, 0, 0, 0, 0]
      [fxNat 13, fxNeg (fxNat 5), .fin false 27 10, .fin false 76 100, .fin true 3 10, fxNat 0, .fin false 1 4] =
      (0x80, [7, 0xC, 3, 1, 8, 0, 0], { ovf := false, unf := true, nan := false, inf := false }) := by decide +kernel

/-- Chapter 03's worked example of a stochastic rounding: 0x3E99999A to E4M3 with r below and at 39,321, by RNE and by RTZ. -/
theorem test_rounding :
    let c := fun m r => (convert .e4m3 m r true (ofF32 0x3E99999A#32)).1
    c .sr 39320 = 0x2A ∧ c .sr 39321 = 0x29 ∧ c .rne 0 = 0x2A ∧ c .rtz 0 = 0x29 := by decide +kernel

/-- Chapter 04's worked example of a boundary: S falls from 32.0 to 16.0 and LASTSTEP becomes 5,120. -/
theorem test_boundary_scale :
    let x := (closeStep { ledgerReset with policy := 1, margin := 1, tch := true, s := 0x42000000#32, runamax := 0x40833333#32
                                           hcount := 15, ovtiles := 2, hist := [(0, 0x406CCCCD#32)] } 5120 false).1
    x.s = 0x41800000#32 ∧ x.laststep = 5120 ∧ f32Inverse x.s = 0x3D800000#32 := by decide +kernel

/-- Chapter 15's worked example: the four shares summed in rank order, and what another order would give. -/
theorem test_rank_order :
    f32SumLeft [0x3C800000#32, 0x30800000#32, 0x30800000#32, 0xBC000000#32] = 0x3C000000#32 ∧
      f32SumLeft [0xBC000000#32, 0x3C800000#32, 0x30800000#32, 0x30800000#32] = 0x3C000002#32 := by decide +kernel

/-- Chapter 10's worked example, arrivals 2 and 4: an accepted entry shifts two bits out; one sent again is stale. -/
theorem test_laps :
    let d := onQueue { spawnQReset with low := 196602, rcvd := 2 }
    let e := (ran (.sqEntryReceive 0 (196602 * 2 ^ 488)) (st d)).dev
    let f := (ran (.sqEntryReceive 0 (196603 * 2 ^ 488)) (st e)).dev
    (sqAt e 0).low = 196604 ∧ (sqAt e 0).rcvd = 0 ∧ (sqAt e 0).resident.length = 1 ∧ sqAt f 0 = sqAt e 0 := by decide +kernel

/-- A command the queue does not hold changes nothing, and the front one runs (the step of a block). -/
theorem test_step :
    step State.reset = .next State.reset ∧
      step { st dev0 with pending := [.hpLinkUp] } = exec .hpLinkUp (st dev0) := ⟨rfl, rfl⟩

/-! ### Witnesses: the hypotheses of each obligation can be met -/

/-- The hypotheses of `TuQueueCommands`, one clause after another. -/
theorem test_witness_tuQueueCommands :
    (∃ (s : Machine.State) (t : Nat) (e : TuEntry) (q : List TuEntry), ClustersActing s ∧ TuNext s t e q ∧ fld e.word
      127 120 = 0) ∧
    (∃ (s : Machine.State) (t : Nat) (e : TuEntry) (q : List TuEntry), ClustersActing s ∧ TuNext s t e q ∧ fld e.word
      127 120 = 2 ∧ e.reload = none ∧ fld e.word 119 108 = 4095 ∧ fld e.word 107 96 = 4095) ∧
    (∃ (s : Machine.State) (t n : Nat) (e : TuEntry) (q : List TuEntry), ClustersActing s ∧ TuNext s t e q ∧ fld
      e.word 127 120 = 2 ∧ e.reload = none ∧ fld e.word 119 108 = n ∧ n ≠ 4095 ∧ fld e.word 107 96 = 4095 ∧ (semAt
      s.dev (semKey (t / 8) n)).waits = [] ∧ 1 ≤ (semAt s.dev (semKey (t / 8) n)).count ∧ s.dev.grants.contains
      (semKey (t / 8) n, t % 8) = false ∧ (semAt s.dev (semKey (t / 8) n)).bad = false) ∧
    (∃ (s : Machine.State) (t : Nat) (e : TuEntry) (q : List TuEntry), ClustersActing s ∧ TuNext s t e q ∧ fld e.word
      127 120 = 3) ∧
    (∃ (s : Machine.State) (t : Nat), ClustersActing s ∧ (tuAt s.dev t).fencing = true ∧ bankIdle (tuAt s.dev
      t).bank0 = true ∧ bankIdle (tuAt s.dev t).bank1 = true ∧ (tuAt s.dev t).releasing = false ∧ ((tuAt s.dev
      t).queue.all fun e => !e.replay) = true) ∧
    (∃ (s : Machine.State) (t n : Nat), ClustersActing s ∧ (tuAt s.dev t).releasing = true ∧ (tuAt s.dev t).owed =
      [n] ∧ (tuAt s.dev t).queue = [] ∧ n ≠ 4095 ∧ (semAt s.dev (semKey (t / 8) n)).count < 65535 ∧ (semAt s.dev
      (semKey (t / 8) n)).bad = false) ∧
    (∃ (s : Machine.State) (t : Nat) (e : TuEntry) (q : List TuEntry), ClustersActing s ∧ TuNext s t e q ∧ 3 < fld
      e.word 127 120) ∧
    (∃ (s : Machine.State) (t : Nat) (e : TuEntry) (q : List TuEntry), ClustersActing s ∧ TuNext s t e q ∧ fld e.word
      127 120 = 1 ∧ mmaBlocks s.dev (tuAt s.dev t) e.word = none) ∧
    (∃ (s : Machine.State) (t : Nat) (e : TuEntry) (q : List TuEntry) (a : Block × Block), ClustersActing s ∧ TuNext
      s t e q ∧ fld e.word 127 120 = 1 ∧ mmaBlocks s.dev (tuAt s.dev t) e.word = some a ∧ mmaAcc e.word = false ∧
      (tuBank (tuAt s.dev t) (mmaBank e.word)).draining = true) :=
  ⟨⟨onTu 127 { tuReset with queue := [tuCmd 0] }, 127, tuCmd 0, [], by decide +kernel⟩,
   ⟨onTu 127 { tuReset with queue := [tuCmd 0x2ffffff000000000000000000000000] }, 127, tuCmd
     0x2ffffff000000000000000000000000, [], by decide +kernel⟩,
   ⟨st
     { dev0 with
       tus := [(0, { tuReset with queue := [tuCmd 0x2ffefff000000000000000000000000] })],
       sems := [(4094, { count := 1, waits := [] })] }, 0, 4094, tuCmd 0x2ffefff000000000000000000000000, [],
     by decide +kernel⟩,
   ⟨onTu 0 { tuReset with queue := [tuCmd 0x3000000000000000000000000000000] }, 0, tuCmd
     0x3000000000000000000000000000000, [], by decide +kernel⟩,
   ⟨onTu 0 { tuReset with fencing := true }, 0, by decide +kernel⟩,
   ⟨st
     { dev0 with
       tus := [(0, { tuReset with releasing := true, owed := [0] })], sems := [(0, { count := 65534, waits := [] })] },
     0, 0, by decide +kernel⟩,
   ⟨onTu 0 { tuReset with queue := [tuCmd 0x4000000000000000000000000000000] }, 0, tuCmd
     0x4000000000000000000000000000000, [], by decide +kernel⟩,
   ⟨onTu 0 { tuReset with queue := [tuCmd 0x1000000000000000000000000000000] }, 0, tuCmd
     0x1000000000000000000000000000000, [], by decide +kernel⟩,
   ⟨onTu 0 { tuReset with active := some 0, bank0 := drainBank, queue := [tuCmd 0x1000800000008000008000000000000] },
     0, tuCmd 0x1000800000008000008000000000000, [], _, by decide +kernel, by decide +kernel, by decide +kernel,
     some_of (by decide +kernel), by decide +kernel, by decide +kernel⟩⟩

/-- The hypotheses of `MmaAccumulates`, one clause after another. -/
theorem test_witness_mmaAccumulates :
    ∃ (s : Machine.State) (t : Nat) (e : TuEntry) (q : List TuEntry) (a b : Block), ClustersActing s ∧ TuNext s t e q
      ∧ fld e.word 127 120 = 1 ∧ mmaBlocks s.dev (tuAt s.dev t) e.word = some (a, b) ∧ (mmaAcc e.word = true ∨
      (tuBank (tuAt s.dev t) (mmaBank e.word)).draining = false) ∧ (tuHalf (tuAt s.dev t) ((tuAt s.dev t).active.getD
      0)).ue = [] ∧ s.dev.sup.badActive = [] :=
  ⟨onTu 0 { tuReset with active := some 0, queue := [tuCmd 0x1000800000008000008000000000000] }, 0, tuCmd
    0x1000800000008000008000000000000, [], ((mmaBlocks dev0 { tuReset with active := some 0 }
    0x1000800000008000008000000000000).get (by decide +kernel)).1, ((mmaBlocks dev0 { tuReset with active := some 0 }
    0x1000800000008000008000000000000).get (by decide +kernel)).2, by decide +kernel⟩

/-- The hypotheses of `TileDrainAndShadow`, one clause after another. -/
theorem test_witness_tileDrainAndShadow :
    (∃ (s : Machine.State) (t b : Nat) (k : Bank), ClustersActing s ∧ tuBank (tuAt s.dev t) b = k ∧ k.draining = true
      ∧ k.slotted = true ∧ k.ue = false ∧ ctxLive (ctxAt s.dev k.ctx) = true ∧ k.ovf = false ∧ mmaRpl k.last = 0 ∧
      tfind s.dev.tiles t = none ∧ statusOvf (statusWord k (drainValues k s.dev.freeCtr)) = false ∧ bitAt (statusWord
      k (drainValues k s.dev.freeCtr)) 52 = false ∧ shadowHas s.dev t b = false) ∧
    (∃ (s : Machine.State) (t b : Nat) (k : Bank), ClustersActing s ∧ b < 2 ∧ tuBank (tuAt s.dev t) b = k ∧
      k.draining = true ∧ k.slotted = true ∧ ctxLive (ctxAt s.dev k.ctx) = true ∧ k.ovf = true ∧ replayOn s.dev =
      true ∧ k.fallback = false ∧ (semAt s.dev (semKey (t / 8) (3840 + 2 * (t % 8) + b))).count < 65535 ∧ (semAt
      s.dev (semKey (t / 8) (3840 + 2 * (t % 8) + b))).bad = false) ∧
    (∃ (s : Machine.State) (t b : Nat), ClustersActing s ∧ (tuBank (tuAt s.dev t) b).draining = true ∧ (tuBank (tuAt
      s.dev t) b).slotted = false) ∧
    (∃ (s : Machine.State) (t b : Nat) (k : Bank) (x : Tile), ClustersActing s ∧ tuBank (tuAt s.dev t) b = k ∧
      k.draining = true ∧ k.slotted = true ∧ k.ue = false ∧ ctxLive (ctxAt s.dev k.ctx) = true ∧ k.ovf = false ∧
      tfind s.dev.tiles t = some x) ∧
    (∃ (s : Machine.State) (c : Nat) (p : Nat × Nat) (ps : List (Nat × Nat)), ClustersActing s ∧ tget []
      s.dev.sup.passed c = p :: ps ∧ tget [] s.dev.sup.waiting c = []) ∧
    (∃ (s : Machine.State) (c : Nat) (p q : Nat × Nat) (ps qs : List (Nat × Nat)), ClustersActing s ∧ tget []
      s.dev.sup.passed c = p :: ps ∧ tget [] s.dev.sup.waiting c = q :: qs) ∧
    (∃ (s : Machine.State) (c : Nat) (ps : List (Nat × F32)), ClustersActing s ∧ (shadowAt s.dev c).drained = some ps
      ∧ shadowBad s.dev (shadowAt s.dev c) ps = []) ∧
    (∃ (s : State) (c : Nat) (ps : List (Nat × F32)) (x : Nat × F32 × F32 × Fx) (xs : List (Nat × F32 × F32 × Fx)),
      ClustersActing s ∧ (shadowAt s.dev c).drained = some ps ∧ shadowBad s.dev (shadowAt s.dev c) ps = x :: xs) :=
  ⟨⟨st { dev0 with tus := [(0, { tuReset with bank0 := drainBank })], seq := oneCtx }, 0, 0, drainBank,
     by decide +kernel⟩,
   ⟨st { dev0 with tus := [(0, { tuReset with bank1 := { drainBank with ovf := true } })], seq := oneCtx }, 0, 1,
     { drainBank with ovf := true }, by decide +kernel⟩,
   ⟨onTu 0 { tuReset with bank0 := { drainBank with slotted := false } }, 0, 0, by decide +kernel⟩,
   ⟨st { dev0 with tus := [(0, { tuReset with bank0 := drainBank })], seq := oneCtx, tiles := [(0, tile0)] }, 0, 0,
     drainBank, tile0, by decide +kernel⟩,
   ⟨st { dev0 with sup := { supReset with passed := [(15, [(127, 1)])] } }, 15, (127, 1), [], by decide +kernel⟩,
   ⟨st { dev0 with sup := { supReset with passed := [(0, [(0, 1)])], waiting := [(0, [(1, 0)])] } }, 0, (0, 1), (1,
     0), [], [], by decide +kernel⟩,
   ⟨st { dev0 with shadows := [(0, { shadowFree with busy := true, drained := some [] })] }, 0, [],
     by decide +kernel⟩,
   ⟨st (setShadow dev0 0 shadowNan), 0, _, _, _, by decide +kernel, rfl, shadowNan_bad⟩⟩

/-- The hypotheses of `LedgerCommands`, one clause after another. -/
theorem test_witness_ledgerCommands :
    (∃ (s : Machine.State) (e n : Nat), Acting s ∧ s.dev.seq.step ≤ n ∧ s.dev.sup.closed ≠ some n ∧ ueIn s.dev.mem
      (ledgerHome e) 160 = []) ∧
    (∃ (s : Machine.State) (n : Nat), Acting s ∧ (n < s.dev.seq.step ∨ s.dev.sup.closed = some n)) ∧
    (∃ (s : Machine.State), Acting s ∧ s.dev.sup.enginesDone = 2) ∧
    (∃ (s : Machine.State), Acting s ∧ s.dev.sup.enginesDone ≠ 2) ∧
    (∃ (s : Machine.State), Serving s 20515 0 ∧ (s.dev.seq.job = JobState.running ∨ s.dev.seq.job =
      JobState.stopping)) ∧
    (∃ (s : Machine.State), Serving s 20515 0 ∧ s.dev.seq.job = JobState.idle) ∧
    (∃ (s : Machine.State) (v : Nat), Serving s 20515 0 ∧ v ≠ 1) ∧
    (∃ (s : Machine.State) (i code : Nat) (l : List Nat) (j r : Nat), Serving s i 0 ∧ clearList i = some (l, code) ∧
      j ∈ l ∧ r < 256) ∧
    (∃ (s : Machine.State) (i code : Nat) (l : List Nat), Serving s i 0 ∧ clearList i = some (l, code)) ∧
    (∃ (s : Machine.State) (i v : Nat) (l : List Nat × Nat), Serving s i 0 ∧ clearList i = some l ∧ v ≠ 1) :=
  ⟨⟨st dev0, 4095, 0, by decide +kernel⟩,
   ⟨st { dev0 with sup := { supReset with closed := some 0 } }, 0, by decide +kernel⟩,
   ⟨st { dev0 with sup := { supReset with enginesDone := 2 } }, by decide +kernel⟩,
   ⟨st dev0, by decide +kernel⟩,
   ⟨st { dev0 with seq := { seqReset with job := .stopping } }, by decide +kernel⟩,
   ⟨st dev0, by decide +kernel⟩,
   ⟨st dev0, 0, by decide +kernel⟩,
   ⟨st dev0, 0x1130, 0x0106, idxRange 0x1110 0x1115 ++ [0x1124], 0x1124, 255, by decide +kernel⟩,
   ⟨st dev0, 0x1130, 0x0106, idxRange 0x1110 0x1115 ++ [0x1124], by decide +kernel⟩,
   ⟨st dev0, 0x1130, 0, (clearList 0x1130).get (by decide +kernel), by decide +kernel⟩⟩

/-- The hypotheses of `ReportsFoldInAnyOrder`, one clause after another. -/
theorem test_witness_reportsFoldInAnyOrder :
    ∃ (s : Machine.State) (e n : Nat) (v w : F32), Acting s ∧ s.dev.seq.step ≤ n ∧ s.dev.sup.closed ≠ some n ∧ ueIn
      s.dev.mem (ledgerHome e) 160 = [] ∧ BitVec.toNat v ≤ 2139095040 ∧ BitVec.toNat w ≤ 2139095040 ∧ BitVec.toNat
      (ledgerAt s.dev e).runamax ≤ 2139095040 :=
  ⟨st dev0, 4095, 0, 2139095040#32, 0#32, by decide +kernel⟩

/-- The hypotheses of `VectorChainCommands`, one clause after another. -/
theorem test_witness_vectorChainCommands :
    (∃ (s : Machine.State) (c src : Nat) (p : Pass) (i : PassIn) (t : Option Tile) (b : Option PortBlock),
      ClustersActing s ∧ List.find? (fun q => q.src == src) (vcAt s.dev c).passes = some p ∧ passIng s.dev c (passCw
      s c p) p = some (i, t, b) ∧ ctxLive (ctxAt s.dev p.ctx) = true ∧ configValid (passCw s c p) = true ∧ cwJen
      (passCw s c p) = false ∧ p.mask = none ∧ p.jrec = false ∧ p.srec = false ∧ passFault s.dev c (passCw s c p) p i
      none = none ∧ s.dev.sup.checked = false ∧ cwCmp (passCw s c p) = false ∧ cwRed (passCw s c p) = 0 ∧ cwTen
      (passCw s c p) = false ∧ cwTsen (passCw s c p) = false ∧ cwDest (passCw s c p) ≤ 1) ∧
    (∃ (s : Machine.State) (c src m : Nat) (p : Pass) (i : PassIn) (t : Option Tile) (b : Option PortBlock),
      ClustersActing s ∧ List.find? (fun q => q.src == src) (vcAt s.dev c).passes = some p ∧ passIng s.dev c (passCw
      s c p) p = some (i, t, b) ∧ ctxLive (ctxAt s.dev p.ctx) = true ∧ configValid (passCw s c p) = true ∧ cwJen
      (passCw s c p) = false ∧ p.mask = none ∧ p.jrec = false ∧ p.srec = false ∧ passFault s.dev c (passCw s c p) p i
      none = none ∧ s.dev.sup.checked = true ∧ cwCmp (passCw s c p) = false ∧ cwRed (passCw s c p) = 0 ∧ cwTen
      (passCw s c p) = false ∧ cwTsen (passCw s c p) = false ∧ cwDest (passCw s c p) ≤ 1 ∧ m % 2 ^ ceilDiv (i.rows *
      i.cols) 32 ≠ 0) ∧
    (∃ (s : Machine.State) (c src : Nat) (p : Pass) (i : PassIn) (t : Option Tile) (b : Option PortBlock),
      ClustersActing s ∧ List.find? (fun q => q.src == src) (vcAt s.dev c).passes = some p ∧ passIng s.dev c (passCw
      s c p) p = some (i, t, b) ∧ ctxLive (ctxAt s.dev p.ctx) = true) ∧
    (∃ (s : Machine.State) (c src code : Nat) (p : Pass) (i : PassIn) (t : Option Tile) (b : Option PortBlock),
      ClustersActing s ∧ List.find? (fun q => q.src == src) (vcAt s.dev c).passes = some p ∧ passIng s.dev c (passCw
      s c p) p = some (i, t, b) ∧ ctxLive (ctxAt s.dev p.ctx) = true ∧ Option.any (fun k => (vcAt s.dev
      c).badMasks.contains k) p.mask = false ∧ (configValid (passCw s c p) && cwJen (passCw s c p) && (passJoin s c
      p).isNone) = false ∧ docNeeded (vcAt s.dev c) p = none ∧ passFault s.dev c (passCw s c p) p i (passJoin s c p)
      = some code) ∧
    (∃ (s : Machine.State) (c src m h : Nat) (p : Pass) (i : PassIn) (t : Option Tile) (b : Option PortBlock),
      ClustersActing s ∧ List.find? (fun q => q.src == src) (vcAt s.dev c).passes = some p ∧ passIng s.dev c (passCw
      s c p) p = some (i, t, b) ∧ ctxLive (ctxAt s.dev p.ctx) = true ∧ Option.any (fun k => (vcAt s.dev
      c).badMasks.contains k) p.mask = false ∧ (configValid (passCw s c p) && cwJen (passCw s c p) && (passJoin s c
      p).isNone) = false ∧ docNeeded (vcAt s.dev c) p = none ∧ passFault s.dev c (passCw s c p) p i (passJoin s c p)
      = none ∧ Option.any (fun x => !x.full) (passJoin s c p) = false ∧ ctxLive (ctxAt (bump (bitmapTouch s.dev c p
      (vcAt s.dev c) i) 16418 (c + 1) h) p.ctx) = true ∧ (passRun (bump (bitmapTouch s.dev c p (vcAt s.dev c) i)
      16418 (c + 1) h) c (passCw s c p) p (dropGroups (passMis s m i) (passMasked s c p i)) t b (joinVals (passCw s c
      p) p.jrec (p.draw + 1) ((Option.map (fun x => x.data) (passJoin s c p)).getD [])) (if p.jrec = true then
      recordsOf ((Option.map (fun x => x.data) (passJoin s c p)).getD []) else []) h (passMis s m i)).fst = true) ∧
    (∃ (s : Machine.State) (c src m h : Nat) (p : Pass) (i : PassIn) (t : Option Tile) (b : Option PortBlock),
      ClustersActing s ∧ List.find? (fun q => q.src == src) (vcAt s.dev c).passes = some p ∧ passIng s.dev c (passCw
      s c p) p = some (i, t, b) ∧ ctxLive (ctxAt s.dev p.ctx) = true ∧ Option.any (fun k => (vcAt s.dev
      c).badMasks.contains k) p.mask = false ∧ (configValid (passCw s c p) && cwJen (passCw s c p) && (passJoin s c
      p).isNone) = false ∧ docNeeded (vcAt s.dev c) p = none ∧ passFault s.dev c (passCw s c p) p i (passJoin s c p)
      = none ∧ Option.any (fun x => !x.full) (passJoin s c p) = false ∧ ctxLive (ctxAt (bump (bitmapTouch s.dev c p
      (vcAt s.dev c) i) 16418 (c + 1) h) p.ctx) = true ∧ (passRun (bump (bitmapTouch s.dev c p (vcAt s.dev c) i)
      16418 (c + 1) h) c (passCw s c p) p (dropGroups (passMis s m i) (passMasked s c p i)) t b (joinVals (passCw s c
      p) p.jrec (p.draw + 1) ((Option.map (fun x => x.data) (passJoin s c p)).getD [])) (if p.jrec = true then
      recordsOf ((Option.map (fun x => x.data) (passJoin s c p)).getD []) else []) h (passMis s m i)).fst = false) ∧
    (∃ (s : Machine.State) (c src : Nat) (p : Pass) (i : PassIn) (t : Option Tile) (b : Option PortBlock),
      ClustersActing s ∧ List.find? (fun q => q.src == src) (vcAt s.dev c).passes = some p ∧ passIng s.dev c (passCw
      s c p) p = some (i, t, b) ∧ ctxLive (ctxAt s.dev p.ctx) = true ∧ Option.any (fun k => (vcAt s.dev
      c).badMasks.contains k) p.mask = false ∧ configValid (passCw s c p) = true ∧ cwJen (passCw s c p) = true ∧
      (vcAt s.dev c).joins = []) ∧
    (∃ (s : Machine.State) (c src : Nat) (p : Pass) (i : PassIn) (t : Option Tile) (b : Option PortBlock) (n : Nat ×
      Nat), ClustersActing s ∧ List.find? (fun q => q.src == src) (vcAt s.dev c).passes = some p ∧ passIng s.dev c
      (passCw s c p) p = some (i, t, b) ∧ ctxLive (ctxAt s.dev p.ctx) = true ∧ Option.any (fun k => (vcAt s.dev
      c).badMasks.contains k) p.mask = false ∧ cwJen (passCw s c p) = false ∧ docNeeded (vcAt s.dev c) p = some n ∧
      (vcAt s.dev c).doc.loading ≠ some n) ∧
    (∃ (s : Machine.State) (c src : Nat) (p : Pass), ClustersActing s ∧ List.find? (fun q => q.src == src) (vcAt
      s.dev c).passes = some p ∧ passIng s.dev c (passCw s c p) p = none) ∧
    (∃ (s : Machine.State) (c src : Nat) (o : Nat × Nat × Nat), ClustersActing s ∧ List.find? (fun x => x.fst == src)
      (vcAt s.dev c).owed = some o) ∧
    (∃ (s : Machine.State) (c src : Nat), ClustersActing s ∧ List.find? (fun x => x.fst == src) (vcAt s.dev c).owed =
      none) ∧
    (∃ (s : Machine.State) (c a n : Nat), ClustersActing s ∧ (vcAt s.dev c).doc.loading = some (a, n)) ∧
    (∃ (s : Machine.State) (c : Nat), ClustersActing s ∧ (vcAt s.dev c).doc.loading = none) :=
  ⟨⟨st passDev, 0, 0, pass0 0, _, _, _, (by decide +kernel), rfl, rfl, (by decide +kernel), (by decide +kernel),
     (by decide +kernel), rfl, rfl, rfl, (by decide +kernel), rfl, (by decide +kernel), (by decide +kernel),
     (by decide +kernel), (by decide +kernel), (by decide +kernel)⟩,
   ⟨st { passDev with sup := { passDev.sup with checked := true } }, 0, 0, 1, pass0 0, _, _, _, (by decide +kernel),
     rfl, rfl, (by decide +kernel), (by decide +kernel), (by decide +kernel), rfl, rfl, rfl, (by decide +kernel),
     rfl, (by decide +kernel), (by decide +kernel), (by decide +kernel), (by decide +kernel), (by decide +kernel),
     (by decide +kernel)⟩,
   ⟨st passDev, 0, 0, pass0 0, _, _, _, (by decide +kernel), rfl, rfl, (by decide +kernel)⟩,
   ⟨st { passDev with vcs := [(0, { vcReset with config := [(0, 0)], passes := [pass0 0] })] }, 0, 0, 0x8401, pass0
     0, _, _, _, (by decide +kernel), rfl, rfl, (by decide +kernel), rfl, (by decide +kernel), rfl,
     (by decide +kernel)⟩,
   ⟨st passDev, 0, 0, 0, 1, pass0 0, _, _, _, (by decide +kernel), rfl, rfl, (by decide +kernel), rfl,
     (by decide +kernel), rfl, (by decide +kernel), (by decide +kernel), (by decide +kernel), (by decide +kernel)⟩,
   ⟨st
     { passDev with
       vcs := [(0, { vcReset with
                     config := [(0, 2 ^ 248 + 2 ^ 207)], passes := [{ pass0 0 with block := 2 }],
                     running := [{ task := 0, red := 0, next := 0, rows := [], parked := List.replicate 16 (9, []) }] })] },
     0, 0, 0, 7, { pass0 0 with block := 2 }, _, _, _, (by decide +kernel), rfl, rfl, (by decide +kernel), rfl,
     (by decide +kernel), rfl, (by decide +kernel), (by decide +kernel), (by decide +kernel), (by decide +kernel)⟩,
   ⟨st { passDev with vcs := [(0, { vcReset with config := [(0, 2 ^ 248 + 2 ^ 241)], passes := [pass0 0] })] }, 0, 0,
     pass0 0, _, _, _, (by decide +kernel), rfl, rfl, (by decide +kernel), rfl, (by decide +kernel),
     (by decide +kernel), rfl⟩,
   ⟨st
     { passDev with
       vcs := [(0, { vcReset with
                     config := [(0, 2 ^ 248)], passes := [{ pass0 0 with mask := some 3 }],
                     masks := [(3, 2 ^ 252 + 2 ^ 174 + 64)] })] }, 0, 0, { pass0 0 with mask := some 3 }, _, _, _,
     (64, 1), (by decide +kernel), rfl, rfl, (by decide +kernel), rfl, (by decide +kernel), (by decide +kernel),
     (by decide +kernel)⟩,
   ⟨st { passDev with tiles := [] }, 0, 0, pass0 0, by decide +kernel⟩,
   ⟨st { dev0 with vcs := [(0, { vcReset with owed := [(8, 0, 0)] })] }, 0, 8, (8, 0, 0), by decide +kernel⟩,
   ⟨st dev0, 0, 0, by decide +kernel⟩,
   ⟨st
     { dev0 with
       vcs := [(15, { vcReset with doc := { addr := 0, count := 0, entries := [], loading := some (0, 1) } })] }, 15,
     0, 1, by decide +kernel⟩,
   ⟨st dev0, 0, by decide +kernel⟩⟩

/-- The hypotheses of `DescriptorsBecomeActive`, one clause after another. -/
theorem test_witness_descriptorsBecomeActive :
    (∃ (s : Machine.State) (f : Nat) (x : FdEntry) (l : List FdEntry) (d : Dev), ClustersActing s ∧ FdNext s f 1 x l
      d ∧ fdOp x.desc = 0) ∧
    (∃ (s : Machine.State) (f : Nat) (x : FdEntry) (l : List FdEntry) (d : Dev), ClustersActing s ∧ FdNext s f 1 x l
      d ∧ fdOp x.desc = 1 ∧ (loadTus f x.desc).any (replayHeld s.dev f) = false) ∧
    (∃ (s : Machine.State) (f : Nat) (x : FdEntry) (l : List FdEntry), ClustersActing s ∧ FdHead s f 1 x l ∧ fdOp
      x.desc = 1 ∧ (loadTus f x.desc).any (replayHeld s.dev f) = true) ∧
    (∃ (s : Machine.State) (f : Nat) (x : FdEntry) (r : Reload) (l : List FdEntry), ClustersActing s ∧ tget [] (feAt
      s.dev f).queues 0 = x :: l ∧ mayTry s.dev f = true ∧ x.bad = false ∧ x.reload = some r) ∧
    (∃ (s : Machine.State) (f : Nat) (x : FdEntry) (l : List FdEntry) (d : Dev), ClustersActing s ∧ FdNext s f 2 x l
      d ∧ fdOp x.desc = 2) ∧
    (∃ (s : Machine.State) (f : Nat) (x : FdEntry) (l : List FdEntry) (d : Dev), ClustersActing s ∧ FdNext s f 2 x l
      d ∧ fdOp x.desc = 3 ∧ Option.any (fun b => !srcFits x.desc b) (nextSrcBits (vcAt s.dev f)) = false) ∧
    (∃ (s : Machine.State) (f : Nat) (x : FdEntry) (l : List FdEntry), ClustersActing s ∧ FdHead s f 2 x l ∧ fdOp
      x.desc = 3 ∧ Option.any (fun b => !srcFits x.desc b) (nextSrcBits (vcAt s.dev f)) = true) ∧
    (∃ (s : Machine.State) (f : Nat) (x : FdEntry) (l : List FdEntry) (d : Dev), ClustersActing s ∧ FdNext s f 3 x l
      d ∧ fdOp x.desc = 4) ∧
    (∃ (s : Machine.State) (f : Nat) (x : FdEntry) (l : List FdEntry) (d : Dev), ClustersActing s ∧ FdNext s f 3 x l
      d ∧ fdOp x.desc = 5) ∧
    (∃ (s : Machine.State) (f q : Nat) (c : Instr) (x : FdEntry) (l : List FdEntry) (d : Dev), ClustersActing s ∧
      FdHead s f q x l ∧ (c, q, fdOp x.desc) ∈ fdCommands f ∧ fdWait s.dev f q x = (false, d) ∧ (fdOp x.desc = 1 →
      (loadTus f x.desc).any (replayHeld s.dev f) = false) ∧ (fdOp x.desc = 3 → Option.any (fun b => !srcFits x.desc
      b) (nextSrcBits (vcAt s.dev f)) = false)) ∧
    (∃ (s : Machine.State) (f q : Nat) (c : Instr) (x : FdEntry) (l : List FdEntry), ClustersActing s ∧ (c, q, fdOp
      x.desc) ∈ fdCommands f ∧ tget [] (feAt s.dev f).queues q = x :: l ∧ (feAt s.dev f).dead.contains x.ctx = false
      ∧ x.bad = false ∧ fdValid x.desc x.reload.isSome = false) ∧
    (∃ (s : Machine.State) (f q : Nat) (c : Instr) (x : FdEntry) (l : List FdEntry), ClustersActing s ∧ (c, q, fdOp
      x.desc) ∈ fdCommands f ∧ tget [] (feAt s.dev f).queues q = x :: l ∧ (feAt s.dev f).dead.contains x.ctx = false
      ∧ x.bad = true) :=
  ⟨⟨onFe 1 (fdE
     0x3ffc3ffc000000000000000000000000000000000000000000000000000000000000000000000000000000000000000000000000000000000000000000000000000000000000000000000000000000000000000000000000000000000),
     15, fdE
     0x3ffc3ffc000000000000000000000000000000000000000000000000000000000000000000000000000000000000000000000000000000000000000000000000000000000000000000000000000000000000000000000000000000000,
     [], _, (by decide +kernel), ⟨(by decide +kernel), pair_of (by decide +kernel)⟩, (by decide +kernel)⟩,
   ⟨onFe 1 (fdE
     0x1302043ffc3ffc000000000000000000000000000000000000000000000000000000000000000000000000000000000000000000000000000000000000000000000000000000000000000000000000000000000000000000000000000000000),
     15, fdE
     0x1302043ffc3ffc000000000000000000000000000000000000000000000000000000000000000000000000000000000000000000000000000000000000000000000000000000000000000000000000000000000000000000000000000000000,
     [], _, (by decide +kernel), ⟨(by decide +kernel), pair_of (by decide +kernel)⟩, (by decide +kernel),
     (by decide +kernel)⟩,
   ⟨st
     { (onFe 1 (fdE 0x1302043ffc3ffc000000000000000000000000000000000000000000000000000000000000000000000000000000000000000000000000000000000000000000000000000000000000000000000000000000000000000000000000000000000)).dev with
       tus := [(120, { tuReset with
                       queue := [{ tuCmd 0 with
                                   reload := some { id := 0, loads := [], issued := false, widen := false, mma := 0,
                                                    k0 := 0, klen := 0, ia := f32One, ib := f32One } }] })] }, 15,
     fdE
     0x1302043ffc3ffc000000000000000000000000000000000000000000000000000000000000000000000000000000000000000000000000000000000000000000000000000000000000000000000000000000000000000000000000000000000,
     [], by decide +kernel⟩,
   ⟨onFe 0
     { fdE 0x1300043ffc3ffc000000000000000000000000000000000000000000000000000000000000000000000000000000000000000000000000000000000000000000000000000000000000000000000000000000000000000000000000000000000 with
       reload := some { id := 0, loads := [], issued := true, widen := false, mma := 0, k0 := 0, klen := 0,
                        ia := f32One, ib := f32One } }, 15,
     { fdE 0x1300043ffc3ffc000000000000000000000000000000000000000000000000000000000000000000000000000000000000000000000000000000000000000000000000000000000000000000000000000000000000000000000000000000000 with
       reload := some { id := 0, loads := [], issued := true, widen := false, mma := 0, k0 := 0, klen := 0,
                        ia := f32One, ib := f32One } },
     { id := 0, loads := [], issued := true, widen := false, mma := 0, k0 := 0, klen := 0, ia := f32One, ib := f32One },
     [], by decide +kernel⟩,
   ⟨onFe 2 (fdE
     0x2200003ffc3ffc000000000000000000000000000000000000000000000000000000000000000000000000000000000000000000000000000000000000000000000000000000000000000000000000000000000000000000000000000000000),
     15, fdE
     0x2200003ffc3ffc000000000000000000000000000000000000000000000000000000000000000000000000000000000000000000000000000000000000000000000000000000000000000000000000000000000000000000000000000000000,
     [], _, (by decide +kernel), ⟨(by decide +kernel), pair_of (by decide +kernel)⟩, (by decide +kernel)⟩,
   ⟨onFe 2 (fdE
     0x3200003ffc3ffc00000000000000000000000000000000000000000000000000000000000001fff0000000000000000000000000000000000000000000000000000000000000000000000000000000000000000000000000000000000000000),
     15, fdE
     0x3200003ffc3ffc00000000000000000000000000000000000000000000000000000000000001fff0000000000000000000000000000000000000000000000000000000000000000000000000000000000000000000000000000000000000000,
     [], _, (by decide +kernel), ⟨(by decide +kernel), pair_of (by decide +kernel)⟩, (by decide +kernel),
     (by decide +kernel)⟩,
   ⟨st
     { (onFe 2 (fdE 0x3400003ffc3ffc0000000000000000000000000000000000000000000000000000000001fff1fff0000000000000000000000000000000000000000000000000000000000000000000000000000000000000000000000000000000000000000)).dev with
       vcs := [(15, { vcReset with passes := [pass0 8] })] }, 15, fdE
     0x3400003ffc3ffc0000000000000000000000000000000000000000000000000000000001fff1fff0000000000000000000000000000000000000000000000000000000000000000000000000000000000000000000000000000000000000000,
     [], by decide +kernel⟩,
   ⟨onFe 3 (fdE
     0x4200003ffc3ffc000000000000000000000000000000000000000000000000000000000000000000000000000000000000000000000000000000000000000000000000000000000000000000000000000000000000000000000000000000000),
     15, fdE
     0x4200003ffc3ffc000000000000000000000000000000000000000000000000000000000000000000000000000000000000000000000000000000000000000000000000000000000000000000000000000000000000000000000000000000000,
     [], _, (by decide +kernel), ⟨(by decide +kernel), pair_of (by decide +kernel)⟩, (by decide +kernel)⟩,
   ⟨onFe 3 (fdE
     0x5200003ffc3ffc000000000000000000000000000000000000000000000000000000000000000000000000000000000000000000000000000000000000000000000000000000000000000000000000000000000000000000000000000000000),
     15, fdE
     0x5200003ffc3ffc000000000000000000000000000000000000000000000000000000000000000000000000000000000000000000000000000000000000000000000000000000000000000000000000000000000000000000000000000000000,
     [], _, (by decide +kernel), ⟨(by decide +kernel), pair_of (by decide +kernel)⟩, (by decide +kernel)⟩,
   ⟨onFe 3 (fdE
     0x4200003ffc0000000000000000000000000000000000000000000000000000000000000000000000000000000000000000000000000000000000000000000000000000000000000000000000000000000000000000000000000000000000000),
     15, 3, .fdStore 15, fdE
     0x4200003ffc0000000000000000000000000000000000000000000000000000000000000000000000000000000000000000000000000000000000000000000000000000000000000000000000000000000000000000000000000000000000000,
     [], _, (by decide +kernel), (by decide +kernel), by decide, pair_of (by decide +kernel), (by decide +kernel),
     (by decide +kernel)⟩,
   ⟨onFe 2 (fdE
     0x3e00003ffc3ffc000000000000000000000000000000000000000000000000000000000000000000000000000000000000000000000000000000000000000000000000000000000000000000000000000000000000000000000000000000000),
     15, 2, .fdSrc 15, fdE
     0x3e00003ffc3ffc000000000000000000000000000000000000000000000000000000000000000000000000000000000000000000000000000000000000000000000000000000000000000000000000000000000000000000000000000000000,
     [], (by decide +kernel), by decide, (by decide +kernel), (by decide +kernel), (by decide +kernel),
     (by decide +kernel)⟩,
   ⟨onFe 3
     { fdE 0x5200003ffc3ffc000000000000000000000000000000000000000000000000000000000000000000000000000000000000000000000000000000000000000000000000000000000000000000000000000000000000000000000000000000000 with
       bad := true }, 15, 3, .fdCopy 15,
     { fdE 0x5200003ffc3ffc000000000000000000000000000000000000000000000000000000000000000000000000000000000000000000000000000000000000000000000000000000000000000000000000000000000000000000000000000000000 with
       bad := true }, [], (by decide +kernel), by decide, (by decide +kernel), (by decide +kernel),
     (by decide +kernel)⟩⟩

/-- The hypotheses of `CopyMovesItsElement`, one clause after another. -/
theorem test_witness_copyMovesItsElement :
    ∃ (s : Machine.State) (f : Nat) (x : FdEntry) (l : List FdEntry), ClustersActing s ∧ f < 16 ∧ FdNext s f 3 x l
      s.dev ∧ fdOp x.desc = 5 ∧ nextPos x.desc (fdPos x.desc) = none ∧ 0 < elemTotal x.desc ∧ (feAt s.dev f).reads <
      1023 ∧ cfg s.dev 32817 0 = 0 ∧ srcAt x.desc (fdPos x.desc) % 65536 + unitSrc x.desc ≤ 65536 ∧ dstAt x.desc
      (fdPos x.desc) % 65536 + unitSrc x.desc ≤ 65536 ∧ srcAt x.desc (fdPos x.desc) < 2 * nearSize ∧ dstAt x.desc
      (fdPos x.desc) < 2 * nearSize ∧ accessible s.dev (srcAt x.desc (fdPos x.desc)) (unitSrc x.desc) = true ∧
      accessible s.dev (dstAt x.desc (fdPos x.desc)) (unitSrc x.desc) = true ∧ s.dev.mem.ue = [] ∧ s.dev.mem.badSites
      = [] ∧ s.dev.mem.fills = [] ∧ s.dev.mem.wf = true :=
  ⟨st (setObj (onFe 3 (fdE
    0x5200003ffc3ffc000000000000000000000040000000000040001000000000000000000000000000000000000000000000000000000000000000000000000000000000000000000000000000000000000000000000000000000000000000000)).dev
    0x8031 0 0), 15, fdE
    0x5200003ffc3ffc000000000000000000000040000000000040001000000000000000000000000000000000000000000000000000000000000000000000000000000000000000000000000000000000000000000000000000000000000000000,
    [], by decide +kernel⟩

/-- The hypotheses of `EndsOfTransfers`, one clause after another. -/
theorem test_witness_endsOfTransfers :
    (∃ (s : Machine.State) (f q : Nat) (a : FdActive), ClustersActing s ∧ List.find? (fun a => a.moved && !a.sigheld
      && !hostPending s.dev f a.seq) (activeOf (feAt s.dev f) q) = some a) ∧
    (∃ (s : Machine.State) (f q : Nat), ClustersActing s ∧ List.find? (fun a => a.moved && !a.sigheld && !hostPending
      s.dev f a.seq) (activeOf (feAt s.dev f) q) = none) ∧
    (∃ (s : Machine.State) (f : Nat) (a b c x : FdEntry), ClustersActing s ∧ (feAt s.dev f).draining = none ∧
      List.map (fun q => (tget [] (feAt s.dev f).queues q).head?) [0, 1, 2, 3] = [some a, some b, some c, some x] ∧
      fdOp a.desc = 6 ∧ fdOp b.desc = 6 ∧ fdOp c.desc = 6 ∧ fdOp x.desc = 6 ∧ a.reload = none ∧ fdValid a.desc false
      = true) ∧
    (∃ (s : Machine.State) (f : Nat) (x : FdEntry), ClustersActing s ∧ (feAt s.dev f).draining = some x ∧ (feAt s.dev
      f).active = [] ∧ (feAt s.dev f).recs = [] ∧ suspendedAt s.dev f = false ∧ (feAt s.dev f).drainWait = [] ∧
      fdEmptys x.desc = 4095) ∧
    (∃ (s : Machine.State) (f : Nat) (x : FdEntry) (l : List FdEntry) (d : Dev), ClustersActing s ∧ (feAt s.dev
      f).draining = none ∧ (feAt s.dev f).drainWait = x :: l ∧ semTake s.dev f (fdEmptys x.desc) (headReq 4) (fld
      x.desc 709 706 + 1) = (true, d)) ∧
    (∃ (s : Machine.State) (f : Nat) (x : FdEntry), ClustersActing s ∧ (feAt s.dev f).draining = some x ∧ (feAt s.dev
      f).active ≠ [] ∧ (feAt s.dev f).drainWait = []) ∧
    (∃ (s : Machine.State) (f : Nat), ClustersActing s ∧ 0 < (feAt s.dev f).reads ∧ List.find? (fun a => a.stalled &&
      fdOp a.entry.desc != 4) (feAt s.dev f).active = none) ∧
    (∃ (s : Machine.State) (f : Nat) (a : FdActive), ClustersActing s ∧ 0 < (feAt s.dev f).reads ∧ List.find? (fun a
      => a.stalled && fdOp a.entry.desc != 4) (feAt s.dev f).active = some a) ∧
    (∃ (s : Machine.State) (line : Nat) (x : Fill), Acting s ∧ List.find? (fun f => f.line == line) s.dev.mem.fills =
      some x) ∧
    (∃ (s : Machine.State) (f n : Nat) (x : FdEntry), ClustersActing s ∧ List.find? (fun x => x.num == n &&
      x.reload.isNone) (entriesOf s.dev f) = some x ∧ cfg s.dev 28691 0 = 1 ∧ fld x.desc 697 678 ≠ 0 ∧ x.missed =
      false ∧ x.start + fld x.desc 697 678 * 64 ≤ s.dev.uptime) :=
  ⟨⟨st (onActive
     [{ act (fdE 0x4200003ffc3ffc000000000000000000000000000000000000000000000000000000000000000000000000000000000000000000000000000000000000000000000000000000000000000000000000000000000000000000000000000000000) with
        moved := true }]), 0, 3,
     { act (fdE 0x4200003ffc3ffc000000000000000000000000000000000000000000000000000000000000000000000000000000000000000000000000000000000000000000000000000000000000000000000000000000000000000000000000000000000) with
       moved := true }, by decide +kernel⟩,
   ⟨st dev0, 15, 1, by decide +kernel⟩,
   ⟨st
     { dev0 with
       fes := [(0, { feReset with
                     queues := [0, 1, 2, 3].map (fun q => (q, [fdE
                       0x6000003ffc3ffc000000000000000000000000000000000000000000000000000000000000000000000000000000000000000000000000000000000000000000000000000000000000000000000000000000000000000000000000000000000])) })] },
     0, fdE
     0x6000003ffc3ffc000000000000000000000000000000000000000000000000000000000000000000000000000000000000000000000000000000000000000000000000000000000000000000000000000000000000000000000000000000000,
     fdE
     0x6000003ffc3ffc000000000000000000000000000000000000000000000000000000000000000000000000000000000000000000000000000000000000000000000000000000000000000000000000000000000000000000000000000000000,
     fdE
     0x6000003ffc3ffc000000000000000000000000000000000000000000000000000000000000000000000000000000000000000000000000000000000000000000000000000000000000000000000000000000000000000000000000000000000,
     fdE
     0x6000003ffc3ffc000000000000000000000000000000000000000000000000000000000000000000000000000000000000000000000000000000000000000000000000000000000000000000000000000000000000000000000000000000000,
     by decide +kernel⟩,
   ⟨st
     { dev0 with
       fes := [(0, { feReset with
                     draining := some (fdE
                       0x6000003ffc3ffc000000000000000000000000000000000000000000000000000000000000000000000000000000000000000000000000000000000000000000000000000000000000000000000000000000000000000000000000000000000) })] },
     0, fdE
     0x6000003ffc3ffc000000000000000000000000000000000000000000000000000000000000000000000000000000000000000000000000000000000000000000000000000000000000000000000000000000000000000000000000000000000,
     by decide +kernel⟩,
   ⟨st
     { dev0 with
       fes := [(0, { feReset with
                     drainWait := [fdE
                       0x6000003ffc3ffc000000000000000000000000000000000000000000000000000000000000000000000000000000000000000000000000000000000000000000000000000000000000000000000000000000000000000000000000000000000] })] },
     0, fdE
     0x6000003ffc3ffc000000000000000000000000000000000000000000000000000000000000000000000000000000000000000000000000000000000000000000000000000000000000000000000000000000000000000000000000000000000,
     [], _, (by decide +kernel), (by decide +kernel), (by decide +kernel), pair_of (by decide +kernel)⟩,
   ⟨st
     { dev0 with
       fes := [(0, { feReset with
                     draining := some (fdE
                       0x6000003ffc3ffc000000000000000000000000000000000000000000000000000000000000000000000000000000000000000000000000000000000000000000000000000000000000000000000000000000000000000000000000000000000),
                     active := [act (fdE
                       0x4200003ffc3ffc000000000000000000000000000000000000000000000000000000000000000000000000000000000000000000000000000000000000000000000000000000000000000000000000000000000000000000000000000000000)] })] },
     0, fdE
     0x6000003ffc3ffc000000000000000000000000000000000000000000000000000000000000000000000000000000000000000000000000000000000000000000000000000000000000000000000000000000000000000000000000000000000,
     by decide +kernel⟩,
   ⟨st { dev0 with fes := [(0, { feReset with reads := 1 })] }, 0, by decide +kernel⟩,
   ⟨st
     { dev0 with
       fes := [(0, { feReset with
                     reads := 1,
                     active := [{ act (fdE 0x5200003ffc3ffc000000000000000000000000000000000000000000000000000000000000000000000000000000000000000000000000000000000000000000000000000000000000000000000000000000000000000000000000000000000) with
                                  stalled := true }] })] }, 0,
     { act (fdE 0x5200003ffc3ffc000000000000000000000000000000000000000000000000000000000000000000000000000000000000000000000000000000000000000000000000000000000000000000000000000000000000000000000000000000000) with
       stalled := true }, by decide +kernel⟩,
   ⟨st { dev0 with mem := { memReset with fills := [{ line := 0, held := [] }] } }, 0, { line := 0, held := [] },
     by decide +kernel⟩,
   ⟨st
     { setObj (onActive [act { fdE 0x4200003ffc3ffc000000040000000000000000000000000000000000000000000000000000000000000000000000000000000000000000000000000000000000000000000000000000000000000000000000000000000000000000000000000 with num := 7 }]) 0x7013 0 1 with
       uptime := 64 }, 0, 7,
     { fdE 0x4200003ffc3ffc000000040000000000000000000000000000000000000000000000000000000000000000000000000000000000000000000000000000000000000000000000000000000000000000000000000000000000000000000000000 with
       num := 7 }, by decide +kernel⟩⟩

/-- The hypotheses of `TranslationFaultCommands`, one clause after another. -/
theorem test_witness_translationFaultCommands :
    (∃ (s : Machine.State), Serving s 32819 0) ∧
    (∃ (s : Machine.State), Acting s ∧ s.dev.mem.invalidating ≠ []) ∧
    (∃ (s : Machine.State) (fid r : Nat) (x : FaultRec) (a : FdActive), Serving s 32821 0 ∧ faultRow s.dev fid = some
      (r, x) ∧ List.find? (fun a => a.fault && a.fid == fid) (feAt s.dev x.fe).active = some a ∧ a.redo = [] ∧
      a.moved = false) ∧
    (∃ (s : Machine.State) (fid r : Nat) (x : FaultRec) (y : RecWrite), Serving s 32821 0 ∧ faultRow s.dev fid = some
      (r, x) ∧ List.find? (fun a => a.fault && a.fid == fid) (feAt s.dev x.fe).active = none ∧ List.find? (fun y =>
      y.fid == fid) (feAt s.dev x.fe).recs = some y) ∧
    (∃ (s : Machine.State) (fid : Nat), Serving s 32821 0 ∧ faultRow s.dev fid = none) ∧
    (∃ (s : Machine.State) (fid r : Nat) (x : FaultRec), Serving s 32822 0 ∧ faultRow s.dev fid = some (r, x)) ∧
    (∃ (s : Machine.State) (fid : Nat), Serving s 32822 0 ∧ faultRow s.dev fid = none) ∧
    (∃ (s : Machine.State) (f r : Nat) (x : FaultRec), ClustersActing s ∧ List.find? (fun x => x.fe == f)
      s.dev.mem.faultHold = some x ∧ freeFaultRow s.dev = some r) :=
  ⟨⟨st dev0, by decide +kernel⟩,
   ⟨st { dev0 with mem := { memReset with invalidating := [(0, 1)] } }, by decide +kernel⟩,
   ⟨st
     { onActive [{ act (fdE 0x4200003ffc3ffc000000000000000000000000000000000000000000000000000000000000000000000000000000000000000000000000000000000000000000000000000000000000000000000000000000000000000000000000000000000) with fault := true, fid := 1 }] with
       mem := { memReset with faults := [(15, fault0)] } }, 1, 15, fault0,
     { act (fdE 0x4200003ffc3ffc000000000000000000000000000000000000000000000000000000000000000000000000000000000000000000000000000000000000000000000000000000000000000000000000000000000000000000000000000000000) with
       fault := true, fid := 1 }, by decide +kernel⟩,
   ⟨st
     { dev0 with
       mem := { memReset with faults := [(15, fault0)] },
       fes := [(0, { feReset with recs := [{ ctx := 0, task := 0, jaddr := 0, bytes := [], fid := 1, item := 0 }] })] },
     1, 15, fault0, { ctx := 0, task := 0, jaddr := 0, bytes := [], fid := 1, item := 0 }, by decide +kernel⟩,
   ⟨st dev0, 0, by decide +kernel⟩,
   ⟨st { dev0 with mem := { memReset with faults := [(15, fault0)] } }, 1, 15, fault0, by decide +kernel⟩,
   ⟨st dev0, 0, by decide +kernel⟩,
   ⟨st { dev0 with mem := { memReset with faultHold := [fault0] } }, 0, 0, fault0, by decide +kernel⟩⟩

/-- The hypotheses of `SemaphoreSignalsAndWaits`, one clause after another. -/
theorem test_witness_semaphoreSignalsAndWaits :
    (∃ (s : Machine.State) (g n a : Nat), ClustersActing s ∧ n ≠ 4095 ∧ (semAt s.dev (semKey g n)).bad = false ∧
      (semAt s.dev (semKey g n)).count + a ≤ 65535) ∧
    (∃ (s : Machine.State) (g n a r : Nat), ClustersActing s ∧ n ≠ 4095 ∧ (semAt s.dev (semKey g n)).bad = false ∧
      s.dev.grants.contains (semKey g n, r) = false ∧ (semAt s.dev (semKey g n)).waits = [] ∧ a ≤ (semAt s.dev
      (semKey g n)).count) ∧
    (∃ (s : Machine.State) (g n a r : Nat), ClustersActing s ∧ n ≠ 4095 ∧ (semAt s.dev (semKey g n)).bad = false ∧
      s.dev.grants.contains (semKey g n, r) = false ∧ ((semAt s.dev (semKey g n)).waits.all fun w => w.req != r) =
      true ∧ ((semAt s.dev (semKey g n)).waits ≠ [] ∨ (semAt s.dev (semKey g n)).count < a)) ∧
    (∃ (s : Machine.State) (g n : Nat) (w : SemWaiter) (ws : List SemWaiter), ClustersActing s ∧ n ≠ 4095 ∧ (semAt
      s.dev (semKey g n)).waits = w :: ws ∧ w.amount ≤ (semAt s.dev (semKey g n)).count ∧ (w.req % 16 = 8 → w.req ≠
      headReq 4 → mayTry s.dev g = true)) ∧
    (∃ (s : Machine.State) (g n : Nat), ClustersActing s ∧ (semAt s.dev (semKey g n)).waits = []) ∧
    (∃ (s : Machine.State) (g n a : Nat), ClustersActing s ∧ n ≠ 4095 ∧ (semAt s.dev (semKey g n)).bad = true ∧
      (semAt s.dev (semKey g n)).count + a ≤ 65535) ∧
    (∃ (s : Machine.State) (g n r : Nat), ClustersActing s ∧ n ≠ 4095 ∧ (semAt s.dev (semKey g n)).bad = false ∧
      s.dev.grants.contains (semKey g n, r) = true) ∧
    (∃ (s : Machine.State) (g n : Nat) (w : SemWaiter) (ws : List SemWaiter), ClustersActing s ∧ (semAt s.dev (semKey
      g n)).waits = w :: ws ∧ cfg (bump s.dev 28738 (g + 1) 1) 28691 0 ≠ 0) :=
  ⟨⟨st { dev0 with sems := [(15 * 4096 + 4094, { count := 65530, waits := [] })] }, 15, 4094, 5, by decide +kernel⟩,
   ⟨st { dev0 with sems := [(15 * 4096 + 4094, { count := 3, waits := [] })] }, 15, 4094, 3, 0, by decide +kernel⟩,
   ⟨st { dev0 with sems := [(15 * 4096 + 4094, { count := 3, waits := [] })] }, 15, 4094, 4, 0, by decide +kernel⟩,
   ⟨st { dev0 with sems := [(15 * 4096 + 4094, { count := 3, waits := [{ req := 8, amount := 3 }] })] }, 15, 4094,
     { req := 8, amount := 3 }, [], (by decide +kernel), (by decide +kernel), (by decide +kernel),
     (by decide +kernel), (by decide +kernel)⟩,
   ⟨st dev0, 0, 0, by decide +kernel⟩,
   ⟨st { dev0 with sems := [(15 * 4096 + 4094, { count := 3, waits := [], bad := true })] }, 15, 4094, 1,
     by decide +kernel⟩,
   ⟨st { dev0 with grants := [(15 * 4096 + 4094, 3)] }, 15, 4094, 3, by decide +kernel⟩,
   ⟨st (setObj { dev0 with sems := [(0, { count := 0, waits := [{ req := 1, amount := 1 }] })] } 0x7013 0 1), 0, 0,
     { req := 1, amount := 1 }, [], by decide +kernel⟩⟩

/-- The hypotheses of `SignalPastLimitSaturates`, one clause after another. -/
theorem test_witness_signalPastLimitSaturates :
    ∃ (s : Machine.State) (g n a : Nat), ClustersActing s ∧ n ≠ 4095 ∧ 65535 < (semAt s.dev (semKey g n)).count + a :=
  ⟨st { dev0 with sems := [(0, { count := 65535, waits := [] })] }, 0, 0, 1, by decide +kernel⟩

/-- The hypotheses of `SequencerCommands`, one clause after another. -/
theorem test_witness_sequencerCommands :
    (∃ (s : Machine.State) (g : Nat) (t : Machine.Task) (p : Place) (ws : List Nat) (d : Dev), ClustersActing s ∧
      ProgAt s g 0 t p ws d) ∧
    (∃ (s : Machine.State) (g : Nat) (t : Machine.Task) (p : Place) (ws : List Nat) (d : Dev), ClustersActing s ∧
      ProgAt s g 6 t p ws d) ∧
    (∃ (s : Machine.State) (g : Nat) (t : Machine.Task) (p : Place) (ws : List Nat) (d : Dev), ClustersActing s ∧
      ProgAt s g 7 t p ws d) ∧
    (∃ (s : Machine.State) (g : Nat) (t : Machine.Task) (p : Place) (ws : List Nat) (d : Dev), ClustersActing s ∧
      ProgAt s g 8 t p ws d) ∧
    (∃ (s : Machine.State) (g : Nat) (t : Machine.Task) (p : Place) (ws : List Nat) (d : Dev) (a n : Nat) (l : List
      (Nat × Nat)), ClustersActing s ∧ ProgAt s g 9 t p ws d ∧ p.loops = (a, n) :: l) ∧
    (∃ (s : Machine.State) (g : Nat) (t : Machine.Task) (p : Place) (ws : List Nat) (d : Dev), ClustersActing s ∧
      ProgAt s g 10 t p ws d) ∧
    (∃ (s : Machine.State) (g : Nat) (t : Machine.Task) (p : Place) (ws : List Nat) (d : Dev), ClustersActing s ∧
      ProgAt s g 13 t p ws d) ∧
    (∃ (s : Machine.State) (g : Nat) (t : Machine.Task) (p : Place) (ws : List Nat) (d : Dev), ClustersActing s ∧
      ProgAt s g 14 t p ws d) :=
  ⟨⟨st (progDev [0x0] place1), 0, task1 place1, _, [0x0], _, by decide +kernel, progAt_of (q := place1) (w :=
     [[0x0].headD 0]) (by decide +kernel)⟩,
   ⟨st (progDev [0x6000000000000000000000000000000] place1), 0, task1 place1, _, [0x6000000000000000000000000000000],
     _, by decide +kernel, progAt_of (q := place1) (w := [[0x6000000000000000000000000000000].headD 0])
     (by decide +kernel)⟩,
   ⟨st (progDev [0x7000000000000000000000000000000] place1), 0, task1 place1, _, [0x7000000000000000000000000000000],
     _, by decide +kernel, progAt_of (q := place1) (w := [[0x7000000000000000000000000000000].headD 0])
     (by decide +kernel)⟩,
   ⟨st (progDev [0x8000000000000000000000000000000] place1), 0, task1 place1, _, [0x8000000000000000000000000000000],
     _, by decide +kernel, progAt_of (q := place1) (w := [[0x8000000000000000000000000000000].headD 0])
     (by decide +kernel)⟩,
   ⟨st (progDev [0x9000000000000000000000000000000] ({ place1 with loops := [(0, 1)] })), 0, task1
     ({ place1 with loops := [(0, 1)] }), _, [0x9000000000000000000000000000000], _, _, _, _, by decide +kernel,
     progAt_of (q := { place1 with loops := [(0, 1)] }) (w := [[0x9000000000000000000000000000000].headD 0])
     (by decide +kernel), rfl⟩,
   ⟨st (progDev [0xa000000000000000000000000000000] place1), 0, task1 place1, _, [0xa000000000000000000000000000000],
     _, by decide +kernel, progAt_of (q := place1) (w := [[0xa000000000000000000000000000000].headD 0])
     (by decide +kernel)⟩,
   ⟨st (progDev [0xd000000000000000000000000000000] place1), 0, task1 place1, _, [0xd000000000000000000000000000000],
     _, by decide +kernel, progAt_of (q := place1) (w := [[0xd000000000000000000000000000000].headD 0])
     (by decide +kernel)⟩,
   ⟨st (progDev [0xe000000000000000000000000000000] place1), 0, task1 place1, _, [0xe000000000000000000000000000000],
     _, by decide +kernel, progAt_of (q := place1) (w := [[0xe000000000000000000000000000000].headD 0])
     (by decide +kernel)⟩⟩

/-- The hypotheses of `ProgramFeedsUnits`, one clause after another. -/
theorem test_witness_programFeedsUnits :
    (∃ (s : Machine.State) (g : Nat) (t : Machine.Task) (p : Place) (ws : List Nat) (d : Dev), ClustersActing s ∧
      ProgAt s g 1 t p ws d ∧ ∀ (u : Nat), u ∈ List.map (fun i => 8 * g + i) (setBits 8 (fld (ws.headD 0) 119 112)) →
      (tuAt d u).queue.length < 64) ∧
    (∃ (s : Machine.State) (g i : Nat) (t : Machine.Task) (p : Place) (ws : List Nat) (d : Dev), ClustersActing s ∧
      ProgAt s g 1 t p ws d ∧ i < 8 ∧ bitAt (ws.headD 0) (112 + i) = true ∧ 64 ≤ (tuAt d (8 * g + i)).queue.length) ∧
    (∃ (s : Machine.State) (g : Nat) (t : Machine.Task) (p : Place) (ws : List Nat) (d : Dev), ClustersActing s ∧
      ProgAt s g 2 t p ws d ∧ ∀ (q : Nat), q ∈ fdQueues (setFld (setFld (setFld (fdOfWords ws) 639 592 (fdSaddr
      (fdOfWords ws) + areg p (fld (ws.headD 0) 119 116))) 591 544 (fdDaddr (fdOfWords ws) + areg p (fld (ws.headD 0)
      115 112))) 705 698 t.id) → (tget [] (feAt d g).queues q).length < queueDepth q) ∧
    (∃ (s : Machine.State) (g q : Nat) (t : Machine.Task) (p : Place) (ws : List Nat) (d : Dev), ClustersActing s ∧
      ProgAt s g 2 t p ws d ∧ q ∈ fdQueues (setFld (setFld (setFld (fdOfWords ws) 639 592 (fdSaddr (fdOfWords ws) +
      areg p (fld (ws.headD 0) 119 116))) 591 544 (fdDaddr (fdOfWords ws) + areg p (fld (ws.headD 0) 115 112))) 705
      698 t.id) ∧ queueDepth q ≤ (tget [] (feAt d g).queues q).length) ∧
    (∃ (s : Machine.State) (g : Nat) (t : Machine.Task) (p : Place) (ws : List Nat) (d : Dev), ClustersActing s ∧
      ProgAt s g 3 t p ws d ∧ fld (ws.headD 0) 111 104 = 0) ∧
    (∃ (s : Machine.State) (g : Nat) (t : Machine.Task) (p : Place) (ws : List Nat) (d : Dev), ClustersActing s ∧
      ProgAt s g 3 t p ws d ∧ setBits 8 (fld (ws.headD 0) 111 104) ≠ []) ∧
    (∃ (s : Machine.State) (g : Nat) (t : Machine.Task) (p : Place) (ws : List Nat) (d : Dev), ClustersActing s ∧
      ProgAt s g 4 t p ws d) ∧
    (∃ (s : Machine.State) (g : Nat) (t : Machine.Task) (p : Place) (ws : List Nat) (d : Dev), ClustersActing s ∧
      ProgAt s g 5 t p ws d) ∧
    (∃ (s : Machine.State) (g : Nat) (t : Machine.Task) (p : Place) (ws : List Nat) (d : Dev), ClustersActing s ∧
      ProgAt s g 11 t p ws d) ∧
    (∃ (s : Machine.State) (g : Nat) (t : Machine.Task) (p : Place) (ws : List Nat) (d : Dev), ClustersActing s ∧
      ProgAt s g 12 t p ws d) :=
  ⟨⟨st (progDev [0x1810000000000000000000000000000, 0] place1), 0, task1 place1, _,
     [0x1810000000000000000000000000000, 0], _, by decide +kernel, progAt_of (q := place1) (w :=
     [[0x1810000000000000000000000000000, 0].headD 0]) (by decide +kernel), by decide +kernel⟩,
   ⟨st
     { progDev [0x1810000000000000000000000000000, 0] place1 with
       tus := [(7, { tuReset with queue := List.replicate 64 (tuCmd 0) })] }, 0, 7, task1 place1, _,
     [0x1810000000000000000000000000000, 0], _, by decide +kernel, progAt_of (q := place1) (w :=
     [[0x1810000000000000000000000000000, 0].headD 0]) (by decide +kernel), by decide +kernel, by decide +kernel,
     by decide +kernel⟩,
   ⟨st (progDev [0x2ff0000000000000000000000000000, 0x3ffc3ffc00000000000000000, 0x0, 0x0, 0x0, 0x0, 0x0] place1), 0,
     task1 place1, _, [0x2ff0000000000000000000000000000, 0x3ffc3ffc00000000000000000, 0x0, 0x0, 0x0, 0x0, 0x0], _,
     by decide +kernel, progAt_of (q := place1) (w := [[0x2ff0000000000000000000000000000,
     0x3ffc3ffc00000000000000000, 0x0, 0x0, 0x0, 0x0, 0x0].headD 0]) (by decide +kernel), by decide +kernel⟩,
   ⟨st
     { progDev [0x2ff0000000000000000000000000000, 0x3ffc3ffc00000000000000000, 0x0, 0x0, 0x0, 0x0, 0x0] place1 with
       fes := [(0, { feReset with queues := [(1, List.replicate 64 (fdE 0))] })] }, 0, 1, task1 place1, _,
     [0x2ff0000000000000000000000000000, 0x3ffc3ffc00000000000000000, 0x0, 0x0, 0x0, 0x0, 0x0], _,
     (by decide +kernel), progAt_of (q := place1) (w := [[0x2ff0000000000000000000000000000,
     0x3ffc3ffc00000000000000000, 0x0, 0x0, 0x0, 0x0, 0x0].headD 0]) (by decide +kernel), (by decide +kernel),
     (by decide +kernel)⟩,
   ⟨st
     { progDev [0x3000000000000000000000000000000, 0] place1 with
       vcs := [(0, { vcReset with config := [(0, 2 ^ 248 + 2 ^ 246)] })] }, 0, task1 place1, _,
     [0x3000000000000000000000000000000, 0], _, by decide +kernel, progAt_of (q := place1) (w :=
     [0x3000000000000000000000000000000]) (by decide +kernel), by decide +kernel⟩,
   ⟨st (progDev [0x3008100000000000000000000000000, 0] place1), 0, task1 place1, _,
     [0x3008100000000000000000000000000, 0], _, by decide +kernel, progAt_of (q := place1) (w :=
     [[0x3008100000000000000000000000000, 0].headD 0]) (by decide +kernel), by decide +kernel⟩,
   ⟨st (progDev [0x4000000000000000000000000000000] place1), 0, task1 place1, _, [0x4000000000000000000000000000000],
     _, by decide +kernel, progAt_of (q := place1) (w := [[0x4000000000000000000000000000000].headD 0])
     (by decide +kernel)⟩,
   ⟨st (progDev [0x50fff00000000000000000000000000] place1), 0, task1 place1, _, [0x50fff00000000000000000000000000],
     _, by decide +kernel, progAt_of (q := place1) (w := [[0x50fff00000000000000000000000000].headD 0])
     (by decide +kernel)⟩,
   ⟨st (progDev [0xb000000000000000000000000000000] place1), 0, task1 place1, _, [0xb000000000000000000000000000000],
     _, by decide +kernel, progAt_of (q := place1) (w := [[0xb000000000000000000000000000000].headD 0])
     (by decide +kernel)⟩,
   ⟨st (progDev [0xc000000000000000000000000000000] place1), 0, task1 place1, _, [0xc000000000000000000000000000000],
     _, by decide +kernel, progAt_of (q := place1) (w := [[0xc000000000000000000000000000000].headD 0])
     (by decide +kernel)⟩⟩

/-- The hypotheses of `ProgramWords`, one clause after another. -/
theorem test_witness_programWords :
    (∃ (d : Dev) (t : Machine.Task) (g n pc a : Nat), a = ctxImage d t.ctx + 16 * pc ∧ g < 16 ∧ 0 < n ∧ 16 * (pc + n)
      ≤ (ctxAt d t.ctx).imgLen ∧ a / nearSize = g / 8 ∧ a < 2 * nearSize ∧ accessible d a (16 * n) = true ∧ ueIn
      d.mem a (16 * n) = [] ∧ ceIn d.mem a (16 * n) = [] ∧ ctxLive (ctxAt d t.ctx) = true) ∧
    (∃ (s : Machine.State) (g : Nat) (t : Machine.Task) (p : Place) (c : Instr), ClustersActing s ∧ issuing s.dev g =
      some (t, p) ∧ t.ctx < 64 ∧ ((ctxAt s.dev t.ctx).imgLen < 16 * (p.pc + 1) ∨ ∃ w ws, readWords s.dev t g 1 p.pc =
      (some (some w), s.dev) ∧ readWords s.dev t g (cmdWords (fld (w.headD 0) 127 120)) p.pc = (some (some ws),
      s.dev) ∧ cmdValid s.dev g p ws = false) ∧ c ∈ [Instr.progNop g, Instr.progTu g, Instr.progFd g, Instr.progPass
      g, Instr.progWait g, Instr.progSig g, Instr.progSeta g, Instr.progAdda g, Instr.progLoop g, Instr.progEndl g,
      Instr.progYield g, Instr.progGath g, Instr.progBkt g, Instr.progEmit g, Instr.progEnd g]) ∧
    (∃ (s : Machine.State) (g : Nat) (c : Instr), issuing s.dev g = none ∧ c ∈ [Instr.progNop g, Instr.progTu g,
      Instr.progFd g, Instr.progPass g, Instr.progWait g, Instr.progSig g, Instr.progSeta g, Instr.progAdda g,
      Instr.progLoop g, Instr.progEndl g, Instr.progYield g, Instr.progGath g, Instr.progBkt g, Instr.progEmit g,
      Instr.progEnd g]) :=
  ⟨⟨progDev [0] place1, task1 place1, 0, 1, 0, 0x4000000, by decide +kernel⟩,
   ⟨st (progDev [] place1), 0, task1 place1, place1, .progEnd 0, by decide +kernel, by decide +kernel,
     by decide +kernel, .inl (by decide +kernel), by decide⟩,
   ⟨st dev0, 0, .progEnd 0, (by decide +kernel), by decide⟩⟩

/-- The hypotheses of `TasksStartAndComplete`, one clause after another. -/
theorem test_witness_tasksStartAndComplete :
    (∃ (s : Machine.State) (g h i : Nat) (t : Machine.Task), ClustersActing s ∧ needsTask s.dev g = true ∧ tfind
      s.dev.seq.switching g = none ∧ selectStarted (List.foldl (fun x c => raiseStep x 18049 c g) (bump (bump s.dev
      26689 0 h) 24625 (g + 1) i) (heldByStore s.dev g)) g = some t) ∧
    (∃ (s : Machine.State) (g h i c : Nat) (b : Bool), ClustersActing s ∧ needsTask s.dev g = true ∧ tfind
      s.dev.seq.switching g = none ∧ selectStarted (List.foldl (fun x c => raiseStep x 18049 c g) (bump (bump s.dev
      26689 0 h) 24625 (g + 1) i) (heldByStore s.dev g)) g = none ∧ selectNew (List.foldl (fun x c => raiseStep x
      18049 c g) (bump (bump s.dev 26689 0 h) 24625 (g + 1) i) (heldByStore s.dev g)) g = some (c, b)) ∧
    (∃ (s : Machine.State) (id : Nat) (t : Machine.Task), ClustersActing s ∧ taskAt s.dev id = some t ∧ t.emitted =
      false ∧ ctxLive (ctxAt s.dev t.ctx) = true ∧ (ctxClusters s.dev t.ctx).all (emitDone s.dev t) = true ∧
      writesDone s.dev t = true) ∧
    (∃ (s : Machine.State) (id : Nat) (t : Machine.Task), ClustersActing s ∧ taskAt s.dev id = some t ∧ ctxLive
      (ctxAt s.dev t.ctx) = true ∧ (ctxClusters s.dev t.ctx).all (placeDone s.dev t) = true ∧ writesDone s.dev t =
      true ∧ (((ctxClusters s.dev t.ctx).all fun g => !(placeAt t g).emitIssued) || t.emitted) = true) ∧
    (∃ (s : Machine.State) (g : Nat), ClustersActing s ∧ tfind (placeOwed s.dev g).seq.switching g = none ∧ switchDue
      (placeOwed s.dev g) g = true) ∧
    (∃ (s : Machine.State) (g : Nat) (t : Machine.Task), ClustersActing s ∧ tfind (placeOwed s.dev g).seq.switching g
      = some 1 ∧ currentTask (placeOwed s.dev g) g = some t ∧ ((List.range 8).all fun i => fenced (tuAt (placeOwed
      s.dev g) (8 * g + i))) = true ∧ ∀ (u : Nat), u ∈ (placeOwed s.dev g).seq.owedFences → u / 8 ≠ g) ∧
    (∃ (s : Machine.State) (g : Nat), ClustersActing s ∧ tfind (placeOwed s.dev g).seq.switching g = some 2 ∧ drained
      (feAt (placeOwed s.dev g) g) = true ∧ ¬g ∈ (placeOwed s.dev g).seq.owedDrains) ∧
    (∃ (d : Dev) (t : Nat), d.seq.owedFences = [] ∧ (tuAt d t).queue.length < 64) ∧
    (∃ (d : Dev) (t : Nat), 64 ≤ (tuAt d t).queue.length) :=
  ⟨⟨st
     { dev1 with
       seq := { seqReset with
                ctxs := [(0, { ctxReset with st := .running, frame := some 0 })], tasks := [task1 placeReset] } }, 0,
     0, 0, task1 placeReset, by decide +kernel⟩,
   ⟨st readyDev, 0, 0, 0, 0, true, by decide +kernel⟩,
   ⟨st
     { dev1 with
       seq := { seqReset with
                ctxs := [(0, { ctxReset with st := .running })],
                tasks := [task1 ({ place1 with emitIssued := true, emitMark := (0, 0) })] } }, 1, task1
     { place1 with emitIssued := true, emitMark := (0, 0) }, by decide +kernel⟩,
   ⟨st
     { dev1 with
       seq := { seqReset with
                ctxs := [(0, { ctxReset with st := .running, frame := some 0 })],
                tasks := [{ task1 { place1 with ended := true } with emitted := true }] } }, 1,
     { task1 { place1 with ended := true } with emitted := true }, by decide +kernel⟩,
   ⟨st readyDev, 0, by decide +kernel⟩,
   ⟨st { progDev [] place1 with seq := { (progDev [] place1).seq with switching := [(0, 1)] } }, 0, task1 place1,
     by decide +kernel⟩,
   ⟨st { dev0 with seq := { seqReset with switching := [(0, 2)] } }, 0, by decide +kernel⟩,
   ⟨dev0, 127, by decide +kernel⟩,
   ⟨{ dev0 with tus := [(0, { tuReset with queue := List.replicate 64 (tuCmd 0) })] }, 0, by decide +kernel⟩⟩

/-- The hypotheses of `SchedulesAdmit`, one clause after another. -/
theorem test_witness_schedulesAdmit :
    (∃ (d : Dev) (c : Nat), d.seq.job = JobState.running ∧ d.seq.phase = Phase.stepRunning ∧ ctxLive (ctxAt d c) =
      true ∧ (ctxAt d c).atEnd = false ∧ ctxSched d c = 2) ∧
    (∃ (d : Dev) (c : Nat), 0 < (groupCtxs d (ctxGroup d c)).length) :=
  ⟨⟨setObj { dev0 with seq := { seqReset with ctxs := [(0, { ctxReset with st := .resident })], job := .running } }
     0x6010 1 (2 ^ 255 + 2 * 2 ^ 253 + 2 ^ 224), 0, by decide +kernel⟩,
   ⟨setObj dev0 0x6010 1 (2 ^ 255 + 2 ^ 253), 0, by decide +kernel⟩⟩

/-- The hypotheses of `FramesAndSwaps`, one clause after another. -/
theorem test_witness_framesAndSwaps :
    (∃ (s : Machine.State) (c f : Nat), ClustersActing s ∧ ctxEn s.dev c = true ∧ (ctxAt s.dev c).st =
      CtxState.swappedOut ∧ (ctxAt s.dev c).frame = none ∧ ctxReady s.dev c = true ∧ s.dev.seq.frameWait = [] ∧
      List.find? (fun f => !(framesUsed s.dev).contains f) (List.range 16) = some f) ∧
    (∃ (s : State) (c w : Nat), ClustersActing s ∧ ctxEn s.dev c = true ∧ (ctxAt s.dev c).st = .swappedOut ∧ (ctxAt
      s.dev c).frame = none ∧ ctxReady s.dev c = true ∧ ¬ c ∈ s.dev.seq.frameWait ∧ (∀ f, f < 16 → f ∈ framesUsed
      s.dev) ∧ let b := bump s.dev 0x6033 0 w; let d :=
      { b with seq := { b.seq with frameWait := b.seq.frameWait ++ [c] } }; (d.seq.ctxs.any (fun e => e.2.swapping &&
      e.2.st != .swappedOut)) = false ∧ evictFirst d = none) ∧
    (∃ (s : State) (c w : Nat) (k : Nat) (l : List (Nat × Nat × Nat)) (e : Dev), ClustersActing s ∧ ctxEn s.dev c =
      true ∧ (ctxAt s.dev c).st = .swappedOut ∧ (ctxAt s.dev c).frame = none ∧ ctxReady s.dev c = true ∧ ¬ c ∈
      s.dev.seq.frameWait ∧ (∀ f, f < 16 → f ∈ framesUsed s.dev) ∧ let b := bump s.dev 0x6033 0 w; let d :=
      { b with seq := { b.seq with frameWait := b.seq.frameWait ++ [c] } }; (d.seq.ctxs.any (fun e => e.2.swapping &&
      e.2.st != .swappedOut)) = false ∧ evictFirst d = some k ∧ spillAll d (spillNeeds d k) = (some l, e)) ∧
    (∃ (d : Dev) (c : Nat), (ctxAt d c).st = CtxState.swappedOut ∧ accessible d (ctxImage d c) 64 = true ∧ ctxImage d
      c < 2 * nearSize ∧ ctxImage d c / nearSize = ctxHalf d c ∧ (fun a n => ueIn d.mem a n = [] ∧ ceIn d.mem a n =
      []) (ctxImage d c) 64 ∧ (fun a n => ueIn d.mem a n = [] ∧ ceIn d.mem a n = []) (ctxImage d c + imgOff
      (imgHeader d c) 0) (8 * (ctxClusters d c).length) ∧ (fun a n => ueIn d.mem a n = [] ∧ ceIn d.mem a n = [])
      (ctxImage d c + imgOff (imgHeader d c) 4) 72) ∧
    (∃ (s : Machine.State) (c f : Nat), ClustersActing s ∧ (ctxAt s.dev c).swapping = true ∧ (ctxAt s.dev c).frame =
      some f ∧ (ctxAt s.dev c).st = CtxState.swappedOut ∧ s.dev.mem.ue = [] ∧ s.dev.mem.badSites = []) ∧
    (∃ (s : Machine.State) (c : Nat), ClustersActing s ∧ (ctxAt s.dev c).swapping = true ∧ (ctxAt s.dev c).st =
      CtxState.resident) :=
  ⟨⟨st
     { readyDev with
       seq := { readyDev.seq with ctxs := [(0, { ctxReset with st := .swappedOut, fwd := 1, inflight := 1 })] } }, 0,
     0, by decide +kernel⟩,
   ⟨st (fullFrames .running), 0, 0, by decide +kernel⟩,
   ⟨st (fullFrames .resident), 0, 0, 1, [(0, 1649267441664, 512)], _, (by decide +kernel), (by decide +kernel),
     (by decide +kernel), (by decide +kernel), (by decide +kernel), (by decide +kernel), (by decide +kernel),
     (by decide +kernel), (by decide +kernel), pair_of (by decide +kernel)⟩,
   ⟨{ dev1 with seq := { seqReset with ctxs := [(0, { ctxReset with st := .swappedOut })] } }, 0, by decide +kernel⟩,
   ⟨st
     { dev0 with
       seq := { seqReset with
                ctxs := [(63, { ctxReset with st := .swappedOut, swapping := true, frame := some 15 })] } }, 63, 15,
     by decide +kernel⟩,
   ⟨st
     { dev0 with
       seq := { seqReset with ctxs := [(63, { ctxReset with st := .resident, swapping := true, frame := some 15 })] } },
     63, by decide +kernel⟩⟩

/-- The hypotheses of `JobControl`, one clause after another. -/
theorem test_witness_jobControl :
    (∃ (s : Machine.State), Serving s 24610 0 ∧ s.dev.seq.job = JobState.idle ∧ cfg s.dev 57345 0 = 255 ∧
      recoveryForbids s.dev = false ∧ genForbids s.dev = false ∧ (startCheck s.dev).fst = true) ∧
    (∃ (s : Machine.State), Serving s 24610 0 ∧ s.dev.seq.job = JobState.idle ∧ cfg s.dev 57345 0 = 255 ∧
      recoveryForbids s.dev = false ∧ genForbids s.dev = false ∧ cfg s.dev 52753 0 ≠ cfg s.dev 24609 0) ∧
    (∃ (s : Machine.State), Serving s 24610 0 ∧ s.dev.seq.job = JobState.running) ∧
    (∃ (s : Machine.State), Serving s 24610 0 ∧ s.dev.seq.job ≠ JobState.running) ∧
    (∃ (s : Machine.State), Serving s 24610 0) ∧
    (∃ (s : Machine.State) (n : Nat), Serving s 24614 0 ∧ n ≠ 0 ∧ s.dev.seq.step ≤ n ∧ s.dev.seq.phase =
      Phase.stepRunning) ∧
    (∃ (s : Machine.State) (n : Nat), Serving s 24614 0 ∧ n ≠ 0 ∧ n < s.dev.seq.step) ∧
    (∃ (s : Machine.State), Serving s 24614 0 ∧ s.dev.seq.phase = Phase.stepRunning) ∧
    (∃ (s : Machine.State), Serving s 24614 0 ∧ s.dev.seq.phase = Phase.worked ∧ cfg s.dev 24614 0 = s.dev.seq.step ∧
      s.dev.seq.step ≠ 0) :=
  ⟨⟨st (withObjs dev0 [(0xCE11, 0, cfg dev0 0x6021 0)]), by decide +kernel⟩,
   ⟨st (setObj dev0 0xCE11 0 1), by decide +kernel⟩,
   ⟨st { dev0 with seq := { seqReset with job := .running } }, by decide +kernel⟩,
   ⟨st dev0, by decide +kernel⟩,
   ⟨st dev0, by decide +kernel⟩,
   ⟨st dev0, 1, by decide +kernel⟩,
   ⟨st { dev0 with seq := { seqReset with step := 2 } }, 1, by decide +kernel⟩,
   ⟨st dev0, by decide +kernel⟩,
   ⟨st { dev0 with seq := { seqReset with phase := .worked, step := 2 }, objs := (setObj dev0 0x6026 0 2).objs },
     by decide +kernel⟩⟩

/-- The hypotheses of `StepBoundary`, one clause after another. -/
theorem test_witness_stepBoundary :
    (∃ (s : Machine.State) (c : Nat), Acting s ∧ jobActive s.dev = true ∧ s.dev.seq.phase = Phase.stepRunning ∧ ctxEn
      s.dev c = true ∧ ctxLive (ctxAt s.dev c) = true ∧ atStepEnd s.dev c = true) ∧
    (∃ (s : Machine.State), Acting s ∧ jobActive s.dev = true ∧ s.dev.seq.phase = Phase.stepRunning ∧
      s.dev.seq.switching = [] ∧ boundaryReady s.dev = true ∧ (∀ (t : Nat), t < 128 → (tuAt s.dev t).queue.length <
      64) ∧ ∀ (f q : Nat), f < 16 → q < 4 → (tget [] (feAt s.dev f).queues q).length < queueDepth q) ∧
    (∃ (s : Machine.State), Acting s ∧ s.dev.seq.phase = Phase.draining) ∧
    (∃ (s : Machine.State), Acting s ∧ s.dev.seq.phase = Phase.draining ∧ unitsQuiet s.dev = true ∧ versionsDone
      s.dev = true) ∧
    (∃ (s : Machine.State), Acting s ∧ s.dev.seq.phase = Phase.draining ∧ s.dev.seq.timedOut = false ∧ unitsQuiet
      s.dev = true ∧ versionsDone s.dev = false) ∧
    (∃ (s : Machine.State), Acting s ∧ s.dev.seq.phase = Phase.worked ∧ s.dev.sup.enginesDone = 0 ∧ s.dev.seq.cutHeld
      = false) ∧
    (∃ (s : Machine.State) (c : Nat), Acting s ∧ (ctxAt s.dev c).st = CtxState.stopping ∧ ∀ (g : Nat), g ∈
      ctxClusters s.dev c → ∀ (i : Nat), i < 8 → ∀ (b : Bank), b ∈ [(tuAt s.dev (8 * g + i)).bank0, (tuAt s.dev (8 *
      g + i)).bank1] → ¬(b.draining = true ∧ b.ctx = c)) :=
  ⟨⟨st
     { dev1 with
       seq := { seqReset with ctxs := [(0, { ctxReset with st := .resident, fwd := 1, bwd := 1 })], job := .running } },
     0, by decide +kernel⟩,
   ⟨st
     { dev1 with
       seq := { seqReset with
                ctxs := [(0, { ctxReset with st := .resident, fwd := 1, bwd := 1, atEnd := true })], job := .running } },
     (by decide +kernel), (by decide +kernel), (by decide +kernel), (by decide +kernel), (by decide +kernel),
     (by decide +kernel), fun _ q _ hq => (by decide +kernel : ∀ q < 4, 0 < queueDepth q) q hq⟩,
   ⟨st { dev0 with seq := { seqReset with phase := .draining } }, by decide +kernel⟩,
   ⟨st { dev0 with seq := { seqReset with phase := .draining } }, by decide +kernel⟩,
   ⟨st
     { setObj (setObj dev0 0x6010 1 (2 ^ 255)) 0x6820 1 1 with seq := { oneCtx with phase := .draining, step := 1 } },
     by decide +kernel⟩,
   ⟨st { dev0 with seq := { seqReset with phase := .worked } }, by decide +kernel⟩,
   ⟨st { dev0 with seq := { seqReset with ctxs := [(0, { ctxReset with st := .stopping })] } }, 0, by decide +kernel⟩⟩

/-- The hypotheses of `SpawnQueueCommands`, one clause after another. -/
theorem test_witness_spawnQueueCommands :
    (∃ (s : Machine.State) (q e : Nat), Acting s ∧ queuePeer s.dev (q / 2) (q % 2) = some (entSrcdev e, entSrcctx e,
      entKind e) ∧ tagDist (sqAt s.dev q).low (entTag e) < 256 ∧ bitAt (sqAt s.dev q).rcvd (tagDist (sqAt s.dev
      q).low (entTag e)) = false ∧ (sqAt s.dev q).spilled = [] ∧ (sqAt s.dev q).resident.length < poolRes s.dev (q /
      2) (q % 2)) ∧
    (∃ (s : Machine.State) (q e : Nat), Acting s ∧ queuePeer s.dev (q / 2) (q % 2) = some (entSrcdev e, entSrcctx e,
      entKind e) ∧ tagDist (sqAt s.dev q).low (entTag e) < 256 ∧ bitAt (sqAt s.dev q).rcvd (tagDist (sqAt s.dev
      q).low (entTag e)) = false ∧ ((sqAt s.dev q).spilled ≠ [] ∨ poolRes s.dev (q / 2) (q % 2) ≤ (sqAt s.dev
      q).resident.length)) ∧
    (∃ (s : Machine.State) (q e : Nat), Acting s ∧ queuePeer s.dev (q / 2) (q % 2) = some (entSrcdev e, entSrcctx e,
      entKind e) ∧ 256 ≤ tagDist (sqAt s.dev q).low (entTag e) ∧ tagDist (sqAt s.dev q).low (entTag e) < 8388608) ∧
    (∃ (s : Machine.State) (q e : Nat), Acting s ∧ queuePeer s.dev (q / 2) (q % 2) = some (entSrcdev e, entSrcctx e,
      entKind e) ∧ 8388608 ≤ tagDist (sqAt s.dev q).low (entTag e)) ∧
    (∃ (s : Machine.State) (q e : Nat), Acting s ∧ queuePeer s.dev (q / 2) (q % 2) = some (entSrcdev e, entSrcctx e,
      entKind e) ∧ tagDist (sqAt s.dev q).low (entTag e) < 256 ∧ bitAt (sqAt s.dev q).rcvd (tagDist (sqAt s.dev
      q).low (entTag e)) = true) ∧
    (∃ (s : Machine.State) (q e : Nat), Acting s ∧ queuePeer s.dev (q / 2) (q % 2) ≠ some (entSrcdev e, entSrcctx e,
      entKind e)) ∧
    (∃ (s : Machine.State) (q tag a : Nat), Acting s ∧ ∀ (i : Nat), slotOf s.dev q a = some i → ¬((recvSlot s.dev q
      i).granted = true ∧ ((recvSlot s.dev q i).tag = none ∨ (recvSlot s.dev q i).tag = some tag) ∧ tagDist (sqAt
      s.dev q).low tag < 256 ∧ bitAt (sqAt s.dev q).rcvd (tagDist (sqAt s.dev q).low tag) = false)) ∧
    (∃ (s : Machine.State) (q tag a i : Nat) (bs : List Byte) (r : ReadRes) (d : Dev), Acting s ∧ slotOf s.dev q a =
      some i ∧ (recvSlot s.dev q i).granted = true ∧ ((recvSlot s.dev q i).tag = none ∨ (recvSlot s.dev q i).tag =
      some tag) ∧ tagDist (sqAt s.dev q).low tag < 256 ∧ bitAt (sqAt s.dev q).rcvd (tagDist (sqAt s.dev q).low tag) =
      false ∧ jobWrite (setRecvSlot s.dev q i (have __src := recvSlot s.dev q i;
      { granted := __src.granted, tag := some tag, busy := __src.busy })) ((ctxClusters s.dev (q / 2)).headD 0) (q /
      2) 65537 none a bs = (r, d) ∧ ∀ (x y : Nat), r ≠ ReadRes.fault x y) ∧
    (∃ (s : Machine.State), Acting s) ∧
    (∃ (s : Machine.State) (q : Nat), Acting s ∧ (sqAt s.dev q).spilled ≠ [] ∧ 2 * (sqAt s.dev q).resident.length ≤
      poolRes s.dev (q / 2) (q % 2)) ∧
    (∃ (s : Machine.State) (q : Nat), Acting s ∧ ((sqAt s.dev q).spilled = [] ∨ poolRes s.dev (q / 2) (q % 2) < 2 *
      (sqAt s.dev q).resident.length)) :=
  ⟨⟨st poolDev, 0, 255 * 2 ^ 488, by decide +kernel⟩,
   ⟨st (onQueue { spawnQReset with resident := [0, 0, 0, 0] }), 0, 255 * 2 ^ 488, by decide +kernel⟩,
   ⟨st poolDev, 0, 256 * 2 ^ 488, by decide +kernel⟩,
   ⟨st poolDev, 0, 0x800000 * 2 ^ 488, by decide +kernel⟩,
   ⟨st (onQueue { spawnQReset with rcvd := 1 }), 0, 0, by decide +kernel⟩,
   ⟨st dev0, 127, 0, by decide +kernel⟩,
   ⟨st dev0, 0, 0, 0, (by decide +kernel), fun _ h => absurd (h.symm.trans (show slotOf (st dev0).dev 0 0 = none
     by decide +kernel)) nofun⟩,
   ⟨st (onQueue { spawnQReset with slots := [(1, { recvSlotReset with granted := true })] }), 0, 255, 0x400007F, 1,
     [7#8], .bytes [], _, (by decide +kernel), (by decide +kernel), (by decide +kernel), .inl (by decide +kernel),
     (by decide +kernel), (by decide +kernel), pair_of (by decide +kernel), fun _ _ => by simp⟩,
   ⟨st dev0, by decide +kernel⟩,
   ⟨st (onQueue { spawnQReset with spilled := [0], resident := [0, 0] }), 0, by decide +kernel⟩,
   ⟨st poolDev, 0, (by decide +kernel), .inl (by decide +kernel)⟩⟩

/-- The hypotheses of `PostsEnterTheHeadQueue`, one clause after another. -/
theorem test_witness_postsEnterTheHeadQueue :
    (∃ (s : Machine.State) (r : Nat), Serving s 24865 0 ∧ fld r 121 96 = 0 ∧ ctxEn s.dev (fld r 127 122) = true ∧
      ctxHead s.dev (fld r 127 122) = true ∧ headFree s.dev (fld r 127 122) = true ∧ cfg s.dev 52756 0 = 0 ∧ tagDist
      (sqAt s.dev (2 * fld r 127 122)).low ((sqAt s.dev (2 * fld r 127 122)).headK % 2 ^ 24) < 256 ∧ bitAt (sqAt
      s.dev (2 * fld r 127 122)).rcvd (tagDist (sqAt s.dev (2 * fld r 127 122)).low ((sqAt s.dev (2 * fld r 127
      122)).headK % 2 ^ 24)) = false) ∧
    (∃ (s : Machine.State) (r : Nat), Serving s 24865 0 ∧ fld r 121 96 = 0 ∧ ctxEn s.dev (fld r 127 122) = true ∧
      ctxHead s.dev (fld r 127 122) = true ∧ headFree s.dev (fld r 127 122) = true ∧ cfg s.dev 52756 0 = 1 ∧ ((sqAt
      s.dev (2 * fld r 127 122)).headK - (sqAt s.dev (2 * fld r 127 122)).headK0) % ctxM s.dev (fld r 127 122) = 0 ∧
      (cfg s.dev 52754 0 + (cfg s.dev 24609 0 + ((sqAt s.dev (2 * fld r 127 122)).headK - (sqAt s.dev (2 * fld r 127
      122)).headK0) / ctxM s.dev (fld r 127 122)) % 2 ^ 64 * cfg s.dev 52755 0) % 2 ^ 64 ≠ fld r 63 0) ∧
    (∃ (s : Machine.State) (r : Nat), Serving s 24865 0 ∧ fld r 121 96 ≠ 0) ∧
    (∃ (s : Machine.State) (r : Nat), Serving s 24865 0 ∧ fld r 121 96 = 0 ∧ headFree s.dev (fld r 127 122) = false) :=
  ⟨⟨st (withObjs dev1 [(0xCE14, 0, 0), (0x6110, 1, 2 ^ 423)]), 0, by decide +kernel⟩,
   ⟨st (withObjs dev1 [(0xCE14, 0, 1), (0x6110, 1, 2 ^ 423)]), 1, by decide +kernel⟩,
   ⟨st dev0, 2 ^ 96, by decide +kernel⟩,
   ⟨st (setObj dev1 0xCE14 0 0), 0, by decide +kernel⟩⟩

/-- The hypotheses of `VersionCommands`, one clause after another. -/
theorem test_witness_versionCommands :
    (∃ (s : Machine.State) (e v r : Nat), Acting s ∧ memberRank (readSlot s.dev e (ringSlot s.dev e v)) e r = true ∧
      (vslotAt (readSlot s.dev e (ringSlot s.dev e v)) e (ringSlot s.dev e v)).ver = some v ∧ 3 ≤ (vslotAt (readSlot
      s.dev e (ringSlot s.dev e v)) e (ringSlot s.dev e v)).state) ∧
    (∃ (s : Machine.State) (e v r : Nat), Acting s ∧ memberRank (readSlot s.dev e (ringSlot s.dev e v)) e r = true ∧
      ((vslotAt (readSlot s.dev e (ringSlot s.dev e v)) e (ringSlot s.dev e v)).ver = none ∧ (vslotAt (readSlot s.dev
      e (ringSlot s.dev e v)) e (ringSlot s.dev e v)).state = 0 ∨ (vslotAt (readSlot s.dev e (ringSlot s.dev e v)) e
      (ringSlot s.dev e v)).ver = some v ∧ (vslotAt (readSlot s.dev e (ringSlot s.dev e v)) e (ringSlot s.dev e
      v)).state ≤ 2)) ∧
    (∃ (s : Machine.State) (e v r : Nat), Acting s ∧ memberRank (readSlot s.dev e (ringSlot s.dev e v)) e r = true ∧
      (vslotAt (readSlot s.dev e (ringSlot s.dev e v)) e (ringSlot s.dev e v)).ver ≠ some v ∧ (vslotAt (readSlot
      s.dev e (ringSlot s.dev e v)) e (ringSlot s.dev e v)).ver = some ((v + (2 ^ 32 - parRing (readSlot s.dev e
      (ringSlot s.dev e v)) e)) % 2 ^ 32)) ∧
    (∃ (s : Machine.State) (e v r : Nat), Acting s ∧ (memberRank (readSlot s.dev e (ringSlot s.dev e v)) e r = false
      ∨ (vslotAt (readSlot s.dev e (ringSlot s.dev e v)) e (ringSlot s.dev e v)).ver ≠ some v ∧ (vslotAt (readSlot
      s.dev e (ringSlot s.dev e v)) e (ringSlot s.dev e v)).ver ≠ some ((v + (2 ^ 32 - parRing (readSlot s.dev e
      (ringSlot s.dev e v)) e)) % 2 ^ 32) ∧ ¬((vslotAt (readSlot s.dev e (ringSlot s.dev e v)) e (ringSlot s.dev e
      v)).ver = none ∧ (vslotAt (readSlot s.dev e (ringSlot s.dev e v)) e (ringSlot s.dev e v)).state = 0))) ∧
    (∃ (s : Machine.State) (e v r : Nat), Acting s ∧ memberRank (readSlot s.dev e (ringSlot s.dev e v)) e r = true ∧
      (vslotAt (readSlot s.dev e (ringSlot s.dev e v)) e (ringSlot s.dev e v)).ver = some v ∧ (vslotAt (readSlot
      s.dev e (ringSlot s.dev e v)) e (ringSlot s.dev e v)).state = 3) ∧
    (∃ (s : Machine.State) (e v r : Nat), Acting s ∧ (memberRank (readSlot s.dev e (ringSlot s.dev e v)) e r = false
      ∨ (vslotAt (readSlot s.dev e (ringSlot s.dev e v)) e (ringSlot s.dev e v)).ver ≠ some v ∨ (vslotAt (readSlot
      s.dev e (ringSlot s.dev e v)) e (ringSlot s.dev e v)).state ≠ 3)) ∧
    (∃ (d : Dev) (e i : Nat), eccBad d (EccRec.slot e i) = false) ∧
    (∃ (d : Dev) (e i : Nat), eccBad d (EccRec.slot e i) = true) ∧
    (∃ (s : Machine.State) (e i : Nat), Acting s ∧ moltReady s.dev e i = true) ∧
    (∃ (s : Machine.State) (e i : Nat), Acting s ∧ (vslotAt s.dev e i).state = 4 ∧ (vslotAt s.dev e i).holdq = false) ∧
    (∃ (s : Machine.State) (e i : Nat), Acting s ∧ (vslotAt s.dev e i).state = 4 ∧ (vslotAt s.dev e i).holdq = true) ∧
    (∃ (s : Machine.State) (e v : Nat), Acting s ∧ (wvAt s.dev e).remap = some v ∧ (wvAt s.dev e).waits = []) ∧
    (∃ (s : Machine.State) (e v : Nat), Acting s ∧ (wvAt s.dev e).remap = some v) ∧
    (∃ (s : State) (e w v : Nat) (d : Dev), Acting s ∧ s.dev.wv.allocWait.find? (fun a => a.1 == e) = some (e, v) ∧
      let x := (gcShares s.dev e).foldl (fun x p => bump x 0x6842 (p.1 + 1) w) s.dev; startGather
      { x with wv := { x.wv with allocWait := x.wv.allocWait.erase (e, v) } } e v false = some d) ∧
    (∃ (s : Machine.State) (e : Nat), Acting s ∧ List.find? (fun a => a.fst == e) s.dev.wv.allocWait = none) ∧
    (∃ (s : Machine.State) (e v : Nat) (b : Gbuf), Acting s ∧ bufOf s.dev e v = some b ∧ b.missing = 0 ∧ b.complete =
      false) ∧
    (∃ (s : Machine.State) (c : Nat), Serving s 26659 0 ∧ (ctxAt s.dev c).st = CtxState.stopped) ∧
    (∃ (s : Machine.State) (c : Nat), Serving s 26659 0 ∧ (ctxAt s.dev c).st ≠ CtxState.stopped) :=
  ⟨⟨st (onSlot { vslotReset with ver := some 0, state := 3 }), 0, 0, 0, by decide +kernel⟩,
   ⟨st parDev, 0, 0, 0, (by decide +kernel), (by decide +kernel), .inl (by decide +kernel)⟩,
   ⟨st (onSlot { vslotReset with ver := some 0 }), 0, 2, 0, by decide +kernel⟩,
   ⟨st parDev, 0, 0, 1, (by decide +kernel), .inl (by decide +kernel)⟩,
   ⟨st (onSlot { vslotReset with ver := some 0, state := 3 }), 0, 0, 0, by decide +kernel⟩,
   ⟨st parDev, 0, 0, 0, (by decide +kernel), .inr (.inl (by decide +kernel))⟩,
   ⟨parDev, 0, 1, by decide +kernel⟩,
   ⟨{ parDev with mem := { memReset with badRecs := [.slot 0 1] } }, 0, 1, by decide +kernel⟩,
   ⟨st (onSlot { vslotReset with ver := some 0, state := 3, lrel := true, rmask := 1 }), 0, 0, by decide +kernel⟩,
   ⟨st (onSlot { vslotReset with state := 4 }), 0, 0, by decide +kernel⟩,
   ⟨st (onSlot { vslotReset with state := 4, holdq := true }), 0, 0, by decide +kernel⟩,
   ⟨st (onPar { wvEntryReset with remap := some 0 }), 0, 0, by decide +kernel⟩,
   ⟨st (onPar { wvEntryReset with remap := some 0 }), 0, 0, by decide +kernel⟩,
   ⟨st { parDev with wv := { wvReset with allocWait := [(0, 0)] } }, 0, 1, 0, _, by decide +kernel,
     by decide +kernel, some_of (by decide +kernel)⟩,
   ⟨st parDev, 0, by decide +kernel⟩,
   ⟨st
     { dev0 with
       wv := { wvReset with
               bufs := [{ entry := 0, ver := 0, parts := [], missing := 0, complete := false, lastUsed := 0,
                          pushed := [] }] } }, 0, 0,
     { entry := 0, ver := 0, parts := [], missing := 0, complete := false, lastUsed := 0, pushed := [] },
     by decide +kernel⟩,
   ⟨st { dev0 with seq := { seqReset with ctxs := [(63, { ctxReset with st := .stopped })] } }, 63,
     by decide +kernel⟩,
   ⟨st dev0, 0, by decide +kernel⟩⟩

/-- The hypotheses of `LastNoticeCompletes`, one clause after another. -/
theorem test_witness_lastNoticeCompletes :
    ∃ (s : Machine.State) (e v r c : Nat), Acting s ∧ memberRank s.dev e r = true ∧ (wvAt s.dev e).cur = some c ∧
      older c v = true ∧ (vslotAt s.dev e (ringSlot s.dev e v)).ver = some v ∧ (vslotAt s.dev e (ringSlot s.dev e
      v)).state = 2 ∧ (vslotAt s.dev e (ringSlot s.dev e v)).cmask ||| 2 ^ r = allRanks s.dev e ∧ parPref s.dev e =
      false :=
  ⟨st (onPar { wvEntryReset with cur := some 1, slots := [(0, { vslotReset with ver := some 2, state := 2 })] }), 0,
    2, 0, 1, by decide +kernel⟩

/-- The hypotheses of `UpdateCommands`, one clause after another. -/
theorem test_witness_updateCommands :
    (∃ (s : Machine.State) (p : Piece), Acting s ∧ (parEn s.dev p.entry = false ∨ updUses s.dev p.entry < p.use ∨
      updExp s.dev p.entry < p.place ∨ updNelem s.dev p.entry < p.off + p.vals.length)) ∧
    (∃ (s : Machine.State) (p : Piece), Acting s ∧ parEn s.dev p.entry = true ∧ p.use ≤ updUses s.dev p.entry ∧
      p.place ≤ updExp s.dev p.entry ∧ p.off + p.vals.length ≤ updNelem s.dev p.entry ∧ (p.step < (upAt s.dev
      p.entry).applied ∨ (upBuf (upAt s.dev p.entry) (p.step % 2)).st ≠ 0 ∧ p.step < (upBuf (upAt s.dev p.entry)
      (p.step % 2)).step ∨ (upBuf (upAt s.dev p.entry) (p.step % 2)).st ≠ 0 ∧ p.step = (upBuf (upAt s.dev p.entry)
      (p.step % 2)).step ∧ p.place < nextOf (upBuf (upAt s.dev p.entry) (p.step % 2)) p.use)) ∧
    (∃ (s : Machine.State) (p : Piece), Acting s ∧ parEn s.dev p.entry = true ∧ p.use ≤ updUses s.dev p.entry ∧
      p.place ≤ updExp s.dev p.entry ∧ p.off + p.vals.length ≤ updNelem s.dev p.entry ∧ (upAt s.dev p.entry).applied
      ≤ p.step ∧ (upBuf (upAt s.dev p.entry) (p.step % 2)).st ≠ 0 ∧ (upBuf (upAt s.dev p.entry) (p.step % 2)).step <
      p.step) ∧
    (∃ (s : Machine.State) (p : Piece), Acting s ∧ parEn s.dev p.entry = true ∧ p.use ≤ updUses s.dev p.entry ∧
      p.place ≤ updExp s.dev p.entry ∧ p.off + p.vals.length ≤ updNelem s.dev p.entry ∧ (upAt s.dev p.entry).applied
      ≤ p.step ∧ (upBuf (upAt s.dev p.entry) (p.step % 2)).st ≠ 0 ∧ (upBuf (upAt s.dev p.entry) (p.step % 2)).step =
      p.step ∧ nextOf (upBuf (upAt s.dev p.entry) (p.step % 2)) p.use < p.place ∧ cfg s.dev 26929 (updHalf s.dev
      p.entry + 1) < parkUsed s.dev (updHalf s.dev p.entry) + 4 * p.vals.length) ∧
    (∃ (s : Machine.State) (p : Piece), Acting s ∧ parEn s.dev p.entry = true ∧ p.use ≤ updUses s.dev p.entry ∧
      p.place ≤ updExp s.dev p.entry ∧ p.off + p.vals.length ≤ updNelem s.dev p.entry ∧ (upAt s.dev p.entry).applied
      ≤ p.step ∧ (upBuf (upAt s.dev p.entry) (p.step % 2)).st ≠ 0 ∧ (upBuf (upAt s.dev p.entry) (p.step % 2)).step =
      p.step ∧ nextOf (upBuf (upAt s.dev p.entry) (p.step % 2)) p.use < p.place ∧ parkUsed s.dev (updHalf s.dev
      p.entry) + 4 * p.vals.length ≤ cfg s.dev 26929 (updHalf s.dev p.entry + 1)) ∧
    (∃ (s : Machine.State) (e b : Nat) (cf : F32), Acting s ∧ oldestBuf (upAt s.dev e) = some b ∧ parEn s.dev e =
      true ∧ (upBuf (upAt s.dev e) b).st = 2 ∧ s.dev.up.heldForCut = false ∧ (upAt s.dev e).stopped = false ∧
      applyClip s.dev e (upBuf (upAt s.dev e) b).step = some cf ∧ handoverFree s.dev e (((upAt s.dev e).lastv + 1) %
      2 ^ 32) = true) ∧
    (∃ (s : Machine.State) (e b : Nat) (cf : F32), Acting s ∧ oldestBuf (upAt s.dev e) = some b ∧ parEn s.dev e =
      true ∧ (upBuf (upAt s.dev e) b).st = 2 ∧ s.dev.up.heldForCut = false ∧ (upAt s.dev e).stopped = false ∧
      applyClip s.dev e (upBuf (upAt s.dev e) b).step = some cf ∧ handoverFree s.dev e (((upAt s.dev e).lastv + 1) %
      2 ^ 32) = false) ∧
    (∃ (s : Machine.State) (e b : Nat), Acting s ∧ List.find? (fun b => (upBuf (upAt s.dev e) b).st == 3) [0, 1] =
      some b ∧ applyWhole s.dev e (upAt s.dev e) = true ∧ (upAt s.dev e).stopped = false ∧ (updRead s.dev e
      (applyRanges s.dev e b)).fst = true) ∧
    (∃ (s : Machine.State) (e b : Nat), Acting s ∧ List.find? (fun b => (upBuf (upAt s.dev e) b).st == 3) [0, 1] =
      some b ∧ applyWhole s.dev e (upAt s.dev e) = true ∧ (upAt s.dev e).stopped = false ∧ (updRead s.dev e
      (applyRanges s.dev e b)).fst = false) ∧
    (∃ (s : Machine.State) (e : Nat), Acting s ∧ (upAt s.dev e).stopped = true) ∧
    (∃ (s : Machine.State) (g : Nat), Acting s ∧ g ≠ 0 ∧ clipEntries s.dev g ≠ [] ∧ (∀ (e : Nat), e ∈ clipEntries
      s.dev g → (upBuf (upAt s.dev e) (clipNext s.dev g % 2)).st = 2 ∧ (upBuf (upAt s.dev e) (clipNext s.dev g %
      2)).step = clipNext s.dev g ∧ (upAt s.dev e).stopped = false) ∧ (s.dev.up.totals.any fun t => t.fst == g &&
      t.snd.fst == clipNext s.dev g && t.snd.snd.fst == grpRank s.dev (clipGroup s.dev g)) = false ∧ (List.foldl (fun
      s_1 e => have x := updRead s_1.snd e (clipRanges s_1.snd e (clipNext s.dev g)); (s_1.fst && x.fst, x.snd))
      (true, s.dev) (clipEntries s.dev g)).fst = true) ∧
    (∃ (s : Machine.State) (g : Nat), Acting s ∧ g ≠ 0 ∧ clipEntries s.dev g ≠ [] ∧ (∀ (e : Nat), e ∈ clipEntries
      s.dev g → (upBuf (upAt s.dev e) (clipNext s.dev g % 2)).st = 2 ∧ (upBuf (upAt s.dev e) (clipNext s.dev g %
      2)).step = clipNext s.dev g ∧ (upAt s.dev e).stopped = false) ∧ (s.dev.up.totals.any fun t => t.fst == g &&
      t.snd.fst == clipNext s.dev g && t.snd.snd.fst == grpRank s.dev (clipGroup s.dev g)) = false ∧ (List.foldl (fun
      s_1 e => have x := updRead s_1.snd e (clipRanges s_1.snd e (clipNext s.dev g)); (s_1.fst && x.fst, x.snd))
      (true, s.dev) (clipEntries s.dev g)).fst = false) :=
  ⟨⟨st dev0, { entry := 0, use := 0, place := 0, off := 0, step := 0, vals := [f32One] }, (by decide +kernel), .inl
     (by decide +kernel)⟩,
   ⟨st (onUp { upEntryReset with applied := 1 }),
     { entry := 0, use := 0, place := 0, off := 0, step := 0, vals := [f32One] }, (by decide +kernel),
     (by decide +kernel), (by decide +kernel), (by decide +kernel), (by decide +kernel), .inl (by decide +kernel)⟩,
   ⟨st (onUp { upEntryReset with b0 := { upBufReset with st := 1, step := 0 } }),
     { entry := 0, use := 0, place := 0, off := 0, step := 2, vals := [f32One] }, by decide +kernel⟩,
   ⟨st
     { withKeyed (setObj (onUp { upEntryReset with b0 := { upBufReset with st := 1 } }) 0x6931 1 0) [(0x6912, 0, 2 ^ 510 + 2 ^ 501 + 2 * 2 ^ 378 + 2 ^ 450 + 0x4000000 * 2 ^ 186)] with
       up := { upReset with entries := [(0, { upEntryReset with b0 := { upBufReset with st := 1 } })] } },
     { entry := 0, use := 0, place := 1, off := 0, step := 0, vals := [f32One] }, by decide +kernel⟩,
   ⟨st
     { withKeyed (setObj dev0 0x6931 1 64) [(0x6812, 0, 2 ^ 511 + 2 * 2 ^ 483), (0x6912, 0, 2 ^ 510 + 2 ^ 501 + 2 * 2 ^ 378 + 2 ^ 450 + 0x4000000 * 2 ^ 186)] with
       up := { upReset with entries := [(0, { upEntryReset with b0 := { upBufReset with st := 1 } })] } },
     { entry := 0, use := 0, place := 1, off := 0, step := 0, vals := [f32One] }, by decide +kernel⟩,
   ⟨st (onUp { upEntryReset with b0 := { upBufReset with st := 2, step := 0 } }), 0, 0, f32One, by decide +kernel⟩,
   ⟨st
     { onUp { upEntryReset with b0 := { upBufReset with st := 2, step := 0 } } with
       wv := { wvReset with
               entries := [(0, { wvEntryReset with slots := [(1, { vslotReset with state := 3, ver := some 1 })] })] } },
     0, 0, f32One, by decide +kernel⟩,
   ⟨st (onUp
     { upEntryReset with
       b0 := { upBufReset with st := 3, step := 0 },
       fused := [{ entry := 0, use := 0, place := 0, off := 0, step := 0, vals := [f32One, f32One] }] }), 0, 0,
     by decide +kernel⟩,
   ⟨st
     { (onUp { upEntryReset with b0 := { upBufReset with st := 3, step := 0 }, fused := [{ entry := 0, use := 0, place := 0, off := 0, step := 0, vals := [f32One, f32One] }] }) with
       mem := { memReset with ue := [0x4000000] } }, 0, 0, by decide +kernel⟩,
   ⟨st (onUp { upEntryReset with stopped := true }), 0, by decide +kernel⟩,
   ⟨st
     { withKeyed parDev [(0x6912, 0, 2 ^ 510 + 2 ^ 495 + 2 ^ 378 + 0x4000000 * 2 ^ 186)] with
       up := { upReset with entries := [(0, { upEntryReset with b0 := { upBufReset with st := 2 } })] } }, 1,
     (by decide +kernel), (by decide +kernel), (by decide +kernel), (by decide +kernel), (by decide +kernel),
     (by decide +kernel)⟩,
   ⟨st
     { withKeyed parDev [(0x6912, 0, 2 ^ 510 + 2 ^ 495 + 2 ^ 378 + 0x4000000 * 2 ^ 186)] with
       up := { upReset with entries := [(0, { upEntryReset with b0 := { upBufReset with st := 2 } })] },
       mem := { memReset with ue := [0x4000000] } }, 1, (by decide +kernel), (by decide +kernel),
     (by decide +kernel), (by decide +kernel), (by decide +kernel), (by decide +kernel)⟩⟩

/-- The hypotheses of `PieceIsAdded`, one clause after another. -/
theorem test_witness_pieceIsAdded :
    ∃ (s : Machine.State) (p : Piece) (x : F32), Acting s ∧ parEn s.dev p.entry = true ∧ p.use ≤ updUses s.dev
      p.entry ∧ p.place ≤ updExp s.dev p.entry ∧ p.vals = [x] ∧ p.off < updNelem s.dev p.entry ∧ fusedEntry s.dev
      p.entry = false ∧ (upAt s.dev p.entry).applied ≤ p.step ∧ (upBuf (upAt s.dev p.entry) (p.step % 2)).st = 1 ∧
      (upBuf (upAt s.dev p.entry) (p.step % 2)).step = p.step ∧ p.place = nextOf (upBuf (upAt s.dev p.entry) (p.step
      % 2)) p.use ∧ tget 0 (upBuf (upAt s.dev p.entry) (p.step % 2)).added p.use + 1 ≠ updNelem s.dev p.entry ∧
      s.dev.mem.fills = [] ∧ s.dev.mem.wf = true :=
  ⟨st
    { onUp { upEntryReset with b0 := { upBufReset with st := 1, step := 0 } } with
      keyed := (withKeyed parDev [(0x6912, 0, 2 ^ 495 + 2 * 2 ^ 378 + 0x4000000 * 2 ^ 186)]).keyed },
    { entry := 0, use := 0, place := 0, off := 0, step := 0, vals := [f32One] }, f32One, by decide +kernel⟩

/-- The hypotheses of `RandomCommands`, one clause after another. -/
theorem test_witness_randomCommands :
    (∃ (s : Machine.State) (r : Nat), Serving s 52800 0 ∧ s.dev.seq.job = JobState.idle ∧ s.dev.fill = none ∧ rfValid
      r = true) ∧
    (∃ (s : Machine.State), Serving s 52800 0 ∧ s.dev.seq.job ≠ JobState.idle) ∧
    (∃ (s : Machine.State) (x : Nat), Serving s 52800 0 ∧ s.dev.seq.job = JobState.idle ∧ s.dev.fill = some x) ∧
    (∃ (s : Machine.State) (r : Nat), Serving s 52800 0 ∧ s.dev.seq.job = JobState.idle ∧ s.dev.fill = none ∧ rfValid
      r = false) ∧
    (∃ (s : Machine.State) (r : Nat), Acting s ∧ s.dev.fill = some r) ∧
    (∃ (s : Machine.State), Acting s ∧ s.dev.fill = none) ∧
    (∃ (r i a : Nat) (x : FillRun), x.stop = none ∧ x.page = some ((rfDaddr r + i * rfBytes r) % 2 ^ 48 / 65536, a)) ∧
    (∃ (r i a : Nat) (x : FillRun), x.stop = none ∧ x.page = none ∧ (fillPage x.dev ((rfDaddr r + i * rfBytes r) % 2
      ^ 48)).fst = some a) ∧
    (∃ (r i : Nat) (x : FillRun), x.stop = none ∧ x.page = none ∧ (fillPage x.dev ((rfDaddr r + i * rfBytes r) % 2 ^
      48)).fst = none) ∧
    (∃ (s : Machine.State) (v : Nat), Serving s 52784 0 ∧ v < 2 ^ 128 ∧ fld v 115 112 = 0) ∧
    (∃ (s : Machine.State) (v : Nat), Serving s 52784 0 ∧ fld v 115 112 ≠ 0) :=
  ⟨⟨st dev0, 2 ^ 160, by decide +kernel⟩,
   ⟨st { dev0 with seq := { seqReset with job := .running } }, by decide +kernel⟩,
   ⟨st { dev0 with fill := some 0 }, 0, by decide +kernel⟩,
   ⟨st dev0, 0, by decide +kernel⟩,
   ⟨st { dev0 with fill := some (2 ^ 160) }, 2 ^ 160, by decide +kernel⟩,
   ⟨st dev0, by decide +kernel⟩,
   ⟨0, 0, 64, { dev := dev0, written := 0, stop := none, page := some (0, 64) }, by decide +kernel⟩,
   ⟨0x4000000 * 2 ^ 240, 0, 0x4000000, { dev := setObj dev0 0x8031 0 0, written := 0, stop := none, page := none },
     by decide +kernel⟩,
   ⟨0, 0, { dev := dev0, written := 0, stop := none, page := none }, by decide +kernel⟩,
   ⟨st dev0, 2 ^ 128 - 1 - 15 * 2 ^ 112, by decide +kernel⟩,
   ⟨st dev0, 2 ^ 115, by decide +kernel⟩⟩

/-- The hypotheses of `FlitsArriveInOrder`, one clause after another. -/
theorem test_witness_flitsArriveInOrder :
    (∃ (s : Machine.State) (q : Nat) (f : DataFlit), Acting s ∧ (quadAt s.dev q).state = 2 ∧ flitOk f = true ∧ f.seq
      = (rxAt (takeAck s.dev q f.ack) (quadAt s.dev q).peerDev f.stream).expected ∧ (rxAt (takeAck s.dev q f.ack)
      (quadAt s.dev q).peerDev f.stream).unacked < 63) ∧
    (∃ (s : Machine.State) (q : Nat) (f : DataFlit), Acting s ∧ (quadAt s.dev q).state = 2 ∧ flitOk f = true ∧ f.seq
      = (rxAt (takeAck s.dev q f.ack) (quadAt s.dev q).peerDev f.stream).expected ∧ 63 ≤ (rxAt (takeAck s.dev q
      f.ack) (quadAt s.dev q).peerDev f.stream).unacked) ∧
    (∃ (s : Machine.State) (q : Nat) (f : DataFlit), Acting s ∧ (quadAt s.dev q).state = 2 ∧ flitOk f = true ∧ f.seq
      ≠ (rxAt (takeAck s.dev q f.ack) (quadAt s.dev q).peerDev f.stream).expected ∧ 1 ≤ ((rxAt (takeAck s.dev q
      f.ack) (quadAt s.dev q).peerDev f.stream).expected + (4096 - f.seq)) % 4096 ∧ ((rxAt (takeAck s.dev q f.ack)
      (quadAt s.dev q).peerDev f.stream).expected + (4096 - f.seq)) % 4096 ≤ 2048) ∧
    (∃ (s : Machine.State) (q : Nat) (f : DataFlit), Acting s ∧ (quadAt s.dev q).state = 2 ∧ (flitOk f = false ∨
      f.seq ≠ (rxAt (if flitOk f = true then takeAck s.dev q f.ack else s.dev) (quadAt s.dev q).peerDev
      f.stream).expected ∧ (((rxAt (if flitOk f = true then takeAck s.dev q f.ack else s.dev) (quadAt s.dev
      q).peerDev f.stream).expected + (4096 - f.seq)) % 4096 = 0 ∨ 2048 < ((rxAt (if flitOk f = true then takeAck
      s.dev q f.ack else s.dev) (quadAt s.dev q).peerDev f.stream).expected + (4096 - f.seq)) % 4096))) ∧
    (∃ (s : Machine.State) (q : Nat) (f : DataFlit), Acting s ∧ (quadAt s.dev q).state = 2 ∧ flitOk f = false) ∧
    (∃ (s : Machine.State) (q : Nat), Acting s ∧ (quadAt s.dev q).state = 2) ∧
    (∃ (s : Machine.State) (q : Nat), Acting s ∧ (quadAt s.dev q).state = 2 ∧ (ackDue s.dev q).isSome = true) ∧
    (∃ (s : Machine.State) (q : Nat), Acting s ∧ (quadAt s.dev q).state = 2 ∧ (creditNext (quadAt s.dev q)).isSome =
      true) ∧
    (∃ (s : Machine.State) (q k : Nat), Acting s ∧ (quadAt s.dev q).state = 2 ∧ List.find? (fun k => carrierOf s.dev
      k == q && !(streamAt s.dev k).unacked.isEmpty) (List.range 16) = some k) ∧
    (∃ (s : Machine.State) (q v ns : Nat), Acting s ∧ (quadAt s.dev q).state = 2 ∧ tget 0 (quadAt s.dev q).credits v
      = 0 ∧ ns ≤ cfg s.dev 36889 0 * 1000) ∧
    (∃ (s : Machine.State) (q v ns : Nat), Acting s ∧ (quadAt s.dev q).state = 2 ∧ tget 0 (quadAt s.dev q).credits v
      = 0 ∧ cfg s.dev 36889 0 * 1000 < ns) ∧
    (∃ (s : Machine.State) (q v ns : Nat) (f : DataFlit) (a : FlitAck) (c : Instr), Acting s ∧ (quadAt s.dev q).state
      ≠ 2 ∧ c ∈ [Instr.dataFlit q f, Instr.ctrlFlit q a, Instr.idleFlit q a, Instr.ackTimer q,
      Instr.creditReturnTimer q, Instr.replayTimeout q, Instr.creditStall q v ns]) :=
  ⟨⟨st (onQuad 15 upQuad), 15, flit0 0, by decide +kernel⟩,
   ⟨st { onQuad 15 upQuad with rl := { (onQuad 15 upQuad).rl with rx := [(16, { rxReset with unacked := 63 })] } },
     15, flit0 0, by decide +kernel⟩,
   ⟨st (onQuad 15 upQuad), 15, flit0 2048, by decide +kernel⟩,
   ⟨st (onQuad 15 upQuad), 15, { flit0 0 with fec := false }, (by decide +kernel), (by decide +kernel), .inl
     (by decide +kernel)⟩,
   ⟨st (onQuad 15 upQuad), 15, { flit0 0 with fec := false }, by decide +kernel⟩,
   ⟨st (onQuad 15 upQuad), 15, by decide +kernel⟩,
   ⟨st { onQuad 15 upQuad with rl := { (onQuad 15 upQuad).rl with rx := [(16, { rxReset with unacked := 1 })] } },
     15, by decide +kernel⟩,
   ⟨st (onQuad 15 { upQuad with owed := [(3, 1)] }), 15, by decide +kernel⟩,
   ⟨st
     { onQuad 0 upQuad with
       rl := { (onQuad 0 upQuad).rl with
               streams := [(0, { streamReset with unacked := [{ seq := 0, vc := 0, msgoff := 15, units := [] }] })] } },
     0, 0, by decide +kernel⟩,
   ⟨st (onQuad 15 upQuad), 15, 3, 0, by decide +kernel⟩,
   ⟨st (onQuad 15 upQuad), 15, 3, cfg dev0 0x9019 0 * 1000 + 1, by decide +kernel⟩,
   ⟨st dev0, 15, 3, 0, flit0 0, noAck, .ackTimer 15, (by decide +kernel), (by decide +kernel), by decide⟩⟩

/-- The hypotheses of `QuadTraining`, one clause after another. -/
theorem test_witness_quadTraining :
    (∃ (s : Machine.State) (q r m : Nat) (t : TrainInfo), Acting s ∧ q < 16 ∧ bitAt (cfg s.dev 36882 0) q = true ∧
      s.dev.pw.lostPlls.contains (22 + q) = false ∧ ((quadAt s.dev q).state = 1 ∨ (quadAt s.dev q).state = 3) ∧
      t.peerRole = pairedRole (quadRole (settleRx s.dev q) q) ∧ t.peerDev ≠ ownDev (settleRx s.dev q) ∧ pickRate (min
      (cfg (settleRx s.dev q) 36883 0) t.peerCap) (cfg (settleRx s.dev q) 36884 0) t = some (r, m) ∧ (streamAt
      (settleRx s.dev q) q).unacked = [] ∧ (streamAt (settleRx s.dev q) q).waiting = [] ∧ ∀ (k : Nat), k < 16 → k ≠ q
      → (streamAt (settleRx s.dev q) k).carrier = none) ∧
    (∃ (s : Machine.State) (q : Nat) (t : TrainInfo), Acting s ∧ q < 16 ∧ bitAt (cfg s.dev 36882 0) q = true ∧
      s.dev.pw.lostPlls.contains (22 + q) = false ∧ ((quadAt s.dev q).state = 1 ∨ (quadAt s.dev q).state = 3) ∧
      (t.peerRole ≠ pairedRole (quadRole (settleRx s.dev q) q) ∨ t.peerDev = ownDev (settleRx s.dev q))) ∧
    (∃ (s : Machine.State) (q : Nat), Acting s ∧ (16 ≤ q ∨ bitAt (cfg s.dev 36882 0) q = false ∨
      s.dev.pw.lostPlls.contains (22 + q) = true ∨ (quadAt s.dev q).state ≠ 1 ∧ (quadAt s.dev q).state ≠ 3)) ∧
    (∃ (s : Machine.State) (q : Nat) (t : TrainInfo), Acting s ∧ t.peerRole = pairedRole (quadRole (settleRx s.dev q)
      q) ∧ t.peerDev ≠ ownDev (settleRx s.dev q) ∧ pickRate (min (cfg (settleRx s.dev q) 36883 0) t.peerCap) (cfg
      (settleRx s.dev q) 36884 0) t = none) ∧
    (∃ (s : Machine.State) (q : Nat), Acting s ∧ (quadAt s.dev q).state = 1) ∧
    (∃ (s : Machine.State) (q : Nat), Acting s ∧ (quadAt s.dev q).state = 3) ∧
    (∃ (s : Machine.State) (q : Nat), Acting s ∧ 1 ≤ (quadAt s.dev q).state ∧ (quadAt s.dev q).state ≤ 3) ∧
    (∃ (s : Machine.State) (q : Nat), Serving s 36960 0 ∧ q < 16 ∧ bitAt (cfg s.dev 36882 0) q = true) ∧
    (∃ (s : Machine.State), Serving s 36960 0) ∧
    (∃ (s : Machine.State) (q m : Nat), Acting s ∧ (quadAt s.dev q).state = 2 ∧ m % 16 ≠ 0 ∧ (quadAt s.dev
      q).dropSent = none) ∧
    (∃ (s : Machine.State) (q m n : Nat), Acting s ∧ (quadAt s.dev q).state = 2 ∧ m % 16 ≠ 0 ∧ (quadAt s.dev
      q).dropSent = some n ∧ ownDev s.dev < (quadAt s.dev q).peerDev) ∧
    (∃ (s : Machine.State) (q m n : Nat), Acting s ∧ (quadAt s.dev q).state = 2 ∧ m % 16 ≠ 0 ∧ (quadAt s.dev
      q).dropSent = some n ∧ (quadAt s.dev q).peerDev ≤ ownDev s.dev ∧ n ≠ m % 16) ∧
    (∃ (s : Machine.State) (q l m : Nat), Acting s ∧ (quadAt s.dev q).state = 2 ∧ l < 4 ∧ bitAt (quadAt s.dev
      q).lmask l = true ∧ pickLanes ((quadAt s.dev q).lmask - 2 ^ l) = some m) ∧
    (∃ (s : Machine.State) (q l : Nat), Acting s ∧ (quadAt s.dev q).state = 2 ∧ l < 4 ∧ bitAt (quadAt s.dev q).lmask
      l = true ∧ pickLanes ((quadAt s.dev q).lmask - 2 ^ l) = none) :=
  ⟨⟨st (setObj (onQuad 15 { quadReset with state := 1 }) 0x9012 0 0xFFFF), 15, 200, 15,
     { peerDev := 1, peerQuad := 0, peerRole := pairedRole (quadRole dev0 15), peerCap := 200, peerVersion := 1,
       lanes200 := 15, lanes100 := 0, lanes50 := 0 }, (by decide +kernel), (by decide +kernel), (by decide +kernel),
     (by decide +kernel), .inl (by decide +kernel), (by decide +kernel), (by decide +kernel), (by decide +kernel),
     (by decide +kernel), (by decide +kernel), (by decide +kernel)⟩,
   ⟨st (setObj (onQuad 15 { quadReset with state := 1 }) 0x9012 0 0xFFFF), 15,
     { peerDev := 0, peerQuad := 0, peerRole := pairedRole (quadRole dev0 15), peerCap := 200, peerVersion := 1,
       lanes200 := 15, lanes100 := 0, lanes50 := 0 }, (by decide +kernel), (by decide +kernel), (by decide +kernel),
     (by decide +kernel), .inl (by decide +kernel), .inr (by decide +kernel)⟩,
   ⟨st dev0, 16, (by decide +kernel), .inl (by decide +kernel)⟩,
   ⟨st (setObj (onQuad 15 { quadReset with state := 1 }) 0x9012 0 0xFFFF), 15,
     { peerDev := 1, peerQuad := 0, peerRole := pairedRole (quadRole dev0 15), peerCap := 200, peerVersion := 1,
       lanes200 := 0, lanes100 := 0, lanes50 := 0 }, by decide +kernel⟩,
   ⟨st (setObj (onQuad 15 { quadReset with state := 1 }) 0x9012 0 0xFFFF), 15, by decide +kernel⟩,
   ⟨st (onQuad 15 { quadReset with state := 3 }), 15, by decide +kernel⟩,
   ⟨st (setObj (onQuad 15 { quadReset with state := 1 }) 0x9012 0 0xFFFF), 15, by decide +kernel⟩,
   ⟨st (setObj (onQuad 15 { quadReset with state := 1 }) 0x9012 0 0xFFFF), 15, by decide +kernel⟩,
   ⟨st dev0, by decide +kernel⟩,
   ⟨st (onQuad 15 upQuad), 15, 15, by decide +kernel⟩,
   ⟨st (onQuad 15 { upQuad with dropSent := some 3 }), 15, 1, 3, by decide +kernel⟩,
   ⟨st (setObj (onQuad 15 { upQuad with dropSent := some 3 }) 0x9010 0 1), 15, 1, 3, by decide +kernel⟩,
   ⟨st (onQuad 0 { upQuad with lmask := 15 }), 0, 3, 3, by decide +kernel⟩,
   ⟨st (onQuad 15 { upQuad with lmask := 8 }), 15, 3, by decide +kernel⟩⟩

/-- The hypotheses of `Croaks`, one clause after another. -/
theorem test_witness_croaks :
    (∃ (s : Machine.State) (q : Nat), Acting s ∧ (quadAt s.dev q).state = 2) ∧
    (∃ (s : Machine.State) (q : Nat) (b : CroakBody), Acting s ∧ (quadAt s.dev q).state = 2 ∧ b.devid = (quadAt s.dev
      q).peerDev ∧ b.pstate ≠ 1) ∧
    (∃ (s : Machine.State) (q : Nat) (b : CroakBody), Acting s ∧ (quadAt s.dev q).state = 2 ∧ b.devid = (quadAt s.dev
      q).peerDev ∧ b.pstate ≠ 1 ∧ (quadAt s.dev q).croakOut = some b.cseq) ∧
    (∃ (s : Machine.State) (q : Nat) (b : CroakBody), Acting s ∧ (quadAt s.dev q).state = 2 ∧ b.devid ≠ (quadAt s.dev
      q).peerDev ∧ (quadAt s.dev q).croakOut ≠ some b.cseq) ∧
    (∃ (s : Machine.State) (q : Nat) (b : CroakBody), Acting s ∧ (quadAt s.dev q).state = 2 ∧ b.devid ≠ (quadAt
      (sendFlit s.dev q 4 none (croakFields s.dev q b.cseq)) q).peerDev) ∧
    (∃ (s : Machine.State) (q : Nat) (b : CroakBody), Acting s ∧ (quadAt s.dev q).state = 2 ∧ b.devid = (quadAt
      (sendFlit s.dev q 4 none (croakFields s.dev q b.cseq)) q).peerDev ∧ b.pstate = 1) ∧
    (∃ (s : Machine.State) (q : Nat) (b : CroakBody), Acting s ∧ (quadAt s.dev q).state = 2 ∧ b.devid = (quadAt s.dev
      q).peerDev ∧ (quadAt s.dev q).croakOut = some b.cseq ∧ b.pstate = 1) ∧
    (∃ (s : Machine.State) (q c : Nat), Acting s ∧ (quadAt s.dev q).state = 2 ∧ (quadAt s.dev q).croakOut = some c ∧
      (quadAt s.dev q).misses + 1 < cfg s.dev 36868 0) ∧
    (∃ (s : Machine.State) (q c : Nat), Acting s ∧ (quadAt s.dev q).state = 2 ∧ (quadAt s.dev q).croakOut = some c ∧
      cfg s.dev 36868 0 ≤ (quadAt s.dev q).misses + 1) :=
  ⟨⟨st (onQuad 15 upQuad), 15, by decide +kernel⟩,
   ⟨st (onQuad 15 upQuad), 15, { devid := 1, quad := 0, role := 0, pstate := 0, cseq := 0, mclive := 0 },
     by decide +kernel⟩,
   ⟨st (onQuad 0 { upQuad with croakOut := some 0, misses := 0 }), 0,
     { devid := 1, quad := 0, role := 0, pstate := 2, cseq := 0, mclive := 0 }, by decide +kernel⟩,
   ⟨st (onQuad 15 upQuad), 15, { devid := 0, quad := 0, role := 0, pstate := 0, cseq := 0, mclive := 0 },
     by decide +kernel⟩,
   ⟨st (onQuad 15 upQuad), 15, { devid := 2, quad := 0, role := 0, pstate := 0, cseq := 0, mclive := 0 },
     by decide +kernel⟩,
   ⟨st (onQuad 15 upQuad), 15, { devid := 1, quad := 0, role := 0, pstate := 1, cseq := 0, mclive := 0 },
     by decide +kernel⟩,
   ⟨st (onQuad 15 { upQuad with croakOut := some 0 }), 15,
     { devid := 1, quad := 0, role := 0, pstate := 1, cseq := 0, mclive := 0 }, by decide +kernel⟩,
   ⟨st (onQuad 0 { upQuad with croakOut := some 0, misses := 0 }), 0, 0, by decide +kernel⟩,
   ⟨st (onQuad 0 { upQuad with croakOut := some 0, misses := cfg dev0 0x9004 0 - 1 }), 0, 0, by decide +kernel⟩⟩

/-- The hypotheses of `MessagesAreRouted`, one clause after another. -/
theorem test_witness_messagesAreRouted :
    (∃ (s : Machine.State) (q v n : Nat) (m : RelayMsg) (us : List Nat), Acting s ∧ takeMsg 0 (tget [] (quadAt s.dev
      q).rx v) = some (m, us, n) ∧ (∀ (i : Nat), i ∈ tget [] (quadAt s.dev q).rxBad v → n ≤ i) ∧
      s.dev.rl.fenced.contains (fld m.header 107 96) = false ∧ kindOk (fld m.header 127 124) = true ∧ fld m.header
      119 108 = ownDev s.dev) ∧
    (∃ (s : Machine.State) (q v n i : Nat) (m : RelayMsg) (us : List Nat), Acting s ∧ takeMsg 0 (tget [] (quadAt
      s.dev q).rx v) = some (m, us, n) ∧ i ∈ tget [] (quadAt s.dev q).rxBad v ∧ i < n) ∧
    (∃ (s : Machine.State) (q v : Nat), Acting s ∧ takeMsg 0 (tget [] (quadAt s.dev q).rx v) = none) ∧
    (∃ (d : Dev) (m : RelayMsg), d.rl.fenced.contains (fld m.header 107 96) = true) ∧
    (∃ (h : Nat), bitAt h 121 = false) ∧
    (∃ (d : Dev) (m : RelayMsg) (q : Nat), kindOk (fld m.header 127 124) = true ∧ fld m.header 119 108 ≠ ownDev d ∧
      d.rl.fenced.contains (fld m.header 107 96) = false ∧ 0 < fld m.header 95 88 ∧ bitAt (routeOf d (aliasOf d (fld
      m.header 119 108))) 15 = true ∧ peerDown d (aliasOf d (fld m.header 119 108)) = false ∧ chooseQuad d m.header =
      some q ∧ bitAt (routeOf d (aliasOf d (fld m.header 119 108))) 14 = false) ∧
    (∃ (s : Machine.State) (q v n : Nat) (m : RelayMsg) (us : List Nat), Acting s ∧ takeMsg 0 (tget [] (quadAt s.dev
      q).rx v) = some (m, us, n) ∧ (∀ (i : Nat), i ∈ tget [] (quadAt s.dev q).rxBad v → n ≤ i) ∧
      s.dev.rl.fenced.contains (fld m.header 107 96) = false ∧ kindOk (fld m.header 127 124) = true ∧ fld m.header
      119 108 ≠ ownDev s.dev ∧ fld m.header 95 88 = 0 ∧ bitAt m.header 121 = true ∧ ¬(35089, 0) ∈ s.dev.ev.onceStep ∧
      ¬(18704, fld m.header 119 108) ∈ s.dev.ev.onceStep) :=
  ⟨⟨st (onQuad 15 { upQuad with rx := [(3, [0x10000000010000000000000000000000])] }), 15, 3, 1,
     { header := 0x10000000010000000000000000000000, body := [] }, [], (by decide +kernel), (by decide +kernel),
     (by decide +kernel), (by decide +kernel), (by decide +kernel), (by decide +kernel)⟩,
   ⟨st (onQuad 15 { upQuad with rx := [(3, [0x10000000010000000000000000000000])], rxBad := [(3, [0])] }), 15, 3, 1,
     0, { header := 0x10000000010000000000000000000000, body := [] }, [], by decide +kernel⟩,
   ⟨st (onQuad 15 upQuad), 15, 3, by decide +kernel⟩,
   ⟨{ dev0 with rl := { rlReset with fenced := [0] } }, { header := 0, body := [] }, by decide +kernel⟩,
   ⟨0, by decide +kernel⟩,
   ⟨setObj (withKeyed (onQuad 15 upQuad) [(0x9022, 1, 2 ^ 31 + 2 ^ 15)]) 0x9011 0 0,
     { header := 0x10001000010000000000000000000000, body := [] }, 15, by decide +kernel⟩,
   ⟨st (onQuad 15 { upQuad with rx := [(3, [0x12001000000000000000000000000000])] }), 15, 3, 1,
     { header := 0x12001000000000000000000000000000, body := [] }, [], (by decide +kernel), (by decide +kernel),
     (by decide +kernel), (by decide +kernel), (by decide +kernel), (by decide +kernel), (by decide +kernel),
     (by decide +kernel), (by decide +kernel), (by decide +kernel)⟩⟩

/-- The hypotheses of `BucketCommands`, one clause after another. -/
theorem test_witness_bucketCommands :
    (∃ (s : Machine.State) (b c p : Nat), Acting s ∧ bktEn s.dev b = true ∧ (stagingOf s.dev b c p).isSome = false ∧
      firstGap (cfg s.dev 40992 (bktHalf s.dev b + 1)) (bktNblk s.dev b * 36) (stagingBlocks s.dev (bktHalf s.dev b))
      + bktNblk s.dev b * 36 ≤ cfg s.dev 40992 (bktHalf s.dev b + 1) + cfg s.dev 40993 (bktHalf s.dev b + 1) ∧
      s.dev.mem.fills = [] ∧ s.dev.mem.wf = true) ∧
    (∃ (s : Machine.State) (b c p : Nat), Acting s ∧ bktEn s.dev b = true ∧ (stagingOf s.dev b c p).isSome = false ∧
      cfg s.dev 40992 (bktHalf s.dev b + 1) + cfg s.dev 40993 (bktHalf s.dev b + 1) < firstGap (cfg s.dev 40992
      (bktHalf s.dev b + 1)) (bktNblk s.dev b * 36) (stagingBlocks s.dev (bktHalf s.dev b)) + bktNblk s.dev b * 36) ∧
    (∃ (s : Machine.State) (b c p : Nat), Acting s ∧ (bktEn s.dev b = false ∨ (stagingOf s.dev b c p).isSome = true)) ∧
    (∃ (s : Machine.State) (g : Nat) (x : BktWait), Acting s ∧ List.find? (fun x => x.cluster == g) s.dev.ce.buckets
      = some x ∧ (∀ (b : Nat × Nat), b ∈ x.before → ∀ (q : Pass), q ∈ (vcAt s.dev b.fst).passes → q.task = x.task →
      b.snd ≤ q.num) ∧ bktEn s.dev x.bucket = true) ∧
    (∃ (s : Machine.State) (g : Nat) (x : BktWait), Acting s ∧ List.find? (fun x => x.cluster == g) s.dev.ce.buckets
      = some x ∧ (∀ (b : Nat × Nat), b ∈ x.before → ∀ (q : Pass), q ∈ (vcAt s.dev b.fst).passes → q.task = x.task →
      b.snd ≤ q.num) ∧ bktEn s.dev x.bucket = false) ∧
    (∃ (s : Machine.State) (g : Nat) (x : BktWait) (b : Nat × Nat) (q : Pass), Acting s ∧ List.find? (fun x =>
      x.cluster == g) s.dev.ce.buckets = some x ∧ b ∈ x.before ∧ q ∈ (vcAt s.dev b.fst).passes ∧ q.task = x.task ∧
      q.num < b.snd) ∧
    (∃ (s : Machine.State) (src b lap p r : Nat), Acting s ∧ grpRankOf s.dev (bktGroup s.dev b) src = some r ∧ bktEn
      s.dev b = true ∧ (bktOwners s.dev b).contains (grpRank s.dev (bktGroup s.dev b)) = true ∧ src ≠ ownDev s.dev ∧
      (lap + (256 - lowStep s.dev (bktPent s.dev b) % 256)) % 256 < 4 ∧ Option.any (fun m => m.ranks.contains r)
      (matchOf s.dev b (lowStep s.dev (bktPent s.dev b) + (lap + (256 - lowStep s.dev (bktPent s.dev b) % 256)) %
      256) p) = false) ∧
    (∃ (s : Machine.State) (src b lap p r : Nat), Acting s ∧ grpRankOf s.dev (bktGroup s.dev b) src = some r ∧ bktEn
      s.dev b = true ∧ (bktOwners s.dev b).contains (grpRank s.dev (bktGroup s.dev b)) = true ∧ src ≠ ownDev s.dev ∧
      (lap + (256 - lowStep s.dev (bktPent s.dev b) % 256)) % 256 < 4 ∧ Option.any (fun m => m.ranks.contains r)
      (matchOf s.dev b (lowStep s.dev (bktPent s.dev b) + (lap + (256 - lowStep s.dev (bktPent s.dev b) % 256)) %
      256) p) = true) ∧
    (∃ (s : Machine.State) (src b lap r : Nat), Acting s ∧ grpRankOf s.dev (bktGroup s.dev b) src = some r ∧ bktEn
      s.dev b = true ∧ (bktOwners s.dev b).contains (grpRank s.dev (bktGroup s.dev b)) = true ∧ src ≠ ownDev s.dev ∧
      4 ≤ (lap + (256 - lowStep s.dev (bktPent s.dev b) % 256)) % 256 ∧ (lap + (256 - lowStep s.dev (bktPent s.dev b)
      % 256)) % 256 < 128) ∧
    (∃ (s : Machine.State) (src b lap r : Nat), Acting s ∧ grpRankOf s.dev (bktGroup s.dev b) src = some r ∧ bktEn
      s.dev b = true ∧ (bktOwners s.dev b).contains (grpRank s.dev (bktGroup s.dev b)) = true ∧ src ≠ ownDev s.dev ∧
      128 ≤ (lap + (256 - lowStep s.dev (bktPent s.dev b) % 256)) % 256) ∧
    (∃ (s : Machine.State) (src b r f : Nat), Acting s ∧ grpRankOf s.dev (bktGroup s.dev b) src = some r ∧ bktEn
      s.dev b = true ∧ (bktOwners s.dev b).contains (grpRank s.dev (bktGroup s.dev b)) = true ∧ src ≠ ownDev s.dev ∧
      f ≠ cfg s.dev 40982 0) ∧
    (∃ (s : Machine.State) (src b : Nat), Acting s ∧ (grpRankOf s.dev (bktGroup s.dev b) src = none ∨ bktEn s.dev b =
      false ∨ (bktOwners s.dev b).contains (grpRank s.dev (bktGroup s.dev b)) = false ∨ src = ownDev s.dev)) ∧
    (∃ (s : Machine.State) (b c p k w : Nat) (m : Match), Acting s ∧ matchOf s.dev b c p = some m ∧ eccBad s.dev
      (EccRec.match_ b c p) = false ∧ chunkLanded s.dev m k = true ∧ m.delivered.contains k = false ∧ k < chunkCount
      s.dev b (grpRank s.dev (bktGroup s.dev b)) ∧ (deliverPieces w (List.drop (tget 0 m.taken k) (chunkPieces s.dev
      m k)) (tget 0 m.taken k) s.dev).snd.fst = false) ∧
    (∃ (s : Machine.State) (b c p k w : Nat) (m : Match), Acting s ∧ matchOf s.dev b c p = some m ∧ eccBad s.dev
      (EccRec.match_ b c p) = false ∧ chunkLanded s.dev m k = true ∧ m.delivered.contains k = false ∧ k < chunkCount
      s.dev b (grpRank s.dev (bktGroup s.dev b)) ∧ (deliverPieces w (List.drop (tget 0 m.taken k) (chunkPieces s.dev
      m k)) (tget 0 m.taken k) s.dev).snd.fst = true) ∧
    (∃ (s : Machine.State) (b c p k : Nat) (m : Match), Acting s ∧ matchOf s.dev b c p = some m ∧ eccBad s.dev
      (EccRec.match_ b c p) = false ∧ (chunkLanded s.dev m k = false ∨ m.delivered.contains k = true ∨ chunkCount
      s.dev b (grpRank s.dev (bktGroup s.dev b)) ≤ k)) ∧
    (∃ (s : Machine.State) (b c p : Nat) (m : Match), Acting s ∧ matchOf s.dev b c p = some m ∧ eccBad s.dev
      (EccRec.match_ b c p) = true) :=
  ⟨⟨st bktDev, 0, 0, 0, by decide +kernel⟩,
   ⟨st (setObj bktDev 0xA021 1 1151), 0, 0, 0, by decide +kernel⟩,
   ⟨st dev0, 0, 0, 0, (by decide +kernel), .inl (by decide +kernel)⟩,
   ⟨st
     { bktDev with
       ce := { ceReset with
               buckets := [{ cluster := 0, task := 0, bucket := 0, step := 0, place := 0, before := [(0, 1)] }] } },
     0, { cluster := 0, task := 0, bucket := 0, step := 0, place := 0, before := [(0, 1)] }, (by decide +kernel),
     (by decide +kernel), (by decide +kernel), (by decide +kernel)⟩,
   ⟨st
     { bktDev with
       ce := { ceReset with
               buckets := [{ cluster := 0, task := 0, bucket := 1, step := 0, place := 0, before := [(0, 1)] }] } },
     0, { cluster := 0, task := 0, bucket := 1, step := 0, place := 0, before := [(0, 1)] }, (by decide +kernel),
     (by decide +kernel), (by decide +kernel), (by decide +kernel)⟩,
   ⟨st
     { bktDev with
       ce := { ceReset with
               buckets := [{ cluster := 0, task := 0, bucket := 0, step := 0, place := 0, before := [(0, 1)] }] },
       vcs := [(0, { vcReset with passes := [pass0 0] })] }, 0,
     { cluster := 0, task := 0, bucket := 0, step := 0, place := 0, before := [(0, 1)] }, (0, 1), pass0 0,
     by decide +kernel⟩,
   ⟨st bktDev, 5, 0, 3, 0, 1, by decide +kernel⟩,
   ⟨st (onMatch upEntryReset), 5, 0, 2, 0, 1, by decide +kernel⟩,
   ⟨st bktDev, 5, 0, 4, 1, by decide +kernel⟩,
   ⟨st bktDev, 5, 0, 128, 1, by decide +kernel⟩,
   ⟨st bktDev, 5, 0, 1, cfg bktDev 0xA016 0 + 1, by decide +kernel⟩,
   ⟨st bktDev, 6, 0, (by decide +kernel), .inl (by decide +kernel)⟩,
   ⟨st (onMatch { upEntryReset with b0 := { upBufReset with st := 1 } }), 0, 2, 0, 0, 0, match0, by decide +kernel⟩,
   ⟨st (onMatch upEntryReset), 0, 2, 0, 0, 0, match0, by decide +kernel⟩,
   ⟨st (onMatch upEntryReset), 0, 2, 0, 1, match0, (by decide +kernel), (by decide +kernel), (by decide +kernel),
     .inr (.inr (by decide +kernel))⟩,
   ⟨st { onMatch upEntryReset with mem := { memReset with badRecs := [.match_ 0 2 0] } }, 0, 2, 0, match0,
     by decide +kernel⟩⟩

/-- The hypotheses of `CollectiveMessages`, one clause after another. -/
theorem test_witness_collectiveMessages :
    (∃ (s : Machine.State) (src body e : Nat), Acting s ∧ parOf s.dev (fld body 127 104) = some e ∧ (grpRankOf s.dev
      (parGroup s.dev e) src).isSome = true ∧ (vslotAt s.dev e (ringSlot s.dev e (fld body 103 72))).ver = some (fld
      body 103 72) ∧ ((vslotAt s.dev e (ringSlot s.dev e (fld body 103 72))).state = 2 ∨ (vslotAt s.dev e (ringSlot
      s.dev e (fld body 103 72))).state = 3)) ∧
    (∃ (s : Machine.State) (src body e : Nat), Acting s ∧ parOf s.dev (fld body 127 104) = some e ∧ (grpRankOf s.dev
      (parGroup s.dev e) src).isSome = true ∧ ((vslotAt s.dev e (ringSlot s.dev e (fld body 103 72))).ver ≠ some (fld
      body 103 72) ∨ (vslotAt s.dev e (ringSlot s.dev e (fld body 103 72))).state ≠ 2 ∧ (vslotAt s.dev e (ringSlot
      s.dev e (fld body 103 72))).state ≠ 3)) ∧
    (∃ (s : Machine.State) (src body sp r : Nat), Acting s ∧ sp ≠ 0 ∧ grpRankOf s.dev (bktGroup s.dev (fld body 127
      104)) src = some r ∧ List.find? (fun x => x.bucket == fld body 127 104 && x.step % 256 == fld body 103 96 &&
      x.place == fld body 95 80 && x.announced) s.dev.ce.staging = none) ∧
    (∃ (s : Machine.State) (src body sp r : Nat) (x : Staging), Acting s ∧ sp ≠ 0 ∧ grpRankOf s.dev (bktGroup s.dev
      (fld body 127 104)) src = some r ∧ List.find? (fun x => x.bucket == fld body 127 104 && x.step % 256 == fld
      body 103 96 && x.place == fld body 95 80 && x.announced) s.dev.ce.staging = some x ∧ ueIn s.dev.mem ((x.base +
      if bitAt body 79 = true then 32 * bktNblk s.dev (fld body 127 104) else 0) + fld body 63 32) (fld body 31 0) =
      []) ∧
    (∃ (s : Machine.State) (src body sp r : Nat) (x : Staging), Acting s ∧ sp ≠ 0 ∧ grpRankOf s.dev (bktGroup s.dev
      (fld body 127 104)) src = some r ∧ List.find? (fun x => x.bucket == fld body 127 104 && x.step % 256 == fld
      body 103 96 && x.place == fld body 95 80 && x.announced) s.dev.ce.staging = some x ∧ ueIn s.dev.mem ((x.base +
      if bitAt body 79 = true then 32 * bktNblk s.dev (fld body 127 104) else 0) + fld body 63 32) (fld body 31 0) ≠
      []) ∧
    (∃ (d : Dev) (a n : Nat), ueIn d.mem a n = []) ∧
    (∃ (d : Dev) (a n : Nat), ueIn d.mem a n ≠ []) ∧
    (∃ (s : Machine.State) (src l i k : Nat), Acting s ∧ List.find? (fun r => r.sent && r.ridx == i && r.rlap == l &&
      r.dst == src && !r.got.contains k) s.dev.ce.reads = none) ∧
    (∃ (s : Machine.State) (src l i k : Nat) (r : CeRead), Acting s ∧ List.find? (fun r => r.sent && r.ridx == i &&
      r.rlap == l && r.dst == src && !r.got.contains k) s.dev.ce.reads = some r ∧ (r.got ++ [k]).length ≠ max 1
      (ceilDiv r.len 8192)) ∧
    (∃ (s : Machine.State) (src l i k : Nat) (r : CeRead), Acting s ∧ List.find? (fun r => r.sent && r.ridx == i &&
      r.rlap == l && r.dst == src && !r.got.contains k) s.dev.ce.reads = some r ∧ (r.got ++ [k]).length = max 1
      (ceilDiv r.len 8192)) ∧
    (∃ (s : Machine.State) (src l i k : Nat) (r : CeRead) (st e v q o : Nat), Acting s ∧ List.find? (fun r => r.sent
      && r.ridx == i && r.rlap == l && r.dst == src && !r.got.contains k) s.dev.ce.reads = some r ∧ st ≠ 0 ∧ r.what =
      CeReadFor.gather e v q o) ∧
    (∃ (s : Machine.State) (src l i k : Nat) (r : CeRead) (st b c p q n o : Nat), Acting s ∧ List.find? (fun r =>
      r.sent && r.ridx == i && r.rlap == l && r.dst == src && !r.got.contains k) s.dev.ce.reads = some r ∧ st ≠ 0 ∧
      r.what = CeReadFor.share b c p q n o) ∧
    (∃ (s : Machine.State) (src p v o off n : Nat) (bs : List Byte) (c : Instr), Acting s ∧ c ∈ [Instr.mdata src p v
      o off bs, Instr.mack src p v o n, Instr.fetch src p v o] ∧ parOf s.dev p = none) ∧
    (∃ (s : Machine.State) (src p v o off n : Nat) (bs : List Byte) (c : Instr) (e : Nat), Acting s ∧ c ∈
      [Instr.mdata src p v o off bs, Instr.mack src p v o n, Instr.fetch src p v o] ∧ parOf s.dev p = some e ∧
      grpRankOf s.dev (parGroup s.dev e) src = none) ∧
    (∃ (s : Machine.State) (src p o e : Nat) (bs : List Byte), Acting s ∧ parOf s.dev p = some e ∧ (grpRankOf s.dev
      (parGroup s.dev e) src).isSome = true ∧ treeChildren s.dev (parGroup s.dev e) o (parRank s.dev e) ≠ [] ∧ cfg
      s.dev 41008 0 < retained s.dev (parGroup s.dev e) + bs.length) ∧
    (∃ (s : Machine.State) (src p v o e : Nat) (bs : List Byte), Acting s ∧ parOf s.dev p = some e ∧ (grpRankOf s.dev
      (parGroup s.dev e) src).isSome = true ∧ treeChildren s.dev (parGroup s.dev e) o (parRank s.dev e) = [] ∧ bufOf
      s.dev e v = none ∧ (pushedOf s.dev e v o + bs.length) / 65536 = pushedOf s.dev e v o / 65536 ∧ pushedOf s.dev e
      v o + bs.length ≠ parVbytes s.dev e) ∧
    (∃ (s : Machine.State) (src p v o e : Nat) (bs : List Byte), Acting s ∧ parOf s.dev p = some e ∧ (grpRankOf s.dev
      (parGroup s.dev e) src).isSome = true ∧ treeChildren s.dev (parGroup s.dev e) o (parRank s.dev e) = [] ∧ bufOf
      s.dev e v = none ∧ ((pushedOf s.dev e v o + bs.length) / 65536 ≠ pushedOf s.dev e v o / 65536 ∨ pushedOf s.dev
      e v o + bs.length = parVbytes s.dev e)) ∧
    (∃ (s : Machine.State) (src p v o e : Nat) (bs : List Byte) (b : Gbuf), Acting s ∧ parOf s.dev p = some e ∧
      (grpRankOf s.dev (parGroup s.dev e) src).isSome = true ∧ treeChildren s.dev (parGroup s.dev e) o (parRank s.dev
      e) = [] ∧ bufOf s.dev e v = some b ∧ b.pushed.contains o = true ∧ b.complete = false ∧ (pushedOf s.dev e v o +
      bs.length) / 65536 = pushedOf s.dev e v o / 65536 ∧ pushedOf s.dev e v o + bs.length ≠ parVbytes s.dev e) ∧
    (∃ (s : Machine.State) (src p v o e : Nat) (bs : List Byte) (m : Mcast), Acting s ∧ parOf s.dev p = some e ∧
      (grpRankOf s.dev (parGroup s.dev e) src).isSome = true ∧ treeChildren s.dev (parGroup s.dev e) o (parRank s.dev
      e) ≠ [] ∧ retained s.dev (parGroup s.dev e) + bs.length ≤ cfg s.dev 41008 0 ∧ List.find? (fun m => m.entry == e
      && m.ver == v && m.origin == o) s.dev.ce.mcasts = some m ∧ bufOf s.dev e v = none ∧ (pushedOf s.dev e v o +
      bs.length) / 65536 = pushedOf s.dev e v o / 65536 ∧ pushedOf s.dev e v o + bs.length ≠ parVbytes s.dev e) ∧
    (∃ (s : Machine.State) (src p v o e : Nat) (bs : List Byte) (m : Mcast), Acting s ∧ parOf s.dev p = some e ∧
      (grpRankOf s.dev (parGroup s.dev e) src).isSome = true ∧ treeChildren s.dev (parGroup s.dev e) o (parRank s.dev
      e) ≠ [] ∧ retained s.dev (parGroup s.dev e) + bs.length ≤ cfg s.dev 41008 0 ∧ List.find? (fun m => m.entry == e
      && m.ver == v && m.origin == o) s.dev.ce.mcasts = some m ∧ bufOf s.dev e v = none ∧ ((pushedOf s.dev e v o +
      bs.length) / 65536 ≠ pushedOf s.dev e v o / 65536 ∨ pushedOf s.dev e v o + bs.length = parVbytes s.dev e)) ∧
    (∃ (s : Machine.State) (src p v o n e r : Nat) (m : Mcast), Acting s ∧ parOf s.dev p = some e ∧ grpRankOf s.dev
      (parGroup s.dev e) src = some r ∧ List.find? (fun m => m.entry == e && m.ver == v && m.origin == o)
      s.dev.ce.mcasts = some m ∧ (tfind m.acks r).isSome = true ∧ eccBad s.dev (EccRec.retention e v o) = false ∧
      (acked m r n).sent = (acked m r n).total ∧ (List.all (acked m r n).acks fun a => decide ((acked m r n).total ≤
      a.snd)) = true) ∧
    (∃ (s : Machine.State) (src p v o n e r : Nat) (m : Mcast), Acting s ∧ parOf s.dev p = some e ∧ grpRankOf s.dev
      (parGroup s.dev e) src = some r ∧ List.find? (fun m => m.entry == e && m.ver == v && m.origin == o)
      s.dev.ce.mcasts = some m ∧ (tfind m.acks r).isSome = true ∧ eccBad s.dev (EccRec.retention e v o) = false ∧
      ((acked m r n).sent ≠ (acked m r n).total ∨ (List.all (acked m r n).acks fun a => decide ((acked m r n).total ≤
      a.snd)) = false)) ∧
    (∃ (s : Machine.State) (src p v o e r : Nat) (m : Mcast), Acting s ∧ parOf s.dev p = some e ∧ grpRankOf s.dev
      (parGroup s.dev e) src = some r ∧ List.find? (fun m => m.entry == e && m.ver == v && m.origin == o)
      s.dev.ce.mcasts = some m ∧ (tfind m.acks r).isSome = true ∧ eccBad s.dev (EccRec.retention e v o) = true) ∧
    (∃ (s : Machine.State) (src p v o e : Nat) (b : Gbuf), Acting s ∧ parOf s.dev p = some e ∧ (grpRankOf s.dev
      (parGroup s.dev e) src).isSome = true ∧ bufOf s.dev e v = some b ∧ b.pushed.contains o = true) ∧
    (∃ (s : Machine.State) (src p v o e : Nat), Acting s ∧ parOf s.dev p = some e ∧ (grpRankOf s.dev (parGroup s.dev
      e) src).isSome = true ∧ ∀ (b : Gbuf), bufOf s.dev e v = some b → b.pushed.contains o = false) ∧
    (∃ (s : Machine.State) (g us : Nat) (m : Mcast) (r n : Nat), Acting s ∧ List.filter (fun m => parGroup s.dev
      m.entry == g && !List.isEmpty m.acks && decide (m.sent < m.total)) s.dev.ce.mcasts = [m] ∧ cfg s.dev 41009 0 ≤
      us ∧ cfg s.dev 41008 0 < retained s.dev g + min 8192 (m.total - m.sent) ∧ List.find? (fun a => a.snd ==
      List.foldl min m.sent (List.map Prod.snd m.acks)) m.acks = some (r, n)) ∧
    (∃ (s : Machine.State) (us : Nat), Acting s ∧ us < cfg s.dev 41009 0) ∧
    (∃ (s : Machine.State) (src g l r : Nat), Acting s ∧ 1 ≤ g ∧ g ≤ 15 ∧ grpRankOf s.dev (clipGroup s.dev g) src =
      some r ∧ (l + (256 - clipNext s.dev g % 256)) % 256 < 4 ∧ (s.dev.up.totals.any fun t => t.fst == g && t.snd.fst
      == clipNext s.dev g + (l + (256 - clipNext s.dev g % 256)) % 256 && t.snd.snd.fst == r) = false) ∧
    (∃ (s : Machine.State) (src g l r : Nat), Acting s ∧ 1 ≤ g ∧ g ≤ 15 ∧ grpRankOf s.dev (clipGroup s.dev g) src =
      some r ∧ (l + (256 - clipNext s.dev g % 256)) % 256 < 4 ∧ (s.dev.up.totals.any fun t => t.fst == g && t.snd.fst
      == clipNext s.dev g + (l + (256 - clipNext s.dev g % 256)) % 256 && t.snd.snd.fst == r) = true) ∧
    (∃ (s : Machine.State) (src g l r : Nat), Acting s ∧ 1 ≤ g ∧ g ≤ 15 ∧ grpRankOf s.dev (clipGroup s.dev g) src =
      some r ∧ 4 ≤ (l + (256 - clipNext s.dev g % 256)) % 256 ∧ (l + (256 - clipNext s.dev g % 256)) % 256 < 128) ∧
    (∃ (s : Machine.State) (src g l r : Nat), Acting s ∧ 1 ≤ g ∧ g ≤ 15 ∧ grpRankOf s.dev (clipGroup s.dev g) src =
      some r ∧ 128 ≤ (l + (256 - clipNext s.dev g % 256)) % 256) ∧
    (∃ (s : Machine.State) (src g : Nat), Acting s ∧ grpRankOf s.dev (clipGroup s.dev g) src = none) ∧
    (∃ (s : Machine.State) (h : Nat), Acting s ∧ (fld h 63 60 = 6 ∨ fld h 63 60 = 8) ∧ ∀ (r : CeRead), r ∈
      s.dev.ce.reads → r.sent = true) :=
  ⟨⟨st (onSlot { vslotReset with ver := some 0, state := 2 }), 0, 0, 0, (by decide +kernel), (by decide +kernel),
     (by decide +kernel), (by decide +kernel), .inl (by decide +kernel)⟩,
   ⟨st parDev, 0, 0, 0, (by decide +kernel), (by decide +kernel), (by decide +kernel), .inl (by decide +kernel)⟩,
   ⟨st bktDev, 5, 0, 1, 1, by decide +kernel⟩,
   ⟨st
     { bktDev with
       ce := { ceReset with
               staging := [{ bucket := 0, step := 0, place := 0, half := 0, base := 0x5000000, bytes := 0, left := [],
                             announced := true }] } }, 5, 0, 1, 1,
     { bucket := 0, step := 0, place := 0, half := 0, base := 0x5000000, bytes := 0, left := [], announced := true },
     by decide +kernel⟩,
   ⟨st
     { bktDev with
       ce := { ceReset with
               staging := [{ bucket := 0, step := 0, place := 0, half := 0, base := 0x5000000, bytes := 0, left := [],
                             announced := true }] }, mem := { memReset with ue := [0x5000000] } }, 5, 4, 1, 1,
     { bucket := 0, step := 0, place := 0, half := 0, base := 0x5000000, bytes := 0, left := [], announced := true },
     by decide +kernel⟩,
   ⟨dev0, 0, 0, by decide +kernel⟩,
   ⟨{ dev0 with mem := { memReset with ue := [0x4000000] } }, 0x4000000, 1, by decide +kernel⟩,
   ⟨st dev0, 0, 0, 0, 0, by decide +kernel⟩,
   ⟨st
     { dev0 with
       ce := { ceReset with
               reads := [{ unit := 0, sent := true, ridx := 0, rlap := 0, what := .gather 0 0 0 0, dst := 0,
                           flow := 0, space := 0, body := 0, len := 8193, got := [] }] } }, 0, 0, 0, 0,
     { unit := 0, sent := true, ridx := 0, rlap := 0, what := .gather 0 0 0 0, dst := 0, flow := 0, space := 0,
       body := 0, len := 8193, got := [] }, by decide +kernel⟩,
   ⟨st
     { dev0 with
       ce := { ceReset with
               reads := [{ unit := 0, sent := true, ridx := 0, rlap := 0, what := .gather 0 0 0 0, dst := 0,
                           flow := 0, space := 0, body := 0, len := 0, got := [] }] } }, 0, 0, 0, 0,
     { unit := 0, sent := true, ridx := 0, rlap := 0, what := .gather 0 0 0 0, dst := 0, flow := 0, space := 0,
       body := 0, len := 0, got := [] }, by decide +kernel⟩,
   ⟨st
     { dev0 with
       ce := { ceReset with
               reads := [{ unit := 0, sent := true, ridx := 0, rlap := 0, what := .gather 0 0 0 0, dst := 0,
                           flow := 0, space := 0, body := 0, len := 0, got := [] }] } }, 0, 0, 0, 0,
     { unit := 0, sent := true, ridx := 0, rlap := 0, what := .gather 0 0 0 0, dst := 0, flow := 0, space := 0,
       body := 0, len := 0, got := [] }, 3, 0, 0, 0, 0, by decide +kernel⟩,
   ⟨st
     { dev0 with
       ce := { ceReset with
               reads := [{ unit := 0, sent := true, ridx := 0, rlap := 0, what := .share 0 0 0 0 0 0, dst := 0,
                           flow := 0, space := 0, body := 0, len := 0, got := [] }] } }, 0, 0, 0, 0,
     { unit := 0, sent := true, ridx := 0, rlap := 0, what := .share 0 0 0 0 0 0, dst := 0, flow := 0, space := 0,
       body := 0, len := 0, got := [] }, 3, 0, 0, 0, 0, 0, 0, by decide +kernel⟩,
   ⟨st dev0, 0, 0, 0, 0, 0, 0, [], .fetch 0 0 0 0, (by decide +kernel), by decide, (by decide +kernel)⟩,
   ⟨st parDev, 5, 0, 0, 0, 0, 0, [], .fetch 5 0 0 0, 0, (by decide +kernel), by decide, (by decide +kernel),
     (by decide +kernel)⟩,
   ⟨st (setObj bktDev 0xA030 0 0), 0, 0, 0, 0, [7], by decide +kernel⟩,
   ⟨st (withKeyed dev0 [(0x6812, 0, 2 ^ 511 + 65536 * 2 ^ 368)]), 0, 0, 0, 0, 0, [7], by decide +kernel⟩,
   ⟨st parDev, 0, 0, 0, 0, 0, [], (by decide +kernel), (by decide +kernel), (by decide +kernel), (by decide +kernel),
     (by decide +kernel), .inr (by decide +kernel)⟩,
   ⟨st
     { parDev with
       wv := { wvReset with
               bufs := [{ entry := 0, ver := 0, parts := [], missing := 0, complete := false, lastUsed := 0,
                          pushed := [0] }] } }, 0, 0, 0, 0, 0, [7],
     { entry := 0, ver := 0, parts := [], missing := 0, complete := false, lastUsed := 0, pushed := [0] },
     by decide +kernel⟩,
   ⟨st { bktDev with ce := { ceReset with mcasts := [mcast0] } }, 0, 0, 0, 0, 0, [7], mcast0, by decide +kernel⟩,
   ⟨st { bktDev with ce := { ceReset with mcasts := [mcast0] } }, 0, 0, 0, 0, 0, [], mcast0, (by decide +kernel),
     (by decide +kernel), (by decide +kernel), (by decide +kernel), (by decide +kernel), (by decide +kernel),
     (by decide +kernel), .inr (by decide +kernel)⟩,
   ⟨st { parDev with ce := { ceReset with mcasts := [{ mcast0 with acks := [(0, 0)], sent := 1, total := 1 }] } }, 0,
     0, 0, 0, 1, 0, 0, { mcast0 with acks := [(0, 0)], sent := 1, total := 1 }, by decide +kernel⟩,
   ⟨st { parDev with ce := { ceReset with mcasts := [{ mcast0 with acks := [(0, 0)], sent := 1, total := 1 }] } }, 0,
     0, 0, 0, 0, 0, 0, { mcast0 with acks := [(0, 0)], sent := 1, total := 1 }, (by decide +kernel),
     (by decide +kernel), (by decide +kernel), (by decide +kernel), (by decide +kernel), (by decide +kernel), .inr
     (by decide +kernel)⟩,
   ⟨st
     { parDev with
       ce := { ceReset with mcasts := [{ mcast0 with acks := [(0, 0)], sent := 1, total := 1 }] },
       mem := { memReset with badRecs := [.retention 0 0 0] } }, 0, 0, 0, 0, 0, 0,
     { mcast0 with acks := [(0, 0)], sent := 1, total := 1 }, by decide +kernel⟩,
   ⟨st
     { parDev with
       wv := { wvReset with
               bufs := [{ entry := 0, ver := 0, parts := [], missing := 0, complete := false, lastUsed := 0,
                          pushed := [0] }] } }, 0, 0, 0, 0, 0,
     { entry := 0, ver := 0, parts := [], missing := 0, complete := false, lastUsed := 0, pushed := [0] },
     by decide +kernel⟩,
   ⟨st parDev, 0, 0, 0, 0, 0, (by decide +kernel), (by decide +kernel), (by decide +kernel), fun _ h => absurd
     (h.symm.trans (show bufOf (st parDev).dev 0 0 = none by decide +kernel)) nofun⟩,
   ⟨st { parDev with ce := { ceReset with mcasts := [{ mcast0 with sent := 0x400000, total := 0x400001 }] } }, 0,
     500, { mcast0 with sent := 0x400000, total := 0x400001 }, 1, 0, by decide +kernel⟩,
   ⟨st dev0, 0, by decide +kernel⟩,
   ⟨st dev0, 0, 1, 3, 0, by decide +kernel⟩,
   ⟨st { setObj dev0 0x6021 0 0 with up := { upReset with totals := [(1, 0, 0, f32One)] } }, 0, 1, 0, 0,
     by decide +kernel⟩,
   ⟨st { setObj dev0 0x6021 0 0 with up := { upReset with totals := [(1, 0, 0, f32One)] } }, 0, 1, 4, 0,
     by decide +kernel⟩,
   ⟨st { setObj dev0 0x6021 0 0 with up := { upReset with totals := [(1, 0, 0, f32One)] } }, 0, 1, 128, 0,
     by decide +kernel⟩,
   ⟨st dev0, 5, 1, by decide +kernel⟩,
   ⟨st dev0, 6 * 2 ^ 60, (by decide +kernel), .inl (by decide +kernel), (by decide +kernel)⟩⟩

/-- The hypotheses of `ExchangeCommands`, one clause after another. -/
theorem test_witness_exchangeCommands :
    (∃ (s : Machine.State) (l : Nat) (b : ExBell), Acting s ∧ List.find? (fun b => b.layer == l && b.combine ==
      false) s.dev.ex.bells = some b ∧ b.bad = true) ∧
    (∃ (s : Machine.State) (l : Nat) (b : ExBell), Acting s ∧ List.find? (fun b => b.layer == l && b.combine ==
      false) s.dev.ex.bells = some b ∧ b.bad = false ∧ b.bwd = false ∧ ∃ r, tfind s.dev.ex.routes (exRouteKey s.dev l
      b.tag) = some r ∧ r.fst ≠ b.tag) ∧
    (∃ (s : Machine.State) (l : Nat) (b : ExBell), Acting s ∧ List.find? (fun b => b.layer == l && b.combine ==
      false) s.dev.ex.bells = some b ∧ b.bad = false ∧ (b.bwd = true ∨ tfind s.dev.ex.routes (exRouteKey s.dev l
      b.tag) = none ∨ ∃ es, tfind s.dev.ex.routes (exRouteKey s.dev l b.tag) = some (b.tag, es)) ∧ (semTake
      (bellTaken s b) (exCluster s.dev l) (exDbd s.dev l) 14 1).fst = false) ∧
    (∃ (s : Machine.State) (l : Nat) (b : ExBell), Acting s ∧ List.find? (fun b => b.layer == l && b.combine ==
      false) s.dev.ex.bells = some b ∧ b.bad = false ∧ (b.bwd = true ∨ tfind s.dev.ex.routes (exRouteKey s.dev l
      b.tag) = none ∨ ∃ es, tfind s.dev.ex.routes (exRouteKey s.dev l b.tag) = some (b.tag, es)) ∧ (semTake
      (bellTaken s b) (exCluster s.dev l) (exDbd s.dev l) 14 1).fst = true ∧ ¬(placesBad s.dev l = false ∧ eccBad
      s.dev (EccRec.pending l b.bwd b.tag) = false ∧ (b.bwd = true → eccBad s.dev (EccRec.route (exRouteKey s.dev l
      b.tag)) = false))) ∧
    (∃ (s : Machine.State) (l : Nat) (b : ExBell), Acting s ∧ List.find? (fun b => b.layer == l && b.combine ==
      false) s.dev.ex.bells = some b ∧ b.bad = false ∧ b.bwd = true ∧ (semTake (bellTaken s b) (exCluster s.dev l)
      (exDbd s.dev l) 14 1).fst = true ∧ placesBad s.dev l = false ∧ eccBad s.dev (EccRec.pending l b.bwd b.tag) =
      false ∧ (b.bwd = true → eccBad s.dev (EccRec.route (exRouteKey s.dev l b.tag)) = false)) ∧
    (∃ (s : Machine.State) (l : Nat) (b : ExBell), Acting s ∧ List.find? (fun b => b.layer == l && b.combine ==
      false) s.dev.ex.bells = some b ∧ b.bad = false ∧ b.bwd = false ∧ (tfind s.dev.ex.routes (exRouteKey s.dev l
      b.tag) = none ∨ ∃ es, tfind s.dev.ex.routes (exRouteKey s.dev l b.tag) = some (b.tag, es)) ∧ (semTake
      (bellTaken s b) (exCluster s.dev l) (exDbd s.dev l) 14 1).fst = true ∧ placesBad s.dev l = false ∧ eccBad s.dev
      (EccRec.pending l b.bwd b.tag) = false ∧ (b.bwd = true → eccBad s.dev (EccRec.route (exRouteKey s.dev l b.tag))
      = false)) ∧
    (∃ (s : Machine.State) (l : Nat) (b : ExBell), Acting s ∧ List.find? (fun b => b.layer == l && b.combine == true)
      s.dev.ex.bells = some b ∧ b.bad = true) ∧
    (∃ (s : Machine.State) (l : Nat) (b : ExBell), Acting s ∧ List.find? (fun b => b.layer == l && b.combine == true)
      s.dev.ex.bells = some b ∧ b.bad = false ∧ (semTake (bellTaken s b) (exCluster s.dev l) (exDbc s.dev l) 14
      1).fst = false) ∧
    (∃ (s : Machine.State) (l : Nat) (b : ExBell), Acting s ∧ List.find? (fun b => b.layer == l && b.combine == true)
      s.dev.ex.bells = some b ∧ b.bad = false ∧ (semTake (bellTaken s b) (exCluster s.dev l) (exDbc s.dev l) 14
      1).fst = true ∧ ¬(placesBad s.dev l = false ∧ eccBad s.dev (EccRec.pending l b.bwd b.tag) = false)) ∧
    (∃ (s : Machine.State) (l : Nat) (b : ExBell), Acting s ∧ List.find? (fun b => b.layer == l && b.combine == true)
      s.dev.ex.bells = some b ∧ b.bad = false ∧ (semTake (bellTaken s b) (exCluster s.dev l) (exDbc s.dev l) 14
      1).fst = true ∧ placesBad s.dev l = false ∧ eccBad s.dev (EccRec.pending l b.bwd b.tag) = false) ∧
    (∃ (s : Machine.State) (l : Nat), Acting s ∧ List.find? (fun b => b.layer == l && b.combine == false)
      s.dev.ex.bells = none) ∧
    (∃ (s : Machine.State) (l : Nat), Acting s ∧ List.find? (fun b => b.layer == l && b.combine == true)
      s.dev.ex.bells = none) ∧
    (∃ (s : Machine.State) (src l tag i r : Nat) (b : Bool) (bs : List Byte), Acting s ∧ exEn s.dev l = true ∧
      grpRankOf s.dev (exGroup s.dev l) src = some r ∧ i < exLocal s.dev l ∧ exCheck s.dev l b tag = ExWhere.open_ ∧
      (exTagAt s.dev l b tag).a0 = none ∧ exRoom s.dev l bs.length = true) ∧
    (∃ (s : Machine.State) (src l tag i r : Nat) (b : Bool) (bs : List Byte), Acting s ∧ exEn s.dev l = true ∧
      grpRankOf s.dev (exGroup s.dev l) src = some r ∧ i < exLocal s.dev l ∧ exCheck s.dev l b tag = ExWhere.open_ ∧
      (exTagAt s.dev l b tag).a0 = none ∧ exRoom s.dev l bs.length = false) ∧
    (∃ (s : Machine.State) (src l tag i r : Nat) (b : Bool) (a : Nat), Acting s ∧ exEn s.dev l = true ∧ grpRankOf
      s.dev (exGroup s.dev l) src = some r ∧ i < exLocal s.dev l ∧ exCheck s.dev l b tag = ExWhere.open_ ∧ (exTagAt
      s.dev l b tag).a0 = some a) ∧
    (∃ (s : Machine.State) (src l tag r : Nat) (b : Bool), Acting s ∧ exEn s.dev l = true ∧ grpRankOf s.dev (exGroup
      s.dev l) src = some r ∧ exCheck s.dev l b tag = ExWhere.open_) ∧
    (∃ (s : Machine.State) (src l tag i r : Nat) (b : Bool) (bs : List Byte), Acting s ∧ exEn s.dev l = true ∧
      grpRankOf s.dev (exGroup s.dev l) src = some r ∧ ((exExperts s.dev l src).any fun e => (exHome s.dev l e).snd
      == i) = true ∧ exCheck s.dev l b tag = ExWhere.open_ ∧ exRoom s.dev l bs.length = true) ∧
    (∃ (s : Machine.State) (src l tag i r : Nat) (b : Bool) (bs : List Byte), Acting s ∧ exEn s.dev l = true ∧
      grpRankOf s.dev (exGroup s.dev l) src = some r ∧ ((exExperts s.dev l src).any fun e => (exHome s.dev l e).snd
      == i) = true ∧ exCheck s.dev l b tag = ExWhere.open_ ∧ exRoom s.dev l bs.length = false) ∧
    (∃ (s : Machine.State) (src l i : Nat), Acting s ∧ ¬((exEn s.dev l = true ∧ ∃ r, grpRankOf s.dev (exGroup s.dev
      l) src = some r) ∧ i < exLocal s.dev l)) ∧
    (∃ (s : Machine.State) (src l : Nat), Acting s ∧ ¬(exEn s.dev l = true ∧ ∃ r, grpRankOf s.dev (exGroup s.dev l)
      src = some r)) ∧
    (∃ (s : Machine.State) (src l i : Nat), Acting s ∧ ¬((exEn s.dev l = true ∧ ∃ r, grpRankOf s.dev (exGroup s.dev
      l) src = some r) ∧ ((exExperts s.dev l src).any fun e => (exHome s.dev l e).snd == i) = true)) ∧
    (∃ (s : Machine.State) (src l tag i : Nat) (b : Bool), Acting s ∧ exCheck s.dev l b tag = ExWhere.stale ∧ (exEn
      s.dev l = true ∧ ∃ r, grpRankOf s.dev (exGroup s.dev l) src = some r) ∧ i < exLocal s.dev l) ∧
    (∃ (s : Machine.State) (src l tag : Nat) (b : Bool), Acting s ∧ exCheck s.dev l b tag = ExWhere.stale ∧ exEn
      s.dev l = true ∧ ∃ r, grpRankOf s.dev (exGroup s.dev l) src = some r) ∧
    (∃ (s : Machine.State) (src l tag i : Nat) (b : Bool), Acting s ∧ exCheck s.dev l b tag = ExWhere.stale ∧ (exEn
      s.dev l = true ∧ ∃ r, grpRankOf s.dev (exGroup s.dev l) src = some r) ∧ ((exExperts s.dev l src).any fun e =>
      (exHome s.dev l e).snd == i) = true) ∧
    (∃ (s : Machine.State) (src l tag i : Nat) (b : Bool), Acting s ∧ exCheck s.dev l b tag = ExWhere.ahead ∧ (exEn
      s.dev l = true ∧ ∃ r, grpRankOf s.dev (exGroup s.dev l) src = some r) ∧ i < exLocal s.dev l) ∧
    (∃ (s : Machine.State) (src l tag : Nat) (b : Bool), Acting s ∧ exCheck s.dev l b tag = ExWhere.ahead ∧ exEn
      s.dev l = true ∧ ∃ r, grpRankOf s.dev (exGroup s.dev l) src = some r) ∧
    (∃ (s : Machine.State) (src l tag i : Nat) (b : Bool), Acting s ∧ exCheck s.dev l b tag = ExWhere.ahead ∧ (exEn
      s.dev l = true ∧ ∃ r, grpRankOf s.dev (exGroup s.dev l) src = some r) ∧ ((exExperts s.dev l src).any fun e =>
      (exHome s.dev l e).snd == i) = true) ∧
    (∃ (s : Machine.State) (l tag a : Nat) (b : Bool), Acting s ∧ (exTagAt s.dev l b tag).a0 = some a ∧ (exTagAt
      s.dev l b tag).dispatched = false ∧ (∀ (r : Nat), r < exRanks s.dev l → (tfind (exTagAt s.dev l b tag).counts
      r).isSome = true) ∧ ∀ (c : Nat × Nat), c ∈ List.flatMap (fun i => List.map (fun r => (i, r)) (List.range
      (exRanks s.dev l))) (List.range (exLocal s.dev l)) → ∀ (p : Nat), p < (fun r i => (tget [] (exTagAt s.dev l b
      tag).counts r).getD i 0) c.snd c.fst → ∀ (k : Nat), k < exPartsOf (exSent s.dev l b) → (exTagAt s.dev l b
      tag).landed.contains (exKey c.snd c.fst p k) = true) ∧
    (∃ (s : Machine.State) (l tag a : Nat) (b : Bool), Acting s ∧ (exTagAt s.dev l b tag).a0 = some a ∧ ((exTagAt
      s.dev l b tag).dispatched = true ∨ ¬((∀ (r : Nat), r < exRanks s.dev l → (tfind (exTagAt s.dev l b tag).counts
      r).isSome = true) ∧ ∀ (c : Nat × Nat), c ∈ List.flatMap (fun i => List.map (fun r => (i, r)) (List.range
      (exRanks s.dev l))) (List.range (exLocal s.dev l)) → ∀ (p : Nat), p < (fun r i => (tget [] (exTagAt s.dev l b
      tag).counts r).getD i 0) c.snd c.fst → ∀ (k : Nat), k < exPartsOf (exSent s.dev l b) → (exTagAt s.dev l b
      tag).landed.contains (exKey c.snd c.fst p k) = true))) ∧
    (∃ (s : Machine.State) (l tag : Nat) (b : Bool), Acting s ∧ (exTagAt s.dev l b tag).a0 = none) ∧
    (∃ (s : Machine.State) (l tag : Nat) (b : Bool), Acting s ∧ (exTagAt s.dev l b tag).combined = true ∧ (exTagAt
      s.dev l b tag).dispatched = true ∧ ∀ (k : Nat), k < exNtok s.dev l → (exTagAt s.dev l b tag).written.contains k
      = true) ∧
    (∃ (s : Machine.State) (l tag : Nat) (b : Bool), Acting s ∧ ¬((exTagAt s.dev l b tag).combined = true ∧ (exTagAt
      s.dev l b tag).dispatched = true ∧ ∀ (k : Nat), k < exNtok s.dev l → (exTagAt s.dev l b tag).written.contains k
      = true)) :=
  ⟨⟨st { onEx [] [{ bell0 with bad := true }] with sems := [(0, { count := 1, waits := [] })] }, 0,
     { bell0 with bad := true }, by decide +kernel⟩,
   ⟨st { onEx [] [bell0] with ex := { (onEx [] [bell0]).ex with routes := [(0, (1, []))] } }, 0, bell0,
     (by decide +kernel), (by decide +kernel), (by decide +kernel), (by decide +kernel), (1, []),
     (by decide +kernel), (by decide +kernel)⟩,
   ⟨st (onEx [] [bell0]), 0, bell0, (by decide +kernel), (by decide +kernel), (by decide +kernel), .inr (.inl
     (by decide +kernel)), (by decide +kernel)⟩,
   ⟨st
     { onEx [] [bell0] with
       sems := [(0, { count := 1, waits := [] })], mem := { memReset with badRecs := [.pending 0 false 0] } }, 0,
     bell0, (by decide +kernel), (by decide +kernel), (by decide +kernel), .inr (.inl (by decide +kernel)),
     (by decide +kernel), (by decide +kernel)⟩,
   ⟨st { onEx [] [{ bell0 with bwd := true }] with sems := [(0, { count := 1, waits := [] })] }, 0,
     { bell0 with bwd := true }, by decide +kernel⟩,
   ⟨st { onEx [] [bell0] with sems := [(0, { count := 1, waits := [] })] }, 0, bell0, (by decide +kernel),
     (by decide +kernel), (by decide +kernel), (by decide +kernel), .inl (by decide +kernel), (by decide +kernel),
     (by decide +kernel), (by decide +kernel), (by decide +kernel)⟩,
   ⟨st { onEx [] [{ bell0 with bad := true, combine := true }] with sems := [(0, { count := 1, waits := [] })] }, 0,
     { bell0 with bad := true, combine := true }, by decide +kernel⟩,
   ⟨st (onEx [] [{ bell0 with combine := true }]), 0, { bell0 with combine := true }, by decide +kernel⟩,
   ⟨st
     { onEx [] [{ bell0 with combine := true }] with
       sems := [(0, { count := 1, waits := [] })], mem := { memReset with badRecs := [.pending 0 false 0] } }, 0,
     { bell0 with combine := true }, by decide +kernel⟩,
   ⟨st { onEx [] [{ bell0 with combine := true }] with sems := [(0, { count := 1, waits := [] })] }, 0,
     { bell0 with combine := true }, by decide +kernel⟩,
   ⟨st dev0, 0, by decide +kernel⟩,
   ⟨st dev0, 0, by decide +kernel⟩,
   ⟨st (setObj exDev 0xA821 1 1), 0, 0, 255, 0, 0, false, [0], by decide +kernel⟩,
   ⟨st (setObj exDev 0xA821 1 0), 0, 0, 255, 0, 0, false, [0], by decide +kernel⟩,
   ⟨st (onEx [{ exTagReset 0 false 0 with a0 := some 0 }] []), 0, 0, 0, 0, 0, false, 0, by decide +kernel⟩,
   ⟨st exDev, 0, 0, 255, 0, true, by decide +kernel⟩,
   ⟨st (setObj exDev 0xA821 1 1), 0, 0, 0, 0, 0, false, [0], by decide +kernel⟩,
   ⟨st (setObj exDev 0xA821 1 0), 0, 0, 255, 0, 0, false, [0], by decide +kernel⟩,
   ⟨st dev0, 0, 0, 0, (by decide +kernel), fun h => absurd h.1.1 (by decide +kernel)⟩,
   ⟨st dev0, 0, 0, (by decide +kernel), fun h => absurd h.1 (by decide +kernel)⟩,
   ⟨st dev0, 0, 0, 0, (by decide +kernel), fun h => absurd h.1.1 (by decide +kernel)⟩,
   ⟨st exDev, 0, 0, 0x800000, 0, false, (by decide +kernel), (by decide +kernel), ⟨(by decide +kernel), 0,
     (by decide +kernel)⟩, (by decide +kernel)⟩,
   ⟨st exDev, 0, 0, 0x800000, false, (by decide +kernel), (by decide +kernel), (by decide +kernel), 0,
     (by decide +kernel)⟩,
   ⟨st exDev, 0, 0, 0x800000, 0, false, (by decide +kernel), (by decide +kernel), ⟨(by decide +kernel), 0,
     (by decide +kernel)⟩, (by decide +kernel)⟩,
   ⟨st exDev, 0, 0, 256, 0, true, (by decide +kernel), (by decide +kernel), ⟨(by decide +kernel), 0,
     (by decide +kernel)⟩, (by decide +kernel)⟩,
   ⟨st exDev, 0, 0, 256, true, (by decide +kernel), (by decide +kernel), (by decide +kernel), 0, (by decide +kernel)⟩,
   ⟨st exDev, 0, 0, 256, 0, true, (by decide +kernel), (by decide +kernel), ⟨(by decide +kernel), 0,
     (by decide +kernel)⟩, (by decide +kernel)⟩,
   ⟨st (onEx [{ exTagReset 0 false 0 with a0 := some 0, counts := [(0, [])] }] []), 0, 0, 0, false,
     by decide +kernel⟩,
   ⟨st (onEx [{ exTagReset 0 false 0 with a0 := some 0, dispatched := true }] []), 0, 0, 0, false,
     (by decide +kernel), (by decide +kernel), .inl (by decide +kernel)⟩,
   ⟨st exDev, 0, 0, false, by decide +kernel⟩,
   ⟨st (onEx [{ exTagReset 0 false 0 with combined := true, dispatched := true }] []), 0, 0, false,
     by decide +kernel⟩,
   ⟨st exDev, 0, 0, false, by decide +kernel⟩⟩

/-- The hypotheses of `HostPortCommands`, one clause after another. -/
theorem test_witness_hostPortCommands :
    (∃ (s : Machine.State), Acting s ∧ s.dev.hp.linkUp = true) ∧
    (∃ (s : Machine.State), Acting s ∧ s.dev.hp.linkUp = false) ∧
    (∃ (s : Machine.State), Acting s ∧ s.dev.hp.linkUp = false ∧ ∀ (n : Nat), n ∈ s.dev.pw.lostPlls → n < 38) ∧
    (∃ (s : Machine.State), Acting s ∧ (s.dev.hp.linkUp = true ∨ ∃ n, n ∈ s.dev.pw.lostPlls ∧ 38 ≤ n)) ∧
    (∃ (s : Machine.State) (c n t r v k l o x y : Nat) (b : Bool) (bs : List Byte) (ns : List Nat) (i : Instr),
      s.dev.hp.linkUp = false ∧ i ∈ [Instr.mgmtQueueFrame c n bs, Instr.arpRequest b t r, Instr.unmatchedFrame,
      Instr.pfcPause c n, Instr.rdmaWrite c o t v k l bs b, Instr.rdmaRead c t v k l n b, Instr.rdmaAck c k n,
      Instr.readResponse c n bs b, Instr.cnpReceive c, Instr.ptpSync c n t b x y, Instr.ptpFollowUp c n t x,
      Instr.ptpDelayResp c n t x, Instr.ptpAnnounce c ns]) ∧
    (∃ (s : Machine.State), Acting s ∧ s.dev.hp.linkUp = true ∧ s.dev.hp.queue.length < 512) ∧
    (∃ (s : Machine.State), Acting s ∧ s.dev.hp.linkUp = true ∧ 512 ≤ s.dev.hp.queue.length) ∧
    (∃ (s : Machine.State) (v : Bool) (t : Nat), Acting s ∧ s.dev.hp.linkUp = true ∧ (if v = true then cfg s.dev
      45089 0 else cfg s.dev 45088 0) ≠ 0 ∧ t = if v = true then cfg s.dev 45089 0 else cfg s.dev 45088 0) ∧
    (∃ (s : Machine.State) (v : Bool) (t : Nat), Acting s ∧ s.dev.hp.linkUp = true ∧ ((if v = true then cfg s.dev
      45089 0 else cfg s.dev 45088 0) = 0 ∨ t ≠ if v = true then cfg s.dev 45089 0 else cfg s.dev 45088 0)) ∧
    (∃ (s : Machine.State) (p : Nat), Acting s ∧ s.dev.hp.linkUp = true ∧ bitAt (cfg s.dev 45093 0) p = false) ∧
    (∃ (s : Machine.State) (p q : Nat), Acting s ∧ s.dev.hp.linkUp = true ∧ bitAt (cfg s.dev 45093 0) p = true ∧ q ≠
      0) ∧
    (∃ (s : Machine.State) (p : Nat), Acting s ∧ s.dev.hp.linkUp = true ∧ bitAt (cfg s.dev 45093 0) p = true) ∧
    (∃ (s : Machine.State), Acting s) ∧
    (∃ (s : Machine.State) (p u : Nat), Acting s ∧ bitAt (cfg s.dev 45093 0) p = true ∧ (8388608 / max 1 (popCount 8
      (cfg s.dev 45093 0)) * 3 < u * 4 ∨ (pfcAt s.dev p).sent = true ∧ 8388608 / max 1 (popCount 8 (cfg s.dev 45093
      0)) < u * 2)) ∧
    (∃ (s : Machine.State) (p u : Nat), Acting s ∧ bitAt (cfg s.dev 45093 0) p = true ∧ u * 2 < 8388608 / max 1
      (popCount 8 (cfg s.dev 45093 0)) ∧ (pfcAt s.dev p).sent = true) ∧
    (∃ (s : Machine.State) (p u : Nat), Acting s ∧ (bitAt (cfg s.dev 45093 0) p = false ∨ ¬(8388608 / max 1 (popCount
      8 (cfg s.dev 45093 0)) * 3 < u * 4 ∨ (pfcAt s.dev p).sent = true ∧ 8388608 / max 1 (popCount 8 (cfg s.dev 45093
      0)) < u * 2) ∧ ¬((pfcAt s.dev p).sent = true ∧ u * 2 < 8388608 / max 1 (popCount 8 (cfg s.dev 45093 0))))) ∧
    (∃ (s : Machine.State) (p : Nat), Acting s ∧ (pfcAt s.dev p).paused = true ∧ (pfcAt s.dev p).since + 1000 * cfg
      s.dev 45094 0 < s.dev.uptime) ∧
    (∃ (s : Machine.State) (p : Nat), Acting s ∧ ¬((pfcAt s.dev p).paused = true ∧ (pfcAt s.dev p).since + 1000 * cfg
      s.dev 45094 0 < s.dev.uptime)) ∧
    (∃ (s : Machine.State) (dom src : Nat), Acting s ∧ s.dev.hp.linkUp = true ∧ ptpMine s.dev dom src = true) ∧
    (∃ (s : Machine.State) (dom src : Nat), Acting s ∧ s.dev.hp.linkUp = true ∧ ¬ptpMine s.dev dom src = true) ∧
    (∃ (s : Machine.State) (dom src q r : Nat), Acting s ∧ s.dev.hp.linkUp = true ∧ ptpMine s.dev dom src = true ∧
      s.dev.hp.ptp.sync = some (q, r)) ∧
    (∃ (s : Machine.State) (dom src q : Nat), Acting s ∧ s.dev.hp.linkUp = true ∧ (¬ptpMine s.dev dom src = true ∨ ∀
      (r : Nat), s.dev.hp.ptp.sync ≠ some (q, r))) ∧
    (∃ (s : Machine.State) (dom src q t3 : Nat), Acting s ∧ s.dev.hp.linkUp = true ∧ ptpMine s.dev dom src = true ∧
      s.dev.hp.ptp.haveSync = true ∧ s.dev.hp.ptp.delayReq = some (t3, q)) ∧
    (∃ (s : Machine.State) (dom src q : Nat), Acting s ∧ s.dev.hp.linkUp = true ∧ (ptpMine s.dev dom src = false ∨
      s.dev.hp.ptp.haveSync = false ∨ ∀ (t : Nat), s.dev.hp.ptp.delayReq ≠ some (t, q))) ∧
    (∃ (s : Machine.State) (dom : Nat) (l : List Nat), Acting s ∧ s.dev.hp.linkUp = true ∧ dom = cfg s.dev 45120 0 ∧
      ∀ (b : List Nat), s.dev.hp.ptp.best = some b → b.getLast? = l.getLast? ∨ listBefore l b = true) ∧
    (∃ (s : Machine.State) (dom : Nat) (l : List Nat), Acting s ∧ s.dev.hp.linkUp = true ∧ (dom ≠ cfg s.dev 45120 0 ∨
      ¬∀ (b : List Nat), s.dev.hp.ptp.best = some b → b.getLast? = l.getLast? ∨ listBefore l b = true)) ∧
    (∃ (s : Machine.State), Acting s ∧ (s.dev.hp.ptp.state = 1 ∨ s.dev.hp.ptp.state = 2)) ∧
    (∃ (s : Machine.State), Acting s ∧ s.dev.hp.ptp.state ≠ 1 ∧ s.dev.hp.ptp.state ≠ 2) :=
  ⟨⟨st { dev0 with hp := { hpReset with linkUp := true } }, by decide +kernel⟩,
   ⟨st dev0, by decide +kernel⟩,
   ⟨st dev0, by decide +kernel⟩,
   ⟨onHp hpUp, (by decide +kernel), .inl (by decide +kernel)⟩,
   ⟨st dev0, 0, 0, 0, 0, 0, 0, 0, 0, 0, 0, false, [], [], .mgmtQueueFrame 0 0 [], (by decide +kernel),
     List.mem_cons_self⟩,
   ⟨onHp { hpUp with queue := List.replicate 511 { cls := 1, src := 0, payload := [] } }, by decide +kernel⟩,
   ⟨onHp { hpUp with queue := List.replicate 512 { cls := 1, src := 0, payload := [] } }, by decide +kernel⟩,
   ⟨st { setObj dev0 0xB020 0 1 with hp := hpUp }, false, 1, by decide +kernel⟩,
   ⟨onHp hpUp, false, 1, by decide +kernel⟩,
   ⟨st { setObj dev0 0xB025 0 1 with hp := hpUp }, 7, by decide +kernel⟩,
   ⟨st { setObj dev0 0xB025 0 1 with hp := hpUp }, 0, 65535, by decide +kernel⟩,
   ⟨st { setObj dev0 0xB025 0 1 with hp := hpUp }, 0, by decide +kernel⟩,
   ⟨st dev0, by decide +kernel⟩,
   ⟨st (setObj dev0 0xB025 0 255), 7, 786433, by decide +kernel⟩,
   ⟨st { dev0 with hp := { hpReset with pfc := [(3, { pfcReset with sent := true })] } }, 3, 2097151,
     by decide +kernel⟩,
   ⟨st (setObj dev0 0xB025 0 255), 7, 786432, by decide +kernel⟩,
   ⟨st { dev0 with hp := { hpUp with pfc := [(7, { pfcReset with paused := true })] }, uptime := 10 ^ 12 }, 7,
     by decide +kernel⟩,
   ⟨st dev0, 0, by decide +kernel⟩,
   ⟨onHp hpUp, (cfg dev0 0xB040 0), 0, by decide +kernel⟩,
   ⟨st (onPtp { ptpReset with best := some [1, 2] }), (cfg dev0 0xB040 0), 1, by decide +kernel⟩,
   ⟨st (onPtp { ptpReset with sync := some (65535, 0) }), (cfg dev0 0xB040 0), 0, 65535, 0, by decide +kernel⟩,
   ⟨onHp hpUp, (cfg dev0 0xB040 0), 0, 0, (by decide +kernel), (by decide +kernel), .inr (fun _ h => absurd
     (h.symm.trans (show (onHp hpUp).dev.hp.ptp.sync = none by decide +kernel)) nofun)⟩,
   ⟨st (onPtp { ptpReset with haveSync := true, delayReq := some (0, 0) }), (cfg dev0 0xB040 0), 0, 0, 0,
     by decide +kernel⟩,
   ⟨onHp hpUp, (cfg dev0 0xB040 0), 0, 0, (by decide +kernel), (by decide +kernel), .inr (.inl (by decide +kernel))⟩,
   ⟨onHp hpUp, (cfg dev0 0xB040 0), [], (by decide +kernel), (by decide +kernel), (by decide +kernel), fun _ h =>
     absurd (h.symm.trans (show (onHp hpUp).dev.hp.ptp.best = none by decide +kernel)) nofun⟩,
   ⟨onHp hpUp, ((cfg dev0 0xB040 0) + 1), [], (by decide +kernel), (by decide +kernel), .inl (by decide +kernel)⟩,
   ⟨st (onPtp { ptpReset with state := 2 }), by decide +kernel⟩,
   ⟨st dev0, by decide +kernel⟩⟩

/-- The hypotheses of `QueuePairCommands`, one clause after another. -/
theorem test_witness_queuePairCommands :
    (∃ (s : Machine.State) (i o p v k n : Nat) (bs : List Byte) (c : Bool) (x : Instr), Acting s ∧ s.dev.hp.linkUp =
      true ∧ (qpEnabled s.dev i = false ∨ (qpAt s.dev i).err = true) ∧ x ∈ [Instr.rdmaWrite i o p v k n bs c,
      Instr.rdmaRead i p v k n o c, Instr.rdmaAck i k p, Instr.readResponse i p bs c, Instr.cnpReceive i]) ∧
    (∃ (s : Machine.State) (i o : Nat), Acting s ∧ s.dev.hp.linkUp = true ∧ qpEnabled s.dev i = true ∧ (qpAt s.dev
      i).err = false ∧ 4 ≤ o) ∧
    (∃ (s : Machine.State) (i o p : Nat), Acting s ∧ s.dev.hp.linkUp = true ∧ qpEnabled s.dev i = true ∧ (qpAt s.dev
      i).err = false ∧ o < 4 ∧ 8388608 ≤ psnDist (qpStart s.dev i) p) ∧
    (∃ (s : Machine.State) (i o p : Nat), Acting s ∧ s.dev.hp.linkUp = true ∧ qpEnabled s.dev i = true ∧ (qpAt s.dev
      i).err = false ∧ o < 4 ∧ psnDist (qpStart s.dev i) p ≠ 0 ∧ psnDist (qpStart s.dev i) p < 8388608) ∧
    (∃ (s : Machine.State) (i o p v k n : Nat) (bs : List Byte) (c : Bool), Acting s ∧ s.dev.hp.linkUp = true ∧
      qpEnabled s.dev i = true ∧ (qpAt s.dev i).err = false ∧ (o = 0 ∨ o = 3) ∧ psnDist (qpStart s.dev i) p = 0 ∧
      ((qpStart s.dev i).writing = none ∧ bs.length ≤ n ∧ (o = 3 → bs.length = n)) ∧ (remoteOk (qpNoted s i c) k v n
      true).fst = true) ∧
    (∃ (s : Machine.State) (i o p v k n : Nat) (bs : List Byte) (c : Bool), Acting s ∧ s.dev.hp.linkUp = true ∧
      qpEnabled s.dev i = true ∧ (qpAt s.dev i).err = false ∧ (o = 0 ∨ o = 3) ∧ psnDist (qpStart s.dev i) p = 0 ∧
      ((qpStart s.dev i).writing = none ∧ bs.length ≤ n ∧ (o = 3 → bs.length = n)) ∧ (remoteOk (qpNoted s i c) k v n
      true).fst = false) ∧
    (∃ (s : Machine.State) (i o p n : Nat) (bs : List Byte), Acting s ∧ s.dev.hp.linkUp = true ∧ qpEnabled s.dev i =
      true ∧ (qpAt s.dev i).err = false ∧ (o = 0 ∨ o = 3) ∧ psnDist (qpStart s.dev i) p = 0 ∧ ¬((qpStart s.dev
      i).writing = none ∧ bs.length ≤ n ∧ (o = 3 → bs.length = n))) ∧
    (∃ (s : Machine.State) (i o p : Nat) (bs : List Byte) (a left : Nat), Acting s ∧ s.dev.hp.linkUp = true ∧
      qpEnabled s.dev i = true ∧ (qpAt s.dev i).err = false ∧ (o = 1 ∨ o = 2) ∧ psnDist (qpStart s.dev i) p = 0 ∧
      (qpStart s.dev i).writing = some (a, left) ∧ bs.length ≤ left ∧ (o = 2 → bs.length = left)) ∧
    (∃ (s : Machine.State) (i o p : Nat) (bs : List Byte) (a left : Nat), Acting s ∧ s.dev.hp.linkUp = true ∧
      qpEnabled s.dev i = true ∧ (qpAt s.dev i).err = false ∧ (o = 1 ∨ o = 2) ∧ psnDist (qpStart s.dev i) p = 0 ∧
      (qpStart s.dev i).writing = some (a, left) ∧ (left < bs.length ∨ o = 2 ∧ bs.length ≠ left)) ∧
    (∃ (s : Machine.State) (i o p : Nat), Acting s ∧ s.dev.hp.linkUp = true ∧ qpEnabled s.dev i = true ∧ (qpAt s.dev
      i).err = false ∧ (o = 1 ∨ o = 2) ∧ psnDist (qpStart s.dev i) p = 0 ∧ (qpStart s.dev i).writing = none) ∧
    (∃ (s : Machine.State) (i p : Nat), Acting s ∧ s.dev.hp.linkUp = true ∧ qpEnabled s.dev i = true ∧ (qpAt s.dev
      i).err = false ∧ psnDist (qpStart s.dev i) p ≠ 0 ∧ psnDist (qpStart s.dev i) p < 8388608) ∧
    (∃ (s : Machine.State) (i p b : Nat), Acting s ∧ s.dev.hp.linkUp = true ∧ qpEnabled s.dev i = true ∧ (qpAt s.dev
      i).err = false ∧ (psnDist (qpStart s.dev i) p = 0 ∨ 8388608 ≤ psnDist (qpStart s.dev i) p) ∧ fld (qpRow s.dev
      i) 16 13 < b) ∧
    (∃ (s : Machine.State) (i p v k n b : Nat) (c : Bool), Acting s ∧ s.dev.hp.linkUp = true ∧ qpEnabled s.dev i =
      true ∧ (qpAt s.dev i).err = false ∧ (psnDist (qpStart s.dev i) p = 0 ∨ 8388608 ≤ psnDist (qpStart s.dev i) p) ∧
      b ≤ fld (qpRow s.dev i) 16 13 ∧ (remoteOk (qpNoted s i c) k v n false).fst = false) ∧
    (∃ (s : Machine.State) (i p v k n b : Nat) (c : Bool), Acting s ∧ s.dev.hp.linkUp = true ∧ qpEnabled s.dev i =
      true ∧ (qpAt s.dev i).err = false ∧ (psnDist (qpStart s.dev i) p = 0 ∨ 8388608 ≤ psnDist (qpStart s.dev i) p) ∧
      b ≤ fld (qpRow s.dev i) 16 13 ∧ (remoteOk (qpNoted s i c) k v n false).fst = true) ∧
    (∃ (s : Machine.State) (i : Nat), Acting s ∧ s.dev.hp.linkUp = true ∧ qpEnabled s.dev i = true ∧ (qpAt s.dev
      i).err = false) ∧
    (∃ (s : Machine.State) (i p : Nat), Acting s ∧ s.dev.hp.linkUp = true ∧ qpEnabled s.dev i = true ∧ (qpAt s.dev
      i).err = false ∧ List.find? (fun r => r.read && (r.psn + r.got) % 2 ^ 24 == p) (qpStart s.dev i).reqs = none) ∧
    (∃ (s : Machine.State) (i p : Nat) (r : QpReq), Acting s ∧ s.dev.hp.linkUp = true ∧ qpEnabled s.dev i = true ∧
      (qpAt s.dev i).err = false ∧ List.find? (fun r => r.read && (r.psn + r.got) % 2 ^ 24 == p) (qpStart s.dev
      i).reqs = some r) ∧
    (∃ (s : Machine.State) (i : Nat), Acting s ∧ s.dev.hp.linkUp = true ∧ qpEnabled s.dev i = true ∧ (qpAt s.dev
      i).err = false ∧ ∀ (t : Nat), (qpStart s.dev i).lastDecrease = some t → t + 50000 ≤ s.dev.uptime) ∧
    (∃ (s : Machine.State) (i t : Nat), Acting s ∧ s.dev.hp.linkUp = true ∧ qpEnabled s.dev i = true ∧ (qpAt s.dev
      i).err = false ∧ (qpStart s.dev i).lastDecrease = some t ∧ s.dev.uptime < t + 50000) ∧
    (∃ (s : Machine.State) (i : Nat), Acting s ∧ qpEnabled s.dev i = true ∧ (qpAt s.dev i).err = false) ∧
    (∃ (s : Machine.State) (i : Nat), Acting s ∧ (qpEnabled s.dev i = false ∨ (qpAt s.dev i).err = true)) ∧
    (∃ (s : Machine.State) (i : Nat), Acting s ∧ qpEnabled s.dev i = true) ∧
    (∃ (s : Machine.State) (i : Nat), Acting s ∧ qpEnabled s.dev i = false) ∧
    (∃ (s : Machine.State) (i : Nat), Serving s 45107 0 ∧ i < 128 ∧ qpEnabled s.dev i = true) ∧
    (∃ (s : Machine.State) (i : Nat), Serving s 45107 0 ∧ i < 128 ∧ qpEnabled s.dev i = false) ∧
    (∃ (s : Machine.State) (i : Nat), Serving s 45107 0 ∧ 128 ≤ i) :=
  ⟨⟨onHp hpUp, 127, 0, 0, 0, 0, 0, [], false, .rdmaWrite 127 0 0 0 0 0 [] false, (by decide +kernel),
     (by decide +kernel), .inl (by decide +kernel), List.mem_cons_self⟩,
   ⟨st qpDev, 127, 4, by decide +kernel⟩,
   ⟨st qpDev, 127, 3, 0x800000, by decide +kernel⟩,
   ⟨st qpDev, 127, 3, 0x7FFFFF, by decide +kernel⟩,
   ⟨st qpDev, 127, 0, 0, 0x4000000, 0, 1, [7#8], false, by decide +kernel⟩,
   ⟨st qpDev, 127, 0, 0, 0x400FFFF, 0, 2, [7#8, 7#8], false, by decide +kernel⟩,
   ⟨st qpDev, 127, 0, 0, 1, [7#8, 7#8], by decide +kernel⟩,
   ⟨st (onQp { qpReset0 with started := true, writing := some (0x4000000, 2) }), 127, 2, 0, [7#8, 7#8], 0x4000000, 2,
     by decide +kernel⟩,
   ⟨st (onQp { qpReset0 with started := true, writing := some (0x4000000, 2) }), 127, 2, 0, [7#8], 0x4000000, 2,
     by decide +kernel⟩,
   ⟨st qpDev, 127, 1, 0, by decide +kernel⟩,
   ⟨st qpDev, 127, 0x7FFFFF, by decide +kernel⟩,
   ⟨st qpDev, 127, 0, 255, by decide +kernel⟩,
   ⟨st qpDev, 127, 0, 0x400FFFF, 0, 2, 0, false, by decide +kernel⟩,
   ⟨st qpDev, 127, 0, 0x4000000, 0, 65536, 0, false, by decide +kernel⟩,
   ⟨st qpDev, 127, by decide +kernel⟩,
   ⟨st qpDev, 127, 0, by decide +kernel⟩,
   ⟨st (onQp
     { qpReset0 with
       started := true,
       reqs := [{ psn := 0, packets := 1, read := true, raddr := 0, rkey := 0, len := 1, payload := [], unit := 0,
                  item := 0, win := 0, off := 0 }] }), 127, 0,
     { psn := 0, packets := 1, read := true, raddr := 0, rkey := 0, len := 1, payload := [], unit := 0, item := 0,
       win := 0, off := 0 }, by decide +kernel⟩,
   ⟨st qpDev, 127, (by decide +kernel), (by decide +kernel), (by decide +kernel), (by decide +kernel), fun _ h =>
     absurd (h.symm.trans (show (qpStart (st qpDev).dev 127).lastDecrease = none by decide +kernel)) nofun⟩,
   ⟨st (onQp { qpReset0 with started := true, lastDecrease := some 0 }), 127, 0, by decide +kernel⟩,
   ⟨st qpDev, 127, by decide +kernel⟩,
   ⟨st dev0, 0, (by decide +kernel), .inl (by decide +kernel)⟩,
   ⟨st qpDev, 127, by decide +kernel⟩,
   ⟨st dev0, 0, by decide +kernel⟩,
   ⟨st qpDev, 127, by decide +kernel⟩,
   ⟨st dev0, 0, by decide +kernel⟩,
   ⟨st qpDev, 128, by decide +kernel⟩⟩

/-- The hypotheses of `ObjectOperations`, one clause after another. -/
theorem test_witness_objectOperations_1 :
    (∃ (s : Machine.State) (i k : Nat), Acting s ∧ accessOf i k = none) ∧
    (∃ (s : Machine.State) (i k : Nat), Acting s ∧ accessOf i k = some Access.wo) ∧
    (∃ (s : Machine.State) (i k : Nat) (staged : Bool) (a : Access), Acting s ∧ accessOf i k = some a ∧ a ≠ Access.wo
      ∧ servedNow s.dev i k (if staged = true then 2 else 0) = false) ∧
    (∃ (s : Machine.State) (i k : Nat) (staged : Bool) (a : Access), Acting s ∧ accessOf i k = some a ∧ a ≠ Access.wo
      ∧ servedNow s.dev i k (if staged = true then 2 else 0) = true ∧ (s.dev.rc.wedged = false ∨ servedLocally i k
      (if staged = true then 2 else 0) = true) ∧ objRow i k = none) ∧
    (∃ (s : Machine.State) (i k : Nat) (staged : Bool) (a : Access) (o : ObjRow), Acting s ∧ accessOf i k = some a ∧
      a ≠ Access.wo ∧ servedNow s.dev i k (if staged = true then 2 else 0) = true ∧ (s.dev.rc.wedged = false ∨
      servedLocally i k (if staged = true then 2 else 0) = true) ∧ objRow i k = some o) ∧
    (∃ (s : Machine.State) (i k : Nat) (staged : Bool) (a : Access), Acting s ∧ accessOf i k = some a ∧ a ≠ Access.wo
      ∧ servedNow s.dev i k (if staged = true then 2 else 0) = true ∧ ¬(s.dev.rc.wedged = false ∨ servedLocally i k
      (if staged = true then 2 else 0) = true)) ∧
    (∃ (s : Machine.State) (i k : Nat) (staged : Bool) (a : Access), Acting s ∧ accessOf i k = some a ∧ a ≠ Access.wo
      ∧ servedNow s.dev i k (if staged = true then 2 else 0) = true ∧ ¬(s.dev.rc.wedged = false ∨ servedLocally i k
      (if staged = true then 2 else 0) = true) ∧ pendingOps s.dev < 64) ∧
    (∃ (s : Machine.State) (i k : Nat) (staged : Bool) (a : Access), Acting s ∧ accessOf i k = some a ∧ a ≠ Access.wo
      ∧ servedNow s.dev i k (if staged = true then 2 else 0) = true ∧ ¬(s.dev.rc.wedged = false ∨ servedLocally i k
      (if staged = true then 2 else 0) = true) ∧ 64 ≤ pendingOps s.dev) ∧
    (∃ (s : Machine.State) (l : Nat), Acting s ∧ 4096 < l) ∧
    (∃ (s : Machine.State) (i k l : Nat), Acting s ∧ l ≤ 4096 ∧ accessOf i k = none) ∧
    (∃ (s : Machine.State) (i k l : Nat), Acting s ∧ l ≤ 4096 ∧ (accessOf i k).isSome = true ∧ objRow i k = none) ∧
    (∃ (s : Machine.State) (i k l v : Nat) (o : ObjRow), Acting s ∧ objRow i k = some o ∧ l ≤ 4096 ∧ v < 2 ^ (8 * l)
      ∧ (o.acc = Access.ro ∨ o.acc = Access.const)) :=
  ⟨⟨st dev0, 0, 0, by decide +kernel⟩,
   ⟨st dev0, 0x1130, 0, by decide +kernel⟩,
   ⟨State.reset, 0x9010, 0, true, .rs, by decide +kernel⟩,
   ⟨st dev0, 0x6010, 0, false, .const, by decide +kernel⟩,
   ⟨st dev0, 0x1100, 0, true, .const, rowAt 0x1100 0, by decide +kernel⟩,
   ⟨st { dev0 with rc := { rcReset with wedged := true } }, 0x6026, 0, false, .rw, by decide +kernel⟩,
   ⟨st { dev0 with rc := { rcReset with wedged := true } }, 0x6026, 0, false, .rw, by decide +kernel⟩,
   ⟨st
     { dev0 with
       sy := { syReset with
               pend := List.replicate 64 { ticket := 1, node := 0, seq := 0, src := 0, idx := 0x6026, sub := 0,
                                           unit := 0, mark := 0, final := none, sends := 0 } },
       rc := { rcReset with wedged := true } }, 0x6026, 0, false, .rw, by decide +kernel⟩,
   ⟨st dev0, 4097, by decide +kernel⟩,
   ⟨st dev0, 0, 0, 4096, by decide +kernel⟩,
   ⟨st dev0, 0x6010, 0, 0, by decide +kernel⟩,
   ⟨st dev0, 0x1100, 0, 0, 0, rowAt 0x1100 0, by decide +kernel⟩⟩

/-- The clauses that follow them. -/
theorem test_witness_objectOperations_2 :
    (∃ (s : Machine.State) (i k l v : Nat) (o : ObjRow), Acting s ∧ objRow i k = some o ∧ l ≤ 4096 ∧ v < 2 ^ (8 * l)
      ∧ o.acc ≠ Access.ro ∧ o.acc ≠ Access.const ∧ ¬(l = o.bytes ∨ i = 53268)) ∧
    (∃ (s : Machine.State) (i k l v : Nat) (o : ObjRow), Acting s ∧ objRow i k = some o ∧ l ≤ 4096 ∧ v < 2 ^ (8 * l)
      ∧ o.acc = Access.rs ∧ (l = o.bytes ∨ i = 53268) ∧ rangeOk o v = false) ∧
    (∃ (s : Machine.State) (i k l v : Nat) (o : ObjRow), Acting s ∧ objRow i k = some o ∧ l ≤ 4096 ∧ v < 2 ^ (8 * l)
      ∧ o.acc = Access.rs ∧ (l = o.bytes ∨ i = 53268) ∧ rangeOk o v = true ∧ servedNow s.dev i k 1 = false) ∧
    (∃ (s : Machine.State) (i k l v : Nat) (o : ObjRow), Acting s ∧ objRow i k = some o ∧ l ≤ 4096 ∧ v < 2 ^ (8 * l)
      ∧ o.acc = Access.rs ∧ (l = o.bytes ∨ i = 53268) ∧ rangeOk o v = true ∧ servedNow s.dev i k 1 = true ∧ stageFits
      (stageAll s.dev.gn.staged (writeRecs i k v)) = true) ∧
    (∃ (s : Machine.State) (i k l v : Nat) (o : ObjRow), Acting s ∧ objRow i k = some o ∧ l ≤ 4096 ∧ v < 2 ^ (8 * l)
      ∧ o.acc = Access.rs ∧ (l = o.bytes ∨ i = 53268) ∧ rangeOk o v = true ∧ servedNow s.dev i k 1 = true ∧ stageFits
      (stageAll s.dev.gn.staged (writeRecs i k v)) = false) ∧
    (∃ (s : Machine.State) (i k l v : Nat) (x : OpInfo) (o : ObjRow), Acting s ∧ objRow i k = some o ∧ l ≤ 4096 ∧ v <
      2 ^ (8 * l) ∧ (o.acc = Access.rw ∨ o.acc = Access.wo) ∧ (l = o.bytes ∨ i = 53268) ∧ (writeStatus s.dev
      (writeEffect s.dev x i k l v) i = 4 ∨ writeStatus s.dev (writeEffect s.dev x i k l v) i = 5)) ∧
    (∃ (s : Machine.State) (i k l v : Nat) (x : OpInfo) (o : ObjRow), Acting s ∧ objRow i k = some o ∧ l ≤ 4096 ∧ v <
      2 ^ (8 * l) ∧ (o.acc = Access.rw ∨ o.acc = Access.wo) ∧ (l = o.bytes ∨ i = 53268) ∧ (writeStatus s.dev
      (writeEffect s.dev x i k l v) i ≠ 4 ∧ writeStatus s.dev (writeEffect s.dev x i k l v) i ≠ 5) ∧ servedNow s.dev
      i k 1 = false) ∧
    (∃ (s : Machine.State) (i k l v : Nat) (x : OpInfo) (o : ObjRow), Acting s ∧ objRow i k = some o ∧ l ≤ 4096 ∧ v <
      2 ^ (8 * l) ∧ (o.acc = Access.rw ∨ o.acc = Access.wo) ∧ (l = o.bytes ∨ i = 53268) ∧ (writeStatus s.dev
      (writeEffect s.dev x i k l v) i ≠ 4 ∧ writeStatus s.dev (writeEffect s.dev x i k l v) i ≠ 5) ∧ servedNow s.dev
      i k 1 = true ∧ ¬(s.dev.rc.wedged = false ∨ servedLocally i k 1 = true)) ∧
    (∃ (s : Machine.State) (i k l v : Nat) (x : OpInfo) (o : ObjRow), Acting s ∧ objRow i k = some o ∧ l ≤ 4096 ∧ v <
      2 ^ (8 * l) ∧ (o.acc = Access.rw ∨ o.acc = Access.wo) ∧ (l = o.bytes ∨ i = 53268) ∧ (writeStatus s.dev
      (writeEffect s.dev x i k l v) i ≠ 4 ∧ writeStatus s.dev (writeEffect s.dev x i k l v) i ≠ 5) ∧ servedNow s.dev
      i k 1 = true ∧ (s.dev.rc.wedged = false ∨ servedLocally i k 1 = true) ∧ writeStatus s.dev (writeEffect s.dev x
      i k l v) i ≠ 1 ∧ writeStatus s.dev (writeEffect s.dev x i k l v) i ≠ 8) ∧
    (∃ (s : Machine.State) (i k l v : Nat) (x : OpInfo) (o : ObjRow), Acting s ∧ objRow i k = some o ∧ l ≤ 4096 ∧ v <
      2 ^ (8 * l) ∧ (o.acc = Access.rw ∨ o.acc = Access.wo) ∧ (l = o.bytes ∨ i = 53268) ∧ (writeStatus s.dev
      (writeEffect s.dev x i k l v) i ≠ 4 ∧ writeStatus s.dev (writeEffect s.dev x i k l v) i ≠ 5) ∧ servedNow s.dev
      i k 1 = true ∧ (s.dev.rc.wedged = false ∨ servedLocally i k 1 = true) ∧ writeStatus s.dev (writeEffect s.dev x
      i k l v) i = 8) ∧
    (∃ (s : Machine.State) (i k l v : Nat) (x : OpInfo) (o : ObjRow), Acting s ∧ objRow i k = some o ∧ l ≤ 4096 ∧ v <
      2 ^ (8 * l) ∧ (o.acc = Access.rw ∨ o.acc = Access.wo) ∧ (l = o.bytes ∨ i = 53268) ∧ (writeStatus s.dev
      (writeEffect s.dev x i k l v) i ≠ 4 ∧ writeStatus s.dev (writeEffect s.dev x i k l v) i ≠ 5) ∧ servedNow s.dev
      i k 1 = true ∧ (s.dev.rc.wedged = false ∨ servedLocally i k 1 = true) ∧ writeStatus s.dev (writeEffect s.dev x
      i k l v) i = 1) :=
  ⟨⟨st dev0, 0x9010, 0, 1, 0, rowAt 0x9010 0, by decide +kernel⟩,
   ⟨st dev0, 0x9013, 0, 1, 0, rowAt 0x9013 0, by decide +kernel⟩,
   ⟨State.reset, 0x9010, 0, 2, 1, rowAt 0x9010 0, by decide +kernel⟩,
   ⟨st dev0, 0x9010, 0, 2, 1, rowAt 0x9010 0, by decide +kernel⟩,
   ⟨st { dev0 with gn := { gnReset with staged := (List.range 4097).map (fun i => (stageKey 0x5012 0 i, 0)) } },
     0x9010, 0, 2, 1, rowAt 0x9010 0, (by decide +kernel), (by decide +kernel), (by decide +kernel),
     (by decide +kernel), (by decide +kernel), (by decide +kernel), (by decide +kernel), (by decide +kernel),
     ledger_full _ (by decide +kernel)⟩,
   ⟨st dev0, 0xE004, 0, 1, 2, ⟨0, 0, 0⟩, rowAt 0xE004 0, by decide +kernel⟩,
   ⟨State.reset, 0x6026, 0, 8, 0, ⟨0, 0, 0⟩, rowAt 0x6026 0, by decide +kernel⟩,
   ⟨st { dev0 with rc := { rcReset with wedged := true } }, 0x6026, 0, 8, 0, ⟨0, 0, 0⟩, rowAt 0x6026 0,
     by decide +kernel⟩,
   ⟨st dev0, 0xE004, 0, 1, 1, ⟨0, 0, 0⟩, rowAt 0xE004 0, by decide +kernel⟩,
   ⟨st { dev0 with gn := { gnReset with checking := some 0 } }, 0x2020, 0, 1, 1, ⟨0, 0, 0⟩, rowAt 0x2020 0,
     by decide +kernel⟩,
   ⟨st dev0, 0x8033, 0, 16, 0, ⟨0, 0, 0⟩, rowAt 0x8033 0, by decide +kernel⟩⟩

/-- The hypotheses of `PendingAndDelivery`, one clause after another. -/
theorem test_witness_pendingAndDelivery :
    (∃ (s : Machine.State) (t : Nat) (p : SyPend) (st : Nat), Acting s ∧ pendOf s.dev t = some p ∧ doneIn p.idx
      p.unit (List.drop p.mark s.dev.out) = some st) ∧
    (∃ (s : Machine.State) (t : Nat) (p : SyPend), Acting s ∧ pendOf s.dev t = some p ∧ doneIn p.idx p.unit
      (List.drop p.mark s.dev.out) = none) ∧
    (∃ (s : Machine.State) (t : Nat), Acting s ∧ pendOf s.dev t = none) ∧
    (∃ (s : Machine.State) (t : Nat) (p : SyPend), Acting s ∧ List.find? (fun p => p.ticket == t && p.final.isSome)
      s.dev.sy.pend = some p) ∧
    (∃ (s : Machine.State) (t : Nat), Acting s ∧ List.find? (fun p => p.ticket == t && p.final.isSome) s.dev.sy.pend
      = none) ∧
    (∃ (s : Machine.State), Acting s) ∧
    (∃ (s : Machine.State) (r e : Nat) (x : Subscriber), Acting s ∧ tfind s.dev.ev.subs r = some x ∧ seqGe ((e + 1) %
      2 ^ 32) x.base = true ∧ seqGe x.next ((e + 1) % 2 ^ 32) = true) ∧
    (∃ (s : Machine.State) (r e : Nat) (x : Subscriber), Acting s ∧ tfind s.dev.ev.subs r = some x ∧ ¬(seqGe ((e + 1)
      % 2 ^ 32) x.base = true ∧ seqGe x.next ((e + 1) % 2 ^ 32) = true)) ∧
    (∃ (s : Machine.State) (r : Nat) (x : Subscriber), Acting s ∧ tfind s.dev.ev.subs r = some x ∧ (x.stalled = false
      ∧ rowEvents s.dev r x.base ≠ [] ∧ x.base ≠ x.next) ∧ x.resends < 16) ∧
    (∃ (s : Machine.State) (r : Nat) (x : Subscriber), Acting s ∧ tfind s.dev.ev.subs r = some x ∧ (x.stalled = false
      ∧ rowEvents s.dev r x.base ≠ [] ∧ x.base ≠ x.next) ∧ 16 ≤ x.resends) ∧
    (∃ (s : Machine.State) (r : Nat) (x : Subscriber), Acting s ∧ tfind s.dev.ev.subs r = some x ∧ ¬(x.stalled =
      false ∧ rowEvents s.dev r x.base ≠ [] ∧ x.base ≠ x.next)) ∧
    (∃ (s : Machine.State) (r : Nat) (x : Subscriber), Acting s ∧ tfind s.dev.ev.subs r = some x ∧ x.stalled = true) ∧
    (∃ (s : Machine.State) (r : Nat) (x : Subscriber), Acting s ∧ tfind s.dev.ev.subs r = some x ∧ x.stalled = false) ∧
    (∃ (s : Machine.State) (r e : Nat) (i : Instr), Acting s ∧ tfind s.dev.ev.subs r = none ∧ i ∈ [Instr.ackEvents r
      e, Instr.eventResend r, Instr.subscriberRetry r]) ∧
    (∃ (s : Machine.State), held s.dev = false ∧ s.dev.pw.tripped = false) ∧
    (∃ (s : Machine.State), held s.dev = false ∧ s.dev.pw.tripped = false ∧ s.dev.hp.queue = [] ∧ s.dev.ev.subs = []) ∧
    (∃ (s : Machine.State), held s.dev = false ∧ s.dev.pw.tripped = true) ∧
    (∃ (s : Machine.State), held s.dev = false) ∧
    (∃ (s : Machine.State), held s.dev = true) :=
  ⟨⟨st
     { dev0 with
       sy := { syReset with
               pend := [{ ticket := 1, node := 0, seq := 0, src := 0, idx := 0xCE40, sub := 0, unit := 0, mark := 0,
                          final := none, sends := 0 }] }, out := [.done 0xCE40 0 0] }, 1,
     { ticket := 1, node := 0, seq := 0, src := 0, idx := 0xCE40, sub := 0, unit := 0, mark := 0, final := none,
       sends := 0 }, 0, by decide +kernel⟩,
   ⟨st
     { dev0 with
       sy := { syReset with
               pend := [{ ticket := 1, node := 0, seq := 0, src := 0, idx := 0xCE40, sub := 0, unit := 0, mark := 0,
                          final := none, sends := 0 }] }, out := [] }, 1,
     { ticket := 1, node := 0, seq := 0, src := 0, idx := 0xCE40, sub := 0, unit := 0, mark := 0, final := none,
       sends := 0 }, by decide +kernel⟩,
   ⟨st dev0, 0, by decide +kernel⟩,
   ⟨st
     { dev0 with
       sy := { syReset with
               pend := [{ ticket := 1, node := 0, seq := 0, src := 0, idx := 0xCE40, sub := 0, unit := 0, mark := 0,
                          final := some 0, sends := 0 }] }, out := [] }, 1,
     { ticket := 1, node := 0, seq := 0, src := 0, idx := 0xCE40, sub := 0, unit := 0, mark := 0, final := some 0,
       sends := 0 }, by decide +kernel⟩,
   ⟨st dev0, 0, by decide +kernel⟩,
   ⟨st dev0, by decide +kernel⟩,
   ⟨st { dev0 with ev := { evReset with subs := [(1, { base := 0, next := 1, resends := 0, stalled := false })] } },
     1, 0, { base := 0, next := 1, resends := 0, stalled := false }, by decide +kernel⟩,
   ⟨st { dev0 with ev := { evReset with subs := [(1, { base := 0, next := 1, resends := 0, stalled := false })] } },
     1, 5, { base := 0, next := 1, resends := 0, stalled := false }, by decide +kernel⟩,
   ⟨st
     { setObj dev0 0x1120 1 (0xFFFF * 2 ^ 80) with
       ev := { evReset with
               subs := [(1, { base := 0, next := 1, resends := 0, stalled := false })],
               log := [{ code := 0x8302, eseq := 0, time := 0, step := 0, arg0 := 0, arg1 := 0 }], eseq := 1 } }, 1,
     { base := 0, next := 1, resends := 0, stalled := false }, by decide +kernel⟩,
   ⟨st
     { setObj dev0 0x1120 1 (0xFFFF * 2 ^ 80) with
       ev := { evReset with
               subs := [(1, { base := 0, next := 1, resends := 16, stalled := false })],
               log := [{ code := 0x8302, eseq := 0, time := 0, step := 0, arg0 := 0, arg1 := 0 }], eseq := 1 } }, 1,
     { base := 0, next := 1, resends := 16, stalled := false }, by decide +kernel⟩,
   ⟨st { dev0 with ev := { evReset with subs := [(1, { base := 0, next := 1, resends := 0, stalled := false })] } },
     1, { base := 0, next := 1, resends := 0, stalled := false }, by decide +kernel⟩,
   ⟨st { dev0 with ev := { evReset with subs := [(1, { base := 0, next := 1, resends := 0, stalled := true })] } },
     1, { base := 0, next := 1, resends := 0, stalled := true }, by decide +kernel⟩,
   ⟨st { dev0 with ev := { evReset with subs := [(1, { base := 0, next := 1, resends := 0, stalled := false })] } },
     1, { base := 0, next := 1, resends := 0, stalled := false }, by decide +kernel⟩,
   ⟨st dev0, 0, 0, .ackEvents 0 0, (by decide +kernel), (by decide +kernel), List.mem_cons_self⟩,
   ⟨st dev0, by decide +kernel⟩,
   ⟨st dev0, by decide +kernel⟩,
   ⟨st { dev0 with pw := { pwReset with tripped := true } }, by decide +kernel⟩,
   ⟨st dev0, by decide +kernel⟩,
   ⟨st { dev0 with pw := { pwReset with resetLow := true } }, by decide +kernel⟩⟩

/-- The hypotheses of `GenerationCommands`, one clause after another. -/
theorem test_witness_generationCommands :
    (∃ (s : Machine.State), Serving s 8224 0 ∧ s.dev.gn.checking = none) ∧
    (∃ (s : Machine.State), Serving s 8224 0 ∧ s.dev.gn.checking.isSome = true) ∧
    (∃ (s : Machine.State) (v : Nat), Serving s 8224 0 ∧ v ≠ 1) ∧
    (∃ (s : Machine.State) (w : Nat), Acting s ∧ s.dev.gn.checking = some w) ∧
    (∃ (s : Machine.State), Acting s ∧ s.dev.gn.checking = none) ∧
    (∃ (s : Machine.State) (r : Nat), Serving s 8240 0 ∧ gcOk r false = true ∧ gcWhen r = 0 ∧ firstFail (genFails
      s.dev s.dev.gn.staged (gcStore r) 8240 ++ commitFails s.dev r false s.dev.gn.staged) = none) ∧
    (∃ (s : Machine.State) (r w : Nat), Serving s 8240 0 ∧ gcOk r false = true ∧ gcWhen r = w ∧ 1 ≤ w ∧ firstFail
      (genFails s.dev s.dev.gn.staged (gcStore r) 8240 ++ commitFails s.dev r false s.dev.gn.staged) = none ∧ w = 1) ∧
    (∃ (s : Machine.State) (r w : Nat), Serving s 8240 0 ∧ gcOk r false = true ∧ gcWhen r = w ∧ 1 ≤ w ∧ firstFail
      (genFails s.dev s.dev.gn.staged (gcStore r) 8240 ++ commitFails s.dev r false s.dev.gn.staged) = none ∧ w = 2) ∧
    (∃ (s : Machine.State) (r : Nat) (c : Nat × Instr), Serving s 8240 0 ∧ c ∈ [(0, Instr.commitNow r), (1,
      Instr.commitAtBoundary r), (2, Instr.commitAtTime r)] ∧ gcWhen r = c.fst ∧ gcOk r false = false) ∧
    (∃ (s : Machine.State) (r : Nat) (c : Nat × Instr) (f : GenFail), Serving s 8240 0 ∧ c ∈ [(0, Instr.commitNow r),
      (1, Instr.commitAtBoundary r), (2, Instr.commitAtTime r)] ∧ gcWhen r = c.fst ∧ gcOk r false = true ∧ firstFail
      (genFails s.dev s.dev.gn.staged (gcStore r) 8240 ++ commitFails s.dev r false s.dev.gn.staged) = some f) ∧
    (∃ (s : Machine.State) (r : Nat), Serving s 8242 0 ∧ gcOk r true = true ∧ firstFail (genFails s.dev (rollbackRecs
      s.dev ((Option.map Prod.snd s.dev.gn.previous).getD [])) (gcStore r) 8242 ++ commitFails s.dev r true
      (rollbackRecs s.dev ((Option.map Prod.snd s.dev.gn.previous).getD []))) = none ∧ gcWhen r = 0) ∧
    (∃ (s : Machine.State) (r : Nat), Serving s 8242 0 ∧ gcOk r true = true ∧ firstFail (genFails s.dev (rollbackRecs
      s.dev ((Option.map Prod.snd s.dev.gn.previous).getD [])) (gcStore r) 8242 ++ commitFails s.dev r true
      (rollbackRecs s.dev ((Option.map Prod.snd s.dev.gn.previous).getD []))) = none ∧ gcWhen r = 1) ∧
    (∃ (s : Machine.State) (r : Nat), Serving s 8242 0 ∧ gcOk r true = true ∧ firstFail (genFails s.dev (rollbackRecs
      s.dev ((Option.map Prod.snd s.dev.gn.previous).getD [])) (gcStore r) 8242 ++ commitFails s.dev r true
      (rollbackRecs s.dev ((Option.map Prod.snd s.dev.gn.previous).getD []))) = none ∧ gcWhen r = 2) ∧
    (∃ (s : Machine.State) (r : Nat) (f : GenFail) (c : Nat × Instr), Serving s 8242 0 ∧ gcOk r true = true ∧
      firstFail (genFails s.dev (rollbackRecs s.dev ((Option.map Prod.snd s.dev.gn.previous).getD [])) (gcStore r)
      8242 ++ commitFails s.dev r true (rollbackRecs s.dev ((Option.map Prod.snd s.dev.gn.previous).getD []))) = some
      f ∧ c ∈ [(0, Instr.rollbackNow r), (1, Instr.rollbackAtBoundary r), (2, Instr.rollbackAtTime r)] ∧ gcWhen r =
      c.fst) ∧
    (∃ (s : Machine.State) (r : Nat) (c : Nat × Instr), Serving s 8242 0 ∧ gcOk r true = false ∧ c ∈ [(0,
      Instr.rollbackNow r), (1, Instr.rollbackAtBoundary r), (2, Instr.rollbackAtTime r)] ∧ gcWhen r = c.fst) ∧
    (∃ (s : Machine.State) (a : Armed), Acting s ∧ s.dev.gn.armed = some a ∧ gcWhen a.raw = 2 ∧ gcAt a.raw ≤
      s.dev.ptp ∧ firstFail (genFails (have __src := s.dev;
      { objs := __src.objs, keyed := __src.keyed, uptime := __src.uptime, ptp := __src.ptp, ev := __src.ev,
        out := __src.out, freeCtr := __src.freeCtr, tus := __src.tus, shadows := __src.shadows, sup := __src.sup,
        tiles := __src.tiles, vcs := __src.vcs, mem := __src.mem, fes := __src.fes, sems := __src.sems,
        grants := __src.grants, seq := __src.seq, hp := __src.hp, rl := __src.rl, sq := __src.sq, wv := __src.wv,
        up := __src.up, ce := __src.ce, ex := __src.ex, fill := __src.fill,
        gn := have __src := s.dev.gn; { staged := __src.staged, pendingP := __src.pendingP, current := __src.current,
                                        previous := __src.previous, armed := none, checking := __src.checking,
                                        storing := __src.storing, queue := __src.queue,
                                        storeState := __src.storeState, history := __src.history,
                                        slot0 := __src.slot0, slot1 := __src.slot1 }, sy := __src.sy, hm := __src.hm,
        sn := __src.sn, rc := __src.rc, cv := __src.cv, sec := __src.sec, east := __src.east, west := __src.west,
        pw := __src.pw }) (if a.rollback = true then rollbackRecs (have __src := s.dev;
      { objs := __src.objs, keyed := __src.keyed, uptime := __src.uptime, ptp := __src.ptp, ev := __src.ev,
        out := __src.out, freeCtr := __src.freeCtr, tus := __src.tus, shadows := __src.shadows, sup := __src.sup,
        tiles := __src.tiles, vcs := __src.vcs, mem := __src.mem, fes := __src.fes, sems := __src.sems,
        grants := __src.grants, seq := __src.seq, hp := __src.hp, rl := __src.rl, sq := __src.sq, wv := __src.wv,
        up := __src.up, ce := __src.ce, ex := __src.ex, fill := __src.fill,
        gn := have __src := s.dev.gn; { staged := __src.staged, pendingP := __src.pendingP, current := __src.current,
                                        previous := __src.previous, armed := none, checking := __src.checking,
                                        storing := __src.storing, queue := __src.queue,
                                        storeState := __src.storeState, history := __src.history,
                                        slot0 := __src.slot0, slot1 := __src.slot1 }, sy := __src.sy, hm := __src.hm,
        sn := __src.sn, rc := __src.rc, cv := __src.cv, sec := __src.sec, east := __src.east, west := __src.west,
        pw := __src.pw }) ((Option.map Prod.snd s.dev.gn.previous).getD []) else a.recs) (gcStore a.raw) (if
      a.rollback = true then 8242 else 8240)) = none) ∧
    (∃ (s : Machine.State) (a : Armed) (f : GenFail), Acting s ∧ s.dev.gn.armed = some a ∧ gcWhen a.raw = 2 ∧ gcAt
      a.raw ≤ s.dev.ptp ∧ firstFail (genFails (have __src := s.dev;
      { objs := __src.objs, keyed := __src.keyed, uptime := __src.uptime, ptp := __src.ptp, ev := __src.ev,
        out := __src.out, freeCtr := __src.freeCtr, tus := __src.tus, shadows := __src.shadows, sup := __src.sup,
        tiles := __src.tiles, vcs := __src.vcs, mem := __src.mem, fes := __src.fes, sems := __src.sems,
        grants := __src.grants, seq := __src.seq, hp := __src.hp, rl := __src.rl, sq := __src.sq, wv := __src.wv,
        up := __src.up, ce := __src.ce, ex := __src.ex, fill := __src.fill,
        gn := have __src := s.dev.gn; { staged := __src.staged, pendingP := __src.pendingP, current := __src.current,
                                        previous := __src.previous, armed := none, checking := __src.checking,
                                        storing := __src.storing, queue := __src.queue,
                                        storeState := __src.storeState, history := __src.history,
                                        slot0 := __src.slot0, slot1 := __src.slot1 }, sy := __src.sy, hm := __src.hm,
        sn := __src.sn, rc := __src.rc, cv := __src.cv, sec := __src.sec, east := __src.east, west := __src.west,
        pw := __src.pw }) (if a.rollback = true then rollbackRecs (have __src := s.dev;
      { objs := __src.objs, keyed := __src.keyed, uptime := __src.uptime, ptp := __src.ptp, ev := __src.ev,
        out := __src.out, freeCtr := __src.freeCtr, tus := __src.tus, shadows := __src.shadows, sup := __src.sup,
        tiles := __src.tiles, vcs := __src.vcs, mem := __src.mem, fes := __src.fes, sems := __src.sems,
        grants := __src.grants, seq := __src.seq, hp := __src.hp, rl := __src.rl, sq := __src.sq, wv := __src.wv,
        up := __src.up, ce := __src.ce, ex := __src.ex, fill := __src.fill,
        gn := have __src := s.dev.gn; { staged := __src.staged, pendingP := __src.pendingP, current := __src.current,
                                        previous := __src.previous, armed := none, checking := __src.checking,
                                        storing := __src.storing, queue := __src.queue,
                                        storeState := __src.storeState, history := __src.history,
                                        slot0 := __src.slot0, slot1 := __src.slot1 }, sy := __src.sy, hm := __src.hm,
        sn := __src.sn, rc := __src.rc, cv := __src.cv, sec := __src.sec, east := __src.east, west := __src.west,
        pw := __src.pw }) ((Option.map Prod.snd s.dev.gn.previous).getD []) else a.recs) (gcStore a.raw) (if
      a.rollback = true then 8242 else 8240)) = some f) ∧
    (∃ (s : Machine.State), Acting s ∧ ∀ (a : Armed), s.dev.gn.armed = some a → gcWhen a.raw ≠ 2 ∨ s.dev.ptp < gcAt
      a.raw) ∧
    (∃ (s : Machine.State) (a : Armed), Serving s 8241 0 ∧ s.dev.gn.armed = some a) ∧
    (∃ (s : Machine.State), Serving s 8241 0 ∧ s.dev.gn.armed = none) ∧
    (∃ (s : Machine.State) (v : Nat), Serving s 8241 0 ∧ v ≠ 1) ∧
    (∃ (s : Machine.State), Serving s 8211 0) ∧
    (∃ (s : Machine.State) (v : Nat), Serving s 8211 0 ∧ v ≠ 1) ∧
    (∃ (s : Machine.State) (g : GenStore), held s.dev = false ∧ s.dev.gn.storing = some g) ∧
    (∃ (s : Machine.State), held s.dev = false ∧ s.dev.gn.storing = none) :=
  ⟨⟨st dev0, by decide +kernel⟩,
   ⟨st { dev0 with gn := { gnReset with checking := some 0 } }, by decide +kernel⟩,
   ⟨st dev0, 0, by decide +kernel⟩,
   ⟨st { dev0 with gn := { gnReset with checking := some 0 } }, 0, by decide +kernel⟩,
   ⟨st dev0, by decide +kernel⟩,
   ⟨st dev0, 2 ^ 224, by decide +kernel⟩,
   ⟨st dev0, 2 ^ 224 + 2 ^ 222, 1, by decide +kernel⟩,
   ⟨st (onPtp { ptpReset with state := 2 }), 2 ^ 224 + 2 ^ 223 + 2 ^ 128, 2, by decide +kernel⟩,
   ⟨st dev0, 2 ^ 192, (0, .commitNow (2 ^ 192)), (by decide +kernel), List.mem_cons_self, (by decide +kernel),
     (by decide +kernel)⟩,
   ⟨st dev0, 0, (0, .commitNow 0), _, (by decide +kernel), List.mem_cons_self, (by decide +kernel),
     (by decide +kernel), some_of (by decide +kernel)⟩,
   ⟨st { dev0 with gn := { gnReset with previous := some (0, []) } }, 2 ^ 224, by decide +kernel⟩,
   ⟨st { dev0 with gn := { gnReset with previous := some (0, []) } }, 2 ^ 224 + 2 ^ 222, by decide +kernel⟩,
   ⟨st { onPtp { ptpReset with state := 2 } with gn := { gnReset with previous := some (0, []) } }, 2 ^ 224 + 2 ^ 223
     + 2 ^ 128, by decide +kernel⟩,
   ⟨st dev0, 0, _, (0, .rollbackNow 0), (by decide +kernel), (by decide +kernel), some_of (by decide +kernel),
     List.mem_cons_self, (by decide +kernel)⟩,
   ⟨st dev0, 2 ^ 192, (0, .rollbackNow (2 ^ 192)), (by decide +kernel), (by decide +kernel), List.mem_cons_self,
     (by decide +kernel)⟩,
   ⟨st { dev0 with gn := { gnReset with armed := some { raw := 2 ^ 223, rollback := false, recs := [] } } },
     { raw := 2 ^ 223, rollback := false, recs := [] }, by decide +kernel⟩,
   ⟨st
     { dev0 with
       gn := { gnReset with armed := some { raw := 2 ^ 223, rollback := false, recs := [(stageKey 0x7010 0 0, 0)] } } },
     { raw := 2 ^ 223, rollback := false, recs := [(stageKey 0x7010 0 0, 0)] }, _, (by decide +kernel),
     (by decide +kernel), (by decide +kernel), (by decide +kernel), some_of (by decide +kernel)⟩,
   ⟨st dev0, (by decide +kernel), fun _ h => absurd (h.symm.trans (show (st dev0).dev.gn.armed = none
     by decide +kernel)) nofun⟩,
   ⟨st { dev0 with gn := { gnReset with armed := some { raw := 2 ^ 223, rollback := false, recs := [] } } },
     { raw := 2 ^ 223, rollback := false, recs := [] }, by decide +kernel⟩,
   ⟨st dev0, by decide +kernel⟩,
   ⟨st dev0, 0, by decide +kernel⟩,
   ⟨st dev0, by decide +kernel⟩,
   ⟨st dev0, 0, by decide +kernel⟩,
   ⟨st { dev0 with gn := { gnReset with storing := some { gen := 1, vals := [] } } }, { gen := 1, vals := [] },
     by decide +kernel⟩,
   ⟨st dev0, by decide +kernel⟩⟩

/-- The hypotheses of `SnapshotCommands`, one clause after another. -/
theorem test_witness_snapshotCommands :
    (∃ (s : Machine.State), Serving s 49161 0) ∧
    (∃ (s : Machine.State) (n : Nat), Serving s 49408 0 ∧ ¬(cfg s.dev 49408 0 ≠ 0 ∧ cfg s.dev 49408 0 =
      s.dev.seq.step ∧ s.dev.seq.phase = Phase.worked) ∧ s.dev.seq.step ≤ n ∧ n ≠ 0) ∧
    (∃ (s : Machine.State), Serving s 49408 0 ∧ ¬(cfg s.dev 49408 0 ≠ 0 ∧ cfg s.dev 49408 0 = s.dev.seq.step ∧
      s.dev.seq.phase = Phase.worked)) ∧
    (∃ (s : Machine.State) (n : Nat), Serving s 49408 0 ∧ (cfg s.dev 49408 0 ≠ 0 ∧ cfg s.dev 49408 0 = s.dev.seq.step
      ∧ s.dev.seq.phase = Phase.worked ∨ n ≠ 0 ∧ n < s.dev.seq.step)) ∧
    (∃ (s : Machine.State), Acting s ∧ s.dev.seq.cutHeld = true ∧ s.dev.sn.captured = none ∧ s.dev.sup.enginesDone =
      0 ∧ (s.dev.sn.flush = none ∧ s.dev.sn.mirror = none) ∧ ¬(halves.any (reserveSet s.dev) = false ∨ ∃ i, i ∈
      jobItems s.dev ∧ jobPieces s.dev i.snd.snd.fst i.snd.snd.snd false = none) ∧ (capturedRecs s.dev).fst = true ∧
      (∀ (i : Nat × Nat × Nat × Nat), i ∈ devItems s.dev → ueIn s.dev.mem i.snd.snd.fst i.snd.snd.snd = []) ∧ ∀ (i :
      Nat × Nat × Nat × Nat), i ∈ jobItems s.dev → ∀ (l : List (Nat × Nat)), jobPieces s.dev i.snd.snd.fst
      i.snd.snd.snd false = some l → ∀ (x : Nat × Nat), x ∈ l → ueIn s.dev.mem x.fst x.snd = []) ∧
    (∃ (s : Machine.State), Acting s ∧ s.dev.seq.cutHeld = true ∧ s.dev.sn.captured = none ∧ s.dev.sup.enginesDone =
      0 ∧ (s.dev.sn.flush = none ∧ s.dev.sn.mirror = none) ∧ (halves.any (reserveSet s.dev) = false ∨ ∃ i, i ∈
      jobItems s.dev ∧ jobPieces s.dev i.snd.snd.fst i.snd.snd.snd false = none)) ∧
    (∃ (s : Machine.State), Acting s ∧ s.dev.seq.cutHeld = true ∧ s.dev.sn.captured = none ∧ s.dev.sup.enginesDone =
      0 ∧ (s.dev.sn.flush = none ∧ s.dev.sn.mirror = none) ∧ ¬(halves.any (reserveSet s.dev) = false ∨ ∃ i, i ∈
      jobItems s.dev ∧ jobPieces s.dev i.snd.snd.fst i.snd.snd.snd false = none) ∧ (capturedRecs s.dev).fst = false) ∧
    (∃ (s : Machine.State), Acting s ∧ s.dev.seq.cutHeld = true ∧ s.dev.sn.captured = none ∧ s.dev.sup.enginesDone =
      0 ∧ (s.dev.sn.flush = none ∧ s.dev.sn.mirror = none) ∧ ¬(halves.any (reserveSet s.dev) = false ∨ ∃ i, i ∈
      jobItems s.dev ∧ jobPieces s.dev i.snd.snd.fst i.snd.snd.snd false = none) ∧ (capturedRecs s.dev).fst = true ∧
      ((∃ i, i ∈ devItems s.dev ∧ ueIn s.dev.mem i.snd.snd.fst i.snd.snd.snd ≠ []) ∨ ∃ i, i ∈ jobItems s.dev ∧ ∃ l,
      jobPieces s.dev i.snd.snd.fst i.snd.snd.snd false = some l ∧ ∃ x, x ∈ l ∧ ueIn s.dev.mem x.fst x.snd ≠ [])) ∧
    (∃ (s : Machine.State), Acting s ∧ s.dev.seq.cutHeld = true ∧ s.dev.sn.captured = none ∧ s.dev.sup.enginesDone =
      0 ∧ ¬(s.dev.sn.flush = none ∧ s.dev.sn.mirror = none)) ∧
    (∃ (s : Machine.State), Acting s ∧ (s.dev.seq.cutHeld = false ∨ s.dev.sn.captured ≠ none ∨ s.dev.sup.enginesDone
      ≠ 0)) ∧
    (∃ (s : Machine.State) (c : Cut), Acting s ∧ s.dev.sn.captured = some c) ∧
    (∃ (s : Machine.State), Acting s ∧ s.dev.sn.captured = none) ∧
    (∃ (s : Machine.State) (f : Flush), Acting s ∧ s.dev.sn.flush = some f ∧ f.phase = FlushPhase.writing ∧
      (reserveRead s.dev).fst = true ∧ 2 ≤ f.left) ∧
    (∃ (s : Machine.State) (f : Flush), Acting s ∧ s.dev.sn.flush = some f ∧ f.phase = FlushPhase.writing ∧
      (reserveRead s.dev).fst = true ∧ f.left ≤ 1) ∧
    (∃ (s : Machine.State) (f : Flush), Acting s ∧ s.dev.sn.flush = some f ∧ f.phase = FlushPhase.writing ∧
      (reserveRead s.dev).fst = false) ∧
    (∃ (s : Machine.State) (f : Flush), Acting s ∧ s.dev.sn.flush = some f ∧ f.phase = FlushPhase.syncing ∧ cfg s.dev
      49415 0 = 1) ∧
    (∃ (s : Machine.State) (f : Flush), Acting s ∧ s.dev.sn.flush = some f ∧ f.phase = FlushPhase.syncing ∧ cfg s.dev
      49415 0 ≠ 1) ∧
    (∃ (s : Machine.State) (f : Flush), Acting s ∧ s.dev.sn.flush = some f ∧ f.phase = FlushPhase.verifying ∧ 2 ≤
      f.left) ∧
    (∃ (s : Machine.State) (f : Flush), Acting s ∧ s.dev.sn.flush = some f ∧ f.phase = FlushPhase.verifying ∧ f.left
      ≤ 1) ∧
    (∃ (s : Machine.State) (f : Flush), Acting s ∧ s.dev.sn.flush = some f ∧ f.phase ≠ FlushPhase.directory) ∧
    (∃ (s : Machine.State) (f : Flush), Acting s ∧ s.dev.sn.flush = some f ∧ f.phase = FlushPhase.directory) ∧
    (∃ (s : Machine.State), Acting s ∧ s.dev.sn.flush = none) ∧
    (∃ (s : Machine.State) (c : Cut), Acting s ∧ s.dev.sn.mirror = some c ∧ (reserveRead s.dev).fst = true) ∧
    (∃ (s : Machine.State) (ok : Bool) (c : Cut), Acting s ∧ s.dev.sn.mirror = some c ∧ (ok && (reserveRead
      s.dev).fst) = false) ∧
    (∃ (s : Machine.State), Acting s ∧ s.dev.sn.mirror = none) ∧
    (∃ (s : Machine.State) (r : Nat), Serving s 49440 0 ∧ s.dev.seq.job = JobState.idle ∧ (srSource r ≠ 3 ∧ fld r 106
      0 = 0) ∧ s.dev.sn.restoring = none) ∧
    (∃ (s : Machine.State) (r : Nat), Serving s 49440 0 ∧ s.dev.seq.job = JobState.idle ∧ (srSource r ≠ 3 ∧ fld r 106
      0 = 0) ∧ s.dev.sn.restoring ≠ none) ∧
    (∃ (s : Machine.State) (r : Nat), Serving s 49440 0 ∧ s.dev.seq.job = JobState.idle ∧ ¬(srSource r ≠ 3 ∧ fld r
      106 0 = 0)) ∧
    (∃ (s : Machine.State), Serving s 49440 0 ∧ s.dev.seq.job ≠ JobState.idle) ∧
    (∃ (s : Machine.State) (r : Nat) (i : Option Cut) (bad : List (Nat × Nat × Bool)) (c : Cut), Acting s ∧
      s.dev.rc.active = none ∧ s.dev.sn.restoring = some r ∧ restoreCut s.dev r i = some c ∧ restoreFail s.dev r
      (some c) bad = none) ∧
    (∃ (s : Machine.State) (r : Nat) (i : Option Cut) (bad : List (Nat × Nat × Bool)) (f : Nat × Nat × Nat), Acting s
      ∧ s.dev.rc.active = none ∧ s.dev.sn.restoring = some r ∧ restoreFail s.dev r (restoreCut s.dev r i) bad = some
      f) ∧
    (∃ (s : Machine.State), Acting s ∧ s.dev.sn.restoring = none) :=
  ⟨⟨st dev0, by decide +kernel⟩,
   ⟨st dev0, 1, by decide +kernel⟩,
   ⟨st dev0, by decide +kernel⟩,
   ⟨st { dev0 with seq := { seqReset with step := 2 } }, 1, by decide +kernel⟩,
   ⟨st (heldUe []), (by decide +kernel), (by decide +kernel), (by decide +kernel), (by decide +kernel),
     (by decide +kernel), heldUe_items [] (by decide +kernel) (by decide +kernel) (by decide +kernel),
     (by decide +kernel), (by decide +kernel), heldUe_read⟩,
   ⟨st { dev0 with seq := { seqReset with cutHeld := true } }, (by decide +kernel), (by decide +kernel),
     (by decide +kernel), (by decide +kernel), (by decide +kernel), .inl (by decide +kernel)⟩,
   ⟨st { heldUe [] with sems := [(0, { semReset with bad := true })] }, (by decide +kernel), (by decide +kernel),
     (by decide +kernel), (by decide +kernel), (by decide +kernel), heldUe_items [] (by decide +kernel)
     (by decide +kernel) (by decide +kernel), (by decide +kernel)⟩,
   ⟨st (heldUe [0x4000000]), (by decide +kernel), (by decide +kernel), (by decide +kernel), (by decide +kernel),
     (by decide +kernel), heldUe_items [0x4000000] (by decide +kernel) (by decide +kernel) (by decide +kernel),
     (by decide +kernel), .inr ⟨(0x80, 0, 0x4000000, 65536), (by decide +kernel), _, some_of (by decide +kernel),
     (0x4000000, 65536), (by decide +kernel), (by decide +kernel)⟩⟩,
   ⟨st { heldDev with sn := { snReset with flush := some (flush0 .writing 1) } }, by decide +kernel⟩,
   ⟨st dev0, by decide +kernel⟩,
   ⟨st (onSn { snReset with captured := some cut0 }), cut0, by decide +kernel⟩,
   ⟨st dev0, by decide +kernel⟩,
   ⟨st { dev0 with sn := { snReset with flush := some (flush0 .writing 2) } }, flush0 .writing 2, by decide +kernel⟩,
   ⟨st { dev0 with sn := { snReset with flush := some (flush0 .writing 1) } }, flush0 .writing 1, by decide +kernel⟩,
   ⟨st { heldUe [0] with sn := { snReset with flush := some (flush0 .writing 1) } }, flush0 .writing 1,
     by decide +kernel⟩,
   ⟨st { setObj dev0 0xC107 0 1 with sn := { snReset with flush := some (flush0 .syncing 1) } }, flush0 .syncing 1,
     by decide +kernel⟩,
   ⟨st { setObj dev0 0xC107 0 0 with sn := { snReset with flush := some (flush0 .syncing 1) } }, flush0 .syncing 1,
     by decide +kernel⟩,
   ⟨st { dev0 with sn := { snReset with flush := some (flush0 .verifying 2) } }, flush0 .verifying 2,
     by decide +kernel⟩,
   ⟨st { dev0 with sn := { snReset with flush := some (flush0 .verifying 1) } }, flush0 .verifying 1,
     by decide +kernel⟩,
   ⟨st { dev0 with sn := { snReset with flush := some (flush0 .writing 1) } }, flush0 .writing 1, by decide +kernel⟩,
   ⟨st { dev0 with sn := { snReset with flush := some (flush0 .directory 1) } }, flush0 .directory 1,
     by decide +kernel⟩,
   ⟨st dev0, by decide +kernel⟩,
   ⟨st (onSn { snReset with mirror := some cut0 }), cut0, by decide +kernel⟩,
   ⟨st (onSn { snReset with mirror := some cut0 }), false, cut0, by decide +kernel⟩,
   ⟨st dev0, by decide +kernel⟩,
   ⟨st dev0, 2 ^ 127, by decide +kernel⟩,
   ⟨st (onSn { snReset with restoring := some (2 ^ 127) }), 2 ^ 127, by decide +kernel⟩,
   ⟨st dev0, 3 * 2 ^ 126, by decide +kernel⟩,
   ⟨st { dev0 with seq := { seqReset with job := .halted } }, by decide +kernel⟩,
   ⟨st (onSn { snReset with restoring := some (2 ^ 127) }), 2 ^ 127, some cut0, [], cut0, by decide +kernel⟩,
   ⟨st (onSn { snReset with restoring := some (2 ^ 127) }), 2 ^ 127, none, [], (0, 0, 6), by decide +kernel⟩,
   ⟨st dev0, by decide +kernel⟩⟩

/-- The hypotheses of `RecoveryCommands`, one clause after another. -/
theorem test_witness_recoveryCommands :
    (∃ (s : Machine.State) (r : Nat), Serving s 49680 0 ∧ (heldRecords s.dev).contains r = true) ∧
    (∃ (s : Machine.State) (r : Nat), Serving s 49680 0 ∧ (heldRecords s.dev).contains r = false ∧ recordRefused
      s.dev r = true) ∧
    (∃ (s : Machine.State) (r : Nat), Serving s 49680 0 ∧ recordRefused s.dev r = false ∧ ∃ x, x ∈ runningRecords
      s.dev ∧ rrFailed x = rrFailed r) ∧
    (∃ (s : Machine.State) (r : Nat), Serving s 49680 0 ∧ ((heldRecords s.dev).contains r = false ∧ recordRefused
      s.dev r = false ∧ ∀ (x : Nat), x ∈ runningRecords s.dev → rrFailed x ≠ rrFailed r) ∧ heldRecords s.dev = []) ∧
    (∃ (s : Machine.State) (r : Nat), Serving s 49680 0 ∧ ((heldRecords s.dev).contains r = false ∧ recordRefused
      s.dev r = false ∧ ∀ (x : Nat), x ∈ runningRecords s.dev → rrFailed x ≠ rrFailed r) ∧ heldRecords s.dev ≠ [] ∧
      spareLost s.dev r = none) ∧
    (∃ (s : Machine.State) (r row x : Nat), Serving s 49680 0 ∧ ((heldRecords s.dev).contains r = false ∧
      recordRefused s.dev r = false ∧ ∀ (x : Nat), x ∈ runningRecords s.dev → rrFailed x ≠ rrFailed r) ∧ spareLost
      s.dev r = some (row, x)) ∧
    (∃ (s : Machine.State) (r row : Nat) (rest : List Nat), Acting s ∧ s.dev.rc.active = none ∧ s.dev.rc.queue = r ::
      rest ∧ freeSpare s.dev = some row) ∧
    (∃ (s : Machine.State) (r : Nat) (rest : List Nat), Acting s ∧ s.dev.rc.active = none ∧ s.dev.rc.queue = r ::
      rest ∧ freeSpare s.dev = none) ∧
    (∃ (s : Machine.State) (r : Nat), Acting s ∧ s.dev.rc.active = some (r, Role.survivor, false) ∧ allStopped s.dev
      = true ∧ s.dev.sn.restoring = none) ∧
    (∃ (s : Machine.State), Acting s ∧ (s.dev.rc.active = none ∧ s.dev.rc.queue = [] ∨ ∃ r role b, s.dev.rc.active =
      some (r, role, b) ∧ (role ≠ Role.survivor ∨ b = true ∨ allStopped s.dev = false ∨ s.dev.sn.restoring ≠ none))) ∧
    (∃ (s : Machine.State) (r : Nat), Acting s ∧ s.dev.rc.active = some (r, Role.chosen, false) ∧ ownDev s.dev =
      rrFailed r ∧ s.dev.gn.armed = none ∧ s.dev.seq.job = JobState.idle) ∧
    (∃ (s : Machine.State) (r : Nat), Acting s ∧ s.dev.rc.active = some (r, Role.chosen, false) ∧ ¬(ownDev s.dev =
      rrFailed r ∧ s.dev.gn.armed = none ∧ s.dev.seq.job = JobState.idle)) ∧
    (∃ (s : Machine.State), Acting s ∧ ∀ (r : Nat), s.dev.rc.active ≠ some (r, Role.chosen, false)) ∧
    (∃ (s : Machine.State) (q r : Nat) (i : Option Cut) (bad : List (Nat × Nat × Bool)) (role : Role) (c : Cut),
      Acting s ∧ s.dev.rc.active = some (r, role, true) ∧ (role = Role.survivor ∨ role = Role.chosen) ∧
      s.dev.sn.restoring = some q ∧ restoreCut s.dev q i = some c ∧ restoreFail s.dev q (some c) bad = none) ∧
    (∃ (s : Machine.State) (q r : Nat) (i : Option Cut) (bad : List (Nat × Nat × Bool)) (role : Role) (f : Nat × Nat
      × Nat), Acting s ∧ s.dev.rc.active = some (r, role, true) ∧ (role = Role.survivor ∨ role = Role.chosen) ∧
      s.dev.sn.restoring = some q ∧ restoreFail s.dev q (restoreCut s.dev q i) bad = some f ∧ role = Role.survivor) ∧
    (∃ (s : Machine.State) (q r : Nat) (i : Option Cut) (bad : List (Nat × Nat × Bool)) (role : Role) (f : Nat × Nat
      × Nat), Acting s ∧ s.dev.rc.active = some (r, role, true) ∧ (role = Role.survivor ∨ role = Role.chosen) ∧
      s.dev.sn.restoring = some q ∧ restoreFail s.dev q (restoreCut s.dev q i) bad = some f ∧ role = Role.chosen) ∧
    (∃ (s : Machine.State) (v : Nat), Serving s 49697 0 ∧ v = 1 ∧ s.dev.rc.wedged = false) ∧
    (∃ (s : Machine.State) (v : Nat), Serving s 49697 0 ∧ (v ≠ 1 ∨ s.dev.rc.wedged = true)) ∧
    (∃ (s : Machine.State), held s.dev = false ∧ s.dev.rc.wedged = false) ∧
    (∃ (s : Machine.State), held s.dev = false ∧ s.dev.rc.wedged = true) :=
  ⟨⟨st (onRc { rcReset with queue := [rec0 1 0] }), rec0 1 0, by decide +kernel⟩,
   ⟨st dev0, 0, by decide +kernel⟩,
   ⟨st (onRc { rcReset with queue := [rec0 1 0] }), rec0 1 0, by decide +kernel⟩,
   ⟨st dev0, rec0 1 0, by decide +kernel⟩,
   ⟨st (onRc { rcReset with active := some (rec0 2 5, .survivor, false) }), rec0 1 0, by decide +kernel⟩,
   ⟨st
     { withObjs dev0 [(0xC201, 1, 2 ^ 15 + 7), (0xC202, 1, 1), (0xC215, 1, 2 ^ 31 + 9 * 2 ^ 16), (0xC203, 0, 7)] with
       rc := { rcReset with ended := [rec0 1 9] } }, rec0 2 7, 1, rec0 1 9, by decide +kernel⟩,
   ⟨st { setObj dev0 0xC201 16 (2 ^ 15) with rc := { rcReset with queue := [rec0 1 0] } }, rec0 1 0, 16, [],
     by decide +kernel⟩,
   ⟨st (onRc { rcReset with queue := [rec0 1 0] }), rec0 1 0, [], by decide +kernel⟩,
   ⟨st (onRc { rcReset with active := some (rec0 1 5, .survivor, false) }), rec0 1 5, by decide +kernel⟩,
   ⟨st dev0, (by decide +kernel), .inl (by decide +kernel)⟩,
   ⟨st (onRc { rcReset with active := some (rec0 1 0, .chosen, false) }), rec0 1 0, by decide +kernel⟩,
   ⟨st (onRc { rcReset with active := some (rec0 1 5, .chosen, false) }), rec0 1 5, by decide +kernel⟩,
   ⟨st dev0, (by decide +kernel), fun _ h => absurd (h.symm.trans (show (st dev0).dev.rc.active = none
     by decide +kernel)) nofun⟩,
   ⟨st
     { onRc { rcReset with active := some (rec0 1 5, .survivor, true) } with
       sn := { snReset with restoring := some (2 ^ 127) } }, 2 ^ 127, rec0 1 5, some cut0, [], .survivor, cut0,
     by decide +kernel⟩,
   ⟨st
     { onRc { rcReset with active := some (rec0 1 5, .survivor, true) } with
       sn := { snReset with restoring := some (2 ^ 127) } }, 2 ^ 127, rec0 1 5, none, [], .survivor, (0, 0, 6),
     by decide +kernel⟩,
   ⟨st
     { onRc { rcReset with active := some (rec0 1 5, .chosen, true) } with
       sn := { snReset with restoring := some (2 ^ 127) } }, 2 ^ 127, rec0 1 5, none, [], .chosen, (0, 0, 6),
     by decide +kernel⟩,
   ⟨st dev0, 1, by decide +kernel⟩,
   ⟨st dev0, 0, by decide +kernel⟩,
   ⟨st dev0, by decide +kernel⟩,
   ⟨st (onRc { rcReset with wedged := true }), by decide +kernel⟩⟩

/-- The hypotheses of `IntegrityCommands`, one clause after another. -/
theorem test_witness_integrityCommands :
    (∃ (s : Machine.State) (u : Nat), Acting s ∧ ¬(u < 4 ∧ cfg s.dev 55328 0 ≠ 0 ∨ 16 ≤ u ∧ u < 32 ∧ cfg s.dev 55329
      0 ≠ 0 ∧ s.dev.mem.farInitDone = true)) ∧
    (∃ (s : Machine.State) (u : Nat), Acting s ∧ (u < 4 ∧ cfg s.dev 55328 0 ≠ 0 ∨ 16 ≤ u ∧ u < 32 ∧ cfg s.dev 55329 0
      ≠ 0 ∧ s.dev.mem.farInitDone = true) ∧ tget 0 s.dev.mem.scrub u + 1 ≠ scrubLines u) ∧
    (∃ (s : Machine.State) (u : Nat), Acting s ∧ (u < 4 ∧ cfg s.dev 55328 0 ≠ 0 ∨ 16 ≤ u ∧ u < 32 ∧ cfg s.dev 55329 0
      ≠ 0 ∧ s.dev.mem.farInitDone = true) ∧ tget 0 s.dev.mem.scrub u + 1 = scrubLines u) ∧
    (∃ (s : Machine.State), Acting s) ∧
    (∃ (s : Machine.State) (u : Nat), Acting s ∧ u < 8 ∧ objectServed s.dev 55300 0 = true) ∧
    (∃ (s : Machine.State) (u : Nat), Acting s ∧ u < 8 ∧ objectServed s.dev 55301 0 = true) ∧
    (∃ (s : Machine.State) (u : Nat), Acting s ∧ u < 8 ∧ objectServed s.dev 55302 0 = true) ∧
    (∃ (s : Machine.State) (v : Nat), Acting s ∧ objectServed s.dev 55300 0 = true ∧ 8 ≤ fld v 15 8) ∧
    (∃ (s : Machine.State) (v : Nat), Acting s ∧ objectServed s.dev 55301 0 = true ∧ (8 ≤ fld v 31 24 ∨ fld v 23 16 ≠
      0)) ∧
    (∃ (s : Machine.State) (v : Nat), Acting s ∧ objectServed s.dev 55302 0 = true ∧ (8 ≤ fld v 63 56 ∨ fld v 55 32 ≠
      0)) ∧
    (∃ (s : Machine.State) (r : Nat), Serving s 55303 0 ∧ (fld r 124 112 = 0 ∧ fld r 31 0 = 0 ∧ fld r 63 32 ≠ 0 ∧
      scanOk s.dev (fld r 111 64) (fld r 63 32) = true) ∧ (cvAt s.dev (fld r 127 125)).scan = none) ∧
    (∃ (s : Machine.State) (r : Nat), Serving s 55303 0 ∧ (fld r 124 112 = 0 ∧ fld r 31 0 = 0 ∧ fld r 63 32 ≠ 0 ∧
      scanOk s.dev (fld r 111 64) (fld r 63 32) = true) ∧ (cvAt s.dev (fld r 127 125)).scan ≠ none) ∧
    (∃ (s : Machine.State) (r : Nat), Serving s 55303 0 ∧ ¬(fld r 124 112 = 0 ∧ fld r 31 0 = 0 ∧ fld r 63 32 ≠ 0 ∧
      scanOk s.dev (fld r 111 64) (fld r 63 32) = true)) ∧
    (∃ (s : Machine.State) (u a n : Nat), Acting s ∧ (cvAt s.dev u).scan = some (a, n) ∧ ueIn s.dev.mem a n = []) ∧
    (∃ (s : Machine.State) (u a n w : Nat), Acting s ∧ (cvAt s.dev u).scan = some (a, n) ∧ w ∈ ueIn s.dev.mem a n ∧ ∀
      (y : Nat), y ∈ ueIn s.dev.mem a n → w ≤ y) ∧
    (∃ (s : Machine.State) (u : Nat), Acting s ∧ (cvAt s.dev u).scan = none) ∧
    (∃ (s : Machine.State) (u : Nat), Serving s 55304 0 ∧ 8 ≤ u) ∧
    (∃ (s : Machine.State) (u : Nat), Serving s 55304 0 ∧ u < 8 ∧ (cvAt s.dev u).scan ≠ none) ∧
    (∃ (s : Machine.State) (u : Nat), Serving s 55304 0 ∧ u < 8 ∧ (cvAt s.dev u).scan = none) ∧
    (∃ (s : Machine.State) (u : Nat), Serving s 55299 (u + 1) ∧ 8 ≤ u) ∧
    (∃ (s : Machine.State) (u : Nat), Serving s 55299 (u + 1) ∧ u < 8 ∧ (cvAt s.dev u).scan ≠ none) ∧
    (∃ (s : Machine.State) (u : Nat), Serving s 55299 (u + 1) ∧ u < 8 ∧ (cvAt s.dev u).scan = none) ∧
    (∃ (s : Machine.State) (ch : Nat), Acting s ∧ ch < 8) ∧
    (∃ (s : Machine.State) (ch : Nat), Acting s ∧ 8 ≤ ch) :=
  ⟨⟨st dev0, 4, by decide +kernel⟩,
   ⟨st { withObjs dev0 [(0xD820, 0, 1), (0xD821, 0, 1)] with mem := { memReset with farInitDone := true } }, 31,
     by decide +kernel⟩,
   ⟨st
     { withObjs dev0 [(0xD820, 0, 1), (0xD821, 0, 1)] with mem := { memReset with scrub := [(3, scrubLines 3 - 1)] } },
     3, by decide +kernel⟩,
   ⟨st dev0, by decide +kernel⟩,
   ⟨st dev0, 7, by decide +kernel⟩,
   ⟨st dev0, 7, by decide +kernel⟩,
   ⟨st dev0, 7, by decide +kernel⟩,
   ⟨st dev0, 2 ^ 11, by decide +kernel⟩,
   ⟨st dev0, 2 ^ 16, by decide +kernel⟩,
   ⟨st dev0, 2 ^ 32, by decide +kernel⟩,
   ⟨st dev0, 7 * 2 ^ 125 + 0x10000000000 * 2 ^ 64 + 256 * 2 ^ 32, by decide +kernel⟩,
   ⟨st { dev0 with cv := { cvReset with units := [(7, { cvUnitReset with scan := some (0x10000000000, 256) })] } }, 7
     * 2 ^ 125 + 0x10000000000 * 2 ^ 64 + 256 * 2 ^ 32, by decide +kernel⟩,
   ⟨st dev0, 0, by decide +kernel⟩,
   ⟨st { dev0 with cv := { cvReset with units := [(0, { cvUnitReset with scan := some (0x10000000000, 256) })] } },
     0, 0x10000000000, 256, by decide +kernel⟩,
   ⟨st
     { dev0 with
       cv := { cvReset with units := [(0, { cvUnitReset with scan := some (0x10000000000, 256) })] },
       mem := { memReset with ue := [0x10000000000] } }, 0, 0x10000000000, 256, 0x10000000000, by decide +kernel⟩,
   ⟨st dev0, 0, by decide +kernel⟩,
   ⟨st dev0, 8, by decide +kernel⟩,
   ⟨st { dev0 with cv := { cvReset with units := [(7, { cvUnitReset with scan := some (0x10000000000, 256) })] } },
     7, by decide +kernel⟩,
   ⟨st dev0, 7, by decide +kernel⟩,
   ⟨st dev0, 8, by decide +kernel⟩,
   ⟨st { dev0 with cv := { cvReset with units := [(7, { cvUnitReset with scan := some (0x10000000000, 256) })] } },
     7, by decide +kernel⟩,
   ⟨st dev0, 7, by decide +kernel⟩,
   ⟨st dev0, 7, by decide +kernel⟩,
   ⟨st dev0, 8, by decide +kernel⟩⟩

/-- The hypotheses of `CvConfigRestartsItsUnit`, one clause after another. -/
theorem test_witness_cvConfigRestartsItsUnit :
    (∃ (s : Machine.State) (u v : Nat), Serving s 55298 (u + 1) ∧ u < 8 ∧ v < 2 ^ 32 ∧ fld v 29 28 ≠ 3 ∧ fld v 27 0 =
      0 ∧ (cvAt s.dev u).scan = none) ∧
    (∃ (s : Machine.State) (u v : Nat), Serving s 55298 (u + 1) ∧ u < 8 ∧ v < 2 ^ 32 ∧ fld v 29 28 ≠ 3 ∧ fld v 27 0 =
      0 ∧ (cvAt s.dev u).scan ≠ none) ∧
    (∃ (s : Machine.State) (u v : Nat), Serving s 55298 (u + 1) ∧ u < 8 ∧ v < 2 ^ 32 ∧ (fld v 29 28 = 3 ∨ fld v 27 0
      ≠ 0)) :=
  ⟨⟨st dev0, 7, 2 ^ 31, by decide +kernel⟩,
   ⟨st { dev0 with cv := { cvReset with units := [(7, { cvUnitReset with scan := some (0x10000000000, 256) })] } },
     7, 0, by decide +kernel⟩,
   ⟨st dev0, 7, 3 * 2 ^ 28, by decide +kernel⟩⟩

/-- The hypotheses of `SecurityCommands`, one clause after another. -/
theorem test_witness_securityCommands :
    (∃ (s : Machine.State) (k : Nat), Serving s 53251 0 ∧ k < 4 ∧ ¬(inRecovery s.dev = false ∧ s.dev.sec.keyIdx = k ∨
      setBit (cfg s.dev 53250 0 % 16) k true = 15)) ∧
    (∃ (s : Machine.State) (k : Nat), Serving s 53251 0 ∧ k < 4 ∧ (inRecovery s.dev = false ∧ s.dev.sec.keyIdx = k ∨
      setBit (cfg s.dev 53250 0 % 16) k true = 15)) ∧
    (∃ (s : Machine.State) (k : Nat), Serving s 53251 0 ∧ 4 ≤ k) ∧
    (∃ (s : Machine.State) (v : Nat), Serving s 53281 0 ∧ 64 < v) ∧
    (∃ (s : Machine.State) (v : Nat), Serving s 53281 0 ∧ v ≤ 64 ∧ s.dev.sec.svn < v) ∧
    (∃ (s : Machine.State) (v : Nat), Serving s 53281 0 ∧ v ≤ 64 ∧ v ≤ s.dev.sec.svn ∧ v ≤ cfg s.dev 53280 0) ∧
    (∃ (s : Machine.State) (v good : Nat), Serving s 53281 0 ∧ v ≤ 64 ∧ v ≤ s.dev.sec.svn ∧ cfg s.dev 53280 0 < v ∧ v
      - cfg s.dev 53280 0 ≤ good) ∧
    (∃ (s : Machine.State) (v good : Nat), Serving s 53281 0 ∧ v ≤ 64 ∧ v ≤ s.dev.sec.svn ∧ cfg s.dev 53280 0 < v ∧
      good < v - cfg s.dev 53280 0) ∧
    (∃ (s : Machine.State) (i : Nat) (p : FlashOp × Instr), p ∈ [(FlashOp.erase i, Instr.flashErase i),
      (FlashOp.verify i, Instr.imageVerify i), (FlashOp.prefer i, Instr.bootPrefer i)] ∧ Serving s (opIdx p.fst) 0 ∧
      i < 2 ∧ (regionRunning s.dev (opRegion p.fst) || s.dev.sec.ops.any fun o => opRegion o == opRegion p.fst) =
      false) ∧
    (∃ (s : Machine.State) (i : Nat) (p : FlashOp × Instr), p ∈ [(FlashOp.erase i, Instr.flashErase i),
      (FlashOp.verify i, Instr.imageVerify i), (FlashOp.prefer i, Instr.bootPrefer i)] ∧ Serving s (opIdx p.fst) 0 ∧
      i < 2 ∧ (regionRunning s.dev (opRegion p.fst) || s.dev.sec.ops.any fun o => opRegion o == opRegion p.fst) =
      true) ∧
    (∃ (s : Machine.State) (i : Nat) (p : FlashOp × Instr), p ∈ [(FlashOp.erase i, Instr.flashErase i),
      (FlashOp.verify i, Instr.imageVerify i), (FlashOp.prefer i, Instr.bootPrefer i)] ∧ Serving s (opIdx p.fst) 0 ∧
      2 ≤ i) ∧
    (∃ (s : Machine.State) (data : List Byte), Serving s 53268 0 ∧ ¬(8 ≤ data.length ∧ data.length ≤ 4088 ∧
      data.length % 8 = 0)) ∧
    (∃ (s : Machine.State) (image r0 r1 r2 o0 o1 o2 o3 : Byte) (data : List Byte), Serving s 53268 0 ∧ (8 ≤
      data.length ∧ data.length ≤ 4088 ∧ data.length % 8 = 0) ∧ ¬(BitVec.toNat image < 2 ∧ leVal [r0, r1, r2] = 0 ∧
      leVal [o0, o1, o2, o3] + data.length ≤ 67108864)) ∧
    (∃ (s : Machine.State) (image r0 r1 r2 o0 o1 o2 o3 : Byte) (data : List Byte), Serving s 53268 0 ∧ (8 ≤
      data.length ∧ data.length ≤ 4088 ∧ data.length % 8 = 0) ∧ (BitVec.toNat image < 2 ∧ leVal [r0, r1, r2] = 0 ∧
      leVal [o0, o1, o2, o3] + data.length ≤ 67108864) ∧ ((¬∀ (k : Nat), k < data.length → tfind (imgOf s.dev
      (BitVec.toNat image)) (leVal [o0, o1, o2, o3] + k) = none) ∨ (regionRunning s.dev (BitVec.toNat image) ||
      s.dev.sec.ops.any fun o => opRegion o == BitVec.toNat image) = true)) ∧
    (∃ (s : Machine.State) (image r0 r1 r2 o0 o1 o2 o3 : Byte) (data : List Byte), Serving s 53268 0 ∧ (8 ≤
      data.length ∧ data.length ≤ 4088 ∧ data.length % 8 = 0) ∧ (BitVec.toNat image < 2 ∧ leVal [r0, r1, r2] = 0 ∧
      leVal [o0, o1, o2, o3] + data.length ≤ 67108864) ∧ (∀ (k : Nat), k < data.length → tfind (imgOf s.dev
      (BitVec.toNat image)) (leVal [o0, o1, o2, o3] + k) = none) ∧ (regionRunning s.dev (BitVec.toNat image) ||
      s.dev.sec.ops.any fun o => opRegion o == BitVec.toNat image) = false) ∧
    (∃ (s : Machine.State) (o : FlashOp), held s.dev = false ∧ List.find? (fun p => opRegion p == opRegion o)
      s.dev.sec.ops = some o ∧ ∀ (p : Nat), o ≠ FlashOp.verify p) ∧
    (∃ (s : Machine.State) (o : FlashOp) (i : Nat), held s.dev = false ∧ List.find? (fun p => opRegion p == opRegion
      o) s.dev.sec.ops = some o ∧ o = FlashOp.erase i ∧ i < 2) ∧
    (∃ (s : Machine.State) (o : FlashOp) (i off : Nat) (data : List Byte), held s.dev = false ∧ List.find? (fun p =>
      opRegion p == opRegion o) s.dev.sec.ops = some o ∧ o = FlashOp.program i off data ∧ i < 2) ∧
    (∃ (s : Machine.State) (o : FlashOp) (i : Nat), held s.dev = false ∧ List.find? (fun p => opRegion p == opRegion
      o) s.dev.sec.ops = some o ∧ o = FlashOp.verify i) ∧
    (∃ (s : Machine.State) (o : FlashOp) (i : Nat), held s.dev = false ∧ List.find? (fun p => opRegion p == opRegion
      o) s.dev.sec.ops = some o ∧ o = FlashOp.prefer i) ∧
    (∃ (s : Machine.State) (n : Nat), held s.dev = false ∧ List.find? (fun p => opRegion p == n) s.dev.sec.ops =
      none) ∧
    (∃ (s : Machine.State), Serving s 53312 0 ∧ s.dev.sec.signedAt ≠ some s.dev.uptime) ∧
    (∃ (s : Machine.State), Serving s 53312 0 ∧ s.dev.sec.signedAt = some s.dev.uptime) ∧
    (∃ (s : Machine.State) (k : Nat), held s.dev = false ∧ k < 4 ∧ bitAt (cfg s.dev 53250 0) k = false) ∧
    (∃ (s : Machine.State) (k : Nat), held s.dev = false ∧ (4 ≤ k ∨ bitAt (cfg s.dev 53250 0) k = true)) ∧
    (∃ (s : Machine.State), held s.dev = false) :=
  ⟨⟨st { dev0 with sec := { secReset with keyIdx := 1 } }, 0, by decide +kernel⟩,
   ⟨st dev0, 0, by decide +kernel⟩,
   ⟨st dev0, 4, by decide +kernel⟩,
   ⟨st dev0, 65, by decide +kernel⟩,
   ⟨st dev0, 64, by decide +kernel⟩,
   ⟨st dev0, 0, by decide +kernel⟩,
   ⟨st { dev0 with sec := { secReset with svn := 64 } }, 64, 64, by decide +kernel⟩,
   ⟨st { dev0 with sec := { secReset with svn := 64 } }, 64, 63, by decide +kernel⟩,
   ⟨st dev0, 1, (.erase 1, .flashErase 1), List.mem_cons_self, (by decide +kernel), (by decide +kernel),
     (by decide +kernel)⟩,
   ⟨st { dev0 with sec := { secReset with ops := [.verify 1] } }, 1, (.erase 1, .flashErase 1), List.mem_cons_self,
     (by decide +kernel), (by decide +kernel), (by decide +kernel)⟩,
   ⟨st dev0, 2, (.erase 2, .flashErase 2), List.mem_cons_self, (by decide +kernel), (by decide +kernel)⟩,
   ⟨st dev0, [0], by decide +kernel⟩,
   ⟨st dev0, 2, 0, 0, 0, 0, 0, 0, 0, List.replicate 8 0, by decide +kernel⟩,
   ⟨st { dev0 with sec := { secReset with ops := [.verify 1] } }, 1, 0, 0, 0, 0xF8, 0xFF, 0xFF, 3, List.replicate 8
     0, (by decide +kernel), (by decide +kernel), (by decide +kernel), .inr (by decide +kernel)⟩,
   ⟨st dev0, 1, 0, 0, 0, 0xF8, 0xFF, 0xFF, 3, List.replicate 8 0, by decide +kernel⟩,
   ⟨st { dev0 with sec := { secReset with ops := [.erase 0] } }, .erase 0, (by decide +kernel), (by decide +kernel),
     nofun⟩,
   ⟨st { dev0 with sec := { secReset with ops := [.erase 0] } }, .erase 0, 0, by decide +kernel⟩,
   ⟨st { dev0 with sec := { secReset with ops := [.program 0 0 [1]] } }, .program 0 0 [1], 0, 0, [1],
     by decide +kernel⟩,
   ⟨st { dev0 with sec := { secReset with ops := [.verify 0] } }, .verify 0, 0, by decide +kernel⟩,
   ⟨st { dev0 with sec := { secReset with ops := [.prefer 0], rec0 := some (0, 0), rec1 := some (1, 0) } }, .prefer
     0, 0, by decide +kernel⟩,
   ⟨st dev0, 0, by decide +kernel⟩,
   ⟨st dev0, by decide +kernel⟩,
   ⟨st { dev0 with sec := { secReset with signedAt := some 0 } }, by decide +kernel⟩,
   ⟨st dev0, 3, by decide +kernel⟩,
   ⟨st dev0, 4, by decide +kernel⟩,
   ⟨st dev0, by decide +kernel⟩⟩

/-- The hypotheses of `BridgeFrames`, one clause after another. -/
theorem test_witness_bridgeFrames :
    (∃ (s : Machine.State) (dir b seq ord tag : Nat) (ok : Bool) (bytes : List Byte) (ue : BadWords) (reqs : List
      BridgeReq) (sigs : List BridgeSig) (tags : List Nat) (p : Instr × BrBody), Acting s ∧ dir < 2 ∧ seq < 256 ∧ ord
      < 4096 ∧ p ∈ frameCommands dir b seq ord tag ok bytes ue reqs sigs tags ∧ bundleUp (brDir s.dev dir) b = false) ∧
    (∃ (s : Machine.State) (dir b seq ord tag : Nat) (ok : Bool) (bytes : List Byte) (ue : BadWords) (reqs : List
      BridgeReq) (sigs : List BridgeSig) (tags : List Nat) (p : Instr × BrBody), Acting s ∧ dir < 2 ∧ seq < 256 ∧ ord
      < 4096 ∧ p ∈ frameCommands dir b seq ord tag ok bytes ue reqs sigs tags ∧ (bundleAt (brDir s.dev dir)
      b).nextSeq ≠ seq) ∧
    (∃ (s : Machine.State) (dir b seq ord tag : Nat) (ok : Bool) (bytes : List Byte) (ue : BadWords) (reqs : List
      BridgeReq) (sigs : List BridgeSig) (tags : List Nat) (p : Instr × BrBody), Acting s ∧ dir < 2 ∧ seq < 256 ∧ ord
      < 4096 ∧ p ∈ frameCommands dir b seq ord tag ok bytes ue reqs sigs tags ∧ bundleUp (brDir s.dev dir) b = true ∧
      ¬(ok = true ∧ (seq + (256 - (frameBundle s dir b seq ord p.snd).expected)) % 256 = 0)) ∧
    (∃ (s : Machine.State) (dir b seq ord tag : Nat) (ok : Bool) (bytes : List Byte) (ue : BadWords) (reqs : List
      BridgeReq) (sigs : List BridgeSig) (tags : List Nat) (p : Instr × BrBody), Acting s ∧ dir < 2 ∧ seq < 256 ∧ ord
      < 4096 ∧ p ∈ frameCommands dir b seq ord tag ok bytes ue reqs sigs tags ∧ bundleUp (brDir s.dev dir) b = true ∧
      (ok = true ∧ (seq + (256 - (frameBundle s dir b seq ord p.snd).expected)) % 256 = 0) ∧ isRepeat (frameTaken s
      dir b seq ord p.snd) { ord := ord, body := p.snd } = true) ∧
    (∃ (s : Machine.State) (dir b seq ord tag : Nat) (ok : Bool) (bytes : List Byte) (ue : BadWords) (reqs : List
      BridgeReq) (sigs : List BridgeSig) (tags : List Nat) (p : Instr × BrBody), Acting s ∧ dir < 2 ∧ seq < 256 ∧ ord
      < 4096 ∧ p ∈ frameCommands dir b seq ord tag ok bytes ue reqs sigs tags ∧ bundleUp (brDir s.dev dir) b = true ∧
      (ok = true ∧ (seq + (256 - (frameBundle s dir b seq ord p.snd).expected)) % 256 = 0) ∧ isRepeat (frameTaken s
      dir b seq ord p.snd) { ord := ord, body := p.snd } = false ∧ ord ≠ nextOrd (frameSent s dir b seq ord p.snd)
      (bodyRsp p.snd) ∧ ∀ (g : BrFrame), g ∈ (frameSent s dir b seq ord p.snd).held → ¬(bodyRsp g.body = bodyRsp
      p.snd ∧ g.ord = nextOrd (frameSent s dir b seq ord p.snd) (bodyRsp p.snd))) ∧
    (∃ (s : Machine.State) (dir b seq ord tag : Nat) (ok : Bool) (bytes : List Byte) (ue : BadWords) (reqs : List
      BridgeReq) (sigs : List BridgeSig) (tags : List Nat) (p : Instr × BrBody), Acting s ∧ dir < 2 ∧ seq < 256 ∧ ord
      < 4096 ∧ p ∈ frameCommands dir b seq ord tag ok bytes ue reqs sigs tags ∧ bundleUp (brDir s.dev dir) b = true ∧
      (ok = true ∧ (seq + (256 - (frameBundle s dir b seq ord p.snd).expected)) % 256 = 0) ∧ isRepeat (frameTaken s
      dir b seq ord p.snd) { ord := ord, body := p.snd } = false ∧ ord = nextOrd (frameSent s dir b seq ord p.snd)
      (bodyRsp p.snd)) ∧
    (∃ (s : Machine.State) (dir b seq ord tag : Nat) (ok : Bool) (bytes : List Byte) (ue : BadWords) (reqs : List
      BridgeReq) (sigs : List BridgeSig) (tags : List Nat) (p : Instr × BrBody), Acting s ∧ dir < 2 ∧ seq < 256 ∧ ord
      < 4096 ∧ p ∈ frameCommands dir b seq ord tag ok bytes ue reqs sigs tags ∧ bundleUp (brDir s.dev dir) b = true ∧
      (ok = true ∧ (seq + (256 - (frameBundle s dir b seq ord p.snd).expected)) % 256 = 0) ∧ isRepeat (frameTaken s
      dir b seq ord p.snd) { ord := ord, body := p.snd } = false ∧ ord = nextOrd (frameSent s dir b seq ord p.snd)
      (bodyRsp p.snd) ∧ (frameSent s dir b seq ord p.snd).held = [] ∧ p.snd = BrBody.req reqs) ∧
    (∃ (s : Machine.State) (dir b seq ord tag : Nat) (ok : Bool) (bytes : List Byte) (ue : BadWords) (reqs : List
      BridgeReq) (sigs : List BridgeSig) (tags : List Nat) (p : Instr × BrBody), Acting s ∧ dir < 2 ∧ seq < 256 ∧ ord
      < 4096 ∧ p ∈ frameCommands dir b seq ord tag ok bytes ue reqs sigs tags ∧ bundleUp (brDir s.dev dir) b = true ∧
      (ok = true ∧ (seq + (256 - (frameBundle s dir b seq ord p.snd).expected)) % 256 = 0) ∧ isRepeat (frameTaken s
      dir b seq ord p.snd) { ord := ord, body := p.snd } = false ∧ ord = nextOrd (frameSent s dir b seq ord p.snd)
      (bodyRsp p.snd) ∧ (frameSent s dir b seq ord p.snd).held = [] ∧ p.snd = BrBody.wdata tag bytes ue) ∧
    (∃ (s : Machine.State) (dir b seq ord tag : Nat) (ok : Bool) (bytes : List Byte) (ue : BadWords) (reqs : List
      BridgeReq) (sigs : List BridgeSig) (tags : List Nat) (p : Instr × BrBody), Acting s ∧ dir < 2 ∧ seq < 256 ∧ ord
      < 4096 ∧ p ∈ frameCommands dir b seq ord tag ok bytes ue reqs sigs tags ∧ bundleUp (brDir s.dev dir) b = true ∧
      (ok = true ∧ (seq + (256 - (frameBundle s dir b seq ord p.snd).expected)) % 256 = 0) ∧ isRepeat (frameTaken s
      dir b seq ord p.snd) { ord := ord, body := p.snd } = false ∧ ord = nextOrd (frameSent s dir b seq ord p.snd)
      (bodyRsp p.snd) ∧ (frameSent s dir b seq ord p.snd).held = [] ∧ p.snd = BrBody.sig sigs) ∧
    (∃ (s : Machine.State) (dir b seq ord tag : Nat) (ok : Bool) (bytes : List Byte) (ue : BadWords) (reqs : List
      BridgeReq) (sigs : List BridgeSig) (tags : List Nat) (p : Instr × BrBody), Acting s ∧ dir < 2 ∧ seq < 256 ∧ ord
      < 4096 ∧ p ∈ frameCommands dir b seq ord tag ok bytes ue reqs sigs tags ∧ bundleUp (brDir s.dev dir) b = true ∧
      (ok = true ∧ (seq + (256 - (frameBundle s dir b seq ord p.snd).expected)) % 256 = 0) ∧ isRepeat (frameTaken s
      dir b seq ord p.snd) { ord := ord, body := p.snd } = false ∧ ord = nextOrd (frameSent s dir b seq ord p.snd)
      (bodyRsp p.snd) ∧ (frameSent s dir b seq ord p.snd).held = [] ∧ p.snd = BrBody.rdata tag bytes ue) ∧
    (∃ (s : Machine.State) (dir b seq ord tag : Nat) (ok : Bool) (bytes : List Byte) (ue : BadWords) (reqs : List
      BridgeReq) (sigs : List BridgeSig) (tags : List Nat) (p : Instr × BrBody), Acting s ∧ dir < 2 ∧ seq < 256 ∧ ord
      < 4096 ∧ p ∈ frameCommands dir b seq ord tag ok bytes ue reqs sigs tags ∧ bundleUp (brDir s.dev dir) b = true ∧
      (ok = true ∧ (seq + (256 - (frameBundle s dir b seq ord p.snd).expected)) % 256 = 0) ∧ isRepeat (frameTaken s
      dir b seq ord p.snd) { ord := ord, body := p.snd } = false ∧ ord = nextOrd (frameSent s dir b seq ord p.snd)
      (bodyRsp p.snd) ∧ (frameSent s dir b seq ord p.snd).held = [] ∧ p.snd = BrBody.rdata tag bytes ue ∧ ue = []) ∧
    (∃ (s : Machine.State) (dir b seq ord tag : Nat) (ok : Bool) (bytes : List Byte) (ue : BadWords) (reqs : List
      BridgeReq) (sigs : List BridgeSig) (tags : List Nat) (p : Instr × BrBody), Acting s ∧ dir < 2 ∧ seq < 256 ∧ ord
      < 4096 ∧ p ∈ frameCommands dir b seq ord tag ok bytes ue reqs sigs tags ∧ bundleUp (brDir s.dev dir) b = true ∧
      (ok = true ∧ (seq + (256 - (frameBundle s dir b seq ord p.snd).expected)) % 256 = 0) ∧ isRepeat (frameTaken s
      dir b seq ord p.snd) { ord := ord, body := p.snd } = false ∧ ord = nextOrd (frameSent s dir b seq ord p.snd)
      (bodyRsp p.snd) ∧ (frameSent s dir b seq ord p.snd).held = [] ∧ p.snd = BrBody.wack tags) ∧
    (∃ (s : Machine.State) (dir b : Nat), Acting s ∧ dir < 2 ∧ bundleUp (brDir s.dev dir) b = false) ∧
    (∃ (s : Machine.State) (dir b : Nat), Acting s ∧ dir < 2 ∧ bundleUp (brDir s.dev dir) b = true) ∧
    (∃ (s : Machine.State) (dir b : Nat) (ws : List (Nat × Bool)), Acting s ∧ dir < 2 ∧ bundleUp (brDir s.dev dir) b
      = true ∧ (brDir s.dev (1 - dir)).waiting = [] ∧ ∀ (w : Nat × Bool), w ∈ ws → w.snd = false) ∧
    (∃ (s : Machine.State) (dir b w q : Nat) (f : BrFrame) (rest : List (Nat × BrFrame)), Acting s ∧ dir < 2 ∧
      bundleUp (brDir s.dev dir) b = true ∧ (brDir s.dev (1 - dir)).waiting = [] ∧ bundleUp (brDir s.dev (1 - dir)) 0
      = true ∧ ackedTo (bundleAt (brDir s.dev (1 - dir)) 0).replay w = (q, f) :: rest ∧ (if (bundleAt (brDir s.dev (1
      - dir)) 0).replayAt = q then (bundleAt (brDir s.dev (1 - dir)) 0).replays + 1 else 1) < cfg s.dev 33026 0) ∧
    (∃ (s : Machine.State) (dir b w q : Nat) (f : BrFrame) (rest : List (Nat × BrFrame)), Acting s ∧ dir < 2 ∧
      bundleUp (brDir s.dev dir) b = true ∧ (brDir s.dev (1 - dir)).waiting = [] ∧ bundleUp (brDir s.dev (1 - dir)) 0
      = true ∧ ackedTo (bundleAt (brDir s.dev (1 - dir)) 0).replay w = (q, f) :: rest ∧ cfg s.dev 33026 0 ≤ if
      (bundleAt (brDir s.dev (1 - dir)) 0).replayAt = q then (bundleAt (brDir s.dev (1 - dir)) 0).replays + 1 else 1) ∧
    (∃ (s : Machine.State) (dir b : Nat) (l : List Nat), Acting s ∧ dir < 2 ∧ bundlesActive (brDir s.dev dir) = b ::
      l ∧ ackWanted (brDir s.dev (1 - dir)) = false) ∧
    (∃ (s : Machine.State) (dir b : Nat) (l : List Nat), Acting s ∧ dir < 2 ∧ bundlesActive (brDir s.dev dir) = b ::
      l ∧ ackWanted (brDir s.dev (1 - dir)) = true) ∧
    (∃ (s : Machine.State) (dir : Nat), Acting s ∧ (2 ≤ dir ∨ bundlesActive (brDir s.dev dir) = [])) ∧
    (∃ (s : Machine.State) (dir b : Nat) (fails : List Nat) (ctl : Bool), Acting s ∧ (dir < 2 ∧ b < 24 ∧ (bundleAt
      (brDir s.dev dir) b).state = 3) ∧ ctl = false ∧ (addWires (bundleAt (brDir s.dev dir) b).failed fails).length ≤
      2) ∧
    (∃ (s : Machine.State) (dir b : Nat) (fails : List Nat) (ctl : Bool), Acting s ∧ (dir < 2 ∧ b < 24 ∧ (bundleAt
      (brDir s.dev dir) b).state = 3) ∧ (ctl = true ∨ 2 < (addWires (bundleAt (brDir s.dev dir) b).failed
      fails).length)) ∧
    (∃ (s : Machine.State) (dir b : Nat), Acting s ∧ ¬(dir < 2 ∧ b < 24 ∧ (bundleAt (brDir s.dev dir) b).state = 3)) :=
  ⟨⟨st (dev0), 0, 0, 0, 0, 0, true, [], [], [], [], [], (.bridgeReq 0 0 0 0 [] true, .req []), (by decide +kernel),
     (by decide +kernel), (by decide +kernel), (by decide +kernel), List.mem_cons_self, (by decide +kernel)⟩,
   ⟨st (onEast upBundle), 0, 0, 0, 0, 0, true, [], [], [], [], [], (.bridgeReq 0 0 0 0 [] true, .req []),
     (by decide +kernel), (by decide +kernel), (by decide +kernel), (by decide +kernel), List.mem_cons_self,
     (by decide +kernel)⟩,
   ⟨st (onEast upBundle), 0, 0, 0, 0, 0, false, [], [], [], [], [], (.bridgeReq 0 0 0 0 [] false, .req []),
     (by decide +kernel), (by decide +kernel), (by decide +kernel), (by decide +kernel), List.mem_cons_self,
     (by decide +kernel), (by decide +kernel)⟩,
   ⟨st (onEast upBundle), 0, 0, 0, 4095, 0, true, [], [], [], [], [], (.bridgeWack 0 0 0 4095 [] true, .wack []),
     (by decide +kernel), (by decide +kernel), (by decide +kernel), (by decide +kernel), (List.mem_cons_of_mem _
     (List.mem_cons_of_mem _ (List.mem_cons_of_mem _ (List.mem_cons_of_mem _ List.mem_cons_self)))),
     (by decide +kernel), (by decide +kernel), (by decide +kernel)⟩,
   ⟨st (onEast upBundle), 0, 0, 0, 2047, 0, true, [], [], [], [], [], (.bridgeReq 0 0 0 2047 [] true, .req []),
     (by decide +kernel), (by decide +kernel), (by decide +kernel), (by decide +kernel), List.mem_cons_self,
     (by decide +kernel), (by decide +kernel), (by decide +kernel), (by decide +kernel), nofun⟩,
   ⟨st (onEast upBundle), 0, 0, 0, 0, 0, true, [], [], [], [], [], (.bridgeReq 0 0 0 0 [] true, .req []),
     (by decide +kernel), (by decide +kernel), (by decide +kernel), (by decide +kernel), List.mem_cons_self,
     (by decide +kernel), (by decide +kernel), (by decide +kernel), (by decide +kernel)⟩,
   ⟨st (onEast upBundle), 0, 0, 0, 0, 0, true, [], [], [], [], [], (.bridgeReq 0 0 0 0 [] true, .req []),
     (by decide +kernel), (by decide +kernel), (by decide +kernel), (by decide +kernel), List.mem_cons_self,
     (by decide +kernel), (by decide +kernel), (by decide +kernel), (by decide +kernel), (by decide +kernel), rfl⟩,
   ⟨st (onEast upBundle), 0, 0, 0, 0, 0, true, [], [], [], [], [], (.bridgeWdata 0 0 0 0 0 ⟨[], []⟩ true, .wdata 0 []
     []), (by decide +kernel), (by decide +kernel), (by decide +kernel), (by decide +kernel), (List.mem_cons_of_mem _
     List.mem_cons_self), (by decide +kernel), (by decide +kernel), (by decide +kernel), (by decide +kernel),
     (by decide +kernel), rfl⟩,
   ⟨st (onEast upBundle), 0, 0, 0, 0, 0, true, [], [], [], [], [], (.bridgeSig 0 0 0 0 [] true, .sig []),
     (by decide +kernel), (by decide +kernel), (by decide +kernel), (by decide +kernel), (List.mem_cons_of_mem _
     (List.mem_cons_of_mem _ List.mem_cons_self)), (by decide +kernel), (by decide +kernel), (by decide +kernel),
     (by decide +kernel), (by decide +kernel), rfl⟩,
   ⟨st (onEast upBundle), 0, 0, 0, 0, 0, true, [], [], [], [], [], (.bridgeRdata 0 0 0 0 0 ⟨[], []⟩ true, .rdata 0 []
     []), (by decide +kernel), (by decide +kernel), (by decide +kernel), (by decide +kernel), (List.mem_cons_of_mem _
     (List.mem_cons_of_mem _ (List.mem_cons_of_mem _ List.mem_cons_self))), (by decide +kernel), (by decide +kernel),
     (by decide +kernel), (by decide +kernel), (by decide +kernel), rfl⟩,
   ⟨st (onEast upBundle), 0, 0, 0, 0, 0, true, [], [], [], [], [], (.bridgeRdata 0 0 0 0 0 ⟨[], []⟩ true, .rdata 0 []
     []), (by decide +kernel), (by decide +kernel), (by decide +kernel), (by decide +kernel), (List.mem_cons_of_mem _
     (List.mem_cons_of_mem _ (List.mem_cons_of_mem _ List.mem_cons_self))), (by decide +kernel), (by decide +kernel),
     (by decide +kernel), (by decide +kernel), (by decide +kernel), rfl, rfl⟩,
   ⟨st (onEast upBundle), 0, 0, 0, 0, 0, true, [], [], [], [], [], (.bridgeWack 0 0 0 0 [] true, .wack []),
     (by decide +kernel), (by decide +kernel), (by decide +kernel), (by decide +kernel), (List.mem_cons_of_mem _
     (List.mem_cons_of_mem _ (List.mem_cons_of_mem _ (List.mem_cons_of_mem _ List.mem_cons_self)))),
     (by decide +kernel), (by decide +kernel), (by decide +kernel), (by decide +kernel), (by decide +kernel), rfl⟩,
   ⟨st dev0, 0, 0, by decide +kernel⟩,
   ⟨st (onEast upBundle), 0, 0, by decide +kernel⟩,
   ⟨st (onEast upBundle), 0, 0, [(0, false)], by decide +kernel⟩,
   ⟨st
     { onEast upBundle with
       west := { brDirReset with bundles := [(0, { upBundle with replay := [(0, { ord := 0, body := .wack [] })] })] } },
     0, 0, 255, 0, { ord := 0, body := .wack [] }, [], by decide +kernel⟩,
   ⟨st
     { onEast upBundle with
       west := { brDirReset with
                 bundles := [(0, { upBundle with
                                   replay := [(0, { ord := 0, body := .wack [] })], replays := 255, replayAt := 0 })] } },
     0, 0, 255, 0, { ord := 0, body := .wack [] }, [], by decide +kernel⟩,
   ⟨st (onEast upBundle), 0, 0, [], by decide +kernel⟩,
   ⟨st { onEast upBundle with west := { brDirReset with owedReq := 1 } }, 0, 0, [], by decide +kernel⟩,
   ⟨st dev0, 0, (by decide +kernel), .inr (by decide +kernel)⟩,
   ⟨st (onEast { upBundle with state := 3, failed := [0, 1] }), 0, 0, [1], false, by decide +kernel⟩,
   ⟨st (onEast { upBundle with state := 3, failed := [0, 1] }), 0, 0, [33], false, (by decide +kernel),
     (by decide +kernel), .inr (by decide +kernel)⟩,
   ⟨st dev0, 0, 24, by decide +kernel⟩⟩

/-- The hypotheses of `EveryResetStartsOver`, one clause after another. -/
theorem test_witness_everyResetStartsOver :
    (∃ (s : Machine.State), s.dev.pw.failed = true) ∧
    (∃ (s : Machine.State), s.dev.pw.failed = false ∧ s.dev.pw.tripped = false) ∧
    (∃ (s : Machine.State), Acting s ∧ s.dev.pw.resetDue = true) ∧
    (∃ (s : Machine.State), Acting s ∧ cfg s.dev 57394 0 ≠ 0) ∧
    (∃ (s : Machine.State), s.dev.pw.failed = false) ∧
    (∃ (s : Machine.State), unitsStopped s.dev = true ∨ s.dev.pw.resetDue = false) ∧
    (∃ (s : Machine.State), unitsStopped s.dev = true ∨ cfg s.dev 57394 0 = 0) :=
  ⟨⟨onPw { pwReset with failed := true }, by decide +kernel⟩,
   ⟨st dev0, by decide +kernel⟩,
   ⟨onPw { pwReset with resetDue := true }, by decide +kernel⟩,
   ⟨st (setObj dev0 0xE032 0 1), by decide +kernel⟩,
   ⟨st dev0, by decide +kernel⟩,
   ⟨st dev0, by decide +kernel⟩,
   ⟨onPw { pwReset with resetLow := true }, by decide +kernel⟩⟩

/-- The hypotheses of `ResetPinAndCommand`, one clause after another. -/
theorem test_witness_resetPinAndCommand :
    (∃ (s : Machine.State), (s.dev.pw.failed || s.dev.pw.tripped) = true) ∧
    (∃ (s : Machine.State), Serving s 57348 0) ∧
    (∃ (s : Machine.State) (v : Nat), Serving s 57348 0 ∧ v ≠ 1) ∧
    (∃ (s : Machine.State), Acting s ∧ objectServed s.dev 57348 0 = false) ∧
    (∃ (s : Machine.State), unitsStopped s.dev = true) ∧
    (∃ (s : Machine.State), s.dev.pw.resetLow = true) :=
  ⟨⟨onPw { pwReset with tripped := true }, by decide +kernel⟩,
   ⟨st dev0, by decide +kernel⟩,
   ⟨st dev0, 0, by decide +kernel⟩,
   ⟨State.reset, by decide +kernel⟩,
   ⟨onPw { pwReset with resetLow := true }, by decide +kernel⟩,
   ⟨onPw { pwReset with resetLow := true }, by decide +kernel⟩⟩

/-- The hypotheses of `InputPowerAndTrips`, one clause after another. -/
theorem test_witness_inputPowerAndTrips :
    (∃ (s : Machine.State), s.dev.pw.failed = false) ∧
    (∃ (s : Machine.State), s.dev.pw.tripped = false) ∧
    (∃ (s : Machine.State), s.dev.pw.tripped = true) ∧
    (∃ (s : Machine.State), s.dev.pw.failed = false ∧ s.dev.pw.tripped = false) ∧
    (∃ (s : Machine.State), s.dev.pw.failed = true) ∧
    (∃ (s : Machine.State), s.dev.pw.failed = true ∨ s.dev.pw.tripped = true) :=
  ⟨⟨st dev0, by decide +kernel⟩,
   ⟨st dev0, by decide +kernel⟩,
   ⟨onPw { pwReset with tripped := true }, by decide +kernel⟩,
   ⟨st dev0, by decide +kernel⟩,
   ⟨onPw { pwReset with failed := true }, by decide +kernel⟩,
   ⟨onPw { pwReset with failed := true }, by decide +kernel⟩⟩

/-- The hypotheses of `DutyAndSensors`, one clause after another. -/
theorem test_witness_dutyAndSensors :
    (∃ (s : Machine.State), Acting s ∧ aboveCap s.dev = true) ∧
    (∃ (s : Machine.State), Acting s ∧ aboveCap s.dev = false) ∧
    (∃ (s : Machine.State), unitsStopped s.dev = true) ∧
    (∃ (s : Machine.State), s.dev.pw.failed = false) ∧
    (∃ (s : Machine.State), s.dev.pw.failed = true) :=
  ⟨⟨onPw { pwReset with samples := [2 ^ 64] }, by decide +kernel⟩,
   ⟨st dev0, by decide +kernel⟩,
   ⟨onPw { pwReset with resetLow := true }, by decide +kernel⟩,
   ⟨st dev0, by decide +kernel⟩,
   ⟨onPw { pwReset with failed := true }, by decide +kernel⟩⟩

/-- The hypotheses of `LostClocks`, one clause after another. -/
theorem test_witness_lostClocks :
    (∃ (s : Machine.State), Acting s) ∧
    (∃ (s : Machine.State) (w : Nat), Acting s ∧ w < 6) ∧
    (∃ (s : Machine.State) (w : Nat), Acting s ∧ 6 ≤ w ∧ w < 22) ∧
    (∃ (s : Machine.State) (w : Nat), Acting s ∧ 22 ≤ w ∧ w < 38) ∧
    (∃ (s : Machine.State) (w : Nat), Acting s ∧ 38 ≤ w ∧ w < 42) ∧
    (∃ (s : Machine.State) (w : Nat), unitsStopped s.dev = true ∨ 2 ≤ w) ∧
    (∃ (s : Machine.State) (w : Nat), unitsStopped s.dev = true ∨ 44 ≤ w) :=
  ⟨⟨st dev0, by decide +kernel⟩,
   ⟨st dev0, 5, by decide +kernel⟩,
   ⟨st dev0, 6, by decide +kernel⟩,
   ⟨st dev0, 37, by decide +kernel⟩,
   ⟨st dev0, 41, by decide +kernel⟩,
   ⟨st dev0, 2, by decide +kernel⟩,
   ⟨st dev0, 44, by decide +kernel⟩⟩

/-- The hypotheses of `StartUpSteps`, one clause after another. -/
theorem test_witness_startUpSteps :
    (∃ (s : Machine.State) (i : StartInfo) (n : Nat), Acting s ∧ cfg s.dev 57344 0 = 1 ∧ cfg s.dev 57345 0 = n ∧ n =
      1 ∧ i.pass = true) ∧
    (∃ (s : Machine.State) (i : StartInfo) (n : Nat), Acting s ∧ cfg s.dev 57344 0 = 1 ∧ cfg s.dev 57345 0 = n ∧ n =
      1 ∧ i.pass = false) ∧
    (∃ (s : Machine.State) (n : Nat), Acting s ∧ cfg s.dev 57344 0 = 1 ∧ cfg s.dev 57345 0 = n ∧ n = 2) ∧
    (∃ (s : Machine.State) (i : StartInfo) (n : Nat), Acting s ∧ cfg s.dev 57344 0 = 1 ∧ cfg s.dev 57345 0 = n ∧ n =
      3 ∧ i.pass = true) ∧
    (∃ (s : Machine.State) (i : StartInfo) (n : Nat), Acting s ∧ cfg s.dev 57344 0 = 1 ∧ cfg s.dev 57345 0 = n ∧ n =
      3 ∧ i.pass = false) ∧
    (∀ t : Tab Byte, imageCause (setObj (bootDev t).dev 0xE002 4 0) 0 false = 0 → ∃ (s : State) (i : StartInfo) (n :
      Nat), Acting s ∧ cfg s.dev 57344 0 = 1 ∧ cfg s.dev 57345 0 = n ∧ n = 4 ∧ i.pass = true ∧ (bootSelect (setObj
      s.dev 57346 n (min i.us (2 ^ 32 - 1))) i.badReads i.us).fst = true) ∧
    (∃ (s : Machine.State) (i : StartInfo) (n : Nat), Acting s ∧ cfg s.dev 57344 0 = 1 ∧ cfg s.dev 57345 0 = n ∧ n =
      4 ∧ i.pass = true ∧ (bootSelect (setObj s.dev 57346 n (min i.us (2 ^ 32 - 1))) i.badReads i.us).fst = false) ∧
    (∃ (s : Machine.State) (i : StartInfo) (n : Nat), Acting s ∧ cfg s.dev 57344 0 = 1 ∧ cfg s.dev 57345 0 = n ∧ n =
      4 ∧ i.pass = false) ∧
    (∃ (s : Machine.State) (i : StartInfo) (n : Nat), Acting s ∧ cfg s.dev 57344 0 = 1 ∧ cfg s.dev 57345 0 = n ∧ n =
      5 ∧ i.pass = true) ∧
    (∃ (s : Machine.State) (i : StartInfo) (n : Nat), Acting s ∧ cfg s.dev 57344 0 = 1 ∧ cfg s.dev 57345 0 = n ∧ n =
      5 ∧ i.pass = false) ∧
    (∃ (s : Machine.State) (i : StartInfo) (n : Nat), Acting s ∧ cfg s.dev 57344 0 = 1 ∧ cfg s.dev 57345 0 = n ∧ n =
      6 ∧ i.pass = true ∧ ¬(bundlesActive (brDir (trained s i n) 0)).length < cfg (trained s i n) 0x8101 0 ∧
      ¬(bundlesActive (brDir (trained s i n) 1)).length < cfg (trained s i n) 0x8101 0) ∧
    (∃ (s : Machine.State) (i : StartInfo) (n : Nat), Acting s ∧ cfg s.dev 57344 0 = 1 ∧ cfg s.dev 57345 0 = n ∧ n =
      6 ∧ i.pass = true ∧ (bundlesActive (brDir (trained s i n) 0)).length < cfg (trained s i n) 0x8101 0) ∧
    (∃ (s : Machine.State) (i : StartInfo) (n : Nat), Acting s ∧ cfg s.dev 57344 0 = 1 ∧ cfg s.dev 57345 0 = n ∧ n =
      6 ∧ i.pass = true ∧ ¬(bundlesActive (brDir (trained s i n) 0)).length < cfg (trained s i n) 0x8101 0 ∧
      (bundlesActive (brDir (trained s i n) 1)).length < cfg (trained s i n) 0x8101 0) ∧
    (∃ (s : Machine.State) (i : StartInfo) (n : Nat), Acting s ∧ cfg s.dev 57344 0 = 1 ∧ cfg s.dev 57345 0 = n ∧ n =
      6 ∧ i.pass = false) ∧
    (∃ (s : Machine.State) (i : StartInfo) (n r : Nat), Acting s ∧ cfg s.dev 57344 0 = 1 ∧ cfg s.dev 57345 0 = n ∧ n
      = 7 ∧ farRate (setObj s.dev 57346 n (min i.us (2 ^ 32 - 1))) i.sites = some r) ∧
    (∃ (s : Machine.State) (i : StartInfo) (n : Nat), Acting s ∧ cfg s.dev 57344 0 = 1 ∧ cfg s.dev 57345 0 = n ∧ n =
      7 ∧ farRate (setObj s.dev 57346 n (min i.us (2 ^ 32 - 1))) i.sites = none) ∧
    (∃ (s : Machine.State) (i : StartInfo) (n : Nat), Acting s ∧ cfg s.dev 57344 0 = 1 ∧ cfg s.dev 57345 0 = n ∧ n =
      8 ∧ i.pass = true) ∧
    (∃ (s : Machine.State) (i : StartInfo) (n : Nat), Acting s ∧ cfg s.dev 57344 0 = 1 ∧ cfg s.dev 57345 0 = n ∧ (n =
      8 ∨ n = 9) ∧ i.pass = false) ∧
    (∃ (s : Machine.State) (i : StartInfo) (n : Nat), Acting s ∧ cfg s.dev 57344 0 = 1 ∧ cfg s.dev 57345 0 = n ∧ n =
      9 ∧ i.pass = true) ∧
    (∃ (s : Machine.State) (n : Nat), Acting s ∧ cfg s.dev 57344 0 = 1 ∧ cfg s.dev 57345 0 = n ∧ n = 10) ∧
    (∃ (s : Machine.State) (n : Nat), Acting s ∧ cfg s.dev 57344 0 = 1 ∧ cfg s.dev 57345 0 = n ∧ n = 11) ∧
    (∃ (s : Machine.State) (n : Nat), Acting s ∧ cfg s.dev 57344 0 = 1 ∧ cfg s.dev 57345 0 = n ∧ n = 12) ∧
    (∃ (s : Machine.State), cfg s.dev 57345 0 ≠ 3 ∧ cfg s.dev 57345 0 ≠ 12) ∧
    (∃ (s : Machine.State), cfg s.dev 57345 0 = 3 ∨ cfg s.dev 57345 0 = 12) ∧
    (∃ (s : Machine.State), unitsStopped s.dev = true ∨ cfg s.dev 57344 0 ≠ 1 ∨ cfg s.dev 57345 0 = 0 ∨ 12 < cfg
      s.dev 57345 0) ∧
    (∃ (s : Machine.State), Acting s ∧ s.dev.mem.farInitStarted = true ∧ s.dev.mem.farInitDone = false) ∧
    (∃ (s : Machine.State), unitsStopped s.dev = true ∨ s.dev.mem.farInitStarted = false ∨ s.dev.mem.farInitDone =
      true) :=
  ⟨⟨onStart 1 1, { us := 0, pass := true, badReads := [], bundles := [], sites := [], unit := 0, port := 0 }, 1,
     by decide +kernel⟩,
   ⟨onStart 1 1, { us := 0, pass := false, badReads := [], bundles := [], sites := [], unit := 0, port := 0 }, 1,
     by decide +kernel⟩,
   ⟨onStart 1 2, 2, by decide +kernel⟩,
   ⟨onStart 1 3, { us := 0, pass := true, badReads := [], bundles := [], sites := [], unit := 0, port := 0 }, 3,
     by decide +kernel⟩,
   ⟨onStart 1 3, { us := 0, pass := false, badReads := [], bundles := [], sites := [], unit := 0, port := 0 }, 3,
     by decide +kernel⟩,
   fun t h => ⟨bootDev t,
     { us := 0, pass := true, badReads := [], bundles := [], sites := [], unit := 0, port := 0 }, 4, rfl, rfl, rfl,
     rfl, rfl, bootDev_selects t h⟩,
   ⟨onStart 1 4, { us := 0, pass := true, badReads := [], bundles := [], sites := [], unit := 0, port := 0 }, 4,
     by decide +kernel⟩,
   ⟨onStart 1 4, { us := 0, pass := false, badReads := [], bundles := [], sites := [], unit := 0, port := 0 }, 4,
     by decide +kernel⟩,
   ⟨onStart 1 5, { us := 0, pass := true, badReads := [], bundles := [], sites := [], unit := 0, port := 0 }, 5,
     by decide +kernel⟩,
   ⟨onStart 1 5, { us := 0, pass := false, badReads := [], bundles := [], sites := [], unit := 0, port := 0 }, 5,
     by decide +kernel⟩,
   ⟨onStart 1 6, { us := 0, pass := true, badReads := [], bundles := [], sites := [], unit := 0, port := 0 }, 6,
     by decide +kernel⟩,
   ⟨onStart 1 6,
     { us := 0, pass := true, badReads := [], bundles := ((List.range 24).map (fun b => (0, b, [], true))),
       sites := [], unit := 0, port := 0 }, 6, by decide +kernel⟩,
   ⟨onStart 1 6,
     { us := 0, pass := true, badReads := [], bundles := ((List.range 24).map (fun b => (1, b, [], true))),
       sites := [], unit := 0, port := 0 }, 6, by decide +kernel⟩,
   ⟨onStart 1 6, { us := 0, pass := false, badReads := [], bundles := [], sites := [], unit := 0, port := 0 }, 6,
     by decide +kernel⟩,
   ⟨onStart 1 7,
     { us := 0, pass := true, badReads := [], bundles := [], sites := List.replicate 16 10667, unit := 0, port := 0 },
     7, 10667, by decide +kernel⟩,
   ⟨onStart 1 7, { us := 0, pass := true, badReads := [], bundles := [], sites := [], unit := 0, port := 0 }, 7,
     by decide +kernel⟩,
   ⟨onStart 1 8, { us := 0, pass := true, badReads := [], bundles := [], sites := [], unit := 0, port := 0 }, 8,
     by decide +kernel⟩,
   ⟨onStart 1 9, { us := 0, pass := false, badReads := [], bundles := [], sites := [], unit := 0, port := 0 }, 9,
     by decide +kernel⟩,
   ⟨onStart 1 9, { us := 0, pass := true, badReads := [], bundles := [], sites := [], unit := 0, port := 0 }, 9,
     by decide +kernel⟩,
   ⟨onStart 1 10, 10, by decide +kernel⟩,
   ⟨onStart 1 11, 11, by decide +kernel⟩,
   ⟨onStart 1 12, 12, by decide +kernel⟩,
   ⟨onStart 1 2, by decide +kernel⟩,
   ⟨onStart 1 12, by decide +kernel⟩,
   ⟨st dev0, by decide +kernel⟩,
   ⟨st { dev0 with mem := { memReset with farInitStarted := true } }, by decide +kernel⟩,
   ⟨st dev0, by decide +kernel⟩⟩

/-- The hypotheses of `JtagIdcodeRegister`, one clause after another. -/
theorem test_witness_jtagIdcodeRegister :
    ∃ (s : Machine.State), s.dev.pw.failed = false :=
  ⟨st dev0, by decide +kernel⟩

/-- The hypotheses of `JtagInstructions`, one clause after another. -/
theorem test_witness_jtagInstructions :
    (∃ (s : Machine.State), s.dev.pw.failed = false) ∧
    (∃ (s : Machine.State), s.dev.pw.failed = false ∧ s.dev.pw.resetLow = true) ∧
    (∃ (s : Machine.State), s.dev.pw.failed = false ∧ s.dev.pw.resetLow = false) ∧
    (∃ (s : Machine.State) (l k : Nat) (c : Instr), s.dev.pw.failed = true ∧ c ∈ [Instr.jtagBypass, Instr.jtagIdcode,
      Instr.jtagSamplePreload l k, Instr.jtagExtest l, Instr.jtagExtestPulse l, Instr.jtagExtestTrain l]) :=
  ⟨⟨st dev0, by decide +kernel⟩,
   ⟨onPw { pwReset with resetLow := true }, by decide +kernel⟩,
   ⟨st dev0, by decide +kernel⟩,
   ⟨onPw { pwReset with failed := true }, 0, 0, .jtagBypass, (by decide +kernel), List.mem_cons_self⟩⟩

/-- The hypotheses of `StepRunsTheFrontCommand`, one clause after another. -/
theorem test_witness_stepRunsTheFrontCommand :
    ∃ (s : Machine.State), s.pending = [] :=
  ⟨State.reset, by decide +kernel⟩

/-- The hypotheses of `PowerFailFreezesTheDevice`, one clause after another. -/
theorem test_witness_powerFailFreezesTheDevice :
    ∃ (n : Nat) (s : Machine.State), s.dev.pw.failed = true ∧ ∀ (c : Instr), c ∈ List.take n s.pending → resets c =
      false :=
  ⟨2, { onPw { pwReset with failed := true } with pending := [.hpLinkDown, .hpLinkUp] }, by decide +kernel⟩

/-- The hypotheses of `TrippedDeviceStaysTripped`, one clause after another. -/
theorem test_witness_trippedDeviceStaysTripped :
    (∃ (s t : Machine.State), s.dev.pw.tripped = true ∧ s.dev.pw.failed = false ∧ s.pending.head? ≠ some
      Instr.powerFail ∧ s.pending.head? ≠ some Instr.powerOnReset ∧ step s = Host.Outcome.next t) ∧
    (∃ (n : Nat) (s t : Machine.State), s.dev.pw.tripped = true ∧ s.dev.pw.failed = false ∧ ¬Instr.powerFail ∈
      List.take n s.pending ∧ ¬Instr.powerOnReset ∈ List.take n s.pending ∧ runs n s = Host.Outcome.next t) :=
  ⟨⟨{ onPw { pwReset with tripped := true } with pending := [.hpLinkUp] }, _, by decide +kernel, by decide +kernel,
     by decide +kernel, by decide +kernel, rfl⟩,
   ⟨1, { onPw { pwReset with tripped := true } with pending := [.hpLinkUp] }, _, by decide +kernel,
     by decide +kernel, by decide +kernel, by decide +kernel, rfl⟩⟩

/-- The hypotheses of `MemoryHoldsWhatIsWritten`, one clause after another. -/
theorem test_witness_memoryHoldsWhatIsWritten :
    ∃ (m : Mem) (a : Nat) (bs : List Byte) (b : Nat), (Mem.wf m = true ∧ ∀ f ∈ m.fills, ∀ e ∈ f.held, f.line ≤ e.1 ∧
      e.1 < f.line + 256) ∧ (b < a ∨ a + bs.length ≤ b) :=
  ⟨{ memReset with bytes := [(1, 7)], fills := [{ line := 0x10000000000, held := [(0x100000000FF, 1)] }] }, 2, [3],
    1, by decide +kernel, .inl (by decide)⟩

/-- The hypotheses of `EventLogKeepsTheLastRecords`, one clause after another. -/
theorem test_witness_eventLogKeepsTheLastRecords :
    (∃ d : Dev, d.ev.log.length ≤ 4096 ∧ ¬(4096 ≤ d.ev.log.length ∧ ∃ e, d.ev.log.head? = some e ∧ undelivered d
      e.eseq = true)) ∧
    (∃ d : Dev, d.ev.log.length ≤ 4096 ∧ (4096 ≤ d.ev.log.length ∧ ∃ e, d.ev.log.head? = some e ∧ undelivered d
      e.eseq = true) ∧ tget 0 d.ev.onceSec 0x4102 = d.uptime / 1000000000 + 1 ∧ cfg d 0x1124 0 < 2 ^ 32 - 1) ∧
    (∃ d : Dev, d.ev.log.length ≤ 4096 ∧ (4096 ≤ d.ev.log.length ∧ ∃ e, d.ev.log.head? = some e ∧ undelivered d
      e.eseq = true) ∧ ¬tget 0 d.ev.onceSec 0x4102 = d.uptime / 1000000000 + 1 ∧ cfg d 0x1124 0 < 2 ^ 32 - 2) ∧
    (∃ (s : Machine.State) (v : Nat), Acting s ∧ servedNow s.dev 4386 0 1 = true ∧ s.dev.rc.wedged = false ∧ v < 2 ^
      32) :=
  ⟨⟨dev0, by decide +kernel, fun h => absurd h.1 (by decide +kernel)⟩,
   ⟨{ fullDev with ev := { fullDev.ev with onceSec := [(0x4102, 1)] } }, Nat.le_of_eq fullDev_length, fullDev_gone,
     by decide +kernel, by decide +kernel⟩,
   ⟨fullDev, Nat.le_of_eq fullDev_length, fullDev_gone, by decide +kernel, by decide +kernel⟩,
   ⟨st dev0, 2 ^ 32 - 1, by decide +kernel⟩⟩

end Sys2Proof.Tests.Slice0
end

/-! Scope (chapter 00): a step is its front command's effect, every command answers a next state with the queue as it was, and
so a run takes the queue's commands in order. Each fact is said once of `exec`, of `step` and of `runs`. -/

namespace Sys2Proof.Machine

/-- The answer of every command, over all of them: each is its gate's effect on the device, as its own law `exec_<command>`
says, and none faults, is refused or touches the queue (R1, R7). -/
theorem exec_eq_after (c : Instr) (s : State) : ∃ d, exec c s = after s d := by
  cases c <;> exact ⟨_, rfl⟩

@[simp] theorem step_of_pending_nil {s : State} (h : s.pending = []) : step s = .next s := by
  simp [step, h]

theorem step_of_pending_cons {s : State} {c : Instr} {rest : List Instr} (h : s.pending = c :: rest) :
    step s = exec c { s with pending := rest } := by
  simp [step, h]

/-- A step answers a next state, whose queue is the rest of the queue. -/
theorem step_eq_next (s : State) : ∃ t, step s = .next t ∧ t.pending = s.pending.tail := by
  cases h : s.pending with
  | nil => exact ⟨s, step_of_pending_nil h, h⟩
  | cons c rest =>
    obtain ⟨d, hd⟩ := exec_eq_after c { s with pending := rest }
    exact ⟨{ dev := d, pending := rest }, (step_of_pending_cons h).trans hd, rfl⟩

@[simp] theorem runs_zero (s : State) : runs 0 s = .next s := rfl

theorem runs_succ_of_step {s t : State} (h : step s = .next t) (n : Nat) : runs (n + 1) s = runs n t := by
  simp [runs, h]

/-- A run of `n` steps answers a next state, whose queue is the queue without its first `n` commands. -/
theorem runs_eq_next (n : Nat) (s : State) : ∃ t, runs n s = .next t ∧ t.pending = s.pending.drop n := by
  induction n generalizing s with
  | zero => exact ⟨s, runs_zero s, rfl⟩
  | succ n ih =>
    obtain ⟨s₁, hstep, hs₁⟩ := step_eq_next s
    obtain ⟨t, hrun, ht⟩ := ih s₁
    exact ⟨t, (runs_succ_of_step hstep n).trans hrun, by rw [ht, hs₁, List.drop_tail]⟩

/-- A run that reaches `t` in `m` steps goes on from `t`. -/
theorem runs_add_of_runs {m : Nat} {s t : State} (h : runs m s = .next t) (n : Nat) :
    runs (m + n) s = runs n t := by
  induction m generalizing s with
  | zero =>
    obtain rfl : s = t := by simpa using h
    rw [Nat.zero_add]
  | succ m ih =>
    obtain ⟨s₁, hstep, -⟩ := step_eq_next s
    rw [runs_succ_of_step hstep] at h
    rw [Nat.succ_add, runs_succ_of_step hstep, ih h]

/-- Settles O54: the queue is empty or has a front command, the two arms of `step`. -/
theorem stepRunsTheFrontCommand : Obligations.StepRunsTheFrontCommand :=
  ⟨fun _ _ => step_of_pending_cons rfl, fun _ => step_of_pending_nil⟩

/-- Settles O56: two runs from `runs_eq_next`, one after the other by `runs_add_of_runs`. -/
theorem runsNeverStop : Obligations.RunsNeverStop := by
  intro m n s
  obtain ⟨t, hm, ht⟩ := runs_eq_next m s
  obtain ⟨u, hn, hu⟩ := runs_eq_next n t
  exact ⟨t, u, hm, ht, hn, (runs_add_of_runs hm n).trans hn, by rw [hu, ht, List.drop_drop]⟩

end Sys2Proof.Machine

/-! Tensor units (chapter 02) and the drain side of the supervisor (chapter 04): the head of a TU's queue, what each command
makes of it, what an MMA accumulates, and what a drained tile leaves. -/

namespace Sys2Proof.Machine

/-! ### The command at the head of a TU's queue (R45, R49) -/

section
variable {s : State} {t : Nat} {e : TuEntry} {q : List TuEntry}

theorem tuSkip_of_tuNext (h : TuNext s t e q) : tuSkip (tuAt s.dev t) = tuAt s.dev t := by
  obtain ⟨hq, hdead, -⟩ := h
  unfold tuSkip
  rw [hq, List.dropWhile_cons_of_neg (by simpa using hdead), ← hq]

theorem tuHead_of_tuNext (h : TuNext s t e q) : tuHead (tuAt s.dev t) = some e := by
  obtain ⟨hq, hdead, hf⟩ := h
  simp [tuHead, hq, hdead, hf]

theorem tuPop_of_tuNext (h : TuNext s t e q) : tuPop (tuAt s.dev t) = { tuAt s.dev t with queue := q } := by
  simp [tuPop, h.1]

theorem tuNop_of_tuNext (h : TuNext s t e q) (hop : fld e.word 127 120 = 0) :
    tuNop s.dev t = setTu s.dev t { tuAt s.dev t with queue := q } := by
  simp [tuNop, tuSkip_of_tuNext h, tuHead_of_tuNext h, tuPop_of_tuNext h, hop]

theorem fence_of_tuNext (h : TuNext s t e q) (hop : fld e.word 127 120 = 3) :
    fence s.dev t = setTu s.dev t { tuAt s.dev t with fencing := true } := by
  simp [fence, tuSkip_of_tuNext h, h.1, hop]

/-- A SWAP whose waits have succeeded changes half (R42). -/
theorem swap_of_taken (h : TuNext s t e q) (hop : fld e.word 127 120 = 2) (hr : e.reload = none) {d : Dev} (w : Nat)
    (ht : semTakeBoth s.dev (t / 8) (fld e.word 119 108) (fld e.word 107 96) (t % 8) = (true, d)) :
    swap s.dev t w = bump (setTu d t (swapHalf (tuAt s.dev t) (swapEmpties e.word))) 0x3022 (t + 1) w := by
  simp [swap, tuSkip_of_tuNext h, tuHead_of_tuNext h, hop, hr, ht]

theorem tuInvalid_of_tuNext (h : TuNext s t e q) :
    tuInvalid s.dev t e = raiseFault (setTu s.dev t { tuAt s.dev t with queue := q, dead := some e.ctx })
      0x8302 t (mmaTid e.word) e.ctx := by
  rw [tuInvalid, tuPop_of_tuNext h]

theorem mma_of_undefined (h : TuNext s t e q) (hop : 3 < fld e.word 127 120) (w : Nat) (ecc : List (Nat × Bool)) :
    mma s.dev t w ecc = tuInvalid s.dev t e := by
  simp [mma, tuSkip_of_tuNext h, tuHead_of_tuNext h, hop]

theorem mma_of_invalid (h : TuNext s t e q) (hop : fld e.word 127 120 = 1)
    (hb : mmaBlocks s.dev (tuAt s.dev t) e.word = none) (w : Nat) (ecc : List (Nat × Bool)) :
    mma s.dev t w ecc = tuInvalid s.dev t e := by
  simp [mma, tuSkip_of_tuNext h, tuHead_of_tuNext h, hop, hb]

/-- The MMA of a new accumulation waits while its bank drains (R50). -/
theorem mma_of_draining (h : TuNext s t e q) (hop : fld e.word 127 120 = 1) {ab : Block × Block}
    (hb : mmaBlocks s.dev (tuAt s.dev t) e.word = some ab) (hacc : mmaAcc e.word = false)
    (hd : (tuBank (tuAt s.dev t) (mmaBank e.word)).draining = true) (w : Nat) (ecc : List (Nat × Bool)) :
    mma s.dev t w ecc = s.dev := by
  simp [mma, tuSkip_of_tuNext h, tuHead_of_tuNext h, hop, hb, hacc, hd]

theorem mma_of_valid (h : TuNext s t e q) (hop : fld e.word 127 120 = 1) {a b : Block}
    (hb : mmaBlocks s.dev (tuAt s.dev t) e.word = some (a, b))
    (hd : mmaAcc e.word = true ∨ (tuBank (tuAt s.dev t) (mmaBank e.word)).draining = false) (w : Nat)
    (ecc : List (Nat × Bool)) :
    mma s.dev t w ecc = mmaRun (if mmaAcc e.word then s.dev else bump s.dev 0x3023 (t + 1) w) t (tuAt s.dev t) e a b ecc := by
  have hgo : (!mmaAcc e.word && (tuBank (tuAt s.dev t) (mmaBank e.word)).draining) = false := by
    rcases hd with hd | hd <;> simp [hd]
  simp [mma, tuSkip_of_tuNext h, tuHead_of_tuNext h, hop, hb, hgo]

end

/-! ### SWAP and HALF_RELEASE (R42, R43) -/

/-- A SWAP that names no semaphore waits for nothing. -/
theorem semTakeBoth_unnamed (d : Dev) (c r : Nat) : semTakeBoth d c 0xFFF 0xFFF r = (true, d) := by
  simp [semTakeBoth, semTake]

/-- A SWAP that names one semaphore waits on that one alone. -/
theorem semTakeBoth_first {d d' : Dev} {c n r : Nat} (hn : n ≠ 0xFFF) (h : semTake d c n r 1 = (true, d')) :
    semTakeBoth d c n 0xFFF r = (true, d') := by
  simp only [semTakeBoth, h, if_neg hn]
  simp [semTake]

theorem swapHalf_of_none {u : Tu} (h : u.active = none) (owe : List Nat) :
    swapHalf u owe = { tuPop u with active := some 0, swaps := u.swaps + 1 } := by
  simp [swapHalf, h]

theorem swapHalf_of_some {u : Tu} {a : Nat} (h : u.active = some a) (owe : List Nat) :
    swapHalf u owe =
      { tuPop u with active := some (1 - a), owed := u.owed ++ owe, releasing := true, swaps := u.swaps + 1 } := by
  simp [swapHalf, h]

@[simp] theorem swapHalf_queue (u : Tu) (owe : List Nat) : (swapHalf u owe).queue = u.queue.tail := by
  cases h : u.active with
  | none => rw [swapHalf_of_none h]; rfl
  | some a => rw [swapHalf_of_some h]; rfl

/-- With no command in the queue no reload waits to start. -/
theorem nextReload_of_queue_nil {d : Dev} {t : Nat} (h : (tuAt d t).queue = []) (b : Bool) : nextReload d t b = d := by
  simp [nextReload, h]

theorem halfRelease_of_owed_one {d : Dev} {t n : Nat} (hrel : (tuAt d t).releasing = true) (ho : (tuAt d t).owed = [n])
    (hq : (tuAt d t).queue = []) (hn : n ≠ 0xFFF) (hc : (semAt d (semKey (t / 8) n)).count < 65535)
    (hb : (semAt d (semKey (t / 8) n)).bad = false) :
    halfRelease d t = setSem (setTu d t { tuAt d t with owed := [], releasing := false }) (semKey (t / 8) n)
      { semAt d (semKey (t / 8) n) with count := (semAt d (semKey (t / 8) n)).count + 1 } := by
  have hsig := semSignal_clean (setTu d t { tuAt d t with owed := [], releasing := false }) (t / 8) n 1
    (clusterCtx (setTu d t { tuAt d t with owed := [], releasing := false }) (t / 8)) hn
    (by simpa using hb) (by simpa using hc)
  simp only [halfRelease, hrel, if_true, ho, List.foldl_cons, List.foldl_nil, hsig]
  exact nextReload_of_queue_nil (by simp [hq]) true

theorem fenceDone_of_clear {d : Dev} {t : Nat} (hf : (tuAt d t).fencing = true) (h0 : bankIdle (tuAt d t).bank0 = true)
    (h1 : bankIdle (tuAt d t).bank1 = true) (hr : (tuAt d t).releasing = false)
    (hq : (tuAt d t).queue.all (fun e => !e.replay) = true) :
    fenceDone d t = setTu d t { tuAt d t with queue := (tuAt d t).queue.tail, fencing := false } := by
  simp only [fenceDone, hf, h0, h1, hr, hq, tuPop]
  simp

/-- Settles O1: each clause is the lemma on its command, with the clusters acting. -/
theorem tuQueueCommands : Obligations.TuQueueCommands := by
  refine ⟨?nop, ?swap, ?swapFull, ?fence, ?fenceDone, ?halfRelease, ?undefined, ?invalid, ?waits⟩
  case nop =>
    intro s t e q hc h hop
    rw [exec_tuNop, onCluster_acting _ _ hc, tuNop_of_tuNext h hop]
  case swap =>
    intro s t w e q hc h hop hr hfa hfb
    have ht : semTakeBoth s.dev (t / 8) (fld e.word 119 108) (fld e.word 107 96) (t % 8) = (true, s.dev) := by
      rw [hfa, hfb, semTakeBoth_unnamed]
    rw [exec_swap, onCluster_acting _ _ hc, swap_of_taken h hop hr w ht]
    cases ha : (tuAt s.dev t).active with
    | none => rw [swapHalf_of_none ha, tuPop_of_tuNext h]; simp
    | some a => rw [swapHalf_of_some ha, tuPop_of_tuNext h]; simp
  case swapFull =>
    intro s t w n e q hc h hop hr hfa hn hfb hw hcount hg hb
    have ht := semTakeBoth_first hn (semTake_clean s.dev (t / 8) n (t % 8) 1 hn hb hw hcount hg)
    rw [← hfa, ← hfb] at ht
    rw [exec_swap, onCluster_acting _ _ hc, swap_of_taken h hop hr w ht]
    refine ⟨_, rfl, by simp [h.1], ?_, by simp [hfa], rfl⟩
    cases ha : (tuAt s.dev t).active with
    | none => simp [swapHalf_of_none ha]
    | some a => simp [swapHalf_of_some ha]
  case fence =>
    intro s t e q hc h hop
    rw [exec_fence, onCluster_acting _ _ hc, fence_of_tuNext h hop]
  case fenceDone =>
    intro s t hc hf h0 h1 hr hq
    rw [exec_fenceDone, onCluster_acting _ _ hc, fenceDone_of_clear hf h0 h1 hr hq]
  case halfRelease =>
    intro s t n hc hrel ho hq hn hcount hb
    rw [exec_halfRelease, onCluster_acting _ _ hc, halfRelease_of_owed_one hrel ho hq hn hcount hb]
  case undefined =>
    intro s t w ecc e q hc h hop
    rw [exec_mma, onCluster_acting _ _ hc, mma_of_undefined h hop, tuInvalid_of_tuNext h]
  case invalid =>
    intro s t w ecc e q hc h hop hb
    rw [exec_mma, onCluster_acting _ _ hc, mma_of_invalid h hop hb, tuInvalid_of_tuNext h]
  case waits =>
    intro s t w ecc e q a hc h hop hb hacc hd
    rw [exec_mma, onCluster_acting _ _ hc, mma_of_draining h hop hb hacc hd]

end Sys2Proof.Machine

namespace Sys2Proof.Machine

/-! ### What an MMA accumulates (R23, R26, R31, R58) -/

/-- A fold of writes at other keys leaves the value at `k`. -/
theorem tget_foldl_tmod_of_notMem {α β : Type} (z : α) (key : β → Nat) (f : β → α → α) (k : Nat) (l : List β) (t : Tab α)
    (hk : k ∉ l.map key) : tget z (l.foldl (fun s p => tmod z s (key p) (f p)) t) k = tget z t k := by
  induction l generalizing t with
  | nil => rfl
  | cons p l ih =>
    simp only [List.map_cons, List.mem_cons, not_or] at hk
    rw [List.foldl_cons, ih _ hk.2, tmod, tget_tset_ne _ _ _ _ _ (Ne.symm hk.1)]

/-- A fold of writes at distinct keys writes each key once, over its first value. -/
theorem tget_foldl_tmod_of_mem {α β : Type} (z : α) (key : β → Nat) (f : β → α → α) {p : β} {l : List β} (t : Tab α)
    (hnd : (l.map key).Nodup) (hp : p ∈ l) :
    tget z (l.foldl (fun s p => tmod z s (key p) (f p)) t) (key p) = f p (tget z t (key p)) := by
  induction l generalizing t with
  | nil => cases hp
  | cons x l ih =>
    obtain ⟨hx, hl⟩ := List.nodup_cons.mp hnd
    rw [List.foldl_cons]
    rcases List.mem_cons.mp hp with rfl | hp
    · rw [tget_foldl_tmod_of_notMem z key f _ _ _ hx, tmod, tget_tset_same]
    · have hne : key x ≠ key p := fun h => hx (h ▸ List.mem_map_of_mem hp)
      rw [ih _ hl hp, tmod, tget_tset_ne _ _ _ _ _ hne]

theorem mem_livePositions {w m n : Nat} :
    (m, n) ∈ livePositions w ↔ (m < 128 ∧ rowLive w m = true) ∧ n < 64 ∧ colLive w n = true := by
  simp [livePositions, liveRows, liveCols]

/-- Columns are below 64, so that no two positions share an accumulator. -/
theorem posKey_inj {m n m' n' : Nat} (hn : n < 64) (hn' : n' < 64) (h : posKey m n = posKey m' n') : m = m' ∧ n = n' := by
  unfold posKey at h; omega

theorem livePositions_keys_nodup (w : Nat) : ((livePositions w).map (fun p => posKey p.1 p.2)).Nodup := by
  have hnd : (livePositions w).Nodup := (List.nodup_range.filter _).product (List.nodup_range.filter _)
  refine hnd.map_on ?_
  rintro ⟨m, n⟩ hp ⟨m', n'⟩ hp' h
  obtain ⟨rfl, rfl⟩ := posKey_inj (mem_livePositions.mp hp).2.1 (mem_livePositions.mp hp').2.1 h
  rfl

/-- The accumulators after an MMA, without its flags: one write for each live position. -/
theorem accumulate_fst (h : StoreHalf) (a b : Block) (w : Nat) (t : Tab F32) :
    (accumulate h a b w t).1 = (livePositions w).foldl
      (fun s p => tmod f32Zero s (posKey p.1 p.2) (fun old => (cellRun h a b w p.1 p.2 old).acc)) t :=
  (List.foldl_hom Prod.fst fun _ _ => rfl).symm

/-- A live position holds its own accumulation over K, every other position what it held. -/
theorem tget_accumulate (h : StoreHalf) (a b : Block) (w : Nat) (t : Tab F32) {m n : Nat} (hm : m < 128) (hn : n < 64) :
    tget f32Zero (accumulate h a b w t).1 (posKey m n) =
      if rowLive w m && colLive w n then (cellRun h a b w m n (tget f32Zero t (posKey m n))).acc
      else tget f32Zero t (posKey m n) := by
  rw [accumulate_fst]
  by_cases hlive : (rowLive w m && colLive w n) = true
  · rw [if_pos hlive]
    rw [Bool.and_eq_true] at hlive
    exact tget_foldl_tmod_of_mem f32Zero (fun p : Nat × Nat => posKey p.1 p.2)
      (fun p old => (cellRun h a b w p.1 p.2 old).acc) t (livePositions_keys_nodup w)
      (mem_livePositions.mpr ⟨⟨hm, hlive.1⟩, hn, hlive.2⟩)
  · rw [if_neg hlive]
    refine tget_foldl_tmod_of_notMem f32Zero _ _ _ _ _ ?_
    intro hmem
    obtain ⟨⟨m', n'⟩, hp, hkey⟩ := List.mem_map.mp hmem
    obtain ⟨⟨-, hrow⟩, hn', hcol⟩ := mem_livePositions.mp hp
    obtain ⟨rfl, rfl⟩ := posKey_inj hn' hn hkey
    exact hlive (by rw [hrow, hcol]; rfl)

/-! ### Banks of a TU -/

theorem mmaBank_lt (w : Nat) : mmaBank w < 2 := Nat.mod_lt _ (by decide)

@[simp] theorem setBank_queue (u : Tu) (b : Nat) (x : Bank) : (setBank u b x).queue = u.queue := by
  unfold setBank; split <;> rfl
@[simp] theorem setBank_half0 (u : Tu) (b : Nat) (x : Bank) : (setBank u b x).half0 = u.half0 := by
  unfold setBank; split <;> rfl
@[simp] theorem setBank_half1 (u : Tu) (b : Nat) (x : Bank) : (setBank u b x).half1 = u.half1 := by
  unfold setBank; split <;> rfl
@[simp] theorem tuBank_setBank_same (u : Tu) (b : Nat) (x : Bank) : tuBank (setBank u b x) b = x := by
  unfold tuBank setBank; split <;> rfl

theorem tuBank_setBank_other {b : Nat} (hb : b < 2) (u : Tu) (x : Bank) :
    tuBank (setBank u b x) (1 - b) = tuBank u (1 - b) := by
  obtain rfl | rfl : b = 0 ∨ b = 1 := by omega
  · rfl
  · rfl

/-! ### What the work of one TU leaves of the rest of the device -/

/-- Only events, object values, free values, the shadow units and the supervisor's records differ, and of these no scale pair
became uncorrectable or correct. -/
def NumericsOnly (d e : Dev) : Prop :=
  ∃ ev objs free shadows sup, sup.badActive = d.sup.badActive ∧
    e = { d with ev := ev, objs := objs, freeCtr := free, shadows := shadows, sup := sup }

theorem NumericsOnly.refl (d : Dev) : NumericsOnly d d := ⟨d.ev, d.objs, d.freeCtr, d.shadows, d.sup, rfl, rfl⟩

theorem NumericsOnly.trans {a b c : Dev} (h : NumericsOnly a b) (g : NumericsOnly b c) : NumericsOnly a c := by
  obtain ⟨_, _, _, _, _, hbad, rfl⟩ := h
  obtain ⟨ev, objs, free, shadows, sup, hbad', rfl⟩ := g
  exact ⟨ev, objs, free, shadows, sup, hbad'.trans hbad, rfl⟩

section
variable {d e : Dev}

theorem NumericsOnly.badActive (h : NumericsOnly d e) : e.sup.badActive = d.sup.badActive := by
  obtain ⟨_, _, _, _, _, hbad, rfl⟩ := h; exact hbad
theorem NumericsOnly.tus (h : NumericsOnly d e) : e.tus = d.tus := by obtain ⟨_, _, _, _, _, -, rfl⟩ := h; rfl
theorem NumericsOnly.mem (h : NumericsOnly d e) : e.mem = d.mem := by obtain ⟨_, _, _, _, _, -, rfl⟩ := h; rfl
theorem NumericsOnly.sems (h : NumericsOnly d e) : e.sems = d.sems := by obtain ⟨_, _, _, _, _, -, rfl⟩ := h; rfl
theorem NumericsOnly.vcs (h : NumericsOnly d e) : e.vcs = d.vcs := by obtain ⟨_, _, _, _, _, -, rfl⟩ := h; rfl
theorem NumericsOnly.tiles (h : NumericsOnly d e) : e.tiles = d.tiles := by obtain ⟨_, _, _, _, _, -, rfl⟩ := h; rfl
theorem NumericsOnly.tuAt (h : NumericsOnly d e) (v : Nat) : tuAt e v = tuAt d v := by
  unfold Machine.tuAt; rw [h.tus]
theorem NumericsOnly.semAt (h : NumericsOnly d e) (k : Nat) : semAt e k = semAt d k := by
  unfold Machine.semAt; rw [h.sems]

end

theorem OnlyEvents.numericsOnly {d e : Dev} (h : OnlyEvents d e) : NumericsOnly d e := by
  obtain ⟨ev, objs, rfl⟩ := h
  exact ⟨ev, objs, d.freeCtr, d.shadows, d.sup, rfl, rfl⟩

theorem bump_numerics (d : Dev) (i k n : Nat) : NumericsOnly d (bump d i k n) :=
  ⟨d.ev, _, d.freeCtr, d.shadows, d.sup, rfl, rfl⟩

theorem setShadow_numerics (d : Dev) (c : Nat) (x : Shadow) : NumericsOnly d (setShadow d c x) :=
  ⟨d.ev, d.objs, d.freeCtr, _, d.sup, rfl, rfl⟩

theorem withSup_numerics (d : Dev) {x : Sup} (h : x.badActive = d.sup.badActive) : NumericsOnly d { d with sup := x } :=
  ⟨d.ev, d.objs, d.freeCtr, d.shadows, x, h, rfl⟩

theorem setShadow_if_numerics (p : Prop) [Decidable p] (d : Dev) (c : Nat) (x : Shadow) :
    NumericsOnly d (if p then setShadow d c x else d) := by
  split
  · exact setShadow_numerics d c x
  · exact .refl d

theorem shadowDrop_numerics (d : Dev) (t b : Nat) : NumericsOnly d (shadowDrop d t b) :=
  setShadow_if_numerics _ d _ _

theorem shadowOpen_numerics (d : Dev) (t : Nat) (e : TuEntry) : NumericsOnly d (shadowOpen d t e).2 := by
  unfold shadowOpen
  split
  · simp only
    split
    · exact setShadow_numerics _ _ _
    · exact bump_numerics _ _ _ _
  · exact .refl d

theorem slotOpen_numerics (d : Dev) (t b tile : Nat) : NumericsOnly d (slotOpen d t b tile).2 := by
  unfold slotOpen
  simp only
  split
  · exact withSup_numerics d rfl
  · exact withSup_numerics d rfl

theorem nameEntry_numerics (d : Dev) (e ctx : Nat) : NumericsOnly d (nameEntry d e ctx) := by
  unfold nameEntry
  split
  · exact .refl d
  · exact withSup_numerics d rfl

/-- A scale pair that reads well is named and stops no context (R137). -/
theorem pairRead_numerics {d : Dev} (hbad : d.sup.badActive = []) (e ctx : Nat) : NumericsOnly d (pairRead d e ctx) := by
  have hn := nameEntry_numerics d e ctx
  have hgood : (nameEntry d e ctx).sup.badActive.contains e = false := by rw [hn.badActive, hbad]; rfl
  simp only [pairRead, hgood, Bool.false_eq_true, if_false]
  exact hn

theorem openPairs_numerics {d : Dev} (hbad : d.sup.badActive = []) (e : TuEntry) : NumericsOnly d (openPairs d e) := by
  have h1 := pairRead_numerics hbad (mmaTsa e.word) e.ctx
  unfold openPairs
  simp only
  split
  · exact .refl d
  · split
    · exact h1
    · exact h1.trans (pairRead_numerics (h1.badActive.trans hbad) _ _)

theorem noteMxfp6_numerics (d : Dev) (t w : Nat) : NumericsOnly d (noteMxfp6 d t w) := by
  unfold noteMxfp6
  simp only
  split
  · split
    · exact .refl d
    · exact NumericsOnly.trans ⟨_, d.objs, d.freeCtr, d.shadows, d.sup, rfl, rfl⟩ (raise_only _ _ _ _).numericsOnly
  · exact .refl d

/-- The state of no TU but `t`, of no memory, semaphore or vector chain differs, nor which scale pairs are uncorrectable. -/
structure OneTu (t : Nat) (d e : Dev) : Prop where
  others : ∀ v, v ≠ t → tuAt e v = tuAt d v
  mem : e.mem = d.mem
  sems : e.sems = d.sems
  vcs : e.vcs = d.vcs
  badActive : e.sup.badActive = d.sup.badActive

theorem OneTu.trans {t : Nat} {a b c : Dev} (h : OneTu t a b) (g : OneTu t b c) : OneTu t a c where
  others v hv := (g.others v hv).trans (h.others v hv)
  mem := g.mem.trans h.mem
  sems := g.sems.trans h.sems
  vcs := g.vcs.trans h.vcs
  badActive := g.badActive.trans h.badActive

theorem NumericsOnly.oneTu {d e : Dev} (h : NumericsOnly d e) (t : Nat) : OneTu t d e :=
  ⟨fun v _ => h.tuAt v, h.mem, h.sems, h.vcs, h.badActive⟩

theorem setTu_oneTu (d : Dev) (t : Nat) (u : Tu) : OneTu t d (setTu d t u) :=
  ⟨fun _ hv => tuAt_setTu_ne _ _ _ _ (Ne.symm hv), rfl, rfl, rfl, rfl⟩

/-! ### The bank an MMA starts from, and the device it leaves (R46, R53, R61, R109) -/

/-- Opening a tile uses up at most a tile number of its TU. -/
theorem tileOpen_oneTu (d : Dev) (t : Nat) (e : TuEntry) (k : Bank) :
    OneTu t d (tileOpen d t e k).2.2 ∧ ∃ n, tuAt (tileOpen d t e k).2.2 t = { tuAt d t with nextTile := n } := by
  have hsame : OneTu t d d ∧ ∃ n, tuAt d t = { tuAt d t with nextTile := n } :=
    ⟨(NumericsOnly.refl d).oneTu t, (tuAt d t).nextTile, rfl⟩
  unfold tileOpen
  split
  · exact hsame
  · split
    · exact hsame
    · have hs := slotOpen_numerics (setTu d t { tuAt d t with nextTile := (tuAt d t).nextTile + 1 }) t (mmaBank e.word)
        (tuAt d t).nextTile
      exact ⟨(setTu_oneTu d t _).trans (hs.oneTu t), _, (hs.tuAt t).trans (tuAt_setTu_same _ _ _)⟩

theorem openBank_oneTu {d : Dev} (hbad : d.sup.badActive = []) (t : Nat) (e : TuEntry) (k : Bank) :
    OneTu t d (mmaRun.openBank d t e k).2 ∧
      ∃ n, tuAt (mmaRun.openBank d t e k).2 t = { tuAt d t with nextTile := n } := by
  have hsample := (shadowDrop_numerics d t (mmaBank e.word)).trans (shadowOpen_numerics _ t e)
  obtain ⟨htile, n, hn⟩ := tileOpen_oneTu (shadowOpen (shadowDrop d t (mmaBank e.word)) t e).2 t e k
  have hto := (hsample.oneTu t).trans htile
  have hpairs := openPairs_numerics (hto.badActive.trans hbad) e
  exact ⟨hto.trans (hpairs.oneTu t), n, (hpairs.tuAt t).trans (hn.trans (by rw [hsample.tuAt t]))⟩

/-- The bank an MMA accumulates into as it starts, and the device once it has begun: a bank in progress goes on when ACC is 1,
a new accumulation opens when it is 0. -/
def mmaStart (d : Dev) (t : Nat) (u : Tu) (e : TuEntry) : Bank × Dev :=
  if mmaAcc e.word then (tuBank u (mmaBank e.word), d) else mmaRun.openBank d t e (tuBank u (mmaBank e.word))

theorem mmaStart_acc (d : Dev) (t : Nat) (u : Tu) (e : TuEntry) :
    (mmaStart d t u e).1.acc = if mmaAcc e.word then (tuBank u (mmaBank e.word)).acc else [] := by
  unfold mmaStart
  split <;> rfl

theorem mmaStart_oneTu {d : Dev} (hbad : d.sup.badActive = []) (t : Nat) (u : Tu) (e : TuEntry) :
    OneTu t d (mmaStart d t u e).2 ∧ ∃ n, tuAt (mmaStart d t u e).2 t = { tuAt d t with nextTile := n } := by
  unfold mmaStart
  split
  · exact ⟨(NumericsOnly.refl d).oneTu t, (tuAt d t).nextTile, rfl⟩
  · exact openBank_oneTu hbad t e _

/-- No listed word is read in error, none is counted. -/
theorem eccHits_nil (a b : Block) (w : Nat) : eccHits a b w [] = (0, 0) := rfl

theorem noteEcc_zero (d : Dev) (t : Nat) (e : TuEntry) : noteEcc d t e 0 0 = d := rfl

/-- An MMA whose half holds no uncorrectable word, on a machine that lists none: its bank is the one it started from, after
the accumulation, and beside it only numerics change. -/
theorem mmaRun_clean (d : Dev) (t : Nat) (u : Tu) (e : TuEntry) (a b : Block)
    (hue : (tuHalf u (u.active.getD 0)).ue = []) :
    ∃ d2, NumericsOnly (mmaStart (setTu d t (tuPop u)) t u e).2 d2 ∧
      NumericsOnly (setTu d2 t (setBank (tuAt d2 t) (mmaBank e.word)
        (bankAfter u (tuHalf u (u.active.getD 0)) a b e.word (mmaStart (setTu d t (tuPop u)) t u e).1 0 0)))
        (mmaRun d t u e a b []) := by
  refine ⟨_, setShadow_if_numerics ((mmaStart (setTu d t (tuPop u)) t u e).1.sampled = true) _ (t / 8)
    (shadowCopy (shadowAt (mmaStart (setTu d t (tuPop u)) t u e).2 (t / 8)) (tuHalf u (u.active.getD 0)) a b e.word), ?_⟩
  simp only [mmaRun, hue, List.map_nil, List.append_nil, eccHits_nil, noteEcc_zero]
  exact ((bump_numerics _ _ _ _).trans (bump_numerics _ _ _ _)).trans (noteMxfp6_numerics _ _ _)

/-- Settles O2: `mmaRun_clean` says which bank is left in which device, `tget_accumulate` what its positions hold. -/
theorem mmaAccumulates : Obligations.MmaAccumulates := by
  intro s t w e q a b hc h hop hb hgo hue hbad
  rw [exec_mma, onCluster_acting _ _ hc, mma_of_valid h hop hb hgo]
  generalize hd0 : (if mmaAcc e.word then s.dev else bump s.dev 0x3023 (t + 1) w) = d0
  have h0 : NumericsOnly s.dev d0 := by
    rw [← hd0]
    split
    · exact .refl _
    · exact bump_numerics _ _ _ _
  obtain ⟨d2, hstart, hend⟩ := mmaRun_clean d0 t (tuAt s.dev t) e a b hue
  obtain ⟨hone, n, hn⟩ := mmaStart_oneTu (d := setTu d0 t (tuPop (tuAt s.dev t))) (h0.badActive.trans hbad) t
    (tuAt s.dev t) e
  have hframe := ((((h0.oneTu t).trans (setTu_oneTu d0 t (tuPop (tuAt s.dev t)))).trans hone).trans
    (hstart.oneTu t)).trans ((setTu_oneTu d2 t _).trans (hend.oneTu t))
  have hu : tuAt d2 t = { tuAt s.dev t with queue := q, nextTile := n } := by
    rw [hstart.tuAt, hn, tuAt_setTu_same, tuPop_of_tuNext h]
  have htu := hend.tuAt t
  rw [tuAt_setTu_same, hu] at htu
  refine ⟨_, rfl, ?_, ?_, ?_, ?_, ?_, ?_, ?_, hframe.others, hframe.mem, hframe.sems, hframe.vcs⟩ <;> rw [htu]
  · simp
  · intro m k hm hk
    rw [tuBank_setBank_same]
    show tget f32Zero (accumulate _ a b e.word (mmaStart _ _ _ _).1.acc).1 _ = _
    rw [tget_accumulate _ _ _ _ _ hm hk, mmaStart_acc]
    cases mmaAcc e.word <;> rfl
  · rw [tuBank_setBank_same]; rfl
  · rw [tuBank_setBank_same]; rfl
  · exact tuBank_setBank_other (mmaBank_lt _) _ _
  · simp
  · simp

end Sys2Proof.Machine

namespace Sys2Proof.Machine

/-! ### Reloads change no command and no bank (R110) -/

/-- The commands in the queue of TU `t` and its banks, the memories, the semaphores and the tiles presented are the same. -/
structure ReloadFrame (t : Nat) (d e : Dev) : Prop where
  words : (tuAt e t).queue.map (fun x => x.word) = (tuAt d t).queue.map (fun x => x.word)
  banks : ∀ b, tuBank (tuAt e t) b = tuBank (tuAt d t) b
  mem : e.mem = d.mem
  sems : e.sems = d.sems
  tiles : e.tiles = d.tiles

theorem ReloadFrame.refl (t : Nat) (d : Dev) : ReloadFrame t d d := ⟨rfl, fun _ => rfl, rfl, rfl, rfl⟩

theorem ReloadFrame.trans {t : Nat} {a b c : Dev} (h : ReloadFrame t a b) (g : ReloadFrame t b c) : ReloadFrame t a c where
  words := g.words.trans h.words
  banks b := (g.banks b).trans (h.banks b)
  mem := g.mem.trans h.mem
  sems := g.sems.trans h.sems
  tiles := g.tiles.trans h.tiles

theorem setFe_reloadFrame (d : Dev) (t f : Nat) (x : Fe) : ReloadFrame t d (setFe d f x) := ⟨rfl, fun _ => rfl, rfl, rfl, rfl⟩

/-- A TU may be replaced by one with the same commands in its queue and the same banks. -/
theorem setTu_reloadFrame (d : Dev) (t : Nat) (u : Tu)
    (hq : u.queue.map (fun x => x.word) = (tuAt d t).queue.map (fun x => x.word)) (h0 : u.bank0 = (tuAt d t).bank0)
    (h1 : u.bank1 = (tuAt d t).bank1) : ReloadFrame t d (setTu d t u) where
  words := by rw [tuAt_setTu_same, hq]
  banks b := by rw [tuAt_setTu_same, tuBank, tuBank, h0, h1]
  mem := rfl
  sems := rfl
  tiles := rfl

@[simp] theorem setHalf_queue (u : Tu) (h : Nat) (x : StoreHalf) : (setHalf u h x).queue = u.queue := by
  unfold setHalf; split <;> rfl
@[simp] theorem setHalf_bank0 (u : Tu) (h : Nat) (x : StoreHalf) : (setHalf u h x).bank0 = u.bank0 := by
  unfold setHalf; split <;> rfl
@[simp] theorem setHalf_bank1 (u : Tu) (h : Nat) (x : StoreHalf) : (setHalf u h x).bank1 = u.bank1 := by
  unfold setHalf; split <;> rfl

theorem widenReload_reloadFrame (d : Dev) (t : Nat) (r : Reload) : ReloadFrame t d (widenReload d t r) := by
  unfold widenReload
  split
  · exact setTu_reloadFrame d t _ (by simp) (by simp) (by simp)
  · exact .refl t d

theorem issueReload_reloadFrame (d : Dev) (t : Nat) (r : Reload) (ctx : Nat) :
    ReloadFrame t d (issueReload d t r ctx) := by
  unfold issueReload
  simp only
  split
  · exact (setFe_reloadFrame d t _ _).trans (widenReload_reloadFrame _ t r)
  · exact setFe_reloadFrame d t _ _

/-- Starting a reload marks it in the queue and hands it to the fetch engine. -/
theorem nextReload_reloadFrame (d : Dev) (t : Nat) (released : Bool) : ReloadFrame t d (nextReload d t released) := by
  unfold nextReload
  simp only
  split
  case isTrue => exact .refl t d
  split
  case h_2 => exact .refl t d
  split
  case h_2 => exact .refl t d
  split
  case isFalse => exact .refl t d
  refine ReloadFrame.trans ?_ (issueReload_reloadFrame _ t _ _)
  refine setTu_reloadFrame d t _ ?_ rfl rfl
  rw [List.map_map]
  refine List.map_congr_left fun x _ => ?_
  simp only [Function.comp_apply]
  split <;> rfl

/-! ### TILE_DRAIN (R53, R54, R108 to R114) -/

theorem noteOvtiles_numerics (d : Dev) (w : Nat) : NumericsOnly d (noteOvtiles d w) := by
  have hone (x : Dev) (e : Nat) : NumericsOnly x (noteOvtile x e) := withSup_numerics x rfl
  unfold noteOvtiles
  simp only
  split
  · exact .refl d
  · split
    · exact hone d _
    · exact (hone d _).trans (hone _ _)

theorem nextFree_numerics (d : Dev) : NumericsOnly d (nextFree d).2 := ⟨d.ev, d.objs, _, d.shadows, d.sup, rfl, rfl⟩

/-- With no sample of the tile in the shadow unit nothing is given to it. -/
theorem shadowGive_of_not_has {d : Dev} {t b : Nat} (h : shadowHas d t b = false) (k : Bank) (vals : Tab F32) :
    shadowGive d t b k vals = d := by
  simp [shadowGive, h]

/-- The tile that the supervisor presents of bank `b` of TU `t` at its first attempt. -/
def firstTile (t b : Nat) (k : Bank) (vals : Tab F32) (st : Nat) : Tile :=
  { tu := t, bank := b, vals := vals, status := st, rpl := 0, last := k.last, ctx := k.ctx, tag := k.tag }

/-- A tile that was not replayed, overflowed nowhere and was not sampled is presented, and its bank is free. -/
theorem tilePass_first {d : Dev} {t b st : Nat} {k : Bank} (vals : Tab F32) (hr : mmaRpl k.last = 0)
    (hovf : statusOvf st = false) (hovfd : bitAt st 52 = false) (hs : shadowHas d t b = false) :
    tilePass d t b k vals st =
      semSignal (drainEnd (slotPassed { d with tiles := tset d.tiles t (firstTile t b k vals st) } t k.tile) t b k)
        (t / 8) (0xF10 + t % 8) 1 k.ctx := by
  have hgive := shadowGive_of_not_has (d := { d with tiles := tset d.tiles t (firstTile t b k vals st) }) hs k vals
  rw [firstTile] at hgive
  simp only [tilePass, firstTile, hr, Nat.lt_irrefl, if_false, hovf, hovfd, Bool.false_eq_true, hgive]

/-- The entries that a tile's replay, or after RPL 3 its BF16 recomputation, puts into the queue (R110, R114). -/
def tileEntries (k : Bank) (t : Nat) : List TuEntry :=
  if mmaRpl k.last = 3 then fallbackEntries k t (k.chunks.flatMap (fun c => c.mmas.flatMap (fallbackPieces c.loads)))
  else replayEntries k t (mmaRpl k.last + 1) 0 k.chunks

/-- A replay notes the overflow, ends the drain and puts its entries into the queue; then a reload may start. -/
theorem tileReplay_eq (d : Dev) (t b : Nat) (k : Bank) :
    ∃ d2, NumericsOnly d d2 ∧ tileReplay d t b k = nextReload (setTu (drainEnd d2 t b k) t
      (insertReplay (tuAt (drainEnd d2 t b k) t) b (tileEntries k t))) t false := by
  refine ⟨_, ?_, rfl⟩
  have hnote : NumericsOnly d (if mmaRpl k.last = 0 then noteOvtiles d k.opener else d) := by
    split
    · exact noteOvtiles_numerics d _
    · exact .refl d
  have hdrop := hnote.trans (shadowDrop_numerics _ t b)
  split
  · exact ((hdrop.trans (bump_numerics _ _ _ _)).trans (bump_numerics _ _ _ _)).trans (raise_only _ _ _ _).numericsOnly
  · exact hdrop

/-- The two drain semaphores of a TU are below 0xFFF, which names none. -/
theorem drainSem_ne {t b : Nat} (hb : b < 2) : 0xF00 + 2 * (t % 8) + b ≠ 0xFFF := by omega

/-- The end of a drain frees the bank and adds 1 to its drain semaphore (R54). -/
theorem drainEnd_clean {d : Dev} {t b : Nat} (hb : b < 2) (k : Bank)
    (hc : (semAt d (semKey (t / 8) (0xF00 + 2 * (t % 8) + b))).count < 65535)
    (hbad : (semAt d (semKey (t / 8) (0xF00 + 2 * (t % 8) + b))).bad = false) :
    drainEnd d t b k = setSem (setTu d t (setBank (tuAt d t) b freeBank)) (semKey (t / 8) (0xF00 + 2 * (t % 8) + b))
      { semAt d (semKey (t / 8) (0xF00 + 2 * (t % 8) + b)) with
        count := (semAt d (semKey (t / 8) (0xF00 + 2 * (t % 8) + b))).count + 1 } := by
  have h := semSignal_clean (setTu d t (setBank (tuAt d t) b freeBank)) (t / 8) (0xF00 + 2 * (t % 8) + b) 1 k.ctx
    (drainSem_ne hb) (by simpa using hbad) (by simpa using hc)
  simpa only [drainEnd, semAt_setTu] using h

@[simp] theorem tuBank_insertReplay (u : Tu) (b : Nat) (es : List TuEntry) (c : Nat) :
    tuBank (insertReplay u b es) c = tuBank u c := rfl

section
variable {d : Dev} {t b : Nat} {k : Bank}

theorem tileDrain_of_unslotted (hd : (tuBank (tuAt d t) b).draining = true) (hs : (tuBank (tuAt d t) b).slotted = false)
    (h w : Nat) : tileDrain d t b h w = slotWaitNote d t w := by
  simp [tileDrain, hd, hs]

/-- A finished tile with a slot and a context at work that has not overflowed waits for its receiver, or passes. -/
theorem tileDrain_of_not_ovf (hk : tuBank (tuAt d t) b = k) (hd : k.draining = true) (hs : k.slotted = true)
    (hue : k.ue = false) (hl : ctxLive (ctxAt d k.ctx) = true) (hovf : k.ovf = false) (h w : Nat) :
    tileDrain d t b h w = if (tfind d.tiles t).isSome then bump d 0x4022 (t / 8 + 1) h
      else tilePass d t b k (drainValues k d.freeCtr) (statusWord k (drainValues k d.freeCtr)) := by
  simp [tileDrain, hk, hd, hs, hue, hl, hovf]

theorem tileDrain_of_ovf (hk : tuBank (tuAt d t) b = k) (hd : k.draining = true) (hs : k.slotted = true)
    (hl : ctxLive (ctxAt d k.ctx) = true) (hovf : k.ovf = true) (hon : replayOn d = true) (hf : k.fallback = false)
    (h w : Nat) : tileDrain d t b h w = tileReplay (if k.ue then (nextFree d).2 else d) t b k := by
  simp [tileDrain, hk, hd, hs, hl, hovf, hon, hf]

end

/-! ### REPLAY_SLOT_FREE and SHADOW_COMPARE (R109, R121 to R125) -/

theorem replaySlotFree_of_none_waiting {d : Dev} {c : Nat} {p : Nat × Nat} {ps : List (Nat × Nat)}
    (hp : tget [] d.sup.passed c = p :: ps) (hw : tget [] d.sup.waiting c = []) :
    replaySlotFree d c = { d with sup := { d.sup with
      passed := tset d.sup.passed c ps, slots := tset d.sup.slots c ((tget [] d.sup.slots c).erase p) } } := by
  simp only [replaySlotFree, hp, hw]

/-- The oldest waiting tile takes the slot that frees. -/
theorem replaySlotFree_of_waiting {d : Dev} {c : Nat} {p q : Nat × Nat} {ps qs : List (Nat × Nat)}
    (hp : tget [] d.sup.passed c = p :: ps) (hw : tget [] d.sup.waiting c = q :: qs) :
    replaySlotFree d c = setTu { d with sup := { d.sup with
      passed := tset d.sup.passed c ps, waiting := tset d.sup.waiting c qs
      slots := tset d.sup.slots c ((tget [] d.sup.slots c).erase p ++ [(q.1, (tuBank (tuAt d q.1) q.2).tile)]) } } q.1
      (setBank (tuAt d q.1) q.2 { tuBank (tuAt d q.1) q.2 with slotted := true }) := by
  simp only [replaySlotFree, hp, hw, tget_tset_same, tset_tset]
  rfl

theorem shadowCompare_of_agree {d : Dev} {c : Nat} {ps : List (Nat × F32)} (hd : (shadowAt d c).drained = some ps)
    (hb : shadowBad d (shadowAt d c) ps = []) :
    shadowCompare d c = bump (setShadow d c shadowFree) 0x5033 ((shadowAt d c).tu + 1) 1 := by
  simp only [shadowCompare, hd, hb]

/-- A sample that disagrees is counted and logged in the supervisor's records; whatever the limit, beside them the shadow unit
is free and memory as it was. -/
theorem shadowCompare_of_disagree {d : Dev} {c : Nat} {ps : List (Nat × F32)} {x : Nat × F32 × F32 × Fx}
    {xs : List (Nat × F32 × F32 × Fx)} (hd : (shadowAt d c).drained = some ps)
    (hb : shadowBad d (shadowAt d c) ps = x :: xs) :
    (shadowCompare d c).sup = { d.sup with
        disagree := tset d.sup.disagree (shadowAt d c).tu (tget 0 d.sup.disagree (shadowAt d c).tu + (xs.length + 1))
        shadowLog := (shadowRecord d (shadowAt d c) (xs.length + 1) x :: d.sup.shadowLog).take 16 } ∧
      (shadowCompare d c).shadows = (setShadow d c shadowFree).shadows ∧ (shadowCompare d c).mem = d.mem := by
  simp only [shadowCompare, hd, hb, List.length_cons]
  split
  · simp only [raiseFault_sup, raiseFault_shadows, raiseFault_mem, raiseStep_sup, raiseStep_shadows, raiseStep_mem]
    exact ⟨rfl, rfl, rfl⟩
  · simp only [raiseStep_sup, raiseStep_shadows, raiseStep_mem]
    exact ⟨rfl, rfl, rfl⟩

/-- Settles O3: each clause is the lemma on its command, with the clusters acting; a replay's is `tileReplay_eq` with the
frame of the reload that may start after it. -/
theorem tileDrainAndShadow : Obligations.TileDrainAndShadow := by
  refine ⟨?passes, ?replays, ?noSlot, ?noReceiver, ?slotFrees, ?slotTaken, ?agrees, ?disagrees⟩
  case passes =>
    intro s t b h w k hc hk hd hs hue hl hovf hr htile hst hovfd hsh
    rw [exec_tileDrain, onCluster_acting _ _ hc, tileDrain_of_not_ovf hk hd hs hue hl hovf, htile,
      if_neg (by simp), tilePass_first _ hr hst hovfd hsh]
    rfl
  case replays =>
    intro s t b h w k hc hb hk hd hs hl hovf hon hf hcount hbad
    rw [exec_tileDrain, onCluster_acting _ _ hc, tileDrain_of_ovf hk hd hs hl hovf hon hf]
    have h0 : NumericsOnly s.dev (if k.ue then (nextFree s.dev).2 else s.dev) := by
      split
      · exact nextFree_numerics _
      · exact .refl _
    obtain ⟨d2, h02, hrep⟩ := tileReplay_eq (if k.ue then (nextFree s.dev).2 else s.dev) t b k
    have h2 := h0.trans h02
    have hend := drainEnd_clean (d := d2) (t := t) hb k (by rwa [h2.semAt]) (by rwa [h2.semAt])
    rw [h2.semAt, h2.tuAt] at hend
    rw [hrep, hend]
    simp only [tuAt_setSem, tuAt_setTu_same]
    have hfr := nextReload_reloadFrame (setTu (setSem (setTu d2 t (setBank (tuAt s.dev t) b freeBank))
      (semKey (t / 8) (0xF00 + 2 * (t % 8) + b)) { semAt s.dev (semKey (t / 8) (0xF00 + 2 * (t % 8) + b)) with
        count := (semAt s.dev (semKey (t / 8) (0xF00 + 2 * (t % 8) + b))).count + 1 }) t
      (insertReplay (setBank (tuAt s.dev t) b freeBank) b (tileEntries k t))) t false
    refine ⟨_, rfl, hfr.tiles.trans h2.tiles, ?_, ?_, ?_, hfr.mem.trans h2.mem⟩
    · rw [hfr.banks, tuAt_setTu_same, tuBank_insertReplay, tuBank_setBank_same]
    · rw [hfr.words, tuAt_setTu_same]; rfl
    · rw [semAt, hfr.sems, ← semAt, semAt_setTu, semAt_setSem_same]
  case noSlot =>
    intro s t b h w hc hd hs
    rw [exec_tileDrain, onCluster_acting _ _ hc, tileDrain_of_unslotted hd hs]
  case noReceiver =>
    intro s t b h w k x hc hk hd hs hue hl hovf htile
    rw [exec_tileDrain, onCluster_acting _ _ hc, tileDrain_of_not_ovf hk hd hs hue hl hovf, htile]
    rfl
  case slotFrees =>
    intro s c p ps hc hp hw
    rw [exec_replaySlotFree, onCluster_acting _ _ hc, replaySlotFree_of_none_waiting hp hw]
  case slotTaken =>
    intro s c p q ps qs hc hp hw
    rw [exec_replaySlotFree, onCluster_acting _ _ hc, replaySlotFree_of_waiting hp hw]
    exact ⟨_, rfl, by simp, by simp, by simp, rfl⟩
  case agrees =>
    intro s c ps hc hd hb
    rw [exec_shadowCompare, onCluster_acting _ _ hc, shadowCompare_of_agree hd hb]
  case disagrees =>
    intro s c ps x xs hc hd hb
    rw [exec_shadowCompare, onCluster_acting _ _ hc]
    obtain ⟨hsup, hsh, hmem⟩ := shadowCompare_of_disagree hd hb
    refine ⟨_, rfl, ?_, ?_, ?_, hmem⟩
    · rw [hsup, tget_tset_same]
    · rw [hsup]
    · rw [shadowAt, hsh, ← shadowAt, shadowAt_setShadow_same]

end Sys2Proof.Machine

/-! Numerics supervisor (chapter 04): how FP32 words order, what a conversion report leaves in its entry, the swap of the scale
tables, the entry into scale rebuild, and what a counter clear takes away. -/

namespace Sys2Proof.Machine

/-! ### Non-negative FP32 words are ordered as their codes (R68, R99) -/

/-- The value of the FP32 code `c` of a non-negative number, in units of 2^-149. -/
def f32Units (c : Nat) : Nat := if c < 2 ^ 23 then c else (2 ^ 23 + c % 2 ^ 23) * 2 ^ (c / 2 ^ 23 - 1)

/-- Within a binade the next code is one step larger; the last code of a binade is below the first of the next. -/
theorem f32Units_strictMono : StrictMono f32Units := by
  refine strictMono_nat_of_lt_succ fun c => ?_
  have hpos : 0 < 2 ^ (c / 2 ^ 23 - 1) := Nat.two_pow_pos _
  unfold f32Units
  by_cases hlast : c % 2 ^ 23 = 2 ^ 23 - 1
  · have hq : (c + 1) / 2 ^ 23 = c / 2 ^ 23 + 1 := by omega
    have hr : (c + 1) % 2 ^ 23 = 0 := by omega
    rw [hq, hr, if_neg (show ¬c + 1 < 2 ^ 23 by omega), Nat.add_sub_cancel]
    split
    case isTrue h => rw [Nat.div_eq_of_lt h]; omega
    case isFalse h =>
      obtain ⟨k, hk⟩ := Nat.exists_eq_succ_of_ne_zero (show c / 2 ^ 23 ≠ 0 by omega)
      rw [hk, Nat.succ_sub_one] at hpos ⊢
      rw [hlast, pow_succ]
      omega
  · have hq : (c + 1) / 2 ^ 23 = c / 2 ^ 23 := by omega
    have hr : (c + 1) % 2 ^ 23 = c % 2 ^ 23 + 1 := by omega
    rw [hq, hr]
    split
    case isTrue h => rw [if_pos (by omega)]; exact Nat.lt_succ_self c
    case isFalse h => rw [if_neg (by omega)]; exact Nat.mul_lt_mul_of_pos_right (by omega) hpos

/-- `m · 2^x` as a fraction, counted in units of 2^-149. -/
theorem fxScale_units (m : Nat) {x : Int} (hx : -149 ≤ x) :
    ∃ n d, fxScale false m x = .fin false n d ∧ 0 < d ∧ n * 2 ^ 149 = m * 2 ^ (x + 149).toNat * d := by
  unfold fxScale
  split
  case isTrue h =>
    refine ⟨_, _, rfl, Nat.one_pos, ?_⟩
    rw [show (x + 149).toNat = x.toNat + 149 by omega, pow_add]
    ring
  case isFalse h =>
    refine ⟨_, _, rfl, Nat.two_pow_pos _, ?_⟩
    rw [mul_assoc, ← pow_add, show (x + 149).toNat + (-x).toNat = 149 by omega]

/-- The value of a non-negative finite code: its mantissa at the lowest exponent below 2^23, its significand above. -/
theorem ofF32_fxScale {v : F32} (h : v.toNat < 0x7F800000) :
    ofF32 v = if v.toNat < 2 ^ 23 then fxScale false v.toNat (-149)
      else fxScale false (2 ^ 23 + v.toNat % 2 ^ 23) ((v.toNat / 2 ^ 23 : Nat) - 127 - 23) := by
  have hneg : bitAt v.toNat 31 = false := by
    rw [bitAt, Nat.shiftRight_eq_div_pow, Nat.div_eq_of_lt (by omega)]; rfl
  have hexp : fld v.toNat 30 23 = v.toNat / 2 ^ 23 := by
    rw [fld, Nat.shiftRight_eq_div_pow, Nat.mod_eq_of_lt (by omega)]
  have hfin : v.toNat / 8388608 ≠ 255 := by omega
  by_cases h0 : v.toNat < 8388608
  · simp [ofF32, fdecode, ebits, mbits, fbias, hasInf, hneg, hexp, hfin, h0, Nat.mod_eq_of_lt h0]
  · simp [ofF32, fdecode, ebits, mbits, fbias, hasInf, hneg, hexp, hfin, h0]

theorem ofF32_finite {v : F32} (h : v.toNat < 0x7F800000) :
    ∃ n d, ofF32 v = .fin false n d ∧ 0 < d ∧ n * 2 ^ 149 = f32Units v.toNat * d := by
  rw [ofF32_fxScale h, f32Units]
  split
  case isTrue => simpa using fxScale_units v.toNat (x := -149) le_rfl
  case isFalse h0 =>
    have hx : (((v.toNat / 2 ^ 23 : Nat) : Int) - 127 - 23 + 149).toNat = v.toNat / 2 ^ 23 - 1 := by omega
    exact hx ▸ fxScale_units (2 ^ 23 + v.toNat % 2 ^ 23) (by omega)

theorem ofF32_infinity {v : F32} (h : v.toNat = 0x7F800000) : ofF32 v = .inf false := by
  rw [ofF32, h]; rfl

/-- Non-negative FP32 values and infinity compare as their codes do. -/
theorem fxLt_ofF32 {v w : F32} (hv : v.toNat ≤ 0x7F800000) (hw : w.toNat ≤ 0x7F800000) :
    fxLt (ofF32 v) (ofF32 w) = true ↔ v.toNat < w.toNat := by
  rcases hv.lt_or_eq with hv | hv <;> rcases hw.lt_or_eq with hw | hw
  · obtain ⟨n, d, hvx, hd, hn⟩ := ofF32_finite hv
    obtain ⟨m, e, hwx, he, hm⟩ := ofF32_finite hw
    rw [hvx, hwx, ← f32Units_strictMono.lt_iff_lt]
    calc fxLt (.fin false n d) (.fin false m e) = true ↔ n * e < m * d := by simp [fxLt]
      _ ↔ n * e * 2 ^ 149 < m * d * 2 ^ 149 := (Nat.mul_lt_mul_right (Nat.two_pow_pos _)).symm
      _ ↔ f32Units v.toNat * (d * e) < f32Units w.toNat * (d * e) := by
        rw [Nat.mul_right_comm n, hn, Nat.mul_right_comm m, hm, mul_assoc, mul_assoc, mul_comm e d]
      _ ↔ f32Units v.toNat < f32Units w.toNat := Nat.mul_lt_mul_right (Nat.mul_pos hd he)
  · obtain ⟨n, d, hvx, -, -⟩ := ofF32_finite hv
    simpa [hvx, ofF32_infinity hw, fxLt, hw] using hv
  · obtain ⟨m, e, hwx, -, -⟩ := ofF32_finite hw
    simpa [ofF32_infinity hv, hwx, fxLt, hv] using hw.le
  · simp [ofF32_infinity hv, ofF32_infinity hw, fxLt, hv, hw]

/-- The larger value has the larger code. -/
theorem f32AmaxFold_toNat {v w : F32} (hv : v.toNat ≤ 0x7F800000) (hw : w.toNat ≤ 0x7F800000) :
    (f32AmaxFold v w).toNat = max v.toNat w.toNat := by
  simp only [f32AmaxFold, fxLt_ofF32 hv hw]
  split
  case isTrue h => exact (max_eq_right h.le).symm
  case isFalse h => exact (max_eq_left (not_lt.mp h)).symm

theorem f32AmaxFold_right_comm {m v w : F32} (hm : m.toNat ≤ 0x7F800000) (hv : v.toNat ≤ 0x7F800000)
    (hw : w.toNat ≤ 0x7F800000) : f32AmaxFold (f32AmaxFold m v) w = f32AmaxFold (f32AmaxFold m w) v := by
  have hmv := f32AmaxFold_toNat hm hv
  have hmw := f32AmaxFold_toNat hm hw
  refine BitVec.eq_of_toNat_eq ?_
  rw [f32AmaxFold_toNat (hmv.trans_le (max_le hm hv)) hw, f32AmaxFold_toNat (hmw.trans_le (max_le hm hw)) hv, hmv, hmw,
    max_right_comm]

/-! ### CONVERSION_REPORT (R98 to R100) -/

/-- A ledger entry with a report of `v` and the flags `f` folded in (R99). -/
def foldReport (x : LedgerEntry) (v : F32) (f : Nat) : LedgerEntry :=
  { x with runamax := f32AmaxFold x.runamax v, cflags := x.cflags ||| f % 16, tch := true }

theorem foldReport_right_comm {x : LedgerEntry} {v w : F32} (hx : x.runamax.toNat ≤ 0x7F800000)
    (hv : v.toNat ≤ 0x7F800000) (hw : w.toNat ≤ 0x7F800000) (f g : Nat) :
    foldReport (foldReport x v f) w g = foldReport (foldReport x w g) v f := by
  simp only [foldReport, f32AmaxFold_right_comm hx hv hw, Nat.or_assoc, Nat.or_comm (f % 16)]

@[simp] theorem ledgerAt_setLedger_same (d : Dev) (e : Nat) (x : LedgerEntry) : ledgerAt (setLedger d e x) e = x := by
  simp [ledgerAt, setLedger]

@[simp] theorem setLedger_setLedger (d : Dev) (e : Nat) (x y : LedgerEntry) :
    setLedger (setLedger d e x) e y = setLedger d e y := by
  simp [setLedger]

theorem homeRead_clean {d : Dev} {e : Nat} (h : ueIn d.mem (ledgerHome e) 160 = []) : homeRead d e = d := by
  simp [homeRead, h]

/-- A report of an open step to an entry whose home copy reads well is folded into the entry. -/
theorem conversionReport_open {d : Dev} {e n : Nat} (hstep : d.seq.step ≤ n) (hopen : d.sup.closed ≠ some n)
    (hue : ueIn d.mem (ledgerHome e) 160 = []) (v : F32) (f : Nat) :
    conversionReport d e v f n = setLedger d e (foldReport (ledgerAt d e) v f) := by
  rw [conversionReport, if_neg (by simp [hopen, hstep]), homeRead_clean hue]
  rfl

theorem exec_conversionReport_open {s : State} {e n : Nat} (hact : Acting s) (hstep : s.dev.seq.step ≤ n)
    (hopen : s.dev.sup.closed ≠ some n) (hue : ueIn s.dev.mem (ledgerHome e) 160 = []) (v : F32) (f : Nat) :
    exec (.conversionReport e v f n) s = after s (setLedger s.dev e (foldReport (ledgerAt s.dev e) v f)) := by
  rw [exec_conversionReport, onUnit_acting _ _ hact, conversionReport_open hstep hopen hue]

/-- Two reports of an open step to one entry are folded in one after the other. -/
theorem exec_conversionReport_twice {s : State} {e n : Nat} (hact : Acting s) (hstep : s.dev.seq.step ≤ n)
    (hopen : s.dev.sup.closed ≠ some n) (hue : ueIn s.dev.mem (ledgerHome e) 160 = []) (v w : F32) (f g : Nat) :
    ∃ a, exec (.conversionReport e v f n) s = .next a ∧ exec (.conversionReport e w g n) a =
      after s (setLedger s.dev e (foldReport (foldReport (ledgerAt s.dev e) v f) w g)) := by
  refine ⟨_, exec_conversionReport_open hact hstep hopen hue v f, ?_⟩
  rw [exec_conversionReport_open (s := { s with dev := setLedger s.dev e (foldReport (ledgerAt s.dev e) v f) })
    hact hstep hopen hue]
  simp [after]

/-- Settles O5: two reports are folded in one after the other, and neither the larger amax nor the union of the flags depends
on the order (`foldReport_right_comm`). -/
theorem reportsFoldInAnyOrder : Obligations.ReportsFoldInAnyOrder := by
  intro s e f g n v w hact hstep hopen hue hv hw hx
  obtain ⟨a, ha, hat⟩ := exec_conversionReport_twice hact hstep hopen hue v w f g
  obtain ⟨b, hb, hbt⟩ := exec_conversionReport_twice hact hstep hopen hue w v g f
  rw [← foldReport_right_comm hx hv hw] at hbt
  exact ⟨a, b, _, ha, hat, hb, hbt⟩

end Sys2Proof.Machine

namespace Sys2Proof.Machine

/-! ### Scale rebuild (R133 to R135) -/

/-- A fold whose steps change the supervisor alone changes the supervisor alone. -/
theorem foldl_withSup {α : Type} {f : Dev → α → Dev} (hf : ∀ d x, ∃ u, f d x = { d with sup := u }) (l : List α)
    (d : Dev) : ∃ u, l.foldl f d = { d with sup := u } := by
  induction l generalizing d with
  | nil => exact ⟨d.sup, rfl⟩
  | cons x l ih =>
    obtain ⟨u, hu⟩ := hf d x
    obtain ⟨u', hu'⟩ := ih (f d x)
    exact ⟨u', by rw [List.foldl_cons, hu', hu]⟩

/-- Entering rebuild changes the supervisor, sets the steps left and raises 0x4530; no rebuild is pending then. -/
theorem enterRebuild_eq (d : Dev) (both : Bool) : ∃ u : Sup, u.rebuildPending = false ∧
    enterRebuild d both = raise (setObj { d with sup := u } 0x5022 0 (cfg d 0x5021 0)) 0x4530 0 (cfg d 0x5021 0) := by
  unfold enterRebuild
  simp only
  generalize hd1 : List.foldl _ d _ = d1
  have hsup : ∃ u, d1 = { d with sup := u } := by
    rw [← hd1]
    refine foldl_withSup (fun x e => ?_) _ d
    split
    · exact ⟨_, rfl⟩
    · split <;> exact ⟨_, rfl⟩
  obtain ⟨u, rfl⟩ := hsup
  exact ⟨{ u with rebuildPending := false }, rfl, rfl⟩

theorem scaleRebuildStart_of_ne_one (d : Dev) {v : Nat} (hv : v ≠ 1) :
    scaleRebuildStart d v = send d (.status 0x5023 0 0) := by
  simp [scaleRebuildStart, hv]

theorem scaleRebuildStart_of_running {d : Dev} (h : d.seq.job = .running ∨ d.seq.job = .stopping) :
    scaleRebuildStart d 1 = { send d (.status 0x5023 0 0) with sup := { d.sup with rebuildPending := true } } := by
  simp [scaleRebuildStart, h]

theorem scaleRebuildStart_of_idle {d : Dev} (h : d.seq.job = .idle) :
    scaleRebuildStart d 1 = enterRebuild (send d (.status 0x5023 0 0)) true := by
  simp [scaleRebuildStart, h]

/-! ### COUNTER_CLEAR (R66, R137) -/

/-- The device without the values of the objects of `l` and without what the health monitor saw of them. -/
def clearObjs (d : Dev) (l : List Nat) : Dev :=
  { d with
    objs := d.objs.filter (fun e => !l.contains (e.1 / 256))
    hm := { d.hm with last := d.hm.last.filter (fun e => !l.contains (e.1 / 256)) } }

theorem clearObj_eq (d : Dev) (i : Nat) : clearObj d i = clearObjs d [i] := by
  have hne (k : Nat) : decide (k < i ∨ i < k) = !(k == i) := by
    rw [beq_eq_decide, ← decide_not, decide_eq_decide, lt_or_lt_iff_ne]
  simp only [clearObj, forgetCounts, clearObjs, hne, bne, List.contains_cons, List.contains_nil, Bool.or_false]

theorem clearObjs_clearObjs (d : Dev) (l k : List Nat) : clearObjs (clearObjs d l) k = clearObjs d (l ++ k) := by
  simp [clearObjs, List.filter_filter, Bool.and_comm]

/-- Clearing objects one after another clears them all. -/
theorem foldl_clearObj (l : List Nat) (d : Dev) : l.foldl clearObj d = clearObjs d l := by
  induction l generalizing d with
  | nil => simp [clearObjs]
  | cons i l ih => rw [List.foldl_cons, ih, clearObj_eq, clearObjs_clearObjs, List.singleton_append]

theorem tfind_eq_none_of_notMem {α : Type} {t : Tab α} {k : Nat} (h : ∀ e ∈ t, e.1 ≠ k) : tfind t k = none := by
  induction t with
  | nil => rfl
  | cons e t ih =>
    rw [List.forall_mem_cons] at h
    rw [tfind, if_neg h.1, ih h.2]

theorem cfg_clearObjs_of_mem (d : Dev) {l : List Nat} {j r : Nat} (hj : j ∈ l) (hr : r < 256) :
    cfg (clearObjs d l) j r = objDefault j r := by
  have hnone : tfind (clearObjs d l).objs (okey j r) = none := by
    refine tfind_eq_none_of_notMem fun e he hkey => ?_
    have hkept := (List.mem_filter.mp he).2
    rw [hkey, show okey j r / 256 = j by unfold okey; omega] at hkept
    simp [hj] at hkept
  rw [cfg, tget, hnone, Option.getD_none]

theorem counterClear_of_one (d : Dev) {i code : Nat} {l : List Nat} (h : clearList i = some (l, code)) :
    counterClear d i 1 =
      send (if code = 0 then clearObjs d l else raise (clearObjs d l) code 0 0) (.status i 0 0) := by
  simp only [counterClear, h, if_true, true_and, foldl_clearObj, ite_not]

theorem counterClear_of_ne_one (d : Dev) {i v : Nat} {l : List Nat × Nat} (h : clearList i = some l) (hv : v ≠ 1) :
    counterClear d i v = send d (.status i 0 0) := by
  simp [counterClear, h, hv]

/-- Settles O4: each clause is the lemma on its command, with the units acting and the command object served. That the swap
waits for both engines is the model's reading of R104 (log 16), and that the clear of 0x5070 raises no event its choice
(log 72, the case `code = 0`). -/
theorem ledgerCommands : Obligations.LedgerCommands := by
  refine ⟨?folded, ?late, ?swaps, ?swapWaits, ?rebuildPending, ?rebuildNow, ?rebuildIgnored, ?clears, ?clearIgnored⟩
  case folded =>
    intro s e f n v hact hstep hopen hue
    exact exec_conversionReport_open hact hstep hopen hue v f
  case late =>
    intro s e f n v hact hclosed
    rw [exec_conversionReport, onUnit_acting _ _ hact, conversionReport, if_pos hclosed]
  case swaps =>
    intro s hact hdone
    rw [exec_scaleTableSwap, onUnit_acting _ _ hact, scaleTableSwap, if_pos hdone]
  case swapWaits =>
    intro s hact hdone
    rw [exec_scaleTableSwap, onUnit_acting _ _ hact, scaleTableSwap, if_neg hdone]
  case rebuildPending =>
    intro s ⟨hact, hserved⟩ hjob
    rw [exec_scaleRebuildStart, onObject_served _ _ _ _ hact hserved, scaleRebuildStart_of_running hjob]
  case rebuildNow =>
    intro s ⟨hact, hserved⟩ hjob
    obtain ⟨u, hu, henter⟩ := enterRebuild_eq (send s.dev (.status 0x5023 0 0)) true
    rw [exec_scaleRebuildStart, onObject_served _ _ _ _ hact hserved, scaleRebuildStart_of_idle hjob, henter]
    refine ⟨_, rfl, ?_, raise_logged _ _ _ _, by simp [hu], by simp, by simp⟩
    rw [cfg_raise_idx _ _ _ _ _ _ (by decide) (by decide), cfg_setObj_same, cfg_send]
  case rebuildIgnored =>
    intro s v ⟨hact, hserved⟩ hv
    rw [exec_scaleRebuildStart, onObject_served _ _ _ _ hact hserved, scaleRebuildStart_of_ne_one _ hv]
  case clears =>
    intro s i code l ⟨hact, hserved⟩ hl
    refine ⟨fun j r hj hr => cfg_clearObjs_of_mem s.dev hj hr, ?_⟩
    rw [exec_counterClear, onObject_served _ _ _ _ hact hserved, counterClear_of_one _ hl]
    rfl
  case clearIgnored =>
    intro s i v l ⟨hact, hserved⟩ hl hv
    rw [exec_counterClear, onObject_served _ _ _ _ hact hserved, counterClear_of_ne_one _ hl hv]

end Sys2Proof.Machine

/-! Vector chains (chapters 05 and 06): when a pass may run, what stops it before its first stage, what it leaves once it has
run, and the chain's write semaphores and document table. -/

namespace Sys2Proof.Machine

/-! ### The pass a VC_PASS runs (R148, R162) -/

/-- The configuration word of a pass. -/
def passWord (d : Dev) (c : Nat) (p : Pass) : Nat := tget configReset (vcAt d c).config p.slot

/-- The join block of a pass, once one is open. -/
def passJoin (d : Dev) (c : Nat) (p : Pass) : Option PortBlock :=
  if cwJen (passWord d c p) then (vcAt d c).joins.head? else none

/-- `p` is the oldest pass of lane group `src`; its tile or block has come, and its context is at work. -/
structure PassHere (d : Dev) (c src : Nat) (p : Pass) (i : PassIn) (t : Option Tile) (b : Option PortBlock) : Prop where
  found : (vcAt d c).passes.find? (fun q => q.src == src) = some p
  input : passIng d c (passWord d c p) p = some (i, t, b)
  live : ctxLive (ctxAt d p.ctx) = true

/-- Nothing is missing to judge the pass: its mask slot reads well, its join block is open, its document table is kept. -/
structure PassReady (d : Dev) (c src : Nat) (p : Pass) (i : PassIn) (t : Option Tile) (b : Option PortBlock) : Prop
    extends PassHere d c src p i t b where
  maskGood : p.mask.any (fun k => (vcAt d c).badMasks.contains k) = false
  joinOpen : (configValid (passWord d c p) && cwJen (passWord d c p) && (passJoin d c p).isNone) = false
  docsKept : docNeeded (vcAt d c) p = none

/-- An event other than 0x8701 leaves the fetch engine alone. -/
theorem discardPass_of_ne {code : Nat} (h : code ≠ 0x8701) (d : Dev) (c : Nat) (p : Pass) (join : Option PortBlock)
    (tid : Nat) : discardPass d c code p join tid =
      raiseFault (consumePass d c p join) code c (p.slot * 256 + tid) p.ctx := by
  rw [discardPass, if_neg h]

/-- The groups whose elements a pass leaves out: none outside checked mode (R166). -/
def passGroups (d : Dev) (i : PassIn) (m : Nat) : Nat :=
  if d.sup.checked then m % 2 ^ ceilDiv (i.rows * i.cols) 32 else 0

/-- The bytes of the join block of a pass. -/
def joinBytes (join : Option PortBlock) : List Byte := (join.map (fun x => x.data)).getD []

/-- What ING leaves of an element behind the mask of its pass (R186). -/
def passMasked (d : Dev) (c : Nat) (p : Pass) (i : PassIn) : PassIn :=
  match p.mask with
  | some x => maskIn d p (tget maskReset (vcAt d c).masks x) (vcAt d c).doc.entries i
  | none => i

/-- The device when the stages of a pass begin: its bitmap is read and its wait counted. -/
def passBegun (d : Dev) (c : Nat) (p : Pass) (i : PassIn) (h : Nat) : Dev :=
  bump (bitmapTouch d c p (vcAt d c) i) 0x4022 (c + 1) h

/-- The stages of a pass on what its mask and the matching groups leave of its element. -/
def passStages (d : Dev) (c : Nat) (p : Pass) (i : PassIn) (t : Option Tile) (b : Option PortBlock) (m h : Nat) :
    Bool × Dev :=
  passRun (passBegun d c p i h) c (passWord d c p) p (dropGroups (passGroups d i m) (passMasked d c p i)) t b
    (joinVals (passWord d c p) p.jrec (p.draw + 1) (joinBytes (passJoin d c p)))
    (if p.jrec then recordsOf (joinBytes (passJoin d c p)) else []) h (passGroups d i m)

/-- A pass leaves with its tile or block and its join block, the waiting STOREs are fed, and its mismatched groups raise
their fault. -/
def passLeaves (d : Dev) (c : Nat) (p : Pass) (join : Option PortBlock) (t : Option Tile) (k : Nat) : Dev :=
  passMismatch (resumeStores (consumePass d c p join) c) c p (tileTid t) k

section
variable {d : Dev} {c src : Nat} {p : Pass} {i : PassIn} {t : Option Tile} {b : Option PortBlock}

theorem vcPass_of_input_missing (hfound : (vcAt d c).passes.find? (fun q => q.src == src) = some p)
    (hinput : passIng d c (passWord d c p) p = none) (e : Bool) (m h : Nat) : vcPass d c src e m h = d := by
  rw [passWord] at hinput
  simp only [vcPass, hfound, hinput]

/-- An uncorrectable configuration word discards the pass. -/
theorem PassHere.vcPass_ecc (hp : PassHere d c src p i t b) (m h : Nat) : vcPass d c src true m h =
    raiseFault (consumePass d c p none) 0x8408 c (p.slot * 256 + tileTid t) p.ctx := by
  obtain ⟨hfound, hinput, hlive⟩ := hp
  rw [passWord] at hinput
  simp only [vcPass, hfound, hinput, hlive, Bool.not_true, Bool.false_eq_true, if_false, Bool.true_or, if_true]
  exact discardPass_of_ne (by decide) _ _ _ _ _

/-- A pass whose join block is not open waits. -/
theorem PassHere.vcPass_join_missing (hp : PassHere d c src p i t b)
    (hmask : p.mask.any (fun k => (vcAt d c).badMasks.contains k) = false)
    (hvalid : configValid (passWord d c p) = true) (hjen : cwJen (passWord d c p) = true)
    (hnone : (vcAt d c).joins = []) (m h : Nat) : vcPass d c src false m h = bump d 0x4023 (c + 1) h := by
  obtain ⟨hfound, hinput, hlive⟩ := hp
  rw [passWord] at hinput hvalid hjen
  simp only [vcPass, hfound, hinput, hlive, hmask, hvalid, hjen, hnone, Bool.not_true, Bool.false_eq_true, if_false,
    Bool.or_self, if_true, List.head?_nil, Option.isNone_none, Bool.and_self]

/-- A pass whose document table is neither kept nor on its way has it loaded. -/
theorem PassHere.vcPass_doc_needed (hp : PassHere d c src p i t b)
    (hmask : p.mask.any (fun k => (vcAt d c).badMasks.contains k) = false) (hjen : cwJen (passWord d c p) = false)
    {n : Nat × Nat} (hdoc : docNeeded (vcAt d c) p = some n) (hload : (vcAt d c).doc.loading ≠ some n) (m h : Nat) :
    vcPass d c src false m h = setVc d c { vcAt d c with doc := { (vcAt d c).doc with loading := some n } } := by
  obtain ⟨hfound, hinput, hlive⟩ := hp
  rw [passWord] at hinput hjen
  simp only [vcPass, hfound, hinput, hlive, hmask, hjen, hdoc, hload, Bool.not_true, Bool.false_eq_true, if_false,
    Bool.or_self, Bool.and_false, Bool.false_and]

/-- A pass that fails a check is discarded with the event of that check. -/
theorem PassReady.vcPass_fault (hp : PassReady d c src p i t b) {code : Nat}
    (hfault : passFault d c (passWord d c p) p i (passJoin d c p) = some code) (m h : Nat) :
    vcPass d c src false m h = discardPass d c code p (passJoin d c p) (tileTid t) := by
  obtain ⟨⟨hfound, hinput, hlive⟩, hmask, hjoin, hdoc⟩ := hp
  unfold passWord at hinput
  unfold passJoin passWord at hjoin hfault ⊢
  simp only [vcPass, hfound, hinput, hlive, hmask, hjoin, hdoc, hfault, Bool.not_true, Bool.false_eq_true, if_false,
    Bool.or_self]

/-- A pass that passes its checks and whose join block is full runs its stages; one that has ended leaves. -/
theorem PassReady.vcPass_stages (hp : PassReady d c src p i t b)
    (hfault : passFault d c (passWord d c p) p i (passJoin d c p) = none)
    (hfull : (passJoin d c p).any (fun x => !x.full) = false) (m h : Nat)
    (hlive : ctxLive (ctxAt (passBegun d c p i h) p.ctx) = true) :
    vcPass d c src false m h =
      if (passStages d c p i t b m h).1 then
        passLeaves (passStages d c p i t b m h).2 c p (passJoin d c p) t (passGroups d i m)
      else (passStages d c p i t b m h).2 := by
  obtain ⟨⟨hfound, hinput, hlive0⟩, hmask, hjoin, hdoc⟩ := hp
  unfold passWord at hinput
  unfold passBegun at hlive
  unfold passJoin passWord at hjoin hfault hfull
  simp only [vcPass, hfound, hinput, hlive0, hmask, hjoin, hdoc, hfault, hfull, hlive, Bool.not_true, Bool.false_eq_true,
    if_false, Bool.or_self]
  change (match passStages d c p i t b m h with
    | (true, d2) => passLeaves d2 c p (passJoin d c p) t (passGroups d i m)
    | (false, d2) => d2) = _
  rcases passStages d c p i t b m h with ⟨_ | _, d2⟩ <;> rfl

end

/-! ### A pass of the plain kind: its stages take one step and no held output (R154, R158, R164) -/

/-- A word without a join, a compression, a reduction and scale reports, with its primary output to memory or to the
spawn buffer. -/
structure PlainWord (w : Nat) : Prop where
  noJoin : cwJen w = false
  noCompression : cwCmp w = false
  noReduction : cwRed w = 0
  noTorpor : cwTen w = false
  noScaleReport : cwTsen w = false
  dest : cwDest w ≤ 1

@[simp] theorem joinVals_nil (w : Nat) (jrec : Bool) (draw : Nat) : joinVals w jrec draw [] = [] := by
  have hunpack (f : Fmt) : unpackElems f [] = [] := by simp [unpackElems]
  simp only [joinVals, recordsOf, hunpack, widenAll, List.length_nil, Nat.zero_div, List.range_zero, List.map_nil]
  split
  · rfl
  · split <;> rfl

@[simp] theorem joinOver_nil (w : Nat) (i : PassIn) : joinOver w i [] = false := by
  simp [joinOver]

@[simp] theorem dropGroups_zero (i : PassIn) : dropGroups 0 i = i := by
  rw [dropGroups, if_pos rfl]

/-- What the stages of a plain pass leave: counts, outputs on the port, flags. -/
def plainEnd (d : Dev) (c w : Nat) (p : Pass) (i : PassIn) (t : Option Tile) (k : Nat) : Dev :=
  let d1 := notePass d c w p i t []
  let o := passOutputs d1 w p i (elemsRun d w p i [] []) k
  let fl := orFlags o.2.1 o.2.2
  notePassFlags (putOutputs d1 c p o.1) c { fl with ovf := fl.ovf || decide (0 < overCount i) }

theorem passRun_plain {w : Nat} (hw : PlainWord w) (d : Dev) (c : Nat) (p : Pass) (i : PassIn) (t : Option Tile)
    (b : Option PortBlock) (h k : Nat) : passRun d c w p i t b [] [] h k = (true, plainEnd d c w p i t k) := by
  have hdest : cwDest w ≠ 3 := by have := hw.dest; omega
  simp [passRun, passFinish, passReduce, deliverPieces, plainEnd, hw.noCompression, hw.noReduction, hw.noTorpor,
    hw.noScaleReport, hdest]

section
variable {d : Dev} {c src : Nat} {p : Pass} {i : PassIn} {t : Option Tile} {b : Option PortBlock}

theorem passJoin_of_plain (hw : PlainWord (passWord d c p)) : passJoin d c p = none := by
  simp [passJoin, hw.noJoin]

theorem PassHere.ready_of_plain (hp : PassHere d c src p i t b) (hw : PlainWord (passWord d c p)) (hmask : p.mask = none) :
    PassReady d c src p i t b where
  toPassHere := hp
  maskGood := by simp [hmask]
  joinOpen := by simp [hw.noJoin]
  docsKept := by simp [docNeeded, hmask]

theorem passBegun_of_no_mask (hmask : p.mask = none) (h : Nat) : passBegun d c p i h = bump d 0x4022 (c + 1) h := by
  simp [passBegun, bitmapTouch, hmask]

theorem passStages_plain (hw : PlainWord (passWord d c p)) (hmask : p.mask = none) (hjrec : p.jrec = false) (m h : Nat) :
    passStages d c p i t b m h = (true, plainEnd (bump d 0x4022 (c + 1) h) c (passWord d c p) p
      (dropGroups (passGroups d i m) i) t (passGroups d i m)) := by
  have hmasked : passMasked d c p i = i := by simp [passMasked, hmask]
  have hbytes : joinBytes (passJoin d c p) = [] := by simp [joinBytes, passJoin_of_plain hw]
  simp only [passStages, passBegun_of_no_mask hmask, hmasked, hbytes, hjrec, joinVals_nil, Bool.false_eq_true, if_false,
    passRun_plain hw]

/-- A plain pass without a mask ends at once and leaves. -/
theorem PassHere.vcPass_plain (hp : PassHere d c src p i t b) (hw : PlainWord (passWord d c p)) (hmask : p.mask = none)
    (hjrec : p.jrec = false) (hfault : passFault d c (passWord d c p) p i none = none) (m h : Nat) :
    vcPass d c src false m h = passLeaves (plainEnd (bump d 0x4022 (c + 1) h) c (passWord d c p) p
      (dropGroups (passGroups d i m) i) t (passGroups d i m)) c p none t (passGroups d i m) := by
  have hjoin := passJoin_of_plain hw
  have hlive : ctxLive (ctxAt (passBegun d c p i h) p.ctx) = true := by
    rw [passBegun_of_no_mask hmask, ctxAt_bump, hp.live]
  rw [(hp.ready_of_plain hw hmask).vcPass_stages (hjoin ▸ hfault) (by rw [hjoin]; rfl) m h hlive,
    passStages_plain hw hmask hjrec, if_pos rfl, hjoin]

end

theorem passLeaves_zero (d : Dev) (c : Nat) (p : Pass) (join : Option PortBlock) (t : Option Tile) :
    passLeaves d c p join t 0 = resumeStores (consumePass d c p join) c := by
  rw [passLeaves, passMismatch, if_pos rfl]

/-- Mismatched groups are counted, and 0x8402 stops the context. -/
theorem passLeaves_of_ne {k : Nat} (hk : k ≠ 0) (d : Dev) (c : Nat) (p : Pass) (join : Option PortBlock)
    (t : Option Tile) : passLeaves d c p join t k =
      raiseFault (bump (resumeStores (consumePass d c p join) c) 0x4029 (c + 1) (popCount 256 k)) 0x8402 c
        (p.slot * 256 + tileTid t) p.ctx := by
  rw [passLeaves, passMismatch, if_neg hk]

theorem exec_vcPass_acting {s : State} (hact : ClustersActing s) (c src : Nat) (e : Bool) (m h : Nat) :
    exec (.vcPass c src e m h) s = after s (vcPass s.dev c src e m h) := by
  rw [exec_vcPass, onCluster_acting _ _ hact]

/-- Settles O6: each clause is the lemma on the pass it is about, with the clusters acting; a plain pass ends at once
(`PassHere.vcPass_plain`), with no group left out outside checked mode. That an element's mismatched groups are groups of 32
in row-major order, are not live and store no bytes is the model's reading of R166 (log 47). -/
theorem vectorChainCommands : Obligations.VectorChainCommands := by
  refine ⟨?plain, ?mismatched, ?uncorrectable, ?refused, ?anyKind, ?noJoinBlock, ?noDocTable, ?notCome, ?owed, ?noneOwed,
    ?docLoaded, ?noDocLoading⟩
  case plain =>
    intro s c src m h p i t b hact hfound w hinput hlive _ hjen hmask hjrec _ hfault hchecked hcmp hred hten htsen hdest
    have hp : PassHere s.dev c src p i t b := ⟨hfound, hinput, hlive⟩
    have hk : passGroups s.dev i m = 0 := by simp [passGroups, hchecked]
    rw [exec_vcPass_acting hact, hp.vcPass_plain ⟨hjen, hcmp, hred, hten, htsen, hdest⟩ hmask hjrec hfault, hk,
      passLeaves_zero, dropGroups_zero]
    rfl
  case mismatched =>
    intro s c src m h p i t b hact hfound w hinput hlive _ hjen hmask hjrec _ hfault hchecked hcmp hred hten htsen hdest k hk
    have hp : PassHere s.dev c src p i t b := ⟨hfound, hinput, hlive⟩
    have hgroups : passGroups s.dev i m = k := by simp [passGroups, hchecked, k]
    rw [exec_vcPass_acting hact, hp.vcPass_plain ⟨hjen, hcmp, hred, hten, htsen, hdest⟩ hmask hjrec hfault, hgroups,
      passLeaves_of_ne hk]
    rfl
  case uncorrectable =>
    intro s c src m h p i t b hact hfound hinput hlive
    have hp : PassHere s.dev c src p i t b := ⟨hfound, hinput, hlive⟩
    rw [exec_vcPass_acting hact, hp.vcPass_ecc]
  case refused =>
    intro s c src m h code p i t b hact hfound w join hinput hlive hmask hjoin hdoc hfault
    have hp : PassReady s.dev c src p i t b := ⟨⟨hfound, hinput, hlive⟩, hmask, hjoin, hdoc⟩
    rw [exec_vcPass_acting hact, hp.vcPass_fault hfault]
    rfl
  case anyKind =>
    intro s c src m h p i t b hact hfound v w join hinput hlive hmask hjoin hdoc hfault hfull k jb j d1 r hlive1
    have hp : PassReady s.dev c src p i t b := ⟨⟨hfound, hinput, hlive⟩, hmask, hjoin, hdoc⟩
    have hr : passStages s.dev c p i t b m h = r := rfl
    rw [exec_vcPass_acting hact, hp.vcPass_stages hfault hfull m h hlive1, hr]
    exact ⟨fun hend => by rw [if_pos hend]; rfl, fun hopen => by rw [hopen]; rfl⟩
  case noJoinBlock =>
    intro s c src m h p i t b hact hfound w hinput hlive hmask hvalid hjen hnone
    have hp : PassHere s.dev c src p i t b := ⟨hfound, hinput, hlive⟩
    rw [exec_vcPass_acting hact, hp.vcPass_join_missing hmask hvalid hjen hnone]
  case noDocTable =>
    intro s c src m h p i t b n hact hfound w hinput hlive hmask hjen hdoc hload
    have hp : PassHere s.dev c src p i t b := ⟨hfound, hinput, hlive⟩
    rw [exec_vcPass_acting hact, hp.vcPass_doc_needed hmask hjen hdoc hload]
  case notCome =>
    intro s c src m h e p hact hfound hinput
    rw [exec_vcPass_acting hact, vcPass_of_input_missing hfound hinput]
  case owed =>
    intro s c src o hact hfound
    rw [exec_writeSemaphoreSignal, onCluster_acting _ _ hact]
    simp only [writeSemaphoreSignal, hfound]
  case noneOwed =>
    intro s c src hact hnone
    rw [exec_writeSemaphoreSignal, onCluster_acting _ _ hact]
    simp only [writeSemaphoreSignal, hnone]
  case docLoaded =>
    intro s c a n hact hloading
    rw [exec_docTableLoaded, onCluster_acting _ _ hact]
    simp only [docTableLoaded, hloading]
  case noDocLoading =>
    intro s c hact hnone
    rw [exec_docTableLoaded, onCluster_acting _ _ hact]
    simp only [docTableLoaded, hnone]

end Sys2Proof.Machine

/-! Memory tiers (chapter 07): what a write of device memory leaves in it, and the commands of translation, its invalidates and
the fault queue. -/

namespace Sys2Proof.Machine

/-! ### A write of device memory (R195, R206, R214) -/

theorem memRead_memWrite_same {m : Mem} (hf : FillsOk m) (hwf : Mem.wf m = true) (a : Nat) (bs : List Byte) :
    memRead (memWrite m a bs) a bs.length = bs := by
  refine List.ext_getElem (by simp [memRead]) fun i _ hi => ?_
  have hin : a ≤ a + i ∧ a + i < a + bs.length := by omega
  simp [memRead, memByte_write m a bs (a + i) hf hwf, hin, hi]

theorem memByte_memWrite_outside {m : Mem} (hf : FillsOk m) (hwf : Mem.wf m = true) {a b : Nat} {bs : List Byte}
    (hb : b < a ∨ a + bs.length ≤ b) : memByte (memWrite m a bs) b = memByte m b := by
  rw [memByte_write m a bs b hf hwf, if_neg (by omega)]

/-- A write ends the uncorrectable words that it covers whole and no other (R195). -/
theorem mem_ue_memWrite {m : Mem} {a w : Nat} {bs : List Byte} :
    w ∈ (memWrite m a bs).ue ↔ w ∈ m.ue ∧ ¬(a ≤ w ∧ w + 4 ≤ a + bs.length) := by
  simp only [memWrite, wordWhole, List.mem_filter, Bool.not_eq_true', decide_eq_false_iff_not]

theorem reset_fillsOk : FillsOk State.reset.dev.mem := fun _ hf => absurd hf List.not_mem_nil

/-- Settles O59: `memByte_write` says how every byte reads after a write, `memWrite_wf` and `memWrite_fillsOk` that both
premises hold again, `mem_ue_memWrite` which words stay uncorrectable. -/
theorem memoryHoldsWhatIsWritten : Obligations.MemoryHoldsWhatIsWritten := by
  refine ⟨fun m a bs ⟨hwf, hf⟩ => ⟨?readBack, ?frame, ?form, ?words⟩, reset_mem_wf, reset_fillsOk⟩
  case readBack => exact memRead_memWrite_same hf hwf a bs
  case frame => exact fun _ hb => memByte_memWrite_outside hf hwf hb
  case form => exact ⟨memWrite_wf m a bs hwf, memWrite_fillsOk m a bs hf⟩
  case words => exact fun _ => mem_ue_memWrite

/-! ### Invalidates (R219, R220) -/

theorem onObject_serving {s : State} {idx sub : Nat} (h : Serving s idx sub) (f : Dev → Dev) :
    onObject s.dev idx sub f = f s.dev := onObject_served _ _ _ f h.1 h.2

/-- A cached translation overlaps a range that an invalidate in progress names. -/
def invalidates (d : Dev) (c : Cached) : Bool := d.mem.invalidating.any (fun r => overlaps r.1 r.2 c.base c.size)

/-- The device without the cached translations that invalidates in progress name. -/
def dropCached (d : Dev) : Dev :=
  { d with mem := { d.mem with tlb := d.mem.tlb.map (fun e => (e.1, e.2.filter (fun c => !invalidates d c))) } }

theorem overlaps_of_mem_dropCached {d : Dev} {e : Nat × List Cached} {c : Cached} {r : Nat × Nat}
    (he : e ∈ (dropCached d).mem.tlb) (hc : c ∈ e.2) (hr : r ∈ d.mem.invalidating) :
    overlaps r.1 r.2 c.base c.size = false := by
  obtain ⟨e', -, rfl⟩ := List.mem_map.1 he
  have hkept : invalidates d c = false := by simpa using (List.mem_filter.1 hc).2
  simpa using List.any_eq_false.1 hkept r hr

/-- While an access made with a translation to be dropped is out, the invalidates do not complete. -/
theorem xlatInvalidateDone_of_busy {d : Dev} (hne : d.mem.invalidating ≠ [])
    (hbusy : d.mem.invalidating.any (fun r => windowBusy d r.1 r.2) = true) : xlatInvalidateDone d = dropCached d := by
  rw [xlatInvalidateDone, if_neg (by simpa using hne)]
  exact if_pos hbusy

theorem xlatInvalidateDone_of_quiet {d : Dev} (hne : d.mem.invalidating ≠ [])
    (hquiet : d.mem.invalidating.any (fun r => windowBusy d r.1 r.2) = false) :
    xlatInvalidateDone d =
      send { dropCached d with mem := { (dropCached d).mem with invalidating := [] } } (.done 0x8033 0 0) := by
  rw [xlatInvalidateDone, if_neg (by simpa using hne)]
  exact if_neg (by simp [hquiet])

/-! ### Resume and fail (R226, R268) -/

@[simp] theorem feAt_freeRow (d : Dev) (r f : Nat) : feAt (freeRow d r) f = feAt d f := rfl

section
variable {d : Dev} {fid r : Nat} {x : FaultRec}

theorem xlatResume_of_unknown (h : faultRow d fid = none) : xlatResume d fid = send d (.status 0x8035 0 0) := by
  simp only [xlatResume, h]

theorem xlatResume_of_active {a : FdActive} (h : faultRow d fid = some (r, x))
    (ha : (feAt d x.fe).active.find? (fun a => a.fault && a.fid == fid) = some a) :
    xlatResume d fid = resumeActive (freeRow (send d (.status 0x8035 0 0)) r) x.fe a := by
  simp only [xlatResume, h, feAt_freeRow, feAt_send, ha]

theorem xlatResume_of_record {y : RecWrite} (h : faultRow d fid = some (r, x))
    (hnone : (feAt d x.fe).active.find? (fun a => a.fault && a.fid == fid) = none)
    (hy : (feAt d x.fe).recs.find? (fun y => y.fid == fid) = some y) :
    xlatResume d fid = putRecord (dropRecord (freeRow (send d (.status 0x8035 0 0)) r) x.fe fid)
      x.fe y.ctx y.task y.jaddr y.bytes := by
  simp only [xlatResume, h, feAt_freeRow, feAt_send, hnone, hy]

/-- A descriptor with data left and no host window write to make again runs on from its restart point. -/
theorem resumeActive_of_unmoved {a : FdActive} (hredo : a.redo = []) (hmoved : a.moved = false) (d : Dev) (f : Nat) :
    resumeActive d f a = runActive d f a := by
  simp [resumeActive, hredo, hmoved]

theorem xlatFail_of_unknown (h : faultRow d fid = none) : xlatFail d fid = send d (.status 0x8036 0 0) := by
  simp only [xlatFail, h]

/-- The device after an engine has ended, without signal, the descriptor that holds a FID, and the signals that it alone held
back have been raised. -/
def endFaulted (d : Dev) (f fid : Nat) : Dev :=
  [0, 1, 2, 3].foldl (fun y q => releaseSignals y f q)
    (setFe d f { feAt d f with active := (feAt d f).active.filter (fun a => !(a.fault && a.fid == fid)) })

theorem xlatFail_of_row (h : faultRow d fid = some (r, x)) :
    xlatFail d fid = raiseFault (endFaulted (dropRecord (freeRow (send d (.status 0x8036 0 0)) r) x.fe fid) x.fe fid)
      0x8823 x.fe fid x.ctx := by
  simp only [xlatFail, h]
  rfl

end

/-! ### A free slot of the fault queue (R223 to R225) -/

/-- A posted record stands in its row with the next FID, and beside the row and the FID memory is as before. -/
theorem postFault_mem (d : Dev) (r : Nat) (x : FaultRec) :
    (postFault d r x).2.mem = { d.mem with
      faults := tset d.mem.faults r { x with fid := d.mem.nextFid }, nextFid := fidAfter d.mem.nextFid } := by
  simp [postFault]

theorem postFault_fid (d : Dev) (r : Nat) (x : FaultRec) : (postFault d r x).1 = d.mem.nextFid := rfl

@[simp] theorem feAt_postFault (d : Dev) (r : Nat) (x : FaultRec) (f : Nat) : feAt (postFault d r x).2 f = feAt d f := by
  simp only [postFault, feAt_raise, feAt_bump]
  rfl

/-- An active descriptor with the FID that the posted record got, when the record is its own. -/
def giveFid (x : FaultRec) (fid : Nat) (a : FdActive) : FdActive :=
  if a.seq = x.item ∧ a.fault then { a with fid := fid } else a

theorem feAt_withSeq (d : Dev) (q : Seq) (f : Nat) : feAt { d with seq := q } f = feAt d f := rfl

theorem feAt_withMem (d : Dev) (m : Mem) (f : Nat) : feAt { d with mem := m } f = feAt d f := rfl

/-- The record an engine holds goes from the held ones to its row, and its own transfer gets the FID. -/
theorem faultQueueSlotFree_of_held {d : Dev} {f r : Nat} {x : FaultRec}
    (hheld : d.mem.faultHold.find? (fun x => x.fe == f) = some x) (hrow : freeFaultRow d = some r) (w : Nat) :
    (faultQueueSlotFree d f w).mem = { d.mem with
        faultHold := d.mem.faultHold.erase x, faults := tset d.mem.faults r { x with fid := d.mem.nextFid }
        nextFid := fidAfter d.mem.nextFid } ∧
      (feAt (faultQueueSlotFree d f w) f).active = (feAt d f).active.map (giveFid x d.mem.nextFid) := by
  simp only [faultQueueSlotFree, hheld, hrow]
  constructor
  · simp only [setFe_mem, postFault_mem, bump_mem]
  · simp only [feAt_withSeq, feAt_setFe_same, postFault_fid, feAt_postFault, bump_mem, feAt_bump, feAt_withMem]
    rfl

/-- Settles O10, each clause by the lemma of its case: an invalidate with or without an access out, a FID of an active
descriptor, of a record or of none, a held record and a free row. -/
theorem translationFaultCommands : Obligations.TranslationFaultCommands := by
  refine ⟨?invalidate, ?invalidateDone, ?resumeActive, ?resumeRecord, ?resumeUnknown, ?fail, ?failUnknown, ?slotFree⟩
  case invalidate =>
    intro s a n hs
    rw [exec_xlatInvalidate, onObject_serving hs]
    rfl
  case invalidateDone =>
    intro s hact hne
    refine ⟨xlatInvalidateDone s.dev, by rw [exec_xlatInvalidateDone, onUnit_acting _ _ hact], ?_⟩
    cases hbusy : s.dev.mem.invalidating.any (fun r => windowBusy s.dev r.1 r.2) with
    | true =>
      rw [xlatInvalidateDone_of_busy hne hbusy]
      exact ⟨rfl, nofun, fun _ => ⟨rfl, rfl⟩, fun _ he _ hc _ hr => overlaps_of_mem_dropCached he hc hr⟩
    | false =>
      rw [xlatInvalidateDone_of_quiet hne hbusy]
      exact ⟨rfl, fun _ => ⟨rfl, rfl⟩, nofun, fun _ he _ hc _ hr => overlaps_of_mem_dropCached he hc hr⟩
  case resumeActive =>
    intro s fid r x a hs hrow ha hredo hmoved
    rw [exec_xlatResume, onObject_serving hs, xlatResume_of_active hrow ha, resumeActive_of_unmoved hredo hmoved]
  case resumeRecord =>
    intro s fid r x y hs hrow hnone hy
    rw [exec_xlatResume, onObject_serving hs, xlatResume_of_record hrow hnone hy]
  case resumeUnknown =>
    intro s fid hs hrow
    rw [exec_xlatResume, onObject_serving hs, xlatResume_of_unknown hrow]
  case fail =>
    intro s fid r x hs hrow
    rw [exec_xlatFail, onObject_serving hs, xlatFail_of_row hrow]
    rfl
  case failUnknown =>
    intro s fid hs hrow
    rw [exec_xlatFail, onObject_serving hs, xlatFail_of_unknown hrow]
  case slotFree =>
    intro s f w r x hact hheld hrow
    obtain ⟨hmem, hactive⟩ := faultQueueSlotFree_of_held hheld hrow w
    refine ⟨faultQueueSlotFree s.dev f w, by rw [exec_faultQueueSlotFree, onCluster_acting _ _ hact], ?_, ?_, ?_, hactive, ?_⟩
    · rw [hmem, tfind_tset_same]
    all_goals rw [hmem]

end Sys2Proof.Machine

/-! Fetch engines and the semaphore bank (chapter 08): what the head of a descriptor queue does, how a transfer ends, what
signals and waits leave in the bank, and what a COPY leaves in memory. -/

namespace Sys2Proof.Machine

/-! ### The head of a descriptor queue (R236, R240 to R243, R246, R261) -/

section
variable {s : State} {f q : Nat} {x : FdEntry} {l : List FdEntry} {ops : List Nat} {go : FdActive → Dev → Dev}

/-- A started, readable, valid head that no limit holds back tries its wait: it becomes active and runs, or stays queued. -/
theorem headActivate_of_head (h : FdHead s f q x l) (hop : ops.contains (fdOp x.desc) = true)
    (hload : fdOp x.desc = 1 → (loadTus f x.desc).any (replayHeld s.dev f) = false)
    (hsrc : fdOp x.desc = 3 → (nextSrcBits (vcAt s.dev f)).any (fun b => !srcFits x.desc b) = false) :
    headActivate s.dev f q ops go =
      if (fdWait s.dev f q x).1 then go (activate (fdWait s.dev f q x).2 f q x).1 (activate (fdWait s.dev f q x).2 f q x).2
      else (fdWait s.dev f q x).2 := by
  obtain ⟨hq, hdead, hbad, hvalid, hmay⟩ := h
  have hfits : (fdOp x.desc == 3 && (nextSrcBits (vcAt s.dev f)).any (fun b => !srcFits x.desc b)) = false := by
    by_cases h3 : fdOp x.desc = 3
    · rw [hsrc h3, Bool.and_false]
    · simp [h3]
  have hfree : (q == 1 && fdOp x.desc == 1 && (loadTus f x.desc).any (replayHeld s.dev f)) = false := by
    by_cases h1 : fdOp x.desc = 1
    · rw [hload h1, Bool.and_false]
    · simp [h1]
  simp only [headActivate, hq, hop, hdead, hbad, hvalid, hfits, hmay, hfree]
  rfl

theorem headActivate_of_next {d : Dev} (h : FdNext s f q x l d) (hop : ops.contains (fdOp x.desc) = true)
    (hload : fdOp x.desc = 1 → (loadTus f x.desc).any (replayHeld s.dev f) = false)
    (hsrc : fdOp x.desc = 3 → (nextSrcBits (vcAt s.dev f)).any (fun b => !srcFits x.desc b) = false) :
    headActivate s.dev f q ops go = go (activate d f q x).1 (activate d f q x).2 := by
  rw [headActivate_of_head h.1 hop hload hsrc, h.2, if_pos rfl]

theorem headActivate_of_blocked {d : Dev} (h : FdHead s f q x l) (hwait : fdWait s.dev f q x = (false, d))
    (hop : ops.contains (fdOp x.desc) = true)
    (hload : fdOp x.desc = 1 → (loadTus f x.desc).any (replayHeld s.dev f) = false)
    (hsrc : fdOp x.desc = 3 → (nextSrcBits (vcAt s.dev f)).any (fun b => !srcFits x.desc b) = false) :
    headActivate s.dev f q ops go = d := by
  rw [headActivate_of_head h hop hload hsrc, hwait, if_neg (by simp)]

/-- A LOAD waits for the reloads of a TU it names (R246). -/
theorem headActivate_of_replayHeld (h : FdHead s f 1 x l) (hop : fdOp x.desc = 1)
    (hheld : (loadTus f x.desc).any (replayHeld s.dev f) = true) : headActivate s.dev f 1 [1] go = s.dev := by
  obtain ⟨hq, hdead, hbad, hvalid, hmay⟩ := h
  simp only [headActivate, hq, hop, hdead, hbad, hvalid, hmay, hheld]
  rfl

/-- A SRC that gives more than the pass that takes it holds is discarded as invalid (R282). -/
theorem headActivate_of_oversized (h : FdHead s f q x l) (hop : fdOp x.desc = 3)
    (hsize : (nextSrcBits (vcAt s.dev f)).any (fun b => !srcFits x.desc b) = true) :
    headActivate s.dev f q [3] go = fdInvalid s.dev f q x := by
  obtain ⟨hq, hdead, hbad, hvalid, -⟩ := h
  simp only [headActivate, hq, hop, hdead, hbad, hvalid, hsize]
  rfl

theorem headActivate_of_invalid (hq : tget [] (feAt s.dev f).queues q = x :: l)
    (hdead : (feAt s.dev f).dead.contains x.ctx = false) (hop : ops.contains (fdOp x.desc) = true) (hbad : x.bad = false)
    (hinvalid : fdValid x.desc x.reload.isSome = false) : headActivate s.dev f q ops go = fdInvalid s.dev f q x := by
  simp only [headActivate, hq, hop, hdead, hbad, hinvalid]
  rfl

theorem headActivate_of_bad (hq : tget [] (feAt s.dev f).queues q = x :: l)
    (hdead : (feAt s.dev f).dead.contains x.ctx = false) (hop : ops.contains (fdOp x.desc) = true) (hbad : x.bad = true) :
    headActivate s.dev f q ops go = fdBad s.dev f q x := by
  simp only [headActivate, hq, hop, hdead, hbad]
  rfl

/-- The head of the reload queue runs the recorded LOAD into its TU (R110, R246). -/
theorem fdLoadReload_of_head {r : Reload} (hq : tget [] (feAt s.dev f).queues 0 = x :: l) (hmay : mayTry s.dev f = true)
    (hbad : x.bad = false) (hr : x.reload = some r) :
    fdLoadReload s.dev f = runActive (activate s.dev f 0 { x with desc := reloadDesc x.desc x.tu }).2 f
      (activate s.dev f 0 { x with desc := reloadDesc x.desc x.tu }).1 := by
  simp [fdLoadReload, hq, hmay, hbad, hr]

/-- Each command of `fdCommands` is the head of its queue trying to become active, for its OP. -/
theorem exec_fdCommand {c : Instr} {op : Nat} (hact : ClustersActing s) (hc : (c, q, op) ∈ fdCommands f) :
    ∃ go, exec c s = after s (headActivate s.dev f q [op] go) := by
  simp only [fdCommands, List.mem_cons, Prod.mk.injEq, List.not_mem_nil, or_false] at hc
  obtain ⟨rfl, rfl, rfl⟩ | ⟨rfl, rfl, rfl⟩ | ⟨rfl, rfl, rfl⟩ | ⟨rfl, rfl, rfl⟩ | ⟨rfl, rfl, rfl⟩ | ⟨rfl, rfl, rfl⟩ := hc
  · exact ⟨_, by rw [exec_fdNop, onCluster_acting _ _ hact, fdNop]⟩
  · exact ⟨_, by rw [exec_fdLoad, onCluster_acting _ _ hact, fdLoad, if_neg (by simp), fdLoadOperand]⟩
  · exact ⟨_, by rw [exec_fdJoin, onCluster_acting _ _ hact, fdJoin]⟩
  · exact ⟨_, by rw [exec_fdSrc, onCluster_acting _ _ hact, fdSrc]⟩
  · exact ⟨_, by rw [exec_fdStore, onCluster_acting _ _ hact, fdStore]⟩
  · exact ⟨_, by rw [exec_fdCopy, onCluster_acting _ _ hact, fdCopy]⟩

end

/-- Settles O7: each clause is the lemma on what the head of the queue is, with the clusters acting. That a descriptor whose
queue word is uncorrectable is lost is the model's choice (log 88). -/
theorem descriptorsBecomeActive : Obligations.DescriptorsBecomeActive := by
  refine ⟨?nop, ?load, ?loadHeld, ?reload, ?join, ?src, ?srcOversized, ?store, ?copy, ?blocked, ?invalid, ?bad⟩
  case nop =>
    intro s f x l d hact h hop
    rw [exec_fdNop, onCluster_acting _ _ hact, fdNop,
      headActivate_of_next h (by simp [hop]) (by simp [hop]) (by simp [hop])]
  case load =>
    intro s f x l d hact h hop hfree
    rw [exec_fdLoad, onCluster_acting _ _ hact, fdLoad, if_neg (by simp), fdLoadOperand,
      headActivate_of_next h (by simp [hop]) (fun _ => hfree) (by simp [hop])]
  case loadHeld =>
    intro s f x l hact h hop hheld
    rw [exec_fdLoad, onCluster_acting _ _ hact, fdLoad, if_neg (by simp), fdLoadOperand,
      headActivate_of_replayHeld h hop hheld]
  case reload =>
    intro s f x r l hact hq hmay hbad hr b
    rw [exec_fdLoad, onCluster_acting _ _ hact, fdLoad, if_pos rfl, fdLoadReload_of_head hq hmay hbad hr]
  case join =>
    intro s f x l d hact h hop b
    rw [exec_fdJoin, onCluster_acting _ _ hact, fdJoin,
      headActivate_of_next h (by simp [hop]) (by simp [hop]) (by simp [hop])]
  case src =>
    intro s f x l d hact h hop hfits b
    rw [exec_fdSrc, onCluster_acting _ _ hact, fdSrc,
      headActivate_of_next h (by simp [hop]) (by simp [hop]) (fun _ => hfits)]
  case srcOversized =>
    intro s f x l hact h hop hsize
    rw [exec_fdSrc, onCluster_acting _ _ hact, fdSrc, headActivate_of_oversized h hop hsize]
  case store =>
    intro s f x l d hact h hop
    rw [exec_fdStore, onCluster_acting _ _ hact, fdStore,
      headActivate_of_next h (by simp [hop]) (by simp [hop]) (by simp [hop])]
  case copy =>
    intro s f x l d hact h hop
    rw [exec_fdCopy, onCluster_acting _ _ hact, fdCopy,
      headActivate_of_next h (by simp [hop]) (by simp [hop]) (by simp [hop])]
  case blocked =>
    intro s f q c x l d hact h hc hwait hload hsrc
    obtain ⟨go, hexec⟩ := exec_fdCommand hact hc
    rw [hexec, headActivate_of_blocked h hwait (by simp) hload hsrc]
  case invalid =>
    intro s f q c x l hact hc hq hdead hbad hinvalid
    obtain ⟨go, hexec⟩ := exec_fdCommand hact hc
    rw [hexec, headActivate_of_invalid hq hdead (by simp) hbad hinvalid]
  case bad =>
    intro s f q c x l hact hc hq hdead hbad
    obtain ⟨go, hexec⟩ := exec_fdCommand hact hc
    rw [hexec, headActivate_of_bad hq hdead (by simp) hbad]

end Sys2Proof.Machine

namespace Sys2Proof.Machine

/-! ### Ends of transfers (R206, R244, R245, R264, R269, R722) -/

@[simp] theorem setFe_setFe (d : Dev) (f : Nat) (a b : Fe) : setFe (setFe d f a) f b = setFe d f b := by
  simp [setFe]

section
variable {d : Dev} {f : Nat}

theorem descriptorComplete_of_moved {q : Nat} {a : FdActive}
    (h : (activeOf (feAt d f) q).find? (fun a => a.moved && !a.sigheld && !hostPending d f a.seq) = some a) :
    descriptorComplete d f q = completeActive d f a := by
  simp only [descriptorComplete, h]

theorem descriptorComplete_of_none {q : Nat}
    (h : (activeOf (feAt d f) q).find? (fun a => a.moved && !a.sigheld && !hostPending d f a.seq) = none) :
    descriptorComplete d f q = d := by
  simp only [descriptorComplete, h]

/-- A valid DRAIN at the head of all four queues leaves them and begins to wait. -/
theorem fdDrain_of_heads {a b c x : FdEntry} (hidle : (feAt d f).draining = none)
    (hheads : [0, 1, 2, 3].map (fun q => (tget [] (feAt d f).queues q).head?) = [some a, some b, some c, some x])
    (ha : fdOp a.desc = 6) (hb : fdOp b.desc = 6) (hc : fdOp c.desc = 6) (hx : fdOp x.desc = 6) (hr : a.reload = none)
    (hvalid : fdValid a.desc false = true) :
    fdDrain d f = setFe d f { feAt d f with
      draining := some a, queues := (feAt d f).queues.map (fun q => (q.1, q.2.tail)) } := by
  simp only [fdDrain, hheads, hidle, ha, hb, hc, hx, hr, hvalid]
  rfl

theorem drainSignal_of_none (h : (feAt d f).drainWait = []) : drainSignal d f = d := by
  simp only [drainSignal, h]

/-- The oldest completed DRAIN whose wait succeeds signals. -/
theorem drainSignal_of_taken {e : Dev} {x : FdEntry} {l : List FdEntry} (h : (feAt d f).drainWait = x :: l)
    (htake : semTake d f (fdEmptys x.desc) (headReq 4) (fld x.desc 709 706 + 1) = (true, e)) :
    drainSignal d f = semSignal (setFe e f { feAt e f with drainWait := l })
      (fdFulls x.desc / 4096) (fdFulls x.desc % 4096) (fld x.desc 725 722 + 1) x.ctx := by
  simp only [drainSignal, h, htake, if_true]

theorem fdDrainDone_of_idle (h : (feAt d f).draining = none) : fdDrainDone d f = drainSignal d f := by
  simp only [fdDrainDone, h]

/-- A DRAIN goes on waiting while a descriptor of its engine is active. -/
theorem fdDrainDone_of_active {x : FdEntry} (h : (feAt d f).draining = some x) (hact : (feAt d f).active ≠ []) :
    fdDrainDone d f = drainSignal d f := by
  simp [fdDrainDone, h, hact]

/-- A DRAIN with no earlier descriptor left completes, and waits on EMPTYS behind those completed before it. -/
theorem fdDrainDone_of_quiet {x : FdEntry} (h : (feAt d f).draining = some x) (hact : (feAt d f).active = [])
    (hrecs : (feAt d f).recs = []) (hsusp : suspendedAt d f = false) :
    fdDrainDone d f = drainSignal (setFe d f { feAt d f with
      draining := none, drainWait := (feAt d f).drainWait ++ [x] }) f := by
  simp [fdDrainDone, h, hact, hrecs, hsusp]

/-- The engine after a line read has returned: one read slot more is free, and the cycles waited are counted. -/
def readReturned (d : Dev) (f waited : Nat) : Dev :=
  setFe (bump d 0x7026 (f + 1) waited) f { feAt d f with reads := (feAt d f).reads - 1 }

theorem lineReadReturn_eq (hreads : 0 < (feAt d f).reads) (w : Nat) :
    lineReadReturn d f w = match (feAt d f).active.find? (fun a => a.stalled && fdOp a.entry.desc != 4) with
      | some a => runActive (readReturned d f w) f a
      | none => readReturned d f w := by
  simp only [lineReadReturn, feAt_bump, if_neg (Nat.ne_of_gt hreads), feAt_setFe_same]
  rfl

theorem cacheFillLands_of_outstanding {line : Nat} {x : Fill} (h : d.mem.fills.find? (fun f => f.line == line) = some x) :
    cacheFillLands d line = { cacheAllocate d line (!x.held.isEmpty) with
      mem := { (cacheAllocate d line (!x.held.isEmpty)).mem with
        fills := (cacheAllocate d line (!x.held.isEmpty)).mem.fills.filter (fun f => f.line != line)
        bytes := putBytes (memBase (cacheAllocate d line (!x.held.isEmpty)).mem)
          (cacheAllocate d line (!x.held.isEmpty)).mem.bytes x.held } } := by
  simp only [cacheFillLands, h]

/-- In the paced mode a descriptor that has not completed in time is counted once, marked and reported. -/
theorem deadlineMiss_of_late {n : Nat} {x : FdEntry}
    (h : (entriesOf d f).find? (fun x => x.num == n && x.reload.isNone) = some x) (hmode : cfg d 0x7013 0 = 1)
    (hdln : fld x.desc 697 678 ≠ 0) (hfresh : x.missed = false) (hlate : x.start + fld x.desc 697 678 * 64 ≤ d.uptime) :
    deadlineMiss d f n = raiseStep (bump (mapEntries d f (fun y =>
      if y.num = n ∧ y.reload = none then { y with missed := true } else y)) 0x7024 (f + 1) 1) 0x4703 f (fdTask x.desc) := by
  simp only [deadlineMiss, h]
  exact if_pos ⟨hmode, hdln, hfresh, hlate⟩

end

/-- Settles O9: each clause is the lemma on its command, with the units of its gate acting. -/
theorem endsOfTransfers : Obligations.EndsOfTransfers := by
  refine ⟨?completes, ?noneMoved, ?drain, ?drainDone, ?drainSignals, ?drainKept, ?returns, ?goesOn, ?fill, ?deadline⟩
  case completes =>
    intro s f q a hact h
    rw [exec_descriptorComplete, onCluster_acting _ _ hact, descriptorComplete_of_moved h]
  case noneMoved =>
    intro s f q hact h
    rw [exec_descriptorComplete, onCluster_acting _ _ hact, descriptorComplete_of_none h]
  case drain =>
    intro s f a b c x hact hidle hheads ha hb hc hx hr hvalid
    rw [exec_fdDrain, onCluster_acting _ _ hact, fdDrain_of_heads hidle hheads ha hb hc hx hr hvalid]
  case drainDone =>
    intro s f x hact h hactive hrecs hsusp hwait hempty
    have hfirst : (feAt (setFe s.dev f { feAt s.dev f with
        draining := none, drainWait := (feAt s.dev f).drainWait ++ [x] }) f).drainWait = [x] := by simp [hwait]
    have hnoWait (d : Dev) : semTake d f (fdEmptys x.desc) (headReq 4) (fld x.desc 709 706 + 1) = (true, d) := by
      rw [semTake, if_pos hempty]
    rw [exec_fdDrainDone, onCluster_acting _ _ hact, fdDrainDone_of_quiet h hactive hrecs hsusp,
      drainSignal_of_taken hfirst (hnoWait _), setFe_setFe, feAt_setFe_same, ← hwait]
  case drainSignals =>
    intro s f x l d hact hidle hwait htake
    rw [exec_fdDrainDone, onCluster_acting _ _ hact, fdDrainDone_of_idle hidle, drainSignal_of_taken hwait htake]
  case drainKept =>
    intro s f x hact h hactive hwait
    rw [exec_fdDrainDone, onCluster_acting _ _ hact, fdDrainDone_of_active h hactive, drainSignal_of_none hwait]
  case returns =>
    intro s f w hact hreads hnone
    rw [exec_lineReadReturn, onCluster_acting _ _ hact, lineReadReturn_eq hreads, hnone]
    rfl
  case goesOn =>
    intro s f w a hact hreads hheld
    rw [exec_lineReadReturn, onCluster_acting _ _ hact, lineReadReturn_eq hreads, hheld]
    rfl
  case fill =>
    intro s line x hact h
    rw [exec_cacheFillLands, onUnit_acting _ _ hact, cacheFillLands_of_outstanding h]
  case deadline =>
    intro s f n x hact h hmode hdln hfresh hlate
    rw [exec_deadlineMiss, onCluster_acting _ _ hact, deadlineMiss_of_late h hmode hdln hfresh hlate]

end Sys2Proof.Machine

namespace Sys2Proof.Machine

/-! ### Semaphores (R255 to R262) -/

/-- A word that reads badly is reported, and the signal adds to its count all the same (R261). -/
theorem semSignal_of_bad {d : Dev} {c n : Nat} (a ctx : Nat) (hn : n ≠ 0xFFF) (hb : (semAt d (semKey c n)).bad = true)
    (hc : (semAt d (semKey c n)).count + a ≤ 65535) :
    semSignal d c n a ctx = setSem (raiseFault d 0x8704 c n ctx) (semKey c n)
      { semAt d (semKey c n) with count := (semAt d (semKey c n)).count + a } := by
  simp only [semSignal, if_neg hn, semRead, hb, if_true, semAt_raiseFault, if_neg (Nat.not_lt.mpr hc)]

/-- A signal past 65,535 saturates the count and stops the context it is made for (R257). -/
theorem semSignal_of_overflow {d : Dev} {c n a : Nat} (ctx : Nat) (hn : n ≠ 0xFFF)
    (hc : 65535 < (semAt (semRead d c n ctx) (semKey c n)).count + a) :
    semSignal d c n a ctx = raiseFault (setSem (semRead d c n ctx) (semKey c n)
      { semAt (semRead d c n ctx) (semKey c n) with count := 65535 }) 0x8702 c n ctx := by
  simp only [semSignal, if_neg hn, if_pos hc]

/-- A wait blocks behind the waits before it, or for want of count (R256). -/
theorem semTake_of_blocked {d : Dev} {c n r a : Nat} (hn : n ≠ 0xFFF) (hb : (semAt d (semKey c n)).bad = false)
    (hg : d.grants.contains (semKey c n, r) = false) (hr : (semAt d (semKey c n)).waits.all (fun w => w.req != r) = true)
    (hw : (semAt d (semKey c n)).waits ≠ [] ∨ (semAt d (semKey c n)).count < a) :
    semTake d c n r a = (false, setSem d (semKey c n) { semAt d (semKey c n) with
      waits := (semAt d (semKey c n)).waits ++ [{ req := r, amount := a }] }) := by
  have hany : (semAt d (semKey c n)).waits.any (fun w => w.req == r) = false := by
    simpa [List.all_eq_true] using hr
  have hno : ¬ ((semAt d (semKey c n)).waits.isEmpty = true ∧ a ≤ (semAt d (semKey c n)).count) := by
    rintro ⟨he, hle⟩
    exact hw.elim (fun h => h (List.isEmpty_iff.mp he)) (fun h => Nat.not_lt.mpr hle h)
  simp only [semTake, if_neg hn, semRead_clean _ _ _ _ hb, hg, hany, if_neg hno, Bool.false_eq_true, if_false]

/-- A wait that has succeeded before is used up (R255). -/
theorem semTake_of_granted {d : Dev} {c n r : Nat} (a : Nat) (hn : n ≠ 0xFFF) (hb : (semAt d (semKey c n)).bad = false)
    (hg : d.grants.contains (semKey c n, r) = true) :
    semTake d c n r a = (true, { d with grants := d.grants.erase (semKey c n, r) }) := by
  simp only [semTake, if_neg hn, semRead_clean _ _ _ _ hb, hg, if_true]

theorem semWaitCmd_of_taken {d e : Dev} {c n a r : Nat} (h : semTake d c n r a = (true, e)) :
    semWaitCmd d c n a r = keepGrant e c n r := by
  simp only [semWaitCmd, h, if_true]

theorem semWaitCmd_of_blocked {d e : Dev} {c n a r : Nat} (h : semTake d c n r a = (false, e)) :
    semWaitCmd d c n a r = e := by
  simp [semWaitCmd, h]

theorem semWaitSucceed_of_covered {d : Dev} {g n : Nat} {w : SemWaiter} {ws : List SemWaiter}
    (hw : (semAt d (semKey g n)).waits = w :: ws) (hc : w.amount ≤ (semAt d (semKey g n)).count)
    (hmay : w.req % 16 = 8 → w.req ≠ headReq 4 → mayTry d g = true) :
    semWaitSucceed d g n = keepGrant (setSem d (semKey g n)
      { semAt d (semKey g n) with count := (semAt d (semKey g n)).count - w.amount, waits := ws }) g n w.req := by
  have hgo : w.req % 16 ≠ 8 ∨ w.req = headReq 4 ∨ mayTry d g = true := by tauto
  simp only [semWaitSucceed, hw, if_pos (And.intro hc hgo)]

theorem semWaitSucceed_of_none {d : Dev} {g n : Nat} (hw : (semAt d (semKey g n)).waits = []) :
    semWaitSucceed d g n = d := by
  simp only [semWaitSucceed, hw]

/-- In the paced mode a late wait is counted and nothing more (R262, R264). -/
theorem lateWait_of_paced {d : Dev} {g n : Nat} {w : SemWaiter} {ws : List SemWaiter}
    (hw : (semAt d (semKey g n)).waits = w :: ws) (hmode : cfg (bump d 0x7042 (g + 1) 1) 0x7013 0 ≠ 0) :
    lateWait d g n = bump d 0x7042 (g + 1) 1 := by
  simp only [lateWait, hw, if_pos hmode]

/-- Settles O11: each clause is the lemma on its command, with the clusters acting. That a wait which has succeeded before is
used up is the model's reading (log 35), and that the access to an uncorrectable word is made all the same its choice
(log 88, of R261). -/
theorem semaphoreSignalsAndWaits : Obligations.SemaphoreSignalsAndWaits := by
  refine ⟨?signal, ?waitTaken, ?waitBlocks, ?succeed, ?noneBlocked, ?signalBad, ?waitGranted, ?late⟩
  case signal =>
    intro s g n a c hact hn hb hc
    rw [exec_semSignal, onCluster_acting _ _ hact, semSignal_clean _ _ _ _ _ hn hb hc]
  case waitTaken =>
    intro s g n a r hact hn hb hg hw hc
    rw [exec_semWait, onCluster_acting _ _ hact, semWaitCmd_of_taken (semTake_clean _ _ _ _ _ hn hb hw hc hg)]
    simp only [hw]
  case waitBlocks =>
    intro s g n a r hact hn hb hg hr hw
    rw [exec_semWait, onCluster_acting _ _ hact, semWaitCmd_of_blocked (semTake_of_blocked hn hb hg hr hw)]
  case succeed =>
    intro s g n w ws hact _ hw hc hmay
    rw [exec_semWaitSucceed, onCluster_acting _ _ hact, semWaitSucceed_of_covered hw hc hmay]
  case noneBlocked =>
    intro s g n hact hw
    rw [exec_semWaitSucceed, onCluster_acting _ _ hact, semWaitSucceed_of_none hw]
  case signalBad =>
    intro s g n a c hact hn hb hc
    rw [exec_semSignal, onCluster_acting _ _ hact, semSignal_of_bad _ _ hn hb hc]
  case waitGranted =>
    intro s g n a r hact hn hb hg
    rw [exec_semWait, onCluster_acting _ _ hact, semWaitCmd_of_taken (semTake_of_granted a hn hb hg)]
  case late =>
    intro s g n w ws hact hw hmode
    rw [exec_lateWait, onCluster_acting _ _ hact, lateWait_of_paced hw hmode]

/-! ### A signal past the limit (R257, R261) -/

section
variable (d : Dev) (c n ctx : Nat)

@[simp] theorem semAt_semRead (k : Nat) : semAt (semRead d c n ctx) k = semAt d k := by
  unfold semRead; split <;> simp

@[simp] theorem semRead_mem : (semRead d c n ctx).mem = d.mem := by
  unfold semRead; split <;> simp

theorem ctxAt_semRead_ne {x : Nat} (h : x ≠ ctx) : ctxAt (semRead d c n ctx) x = ctxAt d x := by
  unfold semRead
  split
  · exact raiseFault_ctx_ne _ _ _ _ _ _ h.symm
  · rfl

end

/-- The context an overflowing signal is made for stops, by the bad word before it when there is one. -/
theorem ctxAt_semSignal_of_overflow {d : Dev} {c n ctx : Nat} (x : Sem) (hctx : ctx < 64)
    (hlive : ctxLive (ctxAt d ctx) = true) :
    ctxAt (raiseFault (setSem (semRead d c n ctx) (semKey c n) x) 0x8702 c n ctx) ctx =
      { ctxAt d ctx with st := .stopping
                         cause := if (semAt d (semKey c n)).bad then 0x8704 else 0x8702 } := by
  cases hb : (semAt d (semKey c n)).bad with
  | false =>
    rw [semRead_clean _ _ _ _ hb, raiseFault_ctx _ _ _ _ _ hctx (by simpa using hlive), ctxAt_setSem]
    rfl
  | true =>
    have hstop : ctxAt (semRead d c n ctx) ctx = { ctxAt d ctx with st := .stopping, cause := 0x8704 } := by
      rw [semRead, if_pos hb, raiseFault_ctx _ _ _ _ _ hctx hlive]
    have hdead : ctxLive (ctxAt (setSem (semRead d c n ctx) (semKey c n) x) ctx) = false := by
      rw [ctxAt_setSem, hstop]; rfl
    rw [raiseFault_dead _ _ _ _ _ hdead, ctxAt_raise, ctxAt_setSem, hstop]
    rfl

/-- Settles O12: the signal is `semSignal_of_overflow`, its event is logged (`raiseFault_logged`), and the context stops by
`ctxAt_semSignal_of_overflow`. That an uncorrectable word stops it first, with cause 0x8704, is the model's choice (log 88, of
R261). -/
theorem signalPastLimitSaturates : Obligations.SignalPastLimitSaturates := by
  intro s g n a c hact hn hover
  have hsig := semSignal_of_overflow (d := s.dev) c hn (by rwa [semAt_semRead])
  refine ⟨_, by rw [exec_semSignal, onCluster_acting _ _ hact, hsig], ?count, ?waits, raiseFault_logged _ _ _ _ _, ?stops,
    ?others, ?mem⟩
  case count => simp
  case waits => simp
  case stops =>
    intro hctx hlive
    rw [ctxAt_semSignal_of_overflow _ hctx hlive]
    exact ⟨rfl, rfl⟩
  case others =>
    intro x hx
    rw [raiseFault_ctx_ne _ _ _ _ _ _ hx.symm, ctxAt_setSem, ctxAt_semRead_ne _ _ _ _ hx]
  case mem => simp

end Sys2Proof.Machine

namespace Sys2Proof.Machine

/-! ### What the work of a transfer leaves of the rest of the device -/

/-- Semaphores, TUs, vector chains, the queues of engine `f`, the cache shares and the translation enable are the same. -/
structure TransferFrame (f : Nat) (d e : Dev) : Prop where
  sems : e.sems = d.sems
  tus : e.tus = d.tus
  vcs : e.vcs = d.vcs
  queues : (feAt e f).queues = (feAt d f).queues
  share : ∀ k, k < 256 → cfg e 0x8002 k = cfg d 0x8002 k
  enable : cfg e 0x8031 0 = cfg d 0x8031 0

/-- As `TransferFrame`, with memory the same but for words whose wrong bit has been corrected: a read of good words, which
unlike one of `ReadsOnly` stops no context. -/
structure ReadFrame (f : Nat) (d e : Dev) : Prop extends TransferFrame f d e where
  mem : ∃ ce, e.mem = { d.mem with ce := ce }

section
variable {f : Nat} {d e g : Dev}

theorem TransferFrame.trans (h : TransferFrame f d e) (k : TransferFrame f e g) : TransferFrame f d g where
  sems := k.sems.trans h.sems
  tus := k.tus.trans h.tus
  vcs := k.vcs.trans h.vcs
  queues := k.queues.trans h.queues
  share i hi := (k.share i hi).trans (h.share i hi)
  enable := k.enable.trans h.enable

theorem ReadFrame.refl (f : Nat) (d : Dev) : ReadFrame f d d := ⟨⟨rfl, rfl, rfl, rfl, fun _ _ => rfl, rfl⟩, d.mem.ce, rfl⟩

theorem ReadFrame.trans (h : ReadFrame f d e) (k : ReadFrame f e g) : ReadFrame f d g where
  toTransferFrame := h.toTransferFrame.trans k.toTransferFrame
  mem := by
    obtain ⟨_, he⟩ := h.mem
    obtain ⟨ce, hg⟩ := k.mem
    exact ⟨ce, by rw [hg, he]⟩

theorem ReadFrame.memByte (h : ReadFrame f d e) (x : Nat) : memByte e.mem x = memByte d.mem x := by
  obtain ⟨_, hm⟩ := h.mem; rw [hm]; rfl

theorem ReadFrame.memRead (h : ReadFrame f d e) (a n : Nat) : memRead e.mem a n = memRead d.mem a n := by
  obtain ⟨_, hm⟩ := h.mem; rw [hm]; rfl

theorem ReadFrame.ueIn (h : ReadFrame f d e) (a n : Nat) : ueIn e.mem a n = ueIn d.mem a n := by
  obtain ⟨_, hm⟩ := h.mem; rw [hm]; rfl

theorem ReadFrame.wf (h : ReadFrame f d e) : Mem.wf e.mem = Mem.wf d.mem := by
  obtain ⟨_, hm⟩ := h.mem; rw [hm]; rfl

theorem ReadFrame.fillsOk (h : ReadFrame f d e) (hf : FillsOk d.mem) : FillsOk e.mem := by
  obtain ⟨_, hm⟩ := h.mem; rw [hm]; exact hf

/-- Whether the job may access a range of near memory depends on the cache shares alone. -/
theorem TransferFrame.accessible (h : TransferFrame f d e) {a : Nat} (ha : a < 2 * nearSize) (n : Nat) :
    accessible e a n = accessible d a n := by
  have hhalf : a / nearSize < 2 := Nat.div_lt_of_lt_mul (by omega)
  have hregion : regionOf a = .near (a / nearSize) (a % nearSize) := if_pos ha
  have hstart : cacheStart e (a / nearSize) = cacheStart d (a / nearSize) :=
    congrArg (fun v => max deviceRegion ((8 - v) * 0x20000000)) (h.share (a / nearSize + 1) (by omega))
  have hscratch : inScratch e (a / nearSize) (a % nearSize) n = inScratch d (a / nearSize) (a % nearSize) n := by
    rw [inScratch, hstart, inScratch]
  simp only [Machine.accessible, hregion, hscratch]

theorem withMem_transferFrame (f : Nat) (d : Dev) (m : Mem) : TransferFrame f d { d with mem := m } :=
  ⟨rfl, rfl, rfl, rfl, fun _ _ => rfl, rfl⟩

theorem setFe_readFrame {x : Fe} (h : x.queues = (feAt d f).queues) : ReadFrame f d (setFe d f x) :=
  ⟨⟨rfl, rfl, rfl, by rw [feAt_setFe_same, h], fun _ _ => rfl, rfl⟩, d.mem.ce, rfl⟩

/-- A count of an object other than the shares and the enable of translation. -/
theorem bump_readFrame {i k : Nat} (h : 0x8031 < i ∨ i < 0x8002 ∧ k < 256) (n : Nat) : ReadFrame f d (bump d i k n) := by
  refine ⟨⟨rfl, rfl, rfl, rfl, fun j hj => bump_cfg_ne _ _ _ _ _ _ ?_, bump_cfg_ne _ _ _ _ _ _ ?_⟩, d.mem.ce, rfl⟩ <;>
    unfold okey <;> omega

theorem withEv_readFrame (ev : Ev) : ReadFrame f d { d with ev := ev } :=
  ⟨⟨rfl, rfl, rfl, rfl, fun _ _ => rfl, rfl⟩, d.mem.ce, rfl⟩

theorem raise_readFrame (c a b : Nat) : ReadFrame f d (raise d c a b) where
  sems := raise_sems d c a b
  tus := raise_tus d c a b
  vcs := raise_vcs d c a b
  queues := by rw [feAt_raise]
  share k hk := cfg_raise_idx _ _ _ _ _ _ hk (by decide)
  enable := cfg_raise_idx _ _ _ _ _ _ (by decide) (by decide)
  mem := ⟨d.mem.ce, raise_mem d c a b⟩

theorem nextFree_readFrame : ReadFrame f d (nextFree d).2 :=
  ⟨⟨rfl, rfl, rfl, rfl, fun _ _ => rfl, rfl⟩, d.mem.ce, rfl⟩

theorem foldl_readFrame {α : Type} {step : Dev → α → Dev} (h : ∀ d x, ReadFrame f d (step d x)) (l : List α) :
    ReadFrame f d (l.foldl step d) := by
  induction l generalizing d with
  | nil => exact .refl f d
  | cons x l ih => exact (h d x).trans ih

/-! ### Reads and writes of near memory (R195, R200, R212, R230) -/

theorem ceNote_readFrame (c u l n : Nat) : ReadFrame f d (ceNote d c u l n) := by
  unfold ceNote
  simp only
  split
  · exact (withEv_readFrame _).trans (raise_readFrame _ _ _)
  · exact withEv_readFrame _

theorem noteCorrected_readFrame (w : Nat) : ReadFrame f d (noteCorrected d w) := by
  unfold noteCorrected
  split
  · exact (bump_readFrame (by omega) _).trans (ceNote_readFrame _ _ _ _)
  · exact (bump_readFrame (by omega) _).trans (ceNote_readFrame _ _ _ _)
  · exact .refl f d

theorem noteCorrects_readFrame (a n : Nat) : ReadFrame f d (noteCorrects d a n) :=
  (foldl_readFrame (fun _ => noteCorrected_readFrame) _).trans ⟨withMem_transferFrame f _ _, _, rfl⟩

theorem noteRemote_readFrame (h a n : Nat) : ReadFrame f d (noteRemote d h a n) := by
  unfold noteRemote
  split
  · exact .refl f d
  · exact bump_readFrame (by omega) _

/-- Near memory is not behind the cache. -/
theorem cacheLines_near {a : Nat} (ha : a < 2 * nearSize) (d : Dev) (n hint : Nat) (write : Bool) (q : Acc) :
    cacheLines d a n hint write q = d := by
  have hlines : linesOf a n = [] := by simp [linesOf, farLine, regionOf, ha]
  simp [cacheLines, hlines]

theorem accessOk_near {a : Nat} (ha : a < 2 * nearSize) (d : Dev) (hint n : Nat) :
    accessOk d hint a n = accessible d a n := by
  simp [accessOk, farLine, regionOf, ha]

theorem ueIn_eq_nil {m : Mem} (hue : m.ue = []) (hsites : m.badSites = []) (a n : Nat) : ueIn m a n = [] := by
  simp [ueIn, siteWords, hue, hsites]

theorem unitRead_near {a n : Nat} (ha : a < 2 * nearSize) (hacc : accessible d a n = true) (hue : ueIn d.mem a n = [])
    (half ctx hint : Nat) (q : Acc) :
    ∃ e, ReadFrame f d e ∧ unitRead d half ctx hint a n q = (some (memRead d.mem a n), e) := by
  refine ⟨(readThrough d half ctx hint a n q).2, ?_, ?_⟩
  · have hr := noteRemote_readFrame (f := f) (d := d) half a n
    have hnone : ueIn (noteRemote d half a n).mem a n = [] := by rw [hr.ueIn, hue]
    simp only [readThrough, cacheLines_near ha, noteRead, hnone]
    exact hr.trans (noteCorrects_readFrame a n)
  · rw [unitRead, if_pos (by rw [accessOk_near ha, hacc])]
    rfl

/-! ### The bytes a write leaves -/

/-- `bs` stand at `k`, every other byte reads as before, and the rest is as `TransferFrame` says. -/
structure Stored (f k : Nat) (bs : List Byte) (d e : Dev) : Prop extends TransferFrame f d e where
  byte : ∀ x, memByte e.mem x = if k ≤ x ∧ x < k + bs.length then bs.getD (x - k) 0#8 else memByte d.mem x
  form : Mem.wf e.mem = true

variable {k : Nat} {bs : List Byte}

theorem Stored.before (h : ReadFrame f d e) (w : Stored f k bs e g) : Stored f k bs d g where
  toTransferFrame := h.toTransferFrame.trans w.toTransferFrame
  byte x := by rw [w.byte, h.memByte]
  form := w.form

theorem Stored.after (w : Stored f k bs d e) (h : ReadFrame f e g) : Stored f k bs d g where
  toTransferFrame := w.toTransferFrame.trans h.toTransferFrame
  byte x := by rw [h.memByte, w.byte]
  form := h.wf.trans w.form

theorem writeThrough_near (hk : k < 2 * nearSize) (hfills : FillsOk d.mem) (hwf : Mem.wf d.mem = true) (half hint : Nat)
    (q : Acc) : Stored f k bs d (writeThrough d half hint k bs q) := by
  obtain ⟨hbyte, -, hform⟩ := writeThrough_spec d half hint k bs q hfills hwf
  refine ⟨?_, hbyte, hform⟩
  simp only [writeThrough, cacheLines_near hk]
  exact (noteRemote_readFrame half k bs.length).toTransferFrame.trans (withMem_transferFrame f _ _)

end

/-! ### Job memory with translation off (R216, R218) -/

section
variable {d : Dev} {f : Nat}

theorem translate_of_off (hoff : cfg d 0x8031 0 = 0) (j : Nat) (write : Bool) : translate d f j write = (.dev j 0, d) := by
  rw [translate, if_pos hoff]

theorem jobFault_of_off (hoff : cfg d 0x8031 0 = 0) (j n : Nat) (write : Bool) : jobFault d f j n write = (none, d) := by
  unfold jobFault
  induction pagePieces j n with
  | nil => rfl
  | cons p l ih =>
    rw [List.foldl_cons]
    simp only [translate_of_off hoff]
    exact ih

theorem jobDevice_of_off (hoff : cfg d 0x8031 0 = 0) (hov : Option Nat) (j : Nat) (write : Bool) :
    jobDevice d f hov j write = some (j, effHint hov 0) := by
  rw [jobDevice, translate_of_off hoff]

theorem pagePieces_of_inside {j n : Nat} (h : j % 0x10000 + n ≤ 0x10000) : pagePieces j n = [(j, n)] := by
  simp only [pagePieces]
  exact if_pos (by omega)

theorem jobRead_near (hoff : cfg d 0x8031 0 = 0) {j n : Nat} (hpage : j % 0x10000 + n ≤ 0x10000) (hj : j < 2 * nearSize)
    (hacc : accessible d j n = true) (hue : ueIn d.mem j n = []) (ctx : Nat) (hov : Option Nat) (hb : Tab Byte) (q : Acc) :
    ∃ e, ReadFrame f d e ∧ jobRead d f ctx hov hb j n q = (.bytes (memRead d.mem j n), e) := by
  obtain ⟨e, he, hread⟩ := unitRead_near (f := f) hj hacc hue (f / 8) ctx (effHint hov 0) q
  refine ⟨e, he, ?_⟩
  simp only [jobRead, pagePieces_of_inside hpage, readPieces, readPiece, translate_of_off hoff, hread, List.append_nil]

theorem jobWrite_near (hoff : cfg d 0x8031 0 = 0) {k : Nat} {bs : List Byte} (hpage : k % 0x10000 + bs.length ≤ 0x10000)
    (hk : k < 2 * nearSize) (hacc : accessible d k bs.length = true) (hfills : FillsOk d.mem) (hwf : Mem.wf d.mem = true)
    (ctx item : Nat) (hov : Option Nat) (q : Acc) :
    ∃ e, Stored f k bs d e ∧ jobWrite d f ctx item hov k bs q = (.bytes [], e) := by
  have hok : accessOk d (effHint hov 0) k bs.length = true := by rw [accessOk_near hk, hacc]
  refine ⟨_, writeThrough_near hk hfills hwf (f / 8) (effHint hov 0) q, ?_⟩
  simp only [jobWrite, pagePieces_of_inside hpage, writePiece, translate_of_off hoff, unitWrite, if_pos hok]

/-! ### The requests of a unit (R245, R250, R251) -/

theorem mergeWith_readFrame (a : FdActive) (write : Bool) (j : Nat) : ReadFrame f d (mergeWith d f a write j).2 := by
  unfold mergeWith
  split
  · exact .refl f d
  split
  · exact .refl f d
  split
  · exact .refl f d
  · exact nextFree_readFrame

/-- What one part of a unit adds to the unit's requests. -/
def askPart (f : Nat) (a : FdActive) (write : Bool) (s : Asked) (p : Nat × Nat) : Asked :=
  let skip := if s.slots = 0 then s.skip + 1 else s.skip
  if reqJoins s.req p then { s with req := spanOf s.req p, skip }
  else
    let m := mergeWith s.dev f a write p.1
    match m.1 with
    | some x => { s with req := p, skip, shared := (x.lo, x.hi), dev := bump m.2 0x7023 (f + 1) 1 }
    | none => { s with slots := s.slots + 1, req := p, shared := (0, 0), dev := m.2 }

/-- A part needs at most one read slot. -/
theorem askPart_bounds (hf : f < 16) (a : FdActive) (write : Bool) (s : Asked) (p : Nat × Nat) :
    ReadFrame f s.dev (askPart f a write s p).dev ∧ (askPart f a write s p).slots ≤ s.slots + 1 := by
  have hm := mergeWith_readFrame (d := s.dev) (f := f) a write p.1
  unfold askPart
  simp only
  split
  · exact ⟨.refl f _, Nat.le_succ _⟩
  split
  · exact ⟨hm.trans (bump_readFrame (by omega) 1), Nat.le_succ _⟩
  · exact ⟨hm, le_rfl⟩

theorem foldl_askPart_bounds (hf : f < 16) (a : FdActive) (write : Bool) (l : List (Nat × Nat)) (s : Asked) :
    ReadFrame f s.dev (l.foldl (askPart f a write) s).dev ∧ (l.foldl (askPart f a write) s).slots ≤ s.slots + l.length := by
  induction l generalizing s with
  | nil => exact ⟨.refl f _, le_rfl⟩
  | cons p l ih =>
    obtain ⟨hd, hs⟩ := askPart_bounds hf a write s p
    obtain ⟨hd', hs'⟩ := ih (askPart f a write s p)
    exact ⟨hd.trans hd', by rw [List.foldl_cons, List.length_cons]; omega⟩

theorem askUnit_eq_foldl (d : Dev) (f : Nat) (a : FdActive) (write : Bool) (r : Nat × Nat) (j n : Nat) :
    askUnit d f a write r j n = (unitParts r j n).foldl (askPart f a write)
      { slots := 0, skip := 0, req := r, shared := a.shared, dev := d } := rfl

/-- A unit lies in at most two lines. -/
theorem unitParts_length_le (r : Nat × Nat) (j n : Nat) : (unitParts r j n).length ≤ 2 := by
  unfold unitParts
  simp only
  split
  · simp
  split <;> simp

theorem askUnit_bounds (hf : f < 16) (a : FdActive) (write : Bool) (r : Nat × Nat) (j n : Nat) :
    ReadFrame f d (askUnit d f a write r j n).dev ∧ (askUnit d f a write r j n).slots ≤ 2 := by
  obtain ⟨hd, hs⟩ := foldl_askPart_bounds hf a write (unitParts r j n)
    { slots := 0, skip := 0, req := r, shared := a.shared, dev := d }
  rw [askUnit_eq_foldl]
  exact ⟨hd, hs.trans (by simpa using unitParts_length_le r j n)⟩

theorem keepRequest_readFrame (a : FdActive) (write : Bool) (r : Nat × Nat) (j : Nat) :
    ReadFrame f d (keepRequest d f a write r j) := by
  unfold keepRequest
  split
  · exact .refl f d
  split
  · exact .refl f d
  · exact setFe_readFrame rfl

theorem noteBytes_readFrame (hf : f < 16) (j n : Nat) (write : Bool) : ReadFrame f d (noteBytes d f j n write) := by
  have hcount (near : Bool) : ReadFrame f d
      (if near then bump d (if write then 0x7021 else 0x7020) (f + 1) n else bump d 0x7022 (f + 1) n) := by
    cases near
    · exact bump_readFrame (by omega) n
    · refine bump_readFrame (k := f + 1) (.inr ⟨?_, by omega⟩) n
      split <;> decide
  exact hcount _

theorem setActive_readFrame (a : FdActive) : ReadFrame f d (setActive d f a) := setFe_readFrame rfl

end

/-! ### Writes of host windows leave memory alone (R511, R515, R517) -/

section
variable {f : Nat} {d : Dev}

theorem withHp_readFrame (hp : Hp) : ReadFrame f d { d with hp := hp } :=
  ⟨⟨rfl, rfl, rfl, rfl, fun _ _ => rfl, rfl⟩, d.mem.ce, rfl⟩

theorem send_readFrame (m : OutMsg) : ReadFrame f d (send d m) :=
  ⟨⟨rfl, rfl, rfl, rfl, fun _ _ => rfl, rfl⟩, d.mem.ce, rfl⟩

theorem hostSend_readFrame (kind : Nat) (fields : List Nat) (payload : List Byte) :
    ReadFrame f d (hostSend d kind fields payload) := by
  unfold hostSend txDrain
  exact ((withHp_readFrame _).trans (withHp_readFrame _)).trans
    (foldl_readFrame (fun _ _ => (bump_readFrame (by omega) 1).trans (send_readFrame _)) _)

theorem qpSend_readFrame (i : Nat) (r : QpReq) : ReadFrame f d (qpSend d i r) := by
  unfold qpSend
  simp only
  split
  · exact withHp_readFrame _
  · exact (withHp_readFrame _).trans (hostSend_readFrame _ _ _)

theorem flushWrites_readFrame : ReadFrame f d (flushWrites d) := by
  refine foldl_readFrame (fun x e => ?_) _
  unfold flushJoin
  split
  · exact (withHp_readFrame _).trans (qpSend_readFrame _ _)
  · exact .refl f x

end


/-! ### A COPY of one element (R236, R237) -/

section
variable {d : Dev} {f : Nat}

/-- A COPY moves units of one size. -/
theorem unitDst_of_copy {ds : Nat} (hop : fdOp ds = 5) : unitDst ds = unitSrc ds := by
  simp [unitDst, unitSrc, hop]

theorem unitOut_of_copy {ds : Nat} (hop : fdOp ds = 5) (bs : List Byte) : unitOut ds bs = bs := by
  refine if_neg ?_
  rintro ⟨h4, hesz⟩
  simp [unitDst_of_copy hop, unitSrc, hesz] at h4

/-- A unit of near memory is written whole, with translation off. -/
theorem putUnit_near (hf : f < 16) (hoff : cfg d 0x8031 0 = 0) {a : FdActive} {p : List Nat} {bs : List Byte}
    (hpage : dstAt a.entry.desc p % 0x10000 + bs.length ≤ 0x10000) (hk : dstAt a.entry.desc p < 2 * nearSize)
    (hacc : accessible d (dstAt a.entry.desc p) bs.length = true) (hfills : FillsOk d.mem) (hwf : Mem.wf d.mem = true)
    (bad : Bool) :
    ∃ b e, b.entry = a.entry ∧ Stored f (dstAt a.entry.desc p) bs d e ∧ putUnit d f a p bs bad = (.ok b, e) := by
  obtain ⟨hask, -⟩ := askUnit_bounds (d := d) hf a true a.dstReq (dstAt a.entry.desc p) bs.length
  obtain ⟨e, hstore, hwrite⟩ := jobWrite_near (f := f) (hask.enable.trans hoff) hpage hk
    ((hask.accessible hk _).trans hacc) (hask.fillsOk hfills) (hask.wf.trans hwf) a.entry.ctx a.seq (fdHint a.entry.desc)
    (writeAcc d f a p a.dstReq (askUnit d f a true a.dstReq (dstAt a.entry.desc p) bs.length) (dstAt a.entry.desc p)
      bs.length bad)
  simp only [putUnit, jobFault_of_off hoff, hwrite]
  refine ⟨_, _, ?entry, ?stored, rfl⟩
  case entry => rfl
  case stored => exact (hstore.before hask).after ((keepRequest_readFrame _ _ _ _).trans (noteBytes_readFrame hf _ _ _))

/-- What a COPY of one unit at position `p` needs: both places in near memory the job may access, each inside one page, no
translation, no uncorrectable word in the source, and memory in its form. -/
structure NearCopy (d : Dev) (ds : Nat) (p : List Nat) : Prop where
  op : fdOp ds = 5
  enable : cfg d 0x8031 0 = 0
  srcPage : srcAt ds p % 0x10000 + unitSrc ds ≤ 0x10000
  dstPage : dstAt ds p % 0x10000 + unitSrc ds ≤ 0x10000
  srcNear : srcAt ds p < 2 * nearSize
  dstNear : dstAt ds p < 2 * nearSize
  srcOk : accessible d (srcAt ds p) (unitSrc ds) = true
  dstOk : accessible d (dstAt ds p) (unitSrc ds) = true
  clean : ueIn d.mem (srcAt ds p) (unitSrc ds) = []
  fills : FillsOk d.mem
  form : Mem.wf d.mem = true

theorem NearCopy.of_readFrame {e : Dev} {ds : Nat} {p : List Nat} (h : NearCopy d ds p) (k : ReadFrame f d e) :
    NearCopy e ds p where
  op := h.op
  enable := k.enable.trans h.enable
  srcPage := h.srcPage
  dstPage := h.dstPage
  srcNear := h.srcNear
  dstNear := h.dstNear
  srcOk := (k.accessible h.srcNear _).trans h.srcOk
  dstOk := (k.accessible h.dstNear _).trans h.dstOk
  clean := (k.ueIn _ _).trans h.clean
  fills := k.fillsOk h.fills
  form := k.wf.trans h.form

theorem memRead_length (m : Mem) (a n : Nat) : (memRead m a n).length = n := by simp [memRead]

section
variable {a : FdActive} {p : List Nat}

theorem deliver_of_nearCopy (hf : f < 16) (h : NearCopy d a.entry.desc p) {bs : List Byte}
    (hlen : bs.length = unitSrc a.entry.desc) (fresh bad : Bool) :
    ∃ b e, b.entry = a.entry ∧ Stored f (dstAt a.entry.desc p) bs d e ∧ deliver d f a p bs fresh bad = (.ok b, e) := by
  have hdeliver : deliver d f a p bs fresh bad = putUnit d f a p bs bad := by
    simp only [deliver, h.op, unitOut_of_copy h.op]
  rw [hdeliver]
  exact putUnit_near hf h.enable (hlen ▸ h.dstPage) h.dstNear (hlen ▸ h.dstOk) h.fills h.form bad

/-- The unit at the source is read once slots are free, and delivered. -/
theorem readUnit_of_nearCopy (hf : f < 16) (hreads : (feAt d f).reads < 1023) (h : NearCopy d a.entry.desc p) :
    ∃ b e, b.entry = a.entry ∧
      Stored f (dstAt a.entry.desc p) (memRead d.mem (srcAt a.entry.desc p) (unitSrc a.entry.desc)) d e ∧
      moveElem.readUnit d f a p (srcAt a.entry.desc p) (unitSrc a.entry.desc) = (.ok b, e) := by
  obtain ⟨hask, hslots⟩ := askUnit_bounds (d := d) hf a false a.srcReq (srcAt a.entry.desc p) (unitSrc a.entry.desc)
  simp only [moveElem.readUnit]
  generalize askUnit d f a false a.srcReq (srcAt a.entry.desc p) (unitSrc a.entry.desc) = r at hask hslots ⊢
  have hr := h.of_readFrame hask
  obtain ⟨d1, hread, hjob⟩ := jobRead_near (f := f) hr.enable hr.srcPage hr.srcNear hr.srcOk hr.clean a.entry.ctx
    (fdHint a.entry.desc) a.hostBytes { skip := r.skip }
  have hroom : (decide (0 < r.slots) && decide (1024 < (feAt d f).reads + r.slots)) = false := by
    rw [decide_eq_false (show ¬ 1024 < (feAt d f).reads + r.slots by omega), Bool.and_false]
  have hkept : ReadFrame f d (keepRequest (setFe d1 f { feAt d1 f with reads := (feAt d1 f).reads + r.slots }) f a false
      r.req (srcAt a.entry.desc p)) := by
    refine ((hask.trans hread).trans ?_).trans (keepRequest_readFrame _ _ _ _)
    exact setFe_readFrame rfl
  obtain ⟨b, e, hb, hstored, hput⟩ := deliver_of_nearCopy (a := { a with srcReq := r.req }) hf (h.of_readFrame hkept)
    (memRead_length d.mem (srcAt a.entry.desc p) _) (decide (0 < r.slots)) false
  rw [hask.memRead] at hjob
  simp only [hroom, hjob, jobDevice_of_off h.enable, Option.any_some, h.clean, List.isEmpty_nil, Bool.not_true, hput]
  exact ⟨b, _, hb, (hstored.before hkept).after (noteBytes_readFrame hf _ _ _), rfl⟩

theorem moveElem_of_nearCopy (hf : f < 16) (hreads : (feAt d f).reads < 1023) (h : NearCopy d a.entry.desc p) :
    ∃ b e, b.entry = a.entry ∧
      Stored f (dstAt a.entry.desc p) (memRead d.mem (srcAt a.entry.desc p) (unitSrc a.entry.desc)) d e ∧
      moveElem d f a p = (.ok b, e) := by
  have hmove : moveElem d f a p = moveElem.readUnit d f a p (srcAt a.entry.desc p) (unitSrc a.entry.desc) := by
    simp [moveElem, moveElem.moveRead, h.op, jobFault_of_off h.enable]
  rw [hmove]
  exact readUnit_of_nearCopy hf hreads h

/-- A transfer ends with its last element. -/
theorem runActive_of_last {b : FdActive} {e : Dev} (htotal : 0 < elemTotal a.entry.desc)
    (hlast : nextPos a.entry.desc (fdPos a.entry.desc) = none)
    (hmove : moveElem d f { a with stalled := false, hostWait := false, fault := false, fid := 0 } (fdPos a.entry.desc) =
      (.ok b, e)) : runActive d f a = flushWrites (finishMove e f b) := by
  obtain ⟨n, hn⟩ := Nat.exists_eq_succ_of_ne_zero htotal.ne'
  simp only [runActive, hn, moveFrom, hmove, hlast]

theorem finishMove_of_copy (hop : fdOp a.entry.desc = 5) :
    finishMove d f a = setActive d f { a with moved := true, stalled := false, hostWait := false } := by
  simp only [finishMove, hop]

/-- A COPY with one element left stores it and ends. -/
theorem runActive_of_nearCopy (hf : f < 16) (hreads : (feAt d f).reads < 1023) (htotal : 0 < elemTotal a.entry.desc)
    (hlast : nextPos a.entry.desc (fdPos a.entry.desc) = none) (h : NearCopy d a.entry.desc (fdPos a.entry.desc)) :
    Stored f (dstAt a.entry.desc (fdPos a.entry.desc))
      (memRead d.mem (srcAt a.entry.desc (fdPos a.entry.desc)) (unitSrc a.entry.desc)) d (runActive d f a) := by
  obtain ⟨b, e, hb, hstored, hmove⟩ := moveElem_of_nearCopy
    (a := { a with stalled := false, hostWait := false, fault := false, fid := 0 }) hf hreads h
  rw [runActive_of_last htotal hlast hmove, finishMove_of_copy (by rw [hb]; exact h.op)]
  exact hstored.after ((setActive_readFrame _).trans flushWrites_readFrame)

end

/-- A head other than a LOAD becomes active: it leaves its queue, and nothing beside its engine changes. -/
theorem activate_of_not_load {q : Nat} {x : FdEntry} (hop : fdOp x.desc ≠ 1) (hq : q ≠ 0) :
    ∃ e : Fe, e.queues = tset (feAt d f).queues q (tget [] (feAt d f).queues q).tail ∧ e.reads = (feAt d f).reads ∧
      activate d f q x = (newActive x q (feAt d f).nextSeq, setFe d f e) := by
  simp only [activate, popQueue, if_neg hq, hop, decide_false, Bool.false_and, Bool.false_eq_true, if_false,
    feAt_setFe_same, setFe_setFe]
  refine ⟨_, ?queues, ?reads, rfl⟩
  case queues => rfl
  case reads => rfl

end

/-- Settles O8: the COPY becomes active (`activate_of_not_load`), and its one element is stored (`runActive_of_nearCopy`). -/
theorem copyMovesItsElement : Obligations.CopyMovesItsElement := by
  intro s f x l hact hf h hop j k n hlast htotal hreads hoff hjpage hkpage hj hk hjok hkok hue hsites hfills hwf
  obtain ⟨e, hequeues, hereads, hactivate⟩ := activate_of_not_load (d := s.dev) (f := f) (q := 3) (x := x) (by simp [hop])
    (by decide)
  have hstored : Stored f k (memRead s.dev.mem j n) (setFe s.dev f e) _ :=
    runActive_of_nearCopy (d := setFe s.dev f e) (a := newActive x 3 (feAt s.dev f).nextSeq) hf
      (by rwa [feAt_setFe_same, hereads]) htotal hlast
      ⟨hop, hoff, hjpage, hkpage, hj, hk, hjok, hkok, ueIn_eq_nil hue hsites _ _, by simp [FillsOk, hfills], hwf⟩
  rw [exec_fdCopy, onCluster_acting _ _ hact, fdCopy,
    headActivate_of_next h (by simp [hop]) (by simp [hop]) (by simp [hop]), hactivate]
  obtain ⟨⟨hqueue, -⟩, -⟩ := h
  refine ⟨_, rfl, ?copied, ?others, hstored.form, hstored.sems, hstored.tus, hstored.vcs, ?queue⟩
  case copied =>
    intro i hi
    rw [hstored.byte, memRead_length, if_pos (by omega), Nat.add_sub_cancel_left]
    simp [memRead, hi]
  case others =>
    intro b hb
    rw [hstored.byte, memRead_length, if_neg hb]
    rfl
  case queue => rw [hstored.queues, feAt_setFe_same, hequeues, tget_tset_same, hqueue, List.tail_cons]

end Sys2Proof.Machine

/-! Stage sequencer (chapter 09): the words of a stage program, and what its commands do at the position of a cluster's task. -/

namespace Sys2Proof.Machine

/-! ### Program words (R278, R280, R285) -/

theorem memRead_drop_take (m : Mem) (a : Nat) {n i k : Nat} (h : i + k ≤ n) :
    ((memRead m a n).drop i).take k = memRead m (a + i) k := by
  apply List.ext_getElem
  · simp only [List.length_take, List.length_drop, memRead_length]; omega
  · intro j hj _
    simp [memRead, Nat.add_assoc]

/-- Words of a program in good near memory of the cluster's own half are the 16 B groups from the image's base, and reading
them changes nothing. -/
theorem readWords_of_near {d : Dev} {t : Task} {g n pc : Nat} (hlen : 16 * (pc + n) ≤ (ctxAt d t.ctx).imgLen)
    (hhalf : (ctxImage d t.ctx + 16 * pc) / nearSize = g / 8) (hnear : ctxImage d t.ctx + 16 * pc < 2 * nearSize)
    (hacc : accessible d (ctxImage d t.ctx + 16 * pc) (16 * n) = true)
    (hue : ueIn d.mem (ctxImage d t.ctx + 16 * pc) (16 * n) = [])
    (hce : ceIn d.mem (ctxImage d t.ctx + 16 * pc) (16 * n) = []) (hlive : ctxLive (ctxAt d t.ctx) = true) :
    readWords d t g n pc =
      (some (some ((List.range n).map (fun i => memVal d.mem (ctxImage d t.ctx + 16 * pc + 16 * i) 16))), d) := by
  have hread := unitRead_local d (g / 8) t.ctx _ _ hacc hhalf hnear hue hce
  have hwords : ∀ i ∈ List.range n, leVal (((memRead d.mem (ctxImage d t.ctx + 16 * pc) (16 * n)).drop (16 * i)).take 16) =
      memVal d.mem (ctxImage d t.ctx + 16 * pc + 16 * i) 16 := by
    intro i hi
    have hi : i < n := List.mem_range.mp hi
    rw [memRead_drop_take _ _ (by omega), memVal]
  simp only [readWords, if_neg (Nat.not_lt.mpr hlen), hread, hlive, if_true, List.map_congr_left hwords]

/-- No word is read past LEN. -/
theorem readWords_of_past {d : Dev} {t : Task} {n pc : Nat} (h : (ctxAt d t.ctx).imgLen < 16 * (pc + n)) (g : Nat) :
    readWords d t g n pc = (some none, d) := by
  simp only [readWords, if_pos h]

/-! ### The command at a cluster's program position (R280, R285) -/

/-- A cluster issues only for a context at work. -/
theorem ctxLive_of_issuing {d : Dev} {g : Nat} {t : Task} {p : Place} (h : issuing d g = some (t, p)) :
    ctxLive (ctxAt d t.ctx) = true := by
  simp only [issuing] at h
  split at h
  · split at h
    next hgo =>
      simp only [Option.some.injEq, Prod.mk.injEq] at h
      simp only [Bool.and_eq_true] at hgo
      obtain ⟨⟨⟨-, hlive⟩, -⟩, -⟩ := hgo
      rwa [← h.1]
    next => cases h
  · cases h

section
variable {body : Task → Place → List Nat → Dev → Option Dev}

/-- The command asked for, found at the program position, is issued, or held back by a full queue. -/
theorem ProgAt.progGo {s : State} {g op : Nat} {t : Task} {p : Place} {ws : List Nat} {d : Dev}
    (h : ProgAt s g op t p ws d) : progGo s.dev g op body = (body t p ws d).getD s.dev := by
  obtain ⟨q, w, hissue, hfirst, hop, hwords, hvalid, rfl⟩ := h
  obtain ⟨e, he⟩ : ∃ e, readWords s.dev t g 1 q.pc = (some (some w), e) := ⟨_, Prod.ext hfirst rfl⟩
  simp only [Machine.progGo, hissue, he, hop, hwords, hvalid, Bool.not_true, Bool.false_eq_true, if_false, ne_eq,
    not_true_eq_false]

theorem progGo_of_idle {d : Dev} {g : Nat} (h : issuing d g = none) (op : Nat) : progGo d g op body = d := by
  simp only [progGo, h]

theorem progGo_of_past {d : Dev} {g : Nat} {t : Task} {p : Place} (h : issuing d g = some (t, p))
    (hpast : (ctxAt d t.ctx).imgLen < 16 * (p.pc + 1)) (op : Nat) : progGo d g op body = progBad d g t p.pc := by
  simp only [progGo, h, readWords_of_past hpast]

theorem progGo_of_invalid {d : Dev} {g : Nat} {t : Task} {p : Place} {w ws : List Nat} (h : issuing d g = some (t, p))
    (hfirst : readWords d t g 1 p.pc = (some (some w), d))
    (hwords : readWords d t g (cmdWords (fld (w.headD 0) 127 120)) p.pc = (some (some ws), d))
    (hinvalid : cmdValid d g p ws = false) (op : Nat) : progGo d g op body = progBad d g t p.pc := by
  simp only [progGo, h, hfirst, hwords, hinvalid, Bool.not_false, if_true]

end

/-- The fifteen program commands of a cluster (R280). -/
def progCommands (g : Nat) : List Instr :=
  [.progNop g, .progTu g, .progFd g, .progPass g, .progWait g, .progSig g, .progSeta g, .progAdda g,
   .progLoop g, .progEndl g, .progYield g, .progGath g, .progBkt g, .progEmit g, .progEnd g]

/-- Each of them is `progGo` with its opcode and its own effect. -/
theorem exec_progCommand {c : Instr} {g : Nat} (hc : c ∈ progCommands g) (s : State) :
    ∃ op body, exec c s = after s (onCluster s.dev (fun d => progGo d g op body)) := by
  simp only [progCommands, List.mem_cons, List.not_mem_nil, or_false] at hc
  rcases hc with rfl | rfl | rfl | rfl | rfl | rfl | rfl | rfl | rfl | rfl | rfl | rfl | rfl | rfl | rfl <;>
    exact ⟨_, _, rfl⟩

/-- Settles O15: good words are `readWords_of_near`; a command past LEN or an invalid one stops its context whatever is asked
for, since every program command is a `progGo` (`exec_progCommand`). -/
theorem programWords : Obligations.ProgramWords := by
  refine ⟨?words, ?invalid, ?idle⟩
  case words =>
    rintro d t g n pc a rfl - - hlen hhalf hnear hacc hue hce hlive
    exact readWords_of_near hlen hhalf hnear hacc hue hce hlive
  case invalid =>
    intro s g t p hact hissue hctx hbad c hc
    obtain ⟨op, body, hexec⟩ := exec_progCommand hc s
    have hstop : progGo s.dev g op body = raiseFault s.dev 0x8601 t.ctx (g * 2 ^ 32 + p.pc) t.ctx := by
      rcases hbad with hpast | ⟨w, ws, hfirst, hwords, hinvalid⟩
      · exact progGo_of_past hissue hpast op
      · exact progGo_of_invalid hissue hfirst hwords hinvalid op
    have hafter := raiseFault_ctx s.dev 0x8601 t.ctx (g * 2 ^ 32 + p.pc) t.ctx hctx (ctxLive_of_issuing hissue)
    refine ⟨_, by rw [hexec, onCluster_acting _ _ hact, hstop], raiseFault_logged _ _ _ _ _, ?_, ?_, by simp, by simp⟩
    · rw [hafter]
    · rw [hafter]
  case idle =>
    intro s g hidle c hc
    obtain ⟨op, body, hexec⟩ := exec_progCommand hc s
    simp only [hexec, onCluster, progGo_of_idle hidle, ite_self]

end Sys2Proof.Machine

namespace Sys2Proof.Machine

/-! ### Sequencer commands (R280, R281, R284, R287) -/

theorem fld_mod_two_pow (v hi lo : Nat) : fld v hi lo % 2 ^ (hi + 1 - lo) = fld v hi lo := Nat.mod_mod _ _

section
variable {s : State} {g : Nat} {t : Task} {p : Place} {ws : List Nat} {d : Dev}

theorem progNop_of_progAt (h : ProgAt s g 0 t p ws d) : progNop s.dev g = setPlace d t g { p with pc := p.pc + 1 } :=
  h.progGo

/-- SETA to register 15, which names none, changes nothing: the model's choice (log 37). -/
theorem progSeta_of_progAt (h : ProgAt s g 6 t p ws d) : progSeta s.dev g = setPlace d t g { p with
    pc := p.pc + 1
    regs := if fld (ws.headD 0) 119 116 = 15 then p.regs
      else setAt p.regs (fld (ws.headD 0) 119 116) (fld (ws.headD 0) 47 0) } := by
  have hmod : fld (ws.headD 0) 47 0 % 2 ^ 48 = fld (ws.headD 0) 47 0 := fld_mod_two_pow _ 47 0
  rw [progSeta, h.progGo]
  simp only [Option.getD_some, progNext, setAreg, hmod]
  split <;> rfl

/-- As for SETA, ADDA to register 15 changes nothing (log 37). -/
theorem progAdda_of_progAt (h : ProgAt s g 7 t p ws d) : progAdda s.dev g = setPlace d t g { p with
    pc := p.pc + 1
    regs := if fld (ws.headD 0) 119 116 = 15 then p.regs
      else setAt p.regs (fld (ws.headD 0) 119 116)
        ((p.regs.getD (fld (ws.headD 0) 119 116) 0 + fld (ws.headD 0) 47 0) % 2 ^ 48) } := by
  rw [progAdda, h.progGo]
  simp only [Option.getD_some, progNext, setAreg, areg]
  split <;> rfl

theorem progLoop_of_progAt (h : ProgAt s g 8 t p ws d) : progLoop s.dev g = setPlace d t g { p with
    pc := p.pc + 1, loops := (p.pc + 1, fld (ws.headD 0) 119 104) :: p.loops } :=
  h.progGo

/-- ENDL goes back to the loop's first word while runs are left, and past its own word after the last. -/
theorem progEndl_of_progAt {a n : Nat} {l : List (Nat × Nat)} (h : ProgAt s g 9 t p ws d) (hl : p.loops = (a, n) :: l) :
    progEndl s.dev g = setPlace d t g (if n = 0 then { p with pc := p.pc + 1, loops := l }
      else { p with pc := a, loops := (a, n - 1) :: l }) := by
  rw [progEndl, h.progGo]
  cases n with
  | zero => simp only [hl, Option.getD_some, progNext, if_true]
  | succ n => simp only [hl, Option.getD_some, Nat.succ_ne_zero, if_false, Nat.add_sub_cancel]

theorem progYield_of_progAt (h : ProgAt s g 10 t p ws d) :
    progYield s.dev g = setPlace d t g { p with pc := p.pc + 1, busySince := false } :=
  h.progGo

/-- What EMIT marks is the model's choice (log 41). -/
theorem progEmit_of_progAt (h : ProgAt s g 13 t p ws d) : progEmit s.dev g = setPlace d t g { p with
    pc := p.pc + 1, emitIssued := true, emitMark := ((vcAt d g).nextPass, d.seq.nextDesc) } :=
  h.progGo

theorem progEnd_of_progAt (h : ProgAt s g 14 t p ws d) :
    progEnd s.dev g = takeStarted (setPlace d t g { p with pc := p.pc + 1, ended := true }) g :=
  h.progGo

end

/-- Settles O13: each clause is the lemma on its command, with the clusters acting. That register 15 takes no SETA or ADDA is
the model's choice (log 37), and so are the marks EMIT notes (log 41). -/
theorem sequencerCommands : Obligations.SequencerCommands := by
  refine ⟨?nop, ?seta, ?adda, ?loop, ?endl, ?yield, ?emit, ?finish⟩
  case nop =>
    intro s g t p ws d hact h
    rw [exec_progNop, onCluster_acting _ _ hact, progNop_of_progAt h]
  case seta =>
    intro s g t p ws d hact h r
    rw [exec_progSeta, onCluster_acting _ _ hact, progSeta_of_progAt h]
  case adda =>
    intro s g t p ws d hact h r
    rw [exec_progAdda, onCluster_acting _ _ hact, progAdda_of_progAt h]
  case loop =>
    intro s g t p ws d hact h
    rw [exec_progLoop, onCluster_acting _ _ hact, progLoop_of_progAt h]
  case endl =>
    intro s g t p ws d a n l hact h hl
    rw [exec_progEndl, onCluster_acting _ _ hact, progEndl_of_progAt h hl]
  case yield =>
    intro s g t p ws d hact h
    rw [exec_progYield, onCluster_acting _ _ hact, progYield_of_progAt h]
  case emit =>
    intro s g t p ws d hact h
    rw [exec_progEmit, onCluster_acting _ _ hact, progEmit_of_progAt h]
  case finish =>
    intro s g t p ws d hact h
    rw [exec_progEnd, onCluster_acting _ _ hact, progEnd_of_progAt h]

end Sys2Proof.Machine

namespace Sys2Proof.Machine

/-! ### Program commands that feed the units (R235, R242, R255, R280 to R282, R341, R450) -/

theorem mem_setBits {n v i : Nat} : i ∈ setBits n v ↔ i < n ∧ bitAt v i = true := by
  simp [setBits]

theorem bitAt_eq_testBit (v i : Nat) : bitAt v i = v.testBit i := by
  rw [bitAt, Nat.testBit_eq_decide_div_mod_eq, Nat.shiftRight_eq_div_pow]
  rfl

/-- A bit of a field is the bit of the word at its place. -/
theorem bitAt_fld (v : Nat) {hi lo i : Nat} (h : lo + i ≤ hi) : bitAt (fld v hi lo) i = bitAt v (lo + i) := by
  simp only [bitAt_eq_testBit, fld, Nat.testBit_mod_two_pow, Nat.testBit_shiftRight]
  simp [show i < hi + 1 - lo by omega]

section
variable {d : Dev} {t : Task} {g : Nat} {p : Place}

/-- Moving a task's place changes the list of tasks alone. -/
theorem setPlace_tasks (d : Dev) (t : Task) (g : Nat) (p : Place) :
    ∃ ts, setPlace d t g p = { d with seq := { d.seq with tasks := ts } } := by
  unfold setPlace
  split
  · exact ⟨_, rfl⟩
  · exact ⟨d.seq.tasks, rfl⟩

/-- A started task whose place is moved is found with the new place. -/
theorem taskAt_setPlace {u : Task} (h : taskAt d t.id = some u) :
    taskAt (setPlace d t g p) t.id = some { u with places := tset u.places g p } := by
  have hid : u.id = t.id := by simpa using List.find?_some h
  simp only [setPlace, h]
  simp only [taskAt, setTask] at h ⊢
  generalize d.seq.tasks = l at h ⊢
  induction l with
  | nil => simp at h
  | cons v l ih =>
    by_cases hv : v.id = t.id
    · obtain rfl : v = u := by simpa [hv] using h
      simp [hid]
    · have hvu : ¬ v.id = u.id := by rwa [hid]
      simp only [List.map_cons, if_neg hvu, List.find?_cons_of_neg (p := fun x : Task => x.id == t.id) (by simpa using hv)] at h ⊢
      exact ih h

theorem feAt_setPlace (k : Nat) : feAt (setPlace d t g p) k = feAt d k := by
  obtain ⟨_, h⟩ := setPlace_tasks d t g p; rw [h]; rfl

end

/-- An entry appended to some of the queues of an engine stands at the end of each of them, and in no other. -/
theorem tget_appendQueues {qs : List Nat} (hnd : qs.Nodup) (y : FdEntry) (z : Tab (List FdEntry)) (q : Nat) :
    tget [] (qs.foldl (fun z q => tset z q (tget [] z q ++ [y])) z) q =
      if q ∈ qs then tget [] z q ++ [y] else tget [] z q := by
  split
  next hq => exact tget_foldl_tmod_of_mem [] id (fun _ l => l ++ [y]) z (by simpa using hnd) hq
  next hq => exact tget_foldl_tmod_of_notMem [] id (fun _ l => l ++ [y]) q qs z (by simpa using hq)

theorem fdQueues_nodup (desc : Nat) : (fdQueues desc).Nodup := by
  unfold fdQueues
  split
  · decide
  · exact List.nodup_singleton _

/-- The descriptor an FD issues: the registers it names are added to SADDR and DADDR, and TASK is the task's number. -/
def issuedDesc (t : Task) (p : Place) (ws : List Nat) : Nat :=
  setFld (setFld (setFld (fdOfWords ws) 639 592 (fdSaddr (fdOfWords ws) + areg p (fld (ws.headD 0) 119 116)))
    591 544 (fdDaddr (fdOfWords ws) + areg p (fld (ws.headD 0) 115 112))) 705 698 t.id

/-- The queue entry of a descriptor that a task issues. -/
def issuedEntry (d : Dev) (t : Task) (desc : Nat) : FdEntry :=
  { desc, ctx := t.ctx, task := t.id, start := t.start, tu := 128, reload := none, wdone := false, num := d.seq.nextDesc }

/-- The device once a descriptor of a task has entered its queues, and the next one has its number. -/
def descEntered (d : Dev) (g : Nat) (t : Task) (desc : Nat) : Dev :=
  let x := setFe d g { feAt d g with
    queues := (fdQueues desc).foldl (fun z q => tset z q (tget [] z q ++ [issuedEntry d t desc])) (feAt d g).queues }
  { x with seq := { x.seq with nextDesc := x.seq.nextDesc + 1 } }

theorem feAt_descEntered_same (d : Dev) (g : Nat) (t : Task) (desc : Nat) :
    feAt (descEntered d g t desc) g = { feAt d g with
      queues := (fdQueues desc).foldl (fun z q => tset z q (tget [] z q ++ [issuedEntry d t desc])) (feAt d g).queues } :=
  feAt_setFe_same _ _ _

theorem feAt_descEntered_ne {g k : Nat} (h : k ≠ g) (d : Dev) (t : Task) (desc : Nat) :
    feAt (descEntered d g t desc) k = feAt d k :=
  feAt_setFe_ne _ _ _ _ h.symm

section
variable {s : State} {g : Nat} {t : Task} {p : Place} {ws : List Nat} {d : Dev}

theorem progTu_of_room (h : ProgAt s g 1 t p ws d)
    (hroom : ∀ u ∈ (setBits 8 (fld (ws.headD 0) 119 112)).map (fun i => 8 * g + i), (tuAt d u).queue.length < 64) :
    progTu s.dev g = setPlace (((setBits 8 (fld (ws.headD 0) 119 112)).map (fun i => 8 * g + i)).foldl (fun y u =>
      let m := shadowMark y u (ws.getD 1 0) (bitAt (ws.headD 0) 111)
      setTu m.2 u { tuAt m.2 u with queue := (tuAt m.2 u).queue ++
        [{ word := m.1, ctx := t.ctx, tag := t.tag, replay := false, fallback := false, reload := none }] }) d)
      t g { p with pc := p.pc + 2, busySince := true } := by
  have hany : ((setBits 8 (fld (ws.headD 0) 119 112)).map (fun i => 8 * g + i)).any
      (fun u => decide (64 ≤ (tuAt d u).queue.length)) = false := by
    rw [List.any_eq_false]
    intro u hu
    simpa using hroom u hu
  rw [progTu, h.progGo]
  simp only [hany, Bool.false_eq_true, if_false, Option.getD_some, progNext]

/-- A full queue of a TU of TMASK holds the command back. -/
theorem progTu_of_full {i : Nat} (h : ProgAt s g 1 t p ws d) (hi : i < 8) (hbit : bitAt (ws.headD 0) (112 + i) = true)
    (hfull : 64 ≤ (tuAt d (8 * g + i)).queue.length) : progTu s.dev g = s.dev := by
  have hmem : i ∈ setBits 8 (fld (ws.headD 0) 119 112) := mem_setBits.mpr ⟨hi, by rw [bitAt_fld _ (by omega), hbit]⟩
  have hany : ((setBits 8 (fld (ws.headD 0) 119 112)).map (fun i => 8 * g + i)).any
      (fun u => decide (64 ≤ (tuAt d u).queue.length)) = true :=
    List.any_eq_true.mpr ⟨8 * g + i, List.mem_map_of_mem hmem, by simpa using hfull⟩
  rw [progTu, h.progGo]
  simp only [hany, if_true, Option.getD_none]

theorem progFd_of_room (h : ProgAt s g 2 t p ws d)
    (hroom : ∀ q ∈ fdQueues (issuedDesc t p ws), (tget [] (feAt d g).queues q).length < queueDepth q) :
    progFd s.dev g = setPlace (descEntered d g t (issuedDesc t p ws)) t g
      { p with pc := p.pc + 7, busySince := p.busySince || fdOp (issuedDesc t p ws) == 1 } := by
  have hany : (fdQueues (issuedDesc t p ws)).any (fun q => decide (queueDepth q ≤ (tget [] (feAt d g).queues q).length)) =
      false := by
    rw [List.any_eq_false]
    intro q hq
    simpa using hroom q hq
  rw [progFd, h.progGo]
  exact congrArg (fun o => Option.getD o s.dev) (if_neg (Bool.eq_false_iff.mp hany))

/-- A full queue of the descriptor holds the command back. -/
theorem progFd_of_full {q : Nat} (h : ProgAt s g 2 t p ws d) (hq : q ∈ fdQueues (issuedDesc t p ws))
    (hfull : queueDepth q ≤ (tget [] (feAt d g).queues q).length) : progFd s.dev g = s.dev := by
  have hany : (fdQueues (issuedDesc t p ws)).any (fun q => decide (queueDepth q ≤ (tget [] (feAt d g).queues q).length)) =
      true := List.any_eq_true.mpr ⟨q, hq, by simpa using hfull⟩
  rw [progFd, h.progGo]
  exact congrArg (fun o => Option.getD o s.dev) (if_pos hany)

/-- Without TSEL a PASS opens one pass, for the next block from memory. -/
theorem progPass_of_memory (h : ProgAt s g 3 t p ws d) (hsel : fld (ws.headD 0) 111 104 = 0) :
    progPass s.dev g =
      setPlace (openPass d g t p (ws.headD 0) (ws.getD 1 0) 8 0) t g { p with pc := p.pc + 2 } := by
  have hnone : (setBits 8 (fld (ws.headD 0) 111 104)).isEmpty = true := by rw [hsel]; rfl
  rw [progPass, h.progGo]
  simp only [hnone, if_true, Option.getD_some, progNext]

/-- With TSEL it opens one for each TU named. -/
theorem progPass_of_tiles (h : ProgAt s g 3 t p ws d) (hsel : setBits 8 (fld (ws.headD 0) 111 104) ≠ []) :
    progPass s.dev g = setPlace ((setBits 8 (fld (ws.headD 0) 111 104)).zipIdx.foldl (fun y l =>
      openPass y g t p (ws.headD 0) (ws.getD 1 0) l.1 l.2) d) t g { p with pc := p.pc + 2 } := by
  have hsome : (setBits 8 (fld (ws.headD 0) 111 104)).isEmpty = false := by simpa using hsel
  rw [progPass, h.progGo]
  simp only [hsome, Bool.false_eq_true, if_false, Option.getD_some, progNext]

theorem progWait_of_progAt (h : ProgAt s g 4 t p ws d) :
    let r := semTake d g (fld (ws.headD 0) 119 108) 11 (fld (ws.headD 0) 107 104 + 1)
    progWait s.dev g = if r.1 then setPlace r.2 t g { p with pc := p.pc + 1, waiting := none }
      else setPlace r.2 t g { p with waiting := some (fld (ws.headD 0) 119 108) } :=
  h.progGo

theorem progSig_of_progAt (h : ProgAt s g 5 t p ws d) : progSig s.dev g =
    semSignal (ringBells (setPlace d t g { p with pc := p.pc + 1 }) t.ctx g (fld (ws.headD 0) 119 116)
      (fld (ws.headD 0) 115 104) (fld (ws.headD 0) 103 100 + 1) t.bwd t.tag t.step (areg p 0))
      (fld (ws.headD 0) 119 116) (fld (ws.headD 0) 115 104) (fld (ws.headD 0) 103 100 + 1) t.ctx :=
  h.progGo

theorem progGath_of_progAt (h : ProgAt s g 11 t p ws d) : progGath s.dev g =
    gath (setPlace d t g { p with pc := p.pc + 1 }) t.id t.ctx t.tag (fld (ws.headD 0) 119 96) g
      (fld (ws.headD 0) 95 84) :=
  h.progGo

/-- The bucket a BKT queues, behind the passes already opened on every cluster of the context. -/
def issuedBucket (d : Dev) (g : Nat) (t : Task) (ws : List Nat) : BktWait :=
  { cluster := g, task := t.id, bucket := fld (ws.headD 0) 119 96, step := fwdStep d t.ctx t.tag, place := t.place
    before := (ctxClusters d t.ctx).map (fun k => (k, (vcAt d k).nextPass)) }

theorem progBkt_of_progAt (h : ProgAt s g 12 t p ws d) :
    let e := setPlace d t g { p with pc := p.pc + 1 }
    progBkt s.dev g = { e with ce := { e.ce with buckets := e.ce.buckets ++ [issuedBucket d g t ws] } } :=
  h.progGo

end

/-- Settles O14: each clause is the lemma on its command, with the clusters acting; what an FD leaves of the queues is
`tget_appendQueues`. -/
theorem programFeedsUnits : Obligations.ProgramFeedsUnits := by
  refine ⟨?tu, ?tuFull, ?fd, ?fdFull, ?passMemory, ?passTiles, ?wait, ?sig, ?gath, ?bkt⟩
  case tu =>
    intro s g t p ws d hact h us hroom
    rw [exec_progTu, onCluster_acting _ _ hact, progTu_of_room h hroom]
  case tuFull =>
    intro s g i t p ws d hact h hi hbit hfull
    rw [exec_progTu, onCluster_acting _ _ hact, progTu_of_full h hi hbit hfull]
  case fd =>
    intro s g t p ws d hact h w0 raw desc hroom
    refine ⟨_, by rw [exec_progFd, onCluster_acting _ _ hact, progFd_of_room h hroom], ?entered, ?otherQueues, ?engines,
      ?rest⟩
    case entered =>
      intro q hq
      rw [feAt_setPlace, feAt_descEntered_same]
      exact (tget_appendQueues (fdQueues_nodup desc) _ _ q).trans (if_pos hq)
    case otherQueues =>
      intro q hq
      rw [feAt_setPlace, feAt_descEntered_same]
      exact (tget_appendQueues (fdQueues_nodup desc) _ _ q).trans (if_neg hq)
    case engines =>
      intro k hk
      rw [feAt_setPlace, feAt_descEntered_ne hk]
    case rest =>
      obtain ⟨_, hplace⟩ := setPlace_tasks (descEntered d g t desc) t g
        { p with pc := p.pc + 7, busySince := p.busySince || fdOp desc == 1 }
      rw [show issuedDesc t p ws = desc from rfl, hplace]
      exact ⟨rfl, rfl, rfl, rfl, rfl⟩
  case fdFull =>
    intro s g q t p ws d hact h w0 raw hq hfull
    rw [exec_progFd, onCluster_acting _ _ hact, progFd_of_full h hq hfull]
  case passMemory =>
    intro s g t p ws d hact h hsel
    rw [exec_progPass, onCluster_acting _ _ hact, progPass_of_memory h hsel]
  case passTiles =>
    intro s g t p ws d hact h ls hsel
    rw [exec_progPass, onCluster_acting _ _ hact, progPass_of_tiles h hsel]
  case wait =>
    intro s g t p ws d hact h n r
    rw [exec_progWait, onCluster_acting _ _ hact, progWait_of_progAt h]
  case sig =>
    intro s g t p ws d hact h dest n
    rw [exec_progSig, onCluster_acting _ _ hact, progSig_of_progAt h]
  case gath =>
    intro s g t p ws d hact h
    rw [exec_progGath, onCluster_acting _ _ hact, progGath_of_progAt h]
  case bkt =>
    intro s g t p ws d hact h
    obtain ⟨_, hplace⟩ := setPlace_tasks d t g { p with pc := p.pc + 1 }
    refine ⟨_, by rw [exec_progBkt, onCluster_acting _ _ hact, progBkt_of_progAt h], ?queued, ?moved, ?rest⟩
    case queued => rw [hplace]; rfl
    case moved =>
      intro u hu
      exact ⟨_, taskAt_setPlace hu, tget_tset_same _ _ _ _⟩
    case rest => rw [hplace]; exact ⟨rfl, rfl, rfl, rfl, rfl⟩

end Sys2Proof.Machine

namespace Sys2Proof.Machine

/-! ### Schedules (R286, R290 to R293) -/

/-- R290 takes a FWD exactly while one is left and at most WARM are ahead. -/
theorem nextKind_eq_fwd_iff (f b m w : Nat) : nextKind f b m w = some false ↔ f < m ∧ f ≤ b + w := by
  unfold nextKind
  split
  next h => simpa using h
  next h => split <;> simp [h]

/-- R290 takes a BWD exactly when it takes no FWD and one is left. -/
theorem nextKind_eq_bwd_iff (f b m w : Nat) : nextKind f b m w = some true ↔ ¬ (f < m ∧ f ≤ b + w) ∧ b < f := by
  unfold nextKind
  split
  next h => simp [h]
  next h => split <;> simp_all

/-- While a step runs, the asynchronous schedule asks only of a FWD (R292). -/
theorem admits_of_async {d : Dev} {c : Nat} (hjob : d.seq.job = .running) (hphase : d.seq.phase = .stepRunning)
    (hlive : ctxLive (ctxAt d c) = true) (hend : (ctxAt d c).atEnd = false) (hsched : ctxSched d c = 2) (bwd : Bool) :
    admits d c bwd = (bwd || (decide ((ctxAt d c).fwd < ctxM d c) && decide ((ctxAt d c).inflight ≤ ctxWarm d c))) := by
  simp [admits, hjob, hphase, hlive, hend, hsched]

theorem nextVord_fwd {d : Dev} {c : Nat} (h : 0 < (groupCtxs d (ctxGroup d c)).length) :
    nextVord d c false = fwdCount d c / ctxChunk d c % (groupCtxs d (ctxGroup d c)).length := by
  simp [nextVord, max_eq_right (Nat.one_le_iff_ne_zero.mpr h.ne')]

theorem nextVord_bwd {d : Dev} {c : Nat} (h : 0 < (groupCtxs d (ctxGroup d c)).length) :
    nextVord d c true = (groupCtxs d (ctxGroup d c)).length - 1 -
      bwdCount d c / ctxChunk d c % (groupCtxs d (ctxGroup d c)).length := by
  simp [nextVord, max_eq_right (Nat.one_le_iff_ne_zero.mpr h.ne')]

/-- Of tasks of different kinds the BWD goes first (R286). -/
theorem selectBefore_of_ne (d : Dev) {a b : Nat × Bool} (h : a.2 ≠ b.2) : selectBefore d a b = a.2 := by
  simp [selectBefore, h]

/-- Settles O17: one lemma for each schedule, and `selectBefore_of_ne` for the order of the kinds. -/
theorem schedulesAdmit : Obligations.SchedulesAdmit := by
  refine ⟨nextKind_eq_fwd_iff, nextKind_eq_bwd_iff, ?async, fun d c h => ⟨nextVord_fwd h, nextVord_bwd h⟩,
    fun d a b => ⟨selectBefore_of_ne d (by simp), selectBefore_of_ne d (by simp)⟩⟩
  intro d c hjob hphase hlive hend hsched
  have hadmits := admits_of_async hjob hphase hlive hend hsched
  exact ⟨hadmits true, by rw [hadmits false]; simp⟩

end Sys2Proof.Machine

namespace Sys2Proof.Machine

/-! ### Tasks: how they start, emit and complete (R284, R286, R304) -/

/-- The device as TASK_DEQUEUE chooses a task in it: the cycles without one and those held by the version store are counted,
and the contexts so held reported (R330). -/
def dequeueNoted (d : Dev) (g held idle : Nat) : Dev :=
  (heldByStore d g).foldl (fun x c => raiseStep x 0x4681 c g) (bump (bump d 0x6841 0 held) 0x6031 (g + 1) idle)

section
variable {d : Dev} {g h i : Nat}

theorem taskDequeue_of_started {t : Task} (hneeds : needsTask d g = true) (hswitch : tfind d.seq.switching g = none)
    (hsel : selectStarted (dequeueNoted d g h i) g = some t) :
    taskDequeue d g h i = takeStarted (dequeueNoted d g h i) g := by
  rw [dequeueNoted] at hsel ⊢
  simp only [taskDequeue, hneeds, hswitch, hsel, Bool.not_true, Option.isSome_none, Bool.or_self, Bool.false_eq_true,
    if_false]

theorem taskDequeue_of_new {c : Nat} {b : Bool} (hneeds : needsTask d g = true)
    (hswitch : tfind d.seq.switching g = none) (hnone : selectStarted (dequeueNoted d g h i) g = none)
    (hsel : selectNew (dequeueNoted d g h i) g = some (c, b)) :
    taskDequeue d g h i =
      (ctxClusters (dequeueNoted d g h i) c).foldl takeStarted (startTask (dequeueNoted d g h i) c b) := by
  rw [dequeueNoted] at hnone hsel ⊢
  simp only [taskDequeue, hneeds, hswitch, hnone, hsel, Bool.not_true, Option.isSome_none, Bool.or_self,
    Bool.false_eq_true, if_false]

end

section
variable {d : Dev} {id : Nat} {t : Task}

theorem emitComplete_of_done (ht : taskAt d id = some t) (hnot : t.emitted = false) (hlive : ctxLive (ctxAt d t.ctx) = true)
    (hdone : (ctxClusters d t.ctx).all (emitDone d t) = true) (hwrites : writesDone d t = true) :
    emitComplete d id = sendEntry (setTask d { t with emitted := true }) t := by
  simp only [emitComplete, ht, hnot, hlive, hdone, hwrites, Bool.not_false, Bool.and_self, if_true]

theorem taskComplete_of_done (ht : taskAt d id = some t) (hlive : ctxLive (ctxAt d t.ctx) = true)
    (hdone : (ctxClusters d t.ctx).all (placeDone d t) = true) (hwrites : writesDone d t = true)
    (hemit : ((ctxClusters d t.ctx).all (fun g => !(placeAt t g).emitIssued) || t.emitted) = true) :
    let e := stampRun (slotDone (dropTask d id) (taskQueue t.ctx t.bwd) t.inAddr) t.ctx
    taskComplete d id = settleCtx (dropUses (if t.bwd then unbindTag e t.ctx t.tag else e) id) t.ctx := by
  simp only [taskComplete, ht, hlive, hdone, hwrites, hemit, Bool.and_self, if_true]

end

/-! ### Task switches (R289, R722) -/

section
variable {d : Dev} {g : Nat}

/-- Note that a cluster's task switch waits for its FENCEs (1) or its DRAIN (2). -/
def markSwitch (d : Dev) (g n : Nat) : Dev := { d with seq := { d.seq with switching := tset d.seq.switching g n } }

theorem taskSwitch_of_due (hswitch : tfind (placeOwed d g).seq.switching g = none)
    (hdue : switchDue (placeOwed d g) g = true) :
    taskSwitch d g = markSwitch (oweFences (placeOwed d g) ((List.range 8).map (fun i => 8 * g + i))) g 1 := by
  simp only [taskSwitch, hswitch, hdue, if_true, markSwitch]

theorem taskSwitch_of_fenced {t : Task} (hswitch : tfind (placeOwed d g).seq.switching g = some 1)
    (htask : currentTask (placeOwed d g) g = some t)
    (hfenced : (List.range 8).all (fun i => fenced (tuAt (placeOwed d g) (8 * g + i))) = true)
    (howed : ∀ u ∈ (placeOwed d g).seq.owedFences, u / 8 ≠ g) :
    taskSwitch d g = markSwitch (oweDrains (suspendTask (placeOwed d g) g t) [g]) g 2 := by
  have hnone : (placeOwed d g).seq.owedFences.all (fun u => u / 8 != g) = true := by
    simpa [List.all_eq_true] using howed
  simp only [taskSwitch, hswitch, htask, hfenced, hnone, Bool.and_self, if_true, markSwitch]

theorem taskSwitch_of_drained (hswitch : tfind (placeOwed d g).seq.switching g = some 2)
    (hdrained : drained (feAt (placeOwed d g) g) = true) (howed : ¬ g ∈ (placeOwed d g).seq.owedDrains) :
    taskSwitch d g = switchIn (placeOwed d g) g := by
  have hnone : (placeOwed d g).seq.owedDrains.contains g = false := by simpa using howed
  simp only [taskSwitch, hswitch, hdrained, hnone, Bool.not_false, Bool.and_self, if_true]

end

/-! ### FENCEs and DRAINs the sequencer places itself (R722) -/

/-- The FENCE the sequencer places: it belongs to no stage context. -/
def fenceEntry : TuEntry := { word := 3 * 2 ^ 120, ctx := 64, tag := 0, replay := false, fallback := false, reload := none }

section
variable {d : Dev} {t : Nat}

/-- With room in the queue the FENCE is placed, and owed no more. -/
theorem fenceWhenRoom_of_room (h : (tuAt d t).queue.length < 64) :
    fenceWhenRoom d t = setTu { d with seq := { d.seq with owedFences := d.seq.owedFences.filter (fun x => x != t) } } t
      { tuAt d t with queue := (tuAt d t).queue ++ [fenceEntry] } := by
  simp only [fenceWhenRoom, if_pos h, placeFence]
  rfl

theorem fenceWhenRoom_of_full (h : 64 ≤ (tuAt d t).queue.length) : fenceWhenRoom d t = d := by
  simp only [fenceWhenRoom, if_neg (Nat.not_lt.mpr h)]

/-- The device with FENCEs owed, none placed yet. -/
def fencesOwed (d : Dev) (ts : List Nat) : Dev := { d with seq := { d.seq with owedFences := d.seq.owedFences ++ ts } }

theorem tuAt_fencesOwed (ts : List Nat) (u : Nat) : tuAt (fencesOwed d ts) u = tuAt d u := rfl

theorem oweFences_singleton (d : Dev) (t : Nat) : oweFences d [t] = fenceWhenRoom (fencesOwed d [t]) t := rfl

theorem oweFences_of_room (hroom : (tuAt d t).queue.length < 64) :
    tuAt (oweFences d [t]) t = { tuAt d t with queue := (tuAt d t).queue ++ [fenceEntry] } := by
  rw [oweFences_singleton, fenceWhenRoom_of_room (by rwa [tuAt_fencesOwed]), tuAt_setTu_same, tuAt_fencesOwed]

theorem owedFences_oweFences_of_room (howed : d.seq.owedFences = []) (hroom : (tuAt d t).queue.length < 64) :
    (oweFences d [t]).seq.owedFences = [] := by
  rw [oweFences_singleton, fenceWhenRoom_of_room (by rwa [tuAt_fencesOwed])]
  simp [fencesOwed, howed]

end

/-- Settles O16: each clause is the lemma on its command, with the clusters acting; a FENCE enters its queue by
`oweFences_of_room` or stays owed by `fenceWhenRoom_of_full`. -/
theorem tasksStartAndComplete : Obligations.TasksStartAndComplete := by
  refine ⟨?started, ?new, ?emit, ?complete, ?due, ?fenced, ?drained, ?room, ?full⟩
  case started =>
    intro s g h i t hact hneeds hswitch d hsel
    rw [exec_taskDequeue, onCluster_acting _ _ hact, taskDequeue_of_started hneeds hswitch hsel]
    rfl
  case new =>
    intro s g h i c b hact hneeds hswitch d hnone hsel
    rw [exec_taskDequeue, onCluster_acting _ _ hact, taskDequeue_of_new hneeds hswitch hnone hsel]
    rfl
  case emit =>
    intro s id t hact ht hnot hlive hdone hwrites
    rw [exec_emitComplete, onCluster_acting _ _ hact, emitComplete_of_done ht hnot hlive hdone hwrites]
  case complete =>
    intro s id t hact ht hlive hdone hwrites hemit d
    rw [exec_taskComplete, onCluster_acting _ _ hact, taskComplete_of_done ht hlive hdone hwrites hemit]
  case due =>
    intro s g hact d hswitch hdue e
    rw [exec_taskSwitch, onCluster_acting _ _ hact, taskSwitch_of_due hswitch hdue, markSwitch]
  case fenced =>
    intro s g t hact d hswitch htask hfenced howed e
    rw [exec_taskSwitch, onCluster_acting _ _ hact, taskSwitch_of_fenced hswitch htask hfenced howed, markSwitch]
  case drained =>
    intro s g hact d hswitch hdrained howed
    rw [exec_taskSwitch, onCluster_acting _ _ hact, taskSwitch_of_drained hswitch hdrained howed]
  case room =>
    intro d t howed hroom
    exact ⟨oweFences_of_room hroom, owedFences_oweFences_of_room howed hroom⟩
  case full =>
    intro d t hfull
    rw [oweFences_singleton, fenceWhenRoom_of_full (by rwa [tuAt_fencesOwed])]
    rfl

end Sys2Proof.Machine

namespace Sys2Proof.Machine

/-! ### A record stays in the event log while few come after it (R548) -/

/-- The log holds a record of `code` with these arguments, and at most `n` after it. -/
def LoggedWithin (n : Nat) (d : Dev) (code a b : Nat) : Prop :=
  ∃ l r rs, d.ev.log = l ++ r :: rs ∧ rs.length ≤ n ∧ r.code = code ∧ r.arg0 = trunc 48 a ∧ r.arg1 = trunc 64 b

section
variable {n : Nat} {d e : Dev} {code a b : Nat}

theorem LoggedWithin.logged (h : LoggedWithin n d code a b) : Logged d code a b := by
  obtain ⟨l, r, rs, hlog, -, hr⟩ := h
  exact ⟨r, by rw [hlog]; simp, hr⟩

theorem LoggedWithin.mono {m : Nat} (h : LoggedWithin n d code a b) (hnm : n ≤ m) : LoggedWithin m d code a b := by
  obtain ⟨l, r, rs, hlog, hlen, hr⟩ := h
  exact ⟨l, r, rs, hlog, hlen.trans hnm, hr⟩

theorem LoggedWithin.of_log_eq (h : LoggedWithin n d code a b) (hlog : e.ev.log = d.ev.log) :
    LoggedWithin n e code a b := by
  obtain ⟨l, r, rs, hl, h⟩ := h
  exact ⟨l, r, rs, hlog.trans hl, h⟩

/-- A new record drops the oldest one at most, which is an earlier one than `r` while the log is longer than what follows. -/
theorem LoggedWithin.logEvent (h : LoggedWithin n d code a b) (hn : n < 4095) (c x y : Nat) :
    LoggedWithin (n + 1) (logEvent d c x y) code a b := by
  obtain ⟨l, r, rs, hlog, hlen, hr⟩ := h
  simp only [LoggedWithin, logEvent_ev, pushLog, hlog]
  split
  next hfull =>
    have hne : l ≠ [] := by rintro rfl; simp at hfull; omega
    refine ⟨l.tail, r, rs ++ [newRec d c x y], ?_, by simpa using hlen, hr⟩
    rw [List.tail_append_of_ne_nil hne, List.append_assoc, List.cons_append]
  next => exact ⟨l, r, rs ++ [newRec d c x y], by simp, by simpa using hlen, hr⟩

theorem LoggedWithin.raiseSec (h : LoggedWithin n d code a b) (hn : n < 4095) (c x y : Nat) :
    LoggedWithin (n + 1) (raiseSec d c x y) code a b := by
  unfold Machine.raiseSec
  split
  · exact h.mono (Nat.le_succ n)
  · exact LoggedWithin.logEvent (h.of_log_eq (by rfl)) hn _ _ _

theorem LoggedWithin.raise (h : LoggedWithin n d code a b) (hn : n < 4094) (c x y : Nat) :
    LoggedWithin (n + 2) (raise d c x y) code a b := by
  have hlog := h.logEvent (show n < 4095 by omega) c x y
  rcases raise_cases d c x y with hcase | hcase
  · rw [hcase]; exact hlog.mono (by omega)
  · rw [hcase]; exact hlog.raiseSec (by omega) _ _ _

/-- An event raised is followed by one record at most, that of the records lost. -/
theorem raise_loggedWithin (d : Dev) (code a b : Nat) : LoggedWithin 1 (raise d code a b) code a b := by
  have hlog : LoggedWithin 0 (logEvent d code a b) code a b := by
    obtain ⟨l, r, hl, hc, ha, hb, -⟩ := logEvent_log d code a b
    exact ⟨l, r, [], hl, Nat.le_refl 0, hc, ha, hb⟩
  rcases raise_cases d code a b with hcase | hcase
  · rw [hcase]; exact hlog.mono (by omega)
  · rw [hcase]; exact hlog.raiseSec (by decide) _ _ _

end

/-! ### Checked mode at a start or boundary (R167) -/

section
variable (d : Dev)

/-- Settling checked mode changes nothing, or its flag with the objects that show it, and raises an event. -/
theorem checkedSettle_cases : checkedSettle d = d ∨ ∃ w code, checkedSettle d =
    raise (setObj (setObj { d with sup := { d.sup with checked := w } } 0x4003 0 (b2n w)) 0x5003 0 (b2n w)) code 0 0 := by
  unfold checkedSettle
  simp only
  split
  · exact .inl rfl
  · exact .inr ⟨_, _, rfl⟩

theorem checkedSettle_seq : (checkedSettle d).seq = d.seq := by
  rcases checkedSettle_cases d with h | ⟨_, _, h⟩ <;> rw [h]
  simp

theorem checkedSettle_mem : (checkedSettle d).mem = d.mem := by
  rcases checkedSettle_cases d with h | ⟨_, _, h⟩ <;> rw [h]
  simp

theorem cfg_checkedSettle {i k : Nat} (hk : k < 256) (h4003 : 0x4003 ≠ i) (h5003 : 0x5003 ≠ i) (h1124 : i ≠ 0x1124) :
    cfg (checkedSettle d) i k = cfg d i k := by
  rcases checkedSettle_cases d with h | ⟨_, _, h⟩
  · rw [h]
  · rw [h, cfg_raise_idx _ _ _ _ _ _ hk h1124, cfg_setObj_idx _ _ _ _ _ _ (by decide) hk h5003,
      cfg_setObj_idx _ _ _ _ _ _ (by decide) hk h4003]
    rfl

variable {d}

theorem LoggedWithin.checkedSettle {n code a b : Nat} (h : LoggedWithin n d code a b) (hn : n < 4094) :
    LoggedWithin (n + 2) (checkedSettle d) code a b := by
  rcases checkedSettle_cases d with heq | ⟨_, _, heq⟩
  · rw [heq]; exact h.mono (by omega)
  · rw [heq]; exact LoggedWithin.raise (h.of_log_eq (by rfl)) hn _ _ _

end

/-! ### START (R295, R391) -/

theorem getLast?_out_send (d : Dev) (m : OutMsg) : (send d m).out.getLast? = some m := List.getLast?_concat

section
variable (d : Dev)

theorem startCheck_snd : ∃ w, (startCheck d).2 = setObj d 0xCE20 0 w := ⟨_, rfl⟩

theorem startJob_seq : (startJob d).seq.job = .running ∧ (startJob d).seq.phase = .stepRunning ∧
    (startJob d).seq.step = cfg d 0x6021 0 ∧ (startJob d).seq.tasks = [] := by
  simp only [startJob, checkedSettle_seq, raise_seq, and_self]

theorem startJob_logged : Logged (startJob d) 0x0606 0 (cfg d 0x6021 0) :=
  ((raise_loggedWithin _ _ _ _).checkedSettle (by decide)).logged

variable {d}

/-- A wrong random offset fails the check. -/
theorem startCheck_of_wrong (h : cfg d 0xCE11 0 ≠ cfg d 0x6021 0) : (startCheck d).1 = false := by
  simp [startCheck, h]

theorem jobStart_of_passed (hidle : d.seq.job = .idle) (hrun : cfg d 0xE001 0 = 0xFF) (hrec : recoveryForbids d = false)
    (hgen : genForbids d = false) (hcheck : (startCheck d).1 = true) :
    jobStart d = send (startJob (startCheck d).2) (.status 0x6022 0 0) := by
  have hsplit : startCheck d = (true, (startCheck d).2) := Prod.ext hcheck rfl
  rw [jobStart, hidle, hrun, hrec, hgen, hsplit]
  rfl

theorem jobStart_of_failed (hidle : d.seq.job = .idle) (hrun : cfg d 0xE001 0 = 0xFF) (hrec : recoveryForbids d = false)
    (hgen : genForbids d = false) (hcheck : (startCheck d).1 = false) :
    jobStart d = send (raise (startCheck d).2 0x8CE1 (cfg d 0xCE11 0) (fld (cfg (startCheck d).2 0xCE20 0) 63 32))
      (.status 0x6022 0 6) := by
  have hsplit : startCheck d = (false, (startCheck d).2) := Prod.ext hcheck rfl
  rw [jobStart, hidle, hrun, hrec, hgen, hsplit]
  rfl

end

/-! ### STOP and HALT (R295, R296) -/

section
variable {d : Dev}

theorem jobStop_of_running (h : d.seq.job = .running) :
    jobStop d = send { d with seq := { d.seq with job := .stopping, stopPending := true } } (.status 0x6022 0 0) := by
  simp only [jobStop, if_pos h]

theorem jobStop_of_not_running (h : d.seq.job ≠ .running) : jobStop d = send d (.status 0x6022 0 0) := by
  simp only [jobStop, if_neg h]

theorem ctxAt_unitFault_ne {x c : Nat} (h : x ≠ c) (code : Nat) : ctxAt (unitFault d x code) c = ctxAt d c := by
  unfold unitFault
  simp only
  split
  · exact ctxAt_setCtx_ne _ _ _ _ h
  · rfl

theorem ctxLive_unitFault_same {c : Nat} (hc : c < 64) (code : Nat) : ctxLive (ctxAt (unitFault d c code) c) = false := by
  unfold unitFault
  simp only
  split
  · exact (congrArg ctxLive (ctxAt_setCtx_same d c _)).trans rfl
  next hdead => simpa [hc] using hdead

/-- A context that is not at work is not brought back by a fault. -/
theorem ctxLive_unitFault_of_dead {c : Nat} (h : ctxLive (ctxAt d c) = false) (x code : Nat) :
    ctxLive (ctxAt (unitFault d x code) c) = false := by
  by_cases hx : x = c
  · subst hx
    simp [unitFault, h]
  · rwa [ctxAt_unitFault_ne hx]

theorem ctxLive_foldl_unitFault_of_dead {c : Nat} (cs : List Nat) (h : ctxLive (ctxAt d c) = false) :
    ctxLive (ctxAt (cs.foldl (fun x c => unitFault x c 0) d) c) = false := by
  induction cs generalizing d with
  | nil => exact h
  | cons k cs ih => exact ih (ctxLive_unitFault_of_dead h k 0)

theorem ctxLive_foldl_unitFault_of_mem {c : Nat} {cs : List Nat} (hc : c ∈ cs) (hlt : c < 64) :
    ctxLive (ctxAt (cs.foldl (fun x c => unitFault x c 0) d) c) = false := by
  induction cs generalizing d with
  | nil => cases hc
  | cons k cs ih =>
    rcases List.mem_cons.mp hc with rfl | hc
    · exact ctxLive_foldl_unitFault_of_dead cs (ctxLive_unitFault_same hlt 0)
    · exact ih hc

theorem lt_of_mem_enabledCtxs {c : Nat} (h : c ∈ enabledCtxs d) : c < 64 :=
  List.mem_range.mp (List.mem_of_mem_filter h)

/-- HALT stops every enabled context at work, and changes neither memory nor what was sent. -/
theorem haltAll_spec (d : Dev) : (haltAll d).seq.job = .halted ∧ (haltAll d).out = d.out ∧ (haltAll d).mem = d.mem ∧
    ∀ c ∈ enabledCtxs d, ctxLive (ctxAt (haltAll d) c) = false := by
  obtain ⟨_, _, _, _, _, hfaults⟩ := foldl_faults _ (fun d x => unitFault_faults d x 0) (enabledCtxs d) d
  refine ⟨rfl, ?_, ?_, fun c hc => ctxLive_foldl_unitFault_of_mem hc (lt_of_mem_enabledCtxs hc)⟩
  · exact (congrArg Dev.out hfaults :)
  · exact (congrArg Dev.mem hfaults :)

end

/-! ### The stop step (R502) -/

section
variable {d : Dev} {n : Nat}

/-- While the boundary has not done its work, a stop step that is not past is set. -/
theorem stopAtStep_of_ahead (hn : n ≠ 0) (hahead : d.seq.step ≤ n) (hphase : d.seq.phase = .stepRunning) :
    stopAtStep d n = send (setObj d 0x6026 0 n) (.status 0x6026 0 0) := by
  simp [stopAtStep, hn, hphase, Nat.not_lt.mpr hahead]

theorem stopAtStep_of_past (hn : n ≠ 0) (hpast : n < d.seq.step) : stopAtStep d n = send d (.status 0x6026 0 6) := by
  simp [stopAtStep, hn, hpast]

/-- Once the boundary of the pending stop step has done its work, the stop step stays. -/
theorem stopAtStep_of_worked (hphase : d.seq.phase = .worked) (hpend : cfg d 0x6026 0 = d.seq.step)
    (hstep : d.seq.step ≠ 0) (n : Nat) : stopAtStep d n = send d (.status 0x6026 0 6) := by
  simp [stopAtStep, hphase, hpend, hstep]

/-- Cancelling the stop step answers DONE and leaves memory and tasks alone. -/
theorem stopAtStep_zero (hphase : d.seq.phase ≠ .worked) : cfg (stopAtStep d 0) 0x6026 0 = 0 ∧
    (stopAtStep d 0).out = d.out ++ [.status 0x6026 0 0] ∧ (stopAtStep d 0).mem = d.mem ∧
    (stopAtStep d 0).seq.tasks = d.seq.tasks := by
  have hopen : ¬ ((cfg d 0x6026 0 ≠ 0 ∧ cfg d 0x6026 0 = d.seq.step ∧ d.seq.phase = .worked) ∨
      (0 ≠ 0 ∧ 0 < d.seq.step)) := by simp [hphase]
  simp only [stopAtStep, if_neg hopen, if_true]
  exact ⟨cfg_setObj_same d 0x6026 0 0, rfl, rfl, rfl⟩

end

namespace Sequencer

/-- Settles O19: each clause is the lemma on its command, with the object served. -/
theorem jobControl : Obligations.JobControl := by
  refine ⟨?start, ?wrongOffset, ?stop, ?stopIdle, ?halt, ?stepSet, ?stepPast, ?stepCancelled, ?stepDone⟩
  case start =>
    intro s hs hidle hrun hrec hgen hcheck
    obtain ⟨w, hobj⟩ := startCheck_snd s.dev
    obtain ⟨hjob, hphase, hstep, htasks⟩ := startJob_seq (startCheck s.dev).2
    have hcfg : cfg (startCheck s.dev).2 0x6021 0 = cfg s.dev 0x6021 0 := by
      rw [hobj, cfg_setObj_idx _ _ _ _ _ _ (by decide) (by decide) (by decide)]
    have hlogged := startJob_logged (startCheck s.dev).2
    rw [hcfg] at hstep hlogged
    refine ⟨_, by rw [exec_jobStart, onObject_serving hs, jobStart_of_passed hidle hrun hrec hgen hcheck], ?_⟩
    rw [send_seq, Logged_send]
    exact ⟨hjob, hphase, hstep, htasks, getLast?_out_send _ _, hlogged⟩
  case wrongOffset =>
    intro s hs hidle hrun hrec hgen hwrong
    obtain ⟨w, hobj⟩ := startCheck_snd s.dev
    refine ⟨_, by rw [exec_jobStart, onObject_serving hs,
      jobStart_of_failed hidle hrun hrec hgen (startCheck_of_wrong hwrong)], ?seq, getLast?_out_send _ _, ?logged, ?mem⟩
    case seq => simp [hobj]
    case logged =>
      rw [cfg_send, cfg_raise_idx _ _ _ _ _ _ (by decide) (by decide), Logged_send]
      exact raise_logged _ _ _ _
    case mem => simp [hobj]
  case stop =>
    intro s hs hrunning
    rw [exec_jobStop, onObject_serving hs, jobStop_of_running hrunning]
  case stopIdle =>
    intro s hs hnot
    rw [exec_jobStop, onObject_serving hs, jobStop_of_not_running hnot]
  case halt =>
    intro s hs
    obtain ⟨hjob, hout, hmem, hctxs⟩ := haltAll_spec s.dev
    refine ⟨_, by rw [exec_jobHalt, onObject_serving hs, jobHalt], ?_⟩
    exact ⟨hjob, by rw [send_out, hout], hmem, hctxs⟩
  case stepSet =>
    intro s n hs hn hahead hphase
    rw [exec_stopAtStep, onObject_serving hs, stopAtStep_of_ahead hn hahead hphase]
  case stepPast =>
    intro s n hs hn hpast
    rw [exec_stopAtStep, onObject_serving hs, stopAtStep_of_past hn hpast]
  case stepCancelled =>
    intro s hs hphase
    exact ⟨_, by rw [exec_stopAtStep, onObject_serving hs], stopAtStep_zero (by rw [hphase]; decide)⟩
  case stepDone =>
    intro s n hs hphase hpend hstep
    rw [exec_stopAtStep, onObject_serving hs, stopAtStep_of_worked hphase hpend hstep]

end Sequencer

end Sys2Proof.Machine

namespace Sys2Proof.Machine

/-! ### Work on distinct units, one after another -/

/-- Of a fold of steps that each change one unit, over distinct units all ready for theirs, each unit named takes its own
step once and the others none. -/
theorem foldl_at_of_nodup {α : Type} (get : Dev → Nat → α) (step : Dev → Nat → Dev) (change : α → α) (ready : α → Prop)
    (hsame : ∀ d t, ready (get d t) → get (step d t) t = change (get d t))
    (hother : ∀ d t u, t ≠ u → get (step d t) u = get d u) {ts : List Nat} (hnd : ts.Nodup) {d : Dev}
    (hready : ∀ t ∈ ts, ready (get d t)) (u : Nat) :
    get (ts.foldl step d) u = if u ∈ ts then change (get d u) else get d u := by
  induction ts generalizing d with
  | nil => simp
  | cons t ts ih =>
    obtain ⟨ht, hnd⟩ := List.nodup_cons.mp hnd
    have hkeep : ∀ u ∈ ts, get (step d t) u = get d u := fun u hu => hother d t u (fun h => ht (h ▸ hu))
    rw [List.foldl_cons, ih hnd (fun u hu => by rw [hkeep u hu]; exact hready u (List.mem_cons_of_mem t hu))]
    by_cases hu : u ∈ ts
    · rw [if_pos hu, if_pos (List.mem_cons_of_mem t hu), hkeep u hu]
    · rw [if_neg hu]
      by_cases htu : t = u
      · subst htu
        rw [if_pos List.mem_cons_self, hsame d t (hready t List.mem_cons_self)]
      · rw [hother d t u htu, if_neg (by simp [hu, Ne.symm htu])]

/-- A part of the device is the same. -/
def Kept {β : Type} (part : Dev → β) (d e : Dev) : Prop := part e = part d

/-- A fold of steps that each leave a part of the device alone leaves it alone. -/
theorem foldl_keeps {α β : Type} (part : Dev → β) {step : Dev → α → Dev} (h : ∀ d x, Kept part d (step d x))
    (l : List α) (d : Dev) : part (l.foldl step d) = part d := by
  induction l generalizing d with
  | nil => rfl
  | cons x l ih => rw [List.foldl_cons, ih, h]

/-! ### The boundary begins: a DRAIN in every engine, a FENCE in every TU (R270, R722) -/

section
variable (d : Dev)

/-- Placing FENCEs changes the TUs and what is owed, and nothing else. -/
def FencesOnly (d e : Dev) : Prop :=
  ∃ tus owed, e = { d with tus := tus, seq := { d.seq with owedFences := owed } }

theorem FencesOnly.trans {a b c : Dev} (h : FencesOnly a b) (g : FencesOnly b c) : FencesOnly a c := by
  obtain ⟨_, _, rfl⟩ := h
  obtain ⟨t, o, rfl⟩ := g
  exact ⟨t, o, rfl⟩

theorem FencesOnly.feAt {d e : Dev} (h : FencesOnly d e) (f : Nat) : feAt e f = feAt d f := by
  obtain ⟨_, _, rfl⟩ := h; rfl

theorem fenceWhenRoom_only (t : Nat) : FencesOnly d (fenceWhenRoom d t) := by
  unfold fenceWhenRoom
  split
  · exact ⟨_, _, rfl⟩
  · exact ⟨d.tus, d.seq.owedFences, rfl⟩

theorem oweFences_only (ts : List Nat) : FencesOnly d (oweFences d ts) := by
  have hfold : ∀ (l : List Nat) (e : Dev), FencesOnly e (l.foldl fenceWhenRoom e) := by
    intro l
    induction l with
    | nil => exact fun e => ⟨e.tus, e.seq.owedFences, rfl⟩
    | cons t l ih => exact fun e => (fenceWhenRoom_only e t).trans (ih _)
  exact FencesOnly.trans ⟨d.tus, _, rfl⟩ (hfold ts (fencesOwed d ts))

theorem tuAt_fenceWhenRoom_ne {t u : Nat} (h : t ≠ u) : tuAt (fenceWhenRoom d t) u = tuAt d u := by
  unfold fenceWhenRoom
  split
  · exact tuAt_setTu_ne _ _ _ _ h
  · rfl

variable {d}

/-- TUs with room in their queues get a FENCE each. -/
theorem tuAt_oweFences {ts : List Nat} (hnd : ts.Nodup) (hroom : ∀ t ∈ ts, (tuAt d t).queue.length < 64) {t : Nat}
    (ht : t ∈ ts) : tuAt (oweFences d ts) t = { tuAt d t with queue := (tuAt d t).queue ++ [fenceEntry] } := by
  have hfold := foldl_at_of_nodup tuAt fenceWhenRoom (fun u => { u with queue := u.queue ++ [fenceEntry] })
    (fun u => u.queue.length < 64) (fun e t h => by rw [fenceWhenRoom_of_room h, tuAt_setTu_same])
    (fun e _ _ h => tuAt_fenceWhenRoom_ne e h) hnd (d := fencesOwed d ts) hroom t
  rwa [if_pos ht] at hfold

/-- The DRAIN the sequencer places names no stage context and no task. -/
def drainEntry : FdEntry := { desc := drainDesc, ctx := 64, task := 0, start := 0, tu := 128, reload := none, wdone := false }

/-- An engine with a DRAIN in each of its four queues. -/
def withDrain (e : Fe) : Fe :=
  { e with queues := [0, 1, 2, 3].foldl (fun q i => tset q i (tget [] q i ++ [drainEntry])) e.queues }

theorem tget_queues_withDrain {q : Nat} (hq : q < 4) (e : Fe) :
    tget [] (withDrain e).queues q = tget [] e.queues q ++ [drainEntry] :=
  (tget_appendQueues (by decide) drainEntry e.queues q).trans (if_pos (by simp; omega))

/-- Each queue of the engine has a free entry. -/
def drainRoom (e : Fe) : Prop := ∀ q < 4, (tget [] e.queues q).length < queueDepth q

theorem drainWhenRoom_of_room {f : Nat} (h : drainRoom (feAt d f)) :
    drainWhenRoom d f = setFe { d with seq := { d.seq with owedDrains := d.seq.owedDrains.filter (fun x => x != f) } } f
      (withDrain (feAt d f)) := by
  have hall : [0, 1, 2, 3].all (fun q => decide ((tget [] (feAt d f).queues q).length < queueDepth q)) = true := by
    rw [List.all_eq_true]
    intro q hq
    exact decide_eq_true (h q (by simp at hq; omega))
  rw [drainWhenRoom, if_pos hall]
  rfl

variable (d) in
theorem feAt_drainWhenRoom_ne {f k : Nat} (h : f ≠ k) : feAt (drainWhenRoom d f) k = feAt d k := by
  unfold drainWhenRoom
  split
  · exact feAt_setFe_ne _ _ _ _ h
  · rfl

/-- Engines with room in their queues get a DRAIN each. -/
theorem feAt_oweDrains {fs : List Nat} (hnd : fs.Nodup) (hroom : ∀ f ∈ fs, drainRoom (feAt d f)) {f : Nat}
    (hf : f ∈ fs) : feAt (oweDrains d fs) f = withDrain (feAt d f) := by
  have hfold := foldl_at_of_nodup feAt drainWhenRoom withDrain drainRoom
    (fun e f h => by rw [drainWhenRoom_of_room h, feAt_setFe_same]) (fun e _ _ h => feAt_drainWhenRoom_ne e h) hnd
    (d := { d with seq := { d.seq with owedDrains := d.seq.owedDrains ++ fs } }) hroom f
  rwa [if_pos hf] at hfold

/-- Placing DRAINs changes the engines and what is owed, and nothing else. -/
def DrainsOnly (d e : Dev) : Prop :=
  ∃ fes owed, e = { d with fes := fes, seq := { d.seq with owedDrains := owed } }

theorem DrainsOnly.trans {a b c : Dev} (h : DrainsOnly a b) (g : DrainsOnly b c) : DrainsOnly a c := by
  obtain ⟨_, _, rfl⟩ := h
  obtain ⟨t, o, rfl⟩ := g
  exact ⟨t, o, rfl⟩

theorem DrainsOnly.tuAt {e : Dev} (h : DrainsOnly d e) (t : Nat) : tuAt e t = tuAt d t := by
  obtain ⟨_, _, rfl⟩ := h; rfl

variable (d) in
theorem drainWhenRoom_only (f : Nat) : DrainsOnly d (drainWhenRoom d f) := by
  unfold drainWhenRoom
  split
  · exact ⟨_, _, rfl⟩
  · exact ⟨d.fes, d.seq.owedDrains, rfl⟩

variable (d) in
theorem oweDrains_only (fs : List Nat) : DrainsOnly d (oweDrains d fs) := by
  have hfold : ∀ (l : List Nat) (e : Dev), DrainsOnly e (l.foldl drainWhenRoom e) := by
    intro l
    induction l with
    | nil => exact fun e => ⟨e.fes, e.seq.owedDrains, rfl⟩
    | cons f l ih => exact fun e => (drainWhenRoom_only e f).trans (ih _)
  exact DrainsOnly.trans ⟨d.fes, _, rfl⟩ (hfold fs _)

variable (d) in
/-- The device once a DRAIN is placed in every engine and a FENCE in every TU, as far as there is room. -/
def unitsFenced : Dev := oweFences (oweDrains d (List.range 16)) (List.range 128)

theorem unitsFenced_frame : (unitsFenced d).mem = d.mem ∧ (unitsFenced d).out = d.out := by
  obtain ⟨_, _, hdrains⟩ := oweDrains_only d (List.range 16)
  obtain ⟨_, _, hfences⟩ := oweFences_only (oweDrains d (List.range 16)) (List.range 128)
  rw [unitsFenced, hfences, hdrains]
  exact ⟨rfl, rfl⟩

theorem tuAt_unitsFenced (hroom : ∀ t, t < 128 → (tuAt d t).queue.length < 64) {t : Nat} (ht : t < 128) :
    tuAt (unitsFenced d) t = { tuAt d t with queue := (tuAt d t).queue ++ [fenceEntry] } := by
  have htu : ∀ u, tuAt (oweDrains d (List.range 16)) u = tuAt d u := (oweDrains_only d _).tuAt
  rw [unitsFenced, tuAt_oweFences List.nodup_range
    (fun u hu => by rw [htu]; exact hroom u (List.mem_range.mp hu)) (List.mem_range.mpr ht), htu]

theorem feAt_unitsFenced (hroom : ∀ f < 16, drainRoom (feAt d f)) {f : Nat} (hf : f < 16) :
    feAt (unitsFenced d) f = withDrain (feAt d f) := by
  rw [unitsFenced, (oweFences_only _ _).feAt, feAt_oweDrains List.nodup_range (fun f hf => hroom f (List.mem_range.mp hf)) (List.mem_range.mpr hf)]

/-- The boundary begins once every context is at its end and no task is being switched. -/
theorem boundaryBegin_of_ready (hjob : jobActive d = true) (hphase : d.seq.phase = .stepRunning)
    (hswitch : d.seq.switching = []) (hready : boundaryReady d = true) :
    boundaryBegin d = { unitsFenced d with seq := { (unitsFenced d).seq with phase := .draining } } := by
  simp [boundaryBegin, hjob, hphase, hswitch, hready, unitsFenced]

/-- Asked again, it places what full queues held back. -/
theorem boundaryBegin_of_draining (hphase : d.seq.phase = .draining) :
    boundaryBegin d = (List.range 16).foldl placeOwed d := by
  simp [boundaryBegin, hphase]

end

end Sys2Proof.Machine

namespace Sys2Proof.Machine

/-! ### The end of a step, the boundary's work, and the next step (R293, R294, R390, R502) -/

section
variable {d : Dev}

theorem stepEnd_of_done {c : Nat} (hjob : jobActive d = true) (hphase : d.seq.phase = .stepRunning)
    (hen : ctxEn d c = true) (hlive : ctxLive (ctxAt d c) = true) (hend : atStepEnd d c = true) :
    stepEnd d c = setCtx d c { ctxAt d c with atEnd := true } := by
  have hwork : d.seq.job = .running ∨ d.seq.job = .stopping := by simpa [jobActive] using hjob
  simp only [stepEnd, hwork, hphase, hen, hlive, hend, and_self, if_true]

/-- The boundary's work: close_step, the torpor tests, the armed generation and the monitor, in that order; the hold for a cut
begins with it (log 61). -/
theorem boundaryWork_of_quiet (hphase : d.seq.phase = .draining) (hquiet : unitsQuiet d = true)
    (hdone : versionsDone d = true) :
    let d1 := torporTests (rebuildTick (closeAll d))
    let d2 := healthStep (genBoundary { d1 with seq := { d1.seq with phase := .worked } } d.seq.step)
    boundaryWork d = { d2 with
      seq := { d2.seq with cutHeld := cutHere d2 }, up := { d2.up with heldForCut := cutHere d2 } } := by
  have hdue : (d.seq.phase == .draining && unitsQuiet d && versionsDone d) = true := by simp [hphase, hquiet, hdone]
  simp only [boundaryWork, if_pos hdue]

theorem boundaryTimeout_of_waiting (hphase : d.seq.phase = .draining) (hnot : d.seq.timedOut = false)
    (hquiet : unitsQuiet d = true) (hwait : versionsDone d = false) :
    boundaryTimeout d = raise { d with seq := { d.seq with timedOut := true } } 0x8608 0 d.seq.step := by
  have hdue : (d.seq.phase == .draining && !d.seq.timedOut && unitsQuiet d && !versionsDone d) = true := by
    simp [hphase, hnot, hquiet, hwait]
  rw [boundaryTimeout, if_pos hdue]

variable (d)

theorem rejoin_seq : (rejoin d).seq = d.seq := foldl_keeps Dev.seq (fun e _ => raise_seq e _ _ _) _ _

theorem rejoin_mem : (rejoin d).mem = d.mem := foldl_keeps Dev.mem (fun e _ => raise_mem e _ _ _) _ _

/-- The end of a replay changes nothing, or the recovery's state and its object, and raises an event. -/
theorem replayEnd_cases (n : Nat) : replayEnd d n = d ∨ ∃ rc e,
    replayEnd d n = raise (setObj { d with rc := rc } 0xC211 0 0) 0x0C46 0 e := by
  unfold replayEnd
  split
  · split
    · exact .inr ⟨_, _, rfl⟩
    · exact .inl rfl
  · exact .inl rfl

theorem replayEnd_seq (n : Nat) : (replayEnd d n).seq = d.seq := by
  rcases replayEnd_cases d n with h | ⟨_, _, h⟩ <;> rw [h]
  simp

theorem replayEnd_mem (n : Nat) : (replayEnd d n).mem = d.mem := by
  rcases replayEnd_cases d n with h | ⟨_, _, h⟩ <;> rw [h]
  simp

theorem cfg_replayEnd (n : Nat) {i k : Nat} (hk : k < 256) (hC211 : 0xC211 ≠ i) (h1124 : i ≠ 0x1124) :
    cfg (replayEnd d n) i k = cfg d i k := by
  rcases replayEnd_cases d n with h | ⟨_, _, h⟩
  · rw [h]
  · rw [h, cfg_raise_idx _ _ _ _ _ _ hk h1124, cfg_setObj_idx _ _ _ _ _ _ (by decide) hk hC211]
    rfl

/-- The device with the next step begun: SsStep and the random offset are n + 1, and the counts of the step begin anew. -/
def stepTaken (d : Dev) (us : Nat) : Dev :=
  let r := rejoin d
  setObj (setObj { r with
    seq := { r.seq with
      step := (d.seq.step + 1) % 2 ^ 64, phase := .stepRunning, timedOut := false
      ctxs := r.seq.ctxs.map (fun e => (e.1, nextStepCtx e.2)) }
    ev := { r.ev with onceStep := [] }
    sup := { r.sup with disagree := [], named := [] } } 0xCE11 0 ((d.seq.step + 1) % 2 ^ 64)) 0x6025 0 us

/-- The next step with replay and checked mode settled. -/
def stepSettled (d : Dev) (us : Nat) : Dev := checkedSettle (replayEnd (stepTaken d us) d.seq.step)

theorem stepSettled_seq (us : Nat) : (stepSettled d us).seq.step = (d.seq.step + 1) % 2 ^ 64 ∧
    (stepSettled d us).seq.phase = .stepRunning ∧ (stepSettled d us).seq.job = d.seq.job := by
  rw [stepSettled, checkedSettle_seq, replayEnd_seq]
  exact ⟨rfl, rfl, (congrArg Seq.job (rejoin_seq d) :)⟩

theorem stepSettled_mem (us : Nat) : (stepSettled d us).mem = d.mem := by
  rw [stepSettled, checkedSettle_mem, replayEnd_mem]
  exact rejoin_mem d

theorem cfg_stepSettled_offset (us : Nat) : cfg (stepSettled d us) 0xCE11 0 = (d.seq.step + 1) % 2 ^ 64 := by
  rw [stepSettled, cfg_checkedSettle _ (by decide) (by decide) (by decide) (by decide),
    cfg_replayEnd _ _ (by decide) (by decide) (by decide), stepTaken,
    cfg_setObj_idx _ _ _ _ _ _ (by decide) (by decide) (by decide), cfg_setObj_same]

theorem cfg_stepSettled_duration (us : Nat) : cfg (stepSettled d us) 0x6025 0 = us := by
  rw [stepSettled, cfg_checkedSettle _ (by decide) (by decide) (by decide) (by decide),
    cfg_replayEnd _ _ (by decide) (by decide) (by decide), stepTaken, cfg_setObj_same]

/-- The job idle, with no stop step pending (R295, R502). -/
def jobEnded (d : Dev) : Dev :=
  let m := setObj d 0x6026 0 0
  { m with seq := { m.seq with job := .idle, stopPending := false } }

theorem cfg_jobEnded {i k : Nat} (hk : k < 256) (h : 0x6026 ≠ i) : cfg (jobEnded d) i k = cfg d i k :=
  cfg_setObj_idx d _ _ _ _ _ (by decide) hk h

variable {d}

/-- The step advances once the swap of the scale tables is done (log 16) and no cut holds the boundary. -/
theorem stepAdvance_of_worked (hphase : d.seq.phase = .worked) (hengines : d.sup.enginesDone = 0)
    (hcut : d.seq.cutHeld = false) (us : Nat) : stepAdvance d us =
      if stopHere d then raise (jobEnded (stepSettled d us)) 0x0607 0 d.seq.step else stepSettled d us := by
  have hdue : (d.seq.phase == .worked && d.sup.enginesDone == 0 && !d.seq.cutHeld) = true := by
    simp [hphase, hengines, hcut]
  rw [stepAdvance, if_pos hdue]
  rfl

end

/-! ### A context stops (R296) -/

section
variable (d : Dev)

theorem shadowDrop_seq (t b : Nat) : (shadowDrop d t b).seq = d.seq := by
  unfold shadowDrop; split <;> rfl

theorem dropTiles_seq (c t : Nat) : (dropTiles d c t).seq = d.seq := by
  have hdrop : ∀ x b, (if (tuBank (tuAt d t) b).ctx = c then shadowDrop x t b else x).seq = x.seq := by
    intro x b
    split
    · exact shadowDrop_seq x t b
    · rfl
  simp only [dropTiles]
  split
  · exact (hdrop _ 1).trans (hdrop d 0)
  · exact (hdrop _ 1).trans (hdrop d 0)

theorem takeHead_seq (q : Nat) (nak : Option Nat) : (takeHead d q nak).2.seq = d.seq := by
  simp only [takeHead]
  split <;> split <;> rfl

theorem putFlit_seq (q s : Nat) (f : TxFlit) : (putFlit d q s f).seq = d.seq := takeHead_seq d q none

theorem pumpStream_seq (fuel s : Nat) : (pumpStream fuel s d).seq = d.seq := by
  induction fuel generalizing d with
  | zero => rfl
  | succ fuel ih =>
    simp only [pumpStream]
    split
    · rfl
    · split
      · rw [ih, putFlit_seq]; rfl
      · rfl

theorem queueMsg_seq (q : Nat) (m : RelayMsg) : (queueMsg d q m).seq = d.seq :=
  foldl_keeps Dev.seq (fun e s => pumpStream_seq e _ s) _ _

theorem noteDrop_seq (h : Nat) : (noteDrop d h).seq = d.seq := raiseStep_seq _ _ _ _

variable {d} in
theorem forwardMsg_seq {e : Dev} {m : RelayMsg} {transit : Bool} (h : forwardMsg d m transit = some e) :
    e.seq = d.seq := by
  simp only [forwardMsg] at h
  split at h
  · cases h
  split at h
  · cases h; rfl
  split at h
  · cases h
  split at h
  · cases h
  · cases h; exact queueMsg_seq _ _ _

theorem dropMsg_seq (h : Nat) : (dropMsg d h).seq = d.seq := by
  simp only [dropMsg]
  split
  · exact noteDrop_seq d h
  split
  next hfwd => rw [forwardMsg_seq hfwd, noteDrop_seq]
  next => rw [noteDrop_seq, noteDrop_seq]

theorem routeMsg_seq (m : RelayMsg) (transit : Bool) : (routeMsg d m transit).seq = d.seq := by
  simp only [routeMsg]
  split
  · exact dropMsg_seq d _
  split
  next hfwd => exact forwardMsg_seq hfwd
  next =>
    rw [dropMsg_seq]
    split
    · exact raiseStep_seq _ _ _ _
    · rfl

/-- Sending on the Relay leaves the sequencer alone. -/
theorem relaySend_keptSeq (dst kind role rsp flow arg : Nat) (body : List Byte) :
    Kept Dev.seq d (relaySend d dst kind role rsp flow arg body) := by
  rw [Kept, relaySend, routeMsg_seq]

theorem sendNotice_seq (e kind v : Nat) : (sendNotice d e kind v).seq = d.seq := by
  rw [sendNotice]
  exact foldl_keeps Dev.seq (fun x _ => relaySend_keptSeq x _ _ _ _ _ _ _) _ _

theorem releaseCheck_seq (e : Nat) : (releaseCheck d e).seq = d.seq := by
  refine foldl_keeps Dev.seq (fun x s => ?_) _ _
  dsimp only
  split
  · split
    · exact sendNotice_seq _ _ _ _
    · rfl
  · rfl

/-! ### What the end of a task's uses leaves of the tasks (R341, R344) -/

variable {d} in
theorem FaultsOnly.tasks {e : Dev} (h : FaultsOnly d e) : e.seq.tasks = d.seq.tasks := by
  obtain ⟨_, _, _, _, _, rfl⟩ := h; rfl

variable {d} in
theorem ReadsOnly.tasks {e : Dev} (h : ReadsOnly d e) : e.seq.tasks = d.seq.tasks := by
  obtain ⟨_, _, _, _, _, _, _, _, -, rfl⟩ := h; rfl

theorem semRead_tasks (c n ctx : Nat) : (semRead d c n ctx).seq.tasks = d.seq.tasks := by
  unfold semRead
  split
  · exact (raiseFault_faults d _ _ _ _).tasks
  · rfl

theorem semSignal_tasks (c n a ctx : Nat) : (semSignal d c n a ctx).seq.tasks = d.seq.tasks := by
  simp only [semSignal]
  split
  · rfl
  split
  · exact (raiseFault_faults _ _ _ _ _).tasks.trans (semRead_tasks d c n ctx)
  · exact semRead_tasks d c n ctx

theorem writeThrough_tasks (h t a : Nat) (bs : List Byte) (q : Acc) :
    (writeThrough d h t a bs q).seq.tasks = d.seq.tasks :=
  ((cacheLines_reads d a bs.length t true q).trans (noteRemote_reads _ h a bs.length)).tasks

theorem serveGaths_tasks (e : Nat) (gs : List Gwait) : (serveGaths e gs d).seq.tasks = d.seq.tasks := by
  induction gs generalizing d with
  | nil => rfl
  | cons g gs ih =>
    simp only [serveGaths]
    split
    · rfl
    · exact ih d
    · exact writeThrough_tasks _ _ _ _ _ _
    · rw [ih, semSignal_tasks]; rfl

/-- The end of a task's uses starts and ends no task. -/
theorem dropUses_tasks (id : Nat) : (dropUses d id).seq.tasks = d.seq.tasks := by
  refine foldl_keeps (fun x => x.seq.tasks) (fun x e => ?_) _ _
  dsimp only [Kept]
  rw [serveEntry, serveGaths_tasks, releaseCheck_seq]

/-- The tasks left once those of `ids` and their uses are dropped. -/
theorem tasks_foldl_dropTask (ids : List Nat) : (ids.foldl (fun y i => dropUses (dropTask y i) i) d).seq.tasks =
    d.seq.tasks.filter (fun t => !ids.contains t.id) := by
  induction ids generalizing d with
  | nil => simp
  | cons i ids ih =>
    rw [List.foldl_cons, ih, dropUses_tasks]
    simp only [dropTask, List.filter_filter, List.contains_cons, Bool.not_or, bne]
    exact List.filter_congr (fun t _ => Bool.and_comm _ _)

/-- The started tasks of a context. -/
def ctxTaskIds (d : Dev) (c : Nat) : List Nat := (d.seq.tasks.filter (fun t => t.ctx == c)).map (fun t => t.id)

/-- The units of a stopping context hold nothing of it: its tiles, the chains' work, its buckets and its waits are gone. -/
def unitsCleared (d : Dev) (c : Nat) : Dev :=
  let d0 := (ctxClusters d c).foldl (fun y g => (List.range 8).foldl (fun z i => dropTiles z c (8 * g + i)) y) d
  let d1 := { d0 with
    tiles := d.tiles.filter (fun e => e.2.ctx != c)
    vcs := d.vcs.map (fun e => (e.1, { vcDropCtx e.2 c with
      running := e.2.running.filter (fun r => !(ctxTaskIds d c).contains r.task) }))
    ce := { d.ce with buckets := d.ce.buckets.filter (fun b => !(ctxTaskIds d c).contains b.task) } }
  (ctxClusters d c).foldl (fun y g =>
    if (currentTask y g).any (fun t => t.ctx == c) then dropWaits y g (fun r => decide (r < 12)) else y) d1

theorem unitsCleared_seq (c : Nat) : (unitsCleared d c).seq = d.seq := by
  have hwaits : ∀ (y : Dev) (g : Nat), (if (currentTask y g).any (fun t => t.ctx == c) then
      dropWaits y g (fun r => decide (r < 12)) else y).seq = y.seq := by
    intro y g
    split <;> rfl
  have htiles : ∀ (y : Dev) (g : Nat), ((List.range 8).foldl (fun z i => dropTiles z c (8 * g + i)) y).seq = y.seq :=
    fun y g => foldl_keeps Dev.seq (fun z i => dropTiles_seq z c _) _ y
  rw [unitsCleared, foldl_keeps Dev.seq hwaits]
  exact foldl_keeps Dev.seq htiles _ d

/-- The device with a stopping context's units, tasks and spill blocks given up, and its place among those waiting for a
frame. -/
def contextCleared (d : Dev) (c : Nat) : Dev :=
  let d3 := (ctxTaskIds d c).foldl (fun y i => dropUses (dropTask y i) i) (unitsCleared d c)
  let d4 := (ctxAt d c).spilled.foldl (fun y b => spillFree y b.1 b.2.1) d3
  { d4 with seq := { d4.seq with frameWait := d4.seq.frameWait.filter (fun k => k != c) } }

/-- No task of the context is left. -/
theorem ctx_ne_of_mem_contextCleared {c : Nat} {t : Task} (ht : t ∈ (contextCleared d c).seq.tasks) : t.ctx ≠ c := by
  have hspill : ∀ (y : Dev) (b : Nat × Nat × Nat), (spillFree y b.1 b.2.1).seq = y.seq := fun _ _ => rfl
  have htasks : (contextCleared d c).seq.tasks = d.seq.tasks.filter (fun t => !(ctxTaskIds d c).contains t.id) := by
    rw [← unitsCleared_seq d c, ← tasks_foldl_dropTask]
    exact (congrArg Seq.tasks (foldl_keeps Dev.seq hspill (ctxAt d c).spilled
      ((ctxTaskIds d c).foldl (fun y i => dropUses (dropTask y i) i) (unitsCleared d c))) :)
  rw [htasks, List.mem_filter] at ht
  obtain ⟨hmem, hid⟩ := ht
  intro hctx
  have hin : t.id ∈ ctxTaskIds d c := List.mem_map_of_mem (List.mem_filter.mpr ⟨hmem, by simpa using hctx⟩)
  simp [hin] at hid

/-- A stopping context whose units have finished has stopped. -/
theorem contextStopped_of_quiet {c : Nat} (hst : (ctxAt d c).st = .stopping)
    (hquiet : ∀ g ∈ ctxClusters d c, ∀ i, i < 8 → ∀ b ∈ [(tuAt d (8 * g + i)).bank0, (tuAt d (8 * g + i)).bank1],
      ¬ (b.draining = true ∧ b.ctx = c)) :
    contextStopped d c = raise (setCtx (contextCleared d c) c
      { ctxAt (contextCleared d c) c with st := .stopped, swapping := false, spilled := [] }) 0x8603 c (ctxAt d c).cause := by
  have hbusy : (ctxClusters d c).any (fun g => (List.range 8).any (fun i =>
      [(tuAt d (8 * g + i)).bank0, (tuAt d (8 * g + i)).bank1].any (fun b => b.draining && b.ctx == c))) = false := by
    simp only [List.any_eq_false, Bool.not_eq_true, List.mem_range]
    intro g hg i hi b hb
    simpa using hquiet g hg i hi b hb
  have hgo : ¬ ((ctxAt d c).st != .stopping || (ctxClusters d c).any (fun g => (List.range 8).any (fun i =>
      [(tuAt d (8 * g + i)).bank0, (tuAt d (8 * g + i)).bank1].any (fun b => b.draining && b.ctx == c)))) = true := by
    rw [hbusy, hst]
    decide
  exact if_neg hgo

end

/-- Settles O20: each clause is the lemma on its command. When the boundary begins, each TU and engine has room for its FENCE
and DRAIN (`tuAt_oweFences`, `feAt_oweDrains`). That the hold for a cut begins with the boundary's work is the model's choice
(log 61), and that the step advances only after the swap of the scale tables its reading (log 16); that the stop step ends
with the boundary that reaches it is R502. -/
theorem stepBoundary : Obligations.StepBoundary := by
  refine ⟨?stepEnd, ?begin, ?again, ?work, ?timeout, ?advance, ?stopped⟩
  case stepEnd =>
    intro s c hact hjob hphase hen hlive hend
    rw [exec_stepEnd, onUnit_acting _ _ hact, stepEnd_of_done hjob hphase hen hlive hend]
  case begin =>
    intro s hact hjob hphase hswitch hready htus hfes
    obtain ⟨hmem, hout⟩ := unitsFenced_frame (d := s.dev)
    have hfences : ∀ t, t < 128 → (tuAt (unitsFenced s.dev) t).queue.length = (tuAt s.dev t).queue.length + 1 := by
      intro t ht
      rw [tuAt_unitsFenced htus ht, List.length_append, List.length_singleton]
    have hdrains : ∀ f q, f < 16 → q < 4 → (tget [] (feAt (unitsFenced s.dev) f).queues q).length =
        (tget [] (feAt s.dev f).queues q).length + 1 := by
      intro f q hf hq
      have hroom : ∀ f < 16, drainRoom (feAt s.dev f) := fun f hf q hq => hfes f q hf hq
      rw [feAt_unitsFenced hroom hf, tget_queues_withDrain hq, List.length_append, List.length_singleton]
    rw [exec_boundaryBegin, onUnit_acting _ _ hact, boundaryBegin_of_ready hjob hphase hswitch hready]
    generalize unitsFenced s.dev = e at *
    exact ⟨_, rfl, rfl, hmem, hout, hfences, hdrains⟩
  case again =>
    intro s hact hphase
    rw [exec_boundaryBegin, onUnit_acting _ _ hact, boundaryBegin_of_draining hphase]
  case work =>
    intro s hact hphase hquiet hdone d1 d2
    rw [exec_boundaryWork, onUnit_acting _ _ hact, boundaryWork_of_quiet hphase hquiet hdone]
  case timeout =>
    intro s hact hphase hnot hquiet hwait
    rw [exec_boundaryTimeout, onUnit_acting _ _ hact, boundaryTimeout_of_waiting hphase hnot hquiet hwait]
  case advance =>
    intro s us hact hphase hengines hcut
    obtain ⟨hstep, hrunning, hjob⟩ := stepSettled_seq s.dev us
    have hmem := stepSettled_mem s.dev us
    have hoffset := cfg_stepSettled_offset s.dev us
    have hduration := cfg_stepSettled_duration s.dev us
    rw [exec_stepAdvance, onUnit_acting _ _ hact, stepAdvance_of_worked hphase hengines hcut]
    cases hstop : stopHere s.dev with
    | false =>
      exact ⟨_, rfl, hstep, hrunning, hoffset, hduration, hmem, by simp, fun _ => hjob⟩
    | true =>
      refine ⟨_, rfl, ?_, ?_, ?_, ?_, ?_, fun _ => ⟨?_, ?_, raise_logged _ _ _ _⟩, by simp⟩
      · simp only [if_true, raise_seq]; exact hstep
      · simp only [if_true, raise_seq]; exact hrunning
      · rw [if_pos rfl, cfg_raise_idx _ _ _ _ _ _ (by decide) (by decide), cfg_jobEnded _ (by decide) (by decide), hoffset]
      · rw [if_pos rfl, cfg_raise_idx _ _ _ _ _ _ (by decide) (by decide), cfg_jobEnded _ (by decide) (by decide), hduration]
      · simp only [if_true, raise_mem]; exact hmem
      · simp only [if_true, raise_seq]; rfl
      · rw [if_pos rfl, cfg_raise_idx _ _ _ _ _ _ (by decide) (by decide)]; exact cfg_setObj_same _ _ _ _
  case stopped =>
    intro s c hact hst hquiet
    refine ⟨_, by rw [exec_contextStopped, onUnit_acting _ _ hact, contextStopped_of_quiet _ hst hquiet], ?_,
      raise_logged _ _ _ _, ?_⟩
    · rw [ctxAt_raise, ctxAt_setCtx_same]
    · intro t ht
      rw [raise_seq] at ht
      exact ctx_ne_of_mem_contextCleared s.dev ht

end Sys2Proof.Machine

namespace Sys2Proof.Machine

/-! ### Frames (R275 to R279) -/

section
variable {d : Dev} {c : Nat}

/-- FRAME_ASSIGN with the cycles waited counted and the context last among those that wait for a frame. -/
def frameAsked (d : Dev) (c w : Nat) : Dev :=
  let b := bump d 0x6033 0 w
  { b with seq := { b.seq with frameWait := b.seq.frameWait ++ [c] } }

/-- The only context that waits gets the lowest free frame. -/
theorem frameAssign_of_free {f : Nat} (hen : ctxEn d c = true) (hst : (ctxAt d c).st = .swappedOut)
    (hframe : (ctxAt d c).frame = none) (hready : ctxReady d c = true) (hwait : d.seq.frameWait = [])
    (hfree : (List.range 16).find? (fun f => !(framesUsed d).contains f) = some f) (w : Nat) :
    frameAssign d c w = giveFrame (frameAsked d c w) c f := by
  have hasks : (!ctxEn d c || (ctxAt d c).st != .swappedOut || (ctxAt d c).frame.isSome || !ctxReady d c) = false := by
    simp [hen, hst, hframe, hready]
  have hfind : (List.range 16).find? (fun f => !(framesUsed (frameAsked d c w)).contains f) = some f := hfree
  have hnew : (bump d 0x6033 0 w).seq.frameWait.contains c = false := by rw [bump_seq, hwait]; rfl
  have hturn : (frameAsked d c w).seq.frameWait.find? (ctxReady d) = some c := by simp [frameAsked, hwait, hready]
  simp only [frameAssign, hasks, hnew, Bool.false_eq_true, if_false]
  rw [← frameAsked, hfind]
  exact if_pos hturn

/-- With every frame taken and no swap-out under way, one is begun. -/
theorem frameAssign_of_full (hen : ctxEn d c = true) (hst : (ctxAt d c).st = .swappedOut)
    (hframe : (ctxAt d c).frame = none) (hready : ctxReady d c = true) (hwait : ¬ c ∈ d.seq.frameWait)
    (hfull : ∀ f, f < 16 → f ∈ framesUsed d) {w : Nat}
    (hnone : (frameAsked d c w).seq.ctxs.any (fun e => e.2.swapping && e.2.st != .swappedOut) = false) :
    frameAssign d c w = beginSwapOut 64 (frameAsked d c w) := by
  have hasks : (!ctxEn d c || (ctxAt d c).st != .swappedOut || (ctxAt d c).frame.isSome || !ctxReady d c) = false := by
    simp [hen, hst, hframe, hready]
  have hfind : (List.range 16).find? (fun f => !(framesUsed (frameAsked d c w)).contains f) = none := by
    rw [List.find?_eq_none]
    intro f hf
    have hused : f ∈ framesUsed (frameAsked d c w) := hfull f (List.mem_range.mp hf)
    simp [hused]
  have hnew : (bump d 0x6033 0 w).seq.frameWait.contains c = false := by simpa using hwait
  simp only [frameAssign, hasks, hnew, Bool.false_eq_true, if_false]
  rw [← frameAsked, hfind]
  have hidle : ¬ (frameAsked d c w).seq.ctxs.any (fun e => e.2.swapping && e.2.st != .swappedOut) = true := by
    rw [hnone]; decide
  exact if_neg hidle

theorem beginSwapOut_of_none (h : evictFirst d = none) (n : Nat) : beginSwapOut (n + 1) d = d := by
  simp only [beginSwapOut, h]

theorem beginSwapOut_of_spilled {k : Nat} {l : List (Nat × Nat × Nat)} {e : Dev} (h : evictFirst d = some k)
    (hspill : spillAll d (spillNeeds d k) = (some l, e)) (n : Nat) :
    beginSwapOut (n + 1) d = setCtx e k { ctxAt e k with swapping := true, spilled := l } := by
  simp only [beginSwapOut, h, hspill]

/-- No byte of a range has a wrong bit. -/
def Clean (d : Dev) (a n : Nat) : Prop := ueIn d.mem a n = [] ∧ ceIn d.mem a n = []

theorem Clean.noteRead {a n : Nat} (h : Clean d a n) (c : Nat) : noteRead d c a n = d := noteRead_clean d c a n h.1 h.2

/-- A swap-in begins with an image without wrong bits in the scratch of the context's own half, or a bad image stops the
context. -/
theorem giveFrame_of_clean {f : Nat} (hst : (ctxAt d c).st = .swappedOut) (hacc : accessible d (ctxImage d c) 64 = true)
    (hnear : ctxImage d c < 2 * nearSize) (hhalf : ctxImage d c / nearSize = ctxHalf d c) (hhead : Clean d (ctxImage d c) 64)
    (hrouts : Clean d (ctxImage d c + imgOff (imgHeader d c) 0) (8 * (ctxClusters d c).length))
    (hregs : Clean d (ctxImage d c + imgOff (imgHeader d c) 4) 72) :
    let e := { d with seq := { d.seq with frameWait := d.seq.frameWait.filter (fun x => x != c) } }
    giveFrame d c f = if imageOk e c then setCtx e c { readImage e c (ctxAt e c) with frame := some f, swapping := true }
      else raiseFault e 0x8602 c 0 c := by
  intro e
  have hread : unitRead e (ctxHalf e c) c 0 (ctxImage e c) 64 = (some (memRead e.mem (ctxImage e c) 64), e) :=
    unitRead_local e _ c _ _ hacc hhalf hnear hhead.1 hhead.2
  have hlive : ctxLive (ctxAt e c) = true := by
    have he : (ctxAt e c).st = .swappedOut := hst
    simp [ctxLive, he]
  have hr : Machine.noteRead e c (ctxImage e c + imgOff (imgHeader e c) 0) (8 * (ctxClusters d c).length) = e :=
    Clean.noteRead (d := e) hrouts c
  have hg : Machine.noteRead e c (ctxImage e c + imgOff (imgHeader e c) 4) 72 = e := Clean.noteRead (d := e) hregs c
  have hgive : giveFrame d c f = (let r := unitRead e (ctxHalf e c) c 0 (ctxImage e c) 64
      if !ctxLive (ctxAt r.2 c) then r.2
      else if imageOk r.2 c then
        let b := ctxImage r.2 c
        let h := imgHeader r.2 c
        let d1 := Machine.noteRead (Machine.noteRead r.2 c (b + imgOff h 0) (8 * (ctxClusters d c).length)) c (b + imgOff h 4) 72
        if ctxLive (ctxAt d1 c) then setCtx d1 c { readImage d1 c (ctxAt d1 c) with frame := some f, swapping := true } else d1
      else raiseFault r.2 0x8602 c 0 c) := rfl
  rw [hgive, hread]
  simp only [hlive, hr, hg, Bool.not_true, Bool.false_eq_true, if_false, if_true]

end

end Sys2Proof.Machine

namespace Sys2Proof.Machine

/-! ### Accesses of memory that stop no context (R204, R230, R231) -/

section
variable {d e : Dev}

theorem bumpPart_seq (d : Dev) (i s p n : Nat) : (bumpPart d i s p n).seq = d.seq := rfl

theorem ceNote_seq (d : Dev) (code unit limit n : Nat) : (ceNote d code unit limit n).seq = d.seq := by
  simp only [ceNote]
  split
  · exact raise_seq _ _ _ _
  · rfl

theorem noteCorrected_seq (d : Dev) (w : Nat) : (noteCorrected d w).seq = d.seq := by
  unfold noteCorrected
  split
  · rw [ceNote_seq, bump_seq]
  · rw [ceNote_seq, bump_seq]
  · rfl

theorem noteCorrects_seq (d : Dev) (a n : Nat) : (noteCorrects d a n).seq = d.seq :=
  foldl_keeps Dev.seq (fun d w => noteCorrected_seq d w) _ d

theorem writeBack_seq (d : Dev) (t : CacheTag) : (writeBack d t).seq = d.seq := by
  unfold writeBack
  split
  · exact foldl_keeps Dev.seq (fun d w => raise_seq d _ w 0) _ _
  · rfl

theorem setCacheSet_seq (d : Dev) (l : Nat) (s : Tab CacheTag) : (setCacheSet d l s).seq = d.seq := rfl

theorem cacheAllocate_seq (d : Dev) (l : Nat) (b : Bool) : (cacheAllocate d l b).seq = d.seq := by
  simp only [cacheAllocate, setCacheSet_seq]
  split
  · exact writeBack_seq _ _
  · rfl

theorem cacheAccess_seq (d : Dev) (l h : Nat) (w b : Bool) : (cacheAccess d l h w b).seq = d.seq := by
  simp only [cacheAccess]
  split
  · rfl
  split
  · split
    · rw [setCacheSet_seq, writeBack_seq, bumpPart_seq]
    split
    · rfl
    · rfl
  · split
    · rfl
    split
    · rw [cacheAllocate_seq, bumpPart_seq]
    · rfl

theorem cacheLines_seq (d : Dev) (a n h : Nat) (w : Bool) (q : Acc) : (cacheLines d a n h w q).seq = d.seq :=
  foldl_keeps Dev.seq (fun d l => cacheAccess_seq d l h w _) _ d

theorem noteRemote_seq (d : Dev) (h a n : Nat) : (noteRemote d h a n).seq = d.seq := by
  unfold noteRemote
  split
  · rfl
  · exact bump_seq _ _ _ _

/-- No word of memory is uncorrectable. -/
def NoUe (d : Dev) : Prop := d.mem.ue = [] ∧ d.mem.badSites = []

theorem NoUe.ueIn (h : NoUe d) (a n : Nat) : ueIn d.mem a n = [] := ueIn_eq_nil h.1 h.2 a n

theorem NoUe.reads (h : NoUe d) (k : ReadsOnly d e) : NoUe e := by
  obtain ⟨_, _, _, _, _, _, _, _, -, rfl⟩ := k; exact h

theorem NoUe.noteRead_seq (h : NoUe d) (c a n : Nat) : (noteRead d c a n).seq = d.seq := by
  rw [noteRead, h.ueIn]
  exact noteCorrects_seq d a n

theorem NoUe.devRead_seq (h : NoUe d) (c a n : Nat) : (devRead d c a n).2.seq = d.seq := by
  have hreads : ReadsOnly d (noteRemote (cacheLines d a n 0 false {}) (ownerHalf a) a n) :=
    (cacheLines_reads d a n 0 false {}).trans (noteRemote_reads _ _ a n)
  rw [devRead, readThrough, (h.reads hreads).noteRead_seq, noteRemote_seq, cacheLines_seq]

theorem devWrite_seq (d : Dev) (a : Nat) (bs : List Byte) : (devWrite d a bs).seq = d.seq :=
  (noteRemote_seq _ _ a bs.length).trans (cacheLines_seq d a bs.length 0 true {})

theorem devWrite_sems (d : Dev) (a : Nat) (bs : List Byte) : (devWrite d a bs).sems = d.sems := by
  have hreads := (cacheLines_reads d a bs.length 0 true {}).trans (noteRemote_reads _ (ownerHalf a) a bs.length)
  obtain ⟨_, _, _, _, _, _, _, _, -, h⟩ := hreads
  exact (congrArg Dev.sems h :)

end

/-! ### SWAP_IN_DONE (R231, R276) -/

/-- No context changes, no byte of memory and no bad word, and nothing is sent. -/
structure SwapFrame (d e : Dev) : Prop where
  ctxs : e.seq.ctxs = d.seq.ctxs
  out : e.out = d.out
  bytes : e.mem.bytes = d.mem.bytes
  noUe : NoUe d → NoUe e

section
variable {d e g : Dev} {c : Nat}

theorem SwapFrame.refl (d : Dev) : SwapFrame d d := ⟨rfl, rfl, rfl, id⟩

theorem SwapFrame.trans (h : SwapFrame d e) (k : SwapFrame e g) : SwapFrame d g :=
  ⟨k.ctxs.trans h.ctxs, k.out.trans h.out, k.bytes.trans h.bytes, k.noUe ∘ h.noUe⟩

theorem SwapFrame.ctxAt (h : SwapFrame d e) (x : Nat) : ctxAt e x = ctxAt d x := congrArg (tget ctxReset · x) h.ctxs

theorem SwapFrame.of_reads (h : ReadsOnly d e) (hseq : e.seq = d.seq) : SwapFrame d e where
  ctxs := congrArg Seq.ctxs hseq
  out := by obtain ⟨_, _, _, _, _, _, _, _, -, rfl⟩ := h; rfl
  bytes := h.bytes
  noUe k := k.reads h

theorem foldl_swapFrame {α : Type} {step : Dev → α → Dev} (h : ∀ d x, NoUe d → SwapFrame d (step d x)) (l : List α)
    (hd : NoUe d) : SwapFrame d (l.foldl step d) := by
  induction l generalizing d with
  | nil => exact .refl d
  | cons x l ih => exact (h d x hd).trans (ih ((h d x hd).noUe hd))

theorem noteRead_swapFrame (hd : NoUe d) (c a n : Nat) : SwapFrame d (noteRead d c a n) :=
  .of_reads (noteRead_reads d c a n) (hd.noteRead_seq c a n)

theorem devRead_swapFrame (hd : NoUe d) (c a n : Nat) : SwapFrame d (devRead d c a n).2 :=
  .of_reads (readThrough_reads d _ c 0 a n {}) (hd.devRead_seq c a n)

theorem swapReads_swapFrame (hd : NoUe d) (c : Nat) : SwapFrame d (swapReads d c) := by
  simp only [swapReads]
  split
  · exact foldl_swapFrame (fun _ _ h => noteRead_swapFrame h _ _ _) _ hd
  · exact foldl_swapFrame (fun _ _ h => devRead_swapFrame h _ _ _) _ hd

theorem spillFree_swapFrame (d : Dev) (half a : Nat) : SwapFrame d (spillFree d half a) := ⟨rfl, rfl, rfl, id⟩

theorem setTu_swapFrame (d : Dev) (t : Nat) (u : Tu) : SwapFrame d (setTu d t u) := ⟨rfl, rfl, rfl, id⟩

theorem setVc_swapFrame (d : Dev) (x : Nat) (v : Vc) : SwapFrame d (setVc d x v) := ⟨rfl, rfl, rfl, id⟩

theorem loadBank_swapFrame (d : Dev) (x : Nat) (ws : Tab Sem) : SwapFrame d (loadBank d x ws) := ⟨rfl, rfl, rfl, id⟩

theorem loadTables_swapFrame (hd : NoUe d) (c x : Nat) : SwapFrame d (loadTables d c x) := by
  have hcfgs := noteRead_swapFrame hd c (ctxImage d c + imgOff (imgHeader d c) 1 + 8192 * clusterRank d c x) 8192
  exact (hcfgs.trans (noteRead_swapFrame (hcfgs.noUe hd) _ _ _)).trans (setVc_swapFrame _ _ _)

/-- The tables of a cluster read for a context, with its TUs fresh. -/
theorem freshTus_swapFrame (h : SwapFrame d e) (hd : NoUe d) (c x : Nat) :
    SwapFrame d ((List.range 8).foldl (fun y i => setTu y (8 * x + i) (tuFresh (tuAt y (8 * x + i)))) (loadTables e c x)) := by
  have htables := h.trans (loadTables_swapFrame (h.noUe hd) c x)
  exact htables.trans (foldl_swapFrame (fun _ _ _ => setTu_swapFrame _ _ _) _ (htables.noUe hd))

theorem loadCluster_swapFrame (hd : NoUe d) (c x : Nat) : SwapFrame d (loadCluster d c x) := by
  simp only [loadCluster]
  split
  · exact .refl d
  · refine freshTus_swapFrame ?_ hd c x
    exact ⟨rfl, rfl, rfl, id⟩

/-- A cluster of the context loaded at the end of a swap-in, where it is free and quiet. -/
def reloadCluster (c : Nat) (y : Dev) (x : Nat) : Dev :=
  if (tfind y.seq.bankOwner x).isNone && clusterQuiet y x then loadCluster y c x else y

theorem reloadCluster_swapFrame (c : Nat) (d : Dev) (x : Nat) (hd : NoUe d) : SwapFrame d (reloadCluster c d x) := by
  unfold reloadCluster
  split
  · exact loadCluster_swapFrame hd c x
  · exact .refl d

/-- The context at the end of its swap-in. -/
def swappedIn (d : Dev) (c : Nat) : Ctx :=
  { ctxAt d c with swapping := false, st := if d.seq.tasks.any (fun t => t.ctx == c) then .running else .resident,
                   spilled := [], loaded := true }

theorem swapInDone_of_clean {f : Nat} (hswap : (ctxAt d c).swapping = true) (hframe : (ctxAt d c).frame = some f)
    (hst : (ctxAt d c).st = .swappedOut) (hd : NoUe d) :
    ∃ b, SwapFrame d b ∧ swapInDone d c = (ctxClusters d c).foldl (reloadCluster c) (setCtx b c (swappedIn d c)) := by
  have hbegun : ((ctxAt d c).swapping && (ctxAt d c).frame.isSome && (ctxAt d c).st == .swappedOut) = true := by
    simp [hswap, hframe, hst]
  have hread := swapReads_swapFrame hd c
  have hfreed : SwapFrame d ((ctxAt d c).spilled.foldl (fun y b => spillFree y b.1 b.2.1) (swapReads d c)) :=
    hread.trans (foldl_swapFrame (fun _ _ _ => spillFree_swapFrame _ _ _) _ (hread.noUe hd))
  simp only [swapInDone, hbegun, Bool.not_true, Bool.false_eq_true, if_false]
  generalize (ctxAt d c).spilled.foldl (fun y b => spillFree y b.1 b.2.1) (swapReads d c) = e at hfreed ⊢
  have hlive : ctxLive (ctxAt e c) = true := by
    rw [hfreed.ctxAt]
    simp [ctxLive, hst]
  simp only [hlive, Bool.not_true, Bool.false_eq_true, if_false]
  refine ⟨_, hfreed.trans ?_, rfl⟩
  exact ⟨rfl, rfl, rfl, id⟩

/-- A swap-in makes its context resident, or running with a task started, and changes no byte of memory. -/
theorem swapInDone_spec {f : Nat} (hswap : (ctxAt d c).swapping = true) (hframe : (ctxAt d c).frame = some f)
    (hst : (ctxAt d c).st = .swappedOut) (hd : NoUe d) :
    ctxAt (swapInDone d c) c = swappedIn d c ∧ (∀ x, x ≠ c → ctxAt (swapInDone d c) x = ctxAt d x) ∧
      (swapInDone d c).mem.bytes = d.mem.bytes ∧ (swapInDone d c).out = d.out := by
  obtain ⟨b, hb, hdone⟩ := swapInDone_of_clean hswap hframe hst hd
  have hload : SwapFrame (setCtx b c (swappedIn d c)) (swapInDone d c) := by
    rw [hdone]
    exact foldl_swapFrame (reloadCluster_swapFrame c) _ (hb.noUe hd)
  refine ⟨?_, fun x hx => ?_, hload.bytes.trans hb.bytes, hload.out.trans hb.out⟩
  · rw [hload.ctxAt, ctxAt_setCtx_same]
  · rw [hload.ctxAt, ctxAt_setCtx_ne _ _ _ _ hx.symm, hb.ctxAt]

end

/-! ### SWAP_OUT_DONE (R277) -/

section
variable {d : Dev} {c : Nat}

/-- The record and the banks of a context written to its spill blocks. -/
def spillWritten (d : Dev) (c : Nat) : Dev :=
  (ctxClusters d c).zipIdx.foldl (fun y g =>
      match (ctxAt d c).spilled[g.2 + 1]? with
      | some (_, a, _) => devWrite y a ((List.range 0xF00).flatMap (fun i => leBytes 4 (ctxSemCount y c g.1 i)))
      | none => y)
    (match (ctxAt d c).spilled with
      | (_, a, _) :: _ => devWrite (nextFree d).2 a ((List.range 512).map (Config.contextRecord (nextFree d).1))
      | [] => d)

theorem spillWritten_keeps {β : Type} (part : Dev → β) (hfree : part (nextFree d).2 = part d)
    (hwrite : ∀ y a bs, part (devWrite y a bs) = part y) : part (spillWritten d c) = part d := by
  have hbanks : ∀ y (g : Nat × Nat), Kept part y (match (ctxAt d c).spilled[g.2 + 1]? with
      | some (_, a, _) => devWrite y a ((List.range 0xF00).flatMap (fun i => leBytes 4 (ctxSemCount y c g.1 i)))
      | none => y) := by
    intro y g
    split
    · exact hwrite _ _ _
    · rfl
  refine (foldl_keeps part hbanks _ _).trans ?_
  split
  · rw [hwrite, hfree]
  · rfl

/-- The clusters' banks given up by a context. -/
def banksGivenUp (d : Dev) (c : Nat) : Dev :=
  { d with seq := { d.seq with bankOwner := d.seq.bankOwner.filter (fun e => e.2 != c)
                               savedSems := d.seq.savedSems.filter (fun e => e.1 / 16 != c) } }

theorem swapOutDone_of_resident (hswap : (ctxAt d c).swapping = true) (hst : (ctxAt d c).st = .resident) :
    swapOutDone d c = setCtx (banksGivenUp (spillWritten d c) c) c
      { ctxAt d c with swapping := false, st := .swappedOut, frame := none } := by
  have hbegun : ((ctxAt d c).swapping && (ctxAt d c).st == .resident) = true := by simp [hswap, hst]
  simp only [swapOutDone, hbegun, Bool.not_true, Bool.false_eq_true, if_false]
  rfl

theorem mem_of_tfind {α : Type} {t : Tab α} {k : Nat} {v : α} (h : tfind t k = some v) : (k, v) ∈ t := by
  induction t with
  | nil => cases h
  | cons p t ih =>
    obtain ⟨j, w⟩ := p
    rw [tfind] at h
    split at h
    next hjk =>
      cases h
      rw [hjk]
      exact List.mem_cons_self
    next => exact List.mem_cons_of_mem _ (ih h)

theorem banksGivenUp_bankOwner (d : Dev) (c x : Nat) : tfind (banksGivenUp d c).seq.bankOwner x ≠ some c := by
  intro h
  have hmem : (x, c) ∈ d.seq.bankOwner.filter (fun e => e.2 != c) := mem_of_tfind h
  simp at hmem

/-- A swap-out leaves its context without a frame and without banks. -/
theorem swapOutDone_spec (hswap : (ctxAt d c).swapping = true) (hst : (ctxAt d c).st = .resident) :
    ctxAt (swapOutDone d c) c = { ctxAt d c with swapping := false, st := .swappedOut, frame := none } ∧
      (∀ x, x ≠ c → ctxAt (swapOutDone d c) x = ctxAt d x) ∧
      (∀ g, tfind (swapOutDone d c).seq.bankOwner g ≠ some c) ∧ (swapOutDone d c).sems = d.sems := by
  have hseq : (spillWritten d c).seq = d.seq := spillWritten_keeps Dev.seq rfl devWrite_seq
  have hsems : (spillWritten d c).sems = d.sems := spillWritten_keeps Dev.sems rfl devWrite_sems
  rw [swapOutDone_of_resident hswap hst]
  refine ⟨ctxAt_setCtx_same _ _ _, fun x hx => ?_, banksGivenUp_bankOwner _ c, hsems⟩
  rw [ctxAt_setCtx_ne _ _ _ _ hx.symm]
  exact congrArg (fun q => tget ctxReset q.ctxs x) hseq

end

/-- Settles O18: a frame is given to the only context that waits or asked of a swap-out, and a swap changes its own
context alone. -/
theorem framesAndSwaps : Obligations.FramesAndSwaps := by
  unfold Obligations.FramesAndSwaps
  refine ⟨?free, ?full, ?give, ?swapIn, ?swapOut⟩
  case free =>
    intro s c w f hact hen hst hframe hready hwait hfree d
    have hasked : frameAsked s.dev c w = { d with seq := { d.seq with frameWait := [c] } } := by
      rw [frameAsked, bump_seq, hwait, List.nil_append]
    rw [exec_frameAssign, onCluster_acting _ _ hact, frameAssign_of_free hen hst hframe hready hwait hfree, hasked]
  case full =>
    intro s c w hact hen hst hframe hready hwait b d hfull hnone
    have hexec : exec (.frameAssign c w) s = after s (beginSwapOut 64 d) := by
      rw [exec_frameAssign, onCluster_acting _ _ hact, frameAssign_of_full hen hst hframe hready hwait hfull hnone]
      rfl
    refine ⟨fun hevict => ?_, fun k l e hevict hspill => ?_⟩
    · rw [hexec, beginSwapOut_of_none hevict]
    · rw [hexec, beginSwapOut_of_spilled hevict hspill]
  case give =>
    intro d c f hst b clean hacc hnear hhalf hhead hrouts hregs e
    exact giveFrame_of_clean hst hacc hnear hhalf hhead hrouts hregs
  case swapIn =>
    intro s c f hact hswap hframe hst hue hsites
    obtain ⟨hctx, hothers, hbytes, hout⟩ := swapInDone_spec hswap hframe hst ⟨hue, hsites⟩
    refine ⟨swapInDone s.dev c, by rw [exec_swapInDone, onCluster_acting _ _ hact], ?_, ?_, ?_, ?_, ?_, hothers, hbytes, hout⟩
    · rw [hctx]; rfl
    · rw [hctx]; rfl
    · rw [hctx]; exact hframe
    · rw [hctx]; rfl
    · rw [hctx]; rfl
  case swapOut =>
    intro s c hact hswap hst
    exact ⟨swapOutDone s.dev c, by rw [exec_swapOutDone, onCluster_acting _ _ hact], swapOutDone_spec hswap hst⟩

end Sys2Proof.Machine

/-! Spawn queues (chapter 10): what an entry leaves in its queue, resident or spilled, and what a post to a head context gives. -/

namespace Sys2Proof.Machine

/-! ### One queue after a write of it -/

section
variable (d : Dev) (q : Nat) (x : SpawnQ)

@[simp] theorem sqAt_setSq_same : sqAt (setSq d q x) q = x := tget_tset_same _ _ q x

theorem devWrite_sq (a : Nat) (bs : List Byte) : (devWrite d a bs).sq = d.sq := by
  have hreads := (cacheLines_reads d a bs.length 0 true {}).trans (noteRemote_reads _ (ownerHalf a) a bs.length)
  obtain ⟨_, _, _, _, _, _, _, _, -, h⟩ := hreads
  exact (congrArg Dev.sq h :)

theorem devWrite_out (a : Nat) (bs : List Byte) : (devWrite d a bs).out = d.out := by
  have hreads := (cacheLines_reads d a bs.length 0 true {}).trans (noteRemote_reads _ (ownerHalf a) a bs.length)
  obtain ⟨_, _, _, _, _, _, _, _, -, h⟩ := hreads
  exact (congrArg Dev.out h :)

end

/-! ### An entry inside the window joins its queue (R307, R308, R312) -/

/-- `x` is `d` once queue `q` has taken one entry more, which leaves `res` resident and `spl` spilled. -/
structure Admits (d x : Dev) (q : Nat) (res spl : List Nat) : Prop where
  resident : (sqAt x q).resident = res
  spilled : (sqAt x q).spilled = spl
  headK : (sqAt x q).headK = (sqAt d q).headK
  arrivals : x.sq.arrivals = d.sq.arrivals ++ [q]
  out : x.out = d.out

/-- Queue `q` with its window past the sequence number of entry `e` (R308). -/
def windowPast (d : Dev) (q e : Nat) : SpawnQ :=
  let w := slideWindow 257 (sqAt d q).low ((sqAt d q).rcvd + 2 ^ tagDist (sqAt d q).low (entTag e))
  { sqAt d q with low := w.1, rcvd := w.2 }

/-- Queue `q` is written down as the last in which an entry has arrived (R286). -/
def arrived (d : Dev) (q : Nat) : Dev := { d with sq := { d.sq with arrivals := d.sq.arrivals ++ [q] } }

@[simp] theorem sqAt_arrived (d : Dev) (q k : Nat) : sqAt (arrived d q) k = sqAt d k := rfl

@[simp] theorem arrived_arrivals (d : Dev) (q : Nat) : (arrived d q).sq.arrivals = d.sq.arrivals ++ [q] := rfl

@[simp] theorem arrived_out (d : Dev) (q : Nat) : (arrived d q).out = d.out := rfl

/-- The queue of a spilled entry names one place more of its spill area (R312). -/
theorem sqAt_spillEntry (d : Dev) (q e : Nat) : sqAt (spillEntry d q e) q = { sqAt d q with
    spilled := (sqAt d q).spilled ++ [spillArea d q + 64 * ((sqAt d q).spillNext % 256)]
    spillNext := (sqAt d q).spillNext + 1 } := by
  simp only [spillEntry]
  exact sqAt_setSq_same _ _ _

theorem spillEntry_arrivals (d : Dev) (q e : Nat) : (spillEntry d q e).sq.arrivals = d.sq.arrivals :=
  (congrArg Sq.arrivals (devWrite_sq d (spillArea d q + 64 * ((sqAt d q).spillNext % 256)) (leBytes 64 e)) :)

theorem spillEntry_out (d : Dev) (q e : Nat) : (spillEntry d q e).out = d.out :=
  devWrite_out d (spillArea d q + 64 * ((sqAt d q).spillNext % 256)) (leBytes 64 e)

/-- The receive slot that entry `e` names in `d` is no longer lent and holds an entry (R304). -/
def slotFilled (d x : Dev) (q e : Nat) : Dev :=
  match slotOf d q (entSlot e) with
  | some i => setRecvSlot x q i { recvSlot d q i with granted := false, busy := true }
  | none => x

section
variable {d x : Dev} {q e : Nat} {res spl : List Nat}

/-- What an entry's slot becomes changes neither memory nor what the queue holds. -/
theorem Admits.slotFilled {b : Dev} (h : Admits d x q res spl) : Admits d (slotFilled b x q e) q res spl := by
  unfold Machine.slotFilled
  split
  · rw [setRecvSlot]
    exact ⟨by simpa using h.resident, by simpa using h.spilled, by simpa using h.headK, h.arrivals, h.out⟩
  · exact h

theorem slotFilled_mem (b x : Dev) (q e : Nat) : (slotFilled b x q e).mem = x.mem := by
  unfold slotFilled
  split <;> rfl

theorem Admits.bump (h : Admits d x q res spl) (i k n : Nat) : Admits d (bump x i k n) q res spl :=
  ⟨h.resident, h.spilled, h.headK, h.arrivals, h.out⟩

theorem admitEntry_of_fits (hs : (sqAt d q).spilled = []) (hr : (sqAt d q).resident.length < poolRes d (q / 2) (q % 2)) :
    admitEntry d q e = slotFilled d (arrived (setSq d q
      { windowPast d q e with resident := (sqAt d q).resident ++ [e] }) q) q e := by
  have hfits : ((sqAt d q).spilled.isEmpty && decide ((sqAt d q).resident.length < poolRes d (q / 2) (q % 2))) = true := by
    simp [hs, hr]
  simp only [admitEntry, hfits, if_true]
  rfl

theorem admitEntry_of_full
    (hfull : (sqAt d q).spilled ≠ [] ∨ poolRes d (q / 2) (q % 2) ≤ (sqAt d q).resident.length) :
    admitEntry d q e = bump (slotFilled d (arrived (spillEntry (setSq d q (windowPast d q e)) q e) q) q e)
      0x6135 (q + 1) 1 := by
  have hfits : ((sqAt d q).spilled.isEmpty && decide ((sqAt d q).resident.length < poolRes d (q / 2) (q % 2))) = false := by
    rcases hfull with hne | hle
    · simp [hne]
    · simp [Nat.not_lt.2 hle]
  simp only [admitEntry, hfits, Bool.false_eq_true, if_false]
  rfl

/-- With room in the resident part and nothing spilled, the entry stands behind the resident ones. -/
theorem admitEntry_admits_of_fits (hs : (sqAt d q).spilled = [])
    (hr : (sqAt d q).resident.length < poolRes d (q / 2) (q % 2)) :
    Admits d (admitEntry d q e) q ((sqAt d q).resident ++ [e]) [] ∧ (admitEntry d q e).mem = d.mem := by
  rw [admitEntry_of_fits hs hr]
  refine ⟨Admits.slotFilled ⟨?_, ?_, ?_, rfl, rfl⟩, slotFilled_mem _ _ _ _⟩
  all_goals rw [sqAt_arrived, sqAt_setSq_same]
  · exact hs
  · rfl

/-- Otherwise the entry goes to the next place of the spill area. -/
theorem admitEntry_admits_of_full
    (hfull : (sqAt d q).spilled ≠ [] ∨ poolRes d (q / 2) (q % 2) ≤ (sqAt d q).resident.length) :
    Admits d (admitEntry d q e) q (sqAt d q).resident
      ((sqAt d q).spilled ++ [spillArea d q + 64 * ((sqAt d q).spillNext % 256)]) := by
  have hspilled := sqAt_spillEntry (setSq d q (windowPast d q e)) q e
  rw [sqAt_setSq_same] at hspilled
  rw [admitEntry_of_full hfull]
  refine Admits.bump (Admits.slotFilled ⟨?_, ?_, ?_, ?_, ?_⟩) _ _ _
  · rw [sqAt_arrived, hspilled]; rfl
  · rw [sqAt_arrived, hspilled]; rfl
  · rw [sqAt_arrived, hspilled]; rfl
  · rw [arrived_arrivals, spillEntry_arrivals]; rfl
  · rw [arrived_out, spillEntry_out]; rfl

/-- An entry that is neither ahead of the window nor received before is accepted (R307). -/
theorem windowCheck_of_in_window (hwin : tagDist (sqAt d q).low (entTag e) < 256)
    (hnew : bitAt (sqAt d q).rcvd (tagDist (sqAt d q).low (entTag e)) = false) :
    windowCheck d q e = admitEntry d q e := by
  simp only [windowCheck]
  rw [if_neg (by omega), if_neg (by omega), hnew]
  rfl

end

/-! ### Posts (R300, R314, R315, R393) -/

/-- The tag of an entry is read back (R299, R301). -/
theorem entTag_mkEntry (tag kind srcstage srcdev srcctx place step slot bytes cookie : Nat) :
    entTag (mkEntry tag kind srcstage srcdev srcctx place step slot bytes cookie) = tag % 2 ^ 24 := by
  have hlow : ∀ a r : Nat, a < 2 ^ 24 → r < 2 ^ 488 → fld (a * 2 ^ 488 + r) 511 488 = a := by
    intro a r ha hr
    rw [fld, Nat.shiftRight_eq_div_pow]
    omega
  unfold entTag mkEntry
  simp only [Nat.add_assoc]
  exact hlow _ _ (by omega) (by omega)

/-- The place in its step of the next post to context `c`. -/
def postPlace (d : Dev) (c : Nat) : Nat := ((sqAt d (2 * c)).headK - (sqAt d (2 * c)).headK0) % ctxM d c

/-- The step of the next post to context `c`. -/
def postStep (d : Dev) (c : Nat) : Nat :=
  (cfg d 0x6021 0 + ((sqAt d (2 * c)).headK - (sqAt d (2 * c)).headK0) / ctxM d c) % 2 ^ 64

/-- The entry that record `r`, posted to context `c`, makes. -/
def postEntry (d : Dev) (c r : Nat) : Nat :=
  mkEntry ((sqAt d (2 * c)).headK % 2 ^ 24) 0 (ctxStage d c) (ownDev d) c (postPlace d c) d.seq.step
    (slotAddr d (2 * c) (headSlot d c)) (fld r 95 64) (fld r 63 0)

/-- The device once context `c` has used its next sequence number. -/
def numberTaken (d : Dev) (c : Nat) : Dev :=
  setSq d (2 * c) { sqAt d (2 * c) with headK := (sqAt d (2 * c)).headK + 1 }

/-- With a position other than the expected one, the result of the check has PASS clear (R393). -/
theorem rngCheckWord_even {d : Dev} {n supplied : Nat}
    (h : (cfg d 0xCE12 0 + n * cfg d 0xCE13 0) % 2 ^ 64 ≠ supplied) : rngCheckWord d n supplied true % 2 = 0 := by
  have hpass : ((cfg d 0xCE12 0 + n * cfg d 0xCE13 0) % 2 ^ 64 == supplied) = false := by simpa using h
  simp only [rngCheckWord, hpass]
  simp only [b2n, Bool.false_eq_true, if_false, if_true]
  omega

section
variable {d : Dev} {r : Nat}

theorem sqPost_of_reserved (hres : fld r 121 96 ≠ 0) : sqPost d r = send d (.status 0x6121 0 5) := by
  simp only [sqPost]
  rw [if_pos hres]

theorem sqPost_of_not_free (hres : fld r 121 96 = 0) (hfree : headFree d (fld r 127 122) = false) :
    sqPost d r = postRefused d (fld r 127 122) := by
  simp only [sqPost]
  rw [if_neg (not_not.2 hres), hfree]
  rfl

theorem sqPost_of_unchecked (hres : fld r 121 96 = 0) (hfree : headFree d (fld r 127 122) = true)
    (hoff : cfg d 0xCE14 0 = 0) :
    sqPost d r = send (windowCheck (numberTaken d (fld r 127 122)) (2 * fld r 127 122) (postEntry d (fld r 127 122) r))
      (.status 0x6121 0 0) := by
  have hcheck : (postPlace d (fld r 127 122) == 0 && cfg d 0xCE14 0 == 1) = false := by simp [hoff]
  unfold postPlace at hcheck
  simp only [sqPost]
  rw [if_neg (not_not.2 hres), hfree]
  simp only [hcheck]
  rfl

theorem sqPost_of_wrong_position (hres : fld r 121 96 = 0) (hfree : headFree d (fld r 127 122) = true)
    (hon : cfg d 0xCE14 0 = 1) (hfirst : postPlace d (fld r 127 122) = 0)
    (hpos : (cfg d 0xCE12 0 + postStep d (fld r 127 122) * cfg d 0xCE13 0) % 2 ^ 64 ≠ fld r 63 0) :
    sqPost d r = send (raise (bump (setObj d 0xCE20 0 (rngCheckWord d (postStep d (fld r 127 122)) (fld r 63 0) true))
      0xCE21 0 1) 0x8CE2 (fld r 127 122) (fld r 63 0)) (.status 0x6121 0 6) := by
  have hcheck : (postPlace d (fld r 127 122) == 0 && cfg d 0xCE14 0 == 1) = true := by simp [hfirst, hon]
  have heven := rngCheckWord_even hpos
  unfold postPlace at hcheck
  unfold postStep at heven ⊢
  simp only [sqPost]
  rw [if_neg (not_not.2 hres), hfree]
  simp only [hcheck, heven]
  rfl

end

section
variable {d : Dev} {c : Nat}

theorem numberTaken_queue : sqAt (numberTaken d c) (2 * c) =
    { sqAt d (2 * c) with headK := (sqAt d (2 * c)).headK + 1 } := sqAt_setSq_same _ _ _

theorem poolRes_forward : poolRes (numberTaken d c) (2 * c / 2) (2 * c % 2) = poolRes d c 0 := by
  rw [Nat.mul_div_cancel_left c two_pos, Nat.mul_mod_right]
  rfl

theorem windowCheck_postEntry {r : Nat} (hwin : tagDist (sqAt d (2 * c)).low ((sqAt d (2 * c)).headK % 2 ^ 24) < 256)
    (hnew : bitAt (sqAt d (2 * c)).rcvd (tagDist (sqAt d (2 * c)).low ((sqAt d (2 * c)).headK % 2 ^ 24)) = false) :
    windowCheck (numberTaken d c) (2 * c) (postEntry d c r) = admitEntry (numberTaken d c) (2 * c) (postEntry d c r) := by
  have htag : entTag (postEntry d c r) = (sqAt d (2 * c)).headK % 2 ^ 24 := by
    rw [postEntry, entTag_mkEntry, Nat.mod_mod]
  apply windowCheck_of_in_window
  · rw [htag, numberTaken_queue]; exact hwin
  · rw [htag, numberTaken_queue]; exact hnew

/-- What an accepted post's answer leaves of the queue, the arrivals and the messages sent. -/
theorem Admits.posted {x : Dev} {res spl : List Nat} (h : Admits (numberTaken d c) x (2 * c) res spl) (m : OutMsg) :
    (sqAt (send x m) (2 * c)).headK = (sqAt d (2 * c)).headK + 1 ∧ (send x m).out = d.out ++ [m] ∧
      (send x m).sq.arrivals = d.sq.arrivals ++ [2 * c] := by
  refine ⟨h.headK.trans ?_, congrArg (· ++ [m]) h.out, h.arrivals⟩
  rw [numberTaken_queue]

/-- With room in the resident part of a head context's forward queue, a post stands behind the resident entries. -/
theorem post_admits_of_fits (e : Nat) (hs : (sqAt d (2 * c)).spilled = [])
    (hr : (sqAt d (2 * c)).resident.length < poolRes d c 0) :
    Admits (numberTaken d c) (admitEntry (numberTaken d c) (2 * c) e) (2 * c) ((sqAt d (2 * c)).resident ++ [e]) [] ∧
      (admitEntry (numberTaken d c) (2 * c) e).mem = d.mem := by
  have h := admitEntry_admits_of_fits (d := numberTaken d c) (q := 2 * c) (e := e)
  rw [numberTaken_queue, poolRes_forward] at h
  exact h hs hr

/-- Otherwise a post goes to the next place of that queue's spill area. -/
theorem post_admits_of_full (e : Nat)
    (hfull : (sqAt d (2 * c)).spilled ≠ [] ∨ poolRes d c 0 ≤ (sqAt d (2 * c)).resident.length) :
    Admits (numberTaken d c) (admitEntry (numberTaken d c) (2 * c) e) (2 * c) (sqAt d (2 * c)).resident
      ((sqAt d (2 * c)).spilled ++ [spillArea d (2 * c) + 64 * ((sqAt d (2 * c)).spillNext % 256)]) := by
  have h := admitEntry_admits_of_full (d := numberTaken d c) (q := 2 * c) (e := e)
  rw [numberTaken_queue, poolRes_forward] at h
  exact h hfull

end

/-- Settles O22: an accepted post is admitted as any entry of its queue, once its sequence number is taken. -/
theorem postsEnterTheHeadQueue : Obligations.PostsEnterTheHeadQueue := by
  unfold Obligations.PostsEnterTheHeadQueue
  refine ⟨?accepted, ?wrongPosition, ?reserved, ?noSlot⟩
  case accepted =>
    intro s r hserv hres c q _ _ hfree hoff hwin hnew e
    have hexec : exec (.sqPost r) s =
        after s (send (admitEntry (numberTaken s.dev c) (2 * c) e) (.status 0x6121 0 0)) := by
      rw [exec_sqPost, onObject_serving hserv, sqPost_of_unchecked hres hfree hoff, windowCheck_postEntry hwin hnew]
      rfl
    by_cases hfits : q.spilled = [] ∧ q.resident.length < poolRes s.dev c 0
    · obtain ⟨hs, hr⟩ := hfits
      obtain ⟨hadmits, hmem⟩ := post_admits_of_fits e hs hr
      obtain ⟨hhead, hout, harrivals⟩ := hadmits.posted (.status 0x6121 0 0)
      exact ⟨_, hexec, hhead, hout, harrivals, fun _ _ => ⟨hadmits.resident, hadmits.spilled, hmem⟩,
        fun hfull => absurd hs (hfull.resolve_right (by omega))⟩
    · have hfull : q.spilled ≠ [] ∨ poolRes s.dev c 0 ≤ q.resident.length := by
        rw [← Nat.not_lt]
        exact Classical.not_and_iff_not_or_not.1 hfits
      have hadmits := post_admits_of_full e hfull
      obtain ⟨hhead, hout, harrivals⟩ := hadmits.posted (.status 0x6121 0 0)
      exact ⟨_, hexec, hhead, hout, harrivals, fun hs hr => absurd ⟨hs, hr⟩ hfits,
        fun _ => ⟨hadmits.resident, hadmits.spilled⟩⟩
  case wrongPosition =>
    intro s r hserv hres c q n _ _ hfree hon hfirst hpos
    have hexec := (exec_sqPost s r).trans (congrArg (after s) ((onObject_serving hserv _).trans
      (sqPost_of_wrong_position hres hfree hon hfirst hpos)))
    refine ⟨_, hexec, ?_, ?_, ?_, ?_⟩
    · simp
    · rw [Logged_send]
      exact raise_logged _ _ _ _
    · simp [send]
    · simp
  case reserved =>
    intro s r hserv hres
    rw [exec_sqPost, onObject_serving hserv, sqPost_of_reserved hres]
  case noSlot =>
    intro s r hserv hres hfree
    refine ⟨postRefused s.dev (fld r 127 122), ?_, ?_, ?_, ?_⟩
    · rw [exec_sqPost, onObject_serving hserv, sqPost_of_not_free hres hfree]
    · simp [postRefused]
    · simp [postRefused, send]
    · simp [postRefused]

end Sys2Proof.Machine

namespace Sys2Proof.Machine

/-! ### A data write into a slot that lies in a host window (R221, R306, R517) -/

/-- Context 0 on cluster 0 with a forward pool of two 64-byte slots at `0x4000000`, the first of them lent. The cluster's fetch
engine has cached the pool's page as one of host window 0, which may be written through queue pair 0. -/
def hostPoolDev : Dev :=
  { [(0x6010, 1, 2 ^ 255 + 2 ^ 224), (0x6110, 1, 0x4000000 * 2 ^ 464 + 64 * 2 ^ 432 + 2 * 2 ^ 423), (0x8031, 0, 1),
      (0x8040, 1, 2 ^ 255 + 2 ^ 254 + 0x100 * 2 ^ 224), (0xB030, 1, 2 ^ 255)].foldl
        (fun d o => setObj d o.1 o.2.1 o.2.2) freshDev with
    mem := { memReset with tlb := [(0, [{ base := 0x4000000, size := 0x10000, entry := 3 * 2 ^ 62 + 2 ^ 61 }])] }
    sq := { sqReset with queues := [(0, { spawnQReset with slots := [(0, { recvSlotReset with granted := true })] })] } }

/-- One byte written to the lent slot of `hostPoolDev` under tag 5, as asker `item` of the cluster's fetch engine. -/
def hostPoolWrite (item : Nat) : ReadRes × Dev :=
  jobWrite (setRecvSlot hostPoolDev 0 0 { recvSlot hostPoolDev 0 0 with tag := some 5 })
    ((ctxClusters hostPoolDev (0 / 2)).headD 0) (0 / 2) item none 0x4000000 [7#8]

/-- A spawn data write is no descriptor's, so it leaves on the queue pair at once. -/
theorem hostPool_sqDataWrite_not_joining : (qpAt (sqDataWrite hostPoolDev 0 5 0x4000000 1 0 [7#8]) 0).joining = none := by
  decide +kernel

/-- Asker 65537 is a descriptor, whose WRITE is held back for those that may go on from it. -/
theorem hostPoolWrite_descriptor_joining :
    (qpAt (relaySend (hostPoolWrite 65537).2 1 2 (0 % 2) 1 (0 / 2 % 256) 0 []) 0).joining ≠ none := by
  decide +kernel

theorem after_injective (s : State) : Function.Injective (after s) := fun _ _ h =>
  congrArg State.dev (Host.Outcome.next.inj h)

theorem exec_sqDataWrite_acting {s : State} (h : Acting s) (q tag a src id : Nat) (bs : List Byte) :
    exec (.sqDataWrite q tag a src id bs) s = after s (sqDataWrite s.dev q tag a src id bs) := by
  rw [exec_sqDataWrite, onUnit_acting _ _ h]

/-- Refutes O21: the write of a lent slot is described as that of asker 65537, which is a fetch descriptor's number, and a
descriptor's writes to a host window are joined; the model's asker is `noDescriptor + 1`, whose write leaves at once. -/
theorem not_spawnQueueCommands : ¬ Obligations.SpawnQueueCommands := by
  unfold Obligations.SpawnQueueCommands
  rintro ⟨-, -, -, -, -, -, -, hlent, -⟩
  have hact : Acting { dev := hostPoolDev, pending := [] } := by decide +kernel
  have hbytes : (hostPoolWrite 65537).1 = .bytes [] := by decide +kernel
  have hslot : slotOf hostPoolDev 0 0x4000000 = some 0 := by decide +kernel
  have hgranted : (recvSlot hostPoolDev 0 0).granted = true := by decide +kernel
  have hfirst : (recvSlot hostPoolDev 0 0).tag = none := by decide +kernel
  have hwin : tagDist (sqAt hostPoolDev 0).low 5 < 256 := by decide +kernel
  have hnew : bitAt (sqAt hostPoolDev 0).rcvd (tagDist (sqAt hostPoolDev 0).low 5) = false := by decide +kernel
  have hexec := hlent { dev := hostPoolDev, pending := [] } 0 5 0x4000000 1 0 0 [7#8] (.bytes []) (hostPoolWrite 65537).2
    hact hslot hgranted (.inl hfirst) hwin hnew (Prod.ext hbytes rfl) nofun
  rw [exec_sqDataWrite_acting hact] at hexec
  have hdev := after_injective _ hexec
  apply hostPoolWrite_descriptor_joining
  rw [← hdev]
  exact hostPool_sqDataWrite_not_joining

end Sys2Proof.Machine

namespace Sys2Proof.Machine

/-! ### Slots of the version rings (R323, R324) -/

section
variable {d x : Dev} {e i : Nat}

theorem wvAt_congr (h : x.wv = d.wv) (k : Nat) : wvAt x k = wvAt d k := by rw [wvAt, wvAt, h]

theorem vslotAt_congr (h : x.wv = d.wv) (k i : Nat) : vslotAt x k i = vslotAt d k i := by
  rw [vslotAt, vslotAt, wvAt_congr h]

@[simp] theorem wvAt_setWv_same (d : Dev) (e : Nat) (y : WvEntry) : wvAt (setWv d e y) e = y := tget_tset_same _ _ _ _

theorem wvAt_setWv_ne (d : Dev) (y : WvEntry) {k : Nat} (h : k ≠ e) : wvAt (setWv d e y) k = wvAt d k :=
  tget_tset_ne _ _ _ _ _ h.symm

@[simp] theorem wvAt_setVslot_same (d : Dev) (e i : Nat) (y : VSlot) :
    wvAt (setVslot d e i y) e = { wvAt d e with slots := tset (wvAt d e).slots i y } := wvAt_setWv_same _ _ _

theorem wvAt_setVslot_ne (d : Dev) (i : Nat) (y : VSlot) {k : Nat} (h : k ≠ e) :
    wvAt (setVslot d e i y) k = wvAt d k := wvAt_setWv_ne _ _ h

@[simp] theorem vslotAt_setVslot_same (d : Dev) (e i : Nat) (y : VSlot) : vslotAt (setVslot d e i y) e i = y := by
  rw [vslotAt, wvAt_setVslot_same, tget_tset_same]

theorem vslotAt_setVslot_ne (d : Dev) (e : Nat) (y : VSlot) {j : Nat} (h : i ≠ j) :
    vslotAt (setVslot d e i y) e j = vslotAt d e j := by
  rw [vslotAt, wvAt_setVslot_same, tget_tset_ne _ _ _ _ _ h, vslotAt]

theorem holds_iff {y : VSlot} {v : Nat} : holds y v = true ↔ y.ver = some v := beq_iff_eq

/-! ### Reading a slot record (R349) -/

theorem FaultsOnly.wv (h : FaultsOnly d x) : x.wv = d.wv := by
  obtain ⟨_, _, _, _, _, rfl⟩ := h; rfl

theorem FaultsOnly.keyed (h : FaultsOnly d x) : x.keyed = d.keyed := by
  obtain ⟨_, _, _, _, _, rfl⟩ := h; rfl

theorem FaultsOnly.mem (h : FaultsOnly d x) : x.mem = d.mem := by
  obtain ⟨_, _, _, _, _, rfl⟩ := h; rfl

theorem readSlot_faults (d : Dev) (e i : Nat) : FaultsOnly d (readSlot d e i) := readRec_faults _ _ _ _ _

@[simp] theorem vslotAt_readSlot (d : Dev) (e i k j : Nat) : vslotAt (readSlot d e i) k j = vslotAt d k j :=
  vslotAt_congr (readSlot_faults d e i).wv k j

@[simp] theorem wvAt_readSlot (d : Dev) (e i k : Nat) : wvAt (readSlot d e i) k = wvAt d k :=
  wvAt_congr (readSlot_faults d e i).wv k

theorem parRow_congr (h : x.keyed = d.keyed) (e : Nat) : parRow x e = parRow d e := by
  rw [parRow, parRow, keyedAt, keyedAt, h]

theorem parRow_readSlot (d : Dev) (e i k : Nat) : parRow (readSlot d e i) k = parRow d k :=
  parRow_congr (readSlot_faults d e i).keyed k

@[simp] theorem allRanks_readSlot (d : Dev) (e i : Nat) : allRanks (readSlot d e i) e = allRanks d e := by
  rw [allRanks, allRanks, parNmem, parNmem, parRow_readSlot]

@[simp] theorem memberRank_readSlot (d : Dev) (e i r : Nat) : memberRank (readSlot d e i) e r = memberRank d e r := by
  rw [memberRank, memberRank, parEn, parEn, parNmem, parNmem, parRow_readSlot]

theorem readSlot_of_good (h : eccBad d (.slot e i) = false) : readSlot d e i = d := by
  simp [readSlot, readRec, h]

theorem readSlot_of_bad (h : eccBad d (.slot e i) = true) :
    readSlot d e i = stopBinders (raise d 0x8684 e i) e 0x8684 := by
  simp [readSlot, readRec, h]

/-! ### Notices (R325, R327, R334) -/

/-- The device with the slot record of version `v` read. -/
def slotRead (d : Dev) (e v : Nat) : Dev := readSlot d e (ringSlot d e v)

/-- The slot that a notice of version `v` is for. -/
def noticeSlot (d : Dev) (e v : Nat) : VSlot := vslotAt (slotRead d e v) e (ringSlot d e v)

/-- The version that was in the slot of `v` before it. -/
def previousVer (d : Dev) (e v : Nat) : Nat := (v + (2 ^ 32 - parRing (slotRead d e v) e)) % 2 ^ 32

/-- The device with rank `r`'s bit set in the slot of version `v`. -/
def commitTaken (d : Dev) (e v r : Nat) : Dev :=
  setVslot (slotRead d e v) e (ringSlot d e v)
    { noticeSlot d e v with ver := some v, cmask := (noticeSlot d e v).cmask ||| 2 ^ r }

end

section
variable {d : Dev} {e v r : Nat}

/-- What a member's commit notice does, by what its slot holds (R327). -/
theorem commitNotice_eq (hmember : memberRank (slotRead d e v) e r = true) :
    commitNotice d e v r =
      if (noticeSlot d e v).ver = none ∧ (noticeSlot d e v).state = 0 ∨
          (noticeSlot d e v).ver = some v ∧ (noticeSlot d e v).state ≤ 2 then
        completeCheck (commitTaken d e v r) e (ringSlot d e v)
      else if (noticeSlot d e v).ver = some v then
        setVslot (slotRead d e v) e (ringSlot d e v)
          { noticeSlot d e v with cmask := (noticeSlot d e v).cmask ||| 2 ^ r }
      else if (noticeSlot d e v).ver = some (previousVer d e v) then
        setVslot (slotRead d e v) e (ringSlot d e v)
          { noticeSlot d e v with pnmask := (noticeSlot d e v).pnmask ||| 2 ^ r }
      else noticeDiscard (slotRead d e v) e v := by
  have hfilling : ((noticeSlot d e v).state == 0 && (noticeSlot d e v).ver.isNone ||
      holds (noticeSlot d e v) v && decide ((noticeSlot d e v).state ≤ 2)) = true ↔
      ((noticeSlot d e v).ver = none ∧ (noticeSlot d e v).state = 0 ∨
        (noticeSlot d e v).ver = some v ∧ (noticeSlot d e v).state ≤ 2) := by
    simp [holds, and_comm]
  have hopen : ¬ (!memberRank (slotRead d e v) e r) = true := by simp [hmember]
  exact (if_neg hopen).trans (if_congr hfilling rfl (if_congr holds_iff rfl rfl))

theorem commitNotice_of_stranger (hmember : memberRank (slotRead d e v) e r = false) :
    commitNotice d e v r = noticeDiscard (slotRead d e v) e v := by
  have hopen : (!memberRank (slotRead d e v) e r) = true := by rw [hmember]; rfl
  exact if_pos hopen

theorem commitNotice_of_complete (hmember : memberRank (slotRead d e v) e r = true)
    (hver : (noticeSlot d e v).ver = some v) (hstate : 3 ≤ (noticeSlot d e v).state) :
    commitNotice d e v r = setVslot (slotRead d e v) e (ringSlot d e v)
      { noticeSlot d e v with cmask := (noticeSlot d e v).cmask ||| 2 ^ r } := by
  rw [commitNotice_eq hmember, if_neg (by rw [hver]; simp; omega), if_pos hver]

theorem commitNotice_of_filling (hmember : memberRank (slotRead d e v) e r = true)
    (hslot : (noticeSlot d e v).ver = none ∧ (noticeSlot d e v).state = 0 ∨
      (noticeSlot d e v).ver = some v ∧ (noticeSlot d e v).state ≤ 2) :
    commitNotice d e v r = completeCheck (commitTaken d e v r) e (ringSlot d e v) := by
  rw [commitNotice_eq hmember, if_pos hslot]

theorem commitNotice_of_previous (hmember : memberRank (slotRead d e v) e r = true)
    (hver : (noticeSlot d e v).ver ≠ some v) (hprev : (noticeSlot d e v).ver = some (previousVer d e v)) :
    commitNotice d e v r = setVslot (slotRead d e v) e (ringSlot d e v)
      { noticeSlot d e v with pnmask := (noticeSlot d e v).pnmask ||| 2 ^ r } := by
  have hfilling : ¬ ((noticeSlot d e v).ver = none ∧ (noticeSlot d e v).state = 0 ∨
      (noticeSlot d e v).ver = some v ∧ (noticeSlot d e v).state ≤ 2) := by
    rintro (⟨hnone, -⟩ | ⟨hsame, -⟩)
    · simp [hnone] at hprev
    · exact hver hsame
  rw [commitNotice_eq hmember, if_neg hfilling, if_neg hver, if_pos hprev]

theorem commitNotice_of_outside (hout : memberRank (slotRead d e v) e r = false ∨
      (noticeSlot d e v).ver ≠ some v ∧ (noticeSlot d e v).ver ≠ some (previousVer d e v) ∧
        ¬ ((noticeSlot d e v).ver = none ∧ (noticeSlot d e v).state = 0)) :
    commitNotice d e v r = noticeDiscard (slotRead d e v) e v := by
  cases hmember : memberRank (slotRead d e v) e r
  case false => exact commitNotice_of_stranger hmember
  case true =>
    obtain ⟨hver, hprev, hempty⟩ := hout.resolve_left (by simp [hmember])
    rw [commitNotice_eq hmember, if_neg (not_or.2 ⟨hempty, fun h => hver h.1⟩), if_neg hver, if_neg hprev]

/-- What a release notice does (R327, R334). -/
theorem releaseNotice_eq : releaseNotice d e v r =
    if memberRank (slotRead d e v) e r = true ∧ (noticeSlot d e v).ver = some v ∧ (noticeSlot d e v).state = 3 then
      setVslot (slotRead d e v) e (ringSlot d e v)
        { noticeSlot d e v with rmask := (noticeSlot d e v).rmask ||| 2 ^ r }
    else noticeDiscard (slotRead d e v) e v := by
  have hdue : (memberRank (slotRead d e v) e r && holds (noticeSlot d e v) v && (noticeSlot d e v).state == 3) = true ↔
      (memberRank (slotRead d e v) e r = true ∧ (noticeSlot d e v).ver = some v ∧ (noticeSlot d e v).state = 3) := by
    simp [holds, and_assoc]
  simp only [← hdue]
  rfl

/-! ### Molts (R334 to R336, R339, R347) -/

variable {i : Nat}

/-- A molt begins at the slot's record and drops the gathered copies of its version. -/
theorem molt_of_ready (h : moltReady d e i = true) :
    molt d e i = bump (setVslot (dropBuf (readSlot d e i) e ((vslotAt d e i).ver.getD 0)) e i
      { vslotAt d e i with state := 4 }) 0x6843 0 1 := by
  have hready : moltReady (readSlot d e i) e i = true := by
    simpa only [moltReady, vslotAt_readSlot, allRanks_readSlot, wvAt_readSlot] using h
  simp only [molt, hready, if_true, vslotAt_readSlot]

theorem dropBuf_bufs (d : Dev) (e v : Nat) :
    (dropBuf d e v).wv.bufs = d.wv.bufs.filter (fun b => !(b.entry == e && b.ver == v)) := by
  simp only [dropBuf]
  split <;> rfl

theorem dropBuf_mem (d : Dev) (e v : Nat) : (dropBuf d e v).mem = d.mem := by
  simp only [dropBuf]
  split <;> rfl

theorem not_mem_dropBuf {v : Nat} {b : Gbuf} (h : b ∈ (dropBuf d e v).wv.bufs) : ¬ (b.entry = e ∧ b.ver = v) := by
  rw [dropBuf_bufs, List.mem_filter] at h
  rintro ⟨rfl, rfl⟩
  simp at h

theorem moltFinish_of_molting (h : (vslotAt d e i).state = 4) :
    moltFinish d e i = if (vslotAt d e i).holdq = true then applyStart (moltEmpty d e i) e 0 else moltEmpty d e i := by
  simp only [moltFinish, if_pos h]

/-! ### Views and the gather cache (R340, R341, R345) -/

variable {w : Nat}

/-- The device without the cached translations of the entry's view. -/
def viewUncached (d : Dev) (e : Nat) : Dev :=
  { d with mem := { d.mem with tlb := d.mem.tlb.map (fun t =>
      (t.1, t.2.filter (fun c => !overlaps (parGjaddr d e) (parGbytes d e) c.base c.size))) } }

theorem not_overlaps_of_mem_viewUncached {t : Nat × List Cached} {c : Cached} (ht : t ∈ (viewUncached d e).mem.tlb)
    (hc : c ∈ t.2) : overlaps (parGjaddr d e) (parGbytes d e) c.base c.size = false := by
  obtain ⟨u, -, rfl⟩ := List.mem_map.1 ht
  simpa using (List.mem_filter.1 hc).2

/-- The device whose view of the entry maps version `v`, with the remap that ends counted. -/
def viewMapped (d : Dev) (e v w : Nat) : Dev :=
  bump (setWv (viewUncached d e) e { wvAt d e with remap := none, view := some v }) 0x6847 0 w

theorem viewRemapDone_of_remap (h : (wvAt d e).remap = some v) (w : Nat) :
    viewRemapDone d e w = serveEntry (viewMapped d e v w) e := by
  simp only [viewRemapDone, h]
  rfl

theorem wvAt_viewMapped (d : Dev) (e v w : Nat) :
    wvAt (viewMapped d e v w) e = { wvAt d e with remap := none, view := some v } :=
  (wvAt_congr (bump_wv _ _ _ _) e).trans (wvAt_setWv_same _ _ _)

theorem serveEntry_of_no_waits (h : (wvAt d e).waits = []) : serveEntry d e = d := by
  rw [serveEntry, h, serveGaths]

/-- The device once the wait for room of the gather of version `v` is counted and over. -/
def waitCounted (d : Dev) (e v w : Nat) : Dev :=
  let y := (gcShares d e).foldl (fun x p => bump x 0x6842 (p.1 + 1) w) d
  { y with wv := { y.wv with allocWait := y.wv.allocWait.erase (e, v) } }

theorem gcAllocate_of_room {x : Dev} (hwait : d.wv.allocWait.find? (fun a => a.1 == e) = some (e, v))
    (hroom : startGather (waitCounted d e v w) e v false = some x) : gcAllocate d e w = serveEntry x e := by
  unfold waitCounted at hroom
  simp only [gcAllocate, hwait, hroom]

theorem gcAllocate_of_no_wait (hnone : d.wv.allocWait.find? (fun a => a.1 == e) = none) (w : Nat) :
    gcAllocate d e w = d := by
  simp only [gcAllocate, hnone]

theorem gatherDone_of_whole {b : Gbuf} (hbuf : bufOf d e v = some b) (hmissing : b.missing = 0)
    (hnot : b.complete = false) : gatherDone d e v = serveEntry (setBuf d { b with complete := true }) e := by
  simp only [gatherDone, hbuf, if_pos (And.intro hmissing hnot)]

/-! ### Records of a stopped context (R338) -/

variable {c : Nat}

theorem releaseContext_of_stopped (h : (ctxAt d c).st = .stopped) :
    let ts := (d.wv.tags.filter (fun e => e.1 / 2 ^ 24 == c)).map (fun e => e.1 % 2 ^ 24)
    releaseContext d c =
      raise (ts.foldl (fun x t => unbindTag x c t) (send d (.status 0x6823 0 0))) 0x0686 c ts.length :=
  if_pos h

theorem releaseContext_of_not_stopped (h : (ctxAt d c).st ≠ .stopped) :
    releaseContext d c = send d (.status 0x6823 0 0) := if_neg h

end

/-- Settles O23: each clause is the lemma on its command, with the units acting or the object served. That a record that
cannot be read names entry and slot in 0x8684 and stops every context that binds the entry is the model's choice (log 96). -/
theorem versionCommands : Obligations.VersionCommands := by
  refine ⟨?notices, fun d e i => readSlot_of_good, fun d e i => readSlot_of_bad, ?molt, ?finish, ?finishHeld, ?remapIdle,
    ?remap, ?allocate, ?noWait, ?gathered, ?release, ?notStopped⟩
  case notices =>
    intro s e v r hact
    have hcommit : exec (.commitNotice e v r) s = after s (commitNotice s.dev e v r) := by
      rw [exec_commitNotice, onUnit_acting _ _ hact]
    have hrelease : exec (.releaseNotice e v r) s = after s (releaseNotice s.dev e v r) := by
      rw [exec_releaseNotice, onUnit_acting _ _ hact]
    rw [hcommit, hrelease]
    refine ⟨fun hm hver h3 => congrArg (after s) (commitNotice_of_complete hm hver h3),
      fun hm hslot => congrArg (after s) (commitNotice_of_filling hm hslot),
      fun hm hver hprev => congrArg (after s) (commitNotice_of_previous hm hver hprev),
      fun hout => congrArg (after s) (commitNotice_of_outside hout),
      fun hm hver h3 => congrArg (after s) (releaseNotice_eq.trans (if_pos ⟨hm, hver, h3⟩)),
      fun hout => congrArg (after s) (releaseNotice_eq.trans (if_neg ?_))⟩
    rintro ⟨hm, hver, h3⟩
    rcases hout with h | h | h
    · exact Bool.false_ne_true (h.symm.trans hm)
    · exact h hver
    · exact h h3
  case molt =>
    intro s e i hact hready
    refine ⟨_, by rw [exec_molt, onUnit_acting _ _ hact, molt_of_ready hready], ?slot, ?copies, ?mem⟩
    case slot => exact (vslotAt_congr (bump_wv _ _ _ _) e i).trans (vslotAt_setVslot_same _ _ _ _)
    case copies => exact fun b hb => not_mem_dropBuf hb
    case mem => exact (dropBuf_mem _ _ _).trans (readSlot_faults s.dev e i).mem
  case finish =>
    intro s e i hact hstate hfree
    rw [exec_moltFinish, onUnit_acting _ _ hact, moltFinish_of_molting hstate, if_neg (by simp [hfree]), moltEmpty, hfree]
    rfl
  case finishHeld =>
    intro s e i hact hstate hheld
    rw [exec_moltFinish, onUnit_acting _ _ hact, moltFinish_of_molting hstate, if_pos hheld, moltEmpty, hheld]
  case remapIdle =>
    intro s e w v hact hremap hwaits
    have hidle : serveEntry (viewMapped s.dev e v w) e = viewMapped s.dev e v w :=
      serveEntry_of_no_waits (by rw [wvAt_viewMapped, hwaits])
    refine ⟨viewMapped s.dev e v w, ?_, ?_, ?_, rfl, fun t ht c hc => not_overlaps_of_mem_viewUncached ht hc⟩
    · rw [exec_viewRemapDone, onUnit_acting _ _ hact, viewRemapDone_of_remap hremap, hidle]
    · rw [wvAt_viewMapped]
    · rw [wvAt_viewMapped]
  case remap =>
    intro s e w v hact hremap
    rw [exec_viewRemapDone, onUnit_acting _ _ hact, viewRemapDone_of_remap hremap]
    rfl
  case allocate =>
    intro s e w v d hact hwait x hroom
    rw [exec_gcAllocate, onUnit_acting _ _ hact, gcAllocate_of_room hwait hroom]
  case noWait =>
    intro s e w hact hnone
    rw [exec_gcAllocate, onUnit_acting _ _ hact, gcAllocate_of_no_wait hnone]
  case gathered =>
    intro s e v b hact hbuf hmissing hnot
    rw [exec_gatherDone, onUnit_acting _ _ hact, gatherDone_of_whole hbuf hmissing hnot]
  case release =>
    intro s c hserv hstopped
    rw [exec_releaseContext, onObject_serving hserv, releaseContext_of_stopped hstopped]
  case notStopped =>
    intro s c hserv hnot
    rw [exec_releaseContext, onObject_serving hserv, releaseContext_of_not_stopped hnot]

end Sys2Proof.Machine

namespace Sys2Proof.Machine

/-! ### What sending on the Relay leaves of the rest of the device (R406 to R426) -/

/-- Only the Relay, what the device sends, the event log and the objects differ. -/
def RelayOnly (d x : Dev) : Prop := ∃ rl out ev objs, x = { d with rl := rl, out := out, ev := ev, objs := objs }

section
variable {d x y : Dev}

theorem RelayOnly.refl (d : Dev) : RelayOnly d d := ⟨d.rl, d.out, d.ev, d.objs, rfl⟩

theorem RelayOnly.trans (h : RelayOnly d x) (g : RelayOnly x y) : RelayOnly d y := by
  obtain ⟨_, _, _, _, rfl⟩ := h
  obtain ⟨rl, out, ev, objs, rfl⟩ := g
  exact ⟨rl, out, ev, objs, rfl⟩

theorem RelayOnly.wv (h : RelayOnly d x) : x.wv = d.wv := by
  obtain ⟨_, _, _, _, rfl⟩ := h; rfl

theorem RelayOnly.mem (h : RelayOnly d x) : x.mem = d.mem := by
  obtain ⟨_, _, _, _, rfl⟩ := h; rfl

theorem OnlyEvents.relay (h : OnlyEvents d x) : RelayOnly d x := by
  obtain ⟨ev, objs, rfl⟩ := h
  exact ⟨d.rl, d.out, ev, objs, rfl⟩

end

section
variable (d : Dev)

/-- A fold of steps that each only use the Relay only uses the Relay. -/
theorem foldl_relay {α : Type} {step : Dev → α → Dev} (h : ∀ x a, RelayOnly x (step x a)) (l : List α) :
    RelayOnly d (l.foldl step d) :=
  List.foldlRecOn l step (.refl d) (fun x hx a _ => hx.trans (h x a))

theorem takeHead_relay (q : Nat) (nak : Option Nat) : RelayOnly d (takeHead d q nak).2 := by
  simp only [takeHead]
  split <;> split <;> exact ⟨_, d.out, d.ev, d.objs, rfl⟩

theorem putFlit_relay (q s : Nat) (f : TxFlit) : RelayOnly d (putFlit d q s f) :=
  (takeHead_relay d q none).trans ⟨_, _, _, _, rfl⟩

theorem pumpStream_relay (fuel s : Nat) : RelayOnly d (pumpStream fuel s d) := by
  induction fuel generalizing d with
  | zero => exact .refl d
  | succ fuel ih =>
    simp only [pumpStream]
    split
    · exact .refl d
    · split
      · exact (RelayOnly.trans ⟨_, d.out, d.ev, d.objs, rfl⟩ (putFlit_relay _ _ _ _)).trans (ih _)
      · exact .refl d

theorem queueMsg_relay (q : Nat) (m : RelayMsg) : RelayOnly d (queueMsg d q m) :=
  RelayOnly.trans ⟨_, d.out, d.ev, d.objs, rfl⟩ (foldl_relay _ (fun x s => pumpStream_relay x _ s) _)

theorem noteDrop_relay (h : Nat) : RelayOnly d (noteDrop d h) :=
  RelayOnly.trans ⟨d.rl, d.out, d.ev, _, rfl⟩ (raiseStep_only _ _ _ _).relay

variable {d} in
theorem forwardMsg_relay {x : Dev} {m : RelayMsg} {transit : Bool} (h : forwardMsg d m transit = some x) :
    RelayOnly d x := by
  simp only [forwardMsg] at h
  split at h
  · cases h
  split at h
  · cases h; exact ⟨d.rl, _, d.ev, d.objs, rfl⟩
  split at h
  · cases h
  split at h
  · cases h
  · cases h; exact queueMsg_relay d _ _

theorem dropMsg_relay (h : Nat) : RelayOnly d (dropMsg d h) := by
  simp only [dropMsg]
  split
  · exact noteDrop_relay d h
  split
  next hfwd => exact (noteDrop_relay d h).trans (forwardMsg_relay hfwd)
  next => exact (noteDrop_relay d h).trans (noteDrop_relay _ _)

theorem routeMsg_relay (m : RelayMsg) (transit : Bool) : RelayOnly d (routeMsg d m transit) := by
  simp only [routeMsg]
  split
  · exact dropMsg_relay d _
  split
  next hfwd => exact forwardMsg_relay hfwd
  next =>
    refine RelayOnly.trans ?_ (dropMsg_relay _ _)
    split
    · exact (raiseStep_only _ _ _ _).relay
    · exact .refl d

/-- A notice to the other members leaves the version store and memory alone. -/
theorem sendNotice_relay (e kind v : Nat) : RelayOnly d (sendNotice d e kind v) :=
  foldl_relay d (fun x _ => routeMsg_relay x _ _) _

end

/-! ### Releases change LREL and RMASK alone (R333) -/

/-- The versions of entry `e`, their states, their CMASKs and CUR stand, and so do the other entries and memory. -/
structure ReleasesOnly (e : Nat) (d x : Dev) : Prop where
  cur : (wvAt x e).cur = (wvAt d e).cur
  state : ∀ i, (vslotAt x e i).state = (vslotAt d e i).state
  cmask : ∀ i, (vslotAt x e i).cmask = (vslotAt d e i).cmask
  others : ∀ k, k ≠ e → wvAt x k = wvAt d k
  mem : x.mem = d.mem

section
variable {d x y : Dev} {e i v c : Nat}

theorem ReleasesOnly.refl (d : Dev) : ReleasesOnly e d d := ⟨rfl, fun _ => rfl, fun _ => rfl, fun _ _ => rfl, rfl⟩

theorem ReleasesOnly.trans (h : ReleasesOnly e d x) (g : ReleasesOnly e x y) : ReleasesOnly e d y :=
  ⟨g.cur.trans h.cur, fun i => (g.state i).trans (h.state i), fun i => (g.cmask i).trans (h.cmask i),
    fun k hk => (g.others k hk).trans (h.others k hk), g.mem.trans h.mem⟩

theorem RelayOnly.releases (h : RelayOnly d x) : ReleasesOnly e d x :=
  ⟨congrArg WvEntry.cur (wvAt_congr h.wv e), fun i => congrArg VSlot.state (vslotAt_congr h.wv e i),
    fun i => congrArg VSlot.cmask (vslotAt_congr h.wv e i), fun k _ => wvAt_congr h.wv k, h.mem⟩

theorem setVslot_releases {s : VSlot} (hstate : s.state = (vslotAt d e i).state)
    (hcmask : s.cmask = (vslotAt d e i).cmask) : ReleasesOnly e d (setVslot d e i s) where
  cur := by rw [wvAt_setVslot_same]
  state j := by
    by_cases h : i = j
    · subst h; rw [vslotAt_setVslot_same, hstate]
    · rw [vslotAt_setVslot_ne _ _ _ h]
  cmask j := by
    by_cases h : i = j
    · subst h; rw [vslotAt_setVslot_same, hcmask]
    · rw [vslotAt_setVslot_ne _ _ _ h]
  others k hk := wvAt_setVslot_ne _ _ _ hk
  mem := rfl

theorem releaseCheck_releases (d : Dev) (e : Nat) : ReleasesOnly e d (releaseCheck d e) := by
  refine List.foldlRecOn _ _ (.refl d) (fun x hx i _ => hx.trans ?_)
  dsimp only
  split
  · split
    · refine (setVslot_releases ?_ ?_).trans (sendNotice_relay _ _ _ _).releases <;> rfl
    · exact .refl x
  · exact .refl x

/-! ### The last notice of a group (R325) -/

/-- Slot `i` COMPLETE and its version `v` CUR. -/
def madeCurrent (d : Dev) (e i v : Nat) : Dev :=
  setWv (setVslot d e i { vslotAt d e i with state := 3 }) e
    { wvAt (setVslot d e i { vslotAt d e i with state := 3 }) e with cur := some v }

theorem mcastStart_of_no_pref (h : parPref d e = false) (v : Nat) : mcastStart d e v = d := by
  simp [mcastStart, h]

theorem prefetch_of_no_pref (h : parPref d e = false) (v : Nat) : prefetch d e v = d := by
  simp [prefetch, h]

theorem completeCheck_of_newer (hver : (vslotAt d e i).ver = some v) (hstate : (vslotAt d e i).state = 2)
    (hall : (vslotAt d e i).cmask = allRanks d e) (hcur : (wvAt d e).cur = some c) (hnew : older c v = true)
    (hpref : parPref d e = false) : completeCheck d e i = releaseCheck (madeCurrent d e i v) e := by
  have hkept : parPref (madeCurrent d e i v) e = false := hpref
  have hcur' : (wvAt (setVslot d e i { vslotAt d e i with state := 3 }) e).cur = some c := by
    rw [wvAt_setVslot_same]; exact hcur
  have hrest : prefetch (mcastStart (madeCurrent d e i v) e v) e v = madeCurrent d e i v := by
    rw [mcastStart_of_no_pref hkept, prefetch_of_no_pref hkept]
  simp only [completeCheck]
  split
  next u hu =>
    obtain rfl : u = v := Option.some.inj (hu.symm.trans hver)
    simp only [if_pos (And.intro hstate hall), hcur', hnew, if_true]
    exact congrArg (releaseCheck · e) hrest
  next hnone => cases hver.symm.trans hnone

theorem vslotAt_madeCurrent (d : Dev) (e i v : Nat) :
    vslotAt (madeCurrent d e i v) e i = { vslotAt d e i with state := 3 } := by
  rw [madeCurrent, vslotAt, wvAt_setWv_same]
  exact vslotAt_setVslot_same _ _ _ _

theorem madeCurrent_cur (d : Dev) (e i v : Nat) : (wvAt (madeCurrent d e i v) e).cur = some v := by
  rw [madeCurrent, wvAt_setWv_same]

theorem wvAt_madeCurrent_ne (d : Dev) (i v : Nat) {k : Nat} (h : k ≠ e) :
    wvAt (madeCurrent d e i v) k = wvAt d k :=
  (wvAt_setWv_ne _ _ h).trans (wvAt_setVslot_ne _ _ _ h)

theorem vslotAt_commitTaken (d : Dev) (e v r : Nat) : vslotAt (commitTaken d e v r) e (ringSlot d e v) =
    { vslotAt d e (ringSlot d e v) with
      ver := some v, cmask := (vslotAt d e (ringSlot d e v)).cmask ||| 2 ^ r } := by
  rw [commitTaken, vslotAt_setVslot_same, noticeSlot, slotRead, vslotAt_readSlot]

theorem commitTaken_cur (d : Dev) (e v r : Nat) : (wvAt (commitTaken d e v r) e).cur = (wvAt d e).cur := by
  rw [commitTaken, wvAt_setVslot_same, slotRead, wvAt_readSlot]

theorem wvAt_commitTaken_ne (d : Dev) (v r : Nat) {k : Nat} (h : k ≠ e) :
    wvAt (commitTaken d e v r) k = wvAt d k := by
  rw [commitTaken, wvAt_setVslot_ne _ _ _ h, slotRead, wvAt_readSlot]

theorem commitTaken_mem (d : Dev) (e v r : Nat) : (commitTaken d e v r).mem = d.mem := (readSlot_faults _ _ _).mem

theorem parRow_commitTaken (d : Dev) (e v r : Nat) : parRow (commitTaken d e v r) e = parRow d e :=
  parRow_readSlot d e _ e

/-- The notice that makes the mask of an OWNDONE version whole makes the version current. -/
theorem commitNotice_of_last {r : Nat} (hmember : memberRank d e r = true) (hcur : (wvAt d e).cur = some c)
    (hnew : older c v = true) (hver : (vslotAt d e (ringSlot d e v)).ver = some v)
    (hstate : (vslotAt d e (ringSlot d e v)).state = 2)
    (hall : (vslotAt d e (ringSlot d e v)).cmask ||| 2 ^ r = allRanks d e) (hpref : parPref d e = false) :
    commitNotice d e v r = releaseCheck (madeCurrent (commitTaken d e v r) e (ringSlot d e v) v) e := by
  have hslot : noticeSlot d e v = vslotAt d e (ringSlot d e v) := vslotAt_readSlot _ _ _ _ _
  have hranks : allRanks (commitTaken d e v r) e = allRanks d e := by
    rw [allRanks, allRanks, parNmem, parNmem, parRow_commitTaken]
  rw [commitNotice_of_filling ((memberRank_readSlot _ _ _ _).trans hmember)
    (.inr (by rw [hslot]; exact ⟨hver, hstate.le⟩))]
  apply completeCheck_of_newer (c := c)
  · rw [vslotAt_commitTaken]
  · rw [vslotAt_commitTaken]; exact hstate
  · rw [vslotAt_commitTaken, hranks]; exact hall
  · rw [commitTaken_cur, hcur]
  · exact hnew
  · rw [parPref, parRow_commitTaken]; exact hpref

end

/-- Settles O24: the rank's bit makes the slot's mask whole, so the version becomes current (`commitNotice_of_last`), and the
releases that this allows change neither its state nor its mask (`releaseCheck_releases`). -/
theorem lastNoticeCompletes : Obligations.LastNoticeCompletes := by
  intro s e v r c hact hmember hcur hnew x hver hstate hall hpref
  have hreleases := releaseCheck_releases (madeCurrent (commitTaken s.dev e v r) e (ringSlot s.dev e v) v) e
  refine ⟨_, by rw [exec_commitNotice, onUnit_acting _ _ hact,
    commitNotice_of_last hmember hcur hnew hver hstate hall hpref], ?cur, ?state, ?cmask, ?others, ?mem⟩
  case cur => rw [hreleases.cur, madeCurrent_cur]
  case state => rw [hreleases.state, vslotAt_madeCurrent]
  case cmask =>
    rw [hreleases.cmask, vslotAt_madeCurrent, vslotAt_commitTaken]
    exact hall
  case others =>
    intro k hk
    rw [hreleases.others k hk, wvAt_madeCurrent_ne _ _ _ hk, wvAt_commitTaken_ne _ _ _ hk]
  case mem => exact hreleases.mem.trans (commitTaken_mem s.dev e v r)

end Sys2Proof.Machine

/-! Update path (chapter 12): what reads, writes and faults leave of its records, what becomes of a piece and of the element it
is added to, how an apply begins and ends, and the total a device forms for a clip factor. -/

namespace Sys2Proof.Machine

/-! ### The step a START begins with, through accesses of memory and faults (R376) -/

/-- The step a START begins with, from which an entry without a record counts the steps applied. -/
def firstStep (d : Dev) : Nat := cfg d 0x6021 0

section
variable (d : Dev)

/-- No count of memory, of the update path or of a later unit is the step's object, whatever row it counts in. -/
theorem bump_firstStep {i : Nat} (h : 0x6021 < i) (s n : Nat) : firstStep (bump d i s n) = firstStep d :=
  bump_cfg_ne _ _ _ _ _ _ (by unfold okey; omega)

theorem bumpPart_firstStep {i : Nat} (h : 0x6021 < i) (s p n : Nat) : firstStep (bumpPart d i s p n) = firstStep d :=
  cfg_setObj_ne _ _ _ _ _ _ (by unfold okey; omega)

theorem raise_firstStep (c a b : Nat) : firstStep (raise d c a b) = firstStep d :=
  raise_cfg _ _ _ _ _ _ (by decide)

theorem raiseStep_firstStep (c a b : Nat) : firstStep (raiseStep d c a b) = firstStep d :=
  raiseStep_cfg _ _ _ _ _ _ (by decide)

theorem unitFault_firstStep (c code : Nat) : firstStep (unitFault d c code) = firstStep d := by
  unfold unitFault
  dsimp only
  split <;> rfl

theorem stopBinders_firstStep (e code : Nat) : firstStep (stopBinders d e code) = firstStep d :=
  foldl_keeps firstStep (fun d c => unitFault_firstStep d c code) _ d

theorem raiseFault_firstStep (c a b x : Nat) : firstStep (raiseFault d c a b x) = firstStep d :=
  (unitFault_firstStep _ _ _).trans (raise_firstStep _ _ _ _)

theorem noteGathered_firstStep (w : Nat) : firstStep (noteGathered d w) = firstStep d :=
  foldl_keeps firstStep (fun d _ => (stopBinders_firstStep _ _ _).trans (raise_firstStep d _ _ _)) _ d

theorem noteUe_firstStep (c : Nat) (ws : List Nat) : firstStep (noteUe d c ws) = firstStep d := by
  induction ws generalizing d with
  | nil => rfl
  | cons w ws ih =>
    refine (ih _).trans ?_
    split
    · rw [noteGathered_firstStep, raiseFault_firstStep, bump_firstStep _ (by omega)]
    · rw [raiseFault_firstStep, bump_firstStep _ (by omega)]
    · rfl

theorem ceNote_firstStep (c u l n : Nat) : firstStep (ceNote d c u l n) = firstStep d := by
  simp only [ceNote]
  split
  · exact raise_firstStep _ _ _ _
  · rfl

theorem noteCorrected_firstStep (w : Nat) : firstStep (noteCorrected d w) = firstStep d := by
  unfold noteCorrected
  split
  · rw [ceNote_firstStep, bump_firstStep _ (by omega)]
  · rw [ceNote_firstStep, bump_firstStep _ (by omega)]
  · rfl

theorem noteRead_firstStep (c a n : Nat) : firstStep (noteRead d c a n) = firstStep d :=
  (noteUe_firstStep _ _ _).trans (foldl_keeps firstStep noteCorrected_firstStep _ d)

theorem writeBack_firstStep (t : CacheTag) : firstStep (writeBack d t) = firstStep d := by
  unfold writeBack
  split
  · rw [foldl_keeps firstStep (fun d w => raise_firstStep d _ w 0), bumpPart_firstStep _ (by omega)]
  · rfl

theorem setCacheSet_firstStep (l : Nat) (s : Tab CacheTag) : firstStep (setCacheSet d l s) = firstStep d := rfl

theorem cacheAllocate_firstStep (l : Nat) (b : Bool) : firstStep (cacheAllocate d l b) = firstStep d := by
  simp only [cacheAllocate, setCacheSet_firstStep]
  split
  · exact writeBack_firstStep _ _
  · rfl

theorem cacheAccess_firstStep (l h : Nat) (w b : Bool) : firstStep (cacheAccess d l h w b) = firstStep d := by
  have hcount (k : Nat) : firstStep (bumpPart d 0x8055 (ownerHalf l + 1) k 1) = firstStep d :=
    bumpPart_firstStep d (by omega) _ _ _
  simp only [cacheAccess]
  split
  · rfl
  split
  · split
    · rw [setCacheSet_firstStep, writeBack_firstStep, hcount]
    split
    · exact hcount 0
    · exact hcount 0
  · split
    · exact hcount 1
    split
    · rw [cacheAllocate_firstStep, hcount]
    · exact hcount 1

theorem cacheLines_firstStep (a n h : Nat) (w : Bool) (q : Acc) : firstStep (cacheLines d a n h w q) = firstStep d :=
  foldl_keeps firstStep (fun d l => cacheAccess_firstStep d l h w _) _ d

theorem noteRemote_firstStep (h a n : Nat) : firstStep (noteRemote d h a n) = firstStep d := by
  unfold noteRemote
  split
  · rfl
  · exact bump_firstStep d (by omega) _ _

theorem readThrough_firstStep (h c t a n : Nat) (q : Acc) : firstStep (readThrough d h c t a n q).2 = firstStep d := by
  rw [readThrough, noteRead_firstStep, noteRemote_firstStep, cacheLines_firstStep]

theorem readRanges_firstStep (h c : Nat) (zs : List (Nat × Nat)) : firstStep (readRanges d h c zs).2 = firstStep d := by
  unfold readRanges
  generalize true = b
  induction zs generalizing d b with
  | nil => rfl
  | cons z zs ih => exact (ih _ _).trans (readThrough_firstStep d h c 0 z.1 z.2 {})

theorem writeThrough_firstStep (h t a : Nat) (bs : List Byte) (q : Acc) :
    firstStep (writeThrough d h t a bs q) = firstStep d :=
  (noteRemote_firstStep _ h a bs.length).trans (cacheLines_firstStep d a bs.length t true q)

end

/-! ### Records of the update path (R376) -/

/-- The configured rows, the state of the update path and the step a START begins with are the same. -/
structure UpdateKept (d x : Dev) : Prop where
  keyed : x.keyed = d.keyed
  up : x.up = d.up
  first : firstStep x = firstStep d

section
variable {d x y : Dev} {e : Nat}

theorem UpdateKept.refl (d : Dev) : UpdateKept d d := ⟨rfl, rfl, rfl⟩

theorem UpdateKept.trans (h : UpdateKept d x) (g : UpdateKept x y) : UpdateKept d y :=
  ⟨g.keyed.trans h.keyed, g.up.trans h.up, g.first.trans h.first⟩

theorem ReadsOnly.update (h : ReadsOnly d x) (hfirst : firstStep x = firstStep d) : UpdateKept d x := by
  obtain ⟨_, _, _, _, _, _, _, _, -, rfl⟩ := h
  exact ⟨rfl, rfl, hfirst⟩

theorem FaultsOnly.update (h : FaultsOnly d x) (hfirst : firstStep x = firstStep d) : UpdateKept d x :=
  h.reads.update hfirst

theorem FaultsOnly.up (h : FaultsOnly d x) : x.up = d.up := by
  obtain ⟨_, _, _, _, _, rfl⟩ := h; rfl

theorem OnlyEvents.faults (h : OnlyEvents d x) : FaultsOnly d x := by
  obtain ⟨ev, objs, rfl⟩ := h
  exact ⟨ev, objs, d.tus, d.fes, d.seq.ctxs, rfl⟩

theorem withMem_update (d : Dev) (m : Mem) : UpdateKept d { d with mem := m } := ⟨rfl, rfl, rfl⟩

theorem bump_update {i : Nat} (h : 0x6021 < i) (s n : Nat) : UpdateKept d (bump d i s n) :=
  ⟨rfl, rfl, bump_firstStep d h s n⟩

theorem raiseStep_update (c a b : Nat) : UpdateKept d (raiseStep d c a b) :=
  ⟨raiseStep_keyed _ _ _ _, raiseStep_up _ _ _ _, raiseStep_firstStep _ _ _ _⟩

theorem readRanges_update (h c : Nat) (zs : List (Nat × Nat)) : UpdateKept d (readRanges d h c zs).2 :=
  (readRanges_reads d h c zs).update (readRanges_firstStep d h c zs)

theorem writeThrough_update (h t a : Nat) (bs : List Byte) (q : Acc) : UpdateKept d (writeThrough d h t a bs q) :=
  (((cacheLines_reads d a bs.length t true q).trans (noteRemote_reads _ h a bs.length)).update
    ((noteRemote_firstStep _ _ _ _).trans (cacheLines_firstStep _ _ _ _ _ _))).trans (withMem_update _ _)

theorem updWrite_update (e a : Nat) (bs : List Byte) : UpdateKept d (updWrite d e a bs) :=
  writeThrough_update _ _ _ _ _

theorem UpdateKept.upAt (h : UpdateKept d x) (k : Nat) : upAt x k = upAt d k := by
  have hinit : parVinit x k = parVinit d k := by rw [parVinit, parVinit, parRow_congr h.keyed]
  have hfirst : cfg x 0x6021 0 = cfg d 0x6021 0 := h.first
  rw [Machine.upAt, Machine.upAt, h.up, hinit, hfirst]

theorem updRow_congr (h : x.keyed = d.keyed) (e : Nat) : updRow x e = updRow d e := by
  rw [updRow, updRow, keyedAt, keyedAt, h]

/-- A record that has been written reads as it was written, whatever else has changed. -/
theorem upAt_of_up_eq {z : UpEntry} (h : y.up = (setUp x e z).up) : upAt y e = z := by
  rw [upAt, h]
  exact tget_tset_same _ _ _ _

@[simp] theorem upAt_setUp_same (d : Dev) (e : Nat) (z : UpEntry) : upAt (setUp d e z) e = z := upAt_of_up_eq rfl

theorem upAt_setUp_ne (d : Dev) (z : UpEntry) {k : Nat} (h : k ≠ e) : upAt (setUp d e z) k = upAt d k :=
  tget_tset_ne _ _ _ _ _ h.symm

@[simp] theorem upBuf_setUpBuf_same (z : UpEntry) (b : Nat) (w : UpBuf) : upBuf (setUpBuf z b w) b = w := by
  by_cases h : b = 0
  · simp [upBuf, setUpBuf, h]
  · simp [upBuf, setUpBuf, h]

/-! ### Reads for the update path (R231, R372) -/

theorem updFail_mem (d : Dev) (e a : Nat) : (updFail d e a).mem = d.mem :=
  ((raise_faults _ _ _ _).trans (stopBinders_faults _ _ _)).mem

theorem updFail_keyed (d : Dev) (e a : Nat) : (updFail d e a).keyed = d.keyed :=
  ((raise_faults _ _ _ _).trans (stopBinders_faults _ _ _)).keyed

theorem upAt_updFail (d : Dev) (e a : Nat) : upAt (updFail d e a) e = { upAt d e with stopped := true } :=
  upAt_of_up_eq ((raise_faults _ _ _ _).trans (stopBinders_faults _ _ _)).up

variable (zs : List (Nat × Nat))

theorem updRead_of_good (h : (updRead d e zs).1 = true) : UpdateKept d (updRead d e zs).2 := by
  have hgood : (readRanges d (updHalf d e) 64 zs).1 = true := h
  simp only [updRead, hgood, if_true]
  exact readRanges_update _ _ _

/-- Memory after a read, good or not, is what reading leaves. -/
theorem updRead_mem (d : Dev) (e : Nat) : (updRead d e zs).2.mem = (readRanges d (updHalf d e) 64 zs).2.mem := by
  simp only [updRead]
  split
  · rfl
  · exact updFail_mem _ _ _

theorem updRead_keyed (d : Dev) (e : Nat) : (updRead d e zs).2.keyed = d.keyed := by
  simp only [updRead]
  split
  · exact (readRanges_update _ _ _).keyed
  · exact (updFail_keyed _ _ _).trans (readRanges_update _ _ _).keyed

/-- A read changes no buffer of its entry; a bad one stops it. -/
theorem upBuf_updRead (d : Dev) (e b : Nat) : upBuf (upAt (updRead d e zs).2 e) b = upBuf (upAt d e) b := by
  have hkept := (readRanges_update (d := d) (updHalf d e) 64 zs).upAt e
  simp only [updRead]
  split
  · rw [hkept]
  · rw [upAt_updFail, hkept]; rfl

end

/-! ### FP32 words of memory -/

theorem leVal_leBytes (n v : Nat) : leVal (leBytes n v) = v % 256 ^ n := by
  induction n generalizing v with
  | zero => simp [leBytes, leVal, Nat.mod_one]
  | succ n ih => rw [leBytes, leVal, ih, pow_succ, mul_comm (256 ^ n) 256, Nat.mod_mul, BitVec.toNat_ofNat]

theorem length_leBytes (n v : Nat) : (leBytes n v).length = n := by
  induction n generalizing v with
  | zero => rfl
  | succ n ih => rw [leBytes, List.length_cons, ih]

theorem f32Bytes_singleton (v : F32) : f32Bytes [v] = leBytes 4 v.toNat := List.append_nil _

/-- An FP32 word whose four bytes stand at `a` reads as itself. -/
theorem memF32_of_bytes {d : Dev} {a : Nat} {v : F32}
    (h : ∀ i < 4, memByte d.mem (a + i) = (f32Bytes [v]).getD i 0#8) : memF32 d a = v := by
  have hread : memRead d.mem a 4 = leBytes 4 v.toNat := by
    refine List.ext_getElem (by simp [memRead, length_leBytes]) fun i hi hj => ?_
    rw [length_leBytes] at hj
    have hi4 := h i hj
    rw [f32Bytes_singleton, List.getD_eq_getElem _ _ (by rwa [length_leBytes])] at hi4
    simpa [memRead] using hi4
  rw [memF32, memVal, hread, leVal_leBytes, Nat.mod_eq_of_lt (show v.toNat < 256 ^ 4 from v.isLt), BitVec.ofNat_toNat,
    BitVec.setWidth_eq]

/-! ### A piece and its buffer (R357 to R360) -/

/-- The buffer that a piece's step is summed in. -/
def pieceBuf (d : Dev) (p : Piece) : UpBuf := upBuf (upAt d p.entry) (p.step % 2)

/-- A piece names elements of an enabled entry, at a use and a place that it has. -/
structure PieceFits (d : Dev) (p : Piece) : Prop where
  enabled : parEn d p.entry = true
  use : p.use ≤ updUses d p.entry
  place : p.place ≤ updExp d p.entry
  elems : p.off + p.vals.length ≤ updNelem d p.entry

/-- A piece of a step already applied, or of a place already added. -/
abbrev PieceLate (d : Dev) (p : Piece) : Prop :=
  p.step < (upAt d p.entry).applied ∨ ((pieceBuf d p).st ≠ 0 ∧ p.step < (pieceBuf d p).step) ∨
    ((pieceBuf d p).st ≠ 0 ∧ p.step = (pieceBuf d p).step ∧ p.place < nextOf (pieceBuf d p) p.use)

/-- A piece of the next place is added, with the parked pieces of its use that then follow. -/
def placeAdded (d : Dev) (p : Piece) : Dev :=
  if (takeNext d p).1 then
    unpark p.entry (p.step % 2) p.use ((upAt (takeNext d p).2 p.entry).parked.length + 1) (takeNext d p).2
  else (takeNext d p).2

section
variable {d : Dev} {p : Piece}

theorem pieceReceive_of_out (h : parEn d p.entry = false ∨ updUses d p.entry < p.use ∨ updExp d p.entry < p.place ∨
      updNelem d p.entry < p.off + p.vals.length) (w : Nat) :
    pieceReceive d p w = stopBinders (raise d 0x8692 p.entry p.off) p.entry 0x8692 := by
  have hout : (!parEn d p.entry || decide (updUses d p.entry < p.use) || decide (updExp d p.entry < p.place) ||
      decide (updNelem d p.entry < p.off + p.vals.length)) = true := by
    simpa [or_assoc] using h
  simp only [pieceReceive, takePiece, if_pos hout]

theorem pieceReceive_of_late (hfits : PieceFits d p) (h : PieceLate d p) (w : Nat) :
    pieceReceive d p w = raiseStep (bump d 0x6944 0 1) 0x4691 p.entry p.step := by
  obtain ⟨hen, huse, hplace, helems⟩ := hfits
  have hlate := h
  unfold PieceLate pieceBuf at hlate
  simp [pieceReceive, takePiece, hen, huse.not_gt, hplace.not_gt, helems.not_gt, hlate]

theorem not_pieceLate (happl : (upAt d p.entry).applied ≤ p.step) (hstep : (pieceBuf d p).step ≤ p.step)
    (hnext : (pieceBuf d p).step = p.step → nextOf (pieceBuf d p) p.use ≤ p.place) : ¬ PieceLate d p := by
  rintro (h | ⟨-, h⟩ | ⟨-, hsame, h⟩)
  · omega
  · omega
  · have := hnext hsame.symm; omega

/-- What becomes of a piece that is neither out of range nor late, in a buffer that is not free (R358 to R360). -/
theorem pieceReceive_of_filling (hfits : PieceFits d p) (hlate : ¬ PieceLate d p) (hst : (pieceBuf d p).st ≠ 0)
    (w : Nat) : pieceReceive d p w =
      if (pieceBuf d p).step < p.step then
        raiseStep (bump d 0x6943 (updHalf d p.entry + 1) w) 0x4696 p.entry p.step
      else if p.place = nextOf (pieceBuf d p) p.use then placeAdded d p
      else if cfg d 0x6931 (updHalf d p.entry + 1) < parkUsed d (updHalf d p.entry) + 4 * p.vals.length then
        raiseStep (bump d 0x6943 (updHalf d p.entry + 1) w) 0x4690 (updHalf d p.entry) p.step
      else bump (setUp d p.entry { upAt d p.entry with parked := (upAt d p.entry).parked ++ [p] }) 0x6942 0 1 := by
  obtain ⟨hen, huse, hplace, helems⟩ := hfits
  have hin : ¬ (!parEn d p.entry || decide (updUses d p.entry < p.use) || decide (updExp d p.entry < p.place) ||
      decide (updNelem d p.entry < p.off + p.vals.length)) = true := by
    simp [hen, huse, hplace, helems]
  unfold PieceLate at hlate
  unfold pieceBuf at hlate hst ⊢
  simp only [pieceReceive, takePiece, if_neg hin, if_neg hlate]
  simp only [if_neg hst, and_iff_right hst, apply_ite Prod.snd]
  rfl

end

/-! ### A piece of one element (R357, R358) -/

section
variable (d : Dev) (p : Piece)

/-- The address of a piece's first element. -/
def pieceAddr : Nat := accAddr d p.entry p.use (p.step % 2) p.off

/-- The words a piece leaves in its accumulator. -/
def pieceSums : List F32 :=
  if p.place = 0 then p.vals.map (fun x => f32Add f32Zero x)
  else ((List.range p.vals.length).map (fun i => memF32 d (pieceAddr d p + 4 * i))).zipWith f32Add p.vals

/-- The device once the words that a piece is added to are read: place 0 needs none. -/
def pieceRead : Dev :=
  if p.place = 0 then d else (updRead d p.entry [(pieceAddr d p, 4 * p.vals.length)]).2

/-- Adding a piece reads, writes the sums, keeps bad words bad and counts. -/
theorem addPiece_eq : ∃ ws, addPiece d p =
    bump { updWrite (pieceRead d p) p.entry (pieceAddr d p) (f32Bytes (pieceSums d p)) with
      mem := markUe (updWrite (pieceRead d p) p.entry (pieceAddr d p) (f32Bytes (pieceSums d p))).mem ws } 0x6940 0 1 := by
  by_cases h : p.place = 0
  · exact ⟨[], by simp only [addPiece, pieceRead, pieceSums, if_pos h]; rfl⟩
  · exact ⟨_, by simp only [addPiece, pieceRead, pieceSums, if_neg h]; rfl⟩

/-- What has been read is a matter of events: no byte changes. -/
theorem pieceRead_mem : ∃ x, ReadsOnly d x ∧ (pieceRead d p).mem = x.mem := by
  unfold pieceRead
  split
  · exact ⟨d, .refl d, rfl⟩
  · exact ⟨_, readRanges_reads _ _ _ _, updRead_mem _ _ _⟩

theorem pieceRead_keyed : (pieceRead d p).keyed = d.keyed := by
  unfold pieceRead
  split
  · rfl
  · exact updRead_keyed _ _ _

theorem upBuf_pieceRead (b : Nat) : upBuf (upAt (pieceRead d p) p.entry) b = upBuf (upAt d p.entry) b := by
  unfold pieceRead
  split
  · rfl
  · exact upBuf_updRead _ _ _ _

theorem addPiece_kept : UpdateKept (pieceRead d p) (addPiece d p) := by
  obtain ⟨ws, h⟩ := addPiece_eq d p
  rw [h]
  exact ((updWrite_update _ _ _).trans (withMem_update _ _)).trans (bump_update (by omega) _ _)

variable {d}

/-- The sums are the only bytes that change. -/
theorem addPiece_bytes (hfills : FillsOk d.mem) (hwf : Mem.wf d.mem = true) :
    (∀ x, memByte (addPiece d p).mem x =
      if pieceAddr d p ≤ x ∧ x < pieceAddr d p + (f32Bytes (pieceSums d p)).length then
        (f32Bytes (pieceSums d p)).getD (x - pieceAddr d p) 0#8
      else memByte d.mem x) ∧ Mem.wf (addPiece d p).mem = true := by
  obtain ⟨x, hreads, hmem⟩ := pieceRead_mem d p
  obtain ⟨ws, hadd⟩ := addPiece_eq d p
  obtain ⟨hbyte, -, hform⟩ := writeThrough_spec (pieceRead d p) (updHalf (pieceRead d p) p.entry) 0 (pieceAddr d p)
    (f32Bytes (pieceSums d p)) {} (hmem ▸ hreads.fillsOk hfills) (hmem ▸ hreads.wf hwf)
  rw [hadd]
  refine ⟨fun a => (hbyte a).trans ?_, hform⟩
  rw [hmem, hreads.memByte]

end

section
variable {d : Dev} {p : Piece}

/-- Elements that do not complete their place are noted in the use of their buffer. -/
theorem notePlace_of_partial {e b u n : Nat} (h : tget 0 (upBuf (upAt d e) b).added u + n ≠ updNelem d e) :
    ∃ y : UpBuf, y.added = tset (upBuf (upAt d e) b).added u (tget 0 (upBuf (upAt d e) b).added u + n) ∧
      notePlace d e b u n = (false, setUp d e (setUpBuf (upAt d e) b y)) := by
  have hpart : (tget 0 (upBuf (upAt d e) b).added u + n == updNelem d e) = false := beq_false_of_ne h
  simp only [notePlace, hpart, Bool.false_eq_true, if_false]
  refine ⟨_, ?_, rfl⟩
  split <;> rfl

/-- A piece of the next place of an entry that is not fused, which does not complete it, is added and noted. -/
theorem placeAdded_of_partial (hfused : fusedEntry d p.entry = false)
    (h : tget 0 (pieceBuf d p).added p.use + p.vals.length ≠ updNelem d p.entry) :
    ∃ z : UpEntry, placeAdded d p = setUp (addPiece d p) p.entry z ∧
      tget 0 (upBuf z (p.step % 2)).added p.use = tget 0 (pieceBuf d p).added p.use + p.vals.length := by
  have hbuf : upBuf (upAt (addPiece d p) p.entry) (p.step % 2) = pieceBuf d p := by
    rw [(addPiece_kept d p).upAt, upBuf_pieceRead]; rfl
  have hnelem : updNelem (addPiece d p) p.entry = updNelem d p.entry := by
    rw [updNelem, updNelem, updRow_congr ((addPiece_kept d p).keyed.trans (pieceRead_keyed d p))]
  obtain ⟨y, hy, hnote⟩ := notePlace_of_partial (d := addPiece d p) (e := p.entry) (b := p.step % 2) (u := p.use)
    (n := p.vals.length) (by rwa [hbuf, hnelem])
  have htake : takeNext d p =
      (false, setUp (addPiece d p) p.entry (setUpBuf (upAt (addPiece d p) p.entry) (p.step % 2) y)) := by
    simp only [takeNext, hfused, Bool.false_and, Bool.false_eq_true, if_false]
    exact hnote
  refine ⟨setUpBuf (upAt (addPiece d p) p.entry) (p.step % 2) y,
    by simp only [placeAdded, htake, Bool.false_eq_true, if_false], ?_⟩
  rw [upBuf_setUpBuf_same, hy, tget_tset_same, hbuf]

theorem pieceSums_singleton {x : F32} (h : p.vals = [x]) : pieceSums d p =
    [if p.place = 0 then f32Add f32Zero x else f32Add (memF32 d (pieceAddr d p)) x] := by
  unfold pieceSums
  split <;> simp [h]

end

/-- Settles O26: the piece is of the next place (`pieceReceive_of_filling`) and does not complete it
(`placeAdded_of_partial`), so its sum alone is written (`addPiece_bytes`). -/
theorem pieceIsAdded : Obligations.PieceIsAdded := by
  intro s p w x hact hen huse hplace hvals hoff hfused happl y hst hstep hnext hpart hfills hwf a
  have hlen : p.vals.length = 1 := by rw [hvals]; rfl
  have hfits : PieceFits s.dev p := ⟨hen, huse, hplace, by omega⟩
  have hstep' : (pieceBuf s.dev p).step = p.step := hstep
  have hlate : ¬ PieceLate s.dev p := not_pieceLate happl hstep'.le (fun _ => hnext.ge)
  have hfilling : (pieceBuf s.dev p).st ≠ 0 := fun h => absurd (hst.symm.trans h) (by omega)
  obtain ⟨z, hadded, hnoted⟩ := placeAdded_of_partial hfused (hlen ▸ hpart)
  obtain ⟨hbyte, hform⟩ := addPiece_bytes p (d := s.dev) (fun f hf => by simp [hfills] at hf) hwf
  rw [pieceSums_singleton hvals, show (f32Bytes [_]).length = 4 by rw [f32Bytes_singleton, length_leBytes]] at hbyte
  refine ⟨setUp (addPiece s.dev p) p.entry z, ?exec, ?word, ?frame, hform, ?noted⟩
  case exec =>
    rw [exec_pieceReceive, onUnit_acting _ _ hact, pieceReceive_of_filling hfits hlate hfilling, if_neg hstep'.not_lt,
      if_pos (show p.place = nextOf (pieceBuf s.dev p) p.use from hnext), hadded]
  case word =>
    refine memF32_of_bytes fun i hi => (hbyte (a + i)).trans ?_
    refine (if_pos ⟨Nat.le_add_right _ _, Nat.add_lt_add_left hi _⟩).trans ?_
    rw [show a + i - pieceAddr s.dev p = i from Nat.add_sub_cancel_left _ _]
    rfl
  case frame => exact fun b hb => (hbyte b).trans (if_neg hb)
  case noted => rw [upAt_setUp_same, hnoted, hlen]; rfl

end Sys2Proof.Machine

namespace Sys2Proof.Machine

/-! ### The apply begins (R361, R362) -/

section
variable {d : Dev} {e b : Nat}

/-- The version that an entry's next apply makes. -/
def nextVer (d : Dev) (e : Nat) : Nat := ((upAt d e).lastv + 1) % 2 ^ 32

/-- The slot of the next version handed over, the buffer applying with hyperparameters and clip factor frozen. -/
def applyBegun (d : Dev) (e b : Nat) (cf : F32) : Dev :=
  setUp (handover d e (nextVer d e) (upBuf (upAt d e) b).step) e
    { setUpBuf (upAt d e) b { upBuf (upAt d e) b with st := 3 } with hyper := hyperOf d e, cf }

/-- The apply of a whole buffer begins once the slot of its version is free, and waits for it until then. -/
theorem applyStart_of_whole {cf : F32} (hold : oldestBuf (upAt d e) = some b) (hen : parEn d e = true)
    (hst : (upBuf (upAt d e) b).st = 2) (hcut : d.up.heldForCut = false) (hstop : (upAt d e).stopped = false)
    (hclip : applyClip d e (upBuf (upAt d e) b).step = some cf) (w : Nat) :
    applyStart d e w =
      if handoverFree d e (nextVer d e) = true then applyBegun d e b cf else handoverWait d e (nextVer d e) w := by
  have hready : ¬ (!parEn d e || (upBuf (upAt d e) b).st != 2 || d.up.heldForCut || (upAt d e).stopped) = true := by
    simp [hen, hst, hcut, hstop]
  simp only [applyStart, hold, hclip, if_neg hready]
  rfl

theorem applyStart_of_stopped (hstop : (upAt d e).stopped = true) (w : Nat) : applyStart d e w = d := by
  simp only [applyStart, hstop, Bool.or_true, if_true]
  split
  · rfl
  split <;> rfl

/-! ### The apply ends (R363, R366 to R369, R372) -/

/-- The buffer whose apply is in progress. -/
def applyingBuf (d : Dev) (e : Nat) : Option Nat := [0, 1].find? (fun b => (upBuf (upAt d e) b).st == 3)

/-- The summed gradient of an element, the pieces of a fused last place with it. -/
def sumOf (d : Dev) (e b i : Nat) : F32 := gradSum d e b (upAt d e).fused i

/-- Master and moments of an element before the apply. -/
def oldMoments (d : Dev) (e i : Nat) : Moments where
  w := memF32 d (updMbase d e + 4 * i)
  m1 := memF32 d (updM1base d e + 4 * i)
  m2 := if updOpt d e = 1 then memF32 d (updM2base d e + 4 * i) else f32Zero

/-- Master and moments of every element after the apply of buffer `b`. -/
def newMoments (d : Dev) (e b : Nat) : List Moments :=
  (List.range (updNelem d e)).map (fun i =>
    applyElement (updOpt d e) (upAt d e).hyper
      (applyScalars (upAt d e).hyper (upBuf (upAt d e) b).step ((upAt d e).t + 1))
      (applyGrad (upAt d e).hyper (upAt d e).cf (sumOf d e b i)) (oldMoments d e i))

/-- The elements whose gradient or new master is not finite. -/
def badElements (d : Dev) (e b : Nat) : Nat :=
  ((((List.range (updNelem d e)).map (sumOf d e b)).zip (newMoments d e b)).filter
    (fun p => nonFinite p.1 || nonFinite p.2.w)).length

/-- The version copy of the new master, and the flags of its conversions. -/
def newCopy (d : Dev) (e b : Nat) : List Byte × CFlags :=
  versionCopy d e (upBuf (upAt d e) b).step ((newMoments d e b).map (fun n => n.w))

/-- Master and first moments of `d` written over what `x` holds, and the second moments of an OPT that has them. -/
def momentsWritten (d : Dev) (e b : Nat) (x : Dev) : Dev :=
  let y := updWrite (updWrite x e (updMbase d e) (f32Bytes ((newMoments d e b).map (fun n => n.w)))) e (updM1base d e)
    (f32Bytes ((newMoments d e b).map (fun n => n.m1)))
  if updOpt d e = 1 then updWrite y e (updM2base d e) (f32Bytes ((newMoments d e b).map (fun n => n.m2))) else y

/-- The device once the apply of buffer `b` has read its ranges and written its results. -/
def applyWritten (d : Dev) (e b : Nat) : Dev :=
  updWrite (momentsWritten d e b (updRead d e (applyRanges d e b)).2) e (slotCopy d e (nextVer d e)) (newCopy d e b).1

/-- The entry after its apply: the buffer is free and the version passed on. -/
def appliedEntry (d : Dev) (e b : Nat) : UpEntry :=
  { setUpBuf (upAt d e) b upBufReset with
    t := (upAt d e).t + 1, lastv := nextVer d e, fused := [], applied := (upBuf (upAt d e) b).step + 1 }

/-- The apply counted: as one, as clipped, with the elements that are not finite. -/
def applyCounted (d : Dev) (e b : Nat) (x : Dev) : Dev :=
  let y := bump x 0x6941 0 1
  let z := if fxLt (ofF32 (upAt d e).cf) (fxNat 1) then bump y 0x6946 0 1 else y
  if badElements d e b = 0 then z else raiseStep (bump z 0x6945 0 (badElements d e b)) 0x4693 e (badElements d e b)

/-- The conversion of the copy reported to the scale entry that its scale came from, when it has one. -/
def copyReported (d : Dev) (e b : Nat) (x : Dev) : Dev :=
  if updVtsen d e then
    conversionReport (if x.sup.badActive.contains (updVts d e) then entryUe x (updVts d e) else x) (updVts d e)
      (finiteAmax ((newMoments d e b).map (fun n => n.w))) (flagBits (newCopy d e b).2) d.seq.step
  else x

/-- The device whose apply of buffer `b` has ended, but for its version's slot. -/
def applyEnded (d : Dev) (e b : Nat) : Dev :=
  copyReported d e b (applyCounted d e b (setUp (applyWritten d e b) e (appliedEntry d e b)))

/-- An apply that could read its words ends with its version's slot OWNDONE. -/
theorem applyDone_of_good (hb : applyingBuf d e = some b) (hwhole : applyWhole d e (upAt d e) = true)
    (hstop : (upAt d e).stopped = false) (hread : (updRead d e (applyRanges d e b)).1 = true) :
    applyDone d e = ownDone (applyEnded d e b) e (nextVer d e) := by
  have hgo : ¬ (!applyWhole d e (upAt d e) || (upAt d e).stopped) = true := by simp [hwhole, hstop]
  have hgood : ¬ (!(updRead d e (applyRanges d e b)).1) = true := by simp [hread]
  have hnew : (((List.range (updNelem d e)).map (gradSum d e b (upAt d e).fused)).zipWith
      (fun g s => applyElement (updOpt d e) (upAt d e).hyper
        (applyScalars (upAt d e).hyper (upBuf (upAt d e) b).step ((upAt d e).t + 1))
        (applyGrad (upAt d e).hyper (upAt d e).cf g) s)
      ((List.range (updNelem d e)).map (fun i => oldMoments d e i))) = newMoments d e b := by
    rw [List.zipWith_map, List.zipWith_self]
    rfl
  unfold applyingBuf at hb
  unfold oldMoments at hnew
  simp only [applyDone, hb, if_neg hgo, if_neg hgood, hnew]
  rfl

theorem applyDone_of_bad (hb : applyingBuf d e = some b) (hwhole : applyWhole d e (upAt d e) = true)
    (hstop : (upAt d e).stopped = false) (hread : (updRead d e (applyRanges d e b)).1 = false) :
    applyDone d e = (updRead d e (applyRanges d e b)).2 := by
  have hgo : ¬ (!applyWhole d e (upAt d e) || (upAt d e).stopped) = true := by simp [hwhole, hstop]
  have hbad : (!(updRead d e (applyRanges d e b)).1) = true := by simp [hread]
  unfold applyingBuf at hb
  simp only [applyDone, hb, if_neg hgo, if_pos hbad]

theorem applyDone_of_stopped (hstop : (upAt d e).stopped = true) : applyDone d e = d := by
  simp only [applyDone, hstop, Bool.or_true, if_true]
  split <;> rfl

/-! ### What the end of an apply leaves of the rest of the device -/

/-- Counts and events of an apply, and what they report, change no memory and no record of the update path. -/
structure ApplyFrame (d x : Dev) : Prop extends UpdateKept d x where
  mem : x.mem = d.mem

variable {x y : Dev}

theorem ApplyFrame.refl (d : Dev) : ApplyFrame d d := ⟨.refl d, rfl⟩

theorem ApplyFrame.trans (h : ApplyFrame d x) (g : ApplyFrame x y) : ApplyFrame d y :=
  ⟨h.toUpdateKept.trans g.toUpdateKept, g.mem.trans h.mem⟩

theorem FaultsOnly.apply (h : FaultsOnly d x) (hfirst : firstStep x = firstStep d) : ApplyFrame d x :=
  ⟨h.update hfirst, h.mem⟩

theorem bump_apply {i : Nat} (h : 0x6021 < i) (s n : Nat) : ApplyFrame d (bump d i s n) := ⟨bump_update h s n, rfl⟩

theorem raiseStep_apply (c a b : Nat) : ApplyFrame d (raiseStep d c a b) :=
  ⟨raiseStep_update c a b, raiseStep_mem _ _ _ _⟩

theorem entryUe_apply (k : Nat) : ApplyFrame d (entryUe d k) :=
  ((raise_faults _ _ _ _).trans (foldl_faults _ (fun x (n : Nat × Nat) => unitFault_faults x n.2 0x8541) _ _)).apply
    ((foldl_keeps firstStep (fun x (n : Nat × Nat) => unitFault_firstStep x n.2 0x8541) _ _).trans
      (raise_firstStep _ _ _ _))

theorem setLedger_apply (k : Nat) (z : LedgerEntry) : ApplyFrame d (setLedger d k z) := ⟨⟨rfl, rfl, rfl⟩, rfl⟩

theorem homeRead_apply (k : Nat) : ApplyFrame d (homeRead d k) := by
  unfold homeRead
  split
  · exact .refl d
  · exact entryUe_apply k

/-- A report that comes too late is counted below the step's object. -/
theorem lateReport_apply (k n : Nat) : ApplyFrame d (raiseOnce (bump d 0x5060 0 1) 0x4540 0 k n) :=
  ((bump_faults _ _ _ _).trans (raiseOnce_only _ _ _ _ _).faults).apply
    ((raiseOnce_cfg _ _ _ _ _ _ _ (by decide)).trans (bump_cfg_ne _ _ _ _ _ _ (by decide)))

theorem conversionReport_apply (k : Nat) (v : F32) (f n : Nat) : ApplyFrame d (conversionReport d k v f n) := by
  simp only [conversionReport]
  split
  · exact lateReport_apply k n
  · exact (homeRead_apply k).trans (setLedger_apply k _)

theorem applyCounted_apply (d : Dev) (e b : Nat) (x : Dev) : ApplyFrame x (applyCounted d e b x) := by
  have hone : ApplyFrame x (bump x 0x6941 0 1) := bump_apply (by omega) _ _
  have hclipped : ApplyFrame x (if fxLt (ofF32 (upAt d e).cf) (fxNat 1) then bump (bump x 0x6941 0 1) 0x6946 0 1
      else bump x 0x6941 0 1) := by
    split
    · exact hone.trans (bump_apply (by omega) _ _)
    · exact hone
  simp only [applyCounted]
  split
  · exact hclipped
  · exact (hclipped.trans (bump_apply (by omega) _ _)).trans (raiseStep_apply _ _ _)

theorem copyReported_apply (d : Dev) (e b : Nat) (x : Dev) : ApplyFrame x (copyReported d e b x) := by
  unfold copyReported
  split
  · refine ApplyFrame.trans ?_ (conversionReport_apply _ _ _ _)
    split
    · exact entryUe_apply _
    · exact .refl x
  · exact .refl x

theorem applyEnded_apply (d : Dev) (e b : Nat) :
    ApplyFrame (setUp (applyWritten d e b) e (appliedEntry d e b)) (applyEnded d e b) :=
  (applyCounted_apply _ _ _ _).trans (copyReported_apply _ _ _ _)

theorem momentsWritten_update (d : Dev) (e b : Nat) (x : Dev) : UpdateKept x (momentsWritten d e b x) := by
  have hfirst := (updWrite_update (d := x) e (updMbase d e) (f32Bytes ((newMoments d e b).map (fun n => n.w)))).trans
    (updWrite_update e (updM1base d e) (f32Bytes ((newMoments d e b).map (fun n => n.m1))))
  simp only [momentsWritten]
  split
  · exact hfirst.trans (updWrite_update _ _ _)
  · exact hfirst

theorem applyWritten_update (h : (updRead d e (applyRanges d e b)).1 = true) : UpdateKept d (applyWritten d e b) :=
  ((updRead_of_good _ h).trans (momentsWritten_update _ _ _ _)).trans (updWrite_update _ _ _)

theorem upAt_applyEnded_same (d : Dev) (e b : Nat) : upAt (applyEnded d e b) e = appliedEntry d e b := by
  rw [(applyEnded_apply d e b).upAt, upAt_setUp_same]

theorem upAt_applyEnded_ne (h : (updRead d e (applyRanges d e b)).1 = true) {k : Nat} (hk : k ≠ e) :
    upAt (applyEnded d e b) k = upAt d k := by
  rw [(applyEnded_apply d e b).upAt, upAt_setUp_ne _ _ hk, (applyWritten_update h).upAt]

/-- The buffer of the apply that ends is free. -/
theorem upBuf_appliedEntry (d : Dev) (e b : Nat) : upBuf (appliedEntry d e b) b = upBufReset :=
  upBuf_setUpBuf_same (upAt d e) b upBufReset

end

/-! ### The clip factor of a group (R365) -/

section
variable {d : Dev} {g : Nat}

/-- The total of the device for a clip group and step is held. -/
def totalHeld (d : Dev) (g c : Nat) : Bool :=
  d.up.totals.any (fun t => t.1 == g && t.2.1 == c && t.2.2.1 == grpRank d (clipGroup d g))

/-- Every entry of the group has step `c` whole in its buffer, and none is stopped. -/
def ClipWhole (d : Dev) (g c : Nat) : Prop :=
  ∀ e ∈ clipEntries d g, (upBuf (upAt d e) (c % 2)).st = 2 ∧ (upBuf (upAt d e) (c % 2)).step = c ∧
    (upAt d e).stopped = false

/-- The accumulators of a group's entries read, one entry after another: whether all could be, and the device. -/
def clipRead (d : Dev) (g : Nat) : Bool × Dev :=
  (clipEntries d g).foldl (fun (s : Bool × Dev) e =>
    (s.1 && (updRead s.2 e (clipRanges s.2 e (clipNext d g))).1, (updRead s.2 e (clipRanges s.2 e (clipNext d g))).2))
    (true, d)

/-- The device's total kept and sent to every other member of the group. -/
def totalSent (d : Dev) (g : Nat) : Dev :=
  let c := clipNext d g
  let me := grpRank d (clipGroup d g)
  let q := clipTotal d g c
  ((List.range (grpNmem d (clipGroup d g) + 1)).filter (fun r => r != me)).foldl (fun x r =>
    relaySend x (grpMember d (clipGroup d g) r) 8 2 0 g (4 * 2 ^ 60 + g * 2 ^ 56 + c % 256 * 2 ^ 48)
      (leBytes 16 (q.toNat * 2 ^ 96)))
    { (clipRead d g).2 with up := { (clipRead d g).2.up with totals := d.up.totals ++ [(g, c, me, q)] } }

/-- With every entry whole and no total of its own yet, a device forms it, unless an accumulator cannot be read. -/
theorem clipFactor_of_whole (hg : g ≠ 0) (hsome : clipEntries d g ≠ []) (hwhole : ClipWhole d g (clipNext d g))
    (hnone : totalHeld d g (clipNext d g) = false) :
    clipFactor d g = if (clipRead d g).1 = true then clipForm (totalSent d g) g (clipNext d g) else (clipRead d g).2 := by
  have hdone : (clipEntries d g).all (fun e => (upBuf (upAt d e) (clipNext d g % 2)).st == 2 &&
      (upBuf (upAt d e) (clipNext d g % 2)).step == clipNext d g && !(upAt d e).stopped) = true := by
    refine List.all_eq_true.2 fun e he => ?_
    obtain ⟨hst, hstep, hstop⟩ := hwhole e he
    simp [hst, hstep, hstop]
  have hempty : (clipEntries d g).isEmpty = false := by simpa using hsome
  unfold totalHeld at hnone
  simp only [clipFactor, hdone, hempty, hnone, hg, Bool.not_true, Bool.false_eq_true, or_self, if_false]
  cases hread : (clipRead d g).1
  case true => exact if_neg (show ¬ (!(clipRead d g).1) = true by simp [hread])
  case false => exact if_pos (show (!(clipRead d g).1) = true by simp [hread])

end

/-- Settles O25: each clause is the lemma on its command, with the units acting. That a piece of a disabled entry counts as
out of range is the model's choice (log 100), as is that an error stops the entry (log 96). -/
theorem updateCommands : Obligations.UpdateCommands := by
  refine ⟨?out, ?pieces, ?start, ?done, ?stopped, ?clip⟩
  case out =>
    intro s p w hact hout
    rw [exec_pieceReceive, onUnit_acting _ _ hact, pieceReceive_of_out hout]
  case pieces =>
    intro s p w hact hen huse hplace helems x y half
    have hfits : PieceFits s.dev p := ⟨hen, huse, hplace, helems⟩
    rw [exec_pieceReceive, onUnit_acting _ _ hact]
    refine ⟨fun hlate => ?late, fun happl hst hstep => ?early, fun happl hst hstep hnext hroom => ?full,
      fun happl hst hstep hnext hroom => ?parked⟩
    case late => rw [pieceReceive_of_late hfits hlate]
    case early =>
      have hnot : ¬ PieceLate s.dev p := not_pieceLate happl hstep.le (fun h => absurd h hstep.ne)
      exact congrArg (after s) ((pieceReceive_of_filling hfits hnot hst w).trans (if_pos hstep))
    all_goals
      have hnot : ¬ PieceLate s.dev p := not_pieceLate happl hstep.le (fun _ => hnext.le)
      refine congrArg (after s) ((pieceReceive_of_filling hfits hnot hst w).trans ?_)
      refine (if_neg hstep.not_lt).trans ((if_neg hnext.ne').trans ?_)
    case full => exact if_pos hroom
    case parked => exact if_neg hroom.not_gt
  case start =>
    intro s e w b cf hact hold hen hst hcut hstop hclip v
    rw [exec_applyStart, onUnit_acting _ _ hact, applyStart_of_whole hold hen hst hcut hstop hclip]
    exact ⟨fun hfree => congrArg (after s) (if_pos hfree),
      fun hbusy => congrArg (after s) (if_neg (Bool.eq_false_iff.1 hbusy))⟩
  case done =>
    intro s e b hact x hb hwhole hstop r v k new d1 d2 d3 d4
    rw [exec_applyDone, onUnit_acting _ _ hact]
    refine ⟨fun hread => ⟨applyEnded s.dev e b, ?exec, (applyEnded_apply s.dev e b).mem, ?buf, ?t, ?lastv, ?fused,
      ?applied, fun k hk => upAt_applyEnded_ne hread hk⟩,
      fun hread => congrArg (after s) (applyDone_of_bad hb hwhole hstop hread)⟩
    case exec => exact congrArg (after s) (applyDone_of_good hb hwhole hstop hread)
    all_goals rw [upAt_applyEnded_same]
    case buf => exact upBuf_appliedEntry _ _ _
    all_goals rfl
  case stopped =>
    intro s e w hact hstop
    rw [exec_applyStart, exec_applyDone, onUnit_acting _ _ hact, onUnit_acting _ _ hact]
    exact ⟨congrArg (after s) (applyStart_of_stopped hstop w), congrArg (after s) (applyDone_of_stopped hstop)⟩
  case clip =>
    intro s g hact hg hsome c hwhole me q hnone r
    rw [exec_clipFactor, onUnit_acting _ _ hact, clipFactor_of_whole hg hsome hwhole hnone]
    exact ⟨fun hread => congrArg (after s) (if_pos hread),
      fun hread => congrArg (after s) (if_neg (Bool.eq_false_iff.1 hread))⟩

end Sys2Proof.Machine

/-! Random units (chapter 13): how a fill is asked for and ends, what becomes of one of its elements, and what a probe
answers. -/

namespace Sys2Proof.Machine

/-! ### A fill is asked for (R386) -/

section
variable {d : Dev} {r : Nat}

theorem rngFill_of_job (hjob : d.seq.job ≠ .idle) : rngFill d r = send d (.status 0xCE40 0 6) :=
  if_pos (bne_iff_ne.2 hjob)

/-- With the job idle, what answers is whether a fill runs, then whether the record is valid. -/
theorem rngFill_of_idle (hidle : d.seq.job = .idle) :
    rngFill d r = if d.fill.isSome then send d (.status 0xCE40 0 8)
      else if !rfValid r then send d (.status 0xCE40 0 5) else send { d with fill := some r } (.status 0xCE40 0 1) :=
  if_neg (by rw [hidle]; decide)

theorem rngFill_of_running {x : Nat} (hidle : d.seq.job = .idle) (hfill : d.fill = some x) :
    rngFill d r = send d (.status 0xCE40 0 8) :=
  (rngFill_of_idle hidle).trans (if_pos (by rw [hfill, Option.isSome_some]))

/-- With the job idle and no fill running, the record decides. -/
theorem rngFill_of_free (hidle : d.seq.job = .idle) (hfree : d.fill = none) :
    rngFill d r = if !rfValid r then send d (.status 0xCE40 0 5)
      else send { d with fill := some r } (.status 0xCE40 0 1) :=
  (rngFill_of_idle hidle).trans (if_neg (by simp [hfree]))

/-! ### A fill ends (R387, R388) -/

/-- The elements of a fill, one after another, from a device on which no fill runs any more. -/
def fillRun (d : Dev) (r : Nat) : FillRun :=
  (List.range (rfCount r)).foldl (fillElem r)
    { dev := { d with fill := none }, written := 0, stop := none, page := none }

/-- A fill that runs ends with its elements, the two records of how far it came, and its reply. -/
theorem rngFillDone_of_running (hfill : d.fill = some r) :
    rngFillDone d =
      send (setObj (setObj (fillRun d r).dev 0xCE41 0 (fillRun d r).written) 0xCE42 0 ((fillRun d r).stop.getD 0))
        (.done 0xCE40 0 (if (fillRun d r).stop.isSome then 6 else 0)) := by
  simp only [rngFillDone, hfill]
  rfl

theorem rngFillDone_of_free (hfree : d.fill = none) : rngFillDone d = d := by
  simp only [rngFillDone, hfree]

end

/-! ### One element of a fill (R388) -/

/-- The job address of element `i`. -/
def fillAddr (r i : Nat) : Nat := (rfDaddr r + i * rfBytes r) % 2 ^ 48

/-- Element `i` written to its place in the page at device address `a`, with the value its position draws. -/
def fillPut (r i : Nat) (d : Dev) (a : Nat) : Dev :=
  writeThrough d 0 0 (a + fillAddr r i % 65536) (fillBytes (cfg d 0xCE10 0) r i)

section
variable {r i a : Nat} {x : FillRun}

/-- In the page translated last an element needs no translation. -/
theorem fillElem_of_samePage (hgoing : x.stop = none) (hpage : x.page = some (fillAddr r i / 65536, a)) :
    fillElem r x i = { x with dev := fillPut r i x.dev a, written := x.written + 1 } := by
  simp only [fillElem, hgoing, hpage]
  exact if_pos rfl

/-- The first page is translated before its element is written. -/
theorem fillElem_of_usable {d : Dev} (hgoing : x.stop = none) (hpage : x.page = none)
    (husable : fillPage x.dev (fillAddr r i) = (some a, d)) :
    fillElem r x i = { dev := fillPut r i d a, written := x.written + 1, stop := none,
                       page := some (fillAddr r i / 65536, a) } := by
  rw [fillAddr] at husable
  simp only [fillElem, fillPut, fillAddr, hgoing, hpage, husable]

/-- A first page that cannot be used ends the fill before its element. -/
theorem fillElem_of_unusable {d : Dev} (hgoing : x.stop = none) (hpage : x.page = none)
    (hunusable : fillPage x.dev (fillAddr r i) = (none, d)) :
    fillElem r x i = { x with dev := d, stop := some (fillAddr r i / 65536 * 65536) } := by
  rw [fillAddr] at hunusable
  simp only [fillElem, fillAddr, hgoing, hpage, hunusable]

end

/-! ### A probe (R389) -/

section
variable {d : Dev} {v : Nat}

theorem rngProbe_of_reserved (hres : fld v 115 112 ≠ 0) : rngProbe d v = send d (.status 0xCE30 0 5) := if_pos hres

/-- A selector without a reserved bit is kept, and the probe reads as the block and the draw it names. -/
theorem rngProbe_of_select (hres : fld v 115 112 = 0) (hv : v < 2 ^ 128) :
    rngProbe d v = send (setObj (setObj d 0xCE30 0 v) 0xCE31 0 (probeValue d v)) (.status 0xCE30 0 0) := by
  rw [rngProbe, if_neg (not_not.2 hres), Nat.mod_eq_of_lt hv]

end

/-- Settles O27: each clause is the lemma on its command, with the object served or the units acting. That the reply is
PENDING at once and every element is written at the fill's completion is the model's choice (log 50). -/
theorem randomCommands : Obligations.RandomCommands := by
  refine ⟨?taken, ?job, ?busy, ?invalid, ?done, ?free, ?element, ?probe, ?reserved⟩
  case taken =>
    intro s r hs hidle hfree hvalid
    rw [exec_rngFill, onObject_serving hs, rngFill_of_free hidle hfree, hvalid]
    rfl
  case job =>
    intro s r hs hjob
    rw [exec_rngFill, onObject_serving hs, rngFill_of_job hjob]
  case busy =>
    intro s r x hs hidle hfill
    rw [exec_rngFill, onObject_serving hs, rngFill_of_running hidle hfill]
  case invalid =>
    intro s r hs hidle hfree hinvalid
    rw [exec_rngFill, onObject_serving hs, rngFill_of_free hidle hfree, hinvalid]
    rfl
  case done =>
    intro s r hact hfill x
    rw [exec_rngFillDone, onUnit_acting _ _ hact, rngFillDone_of_running hfill]
    rfl
  case free =>
    intro s hact hfree
    rw [exec_rngFillDone, onUnit_acting _ _ hact, rngFillDone_of_free hfree]
  case element =>
    intro r i a x hgoing j
    exact ⟨fun hpage => fillElem_of_samePage hgoing hpage,
      fun hpage husable => fillElem_of_usable hgoing hpage (Prod.ext husable rfl),
      fun hpage hunusable => fillElem_of_unusable hgoing hpage (Prod.ext hunusable rfl)⟩
  case probe =>
    intro s v hs hv hres
    rw [exec_rngProbe, onObject_serving hs, rngProbe_of_select hres hv]
    refine ⟨_, rfl, ?read, ?selector, rfl, rfl⟩
    case read => rw [cfg_send, cfg_setObj_same, probeValue]
    case selector =>
      rw [cfg_send, cfg_setObj_idx _ _ _ _ _ _ (by decide) (by decide) (by decide), cfg_setObj_same]
  case reserved =>
    intro s v hs hres
    rw [exec_rngProbe, onObject_serving hs, rngProbe_of_reserved hres]

end Sys2Proof.Machine

/-! Stopped devices (chapter 26): which commands wait for the units, and what the others leave of a device that has failed or
tripped. -/

namespace Sys2Proof.Machine

/-! ### Commands of the units, and those that act beside them (R686, R692, R698) -/

/-- The commands of the management controller, the monitors, the pins and the JTAG port. All others are the units'. -/
def besideUnits : Instr → Bool
  | .syseridTick .. | .genStoreDone .. | .flashOperationDone .. | .debugUnlock .. | .fabricProbeTimeout .. => true
  | .resetTakeEffect | .watchdogExpiry | .inputSample .. | .sensorSample .. | .thermalTrip | .overvoltageTrip => true
  | .jtagBypass | .jtagIdcode | .jtagSamplePreload .. | .jtagExtest .. | .jtagExtestPulse .. | .jtagExtestTrain .. => true
  | .powerFail | .powerRestore | .pinReset | .resetNRelease | .powerOnReset => true
  | _ => false

/-- What is left once one of the gates that stopped units close has let a command through or not. -/
inductive UnitGated (d : Dev) : Dev → Prop
  | unit (f : Dev → Dev) : UnitGated d (onUnit d f)
  | cluster (f : Dev → Dev) : UnitGated d (onCluster d f)
  | host (f : Dev → Dev) : UnitGated d (onHost d f)
  | object (idx sub : Nat) (f : Dev → Dev) : UnitGated d (onObject d idx sub f)

/-- A closed gate leaves the device as it is. -/
theorem UnitGated.eq_of_stopped {d e : Dev} (h : UnitGated d e) (hstop : unitsStopped d = true) : e = d := by
  cases h with
  | unit f => exact onUnit_stopped d f hstop
  | cluster f => exact onCluster_stopped d f (by rw [clustersStopped, hstop, Bool.true_or])
  | host f => exact onUnit_stopped d _ hstop
  | object idx sub f => exact onObject_stopped d idx sub f hstop

/-- Every command but those beside the units passes one of their gates. -/
theorem exec_unitGated {c : Instr} (hc : besideUnits c = false) (s : State) :
    ∃ e, exec c s = after s e ∧ UnitGated s.dev e := by
  cases c <;> cases hc <;> exact ⟨_, rfl, by constructor⟩

/-- With the units stopped no command of theirs does anything. -/
theorem exec_of_unitsStopped {c : Instr} (hc : besideUnits c = false) {s : State} (hstop : unitsStopped s.dev = true) :
    exec c s = after s s.dev := by
  obtain ⟨e, hexec, hgate⟩ := exec_unitGated hc s
  rw [hexec, hgate.eq_of_stopped hstop]

/-! ### A failed input (R686) -/

/-- What is left once the gate of the management controller or of the monitors has let a command through or not. -/
inductive PowerGated (d : Dev) : Dev → Prop
  | mgmt (f : Dev → Dev) : PowerGated d (onMgmt d f)
  | power (f : Dev → Dev) : PowerGated d (onPower d f)

theorem held_of_failed {d : Dev} (h : d.pw.failed = true) : held d = true := by simp [held, h]

theorem unitsStopped_of_failed {d : Dev} (h : d.pw.failed = true) : unitsStopped d = true := by
  simp [unitsStopped, held_of_failed h]

theorem unitsStopped_of_tripped {d : Dev} (h : d.pw.tripped = true) : unitsStopped d = true := by simp [unitsStopped, h]

theorem PowerGated.eq_of_failed {d e : Dev} (h : PowerGated d e) (hfail : d.pw.failed = true) : e = d := by
  cases h with
  | mgmt f => exact onMgmt_held d f (held_of_failed hfail)
  | power f => exact onPower_failed d f hfail

/-- Beside the units every command but those of reset and power passes one of those two gates. -/
theorem exec_powerGated {c : Instr} (hc : besideUnits c = true) (hr : resets c = false) (s : State) :
    ∃ e, exec c s = after s e ∧ PowerGated s.dev e := by
  cases c <;> cases hc <;> cases hr <;> exact ⟨_, rfl, by constructor⟩

/-- Once the input has failed only a command of reset or power does anything. -/
theorem exec_of_failed {c : Instr} (hr : resets c = false) {s : State} (hfail : s.dev.pw.failed = true) :
    exec c s = after s s.dev := by
  cases hc : besideUnits c with
  | false => exact exec_of_unitsStopped hc (unitsStopped_of_failed hfail)
  | true =>
    obtain ⟨e, hexec, hgate⟩ := exec_powerGated hc hr s
    rw [hexec, hgate.eq_of_failed hfail]

/-- Settles O57: by induction on the number of steps, each of which is of an empty queue or of a command that does nothing
(`exec_of_failed`). -/
theorem powerFailFreezesTheDevice : Obligations.PowerFailFreezesTheDevice := by
  intro n
  induction n with
  | zero => exact fun s _ _ => ⟨s, rfl, rfl, rfl⟩
  | succ n ih =>
    intro s hfail hq
    cases hs : s.pending with
    | nil =>
      obtain ⟨t, hrun, hdev, hpend⟩ := ih s hfail (by simp [hs])
      exact ⟨t, (runs_succ_of_step (step_of_pending_nil hs) n).trans hrun, hdev, by rw [hpend, hs, List.drop_nil, List.drop_nil]⟩
    | cons c rest =>
      rw [hs, List.take_succ_cons] at hq
      have hstep : step s = .next { s with pending := rest } :=
        (step_of_pending_cons hs).trans (exec_of_failed (hq c List.mem_cons_self) hfail)
      obtain ⟨t, hrun, hdev, hpend⟩ :=
        ih { s with pending := rest } hfail (fun c hc => hq c (List.mem_cons_of_mem _ hc))
      exact ⟨t, (runs_succ_of_step hstep n).trans hrun, hdev, hpend⟩

/-! ### A tripped device (R687, R692, R713) -/

/-- Of `d` only what the management controller, the monitors and the JTAG port keep has changed, the device is tripped or
failed as it was, and THERMTRIP_N has not been let go. -/
def BesideUnits (d e : Dev) : Prop :=
  ∃ objs ev uptime ptp hp gn hm rc sec pw out,
    e = { d with objs := objs, ev := ev, uptime := uptime, ptp := ptp, hp := hp, gn := gn, hm := hm, rc := rc, sec := sec,
                 pw := pw, out := d.out ++ out } ∧
      pw.tripped = d.pw.tripped ∧ pw.failed = d.pw.failed ∧ OutMsg.pin 1 1 ∉ out

section
variable {d e f : Dev}

theorem BesideUnits.refl (d : Dev) : BesideUnits d d :=
  ⟨_, _, _, _, _, _, _, _, _, d.pw, [], by rw [List.append_nil], rfl, rfl, List.not_mem_nil⟩

theorem BesideUnits.trans (h : BesideUnits d e) (g : BesideUnits e f) : BesideUnits d f := by
  obtain ⟨_, _, _, _, _, _, _, _, _, _, out, rfl, ht, hf, hpin⟩ := h
  obtain ⟨_, _, _, _, _, _, _, _, _, _, out', rfl, gt, gf, gpin⟩ := g
  exact ⟨_, _, _, _, _, _, _, _, _, _, out ++ out', by rw [← List.append_assoc], gt.trans ht, gf.trans hf,
    by simp [hpin, gpin]⟩

/-- A change that sends nothing. -/
theorem BesideUnits.of_eq {objs ev uptime ptp hp gn hm rc sec} {pw : Pw}
    (h : e = { d with objs := objs, ev := ev, uptime := uptime, ptp := ptp, hp := hp, gn := gn, hm := hm, rc := rc, sec := sec,
                      pw := pw }) (ht : pw.tripped = d.pw.tripped) (hf : pw.failed = d.pw.failed) : BesideUnits d e :=
  ⟨objs, ev, uptime, ptp, hp, gn, hm, rc, sec, pw, [], by rw [h, List.append_nil], ht, hf, List.not_mem_nil⟩

theorem OnlyEvents.besideUnits (h : OnlyEvents d e) : BesideUnits d e := by
  obtain ⟨_, _, rfl⟩ := h
  exact .of_eq rfl rfl rfl

theorem raise_besideUnits (d : Dev) (c a b : Nat) : BesideUnits d (raise d c a b) := (raise_only d c a b).besideUnits

theorem raiseStep_besideUnits (d : Dev) (c a b : Nat) : BesideUnits d (raiseStep d c a b) := (raiseStep_only d c a b).besideUnits

theorem setObj_besideUnits (d : Dev) (i j v : Nat) : BesideUnits d (setObj d i j v) := .of_eq rfl rfl rfl

theorem setPw_besideUnits (d : Dev) {x : Pw} (ht : x.tripped = d.pw.tripped) (hf : x.failed = d.pw.failed) :
    BesideUnits d (setPw d x) := .of_eq rfl ht hf

theorem send_besideUnits (d : Dev) {m : OutMsg} (h : m ≠ .pin 1 1) : BesideUnits d (send d m) :=
  ⟨_, _, _, _, _, _, _, _, _, d.pw, [m], rfl, rfl, rfl, by simpa using h.symm⟩

theorem BesideUnits.ite {p : Prop} [Decidable p] (he : BesideUnits d e) (hf : BesideUnits d f) :
    BesideUnits d (if p then e else f) := by
  split
  · exact he
  · exact hf

theorem onMgmt_besideUnits {g : Dev → Dev} (h : BesideUnits d (g d)) : BesideUnits d (onMgmt d g) := .ite (.refl d) h

theorem onPower_besideUnits {g : Dev → Dev} (h : BesideUnits d (g d)) : BesideUnits d (onPower d g) := .ite (.refl d) h

theorem setRows_besideUnits (idx : Nat) (vs : List Nat) (d : Dev) (r : Nat) : BesideUnits d (setRows d idx r vs) := by
  induction vs generalizing d r with
  | nil => exact .refl d
  | cons v vs ih => exact (setObj_besideUnits d idx r v).trans (ih _ _)

end

/-! What each command beside the units leaves of a tripped device. -/

section
variable (d : Dev)

/-- Only time advances in a tripped device at a tick. -/
theorem syseridTick_of_tripped (h : d.pw.tripped = true) (i : OpInfo) : syseridTick d i = clockTick d := if_pos h

theorem clockTick_besideUnits : BesideUnits d (clockTick d) := .of_eq rfl rfl rfl

/-- The end of a store changes the generations, their slots and the queue of stores, and raises its event. -/
theorem genStoreDone_besideUnits (ok : Bool) : BesideUnits d (genStoreDone d ok) := by
  have next (e : Dev) : BesideUnits e (storeNext e) := by
    unfold storeNext
    split
    · exact .of_eq rfl rfl rfl
    · exact .refl e
  unfold genStoreDone
  split
  · exact .refl d
  · exact BesideUnits.trans (.of_eq rfl rfl rfl) ((next _).trans (raise_besideUnits _ _ _ _))

theorem flashEffect_besideUnits (ok : Bool) (o : FlashOp) : BesideUnits d (flashEffect d ok o).2 := by
  cases o with
  | erase i => cases ok <;> exact .of_eq rfl rfl rfl
  | program i off data => cases ok <;> exact .of_eq rfl rfl rfl
  | verify i => exact (setObj_besideUnits _ _ _ _).trans (raise_besideUnits _ _ _ _)
  | prefer i => cases ok <;> exact .of_eq rfl rfl rfl

theorem flashOperationDone_besideUnits (region : Nat) (ok : Bool) : BesideUnits d (flashOperationDone d region ok) := by
  unfold flashOperationDone
  split
  · exact .refl d
  · exact BesideUnits.trans (.of_eq rfl rfl rfl) ((flashEffect_besideUnits _ ok _).trans (send_besideUnits _ nofun))

theorem debugUnlock_besideUnits (slot : Nat) (ok : Bool) : BesideUnits d (debugUnlock d slot ok) :=
  .ite ((setObj_besideUnits _ _ _ _).trans (raise_besideUnits _ _ _ _)) (.refl d)

theorem wedge_besideUnits (c i h : Nat) : BesideUnits d (wedge d c i h) :=
  .ite (.refl d) (BesideUnits.trans (.of_eq rfl rfl rfl) (raise_besideUnits _ _ _ _))

theorem inputSample_besideUnits (mv ma : Nat) : BesideUnits d (inputSample d mv ma) := by
  unfold inputSample
  extract_lets band x d1 d2 d3
  have hpw : BesideUnits d d1 := setPw_besideUnits d rfl rfl
  have hobj : BesideUnits d1 d2 := (setObj_besideUnits _ _ _ _).trans (setObj_besideUnits _ _ _ _)
  have hset : BesideUnits d d3 := (hpw.trans hobj).trans (setObj_besideUnits _ _ _ _)
  exact .ite (hset.trans (raiseStep_besideUnits _ _ _ _)) hset

theorem hotInterval_besideUnits (ts : List F32) : BesideUnits d (hotInterval d ts) :=
  .ite (.of_eq rfl rfl rfl) (.ite (.of_eq rfl rfl rfl) (.of_eq rfl rfl rfl))

theorem thermalDuty_besideUnits (ts : List F32) : BesideUnits d (thermalDuty d ts) := by
  have hset (x : Pw) (ht : x.tripped = d.pw.tripped) (hf : x.failed = d.pw.failed) : BesideUnits d (setDuty d x) :=
    (setPw_besideUnits d ht hf).trans (setObj_besideUnits _ _ _ _)
  unfold thermalDuty
  extract_lets x c hot cool
  exact .ite (setPw_besideUnits d rfl rfl) (.ite ((hset _ (by rfl) (by rfl)).trans (raiseStep_besideUnits _ _ _ _))
    (.ite (hset _ rfl rfl) (.refl d)))

/-- A tripped device does not go into thermal hold. -/
theorem sensorSample_of_tripped (h : d.pw.tripped = true) (temps : List F32) : BesideUnits d (sensorSample d temps) := by
  unfold sensorSample
  simp only [h, Bool.not_true, Bool.and_false, Bool.false_eq_true, if_false]
  exact (setRows_besideUnits _ _ _ _).trans ((setObj_besideUnits _ _ _ _).trans ((hotInterval_besideUnits _ _).trans (thermalDuty_besideUnits _ _)))

theorem trip_of_tripped (h : d.pw.tripped = true) (c : Nat) : trip d c = d := by simp [trip, h]

theorem jtagTest_besideUnits (ir : JtagIr) (p l : Nat) (hp : p ≠ 1) : BesideUnits d (jtagTest d ir p l) := by
  have hset : BesideUnits d (setPw d { d.pw with ir := ir, lands := l }) := .of_eq rfl rfl rfl
  exact .ite (hset.trans (send_besideUnits _ (fun h => hp (OutMsg.pin.inj h).1))) hset

theorem pinReset_of_tripped (h : d.pw.tripped = true) : BesideUnits d (pinReset d) := by
  simp only [pinReset, h, Bool.or_true, if_true]
  exact .of_eq rfl h.symm rfl

end

/-- A command beside the units, but POWER_FAIL and POWER_ON_RESET, leaves a tripped device tripped. -/
theorem exec_besideUnits {c : Instr} (hc : besideUnits c = true) (hpf : c ≠ .powerFail) (hpor : c ≠ .powerOnReset) {s : State}
    (ht : s.dev.pw.tripped = true) (hf : s.dev.pw.failed = false) : ∃ e, exec c s = after s e ∧ BesideUnits s.dev e := by
  cases c <;> cases hc
  case syseridTick i => exact ⟨_, rfl, onMgmt_besideUnits (syseridTick_of_tripped _ ht i ▸ clockTick_besideUnits _)⟩
  case genStoreDone ok => exact ⟨_, rfl, onMgmt_besideUnits (genStoreDone_besideUnits _ ok)⟩
  case flashOperationDone r ok => exact ⟨_, rfl, onMgmt_besideUnits (flashOperationDone_besideUnits _ r ok)⟩
  case debugUnlock slot ok => exact ⟨_, rfl, onMgmt_besideUnits (debugUnlock_besideUnits _ slot ok)⟩
  case fabricProbeTimeout i h => exact ⟨_, rfl, onMgmt_besideUnits (wedge_besideUnits _ 2 i h)⟩
  case resetTakeEffect => exact ⟨_, rfl, onMgmt_besideUnits (by simpa [resetTakeEffect, ht] using BesideUnits.refl _)⟩
  case watchdogExpiry => exact ⟨_, rfl, onMgmt_besideUnits (by simpa [watchdogExpiry, ht] using BesideUnits.refl _)⟩
  case inputSample mv ma => exact ⟨_, rfl, onPower_besideUnits (inputSample_besideUnits _ mv ma)⟩
  case sensorSample ts => exact ⟨_, rfl, onPower_besideUnits (sensorSample_of_tripped _ ht ts)⟩
  case thermalTrip => exact ⟨_, rfl, onPower_besideUnits (by rw [thermalTrip, trip_of_tripped _ ht]; exact .refl _)⟩
  case overvoltageTrip => exact ⟨_, rfl, onPower_besideUnits (by rw [overvoltageTrip, trip_of_tripped _ ht]; exact .refl _)⟩
  case jtagBypass => exact ⟨_, rfl, onPower_besideUnits (.of_eq rfl rfl rfl)⟩
  case jtagIdcode => exact ⟨_, rfl, onPower_besideUnits ((setPw_besideUnits _ rfl rfl).trans (send_besideUnits _ (by simp)))⟩
  case jtagSamplePreload l k => exact ⟨_, rfl, onPower_besideUnits (.of_eq rfl rfl rfl)⟩
  case jtagExtest l => exact ⟨_, rfl, onPower_besideUnits (jtagTest_besideUnits _ _ 4 l (by decide))⟩
  case jtagExtestPulse l => exact ⟨_, rfl, onPower_besideUnits (jtagTest_besideUnits _ _ 5 l (by decide))⟩
  case jtagExtestTrain l => exact ⟨_, rfl, onPower_besideUnits (jtagTest_besideUnits _ _ 6 l (by decide))⟩
  case powerFail => exact absurd rfl hpf
  case powerRestore => exact ⟨_, rfl, by simpa [powerRestore, hf] using BesideUnits.refl _⟩
  case pinReset => exact ⟨_, rfl, pinReset_of_tripped _ ht⟩
  case resetNRelease => exact ⟨_, rfl, .of_eq rfl rfl rfl⟩
  case powerOnReset => exact absurd rfl hpor

/-- A step of a tripped device, but of POWER_FAIL and POWER_ON_RESET, leaves what stopped with the units as it was. -/
theorem step_besideUnits {s t : State} (ht : s.dev.pw.tripped = true) (hf : s.dev.pw.failed = false)
    (hpf : s.pending.head? ≠ some .powerFail) (hpor : s.pending.head? ≠ some .powerOnReset) (h : step s = .next t) :
    BesideUnits s.dev t.dev := by
  cases hs : s.pending with
  | nil =>
    obtain rfl : s = t := Host.Outcome.next.inj ((step_of_pending_nil hs).symm.trans h)
    exact .refl _
  | cons c rest =>
    rw [hs, List.head?_cons] at hpf hpor
    rw [step_of_pending_cons hs] at h
    have : ∃ e, exec c { s with pending := rest } = after { s with pending := rest } e ∧ BesideUnits s.dev e := by
      cases hc : besideUnits c with
      | false => exact ⟨_, exec_of_unitsStopped hc (unitsStopped_of_tripped ht), .refl _⟩
      | true => exact exec_besideUnits hc (fun e => hpf (e ▸ rfl)) (fun e => hpor (e ▸ rfl)) (s := { s with pending := rest }) ht hf
    obtain ⟨e, hexec, hkept⟩ := this
    obtain rfl := Host.Outcome.next.inj (hexec.symm.trans h)
    exact hkept

theorem runs_besideUnits (n : Nat) {s t : State} (ht : s.dev.pw.tripped = true) (hf : s.dev.pw.failed = false)
    (hpf : .powerFail ∉ s.pending.take n) (hpor : .powerOnReset ∉ s.pending.take n) (h : runs n s = .next t) :
    BesideUnits s.dev t.dev := by
  induction n generalizing s with
  | zero =>
    obtain rfl : s = t := Host.Outcome.next.inj h
    exact .refl _
  | succ n ih =>
    obtain ⟨u, hstep, hu⟩ := step_eq_next s
    have hhead {c : Instr} (hc : c ∉ s.pending.take (n + 1)) : s.pending.head? ≠ some c ∧ c ∉ u.pending.take n := by
      rw [hu]
      cases hs : s.pending with
      | nil => simp
      | cons x xs => rw [hs] at hc; simpa [eq_comm] using hc
    have hone := step_besideUnits ht hf (hhead hpf).1 (hhead hpor).1 hstep
    rw [runs_succ_of_step hstep] at h
    obtain ⟨htu, hfu⟩ : u.dev.pw.tripped = true ∧ u.dev.pw.failed = false := by
      obtain ⟨_, _, _, _, _, _, _, _, _, _, _, he, ht', hf', -⟩ := hone
      exact he ▸ ⟨ht'.trans ht, hf'.trans hf⟩
    exact hone.trans (ih htu hfu (hhead hpf).2 (hhead hpor).2 h)

/-- Settles O58: each step keeps what stopped with the units (`step_besideUnits`), and so does a run (`runs_besideUnits`). -/
theorem trippedDeviceStaysTripped : Obligations.TrippedDeviceStaysTripped := by
  refine ⟨fun s t ht hf hpf hpor h => ?_, fun n s t ht hf hpf hpor h => ?_⟩
  · obtain ⟨_, _, _, _, _, _, _, _, _, _, _, he, ht', hf', hpin⟩ := step_besideUnits ht hf hpf hpor h
    simp [he, ht', hf', ht, hf, hpin]
  · obtain ⟨_, _, _, _, _, _, _, _, _, _, _, he, ht', hf', -⟩ := runs_besideUnits n ht hf hpf hpor h
    simp [he, ht', hf', ht, hf]

end Sys2Proof.Machine

/-! Power, clocks, reset, start-up and JTAG (chapters 26 and 27). -/

namespace Sys2Proof.Machine

/-! ### After a power-on reset (R698, R701) -/

/-- In start-up step 1 the job's command object is not served yet (R702). -/
theorem jobStart_of_reset : exec .jobStart State.reset = after State.reset (send State.reset.dev (.status 0x6022 0 6)) := by
  have hserved : servedNow State.reset.dev 0x6022 0 1 = false := by rfl
  rw [exec_jobStart, onObject, objectServed, hserved]
  rfl

/-- PwDuty holds its default, full duty (R689). -/
theorem duty_of_reset : readObj State.reset.dev 0xE014 0 = 16 := by decide +kernel

/-- Settles O55: the values are read off `State.reset`, and `jobStart_of_reset` says what START is answered. -/
theorem powerOnResetState : Obligations.PowerOnResetState :=
  ⟨rfl, rfl, rfl, rfl, duty_of_reset, rfl, rfl, rfl, rfl, fun _ => rfl, fun _ => rfl, fun _ => rfl, rfl, rfl, rfl, reset_mem_wf,
    jobStart_of_reset⟩

/-! ### JTAG (R715 to R717) -/

/-- IDCODE below its version nibble is 0x9A30D35 (R716). -/
theorem fld_idcode (n : Nat) (hn : n < 16) : let v := n * 2 ^ 28 + 0x9A30D35
    fld v 27 12 = 0x9A30 ∧ fld v 11 1 = 0x69A ∧ bitAt v 0 = true ∧ v < 2 ^ 32 ∧ fld v 31 28 = n := by
  interval_cases n <;> decide

theorem idNibble_lt (v : Nat) : idNibble v < 16 := by
  unfold idNibble
  split
  · decide
  · split
    · decide
    · exact Nat.mod_lt _ (by decide)

/-- Settles O52: IDCODE is a nibble above a constant (`fld_idcode`), and `idNibble` gives the nibble by the stepping. -/
theorem jtagIdcodeRegister : Obligations.JtagIdcodeRegister := by
  intro s hf
  obtain ⟨hpart, hmaker, hone, hlt, hver⟩ := fld_idcode _ (idNibble_lt (cfg s.dev 0x1004 0))
  refine ⟨idcode s.dev, ?_, hpart, hmaker, hone, hlt, fun ha => ?_, fun hb => ?_⟩
  · rw [exec_jtagIdcode, onPower_acting _ _ hf]
    rfl
  · rw [idcode, hver, ha]
    exact ⟨rfl, rfl⟩
  · rw [idcode, hver, hb]
    rfl

/-- An external test drives the output cells exactly while RESET_N is low (R717). -/
theorem jtagTest_of_low {d : Dev} (h : d.pw.resetLow = true) {ir : JtagIr} (hir : ir = .extest ∨ ir = .pulse ∨ ir = .train)
    (p l : Nat) : jtagTest d ir p l = send (setPw d { d.pw with ir := ir, lands := l }) (.pin p d.pw.cells) := by
  rcases hir with rfl | rfl | rfl <;> simp [jtagTest, landsDriven, h]

theorem jtagTest_of_high {d : Dev} (h : d.pw.resetLow = false) (ir : JtagIr) (p l : Nat) :
    jtagTest d ir p l = setPw d { d.pw with ir := ir, lands := l } := by
  simp [jtagTest, landsDriven, h]

/-- Settles O53: each clause is the meaning of its command, under the gate of the input power. -/
theorem jtagInstructions : Obligations.JtagInstructions := by
  refine ⟨?bypass, ?sample, ?low, ?high, ?failed⟩
  case bypass => exact fun s hf => congrArg (after s) (onPower_acting _ _ hf)
  case sample => exact fun s l c hf => congrArg (after s) (onPower_acting _ _ hf)
  case low =>
    intro s l hf hlow
    rw [exec_jtagExtest, exec_jtagExtestPulse, exec_jtagExtestTrain, onPower_acting _ _ hf, onPower_acting _ _ hf,
      onPower_acting _ _ hf, jtagExtest, jtagExtestPulse, jtagExtestTrain, jtagTest_of_low hlow (.inl rfl),
      jtagTest_of_low hlow (.inr (.inl rfl)), jtagTest_of_low hlow (.inr (.inr rfl))]
    exact ⟨rfl, rfl, rfl⟩
  case high =>
    intro s l hf hhigh
    rw [exec_jtagExtest, exec_jtagExtestPulse, exec_jtagExtestTrain, onPower_acting _ _ hf, onPower_acting _ _ hf,
      onPower_acting _ _ hf, jtagExtest, jtagExtestPulse, jtagExtestTrain, jtagTest_of_high hhigh, jtagTest_of_high hhigh,
      jtagTest_of_high hhigh]
    exact ⟨rfl, rfl, rfl⟩
  case failed =>
    intro s l k hf c hc
    simp only [List.mem_cons, List.not_mem_nil, or_false] at hc
    rcases hc with rfl | rfl | rfl | rfl | rfl | rfl <;> exact exec_of_failed rfl hf

/-! ### Input power and the trips (R685 to R687, R692, R713) -/

theorem inputSample_eq (d : Dev) (mv ma : Nat) :
    let smp := (mv * ma :: d.pw.samples).take 1000
    let band := if outOfBand mv then d.pw.bandUs + 1 else 0
    let e := setObj (setObj (setObj (setPw d { d.pw with samples := smp, bandUs := band })
      0xE010 0 (f32Ratio mv 1000)) 0xE011 0 (f32Ratio ma 1000)) 0xE012 0 (f32Ratio (sumN smp / smp.length) 1000000)
    inputSample d mv ma = if 100 ≤ band then raiseStep e 0x4E08 0 mv else e := rfl

theorem trip_of_on {d : Dev} (hf : d.pw.failed = false) (ht : d.pw.tripped = false) (c : Nat) :
    trip d c = raise (setObj (setObj (send (setPw d { d.pw with tripped := true }) (.pin 1 0)) 0xE024 0 c) 0xE000 0 5) 0xCE07 c 0 := by
  simp [trip, hf, ht]

/-- Settles O48: each clause is the meaning of its command, under the gate of the input power. -/
theorem inputPowerAndTrips : Obligations.InputPowerAndTrips := by
  refine ⟨?sample, ?fail, ?failTripped, ?thermal, ?overvoltage, ?noSample, ?noTrip⟩
  case sample =>
    intro s mv ma hf
    rw [exec_inputSample, onPower_acting _ _ hf, inputSample_eq]
  case fail =>
    intro s ht
    rw [exec_powerFail, powerFail, ht]
    rfl
  case failTripped =>
    intro s ht
    rw [exec_powerFail, powerFail, ht]
    rfl
  case thermal =>
    intro s hf ht
    rw [exec_thermalTrip, onPower_acting _ _ hf, thermalTrip, trip_of_on hf ht]
  case overvoltage =>
    intro s hf ht
    rw [exec_overvoltageTrip, onPower_acting _ _ hf, overvoltageTrip, trip_of_on hf ht]
  case noSample => exact fun s mv ma hf => exec_of_failed rfl hf
  case noTrip =>
    intro s h
    cases hf : s.dev.pw.failed with
    | true => exact ⟨exec_of_failed rfl hf, exec_of_failed rfl hf⟩
    | false =>
      have ht : s.dev.pw.tripped = true := h.resolve_left (by simp [hf])
      rw [exec_thermalTrip, exec_overvoltageTrip, onPower_acting _ _ hf, onPower_acting _ _ hf, thermalTrip, overvoltageTrip,
        trip_of_tripped _ ht, trip_of_tripped _ ht]
      exact ⟨rfl, rfl⟩

/-! ### Resets (R698 to R700) -/

/-- A selection by keys alone keeps what it selects and drops the rest. -/
theorem tfind_filter {α : Type} (p : Nat → Bool) (t : Tab α) (k : Nat) :
    tfind (t.filter (fun e => p e.1)) k = if p k then tfind t k else none := by
  induction t with
  | nil => simp [tfind]
  | cons e t ih =>
    obtain ⟨j, v⟩ := e
    by_cases hj : j = k
    · subst hj
      cases hp : p j with
      | true => simp [hp, tfind]
      | false => simp only [List.filter_cons, hp, Bool.false_eq_true, if_false, ih]
    · cases hp : p j with
      | true => simp only [List.filter_cons, hp, if_true, tfind, if_neg hj, ih]
      | false => simp only [List.filter_cons, hp, Bool.false_eq_true, if_false, tfind, if_neg hj, ih]

theorem okey_div {i s : Nat} (hs : s < 256) : okey i s / 256 = i := by unfold okey; omega

/-- The objects a release into start-up step 1 gives a value. -/
def startIdxs : List Nat := [0xE000, 0xE001, 0xE003, 0xE030, 0xD051]

theorem cfg_startObjs_ne (d : Dev) (c i s : Nat) (hs : s < 256) (h : startIdxs.contains i = false) :
    cfg (startObjs d c) i s = cfg d i s := by
  simp only [startIdxs, List.contains_cons, List.contains_nil, Bool.or_false, Bool.or_eq_false_iff, beq_eq_false_iff_ne, ne_eq] at h
  obtain ⟨h0, h1, h3, h30, h51⟩ := h
  rw [startObjs, cfg_setObj_idx _ _ _ _ _ _ (by decide) hs (Ne.symm h30), cfg_setObj_idx _ _ _ _ _ _ (by decide) hs (Ne.symm h3),
    cfg_setObj_idx _ _ _ _ _ _ (by decide) hs (Ne.symm h1), cfg_setObj_idx _ _ _ _ _ _ (by decide) hs (Ne.symm h0),
    cfg_setObj_idx _ _ _ _ _ _ (by decide) hs (Ne.symm h51)]
  rfl

theorem startIdxs_of_kept {i : Nat} (h : keptIdx i = true) : startIdxs.contains i = false := by
  have : ∀ k ∈ [0x1002, 0x1003, 0x1005, 0xB001, 0xD001, 0xD002, 0xD020, 0xD030, 0xD031, 0x8112, 0x8113],
    startIdxs.contains k = false := by decide
  exact this i (List.contains_iff_mem.1 h)

/-- Of the objects' values a reset keeps those fused or found at manufacture. -/
theorem cfg_filter_kept (d e : Dev) (i s : Nat) (hs : s < 256) (h : e.objs = d.objs.filter (fun e => keptIdx (e.1 / 256))) :
    cfg e i s = if keptIdx i then cfg d i s else objDefault i s := by
  rw [cfg, h, tget, tfind_filter (fun k => keptIdx (k / 256)), okey_div hs]
  split <;> rfl

/-- A reset with `cause` leaves what R699 says. -/
theorem deviceReset_resetTo (d : Dev) (cause : Nat) : ResetTo cause d (deviceReset d cause) := by
  have hobj (i s : Nat) (hs : s < 256) (hi : startIdxs.contains i = false) :
      cfg (deviceReset d cause) i s = if keptIdx i then cfg d i s else objDefault i s :=
    (cfg_startObjs_ne _ cause i s hs hi).trans (cfg_filter_kept d _ i s hs rfl)
  refine ⟨?state, ?step, ?cause, ?kept, ?default, rfl, rfl, rfl, rfl, rfl, rfl, rfl, rfl, rfl, rfl, rfl, rfl, rfl, rfl, rfl, rfl,
    rfl, rfl, rfl, rfl, rfl, rfl, rfl, rfl, rfl, rfl, rfl, rfl, rfl, ?slots, rfl, rfl, rfl, rfl⟩
  case state =>
    rw [deviceReset, startObjs, cfg_setObj_idx _ _ _ _ _ _ (by decide) (by decide) (by decide),
      cfg_setObj_idx _ _ _ _ _ _ (by decide) (by decide) (by decide), cfg_setObj_idx _ _ _ _ _ _ (by decide) (by decide) (by decide),
      cfg_setObj_same]
  case step =>
    rw [deviceReset, startObjs, cfg_setObj_idx _ _ _ _ _ _ (by decide) (by decide) (by decide),
      cfg_setObj_idx _ _ _ _ _ _ (by decide) (by decide) (by decide), cfg_setObj_same]
  case cause => rw [deviceReset, startObjs, cfg_setObj_idx _ _ _ _ _ _ (by decide) (by decide) (by decide), cfg_setObj_same]
  case kept => exact fun i s hs hk => by rw [hobj i s hs (startIdxs_of_kept hk), if_pos hk]
  case default => exact fun i s hs hk hi => by rw [hobj i s hs hi, hk]; rfl
  case slots =>
    intro h
    show (slotsKept d).slot0 = d.gn.slot0 ∧ (slotsKept d).slot1 = d.gn.slot1
    rw [slotsKept, h]
    exact ⟨rfl, rfl⟩

/-- A device that is held, or whose units a trip has stopped, makes no reset of its own. -/
theorem onMgmt_eq_self {d : Dev} {f : Dev → Dev} (hstop : unitsStopped d = true) (h : d.pw.tripped = true → f d = d) :
    onMgmt d f = d := by
  cases hheld : held d with
  | true => exact onMgmt_held d f hheld
  | false =>
    rw [unitsStopped, hheld, Bool.false_or] at hstop
    rw [onMgmt_acting d f hheld, h hstop]

/-- Settles O46: every reset is `deviceReset` (`deviceReset_resetTo`), where its condition holds. What the fused objects and
the model's own fields keep is the model's choice (log 30). -/
theorem everyResetStartsOver : Obligations.EveryResetStartsOver := by
  refine ⟨?powerOn, ?restore, ?pin, ?command, ?watchdog, ?noFail, ?noCommand, ?noWatchdog⟩
  case powerOn => exact fun s => ⟨_, rfl, deviceReset_resetTo _ _⟩
  case restore =>
    intro s hf
    exact ⟨deviceReset s.dev 5, by rw [exec_powerRestore, powerRestore, if_pos hf], deviceReset_resetTo _ _⟩
  case pin =>
    intro s hf ht
    refine ⟨deviceReset (setPw s.dev { s.dev.pw with resetLow := true }) 2, ?_, deviceReset_resetTo _ _⟩
    rw [exec_pinReset, pinReset, hf, ht]
    rfl
  case command =>
    intro s hact hdue
    obtain ⟨-, -, ht⟩ := (acting_iff s).1 hact
    refine ⟨deviceReset s.dev 3, ?_, deviceReset_resetTo _ _⟩
    rw [exec_resetTakeEffect, onMgmt_acting _ _ hact.held, resetTakeEffect, hdue, ht]
    rfl
  case watchdog =>
    intro s hact hms
    obtain ⟨-, -, ht⟩ := (acting_iff s).1 hact
    exact ⟨deviceReset s.dev 4, by rw [exec_watchdogExpiry, onMgmt_acting _ _ hact.held, watchdogExpiry, if_pos ⟨hms, ht⟩],
      deviceReset_resetTo _ _⟩
  case noFail =>
    intro s hf
    rw [exec_powerRestore, powerRestore, hf]
    rfl
  case noCommand =>
    intro s h
    have hidle (hdue : s.dev.pw.resetDue = false ∨ s.dev.pw.tripped = true) : resetTakeEffect s.dev = s.dev := by
      rcases hdue with h | h <;> simp [resetTakeEffect, h]
    rcases h with hstop | hdue
    · rw [exec_resetTakeEffect, onMgmt_eq_self hstop (fun ht => hidle (.inr ht))]
    · rw [exec_resetTakeEffect, onMgmt, hidle (.inl hdue), ite_self]
  case noWatchdog =>
    intro s h
    have hidle (hms : cfg s.dev 0xE032 0 = 0 ∨ s.dev.pw.tripped = true) : watchdogExpiry s.dev = s.dev := by
      rcases hms with h | h <;> simp [watchdogExpiry, h]
    rcases h with hstop | hms
    · rw [exec_watchdogExpiry, onMgmt_eq_self hstop (fun ht => hidle (.inr ht))]
    · rw [exec_watchdogExpiry, onMgmt, hidle (.inl hms), ite_self]

/-! ### Power duty (R689) -/

/-- The duties are those of `x`, PwDuty says which governs, and memory and the sequencer are those of `d`. -/
def DutyIs (d : Dev) (x : Pw) (e : Dev) : Prop :=
  e.pw = x ∧ cfg e 0xE014 0 = governing x ∧ e.mem = d.mem ∧ e.seq = d.seq

section
variable {d e : Dev} {x : Pw}

theorem dutyIs_setDuty (hm : e.mem = d.mem) (hs : e.seq = d.seq) : DutyIs d x (setDuty e x) :=
  ⟨rfl, cfg_setObj_same _ _ _ _, hm, hs⟩

theorem DutyIs.raiseStep (h : DutyIs d x e) (c a b : Nat) : DutyIs d x (raiseStep e c a b) := by
  obtain ⟨hpw, hduty, hmem, hseq⟩ := h
  exact ⟨(raiseStep_pw _ _ _ _).trans hpw, (raiseStep_cfg _ _ _ _ _ _ (by decide)).trans hduty,
    (raiseStep_mem _ _ _ _).trans hmem, (raiseStep_seq _ _ _ _).trans hseq⟩

theorem DutyIs.ite {p : Prop} [Decidable p] {f : Dev} (he : DutyIs d x e) (hf : DutyIs d x f) : DutyIs d x (if p then e else f) := by
  split
  · exact he
  · exact hf

end

section
variable (d : Dev)

/-- The count of time below full duty. -/
def dutyCounted : Dev := if governing d.pw < 16 then bump d 0xE015 0 100 else d

theorem dutyCounted_frame : (dutyCounted d).pw = d.pw ∧ (dutyCounted d).mem = d.mem ∧ (dutyCounted d).seq = d.seq := by
  unfold dutyCounted
  split <;> exact ⟨rfl, rfl, rfl⟩

theorem dutyAdjust_above (h : aboveCap d = true) : ∃ n, DutyIs d { d.pw with duty := max 4 (d.pw.duty - 1), floorTicks := n } (dutyAdjust d) := by
  unfold dutyAdjust
  extract_lets pw d0 x low n d1 d2
  obtain ⟨hpw, hmem, hseq⟩ : x = d.pw ∧ d0.mem = d.mem ∧ d0.seq = d.seq := dutyCounted_frame d
  rw [if_pos h]
  have hset : DutyIs d { d.pw with duty := max 4 (d.pw.duty - 1), floorTicks := n } d1 := hpw ▸ dutyIs_setDuty hmem hseq
  have hlow : DutyIs d _ d2 := hset.ite (hset.raiseStep _ _ _)
  exact ⟨n, (hlow.raiseStep _ _ _).ite hlow⟩

theorem dutyAdjust_not_above (h : aboveCap d = false) :
    DutyIs d { d.pw with duty := if belowCap d then min 16 (d.pw.duty + 1) else d.pw.duty, floorTicks := 0 } (dutyAdjust d) := by
  obtain ⟨hpw, hmem, hseq⟩ := dutyCounted_frame d
  have heq : dutyAdjust d = setDuty (dutyCounted d) { (dutyCounted d).pw with
      duty := if belowCap d then min 16 ((dutyCounted d).pw.duty + 1) else (dutyCounted d).pw.duty, floorTicks := 0 } :=
    if_neg (by simp [h])
  rw [heq, hpw]
  exact dutyIs_setDuty hmem hseq

end

/-! ### Sensors, thermal duty and thermal hold (R690, R691) -/

/-- What reading the sensors starts its maximum from: the highest reading so far, or else the first sensor's. -/
def topReading (d : Dev) (ts : List F32) : F32 :=
  match tfind d.objs (okey 0xE025 0) with
  | some v => BitVec.ofNat 32 v
  | none => ts.headD f32Zero

/-- The device with the sensors' readings and the highest of them. -/
def sensorsRead (d : Dev) (ts : List F32) : Dev :=
  setObj (setRows d 0xE020 1 (ts.map BitVec.toNat)) 0xE025 0 (ts.foldl f32AmaxFold (topReading d ts)).toNat

/-- A sample's readings and duty, before a thermal hold: the 18 die sensors count. -/
def sensorsTaken (d : Dev) (temps : List F32) : Dev :=
  thermalDuty (hotInterval (sensorsRead d (temps.take 18)) (temps.take 18)) (temps.take 18)

/-- A sensor has reached the shutdown threshold of a device that has not tripped. -/
def overHot (d : Dev) (temps : List F32) : Bool := (temps.take 18).any (fun t => atLeastC t (cfg d 0xE022 0)) && !d.pw.tripped

theorem sensorSample_eq (d : Dev) (temps : List F32) :
    sensorSample d temps = if overHot d temps then thermalHold (sensorsTaken d temps) else sensorsTaken d temps := rfl

theorem topReading_take (d : Dev) (ts : List F32) : topReading d (ts.take 18) = topReading d ts := by
  unfold topReading
  cases tfind d.objs (okey 0xE025 0) with
  | some v => rfl
  | none => cases ts <;> rfl

/-- Rows written one after another: each holds its value, and every other object is left. -/
theorem cfg_setRows (idx : Nat) (vs : List Nat) (d : Dev) (r i s : Nat) (hr : r + vs.length ≤ 256) (hs : s < 256) :
    cfg (setRows d idx r vs) i s = if i = idx ∧ r ≤ s ∧ s < r + vs.length then vs.getD (s - r) 0 else cfg d i s := by
  induction vs generalizing d r with
  | nil => simp only [setRows, List.length_nil]; rw [if_neg (by omega)]
  | cons v vs ih =>
    rw [List.length_cons] at hr
    rw [setRows, ih _ _ (by omega)]
    by_cases hrow : i = idx ∧ s = r
    · obtain ⟨rfl, rfl⟩ := hrow
      rw [if_neg (by omega), cfg_setObj_same, if_pos (by simp), Nat.sub_self, List.getD_cons_zero]
    · rw [cfg_setObj_ne _ _ _ _ _ _ (fun h => hrow (by have := (okey_inj (by omega) hs).1 h; exact ⟨this.1.symm, this.2.symm⟩))]
      by_cases hin : i = idx ∧ r + 1 ≤ s ∧ s < r + 1 + vs.length
      · obtain ⟨k, rfl⟩ : ∃ k, s = r + 1 + k := ⟨s - (r + 1), by omega⟩
        rw [if_pos hin, if_pos (by simp; omega), Nat.add_sub_cancel_left, show r + 1 + k - r = k + 1 by omega, List.getD_cons_succ]
      · rw [if_neg hin, if_neg (by rw [List.length_cons]; omega)]

theorem setRows_frame (idx : Nat) (vs : List Nat) (d : Dev) (r : Nat) :
    (setRows d idx r vs).mem = d.mem ∧ (setRows d idx r vs).seq = d.seq ∧ (setRows d idx r vs).pw = d.pw := by
  induction vs generalizing d r with
  | nil => exact ⟨rfl, rfl, rfl⟩
  | cons v vs ih => exact ih _ _

/-- Of `d` at most the duties, the sensors' ticks and PwDuty have changed, and an event may have been raised; the power duty is
as it was, and the thermal duty has not left 4 to 16. -/
def SensorStep (d e : Dev) : Prop :=
  (∀ i s, s < 256 → i ≠ 0xE014 → i ≠ 0x1124 → cfg e i s = cfg d i s) ∧ e.mem = d.mem ∧ e.seq = d.seq ∧
    e.pw.duty = d.pw.duty ∧ (4 ≤ d.pw.thermDuty ∧ d.pw.thermDuty ≤ 16 → 4 ≤ e.pw.thermDuty ∧ e.pw.thermDuty ≤ 16)

section
variable {d e f : Dev}

theorem SensorStep.trans (h : SensorStep d e) (g : SensorStep e f) : SensorStep d f := by
  obtain ⟨hc, hm, hs, hd, ht⟩ := h
  obtain ⟨gc, gm, gs, gd, gt⟩ := g
  exact ⟨fun i s h1 h2 h3 => (gc i s h1 h2 h3).trans (hc i s h1 h2 h3), gm.trans hm, gs.trans hs, gd.trans hd, gt ∘ ht⟩

theorem setPw_sensorStep {x : Pw} (hd : x.duty = d.pw.duty) (ht : x.thermDuty = d.pw.thermDuty) : SensorStep d (setPw d x) :=
  ⟨fun _ _ _ _ _ => rfl, rfl, rfl, hd, fun h => by rwa [setPw_pw, ht]⟩

theorem setDuty_sensorStep {x : Pw} (hd : x.duty = d.pw.duty)
    (ht : 4 ≤ d.pw.thermDuty ∧ d.pw.thermDuty ≤ 16 → 4 ≤ x.thermDuty ∧ x.thermDuty ≤ 16) : SensorStep d (setDuty d x) :=
  ⟨fun _ _ hs hi _ => cfg_setObj_idx _ _ _ _ _ _ (by decide) hs (Ne.symm hi), rfl, rfl, hd, ht⟩

theorem raiseStep_sensorStep (c a b : Nat) : SensorStep d (raiseStep d c a b) :=
  ⟨fun _ _ hs _ hi => raiseStep_cfg _ _ _ _ _ _ (fun h => hi ((okey_inj (by decide) hs).1 h).1.symm), raiseStep_mem _ _ _ _,
    raiseStep_seq _ _ _ _, by rw [raiseStep_pw], fun h => by rwa [raiseStep_pw]⟩

end

section
variable (d : Dev) (ts : List F32)

theorem hotInterval_sensorStep : SensorStep d (hotInterval d ts) := by
  unfold hotInterval
  extract_lets hot x d1
  split
  · exact setPw_sensorStep rfl rfl
  · split
    · exact ⟨fun _ _ _ _ _ => rfl, rfl, rfl, rfl, id⟩
    · exact setPw_sensorStep rfl rfl

theorem thermalDuty_sensorStep : SensorStep d (thermalDuty d ts) := by
  unfold thermalDuty
  extract_lets x c hot cool
  split
  · exact setPw_sensorStep rfl rfl
  · split
    next _ hlower =>
      simp only [Bool.and_eq_true, decide_eq_true_eq] at hlower
      have hset : SensorStep d (setDuty d { x with thermDuty := x.thermDuty - 1, thermTick := 0 }) :=
        setDuty_sensorStep rfl (fun h => ⟨Nat.le_sub_one_of_lt hlower.2, (Nat.sub_le _ _).trans h.2⟩)
      exact hset.trans (raiseStep_sensorStep _ _ _)
    next _ _ =>
      split
      next _ hraise =>
        simp only [Bool.and_eq_true, decide_eq_true_eq] at hraise
        exact setDuty_sensorStep rfl (fun h => ⟨h.1.trans (Nat.le_succ _), hraise.2⟩)
      next _ _ => exact ⟨fun _ _ _ _ _ => rfl, rfl, rfl, rfl, id⟩

end

/-! ### Stops of every context -/

section
variable {d : Dev}

theorem unitFault_objs (x c : Nat) : (unitFault d x c).objs = d.objs := by
  unfold unitFault
  simp only
  split <;> rfl

theorem foldl_unitFault_objs (cs : List Nat) (d : Dev) (code : Nat) :
    (cs.foldl (fun x c => unitFault x c code) d).objs = d.objs := by
  induction cs generalizing d with
  | nil => rfl
  | cons k cs ih => exact (ih _).trans (unitFault_objs k code)

/-- Stopping the contexts of a list stops each of them, and brings none back. -/
theorem ctxLive_foldl_unitFault {c : Nat} (cs : List Nat) (d : Dev) (code : Nat) (hc : c < 64)
    (h : c ∈ cs ∨ ctxLive (ctxAt d c) = false) : ctxLive (ctxAt (cs.foldl (fun x c => unitFault x c code) d) c) = false := by
  induction cs generalizing d with
  | nil => exact h.resolve_left List.not_mem_nil
  | cons k cs ih =>
    refine ih _ ?_
    by_cases hk : k = c
    · exact .inr (hk ▸ ctxLive_unitFault_same (hk ▸ hc) code)
    · refine h.imp (fun h => (List.mem_cons.1 h).resolve_left (Ne.symm hk)) (fun h => ctxLive_unitFault_of_dead h k code)

/-- An enabled context is enabled wherever the context rows read the same. -/
theorem enabledCtxs_congr {e : Dev} (h : ∀ c, c < 64 → cfg e 0x6010 (c + 1) = cfg d 0x6010 (c + 1)) : enabledCtxs e = enabledCtxs d := by
  refine List.filter_congr (fun c hc => ?_)
  rw [ctxEn, ctxEn, ctxRow, ctxRow, h c (List.mem_range.1 hc)]

theorem cfg_haltAll (i s : Nat) : cfg (haltAll d) i s = cfg d i s := cfg_congr (foldl_unitFault_objs _ d 0) i s

theorem haltAll_pw : (haltAll d).pw = d.pw := by
  obtain ⟨_, _, _, _, _, hfaults⟩ := foldl_faults _ (fun d x => unitFault_faults d x 0) (enabledCtxs d) d
  exact (congrArg Dev.pw hfaults :)

/-- Thermal hold changes of the objects PwState alone. -/
theorem cfg_thermalHold_ne {i s : Nat} (hs : s < 256) (hi : i ≠ 0xE000) (hl : i ≠ 0x1124) : cfg (thermalHold d) i s = cfg d i s := by
  unfold thermalHold
  split
  · rfl
  · rw [cfg_raise_idx _ _ _ _ _ _ hs hl, cfg_setObj_idx _ _ _ _ _ _ (by decide) hs (Ne.symm hi), cfg_haltAll]

theorem cfg_thermalHold_state : cfg (thermalHold d) 0xE000 0 = 4 := by
  unfold thermalHold
  split
  · assumption
  · rw [cfg_raise_idx _ _ _ _ _ _ (by decide) (by decide), cfg_setObj_same]

theorem thermalHold_frame : (thermalHold d).mem = d.mem ∧ (thermalHold d).pw = d.pw := by
  unfold thermalHold
  split
  · exact ⟨rfl, rfl⟩
  · exact ⟨(raise_mem _ _ _ _).trans (haltAll_spec d).2.2.1, (raise_pw _ _ _ _).trans haltAll_pw⟩

/-- Entering thermal hold is a HALT with its event (R691). -/
theorem thermalHold_of_entered (h : cfg d 0xE000 0 ≠ 4) : Logged (thermalHold d) 0x8E06 0 0 ∧ (thermalHold d).seq.job = .halted ∧
    ∀ c ∈ enabledCtxs d, ctxLive (ctxAt (thermalHold d) c) = false := by
  obtain ⟨hjob, -, -, hdead⟩ := haltAll_spec d
  rw [thermalHold, if_neg h]
  exact ⟨raise_logged _ _ _ _, by rwa [raise_seq, setObj_seq], fun c hc => by rw [ctxAt_raise, ctxAt_setObj, hdead c hc]⟩

end

theorem sensorsTaken_spec (d : Dev) (ts : List F32) :
    (∀ i, i < 18 → i < ts.length → cfg (sensorsTaken d ts) 0xE020 (i + 1) = (ts.getD i 0).toNat) ∧
      cfg (sensorsTaken d ts) 0xE025 0 = ((ts.take 18).foldl f32AmaxFold (topReading d ts)).toNat ∧
      (∀ i s, s < 256 → i ≠ 0xE014 → i ≠ 0x1124 → i ≠ 0xE020 → i ≠ 0xE025 → cfg (sensorsTaken d ts) i s = cfg d i s) ∧
      (sensorsTaken d ts).mem = d.mem ∧ (sensorsTaken d ts).seq = d.seq ∧ (sensorsTaken d ts).pw.duty = d.pw.duty ∧
      (4 ≤ d.pw.thermDuty ∧ d.pw.thermDuty ≤ 16 →
        4 ≤ (sensorsTaken d ts).pw.thermDuty ∧ (sensorsTaken d ts).pw.thermDuty ≤ 16) := by
  have hlen : (ts.take 18).length = min 18 ts.length := List.length_take
  obtain ⟨hmem, hseq, hpw⟩ := setRows_frame 0xE020 ((ts.take 18).map BitVec.toNat) d 1
  obtain ⟨gcfg, gmem, gseq, gduty, gtherm⟩ :=
    (hotInterval_sensorStep (sensorsRead d (ts.take 18)) (ts.take 18)).trans (thermalDuty_sensorStep _ (ts.take 18))
  have hrows : 1 + ((ts.take 18).map BitVec.toNat).length ≤ 256 := by rw [List.length_map]; omega
  refine ⟨fun i h18 hi => ?rows, ?top, fun i s hs h14 hlog h20 h25 => ?rest, gmem.trans hmem, gseq.trans hseq,
    gduty.trans (congrArg Pw.duty hpw), fun h => gtherm (by rwa [show (sensorsRead d (ts.take 18)).pw = d.pw from hpw])⟩
  case rows =>
    rw [sensorsTaken, gcfg _ _ (by omega) (by decide) (by decide), sensorsRead,
      cfg_setObj_idx _ _ _ _ _ _ (by decide) (by omega) (by decide), cfg_setRows _ _ _ _ _ _ hrows (by omega),
      if_pos ⟨rfl, by omega, by rw [List.length_map]; omega⟩, Nat.add_sub_cancel,
      List.getD_eq_getElem _ _ (by rw [List.length_map]; omega), List.getElem_map, List.getElem_take, List.getD_eq_getElem _ _ hi]
  case top => rw [sensorsTaken, gcfg _ _ (by decide) (by decide) (by decide), sensorsRead, cfg_setObj_same, topReading_take]
  case rest =>
    rw [sensorsTaken, gcfg i s hs h14 hlog, sensorsRead, cfg_setObj_idx _ _ _ _ _ _ (by decide) hs (Ne.symm h25),
      cfg_setRows _ _ _ _ _ _ hrows hs, if_neg (fun h => h20 h.1)]

/-- Settles O49: the duty is moved as `dutyAdjust_above` and `dutyAdjust_not_above` say, and a sensor sample is its readings
(`sensorsRead_step`), and a thermal hold where one reading reaches the threshold. -/
theorem dutyAndSensors : Obligations.DutyAndSensors := by
  refine ⟨?above, ?notAbove, ?stopped, ?sensors, ?failed⟩
  case above =>
    intro s hact h
    obtain ⟨n, hpw, hduty, hmem, hseq⟩ := dutyAdjust_above s.dev h
    refine ⟨dutyAdjust s.dev, by rw [exec_dutyAdjust, onUnit_acting _ _ hact], ?_, ?_, ?_, hmem, hseq⟩
    · rw [hpw]
    · rw [hduty, hpw]; rfl
    · rw [hpw]
  case notAbove =>
    intro s hact h
    obtain ⟨hpw, hduty, hmem, hseq⟩ := dutyAdjust_not_above s.dev h
    refine ⟨dutyAdjust s.dev, by rw [exec_dutyAdjust, onUnit_acting _ _ hact], ?_, ?_, ?_, ?_, hmem, hseq⟩
    · rw [hpw]
    · rw [hpw]
    · rw [hduty, hpw]; rfl
    · rw [hpw]
  case stopped => exact fun s hstop => exec_of_unitsStopped rfl hstop
  case failed => exact fun s ts hf => exec_of_failed rfl hf
  case sensors =>
    intro s ts hf
    obtain ⟨hrows, htop, hrest, hmem, hseq, hduty, htherm⟩ := sensorsTaken_spec s.dev ts
    have hstate : cfg (sensorsTaken s.dev ts) 0xE000 0 = cfg s.dev 0xE000 0 :=
      hrest _ _ (by decide) (by decide) (by decide) (by decide) (by decide)
    rw [exec_sensorSample, onPower_acting _ _ hf, sensorSample_eq]
    cases hhot : overHot s.dev ts with
    | false =>
      exact ⟨_, rfl, hrows, htop, htherm, hduty, hmem, fun _ => ⟨hseq, hstate⟩, fun h => absurd (hhot.symm.trans h) (by decide),
        fun h => absurd (hhot.symm.trans h) (by decide)⟩
    | true =>
      obtain ⟨gmem, gpw⟩ := thermalHold_frame (d := sensorsTaken s.dev ts)
      refine ⟨_, rfl, fun i hi hlt => ?rows, ?top, fun h => gpw.symm ▸ htherm h, (congrArg Pw.duty gpw).trans hduty,
        gmem.trans hmem, fun h => absurd (hhot.symm.trans h) (by decide), fun _ => ⟨cfg_thermalHold_state, ?gated⟩,
        fun _ hne => ?entered⟩
      case rows => rw [if_pos rfl, cfg_thermalHold_ne (by omega) (by decide) (by decide), hrows i hi hlt]
      case top => exact (cfg_thermalHold_ne (by decide) (by decide) (by decide)).trans htop
      case gated =>
        rw [if_pos rfl, clustersStopped, cfg_thermalHold_state]
        exact Bool.or_true _
      case entered =>
        have hctx : enabledCtxs (sensorsTaken s.dev ts) = enabledCtxs s.dev :=
          enabledCtxs_congr (fun c hc => hrest _ _ (by omega) (by decide) (by decide) (by decide) (by decide))
        exact hctx ▸ thermalHold_of_entered (hstate ▸ hne)

end Sys2Proof.Machine

/-! Clocks and start-up (chapter 26): what a lost reference or PLL stops, and what each start-up step does. -/

namespace Sys2Proof.Machine

/-! ### Wedged devices (R612, R614) -/

section
variable (d : Dev) (c i h : Nat)

theorem wedge_wedged : (wedge d c i h).rc.wedged = true := by
  unfold wedge
  split
  · assumption
  · exact congrArg Rc.wedged (raise_rc _ _ _ _)

theorem wedge_mem : (wedge d c i h).mem = d.mem := by
  unfold wedge
  split
  · rfl
  · exact raise_mem _ _ _ _

theorem wedge_seq : (wedge d c i h).seq = d.seq := by
  unfold wedge
  split
  · rfl
  · exact raise_seq _ _ _ _

end

/-! ### Clocks of the fabric and of the sites (R696) -/

section
variable {d : Dev}

/-- Clearing bits of PwClockStatus changes that object alone. -/
theorem foldl_clockOff_frame (is : List Nat) (d : Dev) :
    (is.foldl clockOff d).mem = d.mem ∧ ∀ i s, s < 256 → i ≠ 0xE030 → cfg (is.foldl clockOff d) i s = cfg d i s := by
  induction is generalizing d with
  | nil => exact ⟨rfl, fun _ _ _ _ => rfl⟩
  | cons k is ih =>
    obtain ⟨hmem, hcfg⟩ := ih (clockOff d k)
    exact ⟨hmem, fun i s hs hi => (hcfg i s hs hi).trans (cfg_setObj_idx _ _ _ _ _ _ (by decide) hs (Ne.symm hi))⟩

theorem siteLost_contains (d : Dev) (k i : Nat) (h : i = k ∨ d.mem.badSites.contains i = true) :
    (siteLost d k).mem.badSites.contains i = true := by
  unfold siteLost
  simp only
  split
  next hk => exact h.elim (fun e => e ▸ hk) id
  next _ => simpa using h

/-- Marking a site changes nothing but the marks. -/
theorem siteLost_frame (d : Dev) (k : Nat) : (siteLost d k).mem.bytes = d.mem.bytes ∧ (siteLost d k).seq = d.seq ∧
    (siteLost d k).rl = d.rl ∧ (siteLost d k).ev = d.ev := ⟨rfl, rfl, rfl, rfl⟩

/-- Each site of a list is marked, and no byte of memory changes. -/
theorem foldl_siteLost (ks : List Nat) (d : Dev) :
    (ks.foldl siteLost d).mem.bytes = d.mem.bytes ∧ (ks.foldl siteLost d).objs = d.objs ∧
      ∀ i, i ∈ ks ∨ d.mem.badSites.contains i = true → (ks.foldl siteLost d).mem.badSites.contains i = true := by
  induction ks generalizing d with
  | nil => exact ⟨rfl, rfl, fun i h => h.resolve_left List.not_mem_nil⟩
  | cons k ks ih =>
    obtain ⟨hbytes, hobjs, hmarked⟩ := ih (siteLost d k)
    refine ⟨hbytes, hobjs, fun i h => hmarked i ?_⟩
    rcases h with h | h
    · exact (List.mem_cons.1 h).elim (fun e => .inr (siteLost_contains d k i (.inl e))) .inl
    · exact .inr (siteLost_contains d k i (.inr h))

/-- With the fabric's clocks gone every context that is enabled stops, the device is wedged, and memory is as it was. -/
theorem fabricLost_spec (d : Dev) (i h : Nat) : (fabricLost d i h).rc.wedged = true ∧ (fabricLost d i h).mem = d.mem ∧
    ∀ c ∈ enabledCtxs d, ctxLive (ctxAt (fabricLost d i h) c) = false := by
  obtain ⟨_, _, _, _, _, hfaults⟩ := foldl_faults _ (fun d x => unitFault_faults d x 0xCE03) (enabledCtxs d) d
  refine ⟨wedge_wedged _ _ _ _, (wedge_mem _ _ _ _).trans (congrArg Dev.mem hfaults :), fun c hc => ?_⟩
  have hctx : ctxAt (fabricLost d i h) c = ctxAt (stopAll d 0xCE03) c := by
    rw [ctxAt, fabricLost, wedge_seq]
    rfl
  rw [hctx]
  exact ctxLive_foldl_unitFault _ _ _ (lt_of_mem_enabledCtxs hc) (.inl hc)

/-- Without REFCLK_A every clock bit but the host's is clear, and every site is marked. -/
theorem refclkLoss_of_A (d : Dev) (q f : Nat) : refclkLoss d 0 q f = fabricLost (raise ((List.range 16).foldl siteLost
    (([31, 29, 28, 27, 26, 25, 24, 23] ++ List.range 16 ++ if cfg d 0xE031 0 = 0 then [22] else []).foldl clockOff d))
    0xCE03 0 0) q f := if_pos rfl

theorem enabledCtxs_raise (c a b : Nat) : enabledCtxs (raise d c a b) = enabledCtxs d :=
  enabledCtxs_congr (fun k _ => cfg_raise_idx _ _ _ _ _ _ (by omega) (by decide))

end

/-- Settles O50: each clause is the meaning of its number, with the units acting; `fabricLost_spec` says what a lost fabric
clock stops, `foldl_siteLost` that REFCLK_A takes every site. That the management and PCIe PLLs have no further effect is log
74, the wedge at once log 26 (the model's deductions). -/
theorem lostClocks : Obligations.LostClocks := by
  refine ⟨?refA, ?refB, ?fabric, ?site, ?quad, ?host, ?mgmt, ?pcie, ?nothing⟩
  case refA =>
    intro s q f hact
    extract_lets pcie lost
    obtain ⟨hcmem, hccfg⟩ : lost.mem = s.dev.mem ∧ ∀ i k, k < 256 → i ≠ 0xE030 → cfg lost i k = cfg s.dev i k :=
      foldl_clockOff_frame _ s.dev
    obtain ⟨hbytes, hobjs, hmarked⟩ := foldl_siteLost (List.range 16) lost
    obtain ⟨hwedged, hmem, hdead⟩ := fabricLost_spec (raise ((List.range 16).foldl siteLost lost) 0xCE03 0 0) q f
    have hctxs : enabledCtxs ((List.range 16).foldl siteLost lost) = enabledCtxs s.dev :=
      enabledCtxs_congr (fun c hc => (cfg_congr hobjs _ _).trans (hccfg _ _ (by omega) (by decide)))
    rw [raise_mem] at hmem
    rw [enabledCtxs_raise, hctxs] at hdead
    have hexec : exec (.refclkLoss 0 q f) s =
        after s (fabricLost (raise ((List.range 16).foldl siteLost lost) 0xCE03 0 0) q f) := by
      rw [exec_refclkLoss, onUnit_acting _ _ hact, refclkLoss_of_A]
    clear_value lost
    exact ⟨_, hexec, rfl, hwedged, hdead, fun i hi => by rw [hmem]; exact hmarked i (.inl (List.mem_range.2 hi)),
      by rw [hmem, hbytes, hcmem]⟩
  case refB =>
    intro s q f hact
    rw [exec_refclkLoss, onUnit_acting _ _ hact, refclkLoss, if_neg (by decide), if_pos rfl]
  case fabric =>
    intro s w q f hact hw
    extract_lets bit
    obtain ⟨hwedged, hmem, hdead⟩ := fabricLost_spec (raise (clockOff s.dev bit) 0xCE03 (2 + w) 0) q f
    have hctxs : enabledCtxs (clockOff s.dev bit) = enabledCtxs s.dev :=
      enabledCtxs_congr (fun c hc => cfg_setObj_idx _ _ _ _ _ _ (by decide) (by omega) (by decide))
    rw [enabledCtxs_raise, hctxs] at hdead
    exact ⟨_, by rw [exec_pllUnlock, onUnit_acting _ _ hact, pllUnlock, if_pos hw], rfl, hwedged, hdead,
      hmem.trans (raise_mem _ _ _ _)⟩
  case site =>
    intro s w q f hact hlow hhigh
    obtain ⟨hbytes, hseq, hrl, hev⟩ := siteLost_frame (raise (clockOff s.dev (w - 6)) 0xCE03 (2 + w) 0) (w - 6)
    refine ⟨_, ?_, siteLost_contains _ _ _ (.inl rfl), by rw [hbytes, raise_mem]; rfl, by rw [hseq, raise_seq]; rfl,
      by rw [hrl, raise_rl]; rfl, (Logged_congr hev _ _ _).2 (raise_logged _ _ _ _)⟩
    rw [exec_pllUnlock, onUnit_acting _ _ hact, pllUnlock, if_neg (by omega), if_pos hhigh]
  case quad =>
    intro s w q f hact hlow hhigh
    rw [exec_pllUnlock, onUnit_acting _ _ hact, pllUnlock, if_neg (by omega), if_neg (by omega), if_pos hhigh]
  case host =>
    intro s w q f hact hlow hhigh
    rw [exec_pllUnlock, onUnit_acting _ _ hact, pllUnlock, if_neg (by omega), if_neg (by omega), if_neg (by omega), if_pos hhigh]
  case mgmt =>
    intro s q f hact
    rw [exec_pllUnlock, onUnit_acting _ _ hact]
    rfl
  case pcie =>
    intro s q f hact
    rw [exec_pllUnlock, onUnit_acting _ _ hact]
    rfl
  case nothing =>
    refine fun s w q f => ⟨fun h => h.elim (exec_of_unitsStopped rfl) (fun hw => ?_),
      fun h => h.elim (exec_of_unitsStopped rfl) (fun hw => ?_)⟩
    · have hidle : refclkLoss s.dev w q f = s.dev := by rw [refclkLoss, if_neg (by omega), if_neg (by omega)]
      rw [exec_refclkLoss, onUnit, hidle, ite_self]
    · have hidle : pllUnlock s.dev w q f = s.dev := by
        rw [pllUnlock, if_neg (by omega), if_neg (by omega), if_neg (by omega), if_neg (by omega), if_neg (by omega),
          if_neg (by omega)]
      rw [exec_pllUnlock, onUnit, hidle, ite_self]

/-! ### What the start-up steps change (R701 to R704) -/

section
variable (d : Dev)

theorem setBrDir_objs (dir : Nat) (x : BrDir) : (setBrDir d dir x).objs = d.objs := by
  unfold setBrDir
  split <;> rfl

/-- Training a bundle changes no object but the count of lost events. -/
theorem cfg_trainBundle (dir b : Nat) (fs : List Nat) (ctl : Bool) {i s : Nat} (hs : s < 256) (hi : i ≠ 0x1124) :
    cfg (trainBundle d dir b fs ctl) i s = cfg d i s := by
  have hset (x : BrDir) : cfg (setBrDir d dir x) i s = cfg d i s := cfg_congr (setBrDir_objs d dir x) i s
  unfold trainBundle
  extract_lets f bad u d1 new d2
  have h1 : cfg d1 i s = cfg d i s := hset _
  have h2 : cfg d2 i s = cfg d i s := by
    unfold d2
    split
    · exact h1
    · exact (cfg_raise_idx _ _ _ _ _ _ hs hi).trans h1
  split
  · exact (cfg_raise_idx _ _ _ _ _ _ hs hi).trans h2
  · exact h2

theorem cfg_trainBridge (fs : List (Nat × Nat × List Nat × Bool)) {i s : Nat} (hs : s < 256) (hi : i ≠ 0x1124) :
    cfg (trainBridge d fs) i s = cfg d i s := by
  refine List.foldlRecOn (motive := fun e => cfg e i s = cfg d i s) _ _ rfl (fun e he k _ => ?_)
  split <;> exact (cfg_trainBundle _ _ _ _ _ hs hi).trans he

theorem fixStepping_frame : (fixStepping d).mem = d.mem ∧ cfg (fixStepping d) 0xE001 0 = cfg d 0xE001 0 := by
  unfold fixStepping
  extract_lets a b eff both mixed d1 d2
  have hcfg : cfg d2 0xE001 0 = cfg d 0xE001 0 := by simp (disch := omega) only [d2, d1, cfg_setObj_idx]
  split
  · exact ⟨raise_mem _ _ _ _, (cfg_raise_idx _ _ _ _ _ _ (by decide) (by decide)).trans hcfg⟩
  · exact ⟨rfl, hcfg⟩

end

/-! ### The step in progress (R701, R703, R704) -/

section
variable {s : State} {i : StartInfo} {n : Nat}

/-- In start-up the step in progress does its work, once its time is recorded. -/
theorem exec_startupStep_at (hact : Acting s) (hstate : cfg s.dev 0xE000 0 = 1) (hstep : cfg s.dev 0xE001 0 = n) (hn : 1 ≤ n ∧ n ≤ 12) :
    exec (.startupStep i) s = after s (startWork (setObj s.dev 0xE002 n (min i.us (2 ^ 32 - 1))) n i) := by
  rw [exec_startupStep, onUnit_acting _ _ hact, startupStep, hstep, if_pos ⟨hstate, hn⟩]

/-- A failure that ends start-up: state 7, with its event. -/
theorem startStopped_spec (d : Dev) (code a b : Nat) : cfg (startStopped d code a b) 0xE000 0 = 7 ∧
    cfg (startStopped d code a b) 0xE001 0 = cfg d 0xE001 0 ∧ Logged (startStopped d code a b) code a b ∧
    (startStopped d code a b).mem = d.mem := by
  refine ⟨?_, ?_, raise_logged _ _ _ _, raise_mem _ _ _ _⟩ <;>
    simp (disch := omega) only [startStopped, cfg_raise_idx, cfg_setObj_same, cfg_setObj_idx]

/-- With no image verified in time the device is in recovery mode (R647). -/
theorem bootFails_spec (d : Dev) (us : Nat) : cfg (bootFails d us) 0xE000 0 = 6 ∧
    cfg (bootFails d us) 0xE001 0 = cfg d 0xE001 0 ∧ Logged (bootFails d us) 0xCD02 0 0 := by
  refine ⟨?_, ?_, raise_logged _ _ _ _⟩ <;>
    simp (disch := omega) only [bootFails, cfg_raise_idx, cfg_setObj_same, cfg_setObj_idx]

theorem cfg_setRows_idx {d : Dev} {idx r j k : Nat} {vs : List Nat} (hr : r + vs.length ≤ 256) (hk : k < 256) (hj : idx ≠ j) :
    cfg (setRows d idx r vs) j k = cfg d j k := by
  rw [cfg_setRows _ _ _ _ _ _ hr hk, if_neg (fun h => hj h.1.symm)]

theorem length_padTo_le {α : Type} (m : Nat) (x : α) (l : List α) : (padTo m x l).length ≤ m := List.length_take_le _ _

/-- Far memory runs at the rate found, and with it the sites' clock bits (R209, R210). -/
theorem farTrain_of_rate {d : Dev} {sites : List Nat} {r : Nat} (h : farRate d sites = some r) : ∃ e, farTrain d sites = (true, e) ∧
    cfg e 0xE001 0 = cfg d 0xE001 0 ∧ cfg e 0x8012 0 = r ∧ cfg e 0x8013 0 = b2n (r == 6400) ∧ e.mem = d.mem := by
  unfold farTrain
  extract_lets floor d1
  have hlen : 1 + ((padTo 16 0 sites).map (fun s => (if floor ≤ s then 2 ^ 31 else 0) + s % 65536)).length ≤ 256 := by
    have := length_padTo_le 16 0 sites
    rw [List.length_map]
    omega
  have hmem : d1.mem = d.mem := (setRows_frame _ _ d 1).1
  have hcfg : cfg d1 0xE001 0 = cfg d 0xE001 0 := cfg_setRows_idx hlen (by decide) (by decide)
  clear_value d1
  rw [h]
  refine ⟨_, rfl, ?_⟩
  split
  · simp (disch := omega) only [clocksOn, cfg_raise_idx, cfg_setObj_idx, cfg_setObj_same, raise_mem, setObj_mem, hcfg, hmem, and_self]
  · simp (disch := omega) only [clocksOn, cfg_setObj_idx, cfg_setObj_same, setObj_mem, hcfg, hmem, and_self]

/-- With no rate that every site passes, far memory training fails (R210). -/
theorem farTrain_of_none {d : Dev} {sites : List Nat} (h : farRate d sites = none) : ∃ e, farTrain d sites = (false, e) ∧
    cfg e 0xE001 0 = cfg d 0xE001 0 ∧ e.mem = d.mem := by
  unfold farTrain
  extract_lets floor d1
  rw [h]
  refine ⟨d1, rfl, cfg_setRows_idx ?_ (by decide) (by decide), (setRows_frame _ _ d 1).1⟩
  have := length_padTo_le 16 0 sites
  rw [List.length_map]
  omega

/-- The self-test begins and ends with checked mode, and with its event (R704). -/
theorem selfTest_spec (d : Dev) (on : Bool) : (selfTest d on).mem = d.mem ∧ (selfTest d on).tus = d.tus ∧
    (selfTest d on).sup.checked = on ∧ cfg (selfTest d on) 0x4003 0 = b2n on ∧ cfg (selfTest d on) 0x5003 0 = b2n on ∧
    cfg (selfTest d on) 0xE001 0 = cfg d 0xE001 0 ∧ Logged (selfTest d on) (if on then 0x0405 else 0x0406) 0 0 := by
  refine ⟨raise_mem _ _ _ _, raise_tus _ _ _ _, congrArg Sup.checked (raise_sup _ _ _ _), ?_, ?_, ?_, raise_logged _ _ _ _⟩ <;>
    simp (disch := omega) only [selfTest, cfg_raise_idx, cfg_setObj_idx, cfg_setObj_same]
  rfl

/-- Step 8 clears memory and the TUs, starts far memory's initialisation and begins the self-test. -/
theorem startWork_eight {d : Dev} (hp : i.pass = true) (hstep : cfg d 0xE001 0 = 8) : cfg (startWork d 8 i) 0xE001 0 = 9 ∧
    (startWork d 8 i).mem.bytes = [] ∧ (startWork d 8 i).mem.farInitStarted = true ∧ (startWork d 8 i).tus = [] ∧
    (startWork d 8 i).sup.checked = true ∧ cfg (startWork d 8 i) 0x4003 0 = 1 ∧ cfg (startWork d 8 i) 0x5003 0 = 1 ∧
    Logged (startWork d 8 i) 0x0405 0 0 := by
  have hcfg : cfg (clearMemories d) 0xE001 0 = 8 := by
    simp (disch := omega) only [clearMemories, cfg_setObj_idx]
    exact hstep
  obtain ⟨hmem, htus, hsup, h4003, h5003, hstep, hlog⟩ := selfTest_spec (clearMemories d) true
  rw [startWork, if_pos hp]
  refine ⟨?_, congrArg Mem.bytes hmem, congrArg Mem.farInitStarted hmem, htus, hsup, ?_, ?_, hlog⟩ <;>
    simp (disch := omega) only [nextStartStep, cfg_setObj_idx, cfg_setObj_same, hstep, hcfg, h4003, h5003]
  all_goals rfl

/-- Step 12 ends the self-test and makes the device ready. -/
theorem startWork_twelve (d : Dev) : cfg (startWork d 12 i) 0xE000 0 = 2 ∧ cfg (startWork d 12 i) 0xE001 0 = 0xFF ∧
    (startWork d 12 i).sup.checked = false ∧ cfg (startWork d 12 i) 0x4003 0 = 0 ∧ cfg (startWork d 12 i) 0x5003 0 = 0 ∧
    Logged (startWork d 12 i) 0x0E01 0 0 ∧ (startWork d 12 i).mem = d.mem := by
  obtain ⟨hmem, htus, hsup, h4003, h5003, hstep, hlog⟩ := selfTest_spec d false
  rw [startWork]
  refine ⟨?_, ?_, ?_, ?_, ?_, raise_logged _ _ _ _, (raise_mem _ _ _ _).trans hmem⟩
  case refine_3 => exact (congrArg Sup.checked (raise_sup _ _ _ _)).trans hsup
  all_goals simp (disch := omega) only [cfg_raise_idx, cfg_setObj_idx, cfg_setObj_same, h4003, h5003]
  all_goals rfl

/-- Step 4 goes on with the image that boot has selected, or else waits in recovery mode (R645, R647). -/
theorem startWork_four {d : Dev} (hp : i.pass = true) : startWork d 4 i = if (bootSelect d i.badReads i.us).1
    then nextStartStep (bootSelect d i.badReads i.us).2 else setObj (bootSelect d i.badReads i.us).2 0xE000 0 6 := by
  rw [startWork, if_pos hp]
  obtain ⟨ok, e⟩ := bootSelect d i.badReads i.us
  cases ok <;> rfl

/-- A direction of the bridge has fewer bundles left than it needs (R674). -/
def bridgeLow (d : Dev) (dir : Nat) : Prop := (bundlesActive (brDir d dir)).length < cfg d 0x8101 0

/-- Step 6 trains the bridge and goes on, or ends start-up at the first direction that is too narrow. -/
theorem startWork_six {d : Dev} (hp : i.pass = true) : let e := trainBridge (clocksOn d [24, 25, 26, 27, 28, 29]) i.bundles
    (¬ bridgeLow e 0 → ¬ bridgeLow e 1 → startWork d 6 i = nextStartStep e) ∧
    (bridgeLow e 0 → startWork d 6 i = startStopped e 0xC844 0 (bundlesActive (brDir e 0)).length) ∧
    (¬ bridgeLow e 0 → bridgeLow e 1 → startWork d 6 i = startStopped e 0xC844 1 (bundlesActive (brDir e 1)).length) := by
  intro e
  have hneed : cfg e 0x8101 0 = cfg d 0x8101 0 := (cfg_trainBridge _ _ (by decide) (by decide)).trans
    (cfg_setObj_idx _ _ _ _ _ _ (by decide) (by decide) (by decide))
  have hstep : startWork d 6 i = _ := if_pos hp
  rw [hstep]
  change _ ∧ _ ∧ _
  unfold bridgeLow
  rw [hneed]
  refine ⟨fun h0 h1 => ?_, fun h0 => ?_, fun h0 h1 => ?_⟩ <;> simp [e, *]

end

/-- Settles O51: each clause is the work of its step (`exec_startupStep_at`), and a step that ends start-up is
`startStopped_spec` or `bootFails_spec`. That STARTUP_TIMEOUT is the failure of every step but 3 and 12 is the model's choice
(log 28). -/
theorem startUpSteps : Obligations.StartUpSteps := by
  refine ⟨?steps, fun _ => rfl, ?timeout, ?noTimeout, ?outside, ?farInit, ?noFarInit⟩
  case steps =>
    intro s i n hact hstate hstep d goes
    have hwork (hn : 1 ≤ n ∧ n ≤ 12) : exec (.startupStep i) s = after s (startWork d n i) :=
      exec_startupStep_at hact hstate hstep hn
    have hd : 1 ≤ n ∧ n ≤ 12 → cfg d 0xE001 0 = n := fun hn =>
      (cfg_setObj_idx _ _ _ _ _ _ (by omega) (by decide) (by decide)).trans hstep
    have hsmem : d.mem = s.dev.mem := rfl
    have hstops {e : Dev} {code a b : Nat} (hn : 1 ≤ n ∧ n ≤ 12) (hw : startWork d n i = startStopped e code a b)
        (hcfg : cfg e 0xE001 0 = cfg d 0xE001 0) (hmem : e.mem = d.mem) : ∃ e, exec (.startupStep i) s = after s e ∧
          cfg e 0xE000 0 = 7 ∧ cfg e 0xE001 0 = cfg s.dev 0xE001 0 ∧ Logged e code a b ∧ e.mem = s.dev.mem := by
      obtain ⟨h7, hkept, hlog, hm⟩ := startStopped_spec e code a b
      exact ⟨_, (hwork hn).trans (by rw [hw]), h7, by rw [hkept, hcfg, hd hn, hstep], hlog, hm.trans hmem⟩
    clear_value d
    refine ⟨?pass1, ?fail1, ?step2, ?pass3, ?fail3, ?pass4, ?none4, ?fail4, ?pass5, ?fail5, ?pass6, ?fail6, ?pass7, ?fail7,
      ?pass8, ?fail89, ?pass9, ?step10, ?step11, ?step12⟩
    case pass1 =>
      rintro rfl hp
      exact (hwork (by decide)).trans (by rw [startWork, if_pos hp])
    case fail1 =>
      rintro rfl hp
      exact (hwork (by decide)).trans (by rw [startWork, if_neg (by simp [hp])])
    case step2 =>
      rintro rfl
      exact hwork (by decide)
    case pass3 =>
      rintro rfl hp
      exact (hwork (by decide)).trans (by rw [startWork, if_pos hp])
    case fail3 =>
      rintro rfl hp
      exact (hwork (by decide)).trans (by rw [startWork, if_neg (by simp [hp])])
    case pass4 =>
      rintro rfl hp hboot
      exact (hwork (by decide)).trans (by rw [startWork_four hp, if_pos hboot])
    case none4 =>
      rintro rfl hp hboot
      exact (hwork (by decide)).trans (by rw [startWork_four hp, if_neg (by simp [hboot])])
    case fail4 =>
      rintro rfl hp
      obtain ⟨h6, hkept, hlog⟩ := bootFails_spec d i.us
      exact ⟨_, (hwork (by decide)).trans (by rw [startWork, if_neg (by simp [hp])]), h6, hkept.trans (hd (by decide)), hlog⟩
    case pass5 =>
      rintro rfl hp
      exact (hwork (by decide)).trans (by rw [startWork, if_pos hp])
    case fail5 =>
      rintro rfl hp
      obtain ⟨hmem, hcfg⟩ := fixStepping_frame d
      exact hstops (by decide) (by rw [startWork, if_neg (by simp [hp])]) hcfg hmem
    case pass6 =>
      rintro rfl hp
      obtain ⟨hwide, hlow0, hlow1⟩ := startWork_six (d := d) hp
      exact ⟨fun h0 h1 => (hwork (by decide)).trans (by rw [hwide h0 h1]), fun h0 => (hwork (by decide)).trans (by rw [hlow0 h0]),
        fun h0 h1 => (hwork (by decide)).trans (by rw [hlow1 h0 h1])⟩
    case fail6 =>
      rintro rfl hp
      exact hstops (by decide) (by rw [startWork, if_neg (by simp [hp])]) rfl rfl
    case pass7 =>
      rintro rfl r hr
      obtain ⟨e, htrain, hcfg, hrate, hlow, hmem⟩ := farTrain_of_rate hr
      refine ⟨nextStartStep e, (hwork (by decide)).trans (by rw [startWork, htrain]), ?_, ?_, ?_, hmem.trans hsmem⟩
      · rw [nextStartStep, cfg_setObj_same, hcfg, hd (by decide)]
      · rw [nextStartStep, cfg_setObj_idx _ _ _ _ _ _ (by decide) (by decide) (by decide), hrate]
      · rw [nextStartStep, cfg_setObj_idx _ _ _ _ _ _ (by decide) (by decide) (by decide), hlow]
    case fail7 =>
      rintro rfl hr
      obtain ⟨e, htrain, hcfg, hmem⟩ := farTrain_of_none hr
      exact hstops (by decide) (by rw [startWork, htrain]) hcfg hmem
    case pass8 =>
      rintro rfl hp
      exact ⟨_, hwork (by decide), startWork_eight hp (hd (by decide))⟩
    case fail89 =>
      intro hn hp
      refine hstops (by omega) ?_ rfl rfl
      rcases hn with rfl | rfl <;> rw [startWork, if_neg (by simp [hp])]
    case pass9 =>
      rintro rfl hp
      exact (hwork (by decide)).trans (by rw [startWork, if_pos hp])
    case step10 =>
      rintro rfl
      exact hwork (by decide)
    case step11 =>
      rintro rfl
      exact hwork (by decide)
    case step12 =>
      rintro rfl
      obtain ⟨hstate, hstep, hsup, h4003, h5003, hlog, hmem⟩ := startWork_twelve (i := i) d
      exact ⟨_, hwork (by decide), hstate, hstep, hsup, h4003, h5003, hlog, hmem.trans hsmem⟩
  case timeout =>
    intro s us u h3 h12
    have h : startupTimeout s.dev us u =
        startupStep s.dev { us, pass := false, badReads := [], bundles := [], sites := [], unit := u, port := 0 } :=
      if_neg (fun h => h.elim h3 h12)
    rw [exec_startupTimeout, exec_startupStep, onUnit, onUnit, h]
  case noTimeout =>
    intro s us u h
    have hidle : startupTimeout s.dev us u = s.dev := if_pos h
    rw [exec_startupTimeout, onUnit, hidle, ite_self]
  case outside =>
    intro s i h
    rcases h with hstop | h
    · exact exec_of_unitsStopped rfl hstop
    · have hidle : startupStep s.dev i = s.dev := if_neg (by omega)
      rw [exec_startupStep, onUnit, hidle, ite_self]
  case farInit =>
    intro s hact hon hoff
    rw [exec_farInitDone, onUnit_acting _ _ hact, farInitDone, hon, hoff]
    rfl
  case noFarInit =>
    intro s h
    rcases h with hstop | h
    · exact exec_of_unitsStopped rfl hstop
    · have hidle : farInitDone s.dev = s.dev := if_neg (by rcases h with h | h <;> simp [h])
      rw [exec_farInitDone, onUnit, hidle, ite_self]

end Sys2Proof.Machine

/-! Data integrity (chapter 23): bit fields after a write of one, the objects that accesses of memory leave, scrubbing and the
check-value units. -/

namespace Sys2Proof.Machine

/-! ### Bit fields after a write of one -/

theorem testBit_fld (v hi lo i : Nat) : (fld v hi lo).testBit i = (decide (i < hi + 1 - lo) && v.testBit (lo + i)) := by
  rw [fld, Nat.testBit_mod_two_pow, Nat.testBit_shiftRight]

/-- A written field holds what was written, and every other bit is left. -/
theorem testBit_setFld {v hi lo x i : Nat} (h : lo ≤ hi) : (setFld v hi lo x).testBit i =
    if i < lo then v.testBit i else if i ≤ hi then x.testBit (i - lo) else v.testBit i := by
  have hshape : setFld v hi lo x = 2 ^ lo * (2 ^ (hi + 1 - lo) * (v >>> (hi + 1)) + x % 2 ^ (hi + 1 - lo)) + v % 2 ^ lo := by
    rw [setFld, Nat.shiftLeft_eq, Nat.shiftLeft_eq, Nat.mul_add, ← Nat.mul_assoc, ← Nat.pow_add, show lo + (hi + 1 - lo) = hi + 1 by omega,
      Nat.mul_comm (v >>> (hi + 1)), Nat.mul_comm (x % _)]
  rw [hshape, Nat.testBit_two_pow_mul_add _ (Nat.mod_lt _ (by positivity)),
    Nat.testBit_two_pow_mul_add _ (Nat.mod_lt _ (by positivity)), Nat.testBit_mod_two_pow, Nat.testBit_mod_two_pow, Nat.testBit_shiftRight]
  by_cases hlo : i < lo
  · simp [hlo]
  · by_cases hhi : i ≤ hi
    · simp [hlo, hhi, show i - lo < hi + 1 - lo by omega]
    · simp [hlo, hhi, show ¬ i - lo < hi + 1 - lo by omega, show hi + 1 + (i - lo - (hi + 1 - lo)) = i by omega]

/-- A field apart from the one written is left. -/
theorem fld_setFld_apart {v hi lo x h l : Nat} (hle : lo ≤ hi) (hap : h < lo ∨ hi < l) : fld (setFld v hi lo x) h l = fld v h l := by
  refine Nat.eq_of_testBit_eq (fun i => ?_)
  rw [testBit_fld, testBit_fld, testBit_setFld hle]
  by_cases hi' : i < h + 1 - l
  · have : l + i < lo ∨ hi < l + i := by omega
    rcases this with hlt | hgt
    · rw [if_pos hlt]
    · rw [if_neg (by omega), if_neg (by omega)]
  · simp [hi']

theorem fld_setFld_same (v hi lo x : Nat) (hle : lo ≤ hi) : fld (setFld v hi lo x) hi lo = x % 2 ^ (hi + 1 - lo) := by
  refine Nat.eq_of_testBit_eq (fun i => ?_)
  rw [testBit_fld, Nat.testBit_mod_two_pow, testBit_setFld hle]
  by_cases hi' : i < hi + 1 - lo
  · rw [if_neg (by omega), if_pos (by omega), Nat.add_sub_cancel_left]
  · simp [hi']

theorem bitAt_setFld_apart {v hi lo x i : Nat} (hle : lo ≤ hi) (hap : i < lo ∨ hi < i) : bitAt (setFld v hi lo x) i = bitAt v i := by
  rw [bitAt_eq_testBit, bitAt_eq_testBit, testBit_setFld hle]
  rcases hap with h | h
  · rw [if_pos h]
  · rw [if_neg (by omega), if_neg (by omega)]

@[simp] theorem bitAt_setBit_same (v i : Nat) (b : Bool) : bitAt (setBit v i b) i = b := by
  rw [bitAt_eq_testBit, setBit, testBit_setFld (le_refl i), if_neg (lt_irrefl i), if_pos (le_refl i), Nat.sub_self]
  cases b <;> rfl

theorem bitAt_setBit_ne {v i j : Nat} (b : Bool) (h : i ≠ j) : bitAt (setBit v i b) j = bitAt v j :=
  bitAt_setFld_apart (le_refl i) (by omega)

theorem fld_setBit_apart {v i h l : Nat} (b : Bool) (hap : h < i ∨ i < l) : fld (setBit v i b) h l = fld v h l :=
  fld_setFld_apart (le_refl i) hap

/-- Cutting a word to `w` bits leaves the fields and bits below. -/
theorem fld_mod {v w hi lo : Nat} (h : hi < w) : fld (v % 2 ^ w) hi lo = fld v hi lo := by
  refine Nat.eq_of_testBit_eq (fun i => ?_)
  rw [testBit_fld, testBit_fld, Nat.testBit_mod_two_pow]
  by_cases hi' : i < hi + 1 - lo
  · simp [show lo + i < w by omega]
  · simp [hi']

theorem bitAt_mod {v w i : Nat} (h : i < w) : bitAt (v % 2 ^ w) i = bitAt v i := by
  rw [bitAt_eq_testBit, bitAt_eq_testBit, Nat.testBit_mod_two_pow, decide_eq_true h, Bool.true_and]

/-! ### Objects that accesses of memory leave -/

/-- The object is none of memory's counts (R195 to R206, R212), nor the count of lost events. -/
def BesideCounts (i s : Nat) : Prop :=
  (okey i s < okey 0x8050 0 ∨ okey 0x8060 0 ≤ okey i s) ∧ okey i s ≠ okey 0x1124 0

theorem besideCounts_of_idx {i s : Nat} (hs : s < 256) (h : i < 0x8050 ∨ 0x8060 ≤ i) (hl : i ≠ 0x1124) : BesideCounts i s := by
  unfold BesideCounts okey
  omega

section
variable {i s : Nat} (hb : BesideCounts i s) (d : Dev)
include hb

theorem cfg_bump_count {j k : Nat} (n : Nat) (hj : 0x8050 ≤ j ∧ j < 0x8060) (hk : k < 256) : cfg (bump d j k n) i s = cfg d i s := by
  refine bump_cfg_ne _ _ _ _ _ _ (fun h => ?_)
  rw [BesideCounts, ← h] at hb
  unfold okey at hb
  omega

theorem cfg_bumpPart_count {j k : Nat} (p n : Nat) (hj : 0x8050 ≤ j ∧ j < 0x8060) (hk : k < 256) :
    cfg (bumpPart d j k p n) i s = cfg d i s := by
  refine cfg_setObj_ne _ _ _ _ _ _ (fun h => ?_)
  rw [BesideCounts, ← h] at hb
  unfold okey at hb
  omega

theorem cfg_raise_count (c a b : Nat) : cfg (raise d c a b) i s = cfg d i s := raise_cfg _ _ _ _ _ _ (Ne.symm hb.2)

theorem cfg_raiseFault_count (c a b x : Nat) : cfg (raiseFault d c a b x) i s = cfg d i s :=
  (cfg_congr (unitFault_objs _ _) _ _).trans (cfg_raise_count hb d c a b)

end

theorem cfg_stopBinders (d : Dev) (e c i s : Nat) : cfg (stopBinders d e c) i s = cfg d i s :=
  cfg_congr (foldl_unitFault_objs _ d c) _ _

theorem regionOf_half {a h off : Nat} : regionOf a = .near h off ∨ regionOf a = .far h off → h < 2 := by
  unfold regionOf
  have hnear : 0 < nearSize := by decide
  split
  next hlt => rintro (h | h) <;> cases h; exact (Nat.div_lt_iff_lt_mul hnear).2 hlt
  split
  · rintro (h | h) <;> cases h; decide
  split
  · rintro (h | h) <;> cases h; decide
  · rintro (h | h) <;> cases h

theorem ownerHalf_lt (a : Nat) : ownerHalf a < 2 := by
  unfold ownerHalf
  split
  next h _ hr => exact regionOf_half (.inl hr)
  next h _ hr => exact regionOf_half (.inr hr)
  · decide

section
variable {i s : Nat} (hb : BesideCounts i s) (d : Dev)
include hb

theorem cfg_noteGathered (w : Nat) : cfg (noteGathered d w) i s = cfg d i s :=
  foldl_keeps (fun d => cfg d i s) (fun d _ => (cfg_stopBinders _ _ _ _ _).trans (cfg_raise_count hb d _ _ _)) _ d

theorem cfg_noteUe (c : Nat) (ws : List Nat) : cfg (noteUe d c ws) i s = cfg d i s := by
  induction ws generalizing d with
  | nil => rfl
  | cons w ws ih =>
    refine (ih _).trans ?_
    split
    next h off hr =>
      have := regionOf_half (.inl hr)
      rw [cfg_noteGathered hb, cfg_raiseFault_count hb, cfg_bump_count hb _ _ (by decide) (by omega)]
    next h off hr =>
      have := regionOf_half (.inr hr)
      rw [cfg_raiseFault_count hb, cfg_bump_count hb _ _ (by decide) (by omega)]
    · rfl

theorem cfg_ceNote (c u l n : Nat) : cfg (ceNote d c u l n) i s = cfg d i s := by
  unfold ceNote
  dsimp only
  split
  · exact cfg_raise_count hb _ _ _ _
  · rfl

theorem cfg_noteCorrected (w : Nat) : cfg (noteCorrected d w) i s = cfg d i s := by
  unfold noteCorrected
  split
  next h off hr =>
    have := regionOf_half (.inl hr)
    rw [cfg_ceNote hb, cfg_bump_count hb _ _ (by decide) (by omega)]
  next h off hr =>
    have := regionOf_half (.inr hr)
    rw [cfg_ceNote hb, cfg_bump_count hb _ _ (by decide) (by omega)]
  · rfl

theorem cfg_noteCorrects (a n : Nat) : cfg (noteCorrects d a n) i s = cfg d i s :=
  foldl_keeps (fun d => cfg d i s) (cfg_noteCorrected hb) _ d

theorem cfg_noteRead (c a n : Nat) : cfg (noteRead d c a n) i s = cfg d i s :=
  (cfg_noteUe hb _ _ _).trans (cfg_noteCorrects hb d a n)

theorem cfg_writeBack (t : CacheTag) : cfg (writeBack d t) i s = cfg d i s := by
  unfold writeBack
  split
  · have := ownerHalf_lt t.line
    rw [foldl_keeps (fun d => cfg d i s) (fun d w => cfg_raise_count hb d _ w 0), cfg_bumpPart_count hb _ _ _ (by decide) (by omega)]
  · rfl

theorem cfg_cacheAllocate (l : Nat) (b : Bool) : cfg (cacheAllocate d l b) i s = cfg d i s := by
  unfold cacheAllocate
  dsimp only
  split
  · exact cfg_writeBack hb _ _
  · rfl

theorem cfg_cacheAccess (l h : Nat) (w b : Bool) : cfg (cacheAccess d l h w b) i s = cfg d i s := by
  have hcount (k : Nat) : cfg (bumpPart d 0x8055 (ownerHalf l + 1) k 1) i s = cfg d i s := by
    have := ownerHalf_lt l
    exact cfg_bumpPart_count hb _ _ _ (by decide) (by omega)
  have htags (e : Dev) (l : Nat) (t : Tab CacheTag) : cfg (setCacheSet e l t) i s = cfg e i s := rfl
  unfold cacheAccess
  dsimp only
  split
  · rfl
  split
  · split
    · rw [htags, cfg_writeBack hb, hcount]
    split <;> exact hcount _
  · split
    · exact hcount 1
    split
    · rw [cfg_cacheAllocate hb, hcount]
    · exact hcount 1

theorem cfg_cacheLines (a n h : Nat) (w : Bool) (q : Acc) : cfg (cacheLines d a n h w q) i s = cfg d i s :=
  foldl_keeps (fun d => cfg d i s) (fun d l => cfg_cacheAccess hb d l h w _) _ d

theorem cfg_noteRemote (h a n : Nat) : cfg (noteRemote d h a n) i s = cfg d i s := by
  unfold noteRemote
  split
  · rfl
  · have := ownerHalf_lt a
    exact cfg_bump_count hb d _ (by decide) (by omega)

theorem cfg_readThrough (h c t a n : Nat) (q : Acc) : cfg (readThrough d h c t a n q).2 i s = cfg d i s := by
  rw [readThrough, cfg_noteRead hb, cfg_noteRemote hb, cfg_cacheLines hb]

end

/-! ### Check-value units: the configuration and the feeds (R627 to R629) -/

theorem bytes_of_mod {v : Nat} {b : Byte} (h : v % 256 = b.toNat) : BitVec.ofNat 8 v = b :=
  BitVec.eq_of_toNat_eq (by rw [BitVec.toNat_ofNat, h])

/-- The initial value of a POLY (R627). -/
theorem polyOf_init {p : Nat} (hp : p < 4) :
    (polyOf p).init = if p = 0 ∨ p = 1 then 0xFFFFFFFF else if p = 2 then 0 else 0xFFFF := by
  interval_cases p <;> rfl

theorem fld_lt (v hi lo : Nat) : fld v hi lo < 2 ^ (hi + 1 - lo) := Nat.mod_lt _ (by positivity)

theorem isSome_of_ne_none {α : Type} {o : Option α} (h : o ≠ none) : o.isSome = true := Option.isSome_iff_ne_none.2 h

/-- Settles O43: the three answers of `cvConfig`, with the unit's row served. -/
theorem cvConfigRestartsItsUnit : Obligations.CvConfigRestartsItsUnit := by
  intro s u v hs hu hv init
  rw [exec_cvConfig, onObject_serving hs]
  refine ⟨fun hfold hspare hscan => ?free, fun hfold hspare hscan => ?busy, fun h => ?range⟩
  case free =>
    rw [cvConfig, if_neg (by omega), if_neg (by simp [hscan]), polyOf_init (fld_lt v 31 30)]
  case busy => rw [cvConfig, if_neg (by omega), if_pos (isSome_of_ne_none hscan)]
  case range => rw [cvConfig, if_pos (.inr h)]

section
variable (d : Dev) (u : Nat)

/-- A register feed of a unit folds its bytes, or finds the unit scanning (R629). -/
theorem cvFeed_of_unit (idx v n : Nat) (hu : u < 8) : cvFeed d idx u v n false =
    if (cvAt d u).scan = none then send (cvTake d u (leBytes n v)) (.status idx 0 0) else send d (.status idx 0 6) := by
  rw [cvFeed, if_neg (by simp; omega)]
  cases h : (cvAt d u).scan with
  | none => rfl
  | some x => rfl

theorem cvFeed_of_range (idx v n : Nat) {spare : Bool} (h : 8 ≤ u ∨ spare = true) : cvFeed d idx u v n spare = send d (.status idx 0 5) :=
  if_pos h

theorem after_ite {p : Prop} [Decidable p] (s : State) (d e : Dev) : after s (if p then d else e) = if p then after s d else after s e := by
  split <;> rfl

end

/-! ### Scans, results and comparisons (R630 to R639) -/

section
variable (d : Dev) (u : Nat)

@[simp] theorem cvAt_setCv_same (x : CvUnit) : cvAt (setCv d u x) u = x := by simp [cvAt, setCv]

@[simp] theorem cvAt_send (m : OutMsg) : cvAt (send d m) u = cvAt d u := rfl

theorem cvAt_congr {d e : Dev} (h : e.cv = d.cv) (u : Nat) : cvAt e u = cvAt d u := by rw [cvAt, h, cvAt]

/-- What the read of a scan leaves: the units, their configuration, what was sent and every byte. -/
theorem scanRead_frame (a n : Nat) : (scanRead d a n).2.cv = d.cv ∧ (scanRead d a n).2.mem.bytes = d.mem.bytes ∧
    (scanRead d a n).2.out = d.out ∧ cvPoly (scanRead d a n).2 u = cvPoly d u := by
  have hreads : ReadsOnly d (noteCorrects (noteRemote (cacheLines d a n 0 false) 0 a n) a n) :=
    ((cacheLines_reads _ _ _ _ _ _).trans (noteRemote_reads _ _ _ _)).trans (noteCorrects_reads _ _ _)
  have hb : okey 0x8060 0 ≤ okey 0xD802 (u + 1) ∧ okey 0xD802 (u + 1) ≠ okey 0x1124 0 := by unfold okey; omega
  have hpoly : cfg (noteCorrects (noteRemote (cacheLines d a n 0 false) 0 a n) a n) 0xD802 (u + 1) = cfg d 0xD802 (u + 1) := by
    rw [cfg_noteCorrects ⟨.inr hb.1, hb.2⟩, cfg_noteRemote ⟨.inr hb.1, hb.2⟩, cfg_cacheLines ⟨.inr hb.1, hb.2⟩]
  obtain ⟨_, _, _, _, _, _, _, _, -, h⟩ := hreads
  exact ⟨(congrArg Dev.cv h :), (congrArg (fun d => d.mem.bytes) h :), (congrArg Dev.out h :),
    congrArg (fun v => fld v 31 30) hpoly⟩

theorem firstUe_of_none {m : Mem} {a n : Nat} (h : ueIn m a n = []) : firstUe m a n = none := by rw [firstUe, h]

/-- The lowest uncorrectable word of a range is the first a scan meets. -/
theorem firstUe_of_lowest {m : Mem} {a n w : Nat} (hw : w ∈ ueIn m a n) (hle : ∀ y ∈ ueIn m a n, w ≤ y) : firstUe m a n = some w := by
  rw [firstUe]
  cases h : ueIn m a n with
  | nil => rw [h] at hw; cases hw
  | cons x l =>
    rw [h] at hw hle
    exact (List.min?_cons' (x := x) (xs := l)).symm.trans (List.min?_eq_some_iff.2 ⟨hw, hle⟩)

end

section
variable {d e : Dev} {u v : Nat} {err : Bool}

/-- The row of a channel that a result of unit `u` does not match (R638). -/
def mismatches (r u v : Nat) (err : Bool) : Bool := bitAt r 127 && fld r 125 123 == u && (err || fld r 63 0 != v)

theorem cvCompare_eq (ch : Nat) : cvCompare u v err d ch = if mismatches (tget 0 d.cv.channels ch) u v err then
    raise (bump { d with cv := { d.cv with channels := tset d.cv.channels ch (setBit (tget 0 d.cv.channels ch) 126 true) } } 0xD80B 0 1)
      0x8D84 (ch * 8 + u) v else d := rfl

theorem cvCompare_frame (d : Dev) (ch : Nat) : (cvCompare u v err d ch).cv.units = d.cv.units ∧ (cvCompare u v err d ch).mem = d.mem ∧
    (cvCompare u v err d ch).seq = d.seq := by
  rw [cvCompare_eq]
  split
  · exact ⟨by rw [raise_cv]; rfl, raise_mem _ _ _ _, raise_seq _ _ _ _⟩
  · exact ⟨rfl, rfl, rfl⟩

theorem cvCompare_same (d : Dev) (ch : Nat) : tget 0 (cvCompare u v err d ch).cv.channels ch =
    if mismatches (tget 0 d.cv.channels ch) u v err then setBit (tget 0 d.cv.channels ch) 126 true else tget 0 d.cv.channels ch := by
  rw [cvCompare_eq]
  split
  · rw [raise_cv]; exact tget_tset_same _ _ _ _
  · rfl

theorem cvCompare_other (d : Dev) {ch k : Nat} (h : ch ≠ k) : tget 0 (cvCompare u v err d ch).cv.channels k = tget 0 d.cv.channels k := by
  rw [cvCompare_eq]
  split
  · rw [raise_cv]; exact tget_tset_ne _ _ _ _ _ h
  · rfl

/-- What a comparison with the result leaves of a channel's row. -/
def compared (u v : Nat) (err : Bool) (r : Nat) : Nat := if mismatches r u v err then setBit r 126 true else r

/-- A finished unit compares its result with every channel, each once. -/
theorem cvCompare_fold (d : Dev) : let e := (List.range 8).foldl (cvCompare u v err) d
    e.cv.units = d.cv.units ∧ e.mem = d.mem ∧ e.seq = d.seq ∧ ∀ ch, tget 0 e.cv.channels ch =
      if ch < 8 then compared u v err (tget 0 d.cv.channels ch) else tget 0 d.cv.channels ch := by
  have hframe := cvCompare_frame (u := u) (v := v) (err := err)
  refine ⟨foldl_keeps (fun d => d.cv.units) (fun d ch => (hframe d ch).1) _ d, foldl_keeps Dev.mem (fun d ch => (hframe d ch).2.1) _ d,
    foldl_keeps Dev.seq (fun d ch => (hframe d ch).2.2) _ d, fun ch => ?_⟩
  rw [foldl_at_of_nodup (fun d ch => tget 0 d.cv.channels ch) _ (compared u v err) (fun _ => True) (fun d t _ => cvCompare_same d t)
    (fun d _ _ h => cvCompare_other d h) List.nodup_range (fun _ _ => trivial) ch]
  simp only [List.mem_range]

theorem compared_of_mismatch {r : Nat} (hen : bitAt r 127 = true) (hu : fld r 125 123 = u) (hv : err = true ∨ fld r 63 0 ≠ v) :
    bitAt (compared u v err r) 126 = true := by
  have : mismatches r u v err = true := by
    rcases hv with h | h <;> simp [mismatches, hen, hu, h]
  rw [compared, if_pos this, bitAt_setBit_same]

theorem compared_of_match {r : Nat} (h : bitAt r 127 = false ∨ fld r 125 123 ≠ u ∨ (err = false ∧ fld r 63 0 = v)) :
    compared u v err r = r := by
  have : mismatches r u v err = false := by
    rcases h with h | h | ⟨h, h'⟩ <;> simp [mismatches, *]
  rw [compared, this]
  rfl

/-- A written channel row: its unit and EXPECT as written, its own fields cleared, and MIS kept unless written 0 (R639). -/
theorem cvCompareSet_row (old v : Nat) : let w := setBit (setFld (v % 2 ^ 128) 122 64 0) 126 (bitAt old 126 && bitAt v 126)
    bitAt w 127 = bitAt v 127 ∧ fld w 125 123 = fld v 125 123 ∧ fld w 63 0 = fld v 63 0 ∧ fld w 122 64 = 0 ∧
      bitAt w 126 = (bitAt old 126 && bitAt v 126) := by
  refine ⟨?_, ?_, ?_, ?_, bitAt_setBit_same _ _ _⟩
  · rw [bitAt_setBit_ne _ (by decide), bitAt_setFld_apart (by decide) (by decide), bitAt_mod (by decide)]
  · rw [fld_setBit_apart _ (by decide), fld_setFld_apart (by decide) (by decide), fld_mod (by decide)]
  · rw [fld_setBit_apart _ (by decide), fld_setFld_apart (by decide) (by decide), fld_mod (by decide)]
  · rw [fld_setBit_apart _ (by decide), fld_setFld_same _ _ _ _ (by decide), Nat.zero_mod]

end

/-! ### Scrubbing (R618, R620 to R623) -/

/-- An upset strikes check bits and bad words alone: the objects, the bytes of memory and the scrubbers' places stay. -/
theorem upset_kept (d : Dev) (x : Upset) : (upset d x).objs = d.objs ∧ (upset d x).mem.bytes = d.mem.bytes ∧
    (upset d x).mem.scrub = d.mem.scrub ∧ (upset d x).mem.farInitDone = d.mem.farInitDone := by
  cases x with
  | word a two =>
    cases two with
    | true => exact ⟨rfl, rfl, rfl, rfl⟩
    | false => rw [upset]; split <;> exact ⟨rfl, rfl, rfl, rfl⟩
  | sem g n => exact ⟨rfl, rfl, rfl, rfl⟩
  | descriptor f q i => exact ⟨rfl, rfl, rfl, rfl⟩
  | pair e active => cases active <;> exact ⟨rfl, rfl, rfl, rfl⟩
  | mask c i => exact ⟨rfl, rfl, rfl, rfl⟩
  | entry q i => rw [upset]; split <;> exact ⟨rfl, rfl, rfl, rfl⟩
  | relay q v i => rw [upset]; split <;> exact ⟨rfl, rfl, rfl, rfl⟩
  | record k => exact ⟨rfl, rfl, rfl, rfl⟩

theorem upsets_kept (us : List Upset) (d : Dev) : (us.foldl upset d).objs = d.objs ∧ (us.foldl upset d).mem.bytes = d.mem.bytes ∧
    (us.foldl upset d).mem.scrub = d.mem.scrub ∧ (us.foldl upset d).mem.farInitDone = d.mem.farInitDone :=
  ⟨foldl_keeps Dev.objs (fun d x => (upset_kept d x).1) us d, foldl_keeps (fun d => d.mem.bytes) (fun d x => (upset_kept d x).2.1) us d,
    foldl_keeps (fun d => d.mem.scrub) (fun d x => (upset_kept d x).2.2.1) us d,
    foldl_keeps (fun d => d.mem.farInitDone) (fun d x => (upset_kept d x).2.2.2) us d⟩

section
variable (d : Dev) (u : Nat)

/-- A scrubber runs: of near memory while its interval is not 0, of far memory once that has been initialised as well. -/
def scrubRuns : Prop :=
  (u < 4 ∧ cfg d 0xD820 0 ≠ 0) ∨ (16 ≤ u ∧ u < 32 ∧ cfg d 0xD821 0 ≠ 0 ∧ d.mem.farInitDone = true)

/-- The device without the wrong bits of the words `ws`. -/
def mended (ws : List Nat) : Dev := { d with mem := { d.mem with ce := d.mem.ce.filter (fun w => !ws.contains w) } }

/-- The device once the words with one wrong bit of a scrubber's next line are mended and counted (R619, R621). -/
def scrubMended : Dev :=
  let fixed := ceIn d.mem (scrubAddr u (tget 0 d.mem.scrub u)) 256
  if fixed = [] then d
  else ceNote (bump (mended d fixed) 0xD824 0 fixed.length) (if u < 4 then 0x4802 else 0x4804) (if u < 4 then u else u - 16)
    (cfg d 0x8060 0) fixed.length

/-- Uncorrectable words are counted and reported (R622). -/
def scrubReported (e : Dev) (ws : List Nat) : Dev := ws.foldl (fun x w => raise (bump x 0xD825 0 1) 0x4D81 w 0) e

theorem ceNote_mem (c w l n : Nat) : (ceNote d c w l n).mem = d.mem := by
  simp only [ceNote]
  split
  · exact raise_mem _ _ _ _
  · rfl

theorem mended_nil : mended d [] = d := by simp [mended]

theorem scrubMended_of_none (h : ceIn d.mem (scrubAddr u (tget 0 d.mem.scrub u)) 256 = []) : scrubMended d u = d := if_pos h

theorem scrubMended_mem : (scrubMended d u).mem = (mended d (ceIn d.mem (scrubAddr u (tget 0 d.mem.scrub u)) 256)).mem := by
  by_cases h : ceIn d.mem (scrubAddr u (tget 0 d.mem.scrub u)) 256 = []
  · rw [scrubMended_of_none d u h, h, mended_nil]
  · rw [scrubMended, if_neg h, ceNote_mem, bump_mem]

theorem scrubReported_mem (e : Dev) (ws : List Nat) : (scrubReported e ws).mem = e.mem :=
  foldl_keeps Dev.mem (fun d _ => (raise_mem _ _ _ _).trans (bump_mem d _ _ _)) ws e

theorem scrubLine_of_stopped (h : ¬ scrubRuns d u) : scrubLine d u = d := by
  unfold scrubRuns at h
  unfold scrubLine
  extract_lets near far on k a fixed n d0 d1 d2 next d3
  refine if_pos ?_
  simp only [on, near, far]
  by_cases hu : u < 4
  · simp_all
  · by_cases hfar : 16 ≤ u ∧ u < 32 <;> simp_all

theorem scrubRuns_congr {d e : Dev} (hobjs : e.objs = d.objs) (hfar : e.mem.farInitDone = d.mem.farInitDone) (u : Nat) :
    scrubRuns e u ↔ scrubRuns d u := by
  rw [scrubRuns, cfg_congr hobjs, cfg_congr hobjs, hfar, scrubRuns]

/-- The device with a scrubber at line `n`. -/
def scrubAt (n : Nat) : Dev := { d with mem := { d.mem with scrub := tset d.mem.scrub u n } }

/-- What a running scrubber's line leaves, but for the scrubber's place. -/
def scrubbed : Dev := scrubReported (scrubMended d u) (ueIn d.mem (scrubAddr u (tget 0 d.mem.scrub u)) 256)

/-- A running scrubber mends and counts, reports, moves on, and at the end of its memory ends a pass. -/
theorem scrubLine_of_running (h : scrubRuns d u) : scrubLine d u =
    if tget 0 d.mem.scrub u + 1 = scrubLines u then scrubWrap (scrubAt (scrubbed d u) u 0) u
    else scrubAt (scrubbed d u) u (tget 0 d.mem.scrub u + 1) := by
  unfold scrubLine
  extract_lets near far on k a fixed n old d0 d1 d2 next kept d3
  have hon : on = true := by
    rcases h with ⟨hu, hc⟩ | ⟨hlo, hhi, hc, hf⟩
    · simp [on, near, hu, hc]
    · simp [on, near, far, hlo, hhi, hc, hf, show ¬ u < 4 by omega]
  have hd1 : d1 = scrubMended d u := by
    simp only [d1, n, scrubMended, List.length_eq_zero_iff, near, decide_eq_true_eq]
    rfl
  have hue : ueIn d1.mem a 256 = ueIn d.mem a 256 := by rw [hd1, scrubMended_mem]; rfl
  have hd2 : d2 = scrubbed d u := by
    have : d2 = scrubReported d1 (ueIn d.mem a 256) := congrArg (scrubReported d1) hue
    rw [this, hd1, scrubbed]
  have hd3 : d3 = scrubAt (scrubbed d u) u next := by rw [← hd2]; rfl
  rw [hon, hd3]
  by_cases hk : tget 0 d.mem.scrub u + 1 = scrubLines u
  · simp [next, k, hk]
  · simp [next, k, hk]

/-- The end of a pass counts it and touches the marks of the passes alone. -/
theorem scrubWrap_spec : let e := if u < 16 then bump d 0xD822 (u + 1) 1 else bump d 0xD823 (u - 15) 1
    (∃ t, (scrubWrap d u).mem = { d.mem with scrubPass := t }) ∧
      ∀ i k, k < 256 → i ≠ 0x1124 → cfg (scrubWrap d u) i k = cfg e i k := by
  intro e
  unfold scrubWrap
  extract_lets near d1 t
  have hd1 : d1 = e := by simp only [d1, e, near, decide_eq_true_eq]
  have hmem (x : Tab Nat) : ({ d1.mem with scrubPass := x } : Mem) = { d.mem with scrubPass := x } := by
    rw [hd1]; simp only [e]; split <;> rfl
  split
  · exact ⟨⟨_, (raise_mem _ _ _ _).trans (hmem _)⟩, fun i k hk hi => (cfg_raise_idx _ _ _ _ _ _ hk hi).trans (by rw [← hd1]; rfl)⟩
  · exact ⟨⟨_, hmem _⟩, fun i k _ _ => by rw [← hd1]; rfl⟩

/-- A row that no report of a scrubber touches. -/
theorem cfg_scrubbed {i k : Nat} (hk : k < 256) (hi : 0xD820 ≤ i ∧ i < 0xD824) : cfg (scrubbed d u) i k = cfg d i k := by
  have hmended : cfg (scrubMended d u) i k = cfg d i k := by
    by_cases h : ceIn d.mem (scrubAddr u (tget 0 d.mem.scrub u)) 256 = []
    · rw [scrubMended_of_none d u h]
    · rw [scrubMended, if_neg h, cfg_ceNote (besideCounts_of_idx hk (by omega) (by omega)),
        cfg_bump_idx _ _ _ _ _ _ (by decide) hk (by omega)]
      rfl
  rw [← hmended]
  exact foldl_keeps (fun d => cfg d i k) (fun d w => (cfg_raise_idx _ _ _ _ _ _ hk (by omega)).trans
    (cfg_bump_idx d _ _ _ _ _ (by decide) hk (by omega))) _ _

theorem scrubbed_mem : (scrubbed d u).mem = (mended d (ceIn d.mem (scrubAddr u (tget 0 d.mem.scrub u)) 256)).mem :=
  (scrubReported_mem _ _).trans (scrubMended_mem d u)

/-- A count of 32 bits below its limit moves on. -/
theorem cfg_bump_below {i k n : Nat} (hbytes : objBytes i = 4) (h : cfg d i k + n < 2 ^ 32) : cfg (bump d i k n) i k = cfg d i k + n := by
  rw [bump, cfg_setObj_same, hbytes, satAdd]
  omega

theorem objBytes_nearPasses : objBytes 0xD822 = 4 := rfl
theorem objBytes_farPasses : objBytes 0xD823 = 4 := rfl

/-- What the end of a pass leaves (R623). -/
theorem scrubLine_of_wrap (h : scrubRuns d u) (hk : tget 0 d.mem.scrub u + 1 = scrubLines u) :
    tget 0 (scrubLine d u).mem.scrub u = 0 ∧ (scrubLine d u).mem.bytes = d.mem.bytes ∧ (scrubLine d u).mem.ue = d.mem.ue ∧
      (scrubLine d u).mem.ce = (mended d (ceIn d.mem (scrubAddr u (tget 0 d.mem.scrub u)) 256)).mem.ce ∧
      (u < 4 → cfg d 0xD822 (u + 1) + 1 < 2 ^ 32 → cfg (scrubLine d u) 0xD822 (u + 1) = cfg d 0xD822 (u + 1) + 1) ∧
      (16 ≤ u → cfg d 0xD823 (u - 15) + 1 < 2 ^ 32 → cfg (scrubLine d u) 0xD823 (u - 15) = cfg d 0xD823 (u - 15) + 1) := by
  rw [scrubLine_of_running d u h, if_pos hk]
  obtain ⟨⟨t, hmem⟩, hcfg⟩ := scrubWrap_spec (scrubAt (scrubbed d u) u 0) u
  have hrow (i k : Nat) (hk : k < 256) (hi : 0xD820 ≤ i ∧ i < 0xD824) : cfg (scrubAt (scrubbed d u) u 0) i k = cfg d i k :=
    cfg_scrubbed d u hk hi
  rw [hmem]
  have hold := scrubbed_mem d u
  refine ⟨tget_tset_same _ _ _ _, (congrArg Mem.bytes hold :), (congrArg Mem.ue hold :), (congrArg Mem.ce hold :), fun hu hlt => ?_,
    fun hu hlt => ?_⟩
  · have := hrow 0xD822 (u + 1) (by omega) (by decide)
    rw [hcfg _ _ (by omega) (by decide), if_pos (by omega), cfg_bump_below _ objBytes_nearPasses (by omega), this]
  · have hhi : u < 32 := by rcases h with h | h <;> omega
    have := hrow 0xD823 (u - 15) (by omega) (by decide)
    rw [hcfg _ _ (by omega) (by decide), if_neg (by omega), cfg_bump_below _ objBytes_farPasses (by omega), this]

end

/-! ### The end of a scan (R630, R631) -/

section
variable {d : Dev} {u a n : Nat}

/-- The device with a unit whose scan has ended. -/
def scanOver (d : Dev) (u : Nat) : Dev := setCv d u { cvAt d u with scan := none }

/-- The device with the first `m` bytes of a scanned range read and folded. -/
def scanFolded (d : Dev) (u a m : Nat) : Dev := cvTake (scanRead (scanOver d u) a m).2 u (scanRead (scanOver d u) a m).1

theorem cvScanDone_of_clean (h : (cvAt d u).scan = some (a, n)) (hue : ueIn d.mem a n = []) :
    cvScanDone d u = send (scanFolded d u a n) (.done 0xD807 u 0) := by
  rw [cvScanDone, h]
  dsimp only
  rw [firstUe_of_none hue]
  rfl

/-- A unit that has met the uncorrectable word `w` has ERR set, and the word is reported (R631). -/
def scanStopped (d : Dev) (u w : Nat) : Dev := raise (noteUe (setCv d u { cvAt d u with err := true }) 64 [w]) 0x8D83 u w

theorem scanStopped_frame (d : Dev) (u w : Nat) : cvAt (scanStopped d u w) u = { cvAt d u with err := true } ∧
    (scanStopped d u w).mem = d.mem := by
  obtain ⟨_, _, _, _, _, h⟩ := noteUe_faults (setCv d u { cvAt d u with err := true }) 64 [w]
  have hcv : (scanStopped d u w).cv = (setCv d u { cvAt d u with err := true }).cv :=
    (raise_cv _ _ _ _).trans (congrArg Dev.cv h :)
  exact ⟨(cvAt_congr hcv u).trans (cvAt_setCv_same d u _), (raise_mem _ _ _ _).trans (congrArg Dev.mem h :)⟩

theorem scanStopped_logged (d : Dev) (u w : Nat) : Logged (scanStopped d u w) 0x8D83 u w := raise_logged _ _ _ _

theorem cvScanDone_of_ue {w : Nat} (h : (cvAt d u).scan = some (a, n)) (hue : firstUe d.mem a n = some w) :
    cvScanDone d u = send (scanStopped (scanFolded d u a (w - a)) u w) (.done 0xD807 u 6) := by
  rw [cvScanDone, h]
  dsimp only
  rw [hue]
  rfl

/-- A folded range, in the words of the unit before the scan ended. -/
theorem scanFolded_spec (d : Dev) (u a m : Nat) : ∃ k, cvAt (scanFolded d u a m) u = { cvAt d u with
      scan := none
      run := crcBytes (polyOf (fld (cfg d 0xD802 (u + 1)) 31 30)) (cvAt d u).run
        ((List.range m).map (fun i => scanByte d k (a + i)))
      count := ((cvAt d u).count + m) % 2 ^ 40 } ∧ (scanFolded d u a m).mem.bytes = d.mem.bytes := by
  obtain ⟨hcv, hbytes, -, hpoly⟩ := scanRead_frame (scanOver d u) u a m
  have hunit : cvAt (scanRead (scanOver d u) a m).2 u = { cvAt d u with scan := none } :=
    (cvAt_congr hcv u).trans (cvAt_setCv_same d u _)
  refine ⟨(nextFree (noteCorrects (noteRemote (cacheLines (scanOver d u) a m 0 false) 0 a m) a m)).1, ?_, hbytes⟩
  have hlen : (scanRead (scanOver d u) a m).1.length = m := by simp [scanRead]
  rw [scanFolded, cvTake, cvAt_setCv_same, hunit, hpoly, hlen]
  rfl

end

section
variable {d : Dev} {u a n : Nat}

/-- A scan that meets no uncorrectable word has folded its whole range. -/
theorem cvScanDone_clean (h : (cvAt d u).scan = some (a, n)) (hue : ueIn d.mem a n = []) : ∃ k, let e := cvScanDone d u
    cvAt e u = { cvAt d u with
      scan := none
      run := crcBytes (polyOf (fld (cfg d 0xD802 (u + 1)) 31 30)) (cvAt d u).run
        ((List.range n).map (fun i => scanByte d k (a + i)))
      count := ((cvAt d u).count + n) % 2 ^ 40 } ∧
    e.mem.bytes = d.mem.bytes ∧ e.out.getLast? = some (.done 0xD807 u 0) := by
  obtain ⟨k, hunit, hbytes⟩ := scanFolded_spec d u a n
  rw [cvScanDone_of_clean h hue]
  exact ⟨k, (cvAt_send _ _ _).trans hunit, hbytes, List.getLast?_concat⟩

/-- A scan stops at the lowest uncorrectable word `w`. -/
theorem cvScanDone_stopped {w : Nat} (h : (cvAt d u).scan = some (a, n)) (hw : w ∈ ueIn d.mem a n) (hle : ∀ y ∈ ueIn d.mem a n, w ≤ y) :
    ∃ k, let e := cvScanDone d u
    cvAt e u = { cvAt d u with
      scan := none
      run := crcBytes (polyOf (fld (cfg d 0xD802 (u + 1)) 31 30)) (cvAt d u).run
        ((List.range (w - a)).map (fun i => scanByte d k (a + i)))
      count := ((cvAt d u).count + (w - a)) % 2 ^ 40
      err := true } ∧
    e.mem.bytes = d.mem.bytes ∧ e.out.getLast? = some (.done 0xD807 u 6) ∧ Logged e 0x8D83 u w := by
  obtain ⟨k, hunit, hbytes⟩ := scanFolded_spec d u a (w - a)
  obtain ⟨hcv, hmem⟩ := scanStopped_frame (scanFolded d u a (w - a)) u w
  rw [cvScanDone_of_ue h (firstUe_of_lowest hw hle)]
  rw [hunit] at hcv
  exact ⟨k, (cvAt_send _ _ _).trans hcv, (congrArg Mem.bytes hmem).trans hbytes, List.getLast?_concat, (Logged_send _ _ _ _ _).2 (scanStopped_logged _ _ _)⟩

end

section
variable {u : Nat} (b0 b1 b2 b3 : Byte)

/-- The fields of the feed registers (R629). -/
theorem feed8_fields (hu : u < 8) : let v := u * 2 ^ 8 + b0.toNat
    fld v 15 8 = u ∧ leBytes 1 (fld v 7 0) = [b0] := by
  intro v
  have := b0.isLt
  simp only [fld, Nat.shiftRight_eq_div_pow, leBytes, v]
  exact ⟨by omega, by rw [bytes_of_mod (b := b0) (by omega)]⟩

theorem feed16_fields (hu : u < 8) : let v := u * 2 ^ 24 + b1.toNat * 2 ^ 8 + b0.toNat
    fld v 31 24 = u ∧ fld v 23 16 = 0 ∧ leBytes 2 (fld v 15 0) = [b0, b1] := by
  intro v
  have := b0.isLt
  have := b1.isLt
  simp only [fld, Nat.shiftRight_eq_div_pow, leBytes, v]
  exact ⟨by omega, by omega, by rw [bytes_of_mod (b := b0) (by omega), bytes_of_mod (b := b1) (by omega)]⟩

theorem feed32_fields (hu : u < 8) : let v := u * 2 ^ 56 + b3.toNat * 2 ^ 24 + b2.toNat * 2 ^ 16 + b1.toNat * 2 ^ 8 + b0.toNat
    fld v 63 56 = u ∧ fld v 55 32 = 0 ∧ leBytes 4 (fld v 31 0) = [b0, b1, b2, b3] := by
  intro v
  have := b0.isLt
  have := b1.isLt
  have := b2.isLt
  have := b3.isLt
  simp only [fld, Nat.shiftRight_eq_div_pow, leBytes, v]
  exact ⟨by omega, by omega, by rw [bytes_of_mod (b := b0) (by omega), bytes_of_mod (b := b1) (by omega),
    bytes_of_mod (b := b2) (by omega), bytes_of_mod (b := b3) (by omega)]⟩

end

section
variable (d : Dev) (u : Nat)

theorem cvFinish_of_busy (hu : u < 8) (h : (cvAt d u).scan ≠ none) : cvFinish d u = send d (.status 0xD808 0 6) := by
  rw [cvFinish, if_neg (by omega)]
  exact if_pos (isSome_of_ne_none h)

/-- The unit and the value a finish leaves (R632, R636). -/
theorem cvFinish_of_idle (hu : u < 8) (h : (cvAt d u).scan = none) : let x := cvAt d u
    let p := polyOf (cvPoly d u)
    let v := crcBytes p x.run (if cvFold d u = 1 then leBytes 8 x.foldAddr else if cvFold d u = 2 then leBytes 4 x.seq else []) ^^^ p.xorOut
    cvFinish d u = send ((List.range 8).foldl (cvCompare u v x.err) (setCv d u { x with
      run := p.init
      count := 0
      result := v * 2 ^ 64 + x.count * 2 ^ 24 + cvPoly d u * 2 ^ 22 + cvFold d u * 2 ^ 20 + (fld x.result 19 4 + 1) % 65536 * 2 ^ 4 +
        b2n x.err * 2 + 1
      seq := if cvFold d u = 2 then (x.seq + 1) % 2 ^ 32 else x.seq })) (.status 0xD808 0 0) := by
  intro x p v
  rw [cvFinish, if_neg (by omega)]
  exact if_neg (by simp [h])

end

/-- Settles O42: what strikes with a line comes first (log 99); a feed completes at once and MIS is cleared by writing 0 (log
21). -/
theorem integrityCommands : Obligations.IntegrityCommands := by
  refine ⟨?scrub, ?feed, ?feedRange, ?scan, ?scanDone, ?noScan, ?finish, ?load, ?channel⟩
  case scrub =>
    intro s u us hact running e k bad fixed mended' noted
    obtain ⟨(hobjs : e.objs = s.dev.objs), hbytes, hscrub, hfar⟩ := upsets_kept us s.dev
    have hruns : scrubRuns e u ↔ running := scrubRuns_congr hobjs hfar u
    have hk : tget 0 e.mem.scrub u = k := congrArg (fun t => tget 0 t u) hscrub
    have hnoted : scrubMended e u = noted := by rw [scrubMended, hk, cfg_congr hobjs]; rfl
    have hline : scrubAt (scrubbed e u) u (k + 1) = scrubAt (scrubReported noted bad) u (k + 1) := by
      rw [scrubbed, hnoted, hk]
    rw [exec_scrubLine, onUnit_acting _ _ hact]
    refine ⟨fun h => ?_, fun h hn => ?_, fun h hn => ?_, hbytes⟩
    · exact congrArg (after s) (scrubLine_of_stopped e u (mt hruns.1 h))
    · refine congrArg (after s) ((scrubLine_of_running e u (hruns.2 h)).trans ?_)
      rw [hk, if_neg hn]
      exact hline
    · rw [← hk] at hn
      obtain ⟨hplace, hb, hue, hce, hnear, hfar⟩ := scrubLine_of_wrap e u (hruns.2 h) hn
      simp only [cfg_congr hobjs] at hnear hfar
      rw [hk] at hce
      exact ⟨_, rfl, hplace, hb.trans hbytes, hue, hce, hnear, hfar⟩
  case feed =>
    intro s u hact hu fed reply
    refine ⟨fun b0 h => ?_, fun b0 b1 h => ?_, fun b0 b1 b2 b3 h => ?_⟩
    · obtain ⟨hunit, hbytes⟩ := feed8_fields b0 hu
      rw [exec_cvFeed8, onObject_serving ⟨hact, h⟩, cvFeed8, hunit, cvFeed_of_unit _ _ _ _ _ hu, hbytes, after_ite]
      rfl
    · obtain ⟨hunit, hspare, hbytes⟩ := feed16_fields b0 b1 hu
      rw [exec_cvFeed16, onObject_serving ⟨hact, h⟩, cvFeed16, hunit, hspare, bne_self_eq_false, cvFeed_of_unit _ _ _ _ _ hu, hbytes, after_ite]
      rfl
    · obtain ⟨hunit, hspare, hbytes⟩ := feed32_fields b0 b1 b2 b3 hu
      rw [exec_cvFeed32, onObject_serving ⟨hact, h⟩, cvFeed32, hunit, hspare, bne_self_eq_false, cvFeed_of_unit _ _ _ _ _ hu, hbytes, after_ite]
      rfl
  case feedRange =>
    intro s v hact
    refine ⟨fun h hv => ?_, fun h hv => ?_, fun h hv => ?_⟩
    · rw [exec_cvFeed8, onObject_serving ⟨hact, h⟩, cvFeed8, cvFeed_of_range _ _ _ _ _ (.inl hv)]
    · rw [exec_cvFeed16, onObject_serving ⟨hact, h⟩, cvFeed16, cvFeed_of_range _ _ _ _ _ (hv.imp_right bne_iff_ne.2)]
    · rw [exec_cvFeed32, onObject_serving ⟨hact, h⟩, cvFeed32, cvFeed_of_range _ _ _ _ _ (hv.imp_right bne_iff_ne.2)]
  case scan =>
    intro s r hs u a n good
    have hgood : good ↔ ¬ (fld r 124 112 ≠ 0 ∨ fld r 31 0 ≠ 0 ∨ n = 0 ∨ (!scanOk s.dev a n) = true) := by
      simp only [good, not_or, not_not, Bool.not_eq_true', Bool.not_eq_false]
    rw [exec_cvScan, onObject_serving hs, cvScan]
    refine ⟨fun h hscan => ?_, fun h hscan => ?_, fun h => ?_⟩
    · rw [if_neg (hgood.1 h)]
      dsimp only
      rw [if_neg (by simp [hscan, u])]
    · rw [if_neg (hgood.1 h)]
      dsimp only
      rw [if_pos (isSome_of_ne_none hscan)]
    · rw [if_pos (by_contra (mt hgood.2 h))]
  case scanDone =>
    intro s u a n hact hscan x folded bytes
    rw [exec_cvScanDone, onUnit_acting _ _ hact]
    refine ⟨fun hue => ?_, fun w hw hle => ?_⟩
    · obtain ⟨k, hunit, hbytes, hout⟩ := cvScanDone_clean hscan hue
      refine ⟨k, _, rfl, ?_⟩
      generalize cvScanDone s.dev u = d at *
      rw [hunit]
      exact ⟨rfl, rfl, rfl, rfl, hbytes, hout⟩
    · obtain ⟨k, hunit, hbytes, hout, hlog⟩ := cvScanDone_stopped hscan hw hle
      refine ⟨k, _, rfl, ?_⟩
      generalize cvScanDone s.dev u = d at *
      rw [hunit]
      exact ⟨rfl, rfl, rfl, rfl, hbytes, hout, hlog⟩
  case noScan =>
    intro s u hact hscan
    rw [exec_cvScanDone, onUnit_acting _ _ hact, cvScanDone, hscan]
  case finish =>
    intro s u hs x p fold v
    rw [exec_cvFinish, onObject_serving hs]
    refine ⟨fun hu => by rw [cvFinish, if_pos hu], fun hu hscan => by rw [cvFinish_of_busy _ _ hu hscan], fun hu hscan => ?_⟩
    refine ⟨_, congrArg (after s) (cvFinish_of_idle s.dev u hu hscan), ?_⟩
    obtain ⟨hunits, hmem, hseq, hch⟩ := cvCompare_fold (u := u) (v := v) (err := x.err) (setCv s.dev u { x with
      run := p.init
      count := 0
      result := v * 2 ^ 64 + x.count * 2 ^ 24 + cvPoly s.dev u * 2 ^ 22 + fold * 2 ^ 20 + (fld x.result 19 4 + 1) % 65536 * 2 ^ 4 +
        b2n x.err * 2 + 1
      seq := if fold = 2 then (x.seq + 1) % 2 ^ 32 else x.seq })
    have hunit := (congrArg (fun t => tget cvUnitReset t u) hunits).trans (cvAt_setCv_same s.dev u _)
    refine ⟨(congrArg CvUnit.run hunit :), (congrArg CvUnit.count hunit :), (congrArg CvUnit.seq hunit :), (congrArg CvUnit.result hunit :),
      fun ch hlt hen hof hne => ?_, fun ch h => ?_, hmem, hseq⟩
    · refine (congrArg (fun r => bitAt r 126) ((hch ch).trans (if_pos hlt))).trans (compared_of_mismatch hen hof hne)
    · refine (hch ch).trans ?_
      split
      · exact compared_of_match h
      · rfl
  case load =>
    intro s u v hs
    rw [exec_cvStateLoad, onObject_serving hs, cvStateLoad]
    refine ⟨fun hu => ?_, fun hu hscan => ?_, fun hu hscan => ?_⟩
    · rw [if_pos hu]
    · rw [if_neg (by omega), if_pos (isSome_of_ne_none hscan)]
    · rw [if_neg (by omega), if_neg (by simp [hscan])]
      rfl
  case channel =>
    intro s ch v hact
    rw [exec_cvCompareSet, onUnit_acting _ _ hact, cvCompareSet]
    refine ⟨fun hch => ⟨_, congrArg (after s) (if_neg (by omega)), cvCompareSet_row _ _⟩, fun hch => by rw [if_pos hch]⟩
end Sys2Proof.Machine

/-! The security block (chapter 24): keys and the rollback floor, image updates, attestation, and the debug port. -/

namespace Sys2Proof.Machine

/-! ### Bytes of an image region (R643, R651) -/

theorem tfind_foldl_tset (es : List (Nat × Byte)) (t : Tab Byte) (x : Nat) :
    tfind (es.foldl (fun t e => tset t e.1 e.2) t) x = (lastFor es x).or (tfind t x) := by
  induction es generalizing t with
  | nil => simp [lastFor]
  | cons e es ih =>
    rw [List.foldl_cons, ih, lastFor_cons]
    by_cases h : e.1 = x
    · subst h; cases lastFor es e.1 <;> simp
    · rw [tfind_tset_ne _ _ _ _ h, if_neg h]; cases lastFor es x <;> simp

/-- Some byte of the range has been programmed. -/
theorem any_programmed (t : Tab Byte) (off : Nat) (data : List Byte) :
    (addrBytes off data).any (fun e => (tfind t e.1).isSome) = true ↔ ¬ ∀ k < data.length, tfind t (off + k) = none := by
  induction data generalizing off with
  | nil => simp [addrBytes]
  | cons b bs ih =>
    rw [addrBytes, List.any_cons, Bool.or_eq_true, ih, List.length_cons, Nat.forall_lt_succ_left', not_and_or]
    simp only [Nat.add_zero, Nat.add_assoc, Nat.add_comm 1, Option.isSome_iff_ne_none, ne_eq]

section
variable (d : Dev) {i : Nat} (t : Tab Byte)

theorem imgOf_setImg_same (hi : i < 2) : imgOf (setImg d i t) i = t := by
  interval_cases i <;> rfl

theorem imgOf_setImg_other (hi : i < 2) : imgOf (setImg d i t) (1 - i) = imgOf d (1 - i) := by
  interval_cases i <;> rfl

theorem setImg_ops : (setImg d i t).sec.ops = d.sec.ops := by
  simp only [setImg, setSec]
  split <;> rfl

end

/-- What a programmed range leaves of each byte. -/
theorem tfind_program (t : Tab Byte) (off : Nat) (data : List Byte) (k : Nat) :
    tfind ((addrBytes off data).foldl (fun t e => tset t e.1 e.2) t) k =
      if off ≤ k ∧ k < off + data.length then some (data.getD (k - off) 0) else tfind t k := by
  rw [tfind_foldl_tset, lastFor_addrBytes]
  split <;> simp

/-! ### Image updates (R651) -/

section
variable (d : Dev)

/-- The region an operation needs is the running image's, or another operation holds it. -/
def regionBusy (o : FlashOp) : Bool := regionRunning d (opRegion o) || d.sec.ops.any (fun p => opRegion p == opRegion o)

theorem flashTake_of_free {o : FlashOp} (h : regionBusy d o = false) :
    flashTake d o = send (setSec d { d.sec with ops := d.sec.ops ++ [o] }) (.status (opIdx o) 0 1) := if_neg (by simpa [regionBusy] using h)

theorem flashTake_of_busy {o : FlashOp} (h : regionBusy d o = true) : flashTake d o = send d (.status (opIdx o) 0 6) := if_pos h

/-- The fields of a written SecFlashWrite. -/
theorem flashWrite_eq (image r0 r1 r2 o0 o1 o2 o3 : Byte) (data : List Byte) :
    flashWrite d ([image, r0, r1, r2, o0, o1, o2, o3] ++ data) =
      if data.length < 8 ∨ 4088 < data.length ∨ data.length % 8 ≠ 0 then send d (.status 0xD014 0 4)
      else if 2 ≤ image.toNat ∨ leVal [r0, r1, r2] ≠ 0 ∨ 0x4000000 < leVal [o0, o1, o2, o3] + data.length then
        send d (.status 0xD014 0 5)
      else if (addrBytes (leVal [o0, o1, o2, o3]) data).any (fun e => (tfind (imgOf d image.toNat) e.1).isSome) then
        send d (.status 0xD014 0 6)
      else flashTake d (.program image.toNat (leVal [o0, o1, o2, o3]) data) := rfl

/-- The operation that holds a region ends. -/
theorem flashOperationDone_of_op {r : Nat} {o : FlashOp} (ok : Bool) (h : d.sec.ops.find? (fun p => opRegion p == r) = some o) :
    let e := flashEffect (setSec d { d.sec with ops := d.sec.ops.filter (fun p => opRegion p != r) }) ok o
    flashOperationDone d r ok = send e.2 (.done (opIdx o) r (if e.1 then 0 else 6)) := by
  rw [flashOperationDone, h]

/-- Erasing, programming and writing the boot record fail without effect. -/
theorem flashEffect_failed {o : FlashOp} (h : ∀ p, o ≠ .verify p) : flashEffect d false o = (false, d) := by
  cases o with
  | verify p => exact absurd rfl (h p)
  | _ => rfl

/-- The older copy of the boot record. -/
theorem writeRecord_eq (i : Nat) :
    let s0 := (d.sec.rec0.map Prod.fst).getD 0
    let s1 := (d.sec.rec1.map Prod.fst).getD 0
    let r := some ((max s0 s1 + 1) % 2 ^ 32, i)
    writeRecord d i = setSec d (if d.sec.rec0 = none ∨ (d.sec.rec1 ≠ none ∧ s0 < s1) then { d.sec with rec0 := r }
      else { d.sec with rec1 := r }) := by
  intro s0 s1 r
  have : (d.sec.rec0.isNone || (d.sec.rec1.isSome && decide (s0 < s1))) = true ↔
      d.sec.rec0 = none ∨ (d.sec.rec1 ≠ none ∧ s0 < s1) := by
    simp [Option.isSome_iff_ne_none]
  unfold writeRecord
  simp only [this, s0, s1, r]

end

/-! ### Attestation (R654) -/

/-- A field of `w` bits at `lo`, with a multiple of `2 ^ (lo + w)` above it and less than `2 ^ lo` below. -/
theorem fld_of_parts {a l lo w hi x : Nat} (hhi : hi + 1 - lo = w) (ha : 2 ^ (lo + w) ∣ a) (hl : l < 2 ^ lo) (hx : x < 2 ^ w) :
    fld (a + x * 2 ^ lo + l) hi lo = x := by
  obtain ⟨k, rfl⟩ := ha
  rw [fld, hhi, Nat.shiftRight_eq_div_pow, show 2 ^ (lo + w) * k + x * 2 ^ lo + l = l + 2 ^ lo * (x + 2 ^ w * k) by ring,
    Nat.add_mul_div_left _ _ (by positivity), Nat.div_eq_of_lt hl, Nat.zero_add, Nat.add_mul_mod_self_left, Nat.mod_eq_of_lt hx]

/-- A number of `w` bits at `lo` is below `2 ^ (lo + w)`, with anything below `2 ^ lo` added. -/
theorem place_lt {x l lo w : Nat} (hx : x < 2 ^ w) (hl : l < 2 ^ lo) : x * 2 ^ lo + l < 2 ^ (w + lo) := by
  calc x * 2 ^ lo + l < (x + 1) * 2 ^ lo := by linarith
    _ ≤ 2 ^ w * 2 ^ lo := Nat.mul_le_mul_right _ hx
    _ = 2 ^ (w + lo) := (Nat.pow_add _ _ _).symm

section
variable (d : Dev) (n : Nat)

/-- The fields of a report above its nonce. -/
def reportAbove : Nat :=
  0x48534154 * 2 ^ 2016 + 1 * 2 ^ 2008 + cfg d 0x1004 0 * 2 ^ 2000 + cfg d 0x1007 0 * 2 ^ 1992 +
    (b2n (bitAt (cfg d 0xD010 0) 28) * 2 ^ 7 + cfg d 0xD050 0 % 2 * 2 ^ 6) * 2 ^ 1984 + cfg d 0x1006 0 * 2 ^ 1952 + d.sec.svn * 2 ^ 1920 +
    cfg d 0xD020 0 * 2 ^ 1888 + d.gn.current * 2 ^ 1856 + recsDigest (genValues d) * 2 ^ 1792 + d.ptp * 2 ^ 1728

/-- The fields of a report below its nonce. -/
def reportBelow : Nat :=
  d.sec.meas % 2 ^ 256 * 2 ^ 1216 + (cfg d 0x1008 0 * 2 ^ 960 + Config.sha256 (leBytes 64 (cfg d 0xD030 0)) % 2 ^ 256 * 2 ^ 704)

theorem reportHead_eq : reportHead d n = reportAbove d + n % 2 ^ 256 * 2 ^ 1472 + reportBelow d := by
  have hassoc (a b c e f : Nat) : a + b + c + e + f = a + b + (c + (e + f)) := by omega
  exact hassoc _ _ _ _ _

theorem reportAbove_dvd : 2 ^ 1728 ∣ reportAbove d := by
  have hterm (x k : Nat) (h : 1728 ≤ k) : 2 ^ 1728 ∣ x * 2 ^ k := Dvd.dvd.mul_left (pow_dvd_pow 2 h) x
  unfold reportAbove
  iterate 10 refine Nat.dvd_add ?_ (hterm _ _ (by decide))
  exact hterm _ _ (by decide)

variable {g : Nat} (hg : g < 2 ^ 512)
include hg

/-- A signed report holds its nonce (R654). -/
theorem report_nonce (hhash : cfg d 0x1008 0 < 2 ^ 256) : fld (reportHead d n + g) 1727 1472 = n % 2 ^ 256 := by
  have hlow : Config.sha256 (leBytes 64 (cfg d 0xD030 0)) % 2 ^ 256 * 2 ^ 704 + g < 2 ^ (256 + 704) :=
    place_lt (Nat.mod_lt _ (by positivity)) (Nat.lt_of_lt_of_le hg (Nat.pow_le_pow_right Nat.two_pos (by decide)))
  have hbelow : reportBelow d + g < 2 ^ (256 + 1216) := by
    rw [reportBelow, Nat.add_assoc, Nat.add_assoc]
    exact place_lt (Nat.mod_lt _ (by positivity)) (place_lt hhash hlow)
  rw [reportHead_eq, Nat.add_assoc]
  exact fld_of_parts rfl (reportAbove_dvd d) hbelow (Nat.mod_lt _ (by positivity))

/-- A report ends in its signature. -/
theorem report_sig : fld (reportHead d n + g) 511 0 = g := by
  have hhead : 2 ^ 512 ∣ reportHead d n := by
    rw [reportHead_eq, reportBelow]
    refine Nat.dvd_add (Nat.dvd_add ((pow_dvd_pow 2 (by decide)).trans (reportAbove_dvd d)) ?_) (Nat.dvd_add ?_ (Nat.dvd_add ?_ ?_)) <;>
      exact Dvd.dvd.mul_left (pow_dvd_pow 2 (by decide)) _
  obtain ⟨k, hk⟩ := hhead
  rw [fld, hk, Nat.shiftRight_zero, Nat.mul_add_mod, Nat.mod_eq_of_lt hg]

end

/-- Settles O44: revoking, fusing and signing complete at once and the hash and the signature are opaque (log 22); a flash
operation takes effect when it is done (log 64). -/
theorem securityCommands : Obligations.SecurityCommands := by
  refine ⟨?revoke, ?rollback, ?take, ?write, ?done, ?nothing, ?attest, ?debug⟩
  case revoke =>
    intro s k hs r barred
    have hbarred : ((!inRecovery s.dev && s.dev.sec.keyIdx == k) || r == 15) = true ↔ barred := by simp [barred]
    rw [exec_revokeKey, onObject_serving hs, revokeKey]
    refine ⟨fun hk hb => ?_, fun hk hb => ?_, fun hk => by rw [if_pos hk]⟩
    · rw [if_neg (by omega), if_neg (mt hbarred.1 hb)]
    · rw [if_neg (by omega), if_pos (hbarred.2 hb)]
  case rollback =>
    intro s v good hs f
    rw [exec_rollbackCommit, onObject_serving hs, rollbackCommit]
    refine ⟨fun h => ?_, fun h1 h2 => ?_, fun h1 h2 h3 => ?_, fun h1 h2 h3 h4 => ?_, fun h1 h2 h3 h4 => ?_⟩
    · rw [if_pos h]
    · rw [if_neg (by omega), if_pos h2]
    · rw [if_neg (by omega), if_neg (by omega), if_pos h3]
    · rw [if_neg (by omega), if_neg (by omega), if_neg (by omega), if_pos h4]
    · rw [if_neg (by omega), if_neg (by omega), if_neg (by omega), if_neg (by omega)]
  case take =>
    intro s i p hp hs busy
    have hexec : exec p.2 s = after s (if 2 ≤ i then send s.dev (.status (opIdx p.1) 0 5) else flashTake s.dev p.1) := by
      simp only [List.mem_cons, List.not_mem_nil, or_false] at hp
      obtain rfl | rfl | rfl := hp
      · exact congrArg (after s) (onObject_serving (idx := 0xD013) (sub := 0) hs _)
      · exact congrArg (after s) (onObject_serving (idx := 0xD015) (sub := 0) hs _)
      · exact congrArg (after s) (onObject_serving (idx := 0xD017) (sub := 0) hs _)
    rw [hexec]
    refine ⟨fun hi hb => ?_, fun hi hb => ?_, fun hi => by rw [if_pos hi]⟩
    · rw [if_neg (by omega), flashTake_of_free _ hb]
    · rw [if_neg (by omega), flashTake_of_busy _ hb]
  case write =>
    intro s image r0 r1 r2 o0 o1 o2 o3 data hs c i off sized placed erased busy
    have hbusy : busy = regionBusy s.dev (.program i off data) := rfl
    have herased := any_programmed (imgOf s.dev i) off data
    have hc : c = after s (flashWrite s.dev ([image, r0, r1, r2, o0, o1, o2, o3] ++ data)) := by
      rw [← onObject_serving hs (fun d => flashWrite d ([image, r0, r1, r2, o0, o1, o2, o3] ++ data))]; rfl
    have hw := flashWrite_eq s.dev image r0 r1 r2 o0 o1 o2 o3 data
    rw [hc, hw]
    refine ⟨fun h => ?_, fun h1 h2 => ?_, fun h1 h2 h => ?_, fun h1 h2 h3 hb => ?_⟩
    · rw [if_pos (by simp only [sized] at h; omega)]
    · rw [if_neg (by simp only [sized] at h1; omega), if_pos (by simp only [placed] at h2; omega)]
    · rw [if_neg (by simp only [sized] at h1; omega), if_neg (by simp only [placed] at h2; omega)]
      by_cases he : erased
      · rw [if_neg (mt herased.1 (not_not_intro he)), flashTake_of_busy _ (hbusy ▸ h.resolve_left (not_not_intro he))]
        rfl
      · rw [if_pos (herased.2 he)]
    · rw [if_neg (by simp only [sized] at h1; omega), if_neg (by simp only [placed] at h2; omega),
        if_neg (mt herased.1 (not_not_intro h3)), flashTake_of_free _ (hbusy ▸ hb)]
      rfl
  case done =>
    intro s o hheld hop left e
    have hdone (ok : Bool) := flashOperationDone_of_op s.dev ok hop
    have hexec (ok : Bool) : exec (.flashOperationDone (opRegion o) ok) s = after s (flashOperationDone s.dev (opRegion o) ok) := by
      rw [exec_flashOperationDone, onMgmt_acting _ _ hheld]
    refine ⟨fun ho => ?_, fun i ho hi => ?_, fun i off data ho hi => ?_, fun i ok ho => ?_, fun i ho => ?_⟩
    · rw [hexec, hdone, flashEffect_failed _ ho]
      rfl
    · subst ho
      refine ⟨_, (hexec true).trans (congrArg (after s) (hdone true)), setImg_ops _ _, imgOf_setImg_same _ _ hi,
        imgOf_setImg_other _ _ hi, List.getLast?_concat⟩
    · subst ho
      refine ⟨_, (hexec true).trans (congrArg (after s) (hdone true)), setImg_ops _ _, imgOf_setImg_other _ _ hi, fun k hk => ?_,
        fun k hk => ?_, List.getLast?_concat⟩
      · refine (congrArg (tfind · (off + k)) (imgOf_setImg_same _ _ hi)).trans ((tfind_program _ _ _ _).trans ?_)
        rw [if_pos (by omega), Nat.add_sub_cancel_left]
      · refine (congrArg (tfind · k) (imgOf_setImg_same _ _ hi)).trans ((tfind_program _ _ _ _).trans ?_)
        rw [if_neg (by omega)]
        rfl
    · subst ho
      intro c
      refine (hexec ok).trans (congrArg (after s) ((hdone ok).trans ?_))
      have hanswer : (if (c == 0) = true then 0 else 6) = if c = 0 then 0 else 6 := by simp only [beq_iff_eq]
      exact congrArg (send _) (congrArg (OutMsg.done 0xD015 i) hanswer)
    · subst ho
      intro s0 s1 r
      refine (hexec true).trans (congrArg (after s) ((hdone true).trans ?_))
      exact congrArg (fun d => send d (.done 0xD017 2 0)) (writeRecord_eq e i)
  case nothing =>
    intro s n ok hheld hop
    rw [exec_flashOperationDone, onMgmt_acting _ _ hheld, flashOperationDone, hop]
  case attest =>
    intro s n hs
    rw [exec_attestNonce, onObject_serving hs, attestNonce]
    refine ⟨fun h => ?_, fun h => by rw [if_pos h]⟩
    have hsig : (if cfg s.dev 0xD050 0 = 1 then 0
        else Config.aliasSign s.dev.sec.meas (leBytes 192 (reportHead s.dev n / 2 ^ 512)) % 2 ^ 512) < 2 ^ 512 := by
      split
      · positivity
      · exact Nat.mod_lt _ (by positivity)
    refine ⟨_, congrArg (after s) (if_neg h), ?_, ?_⟩
    · exact fun hhash => report_nonce s.dev n hsig hhash
    · exact report_sig s.dev n hsig
  case debug =>
    intro s k hheld
    have hexec (ok : Bool) : exec (.debugUnlock k ok) s = after s (debugUnlock s.dev k ok) := by
      rw [exec_debugUnlock, onMgmt_acting _ _ hheld]
    rw [hexec, hexec]
    refine ⟨fun hk hr => ?_, fun h => ?_, rfl⟩
    · rw [debugUnlock, if_pos (by simp [hk, hr])]
    · rw [debugUnlock, if_neg (by rcases h with h | h <;> simp [h])]

end Sys2Proof.Machine

/-! The tandem bridge (chapter 25): frames in SEQ and ORD order, acknowledgement and replay, the end of a retrain. -/

namespace Sys2Proof.Machine

/-! ### A direction and its bundles -/

section
variable (d : Dev) (dir : Nat) (x : BrDir) (b : Nat) (u : Bundle)

@[simp] theorem brDir_setBrDir_same : brDir (setBrDir d dir x) dir = x := by
  simp only [brDir, setBrDir]
  split <;> rfl

theorem brDir_setBrDir_peer {dir : Nat} (h : dir < 2) : brDir (setBrDir d (1 - dir) x) dir = brDir d dir := by
  interval_cases dir <;> rfl

theorem setBrDir_setBrDir (y : BrDir) : setBrDir (setBrDir d dir x) dir y = setBrDir d dir y := by
  simp only [setBrDir]
  split <;> rfl

theorem setBrDir_self : setBrDir d dir (brDir d dir) = d := by
  simp only [brDir, setBrDir]
  split <;> rfl

@[simp] theorem setBrDir_ev : (setBrDir d dir x).ev = d.ev := by simp only [setBrDir]; split <;> rfl
@[simp] theorem setBrDir_mem : (setBrDir d dir x).mem = d.mem := by simp only [setBrDir]; split <;> rfl
@[simp] theorem setBrDir_out : (setBrDir d dir x).out = d.out := by simp only [setBrDir]; split <;> rfl
@[simp] theorem cfg_setBrDir (i k : Nat) : cfg (setBrDir d dir x) i k = cfg d i k := cfg_congr (setBrDir_objs d dir x) i k

@[simp] theorem bundleAt_putBundle_same : bundleAt (putBundle x b u) b = u := tget_tset_same _ _ _ _

theorem bundleAt_putBundle_other {b c : Nat} (h : b ≠ c) : bundleAt (putBundle x b u) c = bundleAt x c := tget_tset_ne _ _ _ _ _ h

theorem brDir_congr {d e : Dev} (heast : e.east = d.east) (hwest : e.west = d.west) (dir : Nat) : brDir e dir = brDir d dir := by
  rw [brDir, heast, hwest, brDir]

@[simp] theorem brDir_raise (c y z : Nat) : brDir (raise d c y z) dir = brDir d dir :=
  brDir_congr (raise_east _ _ _ _) (raise_west _ _ _ _) dir

@[simp] theorem brDir_bump (i k n : Nat) : brDir (bump d i k n) dir = brDir d dir := rfl

@[simp] theorem brDir_brOut (b seq : Nat) (f : BrFrame) (o : Nat) : brDir (brOut d dir b seq f) o = brDir d o := rfl

end

/-! ### Frames in SEQ and ORD order (R667, R670, R671) -/

section
variable {d : Dev} {dir b seq ord : Nat} {body : BrBody} {ok : Bool}

/-- The device once the sending half has been seen to send a frame (log 23). -/
def frameSent (d : Dev) (dir b seq ord : Nat) (body : BrBody) : Dev := brSent d dir b seq { ord, body := sentBody body }

/-- The receiving direction with the SEQ it expects of a bundle moved on. -/
def seqTaken (x : BrDir) (b : Nat) : BrDir :=
  putBundle x b { bundleAt x b with expected := ((bundleAt x b).expected + 1) % 256, nak := false }

/-- How far a SEQ lies ahead of the one expected. -/
def seqAhead (x : BrDir) (b seq : Nat) : Nat := (seq + (256 - (bundleAt x b).expected)) % 256

theorem brArrive_of_down (h : bundleUp (brDir d dir) b = false) : brArrive d dir b seq ord body ok = d :=
  if_pos (by simp [h])

section
variable (hdir : dir < 2) (hup : bundleUp (brDir d dir) b = true) (hseq : seq < 256) (hord : ord < 4096)
include hdir hup hseq hord

theorem brArrive_of_up : let d1 := frameSent d dir b seq ord body
    let x := brDir d1 dir
    brArrive d dir b seq ord body ok =
      if ok = false ∨ seqAhead x b seq ≠ 0 then bump (setBrDir d1 dir (putBundle x b { bundleAt x b with
        nak := (bundleAt x b).nak || !ok || decide (seqAhead x b seq < 128) })) 0x8121 (dir + 1) 1
      else if isRepeat (seqTaken x b) { ord, body } then bump (setBrDir d1 dir (seqTaken x b)) 0x8124 (dir + 1) 1
      else brDeliver (x.held.length + 1) dir (bodyRsp body) (setBrDir d1 dir { seqTaken x b with held := x.held ++ [{ ord, body }] }) := by
  intro d1 x
  rw [brArrive, if_neg (by simp [hdir, hup]), Nat.mod_eq_of_lt hseq, Nat.mod_eq_of_lt hord]
  simp only [Bool.not_eq_true']
  rfl

end

/-- A frame of the class with the next ORD is held. -/
def nextHeld (x : BrDir) (rsp : Bool) (f : BrFrame) : Bool := bodyRsp f.body == rsp && f.ord == nextOrd x rsp

theorem brDeliver_of_gap (n : Nat) {rsp : Bool} (h : ∀ f ∈ (brDir d dir).held, nextHeld (brDir d dir) rsp f = false) :
    brDeliver n dir rsp d = d := by
  cases n with
  | zero => rfl
  | succ n =>
    have : (brDir d dir).held.find? (nextHeld (brDir d dir) rsp) = none := List.find?_eq_none.2 (fun f hf => by simp [h f hf])
    rw [brDeliver]
    change (match (brDir d dir).held.find? (nextHeld (brDir d dir) rsp) with | none => _ | some f => _) = d
    rw [this]

theorem brDeliver_succ (n : Nat) {rsp : Bool} {f : BrFrame} (h : (brDir d dir).held.find? (nextHeld (brDir d dir) rsp) = some f) :
    brDeliver (n + 1) dir rsp d = brDeliver n dir rsp (brPresent (setBrDir d dir
      (presented { brDir d dir with held := (brDir d dir).held.erase f } rsp)) dir f.body) := by
  rw [brDeliver]
  change (match (brDir d dir).held.find? (nextHeld (brDir d dir) rsp) with | none => _ | some f => _) = _
  rw [h]

/-- A frame that waits for its ORD is held (R667). -/
theorem brDeliver_held (e : Dev) (n : Nat) {y : BrDir} {f : BrFrame} (hord : f.ord ≠ nextOrd y (bodyRsp f.body))
    (hheld : ∀ g ∈ y.held, nextHeld y (bodyRsp f.body) g = false) :
    brDeliver n dir (bodyRsp f.body) (setBrDir e dir { y with held := y.held ++ [f] }) =
      setBrDir e dir { y with held := y.held ++ [f] } := by
  refine brDeliver_of_gap n ?_
  rw [brDir_setBrDir_same]
  intro g hg
  rcases List.mem_append.1 hg with h | h
  · exact hheld g h
  · rw [List.mem_singleton.1 h]
    simp [nextHeld, show nextOrd { y with held := y.held ++ [f] } = nextOrd y from rfl, hord]

/-- A frame with the next ORD is presented, and the held ones after it. -/
theorem brDeliver_presented (e : Dev) (n : Nat) {y : BrDir} {f : BrFrame} (hord : f.ord = nextOrd y (bodyRsp f.body))
    (hnew : isRepeat y f = false) :
    brDeliver (n + 1) dir (bodyRsp f.body) (setBrDir e dir { y with held := y.held ++ [f] }) =
      brDeliver n dir (bodyRsp f.body) (brPresent (setBrDir e dir (presented y (bodyRsp f.body))) dir f.body) := by
  have hheld : ∀ g ∈ y.held, nextHeld y (bodyRsp f.body) g = false := by
    have := (Bool.or_eq_false_iff.1 hnew).2
    intro g hg
    rw [nextHeld, ← hord]
    exact Bool.eq_false_iff.2 (fun h => by simpa [h] using List.any_eq_false.1 this g hg)
  have hfresh : f ∉ y.held := fun h => by simpa [nextHeld, hord] using hheld f h
  have hfind : (y.held ++ [f]).find? (nextHeld y (bodyRsp f.body)) = some f := by
    rw [List.find?_append, List.find?_eq_none.2 (fun g hg => by simp [hheld g hg])]
    simp [nextHeld, hord]
  rw [brDeliver_succ n (by rw [brDir_setBrDir_same]; exact hfind), brDir_setBrDir_same, setBrDir_setBrDir]
  have : (y.held ++ [f]).erase f = y.held := by rw [List.erase_append_right _ hfresh]; simp
  simp only [this]

end

/-! ### Dealing frames (R667, R668, R672) -/

section
variable {d : Dev} {dir c : Nat}

/-- What a bundle `c` and the rest of the device keep of a change in a direction. -/
def KeepsBundle (dir c : Nat) (d e : Dev) : Prop := bundleAt (brDir e dir) c = bundleAt (brDir d dir) c ∧ e.ev = d.ev

theorem brIssue_keeps {b : Nat} (f : BrFrame) (h : b ≠ c) : KeepsBundle dir c d (brIssue d dir b f) := by
  unfold brIssue
  dsimp only
  rw [KeepsBundle, brDir_bump, brDir_brOut, brDir_setBrDir_same]
  refine ⟨(bundleAt_putBundle_other _ _ h).trans ?_, setBrDir_ev _ _ _⟩
  unfold useCredit
  split <;> rfl

theorem bundlesLeft_congr {x y : BrDir} (h : x.bundles = y.bundles) : bundlesLeft x = bundlesLeft y := by
  simp only [bundlesLeft, bundleAt, h]

theorem dealTo_up {x : BrDir} {b : Nat} (h : dealTo x = some b) : bundleUp x b = true := by
  have := List.find?_some h
  simp only [Bool.and_eq_true] at this
  exact this.1

/-- Dealing frames leaves a bundle that is not up. -/
theorem brPump_keeps (n : Nat) (d : Dev) (h : bundleUp (brDir d dir) c = false) : KeepsBundle dir c d (brPump n dir d) := by
  induction n generalizing d with
  | zero => exact ⟨rfl, rfl⟩
  | succ n ih =>
    rw [brPump]
    split
    next f b hf hb =>
      have hne : b ≠ c := by
        rintro rfl
        rw [dealTo_up hb] at h
        cases h
      obtain ⟨hbundle, hev⟩ := brIssue_keeps (d := setBrDir d dir { brDir d dir with waiting := (brDir d dir).waiting.erase f }) f hne
      rw [brDir_setBrDir_same] at hbundle
      have hdown : bundleUp (brDir (brIssue (setBrDir d dir { brDir d dir with waiting := (brDir d dir).waiting.erase f }) dir b f) dir) c
          = false := by
        rw [bundleUp, hbundle]
        exact h
      obtain ⟨hbundle', hev'⟩ := ih _ hdown
      exact ⟨hbundle'.trans hbundle, hev'.trans (hev.trans (setBrDir_ev _ _ _))⟩
    · exact ⟨rfl, rfl⟩

theorem brDeal_keeps (h : bundleUp (brDir d dir) c = false) : KeepsBundle dir c d (brDeal d dir) := brPump_keeps _ d h

theorem brDeal_of_none (h : (brDir d dir).waiting = []) : brDeal d dir = d := by rw [brDeal, h]; rfl

end

/-! ### Acknowledgement and replay (R668, R669) -/

section
variable (d : Dev) {dir o b : Nat}

theorem bridgeAck_of_down {ws : List (Nat × Bool)} {cq cr : Nat} {ok : Bool} (h : bundleUp (brDir d dir) b = false) :
    bridgeAck d dir b ws cq cr ok = d := if_pos (by simp [h])

theorem bridgeAck_of_bad {ws : List (Nat × Bool)} {cq cr : Nat} (hdir : dir < 2) (h : bundleUp (brDir d dir) b = true) :
    bridgeAck d dir b ws cq cr false = bump d 0x8121 (dir + 1) 1 := by
  rw [bridgeAck, if_neg (by simp [hdir, h])]
  rfl

/-- A direction with credits returned. -/
def credited (x : BrDir) (cq cr : Nat) : BrDir := { x with credReq := min (x.credReq + cq) 512, credRsp := min (x.credRsp + cr) 512 }

theorem bridgeAck_of_good {ws : List (Nat × Bool)} {cq cr : Nat} (hdir : dir < 2) (h : bundleUp (brDir d dir) b = true) :
    bridgeAck d dir b ws cq cr true = brDeal (brAckWords (1 - dir) 0 (ws.take 24)
      (setBrDir d (1 - dir) (credited (brDir d (1 - dir)) cq cr))) (1 - dir) := by
  rw [bridgeAck, if_neg (by simp [hdir, h])]
  rfl

/-- The bundle with its replay entries up to `w` freed. -/
def acked (x : BrDir) (b w : Nat) : BrDir := putBundle x b { bundleAt x b with replay := ackedTo (bundleAt x b).replay w }

theorem brAckWord_of_down {w : Nat × Bool} (h : bundleUp (brDir d o) b = false) : brAckWord d o b w = d := if_pos (by simp [h])

theorem brAckWord_of_up {w : Nat × Bool} (h : bundleUp (brDir d o) b = true) : brAckWord d o b w =
    if w.2 then brReplay (setBrDir d o (acked (brDir d o) b w.1)) o b else setBrDir d o (acked (brDir d o) b w.1) :=
  if_neg (by simp [h])

theorem bundleUp_acked (x : BrDir) (b w i : Nat) : bundleUp (acked x b w) i = bundleUp x i := by
  unfold bundleUp acked
  by_cases h : b = i
  · subst h; rw [bundleAt_putBundle_same]
  · rw [bundleAt_putBundle_other _ _ h]

/-- A direction with every bundle that is up acknowledged by its own word. -/
def ackAll : Nat → List (Nat × Bool) → BrDir → BrDir
  | _, [], x => x
  | b, w :: ws, x => ackAll (b + 1) ws (if bundleUp x b then acked x b w.1 else x)

/-- Words without a NAK acknowledge and send nothing. -/
theorem brAckWords_of_clean (ws : List (Nat × Bool)) (hws : ∀ w ∈ ws, w.2 = false) (b : Nat) (d : Dev) :
    brAckWords o b ws d = setBrDir d o (ackAll b ws (brDir d o)) := by
  induction ws generalizing b d with
  | nil => exact (setBrDir_self d o).symm
  | cons w ws ih =>
    have hw : w.2 = false := hws w (List.mem_cons_self ..)
    rw [brAckWords, ih (fun v hv => hws v (List.mem_cons_of_mem _ hv)), ackAll]
    cases hup : bundleUp (brDir d o) b with
    | false => rw [brAckWord_of_down _ hup]; rfl
    | true =>
      rw [brAckWord_of_up _ hup, hw, if_neg (by decide), brDir_setBrDir_same, setBrDir_setBrDir]
      rfl

theorem ackAll_frame (ws : List (Nat × Bool)) (b : Nat) (x : BrDir) : ∃ t, ackAll b ws x = { x with bundles := t } := by
  induction ws generalizing b x with
  | nil => exact ⟨x.bundles, rfl⟩
  | cons w ws ih =>
    obtain ⟨t, ht⟩ := ih (b + 1) (if bundleUp x b then acked x b w.1 else x)
    refine ⟨t, ht.trans ?_⟩
    split <;> rfl

theorem ackAll_before (ws : List (Nat × Bool)) {b i : Nat} (h : i < b) (x : BrDir) : bundleAt (ackAll b ws x) i = bundleAt x i := by
  induction ws generalizing b x with
  | nil => rfl
  | cons w ws ih =>
    rw [ackAll, ih (by omega)]
    split
    · exact bundleAt_putBundle_other _ _ (by omega)
    · rfl

theorem ackAll_replay (ws : List (Nat × Bool)) {b i : Nat} {w : Nat × Bool} (hi : b ≤ i) (hw : ws[i - b]? = some w) {x : BrDir}
    (hup : bundleUp x i = true) : (bundleAt (ackAll b ws x) i).replay = ackedTo (bundleAt x i).replay w.1 := by
  induction ws generalizing b x with
  | nil => simp at hw
  | cons v ws ih =>
    rw [ackAll]
    rcases hi.eq_or_lt with rfl | hlt
    · rw [ackAll_before _ (by omega), if_pos hup, acked, bundleAt_putBundle_same]
      simp at hw
      rw [hw]
    · obtain ⟨k, hk⟩ : ∃ k, i - b = k + 1 := ⟨i - b - 1, by omega⟩
      rw [hk, List.getElem?_cons_succ, show k = i - (b + 1) by omega] at hw
      have hsame : bundleAt (if bundleUp x b then acked x b v.1 else x) i = bundleAt x i := by
        split
        · exact bundleAt_putBundle_other _ _ (by omega)
        · rfl
      rw [ih hlt hw (by rw [bundleUp, hsame]; exact hup), hsame]

/-- The number of the replay that a NAK for the frames `r` asks for, counted from the last acknowledgement. -/
def replayNo (u : Bundle) (q : Nat) : Nat := if u.replayAt = q then u.replays + 1 else 1

/-- The bundle during replay number `n` of the frames from `q`. -/
def replaying (x : BrDir) (b n q : Nat) : BrDir := putBundle x b { bundleAt x b with replays := n, replayAt := q }

/-- The frames `r` leave again on a bundle. -/
def resent (d : Dev) (o b : Nat) (r : List (Nat × BrFrame)) : Dev := bump (r.foldl (fun y e => brOut y o b e.1 e.2) d) 0x8122 (o + 1) 1

theorem brReplay_of_frames {q : Nat} {f : BrFrame} {rest : List (Nat × BrFrame)} (h : (bundleAt (brDir d o) b).replay = (q, f) :: rest) :
    let n := replayNo (bundleAt (brDir d o) b) q
    let e := resent (setBrDir d o (replaying (brDir d o) b n q)) o b ((q, f) :: rest)
    brReplay d o b = if cfg d 0x8102 0 ≤ n then brRetrain e o b else e := by
  simp only [brReplay, replaying, resent, replayNo, h]

theorem foldl_brOut_out (r : List (Nat × BrFrame)) (d : Dev) : (r.foldl (fun y e => brOut y o b e.1 e.2) d).out =
    d.out ++ r.map (fun e => .bridge o (bodyKind e.2.body) [b, e.1, e.2.ord]) := by
  induction r generalizing d with
  | nil => simp
  | cons e r ih =>
    rw [List.foldl_cons, ih, List.map_cons]
    exact List.append_assoc _ _ _

theorem resent_out (r : List (Nat × BrFrame)) : (resent d o b r).out =
    d.out ++ r.map (fun e => .bridge o (bodyKind e.2.body) [b, e.1, e.2.ord]) := foldl_brOut_out r d

theorem brDir_resent (r : List (Nat × BrFrame)) (dir : Nat) : brDir (resent d o b r) dir = brDir d dir := by
  have (d : Dev) (e : Nat × BrFrame) : Kept (fun d => brDir d dir) d (brOut d o b e.1 e.2) := brDir_brOut d o b e.1 e.2 dir
  exact (brDir_bump _ _ _ _ _).trans (foldl_keeps (fun d => brDir d dir) this r d)

theorem backCredit_bundles (x : BrDir) (f : BrFrame) : (backCredit x f).bundles = x.bundles := by
  unfold backCredit
  split <;> rfl

theorem foldl_backCredit_bundles (fs : List BrFrame) (x : BrDir) : (fs.foldl backCredit x).bundles = x.bundles := by
  induction fs generalizing x with
  | nil => rfl
  | cons f fs ih => rw [List.foldl_cons, ih, backCredit_bundles]

/-- A retrain takes the bundle out, deals its frames to others and is reported (R669, R672). -/
theorem brRetrain_spec (o b : Nat) : (bundleAt (brDir (brRetrain d o b) o) b).state = 3 ∧
    (bundleAt (brDir (brRetrain d o b) o) b).replay = [] ∧ Logged (brRetrain d o b) 0x4841 (bundleNo o b) 0 := by
  unfold brRetrain
  extract_lets x u d1
  have hd1 : brDir (raise (bump d1 0x8123 (o + 1) 1) 0x4841 (bundleNo o b) 0) o =
      putBundle x b { u with state := 3, retrains := min (u.retrains + 1) (2 ^ 32 - 1) } := by
    rw [brDir_raise, brDir_bump, brDir_setBrDir_same]
  have hlog := raise_logged (bump d1 0x8123 (o + 1) 1) 0x4841 (bundleNo o b) 0
  generalize raise (bump d1 0x8123 (o + 1) 1) 0x4841 (bundleNo o b) 0 = e at hd1 hlog
  unfold brRedeal
  extract_lets y v fs y1
  have hbundle : bundleAt y1 b = { v with replay := [], replays := 0, replayAt := 256 } := by
    have : y1.bundles = (putBundle y b { v with replay := [], replays := 0, replayAt := 256 }).bundles :=
      foldl_backCredit_bundles _ _
    rw [bundleAt, this]
    exact bundleAt_putBundle_same _ _ _
  have hv : v.state = 3 := by simp only [v, y, hd1, bundleAt_putBundle_same]
  obtain ⟨hkept, hev⟩ := brDeal_keeps (d := setBrDir e o { y1 with waiting := fs ++ y1.waiting }) (dir := o) (c := b) (by
    rw [brDir_setBrDir_same, bundleUp]
    have : (bundleAt y1 b).state = 3 := by rw [hbundle]; exact hv
    simp [bundleAt] at this ⊢
    simp [this])
  rw [brDir_setBrDir_same] at hkept
  have hkept' := hkept.trans hbundle
  rw [hkept']
  exact ⟨hv, rfl, (Logged_congr (hev.trans (setBrDir_ev _ _ _)) _ _ _).2 hlog⟩

end

section
variable {d : Dev} {o w q n : Nat} {f : BrFrame} {rest : List (Nat × BrFrame)} {x : BrDir} (hwait : x.waiting = [])
  (hup : bundleUp x 0 = true) (hrep : ackedTo (bundleAt x 0).replay w = (q, f) :: rest) (hn : replayNo (bundleAt x 0) q = n)
include hup hrep hn

/-- The word that asks for a replay of bundle 0. -/
theorem brAckWords_of_nak : let e := resent (setBrDir d o (replaying (acked x 0 w) 0 n q)) o 0 ((q, f) :: rest)
    brAckWords o 0 [(w, true)] (setBrDir d o x) = if cfg d 0x8102 0 ≤ n then brRetrain e o 0 else e := by
  have hreplay : (bundleAt (acked x 0 w) 0).replay = (q, f) :: rest := by rw [acked, bundleAt_putBundle_same, hrep]
  have hno : replayNo (bundleAt (acked x 0 w) 0) q = n := by
    rw [acked, bundleAt_putBundle_same]
    exact hn
  have hafter := brReplay_of_frames (o := o) (b := 0) (setBrDir d o (acked x 0 w)) (by rw [brDir_setBrDir_same]; exact hreplay)
  dsimp only at hafter
  rw [brDir_setBrDir_same, hno, setBrDir_setBrDir, cfg_setBrDir] at hafter
  rw [brAckWords, brAckWord_of_up _ (by rw [brDir_setBrDir_same]; exact hup), if_pos rfl, brDir_setBrDir_same, setBrDir_setBrDir]
  exact hafter

include hwait

/-- Below the limit of replays the bundle's frames leave again (R669). -/
theorem nak_below (h : n < cfg d 0x8102 0) : let e := brDeal (brAckWords o 0 [(w, true)] (setBrDir d o x)) o
    (bundleAt (brDir e o) 0).replay = (q, f) :: rest ∧ (bundleAt (brDir e o) 0).replays = n ∧
    e.out = d.out ++ ((q, f) :: rest).map (fun e => .bridge o (bodyKind e.2.body) [0, e.1, e.2.ord]) := by
  have hnak := brAckWords_of_nak (d := d) (o := o) hup hrep hn
  dsimp only at hnak
  rw [if_neg (by omega)] at hnak
  have hdir := brDir_resent (setBrDir d o (replaying (acked x 0 w) 0 n q)) (o := o) (b := 0) ((q, f) :: rest) o
  rw [brDir_setBrDir_same] at hdir
  rw [hnak, brDeal_of_none (by rw [hdir]; exact hwait)]
  dsimp only
  rw [hdir, replaying, bundleAt_putBundle_same, resent_out, setBrDir_out, acked,
    bundleAt_putBundle_same]
  exact ⟨hrep, rfl, rfl⟩

omit hwait

/-- At the limit of replays the bundle begins its retrain. -/
theorem nak_limit (h : cfg d 0x8102 0 ≤ n) : let e := brDeal (brAckWords o 0 [(w, true)] (setBrDir d o x)) o
    (bundleAt (brDir e o) 0).state = 3 ∧ (bundleAt (brDir e o) 0).replay = [] ∧ Logged e 0x4841 (bundleNo o 0) 0 := by
  have hnak := brAckWords_of_nak (d := d) (o := o) hup hrep hn
  dsimp only at hnak
  rw [if_pos h] at hnak
  rw [hnak]
  generalize resent (setBrDir d o (replaying (acked x 0 w) 0 n q)) o 0 ((q, f) :: rest) = e
  obtain ⟨hstate, hempty, hlog⟩ := brRetrain_spec e o 0
  obtain ⟨hkept, hev⟩ := brDeal_keeps (d := brRetrain e o 0) (dir := o) (c := 0) (by simp [bundleUp, hstate])
  dsimp only
  rw [hkept]
  exact ⟨hstate, hempty, (Logged_congr hev _ _ _).2 hlog⟩

end

/-! ### The ACK timer and the end of a retrain (R668, R675, R676) -/

section
variable (d : Dev) {dir b : Nat}

/-- A direction whose ACK frame has left. -/
def ackLeft (x : BrDir) : BrDir :=
  { x with
    owedReq := x.owedReq - min x.owedReq 65535
    owedRsp := x.owedRsp - min x.owedRsp 65535
    bundles := x.bundles.map (fun e => (e.1, { e.2 with nak := false })) }

theorem bridgeAckTimer_of_active {l : List Nat} (hdir : dir < 2) (h : bundlesActive (brDir d dir) = b :: l) :
    bridgeAckTimer d dir = if ackWanted (brDir d (1 - dir)) then
      setBrDir (send d (.bridge dir 6 (b :: ackFrame (brDir d (1 - dir))))) (1 - dir) (ackLeft (brDir d (1 - dir))) else d := by
  rw [bridgeAckTimer, h]
  simp only [hdir, decide_true, Bool.true_and]
  rfl

theorem bridgeAckTimer_of_none (h : 2 ≤ dir ∨ bundlesActive (brDir d dir) = []) : bridgeAckTimer d dir = d := by
  unfold bridgeAckTimer
  dsimp only
  split
  · rfl
  next hl =>
    have : 2 ≤ dir := h.resolve_right (by rw [hl]; exact List.cons_ne_nil _ _)
    rw [if_neg (by simp; omega)]

theorem bundleAt_ackLeft (x : BrDir) (i : Nat) : bundleAt (ackLeft x) i = { bundleAt x i with nak := false } := by
  have hmap (t : Tab Bundle) : tfind (t.map (fun e => (e.1, { e.2 with nak := false }))) i =
      (tfind t i).map (fun u => { u with nak := false }) := by
    induction t with
    | nil => rfl
    | cons e t ih =>
      rw [List.map_cons, tfind, tfind, ih]
      split <;> rfl
  rw [bundleAt, tget, ackLeft, hmap, bundleAt, tget]
  cases tfind x.bundles i <;> rfl

theorem ackLeft_owed (x : BrDir) : (ackLeft x).owedReq = x.owedReq - 65535 ∧ (ackLeft x).owedRsp = x.owedRsp - 65535 := by
  simp only [ackLeft]
  omega

theorem bundleRetrainDone_of_idle {fs : List Nat} {ctl : Bool} {q f : Nat} (h : ¬ (dir < 2 ∧ b < 24 ∧ (bundleAt (brDir d dir) b).state = 3)) :
    bundleRetrainDone d dir b fs ctl q f = d := by
  refine if_pos ?_
  simp only [Bool.not_eq_true', Bool.and_eq_false_iff, decide_eq_false_iff_not, beq_eq_false_iff_ne]
  tauto

/-- A bundle after its retrain: it starts from SEQ 0, up or disabled. -/
def retrained (u : Bundle) (fs : List Nat) (ctl : Bool) (state : Nat) : Bundle :=
  { u with failed := addWires u.failed fs, ctlFail := ctl, state := state, nextSeq := 0, replay := [], replays := 0, replayAt := 256
           expected := 0, nak := false }

theorem bundleRetrainDone_of_training {fs : List Nat} {ctl : Bool} {q f : Nat} (hdir : dir < 2) (hb : b < 24)
    (h : (bundleAt (brDir d dir) b).state = 3) : let bad := ctl = true ∨ 2 < (addWires (bundleAt (brDir d dir) b).failed fs).length
    let e := fun state => setBrDir d dir (putBundle (brDir d dir) b (retrained (bundleAt (brDir d dir) b) fs ctl state))
    (¬ bad → bundleRetrainDone d dir b fs ctl q f = brDeal (e 2) dir) ∧
    (bad → bundleRetrainDone d dir b fs ctl q f = brThin (raise (e 0) 0x8842 (bundleNo dir b) 0) dir q f) := by
  intro bad e
  unfold bundleRetrainDone
  extract_lets x u g bad' u1 d1
  have hbad : bad' = true ↔ bad := by simp [bad', bad, g, u, x]
  rw [if_neg (by simp [hdir, hb, u, x, h])]
  constructor
  · intro hgood
    have hf : bad' = false := by simpa using mt hbad.1 hgood
    have hd1 : d1 = e 2 := by simp only [d1, u1, hf]; rfl
    rw [hf, hd1]
    rfl
  · intro hbad'
    have ht := hbad.2 hbad'
    have hd1 : d1 = e 0 := by simp only [d1, u1, ht]; rfl
    rw [ht, hd1]
    rfl

end

section
variable {d : Dev} {dir : Nat}

theorem unitFault_frame (d : Dev) (c code : Nat) : (unitFault d c code).ev = d.ev ∧ (unitFault d c code).mem = d.mem ∧
    (unitFault d c code).east = d.east ∧ (unitFault d c code).west = d.west := by
  unfold unitFault
  dsimp only
  split <;> exact ⟨rfl, rfl, rfl, rfl⟩

theorem stopAll_frame (d : Dev) (code : Nat) : (stopAll d code).ev = d.ev ∧ (stopAll d code).mem = d.mem ∧
    (stopAll d code).east = d.east ∧ (stopAll d code).west = d.west :=
  ⟨foldl_keeps Dev.ev (fun d c => (unitFault_frame d c code).1) _ d, foldl_keeps Dev.mem (fun d c => (unitFault_frame d c code).2.1) _ d,
    foldl_keeps Dev.east (fun d c => (unitFault_frame d c code).2.2.1) _ d,
    foldl_keeps Dev.west (fun d c => (unitFault_frame d c code).2.2.2) _ d⟩

theorem brDir_wedge (d : Dev) (c i h dir : Nat) : brDir (wedge d c i h) dir = brDir d dir := by
  unfold wedge
  split
  · rfl
  · rw [brDir_raise]; rfl

theorem LoggedWithin.wedge {n code a b : Nat} (hl : LoggedWithin n d code a b) (hn : n < 4094) (c i h : Nat) :
    LoggedWithin (n + 2) (wedge d c i h) code a b := by
  unfold Machine.wedge
  split
  · exact hl.mono (by omega)
  · exact LoggedWithin.raise (hl.of_log_eq (by rfl)) hn _ _ _

/-- What a direction that has lost a bundle raises leaves its bundles and what has just been logged; with no bundle left the
device is wedged (R676). -/
theorem brThin_spec {code a k : Nat} (hl : LoggedWithin 1 d code a k) (q f : Nat) :
    (brDir (brThin d dir q f) dir).bundles = (brDir d dir).bundles ∧ (brThin d dir q f).mem = d.mem ∧
    Logged (brThin d dir q f) code a k ∧
    (bundlesLeft (brDir d dir) = 0 → (brThin d dir q f).rc.wedged = true ∧ Logged (brThin d dir q f) 0xC848 dir 0) := by
  unfold brThin
  extract_lets x n
  split
  next hn =>
    obtain ⟨hev, hmem, heast, hwest⟩ := stopAll_frame (raise d 0xC848 dir 0) 0xC848
    have hlog : LoggedWithin 3 (stopAll (raise d 0xC848 dir 0) 0xC848) code a k :=
      (hl.raise (by decide) 0xC848 dir 0).of_log_eq (congrArg Ev.log hev)
    have hlost : LoggedWithin 1 (stopAll (raise d 0xC848 dir 0) 0xC848) 0xC848 dir 0 :=
      (raise_loggedWithin d 0xC848 dir 0).of_log_eq (congrArg Ev.log hev)
    refine ⟨?_, ?_, (hlog.wedge (by decide) _ _ _).logged, fun _ => ⟨wedge_wedged _ _ _ _, (hlost.wedge (by decide) _ _ _).logged⟩⟩
    · rw [brDir_wedge, brDir_congr heast hwest, brDir_raise]
    · rw [wedge_mem, hmem, raise_mem]
  next hn =>
    split
    · refine ⟨?_, ?_, ?_, fun h => absurd h hn⟩
      · rw [brDir_raise, brDir_setBrDir_same]
      · rw [raise_mem, setBrDir_mem]
      · exact (LoggedWithin.raise (hl.of_log_eq (congrArg Ev.log (setBrDir_ev _ _ _))) (by decide) _ _ _).logged
    · exact ⟨rfl, rfl, hl.logged, fun h => absurd h hn⟩

end

/-- Settles O45: a held duplicate is a repeat, SEQ starts at 0 after a retrain and 0x4841 marks its start (log 25), the wedge
comes at once (log 26), and the sending half's first sight of a frame is the model's own (log 23). -/
theorem bridgeFrames : Obligations.BridgeFrames := by
  refine ⟨?frames, ?ackDown, ?ack, ?timer, ?noTimer, ?retrain⟩
  case frames =>
    intro s dir b seq ord tag ok bytes ue reqs sigs tags hact hdir hseq hord p hp rsp d1 x u ahead y d o next
    have hexec : exec p.1 s = after s (brArrive s.dev dir b seq ord p.2 ok) := by
      simp only [List.mem_cons, List.not_mem_nil, or_false] at hp
      obtain rfl | rfl | rfl | rfl | rfl := hp
      · rw [exec_bridgeReq, onUnit_acting _ _ hact]
      · rw [exec_bridgeWdata, onUnit_acting _ _ hact]
      · rw [exec_bridgeSig, onUnit_acting _ _ hact]
      · rw [exec_bridgeRdata, onUnit_acting _ _ hact]
      · rw [exec_bridgeWack, onUnit_acting _ _ hact]
    rw [hexec]
    refine ⟨fun h => by rw [brArrive_of_down h], fun h => if_neg (fun hc => h hc.1), fun hup => ?_⟩
    have harrive := brArrive_of_up (ok := ok) (body := p.2) hdir hup hseq hord
    have hnext : next ↔ ¬ (ok = false ∨ ahead ≠ 0) := by simp [next]
    refine ⟨fun hn => ?_, fun hn hrep => ?_, fun hn hrep hne hheld => ?_, fun hn hrep heq => ?_⟩
    · exact congrArg (after s) (harrive.trans (if_pos (by_contra (mt hnext.2 hn))))
    · exact congrArg (after s) (harrive.trans ((if_neg (hnext.1 hn)).trans (if_pos hrep)))
    · have hgaps : ∀ g ∈ y.held, nextHeld y rsp g = false := fun g hg => by
        have := hheld g hg
        simpa [nextHeld, show nextOrd y rsp = nextOrd x rsp from rfl] using this
      have hheld := brDeliver_held (dir := dir) (y := y) (f := { ord, body := p.2 }) d1 (x.held.length + 1) hne hgaps
      exact congrArg (after s) (harrive.trans ((if_neg (hnext.1 hn)).trans ((if_neg (Bool.eq_false_iff.1 hrep)).trans hheld)))
    · have hpres := brDeliver_presented (dir := dir) (y := y) (f := { ord, body := p.2 }) d1 x.held.length heq hrep
      have hdone : after s (brArrive s.dev dir b seq ord p.2 ok) = after s (brDeliver x.held.length dir rsp (brPresent d dir p.2)) :=
        congrArg (after s) (harrive.trans ((if_neg (hnext.1 hn)).trans ((if_neg (Bool.eq_false_iff.1 hrep)).trans hpres)))
      refine ⟨hdone, fun hnone => ?_⟩
      rw [hdone, hnone]
      refine ⟨fun h => by rw [h]; rfl, fun h => by rw [h]; rfl, fun h => by rw [h]; rfl, fun h => by rw [h]; rfl,
        fun h hclean => ?_, fun h => by rw [h]; rfl⟩
      rw [h, hclean]
      rfl
  case ackDown =>
    intro s dir b ws cq cr ok hact hdir hdown
    rw [exec_bridgeAck, onUnit_acting _ _ hact, bridgeAck_of_down _ hdown]
  case ack =>
    intro s dir b ws cq cr hact hdir hup x
    have hexec (ws : List (Nat × Bool)) (ok : Bool) : exec (.bridgeAck dir b ws cq cr ok) s = after s (bridgeAck s.dev dir b ws cq cr ok) := by
      rw [exec_bridgeAck, onUnit_acting _ _ hact]
    refine ⟨?_, ?_, fun hwait hws => ?_, fun w q f rest hwait hup0 hrep => ?_⟩
    · rw [hexec, bridgeAck_of_bad _ hdir hup]
    · rw [hexec, bridgeAck_of_good _ hdir hup]
      rfl
    · obtain ⟨t, ht⟩ := ackAll_frame (ws.take 24) 0 (credited x cq cr)
      have hclean := brAckWords_of_clean (o := 1 - dir) (ws.take 24) (fun w hw => hws w (List.mem_of_mem_take hw)) 0
        (setBrDir s.dev (1 - dir) (credited x cq cr))
      rw [brDir_setBrDir_same, setBrDir_setBrDir] at hclean
      refine ⟨setBrDir s.dev (1 - dir) (ackAll 0 (ws.take 24) (credited x cq cr)), ?_, ?_⟩
      · rw [hexec, bridgeAck_of_good _ hdir hup, hclean, brDeal_of_none]
        rw [brDir_setBrDir_same, ht]
        exact hwait
      rw [brDir_setBrDir_same, setBrDir_mem, setBrDir_out, brDir_setBrDir_peer _ _ hdir]
      refine ⟨by rw [ht]; rfl, by rw [ht]; rfl, fun i w hi hw hup => ?_, rfl, rfl, rfl⟩
      exact ackAll_replay (ws.take 24) (Nat.zero_le i) (by rw [Nat.sub_zero, List.getElem?_take_of_lt hi, hw]) hup
    · intro n
      rw [hexec, bridgeAck_of_good _ hdir hup]
      exact ⟨fun h => ⟨_, rfl, nak_below (x := credited x cq cr) hwait hup0 hrep rfl h⟩,
        fun h => ⟨_, rfl, nak_limit (x := credited x cq cr) hup0 hrep rfl h⟩⟩
  case timer =>
    intro s dir b l hact hdir hl x
    rw [exec_bridgeAckTimer, onUnit_acting _ _ hact, bridgeAckTimer_of_active _ hdir hl]
    refine ⟨fun h => by rw [if_neg (by simp [x, h])], fun h => ?_⟩
    rw [if_pos h]
    refine ⟨_, rfl, by rw [setBrDir_out]; rfl, fun i => ?_, ?_, ?_, ?_, setBrDir_mem _ _ _⟩
    · rw [brDir_setBrDir_same, bundleAt_ackLeft]
      exact ⟨rfl, rfl⟩
    · rw [brDir_setBrDir_same, (ackLeft_owed _).1]
    · rw [brDir_setBrDir_same, (ackLeft_owed _).2]
    · exact brDir_setBrDir_peer _ _ hdir
  case noTimer =>
    intro s dir hact h
    rw [exec_bridgeAckTimer, onUnit_acting _ _ hact, bridgeAckTimer_of_none _ h]
  case retrain =>
    intro s dir b fails ctl q f hact x training fs up down
    rw [exec_bundleRetrainDone, onUnit_acting _ _ hact]
    refine ⟨fun ⟨hdir, hb, hst⟩ hctl hfs => ?_, fun ⟨hdir, hb, hst⟩ hbad => ?_, fun h => by rw [bundleRetrainDone_of_idle _ h]⟩
    · rw [(bundleRetrainDone_of_training _ hdir hb hst).1 (by simp [hctl]; exact hfs)]
      rfl
    · have hdone := (bundleRetrainDone_of_training (q := q) (f := f) _ hdir hb hst).2 hbad
      obtain ⟨hbundles, hmem, hlog, hlost⟩ := brThin_spec (dir := dir) (raise_loggedWithin (setBrDir s.dev dir (putBundle x b down))
        0x8842 (bundleNo dir b) 0) q f
      rw [brDir_raise, brDir_setBrDir_same] at hbundles hlost
      refine ⟨_, congrArg (after s) hdone, ?_, ?_, hlog, fun h => hlost ?_⟩
      · exact (congrArg (fun t => tget bundleReset t b) hbundles).trans (bundleAt_putBundle_same _ _ _)
      · exact hmem.trans ((raise_mem _ _ _ _).trans (setBrDir_mem _ _ _))
      · rw [← h]
        exact bundlesLeft_congr hbundles.symm

end Sys2Proof.Machine

/-! The object dictionary and the Syserid protocol (chapter 19): reads, staged reads and writes of objects, pending operations,
the delivery of events and the tick. -/

namespace Sys2Proof.Machine

/-! ### A write that is kept answers twice (R548) -/

/-- A device that has started up and serves every object. -/
def startedState : State := { State.reset with dev := setObj State.reset.dev 0xE001 0 0xFF }

/-- A write of EvLogSelect leaves the object's own status message before its reply. -/
theorem out_write_evLogSelect : (syseridWrite startedState.dev 1 2 0x1122 0 4 5 { seqIdle := 0, feHeld := 0, fuses := 0 }).out =
    [.status 0x1122 0 0, .reply 1 2 0x1122 0 0 0 0] := by decide +kernel

/-- Refutes O60: a device that has started up sends the status 0 of EvLogSelect (log 3) before the reply of its write, and the
statement has the reply alone. -/
theorem not_eventLogKeepsTheLastRecords : ¬ Obligations.EventLogKeepsTheLastRecords := by
  intro ⟨_, _, hwrite⟩
  obtain ⟨d, hexec, hout, -, -⟩ := hwrite startedState 1 2 5 { seqIdle := 0, feHeld := 0, fuses := 0 } (by decide +kernel) (by decide +kernel)
    (by decide +kernel) (by decide)
  rw [exec_syseridWrite, onUnit_acting _ _ (by decide +kernel)] at hexec
  have hdev : syseridWrite startedState.dev 1 2 0x1122 0 4 5 { seqIdle := 0, feHeld := 0, fuses := 0 } = d :=
    congrArg (fun s : State => s.dev) (Host.Outcome.next.inj hexec)
  have hlen := congrArg List.length ((congrArg Dev.out hdev).symm.trans out_write_evLogSelect)
  rw [hout] at hlen
  exact absurd hlen (by decide +kernel)

/-! ### Reads and writes of objects (R529, R536 to R538, R543) -/

section
variable (d : Dev) (f : SyFrom) (i k : Nat)

theorem accessOf_of_row {o : ObjRow} (h : objRow i k = some o) : accessOf i k = some o.acc := by rw [accessOf, h]

theorem objRow_of_unknown (h : accessOf i k = none) : objRow i k = none := by
  cases hrow : objRow i k with
  | none => rfl
  | some o => rw [accessOf_of_row _ _ hrow] at h; cases h

/-- The record of a READ (0) or a READ-STAGED (2). -/
abbrev readOp (op : Nat) : SyRec := { op, idx := i, sub := k, status := 0, vlen := 0, ticket := 0, value := 0 }

/-- The record of a WRITE. -/
abbrev writeOp (l v : Nat) : SyRec := { op := 1, idx := i, sub := k, status := 0, vlen := l, ticket := 0, value := v }

theorem readAnswer_of_table (staged : Bool) (h : objRow i k = none) :
    readAnswer d i k staged = { idx := i, sub := k, status := 0, ticket := 0, len := 1, value := rowCount i } := by
  simp only [readAnswer, h]

theorem readAnswer_of_row {o : ObjRow} (staged : Bool) (h : objRow i k = some o) :
    let v := if staged = true ∧ o.acc = .rs then
        (if isKeyed i then recValue (stageKey i 0 0) (stagedAt d (stageKey i 0 0)) else stagedAt d (stageKey i k 0))
      else readObj d i k
    readAnswer d i k staged = { idx := i, sub := k, status := 0, ticket := 0, len := o.bytes, value := v % 2 ^ (8 * o.bytes) } := by
  simp only [readAnswer, h, Bool.and_eq_true, beq_iff_eq]

section
variable (op : Nat)

theorem serveRead_of_unknown (h : accessOf i k = none) : serveRead d f (readOp i k op) = (plainReply i k 2, d) := by
  simp only [serveRead, h]

theorem serveRead_of_writeOnly (h : accessOf i k = some .wo) : serveRead d f (readOp i k op) = (plainReply i k 3, d) := by
  simp only [serveRead, h]

/-- A read of an object that can be read: refused, pending on a wedged fabric, or answered. -/
theorem serveRead_of_readable {a : Access} (h : accessOf i k = some a) (ha : a ≠ .wo) : serveRead d f (readOp i k op) =
    if servedNow d i k op = false then (plainReply i k 6, d)
    else if d.rc.wedged = true ∧ servedLocally i k op = false then makePending d d f i k 256
    else (readAnswer d i k (op == 2), d) := by
  simp only [serveRead, h]
  cases a with
  | wo => exact absurd rfl ha
  | _ => simp

end

section
variable {l v : Nat} (x : OpInfo)

theorem recBad_writeOp : recBad (writeOp i k l v) = decide (4096 < l) := by simp [recBad]

/-- A write whose own checks all pass is carried out. -/
theorem serveOne_of_checked (h : ownCheck d x (writeOp i k l v) = 0) (hl : l ≤ 4096) :
    let y := serveWrite d x f (writeOp i k l v) (writeRecs i k v)
    serveOne d x f (writeOp i k l v) = sendReply y.2 f y.1 := by
  rw [serveOne, recBad_writeOp, if_neg (by simp; omega), if_neg (by simp), h]
  rfl

/-- One whose own check fails is answered its status; a staging set without room raises 0x4209. -/
theorem serveOne_of_failed {st : Nat} (h : ownCheck d x (writeOp i k l v) = st) (hst : st ≠ 0) (hl : l ≤ 4096) :
    serveOne d x f (writeOp i k l v) = sendReply
      (if st == 6 && servedNow d i k 1 && accessOf i k == some .rs then raise d 0x4209 i 0 else d) f (plainReply i k st) := by
  rw [serveOne, recBad_writeOp, if_neg (by simp; omega), if_neg (by simp), h]
  split
  · exact absurd rfl hst
  · rfl

/-- A failed check other than for room leaves the device. -/
theorem serveOne_of_refused {st : Nat} (h : ownCheck d x (writeOp i k l v) = st) (hst : st ≠ 0) (h6 : st ≠ 6) (hl : l ≤ 4096) :
    serveOne d x f (writeOp i k l v) = sendReply d f (plainReply i k st) := by
  rw [serveOne_of_failed d f i k x h hst hl, if_neg (by simp [h6])]

end

theorem ownCheck_of_noRow {l v st : Nat} (x : OpInfo) (hrow : objRow i k = none) (hl : l ≤ 4096)
    (hst : (if (accessOf i k).isSome then 3 else 2) = st) : ownCheck d x (writeOp i k l v) = st := by
  rw [ownCheck, recBad_writeOp, if_neg (by simp; omega)]
  simp only [hrow, hst]

/-- No object that is written at once is a boolean. -/
theorem isBool_of_direct : ∀ r ∈ objTable, r.acc = .rw ∨ r.acc = .wo → r.isBool = false := by decide +kernel

section
variable {d i k} {l v : Nat} (x : OpInfo) {o : ObjRow} (hrow : objRow i k = some o) (hl : l ≤ 4096)
include hrow hl

theorem ownCheck_of_readOnly (h : o.acc = .ro ∨ o.acc = .const) : ownCheck d x (writeOp i k l v) = 3 := by
  rw [ownCheck, recBad_writeOp, if_neg (by simp; omega)]
  simp only [hrow, if_pos h]

theorem ownCheck_of_length (hro : o.acc ≠ .ro) (hconst : o.acc ≠ .const) (h : ¬ (l = o.bytes ∨ i = 0xD014)) :
    ownCheck d x (writeOp i k l v) = 4 := by
  rw [ownCheck, recBad_writeOp, if_neg (by simp; omega)]
  simp only [hrow]
  rw [if_neg (by simp [hro, hconst]), if_pos (by tauto)]

theorem ownCheck_of_staged (hacc : o.acc = .rs) (h : l = o.bytes ∨ i = 0xD014) :
    ownCheck d x (writeOp i k l v) = if rangeOk o v = false then 5 else (stageWrite d i k v).1 := by
  rw [ownCheck, recBad_writeOp, if_neg (by simp; omega)]
  simp only [hrow]
  rw [if_neg (by simp [hacc]), if_neg (by tauto), if_pos hacc]
  simp only [Bool.not_eq_true']

theorem ownCheck_of_direct (hacc : o.acc = .rw ∨ o.acc = .wo) (h : l = o.bytes ∨ i = 0xD014) :
    ownCheck d x (writeOp i k l v) = if writeStatus d (writeEffect d x i k l v) i = 4 ∨ writeStatus d (writeEffect d x i k l v) i = 5
      then writeStatus d (writeEffect d x i k l v) i else 0 := by
  have hbool : o.isBool = false := isBool_of_direct o (List.mem_of_find?_eq_some hrow) hacc
  rw [ownCheck, recBad_writeOp, if_neg (by simp; omega)]
  simp only [hrow]
  rw [if_neg (by rcases hacc with h | h <;> simp [h]), if_neg (by tauto), if_neg (by rcases hacc with h | h <;> simp [h]),
    if_neg (by simp [hbool])]
  generalize writeStatus d (writeEffect d x i k l v) i = st
  split
  · rfl
  · rfl
  next h4 h5 => rw [if_neg (by rintro (h | h) <;> simp_all)]

end

section
variable (l v : Nat) (x : OpInfo) {d i k}

theorem serveWrite_of_unserved (es : List (Nat × Nat)) (h : servedNow d i k 1 = false) :
    serveWrite d x f (writeOp i k l v) es = (plainReply i k 6, d) := by
  rw [serveWrite, if_pos (by simp [h])]

theorem serveWrite_of_wedged (es : List (Nat × Nat)) (h : servedNow d i k 1 = true)
    (hw : ¬ (d.rc.wedged = false ∨ servedLocally i k 1 = true)) :
    serveWrite d x f (writeOp i k l v) es = makePending d d f i k 256 := by
  rw [not_or, Bool.not_eq_false, Bool.not_eq_true] at hw
  rw [serveWrite, if_neg (by simp [h]), if_pos (by simp [hw])]

theorem serveWrite_of_staged (es : List (Nat × Nat)) (h : servedNow d i k 1 = true) (ha : accessOf i k = some .rs) :
    serveWrite d x f (writeOp i k l v) es = (plainReply i k (stageRecs d es).1, (stageRecs d es).2) := by
  have hlocal : servedLocally i k 1 = true := by simp [servedLocally, ha]
  rw [serveWrite, if_neg (by simp [h]), if_neg (by simp [hlocal]), if_pos ha]

theorem serveWrite_of_direct (es : List (Nat × Nat)) (h : servedNow d i k 1 = true)
    (hw : d.rc.wedged = false ∨ servedLocally i k 1 = true) (ha : accessOf i k ≠ some .rs) :
    serveWrite d x f (writeOp i k l v) es = settleWrite d (writeEffect d x i k l v) f i k v := by
  rw [serveWrite, if_neg (by simp [h]), if_neg (by rcases hw with h | h <;> simp [h]), if_neg ha]

variable (e : Dev)

theorem settleWrite_of_done (h1 : writeStatus d e i ≠ 1) (h8 : writeStatus d e i ≠ 8) :
    settleWrite d e f i k v = (plainReply i k (writeStatus d e i), e) := by
  rw [settleWrite]
  split
  · exact absurd ‹_› h1
  · exact absurd ‹_› h8
  · rfl

theorem settleWrite_of_busy (h : writeStatus d e i = 8) :
    settleWrite d e f i k v = (plainReply i k 8, raiseSec (bump e 0x1114 0 1) 0x4105 0 0) := by
  simp only [settleWrite, h]

theorem settleWrite_of_pending (h : writeStatus d e i = 1) : settleWrite d e f i k v = makePending d e f i k (pendUnit i v) := by
  simp only [settleWrite, h]

end

end

/-- Settles O37: direct operations and the order of their checks are log 67; the pending form on a wedged fabric and the read of
key 0 are log 68. -/
theorem objectOperations : Obligations.ObjectOperations := by
  refine ⟨?reads, ?unknown, ?writes⟩
  case reads =>
    intro s n q i k staged hact c op here p
    have hexec : exec c s = after s (sendReply (serveRead s.dev { node := n, seq := q, src := 0 } (readOp i k op)).2
        { node := n, seq := q, src := 0 } (serveRead s.dev { node := n, seq := q, src := 0 } (readOp i k op)).1) := by
      simp only [c, op]
      split
      · rw [exec_syseridReadStaged, onUnit_acting _ _ hact]; rfl
      · rw [exec_syseridRead, onUnit_acting _ _ hact]; rfl
    rw [hexec]
    refine ⟨fun h => by rw [serveRead_of_unknown _ _ _ _ _ h]; rfl, fun h => by rw [serveRead_of_writeOnly _ _ _ _ _ h]; rfl,
      fun a ha hwo => ?_⟩
    rw [serveRead_of_readable _ _ _ _ _ ha hwo]
    refine ⟨fun hs => by rw [if_pos hs]; rfl, fun hs hhere => ?_, fun hs hhere => ⟨?_, fun hlt => ?_, fun hge => if_pos hge⟩⟩
    · rw [if_neg (by simp [hs]), if_neg (by rcases hhere with h | h <;> simp [h])]
      have hstaged : (op == 2) = staged := by cases staged <;> rfl
      rw [hstaged]
      exact ⟨fun hrow => by simp only [readAnswer_of_table _ _ _ _ hrow, sendReply],
        fun o hrow => by simp only [readAnswer_of_row _ _ _ _ hrow, sendReply]⟩
    · simp only [here, not_or, Bool.not_eq_false, Bool.not_eq_true] at hhere
      rw [if_neg (by simp [hs]), if_pos hhere]
    · have : p = _ := if_neg (by omega)
      rw [this]
      exact ⟨rfl, by simp [setSy]⟩
  case unknown =>
    intro s n q i k l v x hact c
    have hexec : c = after s (serveOne s.dev x { node := n, seq := q, src := 0 } (writeOp i k l (v % 2 ^ (8 * l)))) := by
      simp only [c]
      rw [exec_syseridWrite, onUnit_acting _ _ hact]
      rfl
    have hreply (st : Nat) (h0 : st ≠ 0) (h6 : st ≠ 6) (hl : l ≤ 4096) (h : ownCheck s.dev x (writeOp i k l (v % 2 ^ (8 * l))) = st) :
        c = after s (send s.dev (.reply n q i k st 0 0)) := by
      rw [hexec, serveOne_of_refused _ _ _ _ _ h h0 h6 hl]
      rfl
    refine ⟨fun hl => ?_, fun hl ha => ?_, fun hl ha hrow => ?_⟩
    · rw [hexec, serveOne, if_pos (by simp [recBad_writeOp, hl])]
      rfl
    · exact hreply 2 (by decide) (by decide) hl (ownCheck_of_noRow _ _ _ x (objRow_of_unknown _ _ ha) hl (by simp [ha]))
    · exact hreply 3 (by decide) (by decide) hl (ownCheck_of_noRow _ _ _ x hrow hl (by simp [ha]))
  case writes =>
    intro s n q i k l v x o hact hrow hl hv c reply sized
    have hacc := accessOf_of_row i k hrow
    have hexec : c = after s (serveOne s.dev x { node := n, seq := q, src := 0 } (writeOp i k l v)) := by
      simp only [c]
      rw [exec_syseridWrite, onUnit_acting _ _ hact, syseridWrite, Nat.mod_eq_of_lt hv]
    rw [hexec]
    refine ⟨fun h => ?_, fun hro hconst hsize => ?_, fun hrs hsize => ?_, fun hdirect hsize => ?_⟩
    · rw [serveOne_of_refused _ _ _ _ _ (ownCheck_of_readOnly x hrow hl h) (by decide) (by decide) hl]; rfl
    · rw [serveOne_of_refused _ _ _ _ _ (ownCheck_of_length x hrow hl hro hconst hsize) (by decide) (by decide) hl]; rfl
    · have hcheck := ownCheck_of_staged (d := s.dev) (v := v) x hrow hl hrs hsize
      have hstage := hrs ▸ hacc
      intro t
      have hfits : stageWrite s.dev i k v = if stageFits t then (0, { s.dev with gn := { s.dev.gn with staged := t } }) else (6, s.dev) := rfl
      have hrecs : stageRecs s.dev (writeRecs i k v) = stageWrite s.dev i k v := rfl
      refine ⟨fun hr => ?_, fun hr hs => ?_, fun hr hs hf => ?_, fun hr hs hf => ?_⟩
      · rw [serveOne_of_refused _ _ _ _ _ (hcheck.trans (if_pos hr)) (by decide) (by decide) hl]
        rfl
      all_goals rw [hr, if_neg (by decide), hfits] at hcheck
      · by_cases hf : stageFits t = true
        · rw [if_pos hf] at hcheck
          rw [serveOne_of_checked _ _ _ _ _ hcheck hl, serveWrite_of_unserved _ _ _ _ _ hs]
          rfl
        · rw [if_neg hf] at hcheck
          rw [serveOne_of_failed _ _ _ _ _ hcheck (Nat.succ_ne_zero 5) hl, if_neg (by simp [hs])]
          rfl
      · rw [if_pos hf] at hcheck
        rw [serveOne_of_checked _ _ _ _ _ hcheck hl, serveWrite_of_staged _ _ _ _ _ hs hstage, hrecs, hfits, if_pos hf]
        rfl
      · rw [if_neg (by simp [hf])] at hcheck
        rw [serveOne_of_failed _ _ _ _ _ hcheck (Nat.succ_ne_zero 5) hl, if_pos (by simp [hs, hstage])]
        rfl
    · have hcheck := ownCheck_of_direct (d := s.dev) (v := v) x hrow hl hdirect hsize
      have hnot : accessOf i k ≠ some .rs := by
        rw [hacc]
        rcases hdirect with h | h <;> simp [h]
      intro e st f p w ok here
      change ownCheck s.dev x (writeOp i k l v) = if st = 4 ∨ st = 5 then st else 0 at hcheck
      refine ⟨fun h45 => ?_, fun hok hs => ?_, fun hok hs hw => ?_, fun hok hs hhere => ⟨fun h1 h8 => ?_, fun h8 => ?_, fun h1 => ?_⟩⟩
      · rw [serveOne_of_refused _ _ _ _ _ (hcheck.trans (if_pos h45)) (by omega) (by omega) hl]
        rfl
      all_goals rw [serveOne_of_checked _ _ _ _ _ (hcheck.trans (if_neg (not_or.2 hok))) hl]
      · rw [serveWrite_of_unserved _ _ _ _ _ hs]
        rfl
      · rw [serveWrite_of_wedged _ _ _ _ _ hs hw]
      all_goals rw [serveWrite_of_direct _ _ _ _ _ hs hhere hnot]
      · rw [settleWrite_of_done _ _ _ h1 h8]
        rfl
      · rw [settleWrite_of_busy _ _ _ h8]
        rfl
      · rw [settleWrite_of_pending _ _ _ h1]

/-! ### Pending operations, the delivery of events and the tick (R539, R543, R549) -/

section
variable (d : Dev) (t : Nat)

theorem pendingComplete_of_done {p : SyPend} {st : Nat} (h : pendOf d t = some p) (hdone : doneIn p.idx p.unit (d.out.drop p.mark) = some st) :
    pendingComplete d t = finishPend d p st := by
  simp only [pendingComplete, h, hdone]

theorem stallTimeout_of_done {p : SyPend} {st : Nat} (h : pendOf d t = some p) (hdone : doneIn p.idx p.unit (d.out.drop p.mark) = some st)
    (a b : Nat) : stallTimeout d t a b = d := by
  simp [stallTimeout, h, hdone]

theorem pendingComplete_of_running {p : SyPend} (h : pendOf d t = some p) (hrun : doneIn p.idx p.unit (d.out.drop p.mark) = none) :
    pendingComplete d t = d := by
  simp only [pendingComplete, h, hrun]

theorem stallTimeout_of_running {p : SyPend} (h : pendOf d t = some p) (hrun : doneIn p.idx p.unit (d.out.drop p.mark) = none)
    (a b : Nat) : stallTimeout d t a b = wedge (raise (finishPend d p 0xA) 0x8104 p.idx p.ticket) 1 a b := by
  simp [stallTimeout, h, hrun]

theorem pumpRow_of_none {r : Nat} (h : tfind d.ev.subs r = none) : pumpRow d r = d := by simp only [pumpRow, h]

theorem pumpRows_of_none (h : d.ev.subs = []) : pumpRows d = d := by simp [pumpRows, h, tfind]

/-- A tick without a frame and without a subscriber moves the controller's liveness count alone. -/
theorem serveTick_of_idle (i : OpInfo) (hq : d.hp.queue = []) (hsubs : d.ev.subs = []) :
    serveTick d i = { d with rl := { d.rl with mclive := (d.rl.mclive + 1) % 65536 } } := by
  have hhp : ({ d.hp with queue := [] } : Hp) = d.hp := by rw [← hq]
  unfold serveTick
  simp only [hq, List.foldl_nil, hhp]
  exact pumpRows_of_none _ hsubs

end

/-- Settles O38: the controller's liveness count rises once per tick (log 62). -/
theorem pendingAndDelivery : Obligations.PendingAndDelivery := by
  refine ⟨?pending, ?resend, ?ackComplete, ?ackEvents, ?delivery, ?noRow, ?tick, ?held⟩
  case pending =>
    intro s t hact
    have hcomplete : exec (.pendingComplete t) s = after s (pendingComplete s.dev t) := by
      rw [exec_pendingComplete, onUnit_acting _ _ hact]
    have hstall (a b : Nat) : exec (.stallTimeout t a b) s = after s (stallTimeout s.dev t a b) := by
      rw [exec_stallTimeout, onUnit_acting _ _ hact]
    simp only [hcomplete, hstall]
    refine ⟨fun p st h hdone => ⟨?_, fun a b => ?_⟩, fun p h hrun => ⟨?_, fun a b => ?_⟩, fun h => ⟨?_, fun a b => ?_⟩⟩
    · rw [pendingComplete_of_done _ _ h hdone]
    · rw [stallTimeout_of_done _ _ h hdone]
    · rw [pendingComplete_of_running _ _ h hrun]
    · rw [stallTimeout_of_running _ _ h hrun]
    · simp only [pendingComplete, h]
    · simp only [stallTimeout, h]
  case resend =>
    intro s t hact hit
    rw [exec_completeResend, onUnit_acting _ _ hact]
    refine ⟨fun p h => ?_, fun h => ?_⟩
    · have hlast : (16 ≤ p.sends + 1) = (15 ≤ p.sends) := by simp
      simp only [hit] at h
      simp only [completeResend, h, hlast]
      rfl
    · simp only [hit] at h
      simp only [completeResend, h]
  case ackComplete =>
    intro s n q hact
    rw [exec_ackComplete, onUnit_acting _ _ hact]
    rfl
  case ackEvents =>
    intro s r e x hact hx b sent
    have hsent : (seqGe b x.base && seqGe x.next b) = true ↔ sent := by simp [sent]
    rw [exec_ackEvents, onUnit_acting _ _ hact]
    simp only [ackEvents, hx]
    exact ⟨fun h => congrArg (after s) (if_pos (hsent.2 h)), fun h => congrArg (after s) (if_neg (mt hsent.1 h))⟩
  case delivery =>
    intro s r x hact hx due
    have hdue : (x.stalled || (rowEvents s.dev r x.base).isEmpty || x.base == x.next) = true ↔ ¬ due := by
      cases hstall : x.stalled <;> simp [due, hstall, Classical.or_iff_not_imp_left]
    rw [exec_eventResend, onUnit_acting _ _ hact, exec_subscriberRetry, onUnit_acting _ _ hact]
    simp only [eventResend, subscriberRetry, hx]
    refine ⟨fun h hlt => ?_, fun h hge => ?_, fun h => ?_, fun h => ?_, fun h => ?_⟩
    · rw [if_neg (fun hc => hdue.1 hc h), if_pos hlt]
    · rw [if_neg (fun hc => hdue.1 hc h), if_neg (by omega)]
    · rw [if_pos (hdue.2 h)]
    · rw [if_pos h]
    · rw [if_neg (by simp [h])]
  case noRow =>
    intro s r e hact hx i hi
    simp only [List.mem_cons, List.not_mem_nil, or_false] at hi
    obtain rfl | rfl | rfl := hi
    · rw [exec_ackEvents, onUnit_acting _ _ hact]
      simp only [ackEvents, hx]
    · rw [exec_eventResend, onUnit_acting _ _ hact]
      simp only [eventResend, hx]
    · rw [exec_subscriberRetry, onUnit_acting _ _ hact]
      simp only [subscriberRetry, hx]
  case tick =>
    intro s i hheld
    rw [exec_syseridTick, onMgmt_acting _ _ hheld, syseridTick]
    refine ⟨fun h => ?_, fun h hq hsubs => ?_, fun h => by rw [if_pos h], rfl, rfl⟩
    · rw [if_neg (by simp [h])]
    · rw [if_neg (by simp [h]), serveTick_of_idle (clockTick s.dev) _ hq hsubs]
      rfl
  case held =>
    intro s i hheld
    rw [exec_syseridTick, onMgmt_held _ _ hheld]

end Sys2Proof.Machine

/-! Configuration generations (chapter 20): attempts and their tests, what a generation in force leaves, the armed generation and
the stores. -/

namespace Sys2Proof.Machine

/-! ### What a generation in force leaves (R562) -/

section
variable (d : Dev)

theorem spillShow_gn (h : Nat) : (spillShow d h).gn = d.gn := by
  unfold spillShow
  dsimp only
  split
  · rw [raiseStep_gn]; rfl
  · rfl

theorem ledgerApply_gn (e v : Nat) : (ledgerApply d e v).gn = d.gn := by
  unfold ledgerApply
  dsimp only
  split <;> rfl

theorem qpApply_gn (i old new : Nat) : (qpApply d i old new).gn = d.gn := by
  unfold qpApply
  split <;> rfl

theorem putValue_gn (e : Nat × Nat) : (putValue d e).gn = d.gn := by
  unfold putValue
  split <;> rfl

/-- A record put in force leaves the staging set; a P value only waits. -/
theorem applyRec_staged (e : Nat × Nat) : (applyRec d e).gn.staged = d.gn.staged := by
  have hput := congrArg Gn.staged (putValue_gn d e)
  unfold applyRec
  dsimp only
  split
  · rfl
  split
  · rw [ledgerApply_gn]; exact hput
  split
  · rw [qpApply_gn]; exact hput
  split <;> exact hput

theorem reserveSpill_gn (h : Nat) : (reserveSpill d h).gn = d.gn := by
  unfold reserveSpill
  dsimp only
  rw [spillShow_gn]

theorem storeNext_frame : (storeNext d).objs = d.objs ∧ (storeNext d).gn.staged = d.gn.staged ∧
    (storeNext d).gn.current = d.gn.current ∧ (storeNext d).gn.previous = d.gn.previous := by
  unfold storeNext
  split <;> exact ⟨rfl, rfl, rfl, rfl⟩

/-- Generation `gcGen r` in force, the one before it previous, and 0x0201 logged. -/
theorem genApply_spec (r : Nat) (rollback : Bool) (recs : Tab Nat) : let e := genApply d r rollback recs
    e.gn.current = gcGen r ∧ e.gn.staged = d.gn.staged ∧ e.gn.previous = some (d.gn.current, genValues d) ∧
    cfg e 0x2000 0 = gcGen r ∧ cfg e 0x2001 0 = d.gn.current ∧ Logged e 0x0201 (gcGen r) 0 := by
  unfold genApply
  extract_lets prev d1 d2 old d3 kept d4
  have hstaged : d2.gn.staged = d.gn.staged := by
    have h1 : d1.gn.staged = d.gn.staged := foldl_keeps (fun d => d.gn.staged) applyRec_staged recs d
    simp only [d2]
    split
    · rw [reserveSpill_gn, reserveSpill_gn, h1]
    · exact h1
  have hd4 : d4.gn.staged = d3.gn.staged ∧ d4.gn.current = d3.gn.current ∧ d4.gn.previous = d3.gn.previous := by
    simp only [d4]
    split
    · obtain ⟨-, hs, hc, hp⟩ := storeNext_frame
        { d3 with gn := { d3.gn with queue := d3.gn.queue ++ [{ gen := gcGen r, vals := genValues d3 }] } }
      exact ⟨hs, hc, hp⟩
    · exact ⟨rfl, rfl, rfl⟩
  obtain ⟨hs, hc, hp⟩ := hd4
  clear_value d4
  refine ⟨?_, ?_, ?_, ?_, ?_, raise_logged _ _ _ _⟩
  · rw [raise_gn]; exact hc
  · rw [raise_gn]; exact hs.trans hstaged
  · rw [raise_gn]; exact hp
  · rw [cfg_raise_idx _ _ _ _ _ _ (by decide) (by decide), cfg_setObj_idx _ _ _ _ _ _ (by decide) (by decide) (by decide),
      cfg_setObj_same]
  · rw [cfg_raise_idx _ _ _ _ _ _ (by decide) (by decide), cfg_setObj_same]

end

/-! ### Attempts (R557 to R560, R566) -/

section
variable (d : Dev) (r : Nat)

/-- The object an attempt is written to. -/
def attemptObj (rollback : Bool) : Nat := if rollback then 0x2032 else 0x2030

/-- The first test that an attempt fails. -/
def attemptFail (rollback : Bool) : Option GenFail :=
  firstFail (genFails d (attemptRecs d rollback) (gcStore r) (attemptObj rollback) ++ commitFails d r rollback (attemptRecs d rollback))

theorem attemptFail_commit : attemptFail d r false =
    firstFail (genFails d d.gn.staged (gcStore r) 0x2030 ++ commitFails d r false d.gn.staged) := rfl

theorem attemptFail_rollback : attemptFail d r true = firstFail (genFails d (rollbackRecs d ((d.gn.previous.map Prod.snd).getD []))
    (gcStore r) 0x2032 ++ commitFails d r true (rollbackRecs d ((d.gn.previous.map Prod.snd).getD []))) := rfl

theorem genAttempt_of_range {rollback : Bool} (h : gcOk r rollback = false) :
    genAttempt d r rollback = send d (.status (attemptObj rollback) 0 5) := by
  unfold genAttempt
  dsimp only
  rw [if_pos (by simp [h]), attemptObj]

variable {r}

theorem genAttempt_of_fail {rollback : Bool} {f : GenFail} (hok : gcOk r rollback = true) (h : attemptFail d r rollback = some f) :
    genAttempt d r rollback = send (setObj d 0x2021 0 (checkWord (some f) (recsDigest d.gn.staged) (gcGen r) false))
      (.status (attemptObj rollback) 0 6) := by
  unfold attemptFail attemptObj at h
  unfold genAttempt
  dsimp only
  rw [if_neg (by simp [hok]), h]
  rfl

/-- The device an attempt that fails no test works on: a commit takes the staging set. -/
def attempted (rollback : Bool) : Dev := if rollback then d else { d with gn := { d.gn with staged := [] } }

/-- The device with the attempt armed (R559). -/
def attemptArmed (r : Nat) (rollback : Bool) : Dev :=
  let e := attempted d rollback
  { e with gn := { e.gn with armed := some { raw := r, rollback, recs := if rollback then [] else attemptRecs d rollback } } }

/-- An attempt that fails no test is applied at once, or armed. -/
theorem genAttempt_of_good {rollback : Bool} (hok : gcOk r rollback = true) (h : attemptFail d r rollback = none) :
    genAttempt d r rollback =
      if gcWhen r = 0 then send (genApply (attempted d rollback) r rollback (attemptRecs d rollback)) (.status (attemptObj rollback) 0 0)
      else send (if gcWhen r = 2 ∧ d.hp.ptp.state = 3 then raise (attemptArmed d r rollback) 0x4202 (gcGen r) 0
        else attemptArmed d r rollback) (.status (attemptObj rollback) 0 0) := by
  unfold attemptFail attemptObj at h
  unfold genAttempt
  dsimp only
  rw [if_neg (by simp [hok]), h]
  rfl

theorem genAttemptAt_of_when {w : Nat} (rollback : Bool) (h : gcWhen r = w) : genAttemptAt d r w rollback = genAttempt d r rollback := if_pos h

end

/-! ### The armed generation (R561, R563) -/

section
variable (d : Dev) {a : Armed}

/-- The device without its armed generation. -/
def disarmed : Dev := { d with gn := { d.gn with armed := none } }

/-- The records of the armed generation at its instant. -/
def armedRecs (a : Armed) : Tab Nat := if a.rollback then rollbackRecs (disarmed d) ((d.gn.previous.map Prod.snd).getD []) else a.recs

/-- The first test that the armed generation fails at its instant. -/
def armedFail (a : Armed) : Option GenFail :=
  firstFail (genFails (disarmed d) (armedRecs d a) (gcStore a.raw) (if a.rollback then 0x2032 else 0x2030))

theorem genInstant_of_good (h : d.gn.armed = some a) (hgood : armedFail d a = none) :
    genInstant d = genApply (disarmed d) a.raw a.rollback (armedRecs d a) := by
  unfold armedFail armedRecs disarmed at hgood
  unfold genInstant
  rw [h]
  dsimp only
  rw [hgood]
  rfl

theorem genInstant_of_fail {f : GenFail} (h : d.gn.armed = some a) (hfail : armedFail d a = some f) :
    genInstant d = raise (setObj (disarmed d) 0x2021 0 (checkWord (some f) (recsDigest (armedRecs d a)) (gcGen a.raw) true)) 0x8203
      (gcGen a.raw) f.idx := by
  unfold armedFail armedRecs disarmed at hfail
  unfold genInstant
  rw [h]
  dsimp only
  rw [hfail]
  rfl

theorem armedTimeApply_of_due (h : d.gn.armed = some a) (hdue : gcWhen a.raw = 2 ∧ gcAt a.raw ≤ d.ptp) : armedTimeApply d = genInstant d := by
  rw [armedTimeApply, h]
  exact if_pos hdue

theorem armedTimeApply_of_early (h : ∀ a, d.gn.armed = some a → gcWhen a.raw ≠ 2 ∨ d.ptp < gcAt a.raw) : armedTimeApply d = d := by
  unfold armedTimeApply
  split
  next a ha => exact if_neg (by have := h a ha; omega)
  · rfl

end

/-! ### Stores (R567) -/

section
variable (d : Dev) (ok : Bool)

/-- The device with the store `g` ended. -/
def storeEnded (g : GenStore) : Dev :=
  let e := setSlot d (storeSlot d) { valid := ok, header := true, gen := g.gen, vals := g.vals }
  { e with gn := { e.gn with storing := none, storeState := if ok then 0 else 2 } }

theorem storeEnded_slots (g : GenStore) :
    (if storeSlot d = 0 then (storeEnded d ok g).gn.slot0 else (storeEnded d ok g).gn.slot1) =
      { valid := ok, header := true, gen := g.gen, vals := g.vals } ∧
    (if storeSlot d = 0 then (storeEnded d ok g).gn.slot1 else (storeEnded d ok g).gn.slot0) =
      (if storeSlot d = 0 then d.gn.slot1 else d.gn.slot0) ∧ (storeEnded d ok g).gn.queue = d.gn.queue := by
  unfold storeEnded setSlot
  by_cases h : storeSlot d = 0 <;> simp [h]

/-- With no store in progress the next one of the queue begins. -/
theorem storeNext_of_idle (h : d.gn.storing = none) : (storeNext d).gn = { d.gn with
    storing := d.gn.queue.head?
    queue := d.gn.queue.tail
    storeState := if d.gn.queue = [] then d.gn.storeState else 1 } := by
  unfold storeNext
  cases hq : d.gn.queue with
  | nil =>
    rw [h]
    dsimp only
    rw [if_pos rfl, List.head?_nil, List.tail_nil, ← h, ← hq]
  | cons g rest => rw [h]; simp

end

section
variable {s : State} {r : Nat}

/-- The three forms of a commit, by WHEN. -/
theorem exec_commit (hs : Serving s 0x2030 0) {c : Nat × Instr} (hc : c ∈ [(0, Instr.commitNow r), (1, .commitAtBoundary r), (2, .commitAtTime r)])
    (hw : gcWhen r = c.1) : exec c.2 s = after s (genAttempt s.dev r false) := by
  simp only [List.mem_cons, List.not_mem_nil, or_false] at hc
  obtain rfl | rfl | rfl := hc
  · rw [exec_commitNow, onObject_serving hs, genAttemptAt_of_when _ _ hw]
  · rw [exec_commitAtBoundary, onObject_serving hs, genAttemptAt_of_when _ _ hw]
  · rw [exec_commitAtTime, onObject_serving hs, genAttemptAt_of_when _ _ hw]

/-- The three forms of a rollback, by WHEN. -/
theorem exec_rollback (hs : Serving s 0x2032 0) {c : Nat × Instr}
    (hc : c ∈ [(0, Instr.rollbackNow r), (1, .rollbackAtBoundary r), (2, .rollbackAtTime r)]) (hw : gcWhen r = c.1) :
    exec c.2 s = after s (genAttempt s.dev r true) := by
  simp only [List.mem_cons, List.not_mem_nil, or_false] at hc
  obtain rfl | rfl | rfl := hc
  · rw [exec_rollbackNow, onObject_serving hs, genAttemptAt_of_when _ _ hw]
  · rw [exec_rollbackAtBoundary, onObject_serving hs, genAttemptAt_of_when _ _ hw]
  · rw [exec_rollbackAtTime, onObject_serving hs, genAttemptAt_of_when _ _ hw]

end

/-- Settles O39: the check's result is formed when GenCheck is written (log 56). -/
theorem generationCommands : Obligations.GenerationCommands := by
  refine ⟨?check, ?checkDone, ?commit, ?armed, ?commitFails, ?rollback, ?rollbackRange, ?instant, ?early, ?cancel, ?discard, ?store⟩
  case check =>
    intro s v hs armed
    rw [exec_genCheck, exec_genCheck, onObject_serving hs, onObject_serving hs]
    refine ⟨fun h => ?_, fun h => ?_, fun h => by rw [genCheck, if_pos h]⟩
    · rw [genCheck, if_neg (by decide), if_neg (by simp [h])]
    · rw [genCheck, if_neg (by decide), if_pos h]
  case checkDone =>
    intro s hact
    rw [exec_genCheckDone, onUnit_acting _ _ hact]
    exact ⟨fun w h => by simp only [genCheckDone, h], fun h => by simp only [genCheckDone, h]⟩
  case commit =>
    intro s r hs hok hw htests
    obtain ⟨hcurrent, hstaged, hprevious, h2000, h2001, hlog⟩ :=
      genApply_spec { s.dev with gn := { s.dev.gn with staged := [] } } r false s.dev.gn.staged
    refine ⟨_, ?_, rfl, hcurrent, hstaged, hprevious, (cfg_send _ _ _ _).trans h2000, (cfg_send _ _ _ _).trans h2001,
      (Logged_send _ _ _ _ _).2 hlog⟩
    rw [exec_commit hs (c := (0, .commitNow r)) (by simp) hw, genAttempt_of_good s.dev hok ((attemptFail_commit _ _).trans htests),
      if_pos hw]
    rfl
  case armed =>
    intro s r w hs hok hw hpos htests d
    refine ⟨fun h => ?_, fun h => ?_⟩
    · rw [exec_commit hs (c := (1, .commitAtBoundary r)) (by simp) (hw.trans h), genAttempt_of_good s.dev hok ((attemptFail_commit _ _).trans htests),
        if_neg (by omega), if_neg (by omega)]
      rfl
    · have : (gcWhen r = 2 ∧ s.dev.hp.ptp.state = 3) = (s.dev.hp.ptp.state = 3) := by simp [hw, h]
      rw [exec_commit hs (c := (2, .commitAtTime r)) (by simp) (hw.trans h), genAttempt_of_good s.dev hok ((attemptFail_commit _ _).trans htests),
        if_neg (by omega)]
      simp only [this]
      rfl
  case commitFails =>
    intro s r hs c hc hw
    rw [exec_commit hs hc hw]
    refine ⟨fun h => ?_, fun f hok hf => ?_⟩
    · rw [genAttempt_of_range _ _ h]
      rfl
    · rw [genAttempt_of_fail s.dev hok ((attemptFail_commit _ _).trans hf)]
      rfl
  case rollback =>
    intro s r hs hok recs tests d
    refine ⟨fun h hw => ?_, fun h hw => ?_, fun h hw => ?_, fun f hf c hc hw => ?_⟩
    · rw [exec_rollback hs (c := (0, .rollbackNow r)) (by simp) hw, genAttempt_of_good s.dev hok ((attemptFail_rollback _ _).trans h), if_pos hw]
      rfl
    · rw [exec_rollback hs (c := (1, .rollbackAtBoundary r)) (by simp) hw, genAttempt_of_good s.dev hok ((attemptFail_rollback _ _).trans h), if_neg (by omega), if_neg (by omega)]
      rfl
    · have : (gcWhen r = 2 ∧ s.dev.hp.ptp.state = 3) = (s.dev.hp.ptp.state = 3) := by simp [hw]
      rw [exec_rollback hs (c := (2, .rollbackAtTime r)) (by simp) hw, genAttempt_of_good s.dev hok ((attemptFail_rollback _ _).trans h), if_neg (by omega)]
      simp only [this]
      rfl
    · rw [exec_rollback hs hc hw, genAttempt_of_fail s.dev hok ((attemptFail_rollback _ _).trans hf)]
      rfl
  case rollbackRange =>
    intro s r hs hok c hc hw
    rw [exec_rollback hs hc hw, genAttempt_of_range _ _ hok]
    rfl
  case instant =>
    intro s a hact ha hwhen hat d recs tests
    rw [exec_armedTimeApply, onUnit_acting _ _ hact, armedTimeApply_of_due _ ha ⟨hwhen, hat⟩]
    exact ⟨fun h => by rw [genInstant_of_good _ ha h]; rfl, fun f hf => by rw [genInstant_of_fail _ ha hf]; rfl⟩
  case early =>
    intro s hact h
    rw [exec_armedTimeApply, onUnit_acting _ _ hact, armedTimeApply_of_early _ h]
  case cancel =>
    intro s v hs
    rw [exec_genCancel, exec_genCancel, onObject_serving hs, onObject_serving hs]
    refine ⟨fun a h => ?_, fun h => ?_, fun h => by rw [genCancel, if_pos h]⟩
    · rw [genCancel, if_neg (by decide)]
      simp only [h]
    · rw [genCancel, if_neg (by decide)]
      simp only [h]
  case discard =>
    intro s v hs
    rw [exec_stageDiscard, exec_stageDiscard, onObject_serving hs, onObject_serving hs]
    exact ⟨rfl, fun h => by rw [stageDiscard, if_neg h]⟩
  case store =>
    intro s ok hheld
    rw [exec_genStoreDone, onMgmt_acting _ _ hheld]
    refine ⟨fun g hg => ?_, fun h => by simp only [genStoreDone, h]⟩
    obtain ⟨hwritten, hother, hqueue⟩ := storeEnded_slots s.dev ok g
    have hnext := storeNext_of_idle (storeEnded s.dev ok g) rfl
    have hdone : genStoreDone s.dev ok = raise (storeNext (storeEnded s.dev ok g)) (if ok then 0x0206 else 0x8207) g.gen 0 := by
      simp only [genStoreDone, hg]
      rfl
    refine ⟨_, congrArg (after s) hdone, ?_, ?_, ?_, ?_, ?_, raise_logged _ _ _ _⟩
    all_goals rw [raise_gn, hnext, hqueue]
    · rfl
    · exact hwritten
    · exact hother

end Sys2Proof.Machine

/-! The snapshot engine (chapter 21): a restore that passes. -/

namespace Sys2Proof.Machine

/-- A command leaves one device. -/
theorem after_inj {s : State} {d e : Dev} (h : after s d = after s e) : d = e :=
  congrArg (fun s : State => s.dev) (Host.Outcome.next.inj h)

section
variable (d : Dev) {r : Nat} {c : Cut} {i : Option Cut} {bad : List (Nat × Nat × Bool)}

/-- The device at the restore of a cut, before the records are written (R591). -/
def restoreBegun : Dev := setObj (setSn d { d.sn with restoring := none }) 0xC121 0 0

/-- A restore that passes writes the cut (R590, R591). -/
theorem restoreEnd_of_pass (hr : d.sn.restoring = some r) (hc : restoreCut d r i = some c) (hf : restoreFail d r (some c) bad = none) :
    restoreEnd d i bad = (true, send (restoreWrite (restoreBegun d) c bad) (.done 0xC120 0 0)) := by
  simp only [restoreEnd, hr, hc, hf]
  rfl

theorem restoreDone_of_pass (hr : d.sn.restoring = some r) (hc : restoreCut d r i = some c) (hf : restoreFail d r (some c) bad = none)
    (ha : d.rc.active = none) : (restoreDone d i bad).sq = (restoreWrite (restoreBegun d) c bad).sq := by
  have hend := restoreEnd_of_pass d hr hc hf
  generalize restoreWrite (restoreBegun d) c bad = w at hend ⊢
  unfold restoreDone
  rw [hr]
  dsimp only
  rw [hend, ha]
  rfl

/-- The device with the records of a cut without memory items, before its queues are laid out again. -/
def recordsBack (c : Cut) : Dev :=
  { endRecs d with
    up := { c.up with heldForCut := false }, wv := c.wv, ce := c.ce, ex := c.ex, sq := c.sq, sems := c.sems
    seq := { d.seq with ctxs := c.ctxs, savedSems := c.savedSems, restored := true } }

theorem sqAt_recordsBack (c : Cut) (q : Nat) : sqAt (recordsBack d c) q = tget spawnQReset c.sq.queues q := rfl

/-- The spawn queues a restore leaves are those of the cut, laid out queue by queue (R312). -/
theorem restoreWrite_sq (h : c.mem = []) : (restoreWrite d c []).sq =
    ((c.sq.queues.map Prod.fst).foldl restoreQueue (recordsBack d c)).sq := by
  simp only [restoreWrite, h, List.foldl_nil, raise_sq]
  rfl

end

/-! ### A queue no context has -/

/-- A queue number whose row of SqLinkTable would stand at the key of SnRestoreResult. -/
def strayQueue : Nat := 2 * ((0xC121 - 0x6110) * 256 - 1)

/-- One entry in the resident part. -/
def oneEntry : SpawnQ := { spawnQReset with resident := [0] }

/-- The device in the midst of a restore from the host, with a result of an earlier restore that reads as a resident part of one. -/
def restoringState : State := { startedState with
  dev := setSn (setObj startedState.dev 0xC121 0 (2 ^ 291)) { startedState.dev.sn with restoring := some (2 * 2 ^ 126) } }

theorem noRecord_restoring : restoringState.dev.rc.active = none := by decide +kernel

/-- A cut of a device with one queue alone. -/
def strayCutOf (d : Dev) : Cut := { cutOf d [] with sq := { sqReset with queues := [(strayQueue, oneEntry)] } }

theorem strayCutOf_manifest (d : Dev) : (strayCutOf d).jobTag = cfg d 0xC101 0 ∧ (strayCutOf d).devid = ownDev d ∧
    (strayCutOf d).genCrc = recsDigest (genValues d) := ⟨rfl, rfl, rfl⟩

theorem strayCutOf_queues (d : Dev) : (strayCutOf d).sq.queues = [(strayQueue, oneEntry)] := rfl

abbrev strayCut : Cut := strayCutOf restoringState.dev

theorem restoreCut_stray : restoreCut restoringState.dev (2 * 2 ^ 126) (some strayCut) = some strayCut := by
  have hsource : srSource (2 * 2 ^ 126) = 2 := by decide +kernel
  rw [restoreCut, hsource]
  rfl

theorem restoreFail_stray : restoreFail restoringState.dev (2 * 2 ^ 126) (some strayCut) [] = none := by
  have hown : ownDev restoringState.dev = srDevid (2 * 2 ^ 126) := by decide +kernel
  obtain ⟨htag, hdev, hgen⟩ := strayCutOf_manifest restoringState.dev
  simp only [restoreFail, hdev, htag, hgen, hown, ne_eq, not_true, if_false]
  rfl

theorem poolRes_strayQueue : poolRes restoringState.dev (strayQueue / 2) (strayQueue % 2) = 1 := by decide +kernel

/-- SnRestoreResult is 0 once the restore has passed, and with it the resident part. -/
theorem poolRes_restoreBegun : poolRes (recordsBack (restoreBegun restoringState.dev) strayCut) (strayQueue / 2) (strayQueue % 2) = 0 := by
  decide +kernel

/-- So the entry goes to the spill area. -/
theorem resident_strayQueue : (sqAt (restoreDone restoringState.dev (some strayCut) []) strayQueue).resident = [] := by
  have hsq := (restoreDone_of_pass restoringState.dev rfl restoreCut_stray restoreFail_stray noRecord_restoring).trans
    (restoreWrite_sq (restoreBegun restoringState.dev) (c := strayCut) rfl)
  have hqueue : sqAt (recordsBack (restoreBegun restoringState.dev) strayCut) strayQueue = oneEntry := by
    rw [sqAt_recordsBack, strayCutOf_queues]
    rfl
  have hlaid : restoreQueue (recordsBack (restoreBegun restoringState.dev) strayCut) strayQueue =
      spillEntry (setSq (recordsBack (restoreBegun restoringState.dev) strayCut) strayQueue { oneEntry with resident := [] }) strayQueue 0 := by
    simp only [restoreQueue, hqueue, poolRes_restoreBegun]
    rfl
  have hlist : strayCut.sq.queues.map Prod.fst = [strayQueue] := by rw [strayCutOf_queues]; rfl
  rw [sqAt, hsq, hlist, List.foldl_cons, List.foldl_nil, hlaid]
  have hspill := sqAt_spillEntry (setSq (recordsBack (restoreBegun restoringState.dev) strayCut) strayQueue { oneEntry with resident := [] }) strayQueue 0
  rw [sqAt_setSq_same] at hspill
  exact congrArg SpawnQ.resident hspill

/-- Refutes O40: the clause on a restore that passes speaks of the queue of every number `q`, and reads the size of its resident part
before the restore. SqLinkTable has 64 rows; the key of "row" `strayQueue / 2` is that of SnRestoreResult, which the restore itself
clears, so the entry of that queue, which fitted before, is spilled. -/
theorem not_snapshotCommands : ¬ Obligations.SnapshotCommands := by
  intro ⟨_, _, _, _, _, _, _, _, _, hrestore, _, _⟩
  obtain ⟨d, hexec, -, -, -, -, -, -, -, hqueues, -⟩ := hrestore restoringState (2 * 2 ^ 126) (some strayCut) [] strayCut (by decide +kernel)
    noRecord_restoring rfl restoreCut_stray restoreFail_stray
  rw [exec_restoreDone, onUnit_acting _ _ (by decide +kernel)] at hexec
  have hdev : restoreDone restoringState.dev (some strayCut) [] = d := after_inj hexec
  have hfits : ∀ q, (tget spawnQReset strayCut.sq.queues q).resident.length ≤ poolRes restoringState.dev (q / 2) (q % 2) := by
    intro q
    by_cases hq : strayQueue = q
    · subst hq
      rw [poolRes_strayQueue]
      decide +kernel
    · have : tget spawnQReset strayCut.sq.queues q = spawnQReset := by
        simp only [strayCutOf_queues, tget, tfind, if_neg hq, Option.getD_none]
      rw [this]
      exact Nat.zero_le _
  have hone := hqueues hfits strayQueue
  rw [← hdev] at hone
  have hlen := resident_strayQueue
  rw [hone] at hlen
  exact absurd hlen (by decide +kernel)

end Sys2Proof.Machine

/-! Spares and recovery (chapter 22): the acceptance and the start of a recovery record, the roles it gives, its restores, and
wedged devices. -/

namespace Sys2Proof.Machine

/-! ### The acceptance of a record (R598 to R602, R610) -/

section
variable {d : Dev} {r : Nat}

theorem rcRecover_of_held (h : (heldRecords d).contains r = true) : rcRecover d r = send d (.status 0xC210 0 0) := if_pos h

theorem rcRecover_of_refused (h : (heldRecords d).contains r = false) (hr : recordRefused d r = true) :
    rcRecover d r = send (raise d 0x8C45 (rrRid r) (rrFailed r)) (.status 0xC210 0 6) := by
  rw [rcRecover, if_neg (by rw [h]; decide), if_pos hr]

theorem rcRecover_of_running (hr : recordRefused d r = false) (hx : ∃ x ∈ runningRecords d, rrFailed x = rrFailed r) :
    rcRecover d r = send d (.status 0xC210 0 0) := by
  obtain ⟨x, hx, hf⟩ := hx
  have hany : (runningRecords d).any (fun x => rrFailed x == rrFailed r) = true := List.any_eq_true.2 ⟨x, hx, by simpa using hf⟩
  by_cases h : (heldRecords d).contains r = true
  · exact rcRecover_of_held h
  · rw [rcRecover, if_neg h, if_neg (by rw [hr]; decide), if_pos hany]

/-- A record that is neither held nor refused, for a device without one. -/
def freshRecord (d : Dev) (r : Nat) : Prop := (heldRecords d).contains r = false ∧ recordRefused d r = false ∧
  ∀ x ∈ runningRecords d, rrFailed x ≠ rrFailed r

/-- The device with a new record announced. -/
abbrev recordTaken (d : Dev) (r : Nat) : Dev := raise d 0x0C40 (rrRid r) (rrFailed r)

/-- The device with a new record in its queue. -/
abbrev recordQueued (d : Dev) (r : Nat) : Dev := setRc (recordTaken d r) { d.rc with queue := d.rc.queue ++ [r] }

theorem rcRecover_of_fresh (h : freshRecord d r) (hl : spareLost d r = none) : rcRecover d r =
    send (if (heldRecords d).isEmpty then recordQueued d r
      else raise (fenceDev (recordQueued d r) (rrFailed r)) 0x4C42 (rrRid r) (rrFailed r)) (.status 0xC210 0 0) := by
  obtain ⟨hheld, href, hrun⟩ := h
  have hany : ¬ ((runningRecords d).any (fun x => rrFailed x == rrFailed r)) = true := by simpa using hrun
  rw [rcRecover, if_neg (by rw [hheld]; decide), if_neg (by rw [href]; decide), if_neg hany, hl]
  dsimp only
  rw [raise_rc]

theorem rcRecover_of_spareLost {row x : Nat} (h : freshRecord d r) (hl : spareLost d r = some (row, x)) : rcRecover d r =
    send (if rrFailed r = cfg d 0xC203 0 then fenceSelf (restartRecord (recordTaken d r) row x r) r
      else restartRecord (recordTaken d r) row x r) (.status 0xC210 0 0) := by
  obtain ⟨hheld, href, hrun⟩ := h
  have hany : ¬ ((runningRecords d).any (fun x => rrFailed x == rrFailed r)) = true := by simpa using hrun
  rw [rcRecover, if_neg (by rw [hheld]; decide), if_neg (by rw [href]; decide), if_neg hany, hl]

/-- A device that holds no record uses no spare. -/
theorem spareLost_of_none_held (h : heldRecords d = []) : spareLost d r = none := by
  obtain ⟨hopen, hended⟩ := List.append_eq_nil_iff.1 h
  obtain ⟨hactive, -⟩ := List.append_eq_nil_iff.1 hopen
  have huser (row : Nat) : rowUser d row = none := by
    unfold rowUser
    rw [hactive, hended]
    split <;> rfl
  refine List.findSome?_eq_none_iff.2 fun row _ => ?_
  rw [huser row]
  split <;> rfl

/-- The spare that is lost stands in one of the 16 rows. -/
theorem row_of_spareLost {row x : Nat} (h : spareLost d r = some (row, x)) : 1 ≤ row ∧ row ≤ 16 := by
  obtain ⟨k, hk, hsome⟩ := List.exists_of_findSome?_eq_some h
  obtain ⟨n, hn, rfl⟩ := List.mem_map.1 hk
  have hrow : n + 1 = row := by
    split at hsome
    · obtain ⟨_, _, heq⟩ := Option.map_eq_some_iff.1 hsome
      exact congrArg Prod.fst heq
    · cases hsome
  have := List.mem_range.1 hn
  omega

theorem restartRecord_spec {row : Nat} (x : Nat) (hrow : row ≤ 16) : cfg (restartRecord d row x r) 0xC202 row = 2 ∧
    (restartRecord d row x r).rc.queue = x :: d.rc.queue ∧ r ∈ (restartRecord d row x r).rc.ended ∧
    Logged (restartRecord d row x r) 0x4C43 (rrRid r) (rrFailed r) := by
  refine ⟨?_, ?_, List.mem_append_right _ (List.mem_singleton_self r), ?_⟩
  · have hobjs : (restartRecord d row x r).objs = (raise (setObj d 0xC202 row 2) 0x4C43 (rrRid r) (rrFailed r)).objs := rfl
    rw [cfg_congr hobjs, cfg_raise_idx _ _ _ _ _ _ (by omega) (by decide), cfg_setObj_same]
  · change x :: (raise (setObj d 0xC202 row 2) 0x4C43 (rrRid r) (rrFailed r)).rc.queue = _
    rw [raise_rc]
    rfl
  · exact ((raise_loggedWithin (setObj d 0xC202 row 2) 0x4C43 (rrRid r) (rrFailed r)).of_log_eq (by rfl)).logged

theorem restartRecord_taken {row : Nat} (x : Nat) (hrow : row ≤ 16) :
    cfg (restartRecord (raise d 0x0C40 (rrRid r) (rrFailed r)) row x r) 0xC202 row = 2 ∧
    (restartRecord (raise d 0x0C40 (rrRid r) (rrFailed r)) row x r).rc.queue = x :: d.rc.queue ∧
    r ∈ (restartRecord (raise d 0x0C40 (rrRid r) (rrFailed r)) row x r).rc.ended ∧
    Logged (restartRecord (raise d 0x0C40 (rrRid r) (rrFailed r)) row x r) 0x4C43 (rrRid r) (rrFailed r) := by
  have h := restartRecord_spec (d := raise d 0x0C40 (rrRid r) (rrFailed r)) (r := r) x hrow
  rw [raise_rc] at h
  exact h

end

/-! ### The start of a record (R603 to R606) -/

/-- The open record's place is kept: its queue, row and last replayed step, the row's state and its ALIAS field. -/
structure RowKept (d e : Dev) : Prop where
  queue : e.rc.queue = d.rc.queue
  row : e.rc.row = d.rc.row
  replay : e.rc.replay = d.rc.replay
  states : ∀ k, k ≤ 16 → cfg e 0xC202 k = cfg d 0xC202 k
  aliases : ∀ k, k ≤ 16 → cfg e 0xC215 k = cfg d 0xC215 k

section
variable {d e x : Dev} {r : Nat}

theorem RowKept.trans (h : RowKept d e) (g : RowKept e x) : RowKept d x :=
  ⟨g.queue.trans h.queue, g.row.trans h.row, g.replay.trans h.replay, fun k hk => (g.states k hk).trans (h.states k hk),
    fun k hk => (g.aliases k hk).trans (h.aliases k hk)⟩

theorem RowKept.of_eq (hrc : e.rc = d.rc) (hcfg : ∀ i k, i = 0xC202 ∨ i = 0xC215 → k ≤ 16 → cfg e i k = cfg d i k) : RowKept d e :=
  ⟨congrArg Rc.queue hrc, congrArg Rc.row hrc, congrArg Rc.replay hrc, fun k => hcfg _ k (.inl rfl), fun k => hcfg _ k (.inr rfl)⟩

theorem RowKept.of_objs (hrc : e.rc = d.rc) (hobjs : e.objs = d.objs) : RowKept d e := .of_eq hrc fun i k _ _ => cfg_congr hobjs i k

theorem setObj_rowKept (d : Dev) {i s : Nat} (v : Nat) (hs : s < 256) (h202 : i ≠ 0xC202) (h215 : i ≠ 0xC215) : RowKept d (setObj d i s v) :=
  .of_eq rfl fun j k hj hk => cfg_setObj_idx _ _ _ _ _ _ hs (by omega) (by omega)

theorem raise_rowKept (d : Dev) (c a b : Nat) : RowKept d (raise d c a b) :=
  .of_eq (raise_rc ..) fun j k hj hk => cfg_raise_idx _ _ _ _ _ _ (by omega) (by omega)

theorem setRcState_rowKept (d : Dev) (n r : Nat) : RowKept d (setRcState d n r) :=
  setObj_rowKept (i := 0xC211) (s := 0) d _ (by decide) (by decide) (by decide)

theorem endPart_rowKept (d : Dev) : RowKept d (endPart d) := by
  unfold endPart
  split <;> exact ⟨rfl, rfl, rfl, fun _ _ => rfl, fun _ _ => rfl⟩

theorem fenceDev_rowKept (d : Dev) (dev : Nat) : RowKept d (fenceDev d dev) :=
  RowKept.trans (e := { d with rl := { d.rl with fenced := if d.rl.fenced.contains dev then d.rl.fenced else dev :: d.rl.fenced } })
    (.of_objs rfl rfl) (setObj_rowKept (i := 0x9052) (s := 0) _ _ (by decide) (by decide) (by decide))

theorem haltAll_rc (d : Dev) : (haltAll d).rc = d.rc ∧ (haltAll d).sn = d.sn ∧ (haltAll d).gn = d.gn := by
  obtain ⟨_, _, _, _, _, hfaults⟩ := foldl_faults _ (fun d x => unitFault_faults d x 0) (enabledCtxs d) d
  exact ⟨(congrArg Dev.rc hfaults :), (congrArg Dev.sn hfaults :), (congrArg Dev.gn hfaults :)⟩

theorem haltAll_rowKept (d : Dev) : RowKept d (haltAll d) := .of_eq (haltAll_rc d).1 fun _ _ _ _ => cfg_haltAll _ _

/-- A quad is disabled (R603). -/
def disableQuad (d : Dev) (q : Nat) : Dev := setQuad d q { quadAt d q with state := 0 }

section
variable (qs : List Nat) (d : Dev)

theorem foldl_disableQuad_rc : (qs.foldl disableQuad d).rc = d.rc := foldl_keeps (step := disableQuad) Dev.rc (fun _ _ => rfl) qs d

theorem foldl_disableQuad_rowKept : RowKept d (qs.foldl disableQuad d) :=
  .of_objs (foldl_disableQuad_rc qs d) (foldl_keeps (step := disableQuad) Dev.objs (fun _ _ => rfl) qs d)

end

theorem quadAt_setQuad_same (d : Dev) (q : Nat) (y : Quad) : quadAt (setQuad d q y) q = y := tget_tset_same _ _ _ _

theorem quadAt_setQuad_ne (d : Dev) {q p : Nat} (y : Quad) (h : q ≠ p) : quadAt (setQuad d q y) p = quadAt d p := tget_tset_ne _ _ _ _ _ h

theorem quadAt_foldl_disableQuad {qs : List Nat} (hnd : qs.Nodup) {q : Nat} (hq : q ∈ qs) :
    (quadAt (qs.foldl disableQuad d) q).state = 0 := by
  have h := foldl_at_of_nodup quadAt disableQuad (fun y => { y with state := 0 }) (fun _ => True)
    (fun d q _ => quadAt_setQuad_same d q _) (fun d q p h => quadAt_setQuad_ne d _ h) hnd (d := d) (fun _ _ => trivial) q
  rw [h, if_pos hq]

theorem fenceSelf_eq (d : Dev) (r : Nat) : fenceSelf d r =
    raise (setRcState ((List.range 16).foldl disableQuad (haltAll d)) 6 r) 0x8C47 (rrRid r) (rrFailed r) := rfl

theorem cfg_setRcState (d : Dev) (n r : Nat) : cfg (setRcState d n r) 0xC211 0 = n * 2 ^ 28 + rrFailed r * 2 ^ 16 + rrRid r := cfg_setObj_same ..

theorem fenceSelf_spec (d : Dev) (r : Nat) : RowKept d (fenceSelf d r) ∧ (fenceSelf d r).rc = d.rc ∧
    cfg (fenceSelf d r) 0xC211 0 = 6 * 2 ^ 28 + rrFailed r * 2 ^ 16 + rrRid r ∧ (∀ q, q < 16 → (quadAt (fenceSelf d r) q).state = 0) ∧
    Logged (fenceSelf d r) 0x8C47 (rrRid r) (rrFailed r) := by
  have hnd : (List.range 16).Nodup := List.nodup_range
  have hmem (q : Nat) (hq : q < 16) : q ∈ List.range 16 := List.mem_range.2 hq
  rw [fenceSelf_eq]
  generalize List.range 16 = qs at hnd hmem
  refine ⟨?_, ?_, ?_, fun q hq => ?_, raise_logged ..⟩
  · exact (((haltAll_rowKept d).trans (foldl_disableQuad_rowKept qs _)).trans (setRcState_rowKept _ 6 r)).trans (raise_rowKept ..)
  · rw [raise_rc]
    exact (foldl_disableQuad_rc qs _).trans (haltAll_rc d).1
  · rw [cfg_raise_idx _ _ _ _ _ _ (by decide) (by decide), cfg_setRcState]
  · rw [quadAt, raise_rl]
    exact quadAt_foldl_disableQuad hnd (hmem q hq)

/-- The flush or the mirror copy of a cut that a survivor abandons. -/
def flushDropped (d : Dev) : Dev :=
  match (d.sn.flush.map (fun f => f.cut)).or d.sn.mirror with
  | some c => flushFail d c
  | none => d

/-- The device without a pending cut. -/
def cutDropped (d : Dev) : Dev := setSn d { d.sn with captured := none, mirror := none, waited := false }

/-- The device without an armed generation. -/
def armedDropped (d : Dev) : Dev :=
  match d.gn.armed with
  | some a => raise { d with gn := { d.gn with armed := none, staged := stageAll a.recs d.gn.staged } } 0x0204 (gcGen a.raw) 0
  | none => d

theorem abandonWork_eq (d : Dev) : abandonWork d = armedDropped (cutDropped (flushDropped (setObj (setObj d 0xC100 0 0) 0x6026 0 0))) := rfl

theorem flushFail_spec (d : Dev) (c : Cut) : RowKept d (flushFail d c) ∧ (flushFail d c).rc = d.rc ∧ (flushFail d c).sn.flush = none := by
  have hset : RowKept d (setSn d { d.sn with flush := none }) := .of_objs rfl rfl
  refine ⟨hset.trans (raise_rowKept ..), raise_rc .., ?_⟩
  rw [flushFail, raise_sn]
  rfl

theorem flushDropped_spec (d : Dev) : RowKept d (flushDropped d) ∧ (flushDropped d).rc = d.rc ∧ (flushDropped d).sn.flush = none := by
  unfold flushDropped
  cases hf : d.sn.flush <;> cases hm : d.sn.mirror
  case none.none => exact ⟨.of_objs rfl rfl, rfl, hf⟩
  all_goals exact flushFail_spec d _

theorem armedDropped_spec (d : Dev) : RowKept d (armedDropped d) ∧ (armedDropped d).rc = d.rc ∧ (armedDropped d).sn = d.sn ∧
    (armedDropped d).gn.armed = none := by
  unfold armedDropped
  cases ha : d.gn.armed with
  | none => exact ⟨.of_objs rfl rfl, rfl, rfl, ha⟩
  | some a =>
    have hstaged : RowKept d { d with gn := { d.gn with armed := none, staged := stageAll a.recs d.gn.staged } } := .of_objs rfl rfl
    refine ⟨hstaged.trans (raise_rowKept ..), raise_rc .., raise_sn .., ?_⟩
    dsimp only
    rw [raise_gn]

theorem abandonWork_spec (d : Dev) : RowKept d (abandonWork d) ∧ (abandonWork d).rc = d.rc ∧ (abandonWork d).sn.flush = none ∧
    (abandonWork d).sn.captured = none ∧ (abandonWork d).sn.mirror = none ∧ (abandonWork d).gn.armed = none := by
  have hset : RowKept d (setObj (setObj d 0xC100 0 0) 0x6026 0 0) :=
    (setObj_rowKept d _ (by decide) (by decide) (by decide)).trans (setObj_rowKept _ _ (by decide) (by decide) (by decide))
  obtain ⟨hrow, hrc, hflush⟩ := flushDropped_spec (setObj (setObj d 0xC100 0 0) 0x6026 0 0)
  obtain ⟨hrow', hrc', hsn, harmed⟩ := armedDropped_spec (cutDropped (flushDropped (setObj (setObj d 0xC100 0 0) 0x6026 0 0)))
  have hcut : RowKept (flushDropped (setObj (setObj d 0xC100 0 0) 0x6026 0 0))
    (cutDropped (flushDropped (setObj (setObj d 0xC100 0 0) 0x6026 0 0))) := .of_objs rfl rfl
  rw [abandonWork_eq, hrc', hsn]
  exact ⟨((hset.trans hrow).trans hcut).trans hrow', hrc, hflush, rfl, rfl, harmed⟩

end

/-! ### The role a record gives (R603) -/

section
variable (d : Dev) (r row : Nat) (rest : List Nat)

/-- A row that carries the failed device's ALIAS gives it up (R605). -/
def clearAlias (failed : Nat) (d : Dev) (j : Nat) : Dev :=
  if bitAt (cfg d 0xC215 j) 31 && fld (cfg d 0xC215 j) 27 16 == failed then setObj d 0xC215 j 0 else d

theorem setAliasRow_eq (failed : Nat) : setAliasRow d failed row =
    setObj (((List.range 16).map (· + 1)).foldl (clearAlias failed) d) 0xC215 row (2 ^ 31 + failed * 2 ^ 16 + spareId d row) := rfl

theorem clearAlias_objs (failed j : Nat) : ∃ objs, clearAlias failed d j = { d with objs := objs } := by
  unfold clearAlias
  split
  · exact ⟨_, rfl⟩
  · exact ⟨d.objs, rfl⟩

theorem cfg_clearAlias (failed : Nat) {i j k : Nat} (hj : j < 256) (hk : k < 256) (hi : i ≠ 0xC215) :
    cfg (clearAlias failed d j) i k = cfg d i k := by
  unfold clearAlias
  split
  · exact cfg_setObj_idx _ _ _ _ _ _ hj hk (Ne.symm hi)
  · rfl

theorem mem_rows {j : Nat} (h : j ∈ (List.range 16).map (· + 1)) : 1 ≤ j ∧ j ≤ 16 := by
  obtain ⟨n, hn, rfl⟩ := List.mem_map.1 h
  have := List.mem_range.1 hn
  omega

theorem cfg_setAliasRow (failed : Nat) (hrow : row ≤ 16) {i k : Nat} (hk : k < 256) (hi : i ≠ 0xC215) :
    cfg (setAliasRow d failed row) i k = cfg d i k := by
  rw [setAliasRow_eq, cfg_setObj_idx _ _ _ _ _ _ (by omega) hk (Ne.symm hi)]
  refine List.foldlRecOn _ _ (motive := fun x => cfg x i k = cfg d i k) rfl fun x hx j hj => ?_
  have := mem_rows hj
  exact (cfg_clearAlias x failed (by omega) hk hi).trans hx

theorem setAliasRow_objs (failed : Nat) : ∃ objs, setAliasRow d failed row = { d with objs := objs } := by
  rw [setAliasRow_eq]
  obtain ⟨objs, h⟩ : ∃ objs, ((List.range 16).map (· + 1)).foldl (clearAlias failed) d = { d with objs := objs } := by
    refine List.foldlRecOn _ _ (motive := fun x : Dev => ∃ objs, x = { d with objs := objs }) ⟨d.objs, rfl⟩ fun x hx j _ => ?_
    obtain ⟨_, rfl⟩ := hx
    exact clearAlias_objs _ failed j
  rw [h]
  exact ⟨_, rfl⟩

theorem cfg_setAliasRow_same (failed : Nat) : cfg (setAliasRow d failed row) 0xC215 row = 2 ^ 31 + failed * 2 ^ 16 + spareId d row :=
  cfg_setObj_same _ _ _ _

/-- The device with its row and ALIAS set. -/
def rowTaken : Dev := setAliasRow (setObj d 0xC202 row 1) (rrFailed r) row

/-- The controller with a record active. -/
def takenRc : Rc := { d.rc with active := some (r, roleOf d r row, false), queue := rest, row := row, replay := some (rrReplay r), stoppedAt := none }

/-- The device with a record active on its row. -/
def recordActive : Dev := setRc (rowTaken d r row) (takenRc d r row rest)

theorem rowTaken_rc : (rowTaken d r row).rc = d.rc := by
  obtain ⟨objs, h⟩ := setAliasRow_objs (setObj d 0xC202 row 1) row (rrFailed r)
  rw [rowTaken, h]
  rfl

theorem takeRecord_eq : takeRecord d r row rest =
    match roleOf d r row with
    | .chosen => setRcState (recordActive d r row rest) 3 r
    | .failed => fenceSelf (endPart (recordActive d r row rest)) r
    | .other => endPart (recordActive d r row rest)
    | .survivor => survivorStart (recordActive d r row rest) r := by
  have hrc : recordActive d r row rest = setRc (rowTaken d r row)
      { (rowTaken d r row).rc with active := some (r, roleOf d r row, false), queue := rest, row := row, replay := some (rrReplay r), stoppedAt := none } := by
    rw [rowTaken_rc]
    rfl
  rw [hrc]
  rfl

/-- What a started record leaves, whatever its role. -/
structure RecordTaken (e : Dev) : Prop where
  queue : e.rc.queue = rest
  place : e.rc.row = row
  replay : e.rc.replay = some (rrReplay r)
  state : cfg e 0xC202 row = 1
  alias_ : cfg e 0xC215 row = 2 ^ 31 + rrFailed r * 2 ^ 16 + spareId d row

variable {d r row rest}

theorem recordActive_taken (hrow : row ≤ 16) : RecordTaken d r row rest (recordActive d r row rest) := by
  refine ⟨rfl, rfl, rfl, ?_, ?_⟩
  · exact (cfg_setAliasRow (setObj d 0xC202 row 1) row (rrFailed r) hrow (i := 0xC202) (k := row) (by omega) (by decide)).trans
      (cfg_setObj_same _ _ _ _)
  · refine (cfg_setAliasRow_same (setObj d 0xC202 row 1) row (rrFailed r)).trans ?_
    rw [spareId, cfg_setObj_idx _ _ _ _ _ _ (by omega) (by omega) (by decide), spareId]

theorem RecordTaken.kept {e x : Dev} (h : RecordTaken d r row rest e) (hrow : row ≤ 16) (k : RowKept e x) : RecordTaken d r row rest x :=
  ⟨k.queue.trans h.queue, k.row.trans h.place, k.replay.trans h.replay, (k.states row hrow).trans h.state, (k.aliases row hrow).trans h.alias_⟩

/-- The parts of the device that tell a survivor what to do. -/
theorem recordActive_frame (hrow : row ≤ 16) : (recordActive d r row rest).seq = d.seq ∧ (recordActive d r row rest).sn = d.sn ∧
    (recordActive d r row rest).rc.restoredAt = d.rc.restoredAt ∧
    survivorRecord (recordActive d r row rest) r = survivorRecord d r := by
  obtain ⟨objs, h⟩ := setAliasRow_objs (setObj d 0xC202 row 1) row (rrFailed r)
  have hsn : (recordActive d r row rest).sn = d.sn := by rw [recordActive, rowTaken, h]; rfl
  have hown : ownDev (recordActive d r row rest) = ownDev d := by
    refine (cfg_setAliasRow (setObj d 0xC202 row 1) row (rrFailed r) hrow (i := 0x9010) (k := 0) (by decide) (by decide)).trans ?_
    exact cfg_setObj_idx _ _ _ _ _ _ (by omega) (by decide) (by decide)
  refine ⟨by rw [recordActive, rowTaken, h]; rfl, hsn, rfl, ?_⟩
  rw [survivorRecord, survivorRecord, hown]
  unfold slotOfStep driveSlot
  rw [hsn]

end

/-! ### A record starts (R602 to R605) -/

section
variable {d : Dev} {r row : Nat} {rest : List Nat}

theorem recordStart_of_row (ha : d.rc.active = none) (hq : d.rc.queue = r :: rest) (hf : freeSpare d = some row) :
    recordStart d = takeRecord d r row rest := by
  unfold recordStart
  rw [ha, hq]
  dsimp only
  rw [hf]

theorem recordStart_of_full (ha : d.rc.active = none) (hq : d.rc.queue = r :: rest) (hf : freeSpare d = none) :
    recordStart d = dropRecords d r := by
  unfold recordStart
  rw [ha, hq]
  dsimp only
  rw [hf]

theorem recordStart_of_stopped (ha : d.rc.active = some (r, .survivor, false)) (hs : allStopped d = true) (hr : d.sn.restoring = none) :
    recordStart d = survivorRestore (setRc d { d.rc with active := some (r, .survivor, true) }) r := by
  unfold recordStart
  rw [ha]
  exact if_pos (by rw [hs, hr]; rfl)

theorem recordStart_of_none (ha : d.rc.active = none) (hq : d.rc.queue = []) : recordStart d = d := by
  unfold recordStart
  rw [ha, hq]

theorem recordStart_of_busy {role : Role} {b : Bool} (ha : d.rc.active = some (r, role, b))
    (h : role ≠ .survivor ∨ b = true ∨ allStopped d = false ∨ d.sn.restoring ≠ none) : recordStart d = d := by
  have hsurvivor (hrole : role = .survivor) (hb : b = false) : (allStopped d && d.sn.restoring.isNone) = false := by
    rcases h with h | h | h | h
    · exact absurd hrole h
    · rw [hb] at h; cases h
    · rw [h]; rfl
    · obtain ⟨x, hx⟩ := Option.ne_none_iff_exists'.1 h
      rw [hx, Option.isNone_some, Bool.and_false]
  unfold recordStart
  rw [ha]
  cases role with
  | survivor =>
    cases b with
    | false => exact if_neg (by rw [hsurvivor rfl rfl]; decide)
    | true => rfl
  | chosen | failed | other => rfl

theorem row_of_freeSpare (h : freeSpare d = some row) : row ≤ 16 := (mem_rows (List.mem_of_find?_eq_some h)).2

/-- The end of the part of a record that is active. -/
theorem endPart_of_active {role : Role} {b : Bool} (h : d.rc.active = some (r, role, b)) :
    endPart d = setRc d { d.rc with active := none, ended := d.rc.ended ++ [r] } := by
  unfold endPart
  rw [h]

theorem survivorStart_of_done (hj : d.seq.job = .idle) (hr : d.rc.restoredAt = some (rrCut r)) :
    survivorStart d r = setRcState (endPart (fenceDev d (rrFailed r))) 2 r := if_pos ⟨hj, hr⟩

theorem survivorStart_of_restoring (hn : ¬ (d.seq.job = .idle ∧ d.rc.restoredAt = some (rrCut r)))
    (h : d.seq.job = .idle ∧ d.sn.restoring = some (survivorRecord d r)) : survivorStart d r =
      setRcState (setRc (fenceDev d (rrFailed r)) { (fenceDev d (rrFailed r)).rc with active := some (r, .survivor, true) }) 1 r :=
  (if_neg hn).trans (if_pos h)

theorem survivorStart_of_other (hn : ¬ (d.seq.job = .idle ∧ d.rc.restoredAt = some (rrCut r)))
    (h : ¬ (d.seq.job = .idle ∧ d.sn.restoring = some (survivorRecord d r))) :
    survivorStart d r = setRcState (haltAll (abandonWork (fenceDev d (rrFailed r)))) 1 r := (if_neg hn).trans (if_neg h)

theorem survivorStart_rowKept (d : Dev) (r : Nat) : RowKept d (survivorStart d r) := by
  have hfence := fenceDev_rowKept d (rrFailed r)
  unfold survivorStart
  dsimp only
  split
  · exact (hfence.trans (endPart_rowKept _)).trans (setRcState_rowKept _ 2 r)
  · split
    · have hactive : RowKept (fenceDev d (rrFailed r))
        (setRc (fenceDev d (rrFailed r)) { (fenceDev d (rrFailed r)).rc with active := some (r, .survivor, true) }) :=
        ⟨rfl, rfl, rfl, fun _ _ => rfl, fun _ _ => rfl⟩
      exact (hfence.trans hactive).trans (setRcState_rowKept _ 1 r)
    · exact ((hfence.trans (abandonWork_spec _).1).trans (haltAll_rowKept _)).trans (setRcState_rowKept _ 1 r)

theorem takeRecord_taken (hrow : row ≤ 16) : RecordTaken d r row rest (takeRecord d r row rest) := by
  refine (recordActive_taken hrow).kept hrow ?_
  rw [takeRecord_eq]
  split
  · exact setRcState_rowKept _ 3 r
  · exact (endPart_rowKept _).trans (fenceSelf_spec _ r).1
  · exact endPart_rowKept _
  · exact survivorStart_rowKept _ r

theorem takeRecord_chosen (h : roleOf d r row = .chosen) : (takeRecord d r row rest).rc.active = some (r, .chosen, false) ∧
    cfg (takeRecord d r row rest) 0xC211 0 = 3 * 2 ^ 28 + rrFailed r * 2 ^ 16 + rrRid r := by
  have hactive : (recordActive d r row rest).rc.active = some (r, .chosen, false) := by rw [← h]; rfl
  rw [takeRecord_eq, h]
  exact ⟨hactive, cfg_setRcState _ 3 r⟩

theorem endPart_recordActive : endPart (recordActive d r row rest) =
    setRc (recordActive d r row rest) { takenRc d r row rest with active := none, ended := d.rc.ended ++ [r] } := rfl

theorem takeRecord_other (h : roleOf d r row = .other) : (takeRecord d r row rest).rc.active = none ∧
    (takeRecord d r row rest).rc.ended = d.rc.ended ++ [r] := by
  rw [takeRecord_eq, h, endPart_recordActive]
  exact ⟨rfl, rfl⟩

theorem takeRecord_failed (h : roleOf d r row = .failed) : (takeRecord d r row rest).rc.active = none ∧
    cfg (takeRecord d r row rest) 0xC211 0 = 6 * 2 ^ 28 + rrFailed r * 2 ^ 16 + rrRid r ∧
    (∀ q, q < 16 → (quadAt (takeRecord d r row rest) q).state = 0) ∧
    Logged (takeRecord d r row rest) 0x8C47 (rrRid r) (rrFailed r) := by
  rw [takeRecord_eq, h, endPart_recordActive]
  obtain ⟨-, hrc, hstate, hquads, hlog⟩ := fenceSelf_spec
    (setRc (recordActive d r row rest) { takenRc d r row rest with active := none, ended := d.rc.ended ++ [r] }) r
  exact ⟨congrArg Rc.active hrc, hstate, hquads, hlog⟩

/-- What a survivor's start leaves, case by case (R604, R610, R611). -/
theorem takeRecord_survivor (hrow : row ≤ 16) (h : roleOf d r row = .survivor) :
    let e := takeRecord d r row rest
    if d.seq.job = .idle ∧ d.rc.restoredAt = some (rrCut r) then
      e.rc.active = none ∧ cfg e 0xC211 0 = 2 * 2 ^ 28 + rrFailed r * 2 ^ 16 + rrRid r
    else if d.seq.job = .idle ∧ d.sn.restoring = some (survivorRecord d r) then
      e.rc.active = some (r, .survivor, true) ∧ cfg e 0xC211 0 = 1 * 2 ^ 28 + rrFailed r * 2 ^ 16 + rrRid r ∧ e.sn.restoring = d.sn.restoring
    else e.rc.active = some (r, .survivor, false) ∧ cfg e 0xC211 0 = 1 * 2 ^ 28 + rrFailed r * 2 ^ 16 + rrRid r ∧ e.seq.job = .halted ∧
      e.sn.flush = none ∧ e.sn.captured = none ∧ e.sn.mirror = none ∧ e.gn.armed = none := by
  obtain ⟨hseq, hsn, hrestored, hrecord⟩ := recordActive_frame (d := d) (r := r) (rest := rest) hrow
  have hactive : (recordActive d r row rest).rc.active = some (r, .survivor, false) := by rw [← h]; rfl
  rw [takeRecord_eq, h]
  dsimp only
  rw [← hseq, ← hrestored, ← hrecord, ← hsn]
  generalize recordActive d r row rest = x at hactive
  split
  next hdone =>
    rw [survivorStart_of_done hdone.1 hdone.2, endPart_of_active (d := fenceDev x (rrFailed r)) hactive]
    exact ⟨rfl, cfg_setRcState _ 2 r⟩
  next hdone =>
    split
    next hres =>
      rw [survivorStart_of_restoring hdone hres]
      exact ⟨rfl, cfg_setRcState _ 1 r, rfl⟩
    next hres =>
      rw [survivorStart_of_other hdone hres]
      obtain ⟨-, hrc, hflush, hcap, hmir, harm⟩ := abandonWork_spec (fenceDev x (rrFailed r))
      obtain ⟨hrc', hsn', hgn'⟩ := haltAll_rc (abandonWork (fenceDev x (rrFailed r)))
      have hrc2 : (haltAll (abandonWork (fenceDev x (rrFailed r)))).rc = x.rc := hrc'.trans hrc
      refine ⟨(congrArg Rc.active hrc2).trans hactive, cfg_setRcState _ 1 r, rfl, ?_, ?_, ?_, ?_⟩
      · exact (congrArg Sn.flush hsn').trans hflush
      · exact (congrArg Sn.captured hsn').trans hcap
      · exact (congrArg Sn.mirror hsn').trans hmir
      · exact (congrArg Gn.armed hgn').trans harm

end

/-! ### A survivor's restore begins (R604 steps 3 and 4) -/

/-- The controller's state and the tag records. -/
def rcAndTags (d : Dev) : Rc × Tab (List Nat × Nat) := (d.rc, d.wv.tags)

section
variable (d : Dev)

theorem rcAndTags_relay {d e : Dev} (h : RelayOnly d e) : rcAndTags e = rcAndTags d := by
  obtain ⟨_, _, _, _, rfl⟩ := h
  rfl

theorem rcAndTags_faults {d e : Dev} (h : FaultsOnly d e) : rcAndTags e = rcAndTags d := by
  obtain ⟨_, _, _, _, _, rfl⟩ := h
  rfl

theorem rcAndTags_releaseCheck (e : Nat) : rcAndTags (releaseCheck d e) = rcAndTags d := by
  refine foldl_keeps rcAndTags (fun x s => ?_) _ d
  dsimp only
  split
  · split
    · refine (rcAndTags_relay (sendNotice_relay _ _ _ _)).trans ?_
      rfl
    · rfl
  · rfl

theorem readBinding_faults (c tag : Nat) : FaultsOnly d (readBinding d c tag) := by
  unfold readBinding
  split
  · exact (raise_faults d _ _ _).trans (foldl_faults _ (fun d e => stopBinders_faults d e _) _ _)
  · exact .refl d

/-- A bound slot loses one reference. -/
def dropRef (x : Dev) (p : Nat × Nat) : Dev :=
  setVslot (readSlot x p.1 p.2) p.1 p.2 { vslotAt x p.1 p.2 with refs := (vslotAt x p.1 p.2).refs - 1 }

theorem rcAndTags_dropRef (x : Dev) (p : Nat × Nat) : rcAndTags (dropRef x p) = rcAndTags x :=
  have h : rcAndTags (readSlot x p.1 p.2) = rcAndTags x := rcAndTags_faults (readSlot_faults x p.1 p.2)
  h

/-- A tag's record released with its references. -/
def tagUnbound (d : Dev) (c tag : Nat) (ss : List Nat) : Dev :=
  ((bindList d c).zip ss).foldl dropRef (endRec (readBinding d c tag) (.binding c tag))

theorem unbindTag_of_found {c tag : Nat} {ss : List Nat} {n : Nat} (h : tfind d.wv.tags (tagKey c tag) = some (ss, n)) : unbindTag d c tag =
    (bindList d c).foldl releaseCheck { tagUnbound d c tag ss with
      wv := { (tagUnbound d c tag ss).wv with tags := tdel (tagUnbound d c tag ss).wv.tags (tagKey c tag) } } := by
  unfold unbindTag
  rw [h]
  rfl

/-- The release of a tag's record leaves the controller, and of the tag records takes that one (R329). -/
theorem unbindTag_spec (c tag : Nat) : (unbindTag d c tag).rc = d.rc ∧
    ((tfind d.wv.tags (tagKey c tag)).isSome = true → (unbindTag d c tag).wv.tags = tdel d.wv.tags (tagKey c tag)) := by
  cases h : tfind d.wv.tags (tagKey c tag) with
  | none => exact ⟨by unfold unbindTag; rw [h], fun hs => by cases hs⟩
  | some p =>
    obtain ⟨ss, n⟩ := p
    have hread : rcAndTags (readBinding d c tag) = rcAndTags d := rcAndTags_faults (readBinding_faults d c tag)
    have hrefs : rcAndTags (tagUnbound d c tag ss) = rcAndTags d := (foldl_keeps rcAndTags rcAndTags_dropRef _ _).trans hread
    rw [unbindTag_of_found d h]
    generalize tagUnbound d c tag ss = x at hrefs
    obtain ⟨hrc, htags⟩ := Prod.mk.inj hrefs
    have hrel := foldl_keeps rcAndTags rcAndTags_releaseCheck (bindList d c)
      { x with wv := { x.wv with tags := tdel x.wv.tags (tagKey c tag) } }
    obtain ⟨hrc', htags'⟩ := Prod.mk.inj hrel
    exact ⟨hrc'.trans hrc, fun _ => htags'.trans (by rw [htags])⟩

/-- Releasing every tag record in turn leaves none. -/
theorem foldl_unbindTag {α : Type} (t : Tab α) (d : Dev) (h : t.map Prod.fst = d.wv.tags.map Prod.fst) :
    ((t.map Prod.fst).foldl (fun x k => unbindTag x (k / 2 ^ 24) (k % 2 ^ 24)) d).wv.tags = [] ∧
      ((t.map Prod.fst).foldl (fun x k => unbindTag x (k / 2 ^ 24) (k % 2 ^ 24)) d).rc = d.rc := by
  induction t generalizing d with
  | nil => exact ⟨List.map_eq_nil_iff.1 h.symm, rfl⟩
  | cons e t ih =>
    obtain ⟨k, v⟩ := e
    cases htags : d.wv.tags with
    | nil => rw [htags] at h; cases h
    | cons f ts =>
      obtain ⟨k', w⟩ := f
      rw [htags] at h
      obtain ⟨hk, hts⟩ := List.cons.inj h
      obtain rfl : k = k' := hk
      have hkey : tagKey (k / 2 ^ 24) (k % 2 ^ 24) = k := Nat.div_add_mod' k (2 ^ 24)
      obtain ⟨hrc, hdel⟩ := unbindTag_spec d (k / 2 ^ 24) (k % 2 ^ 24)
      rw [hkey, htags] at hdel
      have hrest : (unbindTag d (k / 2 ^ 24) (k % 2 ^ 24)).wv.tags = ts := (hdel (by simp [tfind])).trans (by simp [tdel])
      obtain ⟨hnil, hrc'⟩ := ih (unbindTag d (k / 2 ^ 24) (k % 2 ^ 24)) (by rw [hrest]; exact hts)
      exact ⟨hnil, hrc'.trans hrc⟩

theorem releaseTags_spec : (releaseTags d).wv.tags = [] ∧ (releaseTags d).rc = d.rc := foldl_unbindTag d.wv.tags d rfl

theorem survivorRestore_spec (r : Nat) : (survivorRestore d r).rc = d.rc ∧ (survivorRestore d r).seq.job = .idle ∧
    (survivorRestore d r).seq.tasks = [] ∧ (survivorRestore d r).seq.cutHeld = false ∧ (survivorRestore d r).sq = sqReset ∧
    (survivorRestore d r).wv.tags = [] ∧ (survivorRestore d r).sn.restoring = some (survivorRecord d r) := by
  obtain ⟨htags, hrc⟩ := releaseTags_spec d
  exact ⟨hrc, rfl, rfl, rfl, rfl, htags, rfl⟩

end

/-! ### The axolotl fill (R607) -/

section
variable {d : Dev} {r : Nat}

/-- The spare carries the failed device's ID, nothing is armed, and no job runs (R607). -/
def fillReady (d : Dev) (r : Nat) : Prop := ownDev d = rrFailed r ∧ d.gn.armed = none ∧ d.seq.job = .idle

/-- The enabled quads retrained. -/
def quadsRetrained (d : Dev) : Dev := (setBits 16 (cfg d 0x9012 0)).foldl quadRetrainOne d

/-- What the spare restores: the cut of the failed device, through its mirror window (R607). -/
def fillRecord (d : Dev) (r : Nat) : Nat := 2 * 2 ^ 126 + cfg d 0xC204 0 % 64 * 2 ^ 119 + rrFailed r * 2 ^ 107

/-- The device with its part of the fill begun. -/
def fillTaken (d : Dev) (r : Nat) : Dev :=
  setRc (quadsRetrained d) { (quadsRetrained d).rc with active := some (r, .chosen, true), forced := true }

/-- The device with its fill begun, before checked mode. -/
def fillBegun (d : Dev) (r : Nat) : Dev := setSn (fillTaken d r) { (fillTaken d r).sn with restoring := some (fillRecord d r) }

theorem axolotlFill_of_ready (ha : d.rc.active = some (r, .chosen, false)) (h : fillReady d r) :
    axolotlFill d = checkedSettle (setRcState (fillBegun d r) 4 r) := by
  obtain ⟨hown, harmed, hidle⟩ := h
  unfold axolotlFill
  rw [ha]
  dsimp only
  rw [if_pos ⟨hown, by rw [harmed]; rfl, hidle⟩]
  rfl

theorem axolotlFill_of_not_ready (ha : d.rc.active = some (r, .chosen, false)) (h : ¬ fillReady d r) : axolotlFill d = d := by
  unfold axolotlFill
  rw [ha]
  exact if_neg fun ⟨hown, harmed, hidle⟩ => h ⟨hown, Option.isNone_iff_eq_none.1 harmed, hidle⟩

theorem axolotlFill_of_other (h : ∀ r, d.rc.active ≠ some (r, .chosen, false)) : axolotlFill d = d := by
  unfold axolotlFill
  split
  next r hr => exact absurd hr (h r)
  · rfl

theorem quadRetrainOne_mem (d : Dev) (q : Nat) : (quadRetrainOne d q).mem = d.mem := raise_mem ..

theorem quadsRetrained_mem (d : Dev) : (quadsRetrained d).mem = d.mem :=
  foldl_keeps Dev.mem quadRetrainOne_mem (setBits 16 (cfg d 0x9012 0)) d

theorem quadAt_quadRetrainOne_same (d : Dev) (q : Nat) :
    quadAt (quadRetrainOne d q) q = { quadAt d q with state := 3, croakOut := none, misses := 0 } := by
  rw [quadRetrainOne, quadAt, raise_rl]
  exact quadAt_setQuad_same d q _

theorem quadAt_quadRetrainOne_ne (d : Dev) {q p : Nat} (h : q ≠ p) : quadAt (quadRetrainOne d q) p = quadAt d p := by
  rw [quadRetrainOne, quadAt, raise_rl]
  exact quadAt_setQuad_ne d _ h

theorem nodup_setBits (n v : Nat) : (setBits n v).Nodup := List.nodup_range.filter _

theorem quadAt_foldl_retrain {qs : List Nat} (hnd : qs.Nodup) (d : Dev) (q : Nat) : quadAt (qs.foldl quadRetrainOne d) q =
    if q ∈ qs then { quadAt d q with state := 3, croakOut := none, misses := 0 } else quadAt d q :=
  foldl_at_of_nodup quadAt quadRetrainOne (fun y => { y with state := 3, croakOut := none, misses := 0 }) (fun _ => True)
    (fun d q _ => quadAt_quadRetrainOne_same d q) (fun d _ _ h => quadAt_quadRetrainOne_ne d h) hnd (fun _ _ => trivial) q

theorem checkedSettle_frame (d : Dev) : (checkedSettle d).rc = d.rc ∧ (checkedSettle d).sn = d.sn ∧ (checkedSettle d).rl = d.rl := by
  rcases checkedSettle_cases d with h | ⟨_, _, h⟩
  · rw [h]; exact ⟨rfl, rfl, rfl⟩
  · rw [h, raise_rc, raise_sn, raise_rl]; exact ⟨rfl, rfl, rfl⟩

theorem checkedSettle_forced (h : d.rc.forced = true) : (checkedSettle d).sup.checked = true := by
  have hw : checkedWanted d = true := by rw [checkedWanted, h, Bool.or_true]
  unfold checkedSettle
  dsimp only
  rw [hw]
  split
  next heq => exact (eq_of_beq heq).symm
  · rw [raise_sup]; rfl

/-- The device in its fill (R607). -/
structure FillBegun (d e : Dev) (r : Nat) : Prop where
  active : e.rc.active = some (r, .chosen, true)
  forced : e.rc.forced = true
  state : cfg e 0xC211 0 = 4 * 2 ^ 28 + rrFailed r * 2 ^ 16 + rrRid r
  checked : e.sup.checked = true
  mem : e.mem = d.mem
  quads : ∀ q, q < 16 → bitAt (cfg d 0x9012 0) q = true → (quadAt e q).state = 3
  restoring : e.sn.restoring = some (fillRecord d r)

theorem axolotlFill_fills (ha : d.rc.active = some (r, .chosen, false)) (h : fillReady d r) : FillBegun d (axolotlFill d) r := by
  obtain ⟨hrc, hsn, hrl⟩ := checkedSettle_frame (setRcState (fillBegun d r) 4 r)
  rw [axolotlFill_of_ready ha h]
  refine ⟨congrArg Rc.active hrc, congrArg Rc.forced hrc, ?_, checkedSettle_forced (d := setRcState (fillBegun d r) 4 r) rfl, ?_, ?_, ?_⟩
  · rw [cfg_checkedSettle _ (by decide) (by decide) (by decide) (by decide), cfg_setRcState]
  · exact (checkedSettle_mem _).trans (quadsRetrained_mem d)
  · intro q hq hbit
    rw [quadAt, hrl]
    have hquad := quadAt_foldl_retrain (nodup_setBits 16 (cfg d 0x9012 0)) d q
    rw [if_pos (mem_setBits.2 ⟨hq, hbit⟩)] at hquad
    exact congrArg Quad.state hquad
  · rw [hsn]
    rfl

end

/-! ### A restore that passes leaves the controller (R591) -/

section
variable (d : Dev)

theorem devWrite_rc (a : Nat) (bs : List Byte) : (devWrite d a bs).rc = d.rc := by
  have hreads := (cacheLines_reads d a bs.length 0 true {}).trans (noteRemote_reads _ (ownerHalf a) a bs.length)
  obtain ⟨_, _, _, _, _, _, _, _, -, h⟩ := hreads
  exact (congrArg Dev.rc h :)

theorem jobPut_rc (j : Nat) (bs : List Byte) : (jobPut d j bs).rc = d.rc := by
  unfold jobPut
  split
  · rfl
  next ps _ =>
    refine List.foldlRecOn ps _ (motive := fun s : List Byte × Dev => s.2.rc = d.rc) rfl fun s hs p _ => ?_
    exact (devWrite_rc s.2 p.1 _).trans hs

theorem memPut_rc (m : CutMem) : (memPut d m).rc = d.rc := by
  unfold memPut
  split
  · exact jobPut_rc d _ _
  · exact devWrite_rc d _ _

theorem spillEntry_rc (q e : Nat) : (spillEntry d q e).rc = d.rc ∧ (spillEntry d q e).seq = d.seq :=
  ⟨(devWrite_rc d _ _ :), (devWrite_seq d _ _ :)⟩

theorem restoreQueue_rc (q : Nat) : (restoreQueue d q).rc = d.rc ∧ (restoreQueue d q).seq = d.seq :=
  ⟨foldl_keeps Dev.rc (fun x e => (spillEntry_rc x q e).1) _ _, foldl_keeps Dev.seq (fun x e => (spillEntry_rc x q e).2) _ _⟩

theorem restoreLedger_rc (c : Cut) (ok : Bool) : (restoreLedger d c ok).rc = d.rc ∧ (restoreLedger d c ok).seq = d.seq := by
  cases ok with
  | true => exact ⟨rfl, rfl⟩
  | false =>
    obtain ⟨u, -, hu⟩ := enterRebuild_eq d true
    have hledger : restoreLedger d c false = raise (enterRebuild d true) 0x4C22 0 c.step := if_neg Bool.false_ne_true
    rw [hledger, raise_rc, raise_seq, hu, raise_rc, raise_seq]
    exact ⟨rfl, rfl⟩

theorem restoreTorpor_rc (c : Cut) (ok : Bool) : (restoreTorpor d c ok).rc = d.rc ∧ (restoreTorpor d c ok).seq = d.seq := by
  cases ok with
  | true => exact ⟨rfl, rfl⟩
  | false =>
    have htorpor : restoreTorpor d c false = raise (raise { d with sup := { d.sup with torpor := [] } } 0x4532 0 0) 0x4C22 0 c.step :=
      if_neg Bool.false_ne_true
    rw [htorpor, raise_rc, raise_seq, raise_rc, raise_seq]
    exact ⟨rfl, rfl⟩

/-- The device with the memory and the records of a cut, before its queues are laid out again. -/
def cutBack (c : Cut) : Dev := recordsBack (c.mem.foldl memPut d) c

theorem restoreWrite_rc (c : Cut) (bad : List (Nat × Nat × Bool)) : (restoreWrite d c bad).rc = d.rc ∧
    (restoreWrite d c bad).seq.ctxs = c.ctxs := by
  have hlaid : ((c.sq.queues.map Prod.fst).foldl restoreQueue (cutBack d c)).rc = d.rc :=
    (foldl_keeps Dev.rc (fun x q => (restoreQueue_rc x q).1) _ _).trans (foldl_keeps Dev.rc memPut_rc c.mem d)
  have hseq : ((c.sq.queues.map Prod.fst).foldl restoreQueue (cutBack d c)).seq.ctxs = c.ctxs :=
    congrArg Seq.ctxs (foldl_keeps Dev.seq (fun x q => (restoreQueue_rc x q).2) (c.sq.queues.map Prod.fst) (cutBack d c))
  unfold restoreWrite
  dsimp only
  rw [raise_rc, raise_seq]
  change (restoreTorpor (restoreLedger ((c.sq.queues.map Prod.fst).foldl restoreQueue (cutBack d c)) c _) c _).rc = _ ∧
    (restoreTorpor (restoreLedger ((c.sq.queues.map Prod.fst).foldl restoreQueue (cutBack d c)) c _) c _).seq.ctxs = _
  generalize (c.sq.queues.map Prod.fst).foldl restoreQueue (cutBack d c) = x at hlaid hseq
  rw [(restoreTorpor_rc _ c _).1, (restoreTorpor_rc _ c _).2, (restoreLedger_rc x c _).1, (restoreLedger_rc x c _).2]
  exact ⟨hlaid, hseq⟩

end

/-! ### The end of a restore under a record (R604 step 5, R607 step 4) -/

section
variable {d : Dev} {q r : Nat} {c : Cut} {i : Option Cut} {bad : List (Nat × Nat × Bool)}

/-- The device with a cut written back, as the restore answers. -/
def restorePassed (d : Dev) (c : Cut) (bad : List (Nat × Nat × Bool)) : Dev := send (restoreWrite (restoreBegun d) c bad) (.done 0xC120 0 0)

theorem restorePassed_spec (d : Dev) (c : Cut) (bad : List (Nat × Nat × Bool)) : (restorePassed d c bad).rc = d.rc ∧
    (restorePassed d c bad).seq.ctxs = c.ctxs := by
  rw [restorePassed, send_rc, send_seq]
  exact restoreWrite_rc (restoreBegun d) c bad

theorem restoreDone_survivor (ha : d.rc.active = some (r, .survivor, true)) (hq : d.sn.restoring = some q)
    (hend : (restoreEnd d i bad).1 = true) : restoreDone d i bad =
      setRcState (endPart (setRc (restoreEnd d i bad).2 { (restoreEnd d i bad).2.rc with restoredAt := some (rrCut r) })) 2 r := by
  unfold restoreDone
  rw [hq]
  dsimp only
  rw [ha, hend]

theorem restoreDone_chosen (ha : d.rc.active = some (r, .chosen, true)) (hq : d.sn.restoring = some q)
    (hend : (restoreEnd d i bad).1 = true) : restoreDone d i bad =
      raise (setRcState (endPart (restoreEnd d i bad).2) 2 r) 0x0C41 (rrRid r) (rrFailed r) := by
  unfold restoreDone
  rw [hq]
  dsimp only
  rw [ha, hend]

theorem restoreDone_survivor_failed (ha : d.rc.active = some (r, .survivor, true)) (hq : d.sn.restoring = some q)
    (hend : (restoreEnd d i bad).1 = false) : restoreDone d i bad = (restoreEnd d i bad).2 := by
  unfold restoreDone
  rw [hq]
  dsimp only
  rw [ha, hend]

theorem restoreDone_chosen_failed (ha : d.rc.active = some (r, .chosen, true)) (hq : d.sn.restoring = some q)
    (hend : (restoreEnd d i bad).1 = false) : restoreDone d i bad =
      setRcState (setRc (restoreEnd d i bad).2 { (restoreEnd d i bad).2.rc with active := some (r, .chosen, false) }) 3 r := by
  unfold restoreDone
  rw [hq]
  dsimp only
  rw [ha, hend]

/-- The device with a restore that failed, as it answers (R591). -/
def restoreRefused (d : Dev) (f : Nat × Nat × Nat) : Dev :=
  send (raise (setObj (setSn d { d.sn with restoring := none }) 0xC121 0 (restoreWord (some f))) 0x8C21 0 0) (.done 0xC120 0 6)

theorem restoreEnd_of_fail {f : Nat × Nat × Nat} (hq : d.sn.restoring = some q) (hf : restoreFail d q (restoreCut d q i) bad = some f) :
    restoreEnd d i bad = (false, restoreRefused d f) := by
  unfold restoreEnd
  rw [hq]
  dsimp only
  rw [hf]
  cases restoreCut d q i <;> rfl

theorem restoreRefused_rc (d : Dev) (f : Nat × Nat × Nat) : (restoreRefused d f).rc = d.rc := by
  rw [restoreRefused, send_rc, raise_rc]
  rfl

theorem restoreDone_survivor_refused {f : Nat × Nat × Nat} (ha : d.rc.active = some (r, .survivor, true)) (hq : d.sn.restoring = some q)
    (hf : restoreFail d q (restoreCut d q i) bad = some f) : restoreDone d i bad = restoreRefused d f := by
  have hend := restoreEnd_of_fail hq hf
  rw [restoreDone_survivor_failed ha hq (by rw [hend]), hend]

theorem restoreDone_chosen_refused {f : Nat × Nat × Nat} (ha : d.rc.active = some (r, .chosen, true)) (hq : d.sn.restoring = some q)
    (hf : restoreFail d q (restoreCut d q i) bad = some f) : restoreDone d i bad =
      setObj (setRc (restoreRefused d f) { d.rc with active := some (r, .chosen, false) }) 0xC211 0
        (3 * 2 ^ 28 + rrFailed r * 2 ^ 16 + rrRid r) := by
  have hend := restoreEnd_of_fail hq hf
  rw [restoreDone_chosen_failed ha hq (by rw [hend]), hend]
  dsimp only
  rw [restoreRefused_rc, setRcState]

/-- The part of a record that a passed restore ends. -/
structure PartEnded (d e : Dev) (r : Nat) (c : Cut) : Prop where
  active : e.rc.active = none
  ended : e.rc.ended = d.rc.ended ++ [r]
  state : cfg e 0xC211 0 = 2 * 2 ^ 28 + rrFailed r * 2 ^ 16 + rrRid r
  ctxs : e.seq.ctxs = c.ctxs

theorem restoreDone_survivor_ends (ha : d.rc.active = some (r, .survivor, true)) (hq : d.sn.restoring = some q)
    (hc : restoreCut d q i = some c) (hf : restoreFail d q (some c) bad = none) :
    PartEnded d (restoreDone d i bad) r c ∧ (restoreDone d i bad).rc.restoredAt = some (rrCut r) := by
  have hend : restoreEnd d i bad = (true, restorePassed d c bad) := restoreEnd_of_pass d hq hc hf
  obtain ⟨hrc, hctxs⟩ := restorePassed_spec d c bad
  rw [restoreDone_survivor ha hq (by rw [hend]), hend]
  dsimp only
  generalize restorePassed d c bad = x at hrc hctxs
  rw [hrc, endPart_of_active (d := setRc x { d.rc with restoredAt := some (rrCut r) }) ha]
  exact ⟨⟨rfl, rfl, cfg_setRcState _ 2 r, hctxs⟩, rfl⟩

theorem restoreDone_chosen_ends (ha : d.rc.active = some (r, .chosen, true)) (hq : d.sn.restoring = some q)
    (hc : restoreCut d q i = some c) (hf : restoreFail d q (some c) bad = none) :
    PartEnded d (restoreDone d i bad) r c ∧ Logged (restoreDone d i bad) 0x0C41 (rrRid r) (rrFailed r) := by
  have hend : restoreEnd d i bad = (true, restorePassed d c bad) := restoreEnd_of_pass d hq hc hf
  obtain ⟨hrc, hctxs⟩ := restorePassed_spec d c bad
  rw [restoreDone_chosen ha hq (by rw [hend]), hend]
  dsimp only
  generalize restorePassed d c bad = x at hrc hctxs
  rw [endPart_of_active ((congrArg Rc.active hrc).trans ha), hrc]
  refine ⟨⟨?_, ?_, ?_, ?_⟩, raise_logged ..⟩
  · rw [raise_rc]; rfl
  · rw [raise_rc]; rfl
  · rw [cfg_raise_idx _ _ _ _ _ _ (by decide) (by decide), cfg_setRcState]
  · rw [raise_seq]; exact hctxs

end

/-! ### Wedged devices (R612) -/

theorem wedge_of_wedged {d : Dev} (h : d.rc.wedged = true) (c q f : Nat) : wedge d c q f = d := if_pos h

theorem wedge_of_not_wedged {d : Dev} (h : d.rc.wedged = false) (c q f : Nat) : wedge d c q f =
    raise (setObj (setRc d { d.rc with wedged := true }) 0xC220 0 (wedgeReport d c q f)) 0x8C4A c 0 := if_neg (by rw [h]; decide)

theorem wedgeCapture_of_one (d : Dev) (q f : Nat) : wedgeCapture d 1 q f = send (wedge d 3 q f) (.status 0xC221 0 0) := rfl

theorem wedgeCapture_of_none {d : Dev} {v : Nat} (h : v ≠ 1 ∨ d.rc.wedged = true) (q f : Nat) :
    wedgeCapture d v q f = send d (.status 0xC221 0 0) := by
  by_cases hv : v = 1
  · subst hv
    rw [wedgeCapture_of_one, wedge_of_wedged (h.resolve_left (fun h => h rfl))]
  · rw [wedgeCapture, if_neg hv]

/-- Settles O41, command by command. Records dropped and counted with no free row, the survivor's third step at RECORD_START and the
survivor that goes on with its restore are the model's choice (log 62), and so is the spare's restore record (log 20). -/
theorem recoveryCommands : Obligations.RecoveryCommands := by
  refine ⟨?recover, ?start, ?full, ?stopped, ?busy, ?fill, ?fillOther, ?restore, ?capture, ?probe⟩
  case recover =>
    intro s r hs
    have hexec : exec (.rcRecover r) s = after s (rcRecover s.dev r) := by rw [exec_rcRecover, onObject_serving hs]
    dsimp only
    rw [hexec]
    refine ⟨fun h => ?_, fun h hr => ?_, fun hr hx => ?_, fun h hnil => ?_, fun h hne hl => ?_, fun row x h hl => ⟨?_, ?_⟩⟩
    · rw [rcRecover_of_held h]
    · rw [rcRecover_of_refused h hr]
    · rw [rcRecover_of_running hr hx]
    · rw [rcRecover_of_fresh h (spareLost_of_none_held hnil), if_pos (by rw [hnil]; rfl)]
    · rw [rcRecover_of_fresh h hl, if_neg (by simpa using hne)]
    · rw [rcRecover_of_spareLost h hl]
    · exact restartRecord_taken x (row_of_spareLost hl).2
  case start =>
    intro s r row rest hs ha hq hf
    have hrow := row_of_freeSpare hf
    obtain ⟨hqueue, hplace, hreplay, hstate, halias⟩ := takeRecord_taken (d := s.dev) (r := r) (rest := rest) hrow
    refine ⟨takeRecord s.dev r row rest, ?_, hqueue, hplace, hreplay, hstate, halias, takeRecord_chosen, takeRecord_other,
      takeRecord_failed, takeRecord_survivor hrow⟩
    rw [exec_recordStart, onUnit_acting _ _ hs, recordStart_of_row ha hq hf]
  case full =>
    intro s r rest hs ha hq hf
    rw [exec_recordStart, onUnit_acting _ _ hs, recordStart_of_full ha hq hf]
    rfl
  case stopped =>
    intro s r hs ha hstop hres
    obtain ⟨hrc, hjob, htasks, hcut, hsq, htags, hrestoring⟩ :=
      survivorRestore_spec (setRc s.dev { s.dev.rc with active := some (r, .survivor, true) }) r
    refine ⟨_, ?_, congrArg Rc.active hrc, hjob, htasks, hcut, hsq, htags, hrestoring⟩
    rw [exec_recordStart, onUnit_acting _ _ hs, recordStart_of_stopped ha hstop hres]
  case busy =>
    intro s hs h
    rw [exec_recordStart, onUnit_acting _ _ hs]
    rcases h with ⟨ha, hq⟩ | ⟨r, role, b, ha, h⟩
    · rw [recordStart_of_none ha hq]
    · rw [recordStart_of_busy ha h]
  case fill =>
    intro s r hs ha
    refine ⟨fun h => ?_, fun h => ?_⟩
    · obtain ⟨hactive, hforced, hstate, hchecked, hmem, hquads, hrestoring⟩ := axolotlFill_fills ha h
      refine ⟨axolotlFill s.dev, ?_, hactive, hforced, hstate, hchecked, hmem, hquads, hrestoring⟩
      rw [exec_axolotlFill, onUnit_acting _ _ hs]
    · rw [exec_axolotlFill, onUnit_acting _ _ hs, axolotlFill_of_not_ready ha h]
  case fillOther =>
    intro s hs h
    rw [exec_axolotlFill, onUnit_acting _ _ hs, axolotlFill_of_other h]
  case restore =>
    intro s q r i bad role hs ha hrole hq
    have hexec : exec (.restoreDone i bad) s = after s (restoreDone s.dev i bad) := by rw [exec_restoreDone, onUnit_acting _ _ hs]
    refine ⟨fun c hc hf => ?_, fun f hf => ⟨?_, ?_⟩⟩
    · rcases hrole with rfl | rfl
      · obtain ⟨⟨hactive, hended, hstate, hctxs⟩, hrestored⟩ := restoreDone_survivor_ends ha hq hc hf
        exact ⟨_, hexec, hactive, hended, hstate, hctxs, fun _ => hrestored, nofun⟩
      · obtain ⟨⟨hactive, hended, hstate, hctxs⟩, hlog⟩ := restoreDone_chosen_ends ha hq hc hf
        exact ⟨_, hexec, hactive, hended, hstate, hctxs, nofun, fun _ => hlog⟩
    · rintro rfl
      rw [hexec, restoreDone_survivor_refused ha hq hf, restoreRefused]
    · rintro rfl
      rw [hexec, restoreDone_chosen_refused ha hq hf, restoreRefused]
  case capture =>
    intro s v q f hs
    have hexec : exec (.wedgeCapture v q f) s = after s (wedgeCapture s.dev v q f) := by rw [exec_wedgeCapture, onObject_serving hs]
    rw [hexec]
    refine ⟨fun hv hw => ?_, fun h => ?_⟩
    · rw [hv, wedgeCapture_of_one, wedge_of_not_wedged hw]
    · rw [wedgeCapture_of_none h]
  case probe =>
    intro s q f hs
    rw [exec_fabricProbeTimeout, onMgmt_acting _ _ hs]
    exact ⟨fun hw => by rw [fabricProbeTimeout, wedge_of_not_wedged hw], fun hw => by rw [fabricProbeTimeout, wedge_of_wedged hw]⟩

end Sys2Proof.Machine

/-! Relay links (chapter 14): flits and their acknowledgement, training, croaks, lanes, and the routing of messages. -/

namespace Sys2Proof.Machine

/-! ### The header of a flit that is sent (R408, R410, R415) -/

section
variable (d : Dev) (q : Nat)

/-- The stream an acknowledgement is sent for. -/
abbrev ackedStream (nak : Option Nat) : Option Nat := nak.orElse (fun _ => ackDue d q)

/-- Taking the header of a flit changes what is owed on the quad and what is unacknowledged, and nothing else. -/
structure HeadTaken (e : Dev) : Prop where
  other : ∀ k, k ≠ q → quadAt e k = quadAt d k
  own : ∃ owed rotate, quadAt e q = { quadAt d q with owed := owed, rotate := rotate }
  streams : e.rl.streams = d.rl.streams
  objs : e.objs = d.objs
  ev : e.ev = d.ev
  mem : e.mem = d.mem

theorem takeHead_taken (nak : Option Nat) : HeadTaken d q (takeHead d q nak).2 := by
  simp only [takeHead]
  split <;> split
  · exact ⟨fun k hk => quadAt_setQuad_ne _ _ (Ne.symm hk), ⟨_, _, quadAt_setQuad_same _ q _⟩, rfl, rfl, rfl, rfl⟩
  · exact ⟨fun k hk => quadAt_setQuad_ne _ _ (Ne.symm hk), ⟨_, _, quadAt_setQuad_same _ q _⟩, rfl, rfl, rfl, rfl⟩
  · exact ⟨fun _ _ => rfl, ⟨_, _, rfl⟩, rfl, rfl, rfl, rfl⟩
  · exact ⟨fun _ _ => rfl, ⟨_, _, rfl⟩, rfl, rfl, rfl, rfl⟩

theorem rxAt_setRx_same (p s : Nat) (x : RxStream) : rxAt (setRx d p s x) p s = x := tget_tset_same _ _ _ _

/-- A NAK of a stream leaves what is kept of it but the count of unacknowledged flits. -/
theorem rxAt_takeHead_nak (s : Nat) : rxAt (takeHead d q (some s)).2 (quadAt d q).peerDev s =
    { rxAt d (quadAt d q).peerDev s with unacked := 0 } := by
  simp only [takeHead, Option.orElse_some]
  split
  · exact rxAt_setRx_same _ _ _ _
  · exact rxAt_setRx_same _ _ _ _

theorem takeHead_out (nak : Option Nat) : (takeHead d q nak).2.out = d.out := by
  simp only [takeHead]
  split <;> split <;> rfl

theorem sendFlit_taken (kind : Nat) (nak : Option Nat) (fields : List Nat) : HeadTaken d q (sendFlit d q kind nak fields) := by
  obtain ⟨hother, hown, hstreams, hobjs, hev, hmem⟩ := takeHead_taken d q nak
  exact ⟨hother, hown, hstreams, hobjs, hev, hmem⟩

theorem sendFlit_out (kind : Nat) (nak : Option Nat) (fields : List Nat) : (sendFlit d q kind nak fields).out =
    d.out ++ [.flit q kind (ackFields (takeHead d q nak).1 ++ fields ++
      [flitCrc (flitHeader kind 0 0 (takeHead d q nak).1 0 15) (croakUnits fields)])] := by
  rw [sendFlit, send_out, takeHead_out]

end

/-! ### Flits that arrive (R408 to R411, R417) -/

section
variable {d : Dev} {q : Nat} {f : DataFlit}

/-- The device once a flit's acknowledgement has been taken, when its CRC has passed. -/
abbrev ackTaken (d : Dev) (q : Nat) (f : DataFlit) : Dev := if flitOk f then takeAck d q f.ack else d

/-- A flit of the expected SEQ in its receive buffer. -/
abbrev flitTaken (e : Dev) (q p : Nat) (f : DataFlit) : Dev :=
  setRx (bump (setQuad e q { quadAt e q with
    rx := tset (quadAt e q).rx f.fvc (tget [] (quadAt e q).rx f.fvc ++ padTo 15 0 f.units) }) 0x9032 (q + 1) 1)
    p f.stream { expected := (f.seq + 1) % 4096, nakSent := false, unacked := (rxAt e p f.stream).unacked + 1 }

/-- How far a flit's SEQ is behind the expected one. -/
abbrev flitBehind (e : Dev) (p : Nat) (f : DataFlit) : Nat := ((rxAt e p f.stream).expected + (4096 - f.seq)) % 4096

theorem dataFlit_of_expected (hup : (quadAt d q).state = 2) (hok : flitOk f = true)
    (hseq : f.seq = (rxAt (takeAck d q f.ack) (quadAt d q).peerDev f.stream).expected) :
    let t := flitTaken (takeAck d q f.ack) q (quadAt d q).peerDev f
    dataFlit d q f = if 64 ≤ (rxAt (takeAck d q f.ack) (quadAt d q).peerDev f.stream).unacked + 1 then sendFlit t q 2 none [] else t := by
  unfold dataFlit
  dsimp only
  rw [if_neg (fun h => h hup), if_pos hok, if_pos ⟨hok, hseq⟩]

theorem dataFlit_of_repeat (hup : (quadAt d q).state = 2) (hok : flitOk f = true)
    (hseq : f.seq ≠ (rxAt (takeAck d q f.ack) (quadAt d q).peerDev f.stream).expected)
    (hlo : 1 ≤ flitBehind (takeAck d q f.ack) (quadAt d q).peerDev f) (hhi : flitBehind (takeAck d q f.ack) (quadAt d q).peerDev f ≤ 2048) :
    dataFlit d q f = bump (takeAck d q f.ack) 0x9033 (q + 1) 1 := by
  unfold dataFlit
  dsimp only
  rw [if_neg (fun h => h hup), if_pos hok, if_neg (fun h => hseq h.2), if_pos ⟨hok, hlo, hhi⟩]

theorem dataFlit_of_gap (hup : (quadAt d q).state = 2)
    (h : flitOk f = false ∨ (f.seq ≠ (rxAt (ackTaken d q f) (quadAt d q).peerDev f.stream).expected ∧
      (flitBehind (ackTaken d q f) (quadAt d q).peerDev f = 0 ∨ 2048 < flitBehind (ackTaken d q f) (quadAt d q).peerDev f))) :
    let e := ackTaken d q f
    let r := rxAt e (quadAt d q).peerDev f.stream
    dataFlit d q f = if r.nakSent then bump e 0x9033 (q + 1) 1
      else sendFlit (setRx (bump e 0x9033 (q + 1) 1) (quadAt d q).peerDev f.stream { r with nakSent := true }) q 2 (some f.stream) [] := by
  unfold dataFlit
  dsimp only
  rw [if_neg (fun h => h hup), if_neg, if_neg]
  · rintro ⟨hok, hlo, hhi⟩
    rcases h with h | ⟨-, h⟩
    · rw [hok] at h; cases h
    · have hrange : 1 ≤ flitBehind (ackTaken d q f) (quadAt d q).peerDev f ∧
        flitBehind (ackTaken d q f) (quadAt d q).peerDev f ≤ 2048 := ⟨hlo, hhi⟩
      omega
  · rintro ⟨hok, hseq⟩
    rcases h with h | ⟨h, -⟩
    · rw [hok] at h; cases h
    · exact h hseq

theorem dataFlit_of_not_up (hup : (quadAt d q).state ≠ 2) : dataFlit d q f = d := if_pos hup

/-- A flit whose CRC fails delivers nothing, keeps the expected SEQ, and makes one NAK (R409, R413). -/
theorem dataFlit_of_bad (hup : (quadAt d q).state = 2) (hok : flitOk f = false) :
    let p := (quadAt d q).peerDev
    let e := dataFlit d q f
    (∀ c, tget [] (quadAt e q).rx c = tget [] (quadAt d q).rx c) ∧ (rxAt e p f.stream).expected = (rxAt d p f.stream).expected ∧
      (rxAt e p f.stream).nakSent = true ∧ ((rxAt d p f.stream).nakSent = true → e.out = d.out) ∧
      ((rxAt d p f.stream).nakSent = false → e.out.length = d.out.length + 1) := by
  have hgap := dataFlit_of_gap hup (f := f) (.inl hok)
  have hack : ackTaken d q f = d := if_neg (by rw [hok]; decide)
  dsimp only at hgap ⊢
  rw [hack] at hgap
  rw [hgap]
  cases hnak : (rxAt d (quadAt d q).peerDev f.stream).nakSent with
  | true =>
    rw [if_pos rfl]
    exact ⟨fun _ => rfl, rfl, hnak, fun _ => rfl, nofun⟩
  | false =>
    rw [if_neg (by decide)]
    have hrx : rxAt (setRx (bump d 0x9033 (q + 1) 1) (quadAt d q).peerDev f.stream
      { rxAt d (quadAt d q).peerDev f.stream with nakSent := true }) (quadAt d q).peerDev f.stream =
      { rxAt d (quadAt d q).peerDev f.stream with nakSent := true } := rxAt_setRx_same _ _ _ _
    have hquad : quadAt (setRx (bump d 0x9033 (q + 1) 1) (quadAt d q).peerDev f.stream
      { rxAt d (quadAt d q).peerDev f.stream with nakSent := true }) q = quadAt d q := rfl
    have hout : (setRx (bump d 0x9033 (q + 1) 1) (quadAt d q).peerDev f.stream
      { rxAt d (quadAt d q).peerDev f.stream with nakSent := true }).out = d.out := rfl
    generalize setRx (bump d 0x9033 (q + 1) 1) _ _ _ = x at hrx hquad hout
    obtain ⟨-, ⟨owed, rotate, hown⟩, -⟩ := sendFlit_taken x q 2 (some f.stream) []
    have hnaked : rxAt (sendFlit x q 2 (some f.stream) []) (quadAt d q).peerDev f.stream =
      { rxAt d (quadAt d q).peerDev f.stream with nakSent := true, unacked := 0 } := by
      have h := rxAt_takeHead_nak x q f.stream
      rw [hquad, hrx] at h
      exact h
    refine ⟨fun c => by rw [hown, hquad], by rw [hnaked], by rw [hnaked], nofun, fun _ => ?_⟩
    rw [sendFlit_out, List.length_append, hout]
    rfl

theorem replayTimeout_of_stream {k : Nat} (hup : (quadAt d q).state = 2)
    (h : (List.range 16).find? (fun k => carrierOf d k == q && !(streamAt d k).unacked.isEmpty) = some k) :
    replayTimeout d q = replayStream d q k := by
  unfold replayTimeout
  rw [if_neg (fun hn => hn hup), h]

theorem creditStall_of_empty {v : Nat} (hup : (quadAt d q).state = 2) (hv : tget 0 (quadAt d q).credits v = 0) (ns : Nat) :
    creditStall d q v ns = if cfg d 0x9019 0 * 1000 < ns then raiseStep (bump d 0x9037 (q + 1) ns) 0x4912 (4 * q + v) ns
      else bump d 0x9037 (q + 1) ns := if_pos ⟨hup, hv⟩

end

/-- Settles O28, flit by flit and timer by timer. -/
theorem flitsArriveInOrder : Obligations.FlitsArriveInOrder := by
  refine ⟨?expected, ?repeated, ?gap, ?bad, ?control, ?ackTimer, ?creditTimer, ?replay, ?stall, ?longStall, ?notUp⟩
  case expected =>
    intro s q f hs hup hok
    dsimp only
    intro hseq
    have h := dataFlit_of_expected hup hok hseq
    rw [exec_dataFlit, onUnit_acting _ _ hs, h]
    exact ⟨fun hn => by rw [if_neg (by omega)], fun hn => by rw [if_pos (by omega)]⟩
  case repeated =>
    intro s q f hs hup hok
    dsimp only
    intro hseq hlo hhi
    rw [exec_dataFlit, onUnit_acting _ _ hs, dataFlit_of_repeat hup hok hseq hlo hhi]
  case gap =>
    intro s q f hs hup
    dsimp only
    intro h
    have hgap := dataFlit_of_gap hup h
    rw [exec_dataFlit, onUnit_acting _ _ hs, hgap]
  case bad =>
    intro s q f hs hup hok
    refine ⟨dataFlit s.dev q f, ?_, dataFlit_of_bad hup hok⟩
    rw [exec_dataFlit, onUnit_acting _ _ hs]
  case control =>
    intro s q a hs hup
    rw [exec_ctrlFlit, exec_idleFlit, onUnit_acting _ _ hs, onUnit_acting _ _ hs, ctrlFlit, idleFlit, if_pos hup]
    exact ⟨rfl, rfl⟩
  case ackTimer =>
    intro s q hs hup hdue
    rw [exec_ackTimer, onUnit_acting _ _ hs, ackTimer, if_pos ⟨hup, hdue⟩]
  case creditTimer =>
    intro s q hs hup hdue
    rw [exec_creditReturnTimer, onUnit_acting _ _ hs, creditReturnTimer, if_pos ⟨hup, hdue⟩]
  case replay =>
    intro s q k hs hup hk
    rw [exec_replayTimeout, onUnit_acting _ _ hs, replayTimeout_of_stream hup hk]
  case stall =>
    intro s q v ns hs hup hv hns
    rw [exec_creditStall, onUnit_acting _ _ hs, creditStall_of_empty hup hv, if_neg (Nat.not_lt.2 hns)]
  case longStall =>
    intro s q v ns hs hup hv hns
    rw [exec_creditStall, onUnit_acting _ _ hs, creditStall_of_empty hup hv, if_pos hns]
  case notUp =>
    intro s q v ns f a hs hup c hc
    simp only [List.mem_cons, List.not_mem_nil, or_false] at hc
    rcases hc with rfl | rfl | rfl | rfl | rfl | rfl | rfl
    · rw [exec_dataFlit, onUnit_acting _ _ hs, dataFlit_of_not_up hup]
    · rw [exec_ctrlFlit, onUnit_acting _ _ hs, ctrlFlit, if_neg hup]
    · rw [exec_idleFlit, onUnit_acting _ _ hs, idleFlit, if_neg hup]
    · rw [exec_ackTimer, onUnit_acting _ _ hs, ackTimer, if_neg (fun h => hup h.1)]
    · rw [exec_creditReturnTimer, onUnit_acting _ _ hs, creditReturnTimer, if_neg (fun h => hup h.1)]
    · rw [exec_replayTimeout, onUnit_acting _ _ hs, replayTimeout, if_pos hup]
    · rw [exec_creditStall, onUnit_acting _ _ hs, creditStall, if_neg (fun h => hup h.1)]

/-! ### Messages (R418 to R426) -/

section
variable (d : Dev) (q v : Nat)

/-- The device with a message of `used` units gone from a channel's receive buffer, and `rest` behind it (R415, R423). -/
def messageTaken (rest : List Nat) (used : Nat) : Dev :=
  let x := quadAt d q
  let tail := rest.dropWhile (fun u => u == 0)
  let gone := used + (rest.length - tail.length)
  let t := tget 0 x.taken v + gone
  setQuad d q { x with rx := tset x.rx v tail, taken := tset x.taken v (t % 15), owed := tset x.owed v (tget 0 x.owed v + t / 15)
                       rxBad := tset x.rxBad v (((tget [] x.rxBad v).filter (fun i => decide (gone ≤ i))).map (fun i => i - gone)) }

theorem messageTaken_frame (rest : List Nat) (used : Nat) :
    tget [] (quadAt (messageTaken d q v rest used) q).rx v = rest.dropWhile (fun u => u == 0) ∧
    ∀ k, k ≠ q → quadAt (messageTaken d q v rest used) k = quadAt d k := by
  unfold messageTaken
  exact ⟨by rw [quadAt_setQuad_same, tget_tset_same], fun k hk => quadAt_setQuad_ne _ _ (Ne.symm hk)⟩

variable {d q v} {m : RelayMsg} {us : List Nat} {n : Nat}

theorem messageRoute_of_none (h : takeMsg 0 (tget [] (quadAt d q).rx v) = none) : messageRoute d q v = d := by
  unfold messageRoute
  dsimp only
  rw [h]

theorem messageRoute_of_message (h : takeMsg 0 (tget [] (quadAt d q).rx v) = some (m, us, n)) : messageRoute d q v =
    if (tget [] (quadAt d q).rxBad v).any (fun i => decide (i < n)) then raise (bump (messageTaken d q v us n) 0xD826 0 1) 0x8D85 q 0
    else routeMsg (messageTaken d q v us n) m true := by
  unfold messageRoute
  dsimp only
  rw [h]
  rfl

theorem messageRoute_of_clean (h : takeMsg 0 (tget [] (quadAt d q).rx v) = some (m, us, n))
    (hclean : ∀ i ∈ tget [] (quadAt d q).rxBad v, n ≤ i) : messageRoute d q v = routeMsg (messageTaken d q v us n) m true := by
  rw [messageRoute_of_message h, if_neg]
  simpa using hclean

theorem messageRoute_of_bad {i : Nat} (h : takeMsg 0 (tget [] (quadAt d q).rx v) = some (m, us, n)) (hi : i ∈ tget [] (quadAt d q).rxBad v)
    (hlt : i < n) : messageRoute d q v = raise (bump (messageTaken d q v us n) 0xD826 0 1) 0x8D85 q 0 := by
  rw [messageRoute_of_message h, if_pos]
  exact List.any_eq_true.2 ⟨i, hi, by simpa using hlt⟩

/-- A message of a fenced device is dropped (R604). -/
theorem routeMsg_of_fenced (h : d.rl.fenced.contains (fld m.header 107 96) = true) : routeMsg d m true = dropMsg d m.header :=
  if_pos (by rw [h]; rfl)

theorem routeMsg_of_forwarded {e : Dev} (hf : d.rl.fenced.contains (fld m.header 107 96) = false) (h : forwardMsg d m true = some e) :
    routeMsg d m true = e := by
  rw [routeMsg, if_neg (by rw [hf]; decide), h]

theorem forwardMsg_own (hk : kindOk (fld m.header 127 124) = true) (hd : fld m.header 119 108 = ownDev d) (t : Bool) :
    forwardMsg d m t = some (deliverMsg d m) := by
  simp only [forwardMsg, hk, Bool.not_true, Bool.false_eq_true, if_false, if_pos hd]

theorem forwardMsg_transit (hk : kindOk (fld m.header 127 124) = true) (hd : fld m.header 119 108 ≠ ownDev d)
    (hhops : 0 < fld m.header 95 88) (hroute : bitAt (routeOf d (aliasOf d (fld m.header 119 108))) 15 = true)
    (hpeer : peerDown d (aliasOf d (fld m.header 119 108)) = false) (hq : chooseQuad d m.header = some q)
    (hline : bitAt (routeOf d (aliasOf d (fld m.header 119 108))) 14 = false) :
    forwardMsg d m true = some (queueMsg d q { m with header := setFld m.header 95 88 (fld m.header 95 88 - 1) }) := by
  have hgo : (!bitAt (routeOf d (aliasOf d (fld m.header 119 108))) 15 || peerDown d (aliasOf d (fld m.header 119 108)) ||
      (true && fld m.header 95 88 == 0)) = false := by
    rw [hroute, hpeer]
    simpa using Nat.ne_of_gt hhops
  unfold forwardMsg
  dsimp only
  rw [if_neg (by rw [hk]; decide), if_neg hd, hgo, if_neg (by decide), hq]
  dsimp only
  rw [if_pos rfl, hline, if_neg (by decide)]

theorem forwardMsg_of_no_hops (hd : fld m.header 119 108 ≠ ownDev d) (hhops : fld m.header 95 88 = 0) : forwardMsg d m true = none := by
  unfold forwardMsg
  dsimp only
  split
  · rfl
  · rw [if_pos (by rw [hhops]; simp)]

theorem dropMsg_of_response {h : Nat} (hr : bitAt h 121 = true) : dropMsg d h = noteDrop d h := if_pos hr

theorem dropMsg_of_request {h : Nat} (hr : bitAt h 121 = false) : dropMsg d h =
    (forwardMsg (noteDrop d h) (unreachMsg (noteDrop d h) h) false).getD (noteDrop (noteDrop d h) (unreachMsg (noteDrop d h) h).header) := by
  rw [dropMsg, if_neg (by rw [hr]; decide)]
  cases forwardMsg (noteDrop d h) (unreachMsg (noteDrop d h) h) false <;> rfl

theorem logEvent_onceStep (d : Dev) (c a b : Nat) : (logEvent d c a b).ev.onceStep = d.ev.onceStep := by
  unfold logEvent
  dsimp only
  split <;> rfl

theorem raise_onceStep (d : Dev) (c a b : Nat) : (raise d c a b).ev.onceStep = d.ev.onceStep := by
  unfold raise
  dsimp only
  split
  · exact logEvent_onceStep d c a b
  · unfold raiseSec
    split
    · exact logEvent_onceStep d c a b
    · exact (logEvent_onceStep _ _ _ _).trans (logEvent_onceStep d c a b)

/-- An event of this step's first occurrence is raised. -/
theorem raiseStep_of_new {c a : Nat} (h : ¬ (c, a) ∈ d.ev.onceStep) (b : Nat) : raiseStep d c a b =
    raise { d with ev := { d.ev with onceStep := (c, a) :: d.ev.onceStep } } c a b := if_neg (by simpa using h)

/-- A response that has no HOPS left is dropped with both events (R425, R426). -/
theorem routeMsg_of_no_hops (hf : d.rl.fenced.contains (fld m.header 107 96) = false) (hk : kindOk (fld m.header 127 124) = true)
    (hd : fld m.header 119 108 ≠ ownDev d) (hhops : fld m.header 95 88 = 0) (hr : bitAt m.header 121 = true) :
    routeMsg d m true = noteDrop (raiseStep d 0x8911 0 m.header) m.header := by
  have hne : (fld m.header 119 108 != ownDev d) = true := bne_iff_ne.2 hd
  have hhops' : (fld m.header 95 88 == 0) = true := beq_iff_eq.2 hhops
  rw [routeMsg, if_neg (by rw [hf]; decide), forwardMsg_of_no_hops hd hhops]
  dsimp only
  rw [hne, hhops', hk, if_pos (by decide), dropMsg_of_response hr]

/-- What the drop of a message leaves. -/
structure Dropped (d : Dev) (h : Nat) (e : Dev) : Prop where
  hops : Logged e 0x8911 0 h
  dropped : Logged e 0x4910 (fld h 119 108) h
  out : e.out = d.out
  kept : cfg e 0x9051 0 = h
  relay : e.rl = d.rl
  mem : e.mem = d.mem

theorem noteDrop_dropped {h : Nat} (h8911 : ¬ (0x8911, 0) ∈ d.ev.onceStep) (h4910 : ¬ (0x4910, fld h 119 108) ∈ d.ev.onceStep) :
    Dropped d h (noteDrop (raiseStep d 0x8911 0 h) h) := by
  have hfirst := raiseStep_of_new h8911 h
  have hlog : LoggedWithin 1 (raiseStep d 0x8911 0 h) 0x8911 0 h := by
    rw [hfirst]
    exact raise_loggedWithin _ _ _ _
  have hstep : (raiseStep d 0x8911 0 h).ev.onceStep = (0x8911, 0) :: d.ev.onceStep := by
    rw [hfirst, raise_onceStep]
  have hout : (raiseStep d 0x8911 0 h).out = d.out := raiseStep_out ..
  have hrl : (raiseStep d 0x8911 0 h).rl = d.rl := raiseStep_rl ..
  have hmem : (raiseStep d 0x8911 0 h).mem = d.mem := raiseStep_mem ..
  generalize raiseStep d 0x8911 0 h = x at hlog hstep hout hrl hmem
  have hnew : ¬ (0x4910, fld h 119 108) ∈ (setObj (bump x 0x9050 0 1) 0x9051 0 h).ev.onceStep := by
    change ¬ (0x4910, fld h 119 108) ∈ x.ev.onceStep
    rw [hstep, List.mem_cons, not_or]
    exact ⟨fun heq => absurd (Prod.mk.inj heq).1 (by decide), h4910⟩
  have hlog' : LoggedWithin 1 (setObj (bump x 0x9050 0 1) 0x9051 0 h) 0x8911 0 h := hlog.of_log_eq (by rfl)
  have hkept : cfg (setObj (bump x 0x9050 0 1) 0x9051 0 h) 0x9051 0 = h := cfg_setObj_same _ _ _ _
  have hout' : (setObj (bump x 0x9050 0 1) 0x9051 0 h).out = x.out := rfl
  have hrl' : (setObj (bump x 0x9050 0 1) 0x9051 0 h).rl = x.rl := rfl
  have hmem' : (setObj (bump x 0x9050 0 1) 0x9051 0 h).mem = x.mem := rfl
  unfold noteDrop
  generalize setObj (bump x 0x9050 0 1) 0x9051 0 h = y at hnew hlog' hkept hout' hrl' hmem'
  refine ⟨?_, ?_, ?_, ?_, ?_, ?_⟩
  · rw [raiseStep_of_new hnew]
    exact (LoggedWithin.raise (hlog'.of_log_eq (by rfl)) (by decide) _ _ _).logged
  · rw [raiseStep_of_new hnew]
    exact raise_logged ..
  · rw [raiseStep_out, hout', hout]
  · rw [raiseStep_cfg _ _ _ _ _ _ (by decide), hkept]
  · rw [raiseStep_rl, hrl', hrl]
  · rw [raiseStep_mem, hmem', hmem]

end

/-- Settles O31, case by case of the message that stands in the receive buffer. That a message with an uncorrectable unit is dropped
with 0x8D85 naming the quad and 0 is the model's choice (log 97), and so is the zero filler (log 45). -/
theorem messagesAreRouted : Obligations.MessagesAreRouted := by
  refine ⟨?own, ?bad, ?none, ?fenced, ?request, ?transit, ?noHops⟩
  case own =>
    intro s q v n m us hs hm hclean hf hk hd
    obtain ⟨hrx, hquads⟩ := messageTaken_frame s.dev q v us n
    refine ⟨deliverMsg (messageTaken s.dev q v us n) m, ?_, rfl, hrx, hquads, rfl, rfl⟩
    rw [exec_messageRoute, onUnit_acting _ _ hs, messageRoute_of_clean hm hclean,
      routeMsg_of_forwarded (d := messageTaken s.dev q v us n) hf (forwardMsg_own (d := messageTaken s.dev q v us n) hk hd true)]
  case bad =>
    intro s q v n i m us hs hm hi hlt
    obtain ⟨hrx, hquads⟩ := messageTaken_frame s.dev q v us n
    refine ⟨raise (bump (messageTaken s.dev q v us n) 0xD826 0 1) 0x8D85 q 0, ?_, raise_logged .., raise_out .., ?_, fun k hk => ?_, raise_mem ..⟩
    · rw [exec_messageRoute, onUnit_acting _ _ hs, messageRoute_of_bad hm hi hlt]
    · rw [quadAt, raise_rl]
      exact hrx
    · rw [quadAt, raise_rl]
      exact hquads k hk
  case none =>
    intro s q v hs h
    rw [exec_messageRoute, onUnit_acting _ _ hs, messageRoute_of_none h]
  case fenced => exact fun d m h => routeMsg_of_fenced h
  case request => exact fun d h hr => dropMsg_of_request hr
  case transit =>
    intro d m q hk hd hf hhops hroute hpeer hq hline
    exact routeMsg_of_forwarded hf (forwardMsg_transit hk hd hhops hroute hpeer hq hline)
  case noHops =>
    intro s q v n m us hs hm hclean hf hk hd hhops hr h8911 h4910
    obtain ⟨hrx, -⟩ := messageTaken_frame s.dev q v us n
    obtain ⟨hlog, hlog', hout, hkept, hrl, hmem⟩ := noteDrop_dropped (d := messageTaken s.dev q v us n) (h := m.header) h8911 h4910
    refine ⟨noteDrop (raiseStep (messageTaken s.dev q v us n) 0x8911 0 m.header) m.header, ?_, hlog, hlog', hout, hkept, ?_, hmem⟩
    · rw [exec_messageRoute, onUnit_acting _ _ hs, messageRoute_of_clean hm hclean,
        routeMsg_of_no_hops (d := messageTaken s.dev q v us n) hf hk hd hhops hr]
    · rw [quadAt, hrl]
      exact hrx

end Sys2Proof.Machine

/-! Relay links (chapter 14): croaks, training, retraining and lost lanes. -/

namespace Sys2Proof.Machine

/-! ### Croaks (R428 to R432) -/

section
variable {d : Dev} {q : Nat} {b : CroakBody}

theorem croakPeer_of_stranger (h : b.devid ≠ (quadAt d q).peerDev) : croakPeer d q b =
    quadFail (raise (setQuad d q { quadAt d q with state := 0, idChanged := true, croakOut := none }) 0x8922 q b.devid) q := if_pos h

theorem croakPeer_of_wedged (h : b.devid = (quadAt d q).peerDev) (hp : b.pstate = 1) : croakPeer d q b =
    raiseStep (setQuad d q { quadAt d q with pstate := 1 }) 0x8921 (quadAt d q).peerDev q := by
  unfold croakPeer
  dsimp only
  rw [if_neg (fun hn => hn h), if_pos hp, hp]

theorem croakPeer_of_peer (h : b.devid = (quadAt d q).peerDev) (hp : b.pstate ≠ 1) : croakPeer d q b =
    setQuad d q { quadAt d q with pstate := b.pstate } := by
  unfold croakPeer
  dsimp only
  rw [if_neg (fun hn => hn h), if_neg hp]

theorem croak_of_up (hup : (quadAt d q).state = 2) : croak d q b = croakPeer (sendFlit d q 4 none (croakFields d q b.cseq)) q b := if_pos hup

theorem sendFlit_quad (kind : Nat) (nak : Option Nat) (fields : List Nat) : (quadAt (sendFlit d q kind nak fields) q).peerDev =
    (quadAt d q).peerDev ∧ (quadAt (sendFlit d q kind nak fields) q).state = (quadAt d q).state := by
  obtain ⟨-, ⟨owed, rotate, hown⟩, -⟩ := sendFlit_taken d q kind nak fields
  rw [hown]
  exact ⟨rfl, rfl⟩

theorem croakReply_of_open (hup : (quadAt d q).state = 2) (hb : b.devid = (quadAt d q).peerDev) (ho : (quadAt d q).croakOut = some b.cseq) :
    croakReply d q b = croakPeer (setQuad d q { quadAt d q with croakOut := none, misses := 0 }) q b := by
  unfold croakReply
  dsimp only
  rw [if_neg (fun h => h hup), if_pos ho, if_pos hb]

theorem croakReply_of_other (hup : (quadAt d q).state = 2) (ho : (quadAt d q).croakOut ≠ some b.cseq) :
    croakReply d q b = croakPeer d q b := by
  unfold croakReply
  dsimp only
  rw [if_neg (fun h => h hup), if_neg ho]

theorem setQuad_setQuad (d : Dev) (q : Nat) (x y : Quad) : setQuad (setQuad d q x) q y = setQuad d q y := by
  rw [setQuad, setQuad, setQuad]
  dsimp only
  rw [tset_tset]

/-- The device with the open croak missed. -/
abbrev croakMissed (d : Dev) (q : Nat) : Dev :=
  bump (setQuad d q { quadAt d q with croakOut := none, misses := (quadAt d q).misses + 1 }) 0x9038 (q + 1) 1

theorem croakWindowClose_of_open {c : Nat} (hup : (quadAt d q).state = 2) (ho : (quadAt d q).croakOut = some c) : croakWindowClose d q =
    if cfg d 0x9004 0 ≤ (quadAt d q).misses + 1 then
      quadFail (setQuad (croakMissed d q) q { quadAt (croakMissed d q) q with state := 4 }) q
    else croakMissed d q := if_pos ⟨hup, by rw [ho]; rfl⟩

end

/-- Settles O30, croak by croak. The header of the reply, its payload order and its CRC are the model's reading (log 98). -/
theorem croaks : Obligations.Croaks := by
  refine ⟨?timer, ?answered, ?reply, ?stranger, ?croakOther, ?replyWedged, ?close⟩
  case timer =>
    intro s q hs hup
    rw [exec_croakTimer, onUnit_acting _ _ hs, croakTimer, if_pos hup]
  case answered =>
    intro s q b hs hup hb hp
    obtain ⟨hpeer, hstate⟩ := sendFlit_quad (d := s.dev) (q := q) 4 none (croakFields s.dev q b.cseq)
    have hsent := sendFlit_out s.dev q 4 none (croakFields s.dev q b.cseq)
    have hev := (sendFlit_taken s.dev q 4 none (croakFields s.dev q b.cseq)).ev
    have hcroak := (croak_of_up (b := b) hup).trans (croakPeer_of_peer (hb.trans hpeer.symm) hp)
    generalize sendFlit s.dev q 4 none (croakFields s.dev q b.cseq) = e at hpeer hstate hsent hev hcroak
    refine ⟨setQuad e q { quadAt e q with pstate := b.pstate }, ?_, ?_, ?_, ⟨(takeHead s.dev q none).1, hsent⟩, hev⟩
    · rw [exec_croak, onUnit_acting _ _ hs, hcroak]
    · rw [quadAt_setQuad_same]
    · rw [quadAt_setQuad_same]
      exact hstate.trans hup
  case reply =>
    intro s q b hs hup hb hp ho
    have hreply := (croakReply_of_open hup hb ho).trans (croakPeer_of_peer (by rw [quadAt_setQuad_same]; exact hb) hp)
    rw [setQuad_setQuad, quadAt_setQuad_same] at hreply
    refine ⟨setQuad s.dev q { quadAt s.dev q with croakOut := none, misses := 0, pstate := b.pstate }, ?_, ?_, ?_, ?_, rfl⟩
    · rw [exec_croakReply, onUnit_acting _ _ hs, hreply]
    all_goals rw [quadAt_setQuad_same]
  case stranger =>
    intro s q b hs hup hb ho
    rw [exec_croakReply, onUnit_acting _ _ hs, croakReply_of_other hup ho, croakPeer_of_stranger hb]
  case croakOther =>
    intro s q b hs hup
    have hexec : exec (.croak q b) s = after s (croakPeer (sendFlit s.dev q 4 none (croakFields s.dev q b.cseq)) q b) := by
      rw [exec_croak, onUnit_acting _ _ hs, croak_of_up hup]
    rw [hexec]
    dsimp only
    exact ⟨fun hb => by rw [croakPeer_of_stranger hb], fun hb hp => by rw [croakPeer_of_wedged hb hp]⟩
  case replyWedged =>
    intro s q b hs hup hb ho hp
    have hreply := (croakReply_of_open hup hb ho).trans (croakPeer_of_wedged (by rw [quadAt_setQuad_same]; exact hb) hp)
    rw [setQuad_setQuad, quadAt_setQuad_same] at hreply
    rw [exec_croakReply, onUnit_acting _ _ hs, hreply]
  case close =>
    intro s q c hs hup ho
    have hexec : exec (.croakWindowClose q) s = after s (croakWindowClose s.dev q) := by
      rw [exec_croakWindowClose, onUnit_acting _ _ hs]
    rw [hexec, croakWindowClose_of_open hup ho]
    dsimp only
    exact ⟨fun h => by rw [if_neg (Nat.not_le.2 h)], fun h => by rw [if_pos h]⟩

/-! ### Training (R402 to R405) -/

section
variable {d : Dev} {q : Nat} {t : TrainInfo}

/-- The quad may train: it is enabled, has its clock, and is in training or retraining. -/
def mayTrain (d : Dev) (q : Nat) : Prop := q < 16 ∧ bitAt (cfg d 0x9012 0) q = true ∧ d.pw.lostPlls.contains (22 + q) = false ∧
  ((quadAt d q).state = 1 ∨ (quadAt d q).state = 3)

theorem mayTrain_bool : (decide (q < 16) && bitAt (cfg d 0x9012 0) q && !d.pw.lostPlls.contains (22 + q) &&
    ((quadAt d q).state == 1 || (quadAt d q).state == 3)) = true ↔ mayTrain d q := by
  unfold mayTrain
  simp only [Bool.and_eq_true, Bool.or_eq_true, decide_eq_true_eq, beq_iff_eq, Bool.not_eq_true', and_assoc]

theorem quadTrain_of_idle (h : ¬ mayTrain d q) : quadTrain d q t = d := by
  unfold quadTrain
  dsimp only
  refine if_pos ?_
  rw [Bool.not_eq_true', ← Bool.not_eq_true, mayTrain_bool]
  exact h

theorem mayTrain_not {α : Type} (h : mayTrain d q) (a b : α) : (if (!(decide (q < 16) && bitAt (cfg d 0x9012 0) q &&
    !d.pw.lostPlls.contains (22 + q) && ((quadAt d q).state == 1 || (quadAt d q).state == 3))) = true then a else b) = b := by
  rw [mayTrain_bool.2 h]
  exact if_neg (by decide)

/-- The quad has found a peer it may not train with. -/
def wrongPeer (e : Dev) (q : Nat) (t : TrainInfo) : Prop := t.peerRole ≠ pairedRole (quadRole e q) ∨ t.peerDev = ownDev e

theorem quadTrain_of_wrong (h : mayTrain d q) (hw : wrongPeer (settleRx d q) q t) : quadTrain d q t =
    raise (setQuad (settleRx d q) q { quadAt (settleRx d q) q with state := 0, idChanged := false }) 0x8902 q t.peerDev := by
  unfold quadTrain
  dsimp only
  rw [mayTrain_not h]
  exact if_pos hw

theorem quadTrain_of_no_rate (hw : ¬ wrongPeer (settleRx d q) q t)
    (hr : pickRate (min (cfg (settleRx d q) 0x9013 0) t.peerCap) (cfg (settleRx d q) 0x9014 0) t = none) : quadTrain d q t = d := by
  by_cases h : mayTrain d q
  · unfold quadTrain
    dsimp only
    rw [mayTrain_not h, hr]
    exact if_neg hw
  · exact quadTrain_of_idle h

/-- A quad that has trained at rate `r` on the lanes `m`. -/
def trainedQuad (e : Dev) (q : Nat) (t : TrainInfo) (r m : Nat) : Quad :=
  { quadAt e q with
    state := 2, rate := rateCode r, lmask := m, peerDev := t.peerDev, peerQ := t.peerQuad
    pver := min t.peerVersion (cfg e 0x9005 0), trained := true, idChanged := false
    credits := [0, 1, 2, 3].foldl (fun c v => tset c v (splitCredits e v)) [], owed := [], taken := []
    misses := 0, croakOut := none, dropSent := none, dropped := 0, rx := [], rxBad := [] }

/-- The device with a quad up and its streams at their start. -/
def quadUp (e : Dev) (q : Nat) (t : TrainInfo) (r m : Nat) : Dev :=
  setRx (restartStream (setQuad e q (trainedQuad e q t r m)) q) t.peerDev t.peerQuad rxReset

/-- The same with the peer's bit of RelayPeerDownMap cleared. -/
def peerUp (e : Dev) (t : TrainInfo) : Dev := if peerDown e t.peerDev then setObj e 0x9052 0 (cfg e 0x9052 0 - 2 ^ t.peerDev) else e

/-- The same with a lower rate or fewer lanes reported. -/
def narrowed (e : Dev) (cap q r m : Nat) : Dev := if m ≠ 15 ∨ r < cap then raise e 0x4903 q (r * 16 + m) else e

theorem peerUp_rl (e : Dev) (t : TrainInfo) : (peerUp e t).rl = e.rl := by
  unfold peerUp
  split <;> rfl

theorem narrowed_rl (e : Dev) (cap q r m : Nat) : (narrowed e cap q r m).rl = e.rl := by
  unfold narrowed
  split
  · exact raise_rl ..
  · rfl

theorem quadTrain_of_rate {r m : Nat} (h : mayTrain d q) (hw : ¬ wrongPeer (settleRx d q) q t)
    (hr : pickRate (min (cfg (settleRx d q) 0x9013 0) t.peerCap) (cfg (settleRx d q) 0x9014 0) t = some (r, m)) : quadTrain d q t =
      pumpQuad (narrowed (peerUp (quadUp (settleRx d q) q t r m) t) (cfg (settleRx d q) 0x9013 0) q r m) q := by
  unfold quadTrain
  dsimp only
  rw [mayTrain_not h, hr]
  exact if_neg hw

theorem pumpStream_of_none_waiting {k : Nat} (h : (streamAt d k).waiting = []) (fuel : Nat) : pumpStream fuel k d = d := by
  cases fuel with
  | zero => rfl
  | succ fuel =>
    unfold pumpStream
    dsimp only
    rw [h]
    rfl

theorem pumpQuad_of_none_waiting (h : ∀ k, k < 16 → carrierOf d k = q → (streamAt d k).waiting = []) : pumpQuad d q = d := by
  refine List.foldlRecOn _ _ (motive := fun x => x = d) rfl fun x hx k hk => ?_
  subst hx
  obtain ⟨hlt, hcarrier⟩ := List.mem_filter.1 hk
  exact pumpStream_of_none_waiting (h k (List.mem_range.1 hlt) (eq_of_beq hcarrier)) _

theorem tget_splitCredits (e : Dev) {v : Nat} (hv : v < 4) :
    tget 0 ([0, 1, 2, 3].foldl (fun c v => tset c v (splitCredits e v)) []) v = splitCredits e v := by
  have hcase : v = 0 ∨ v = 1 ∨ v = 2 ∨ v = 3 := by omega
  rcases hcase with rfl | rfl | rfl | rfl <;> rfl

/-- What a quad that has come up holds (R404, R405). -/
structure QuadIsUp (e : Dev) (q : Nat) (t : TrainInfo) (r m : Nat) (x : Dev) : Prop where
  quad : quadAt x q = trainedQuad e q t r m
  nextSeq : (streamAt x q).nextSeq = 0
  rx : rxAt x t.peerDev t.peerQuad = rxReset

theorem streamAt_setStream_same (d : Dev) (k : Nat) (x : Stream) : streamAt (setStream d k x) k = x := tget_tset_same _ _ _ _

theorem streamAt_setStream_ne (d : Dev) {k j : Nat} (x : Stream) (h : k ≠ j) : streamAt (setStream d k x) j = streamAt d j :=
  tget_tset_ne _ _ _ _ _ h

theorem quadUp_isUp (e : Dev) (q : Nat) (t : TrainInfo) (r m : Nat) : QuadIsUp e q t r m (quadUp e q t r m) := by
  have hquad : quadAt (restartStream (setQuad e q (trainedQuad e q t r m)) q) q = trainedQuad e q t r m := quadAt_setQuad_same e q _
  have hstream : (streamAt (restartStream (setQuad e q (trainedQuad e q t r m)) q) q).nextSeq = 0 := by
    rw [restartStream, streamAt_setStream_same]
  unfold quadUp
  generalize restartStream (setQuad e q (trainedQuad e q t r m)) q = x at hquad hstream
  exact ⟨hquad, hstream, rxAt_setRx_same x t.peerDev t.peerQuad rxReset⟩

theorem QuadIsUp.congr {e x y : Dev} {r m : Nat} (h : QuadIsUp e q t r m x) (hrl : y.rl = x.rl) : QuadIsUp e q t r m y := by
  obtain ⟨hquad, hseq, hrx⟩ := h
  exact ⟨by rw [quadAt, hrl]; exact hquad, by rw [streamAt, hrl]; exact hseq, by rw [rxAt, hrl]; exact hrx⟩

/-- With nothing to send again, a quad that trains comes up and sends nothing. -/
theorem quadTrain_isUp {r m : Nat} (h : mayTrain d q) (hw : ¬ wrongPeer (settleRx d q) q t)
    (hr : pickRate (min (cfg (settleRx d q) 0x9013 0) t.peerCap) (cfg (settleRx d q) 0x9014 0) t = some (r, m))
    (hunacked : (streamAt (settleRx d q) q).unacked = []) (hwaiting : (streamAt (settleRx d q) q).waiting = [])
    (hcarrier : ∀ k, k < 16 → k ≠ q → (streamAt (settleRx d q) k).carrier = none) :
    QuadIsUp (settleRx d q) q t r m (quadTrain d q t) := by
  rw [quadTrain_of_rate h hw hr]
  generalize settleRx d q = e at hunacked hwaiting hcarrier
  have hrl : (narrowed (peerUp (quadUp e q t r m) t) (cfg e 0x9013 0) q r m).rl = (quadUp e q t r m).rl :=
    (narrowed_rl _ _ _ _ _).trans (peerUp_rl _ _)
  have hup := (quadUp_isUp e q t r m).congr hrl
  generalize narrowed (peerUp (quadUp e q t r m) t) (cfg e 0x9013 0) q r m = x at hrl hup
  have hstream (k : Nat) : streamAt x k = streamAt (restartStream (setQuad e q (trainedQuad e q t r m)) q) k := by rw [streamAt, hrl]; rfl
  have hown : (streamAt x q).waiting = [] := by
    rw [hstream, restartStream, streamAt_setStream_same]
    change (streamAt e q).unacked ++ (streamAt e q).waiting = []
    rw [hunacked, hwaiting]
    rfl
  have hrest (k : Nat) (hk : k < 16) (hc : carrierOf x k = q) : (streamAt x k).waiting = [] := by
    by_cases hkq : k = q
    · rw [hkq]; exact hown
    · have hnone : (streamAt x k).carrier = none := by
        rw [hstream, restartStream, streamAt_setStream_ne _ _ (Ne.symm hkq)]
        exact hcarrier k hk hkq
      rw [carrierOf, hnone] at hc
      exact absurd hc hkq
  rw [pumpQuad_of_none_waiting hrest]
  exact hup

end

/-! ### Retraining and lost lanes (R430, R433, R434) -/

section
variable (d : Dev) {q : Nat}

/-- An enabled quad retrains, and another one stays. -/
def retrainEnabled (d : Dev) (q : Nat) : Dev := if bitAt (cfg d 0x9012 0) q then quadRetrainOne d q else d

theorem quadRetrain_eq (m : Nat) : quadRetrain d m = send ((setBits 16 (m % 65536)).foldl retrainEnabled d) (.status 0x9060 0 0) := rfl

theorem retrainEnabled_out (q : Nat) : (retrainEnabled d q).out = d.out := by
  unfold retrainEnabled
  split
  · exact raise_out ..
  · rfl

theorem cfg_retrainEnabled (q : Nat) : cfg (retrainEnabled d q) 0x9012 0 = cfg d 0x9012 0 := by
  unfold retrainEnabled
  split
  · exact cfg_raise_idx _ _ _ _ _ _ (by decide) (by decide)
  · rfl

/-- The quad as a retrain leaves it. -/
abbrev quadRetrained (x : Quad) : Quad := { x with state := 3, croakOut := none, misses := 0 }

theorem quadAt_foldl_retrainEnabled {qs : List Nat} (hnd : qs.Nodup) (k : Nat) : quadAt (qs.foldl retrainEnabled d) k =
    if k ∈ qs ∧ bitAt (cfg d 0x9012 0) k = true then quadRetrained (quadAt d k) else quadAt d k := by
  induction qs generalizing d with
  | nil => simp
  | cons q qs ih =>
    obtain ⟨hq, hnd⟩ := List.nodup_cons.1 hnd
    rw [List.foldl_cons, ih (retrainEnabled d q) hnd, cfg_retrainEnabled]
    by_cases hkq : k = q
    · subst hkq
      rw [if_neg (fun h => hq h.1)]
      unfold retrainEnabled
      by_cases hbit : bitAt (cfg d 0x9012 0) k = true
      · rw [if_pos hbit, if_pos ⟨List.mem_cons_self .., hbit⟩, quadAt_quadRetrainOne_same]
      · rw [if_neg hbit, if_neg (fun h => hbit h.2)]
    · have hsame : quadAt (retrainEnabled d q) k = quadAt d k := by
        unfold retrainEnabled
        split
        · exact quadAt_quadRetrainOne_ne d (Ne.symm hkq)
        · rfl
      rw [hsame]
      simp only [List.mem_cons, hkq, false_or]

theorem quadAt_quadRetrain (m k : Nat) : quadAt (quadRetrain d m) k =
    if k < 16 ∧ bitAt m k = true ∧ bitAt (cfg d 0x9012 0) k = true then quadRetrained (quadAt d k) else quadAt d k := by
  have h := quadAt_foldl_retrainEnabled d (nodup_setBits 16 (m % 65536)) k
  have hmem : k ∈ setBits 16 (m % 65536) ↔ k < 16 ∧ bitAt m k = true := by
    rw [mem_setBits]
    exact and_congr_right fun hk => by rw [show (65536 : Nat) = 2 ^ 16 from rfl, bitAt_mod hk]
  rw [quadRetrain_eq]
  change quadAt ((setBits 16 (m % 65536)).foldl retrainEnabled d) k = _
  simp only [h, hmem, and_assoc]

theorem quadRetrain_out (m : Nat) : (quadRetrain d m).out = d.out ++ [.status 0x9060 0 0] := by
  rw [quadRetrain_eq, send_out]
  congr 1
  exact foldl_keeps (step := retrainEnabled) Dev.out retrainEnabled_out _ d

theorem setBits_two_pow (hq : q < 16) : setBits 16 (2 ^ q % 65536) = [q] := by
  have hcases : ∀ q < 16, setBits 16 (2 ^ q % 65536) = [q] := by decide
  exact hcases q hq

theorem quadRetrain_logged (hq : q < 16) (hen : bitAt (cfg d 0x9012 0) q = true) : Logged (quadRetrain d (2 ^ q)) 0x4905 q 0 := by
  rw [quadRetrain_eq, setBits_two_pow hq, List.foldl_cons, List.foldl_nil, retrainEnabled, if_pos hen]
  exact (Logged_send ..).2 (raise_logged ..)

variable {d} {m lane : Nat}

/-- What a switch to fewer lanes leaves. -/
structure LanesUsed (d : Dev) (q m lane : Nat) (e : Dev) : Prop where
  mask : (quadAt e q).lmask = m
  state : (quadAt e q).state = (quadAt d q).state
  logged : Logged e 0x4904 q lane
  streams : e.rl.streams = d.rl.streams

theorem useLanes_used (d : Dev) (q m lane : Nat) : LanesUsed d q m lane (useLanes d q m lane) := by
  have hquad : quadAt (useLanes d q m lane) q =
      { quadAt d q with lmask := m, dropped := (quadAt d q).dropped ||| ((quadAt d q).lmask - ((quadAt d q).lmask &&& m)) } := by
    rw [useLanes, quadAt, raise_rl]
    exact quadAt_setQuad_same _ _ _
  refine ⟨by rw [hquad], by rw [hquad], raise_logged .., ?_⟩
  rw [useLanes, raise_rl]
  rfl

/-- The lane a new mask drops. -/
abbrev laneLost (d : Dev) (q m : Nat) : Nat := 4 * q + ((List.range 4).find? (fun j => bitAt (quadAt d q).lmask j && !bitAt m j)).getD 0

theorem laneDrop_of_fresh (hup : (quadAt d q).state = 2) (hm : m % 16 ≠ 0) (hs : (quadAt d q).dropSent = none) :
    laneDrop d q m = useLanes d q (m % 16) (laneLost d q m) := by
  unfold laneDrop
  dsimp only
  rw [if_neg (fun h => h.elim (fun h => h hup) hm), hs]

theorem laneDrop_of_sent {n : Nat} (hup : (quadAt d q).state = 2) (hm : m % 16 ≠ 0) (hs : (quadAt d q).dropSent = some n) : laneDrop d q m =
    if ownDev d < (quadAt d q).peerDev then d else if n = m % 16 then d else useLanes d q (m % 16) (laneLost d q m) := by
  unfold laneDrop
  dsimp only
  rw [if_neg (fun h => h.elim (fun h => h hup) hm), hs]

/-- The device that names its new lane mask to the peer. -/
abbrev lanesNamed (d : Dev) (q l m : Nat) : Dev :=
  sendFlit (setQuad (useLanes d q m (4 * q + l)) q { quadAt (useLanes d q m (4 * q + l)) q with dropSent := some m }) q 6 none [m]

theorem laneDropDetect_of_lanes {l : Nat} (hup : (quadAt d q).state = 2) (hl : l < 4) (hbit : bitAt (quadAt d q).lmask l = true)
    (hm : pickLanes ((quadAt d q).lmask - 2 ^ l) = some m) : laneDropDetect d q l = lanesNamed d q l m := by
  unfold laneDropDetect
  dsimp only
  rw [if_pos ⟨hup, hl, hbit⟩, hm]

theorem laneDropDetect_of_none {l : Nat} (hup : (quadAt d q).state = 2) (hl : l < 4) (hbit : bitAt (quadAt d q).lmask l = true)
    (hm : pickLanes ((quadAt d q).lmask - 2 ^ l) = none) : laneDropDetect d q l = quadDown d q := by
  unfold laneDropDetect
  dsimp only
  rw [if_pos ⟨hup, hl, hbit⟩, hm]

theorem lanesNamed_used (d : Dev) (q l m : Nat) : (quadAt (lanesNamed d q l m) q).lmask = m ∧
    (quadAt (lanesNamed d q l m) q).state = (quadAt d q).state ∧ Logged (lanesNamed d q l m) 0x4904 q (4 * q + l) := by
  obtain ⟨hmask, hstate, hlog, -⟩ := useLanes_used d q m (4 * q + l)
  unfold lanesNamed
  generalize useLanes d q m (4 * q + l) = x at hmask hstate hlog
  have hquad : quadAt (setQuad x q { quadAt x q with dropSent := some m }) q = { quadAt x q with dropSent := some m } := quadAt_setQuad_same ..
  have hev : (setQuad x q { quadAt x q with dropSent := some m }).ev = x.ev := rfl
  generalize setQuad x q { quadAt x q with dropSent := some m } = y at hquad hev
  obtain ⟨-, ⟨owed, rotate, hown⟩, -, -, hsent, -⟩ := sendFlit_taken y q 6 none [m]
  rw [hown, hquad]
  refine ⟨hmask, hstate, ?_⟩
  unfold Logged at hlog ⊢
  rw [hsent, hev]
  exact hlog

end

/-- Settles O29, command by command. That messages taken whole before a training go on to their units is the model's choice (log 45). -/
theorem quadTraining : Obligations.QuadTraining := by
  refine ⟨?up, ?wrong, ?idle, ?noRate, ?timeout, ?retrainTimeout, ?signal, ?retrainOne, ?retrain, ?drop, ?dropSent, ?detect, ?detectNone⟩
  case up =>
    intro s q r m t hs hq hen hclk hstate
    dsimp only
    intro hrole hdev hrate hunacked hwaiting hcarrier
    obtain ⟨hquad, hseq, hrx⟩ := quadTrain_isUp (t := t) ⟨hq, hen, hclk, hstate⟩
      (fun h => h.elim (fun h => h hrole) (fun h => hdev h)) hrate hunacked hwaiting hcarrier
    refine ⟨quadTrain s.dev q t, ?_, ?_⟩
    · rw [exec_quadTrain, onUnit_acting _ _ hs]
    · rw [hquad]
      exact ⟨rfl, rfl, rfl, rfl, rfl, rfl, fun v hv => tget_splitCredits _ hv, hseq, hrx⟩
  case wrong =>
    intro s q t hs hq hen hclk hstate
    dsimp only
    intro hw
    rw [exec_quadTrain, onUnit_acting _ _ hs, quadTrain_of_wrong ⟨hq, hen, hclk, hstate⟩ hw]
  case idle =>
    intro s q t hs h
    rw [exec_quadTrain, onUnit_acting _ _ hs, quadTrain_of_idle]
    rintro ⟨hq, hen, hclk, hstate⟩
    rcases h with h | h | h | ⟨h1, h3⟩
    · exact absurd hq (Nat.not_lt.2 h)
    · rw [hen] at h; cases h
    · rw [hclk] at h; cases h
    · exact hstate.elim h1 h3
  case noRate =>
    intro s q t hs
    dsimp only
    intro hrole hdev hrate
    rw [exec_quadTrain, onUnit_acting _ _ hs, quadTrain_of_no_rate (fun h => h.elim (fun h => h hrole) (fun h => hdev h)) hrate]
  case timeout =>
    intro s q hs h
    rw [exec_trainTimeout, onUnit_acting _ _ hs, trainTimeout, if_pos h]
  case retrainTimeout =>
    intro s q hs h
    rw [exec_retrainTimeout, onUnit_acting _ _ hs, retrainTimeout, if_pos h]
  case signal =>
    intro s q hs hlo hhi
    have hin : [1, 2, 3].contains (quadAt s.dev q).state = true := by
      simp only [List.contains_iff_mem, List.mem_cons, List.not_mem_nil, or_false]
      omega
    rw [exec_laneSignalLoss, onUnit_acting _ _ hs, laneSignalLoss, if_pos hin]
  case retrainOne =>
    intro s q hs hq hen
    refine ⟨quadRetrain s.dev (2 ^ q), ?_, ?_, fun k hk => ?_, quadRetrain_logged s.dev hq hen, quadRetrain_out _ _⟩
    · rw [exec_quadRetrain, onObject_serving hs]
    · rw [quadAt_quadRetrain, if_pos ⟨hq, by rw [bitAt_eq_testBit, Nat.testBit_two_pow_self], hen⟩]
    · rw [quadAt_quadRetrain, if_neg]
      rintro ⟨-, hbit, -⟩
      rw [bitAt_eq_testBit, Nat.testBit_two_pow] at hbit
      exact hk (of_decide_eq_true hbit).symm
  case retrain =>
    intro s m hs
    refine ⟨quadRetrain s.dev m, ?_, quadRetrain_out _ _, quadAt_quadRetrain _ _⟩
    rw [exec_quadRetrain, onObject_serving hs]
  case drop =>
    intro s q m hs hup hm hsent
    obtain ⟨hmask, hstate, hlog, hstreams⟩ := useLanes_used s.dev q (m % 16) (laneLost s.dev q m)
    refine ⟨useLanes s.dev q (m % 16) (laneLost s.dev q m), ?_, hmask, hstate.trans hup, hlog, hstreams⟩
    rw [exec_laneDrop, onUnit_acting _ _ hs, laneDrop_of_fresh hup hm hsent]
  case dropSent =>
    intro s q m n hs hup hm hsent
    have hexec : exec (.laneDrop q m) s = after s (laneDrop s.dev q m) := by rw [exec_laneDrop, onUnit_acting _ _ hs]
    rw [hexec, laneDrop_of_sent hup hm hsent]
    refine ⟨fun hlt => by rw [if_pos hlt], fun hle hne => ?_⟩
    obtain ⟨hmask, hstate, -, hstreams⟩ := useLanes_used s.dev q (m % 16) (laneLost s.dev q m)
    rw [if_neg (Nat.not_lt.2 hle), if_neg hne]
    exact ⟨_, rfl, hmask, hstate.trans hup, hstreams⟩
  case detect =>
    intro s q l m hs hup hl hbit hm
    obtain ⟨hmask, hstate, hlog⟩ := lanesNamed_used s.dev q l m
    refine ⟨lanesNamed s.dev q l m, ?_, hmask, hstate.trans hup, hlog⟩
    rw [exec_laneDropDetect, onUnit_acting _ _ hs, laneDropDetect_of_lanes hup hl hbit hm]
  case detectNone =>
    intro s q l hs hup hl hbit hm
    rw [exec_laneDropDetect, onUnit_acting _ _ hs, laneDropDetect_of_none hup hl hbit hm]

end Sys2Proof.Machine

/-! The collective engine (chapter 15): staging, announcements and folding. -/

namespace Sys2Proof.Machine

/-! ### Staging (R449, R450) -/

section
variable {d : Dev} (b c p w : Nat)

/-- The lowest free place of a bucket's staging, and the bytes of its arrays. -/
abbrev stagingPlace (d : Dev) (b : Nat) : Nat := firstGap (cfg d 0xA020 (bktHalf d b + 1)) (bktNblk d b * 36) (stagingBlocks d (bktHalf d b))

/-- The staging fits in its half's region. -/
abbrev stagingFits (d : Dev) (b : Nat) : Prop :=
  stagingPlace d b + bktNblk d b * 36 ≤ cfg d 0xA020 (bktHalf d b + 1) + cfg d 0xA021 (bktHalf d b + 1)

/-- A bucket's new staging. -/
def newStaging (d : Dev) (b c p : Nat) : Staging :=
  { bucket := b, step := c, place := p, half := bktHalf d b, base := stagingPlace d b, bytes := bktNblk d b * 36, left := [], announced := false }

/-- The device with the arrays of a bucket's staging filled with +0. -/
def stagingCleared (d : Dev) (b : Nat) : Dev := devWrite d (stagingPlace d b) (List.replicate (bktNblk d b * 36) 0#8)

/-- The device with a bucket's staging placed. -/
def stagingPlaced (d : Dev) (b c p : Nat) : Dev :=
  { stagingCleared d b with ce := { (stagingCleared d b).ce with staging := (stagingCleared d b).ce.staging ++ [newStaging d b c p] } }

theorem stagingAllocate_of_idle (h : bktEn d b = false ∨ (stagingOf d b c p).isSome = true) : stagingAllocate d b c p w = d := by
  refine if_pos ?_
  rcases h with h | h <;> simp [h]

theorem stagingAllocate_of_due (hen : bktEn d b = true) (hnew : (stagingOf d b c p).isSome = false) : stagingAllocate d b c p w =
    if stagingFits d b then stagingPlaced d b c p else raiseStep (bump d 0xA057 (bktHalf d b + 1) w) 0x4A07 (bktHalf d b) b := by
  refine (if_neg ?_).trans ?_
  · simp [hen, hnew]
  · rfl

theorem stagingOf_stagingPlaced : (stagingOf (stagingPlaced d b c p) b c p).isSome = true := by
  rw [stagingOf, List.find?_isSome]
  exact ⟨newStaging d b c p, List.mem_append_right _ (List.mem_singleton_self _), by simp [newStaging]⟩

/-- The arrays read as +0, and every other byte as before. -/
theorem memByte_stagingPlaced (hfills : d.mem.fills = []) (hwf : Mem.wf d.mem = true) (i : Nat) : memByte (stagingPlaced d b c p).mem i =
    if stagingPlace d b ≤ i ∧ i < stagingPlace d b + bktNblk d b * 36 then 0#8 else memByte d.mem i := by
  have hok : FillsOk d.mem := by
    intro f hf
    rw [hfills] at hf
    cases hf
  obtain ⟨hbyte, -, -⟩ := writeThrough_spec d (ownerHalf (stagingPlace d b)) 0 (stagingPlace d b) (List.replicate (bktNblk d b * 36) 0#8) {}
    hok hwf
  refine (hbyte i).trans ?_
  rw [List.length_replicate]
  split
  next h => exact List.getD_replicate _ (by omega)
  · rfl

end

/-! ### Handing off and announcing (R450, R456 to R458) -/

section
variable {d : Dev} {g b lap p f src r : Nat} {x : BktWait}

/-- Every earlier pass of a BKT has been taken. -/
def passesIn (d : Dev) (x : BktWait) : Prop := ∀ b ∈ x.before, ∀ q ∈ (vcAt d b.1).passes, q.task = x.task → b.2 ≤ q.num

theorem passesIn_bool : (x.before.any (fun b => (vcAt d b.1).passes.any (fun q => q.task == x.task && decide (q.num < b.2)))) = false ↔
    passesIn d x := by
  unfold passesIn
  simp only [List.any_eq_false, Bool.and_eq_true, beq_iff_eq, decide_eq_true_eq, not_and, Nat.not_lt, Bool.not_eq_true]

theorem bucketHandoff_of_in (hx : d.ce.buckets.find? (fun x => x.cluster == g) = some x) (h : passesIn d x) : bucketHandoff d g =
    if bktEn d x.bucket then announceBucket { d with ce := { d.ce with buckets := d.ce.buckets.erase x } } x.bucket x.step x.place
    else { d with ce := { d.ce with buckets := d.ce.buckets.erase x } } := by
  unfold bucketHandoff
  rw [hx]
  dsimp only
  rw [passesIn_bool.2 h]
  rfl

theorem bucketHandoff_of_waiting (hx : d.ce.buckets.find? (fun x => x.cluster == g) = some x) {k : Nat × Nat} (hk : k ∈ x.before)
    {q : Pass} (hq : q ∈ (vcAt d k.1).passes) (htask : q.task = x.task) (hnum : q.num < k.2) : bucketHandoff d g = d := by
  unfold bucketHandoff
  rw [hx]
  refine if_pos (List.any_eq_true.2 ⟨k, hk, List.any_eq_true.2 ⟨q, hq, ?_⟩⟩)
  simp [htask, hnum]

/-- This device owns a part of the bucket, and the message is another's. -/
def takesAnnounce (d : Dev) (b src : Nat) : Prop := bktEn d b = true ∧ (bktOwners d b).contains (grpRank d (bktGroup d b)) = true ∧
  src ≠ ownDev d

/-- How many steps an announcement is ahead of the window's first. -/
abbrev announceAhead (d : Dev) (b lap : Nat) : Nat := (lap + (256 - lowStep d (bktPent d b) % 256)) % 256

theorem announce_of_stranger (h : grpRankOf d (bktGroup d b) src = none) : announce d src b lap p f = ceMisrouted d (bktGroup d b) src := by
  unfold announce
  dsimp only
  rw [h]

theorem announce_of_other (h : ¬ takesAnnounce d b src) : announce d src b lap p f = ceMisrouted d (bktGroup d b) src := by
  cases hr : grpRankOf d (bktGroup d b) src with
  | none => exact announce_of_stranger hr
  | some r =>
    unfold announce
    dsimp only
    rw [hr]
    refine if_pos ?_
    simp only [Bool.or_eq_true, Bool.not_eq_true', beq_iff_eq]
    unfold takesAnnounce at h
    by_cases hen : bktEn d b = true
    · by_cases hown : (bktOwners d b).contains (grpRank d (bktGroup d b)) = true
      · exact .inr (not_not.1 fun hsrc => h ⟨hen, hown, hsrc⟩)
      · exact .inl (.inr (Bool.not_eq_true _ ▸ hown))
    · exact .inl (.inl (Bool.not_eq_true _ ▸ hen))

/-- What an announcement of a member's part comes to. -/
theorem announce_of_member (hr : grpRankOf d (bktGroup d b) src = some r) (h : takesAnnounce d b src) : announce d src b lap p f =
    if f ≠ cfg d 0xA016 0 then stopBinders (raise d 0x8A02 (bktPent d b) src) (bktPent d b) 0x8A02
    else if 128 ≤ announceAhead d b lap then ceStale d (bktGroup d b) src
    else if 4 ≤ announceAhead d b lap then stopBinders (raise d 0x8A05 (bktPent d b) src) (bktPent d b) 0x8A05
    else if (matchOf d b (lowStep d (bktPent d b) + announceAhead d b lap) p).any (fun m => m.ranks.contains r) then
      raiseStep (bump d 0xA054 0 1) 0x4A04 b src
    else noteAnnounce (bump d 0xA050 0 1) b (lowStep d (bktPent d b) + announceAhead d b lap) p r := by
  obtain ⟨hen, hown, hsrc⟩ := h
  unfold announce
  dsimp only
  rw [hr]
  refine if_neg ?_
  rw [hen, hown]
  simpa using hsrc

end

/-! ### Folding (R452, R453, R472) -/

section
variable {d : Dev} {b c p k w : Nat} {m : Match}

/-- The chunk has landed and is still to be delivered. -/
def foldDue (d : Dev) (m : Match) (b k : Nat) : Prop := chunkLanded d m k = true ∧ m.delivered.contains k = false ∧
  k < chunkCount d b (grpRank d (bktGroup d b))

theorem chunkFold_of_bad (hm : matchOf d b c p = some m) (hbad : eccBad d (.match_ b c p) = true) :
    chunkFold d b c p k w = ceFail d (bktPent d b) b := by
  unfold chunkFold
  rw [hm]
  exact if_pos hbad

theorem chunkFold_of_idle (hm : matchOf d b c p = some m) (hgood : eccBad d (.match_ b c p) = false) (h : ¬ foldDue d m b k) :
    chunkFold d b c p k w = d := by
  unfold chunkFold
  rw [hm]
  dsimp only
  rw [if_neg (by rw [hgood]; decide), if_pos]
  unfold foldDue at h
  simp only [Bool.or_eq_true, Bool.not_eq_true', decide_eq_true_eq]
  by_cases hl : chunkLanded d m k = true
  · by_cases hd : m.delivered.contains k = false
    · exact .inr (Nat.not_lt.1 fun hk => h ⟨hl, hd, hk⟩)
    · exact .inl (.inr (Bool.not_eq_false _ ▸ hd))
  · exact .inl (.inl (Bool.not_eq_true _ ▸ hl))

/-- The pieces of a chunk delivered until one is held. -/
abbrev chunkDelivered (d : Dev) (m : Match) (k w : Nat) : Nat × Bool × Dev :=
  deliverPieces w ((chunkPieces d m k).drop (tget 0 m.taken k)) (tget 0 m.taken k) d

/-- The match with the chunk delivered. -/
abbrev chunkGone (m : Match) (k : Nat) : Match := { m with delivered := m.delivered ++ [k], taken := tdel m.taken k }

theorem chunkFold_of_due (hm : matchOf d b c p = some m) (hgood : eccBad d (.match_ b c p) = false) (h : foldDue d m b k) :
    chunkFold d b c p k w = if (chunkDelivered d m k w).2.1 then
      issueAll (if (chunkGone m k).delivered.length = chunkCount d b (grpRank d (bktGroup d b)) then
          closeMatch (setMatch (chunkDelivered d m k w).2.2 (chunkGone m k)) (chunkGone m k)
        else setMatch (chunkDelivered d m k w).2.2 (chunkGone m k))
    else setMatch (chunkDelivered d m k w).2.2 { m with taken := tset m.taken k (chunkDelivered d m k w).1 } := by
  obtain ⟨hl, hd, hk⟩ := h
  unfold chunkFold
  rw [hm]
  dsimp only
  rw [if_neg (by rw [hgood]; decide), if_neg]
  rw [hl, hd]
  simpa using hk

end

/-- Settles O32, command by command. That a match record that cannot be read raises 0x8A0B with its entry and bucket and stops every
context that binds the entry is the model's choice (log 96). -/
theorem bucketCommands : Obligations.BucketCommands := by
  refine ⟨?allocate, ?allocated, ?handoff, ?announce, ?misrouted, ?fold, ?foldIdle⟩
  case allocate =>
    intro s b c p w hs hen hnew
    have hexec : exec (.stagingAllocate b c p w) s = after s (stagingAllocate s.dev b c p w) := by
      rw [exec_stagingAllocate, onUnit_acting _ _ hs]
    rw [stagingAllocate_of_due b c p w hen hnew] at hexec
    dsimp only
    refine ⟨fun hfits hfills hwf => ⟨stagingPlaced s.dev b c p, ?_, stagingOf_stagingPlaced b c p, fun i hi => ?_, fun i hi => ?_⟩, fun hfull => ?_⟩
    · rw [hexec, if_pos hfits]
    · rw [memByte_stagingPlaced b c p hfills hwf, if_pos ⟨Nat.le_add_right _ _, Nat.add_lt_add_left hi _⟩]
    · rw [memByte_stagingPlaced b c p hfills hwf, if_neg hi]
    · rw [hexec, if_neg (Nat.not_le.2 hfull)]
  case allocated =>
    intro s b c p w hs h
    rw [exec_stagingAllocate, onUnit_acting _ _ hs, stagingAllocate_of_idle b c p w h]
  case handoff =>
    intro s g x hs hx
    have hexec : exec (.bucketHandoff g) s = after s (bucketHandoff s.dev g) := by rw [exec_bucketHandoff, onUnit_acting _ _ hs]
    rw [hexec]
    refine ⟨fun hin => ?_, fun k hk q hq htask hnum => by rw [bucketHandoff_of_waiting hx hk hq htask hnum]⟩
    rw [bucketHandoff_of_in hx hin]
    exact ⟨fun hen => by rw [if_pos hen], fun hen => by rw [if_neg (by rw [hen]; decide)]⟩
  case announce =>
    intro s src b lap p r hs hr hen hown hsrc
    have hexec (f : Nat) : exec (.announce src b lap p f) s = after s (announce s.dev src b lap p f) := by
      rw [exec_announce, onUnit_acting _ _ hs]
    dsimp only
    simp only [hexec, announce_of_member hr ⟨hen, hown, hsrc⟩]
    rw [if_neg (fun h => h rfl)]
    refine ⟨fun (hx : announceAhead s.dev b lap < 4) hm => ?_, fun (hx : announceAhead s.dev b lap < 4) hm => ?_,
      fun (hlo : 4 ≤ announceAhead s.dev b lap) (hhi : announceAhead s.dev b lap < 128) => ?_,
      fun (hx : 128 ≤ announceAhead s.dev b lap) => ?_, fun f hf => by rw [if_pos hf]⟩
    · rw [if_neg (by omega), if_neg (by omega), if_neg (by rw [hm]; decide)]
    · rw [if_neg (by omega), if_neg (by omega), if_pos hm]
    · rw [if_neg (by omega), if_pos hlo]
    · rw [if_pos hx, ceStale]
  case misrouted =>
    intro s src b lap p f hs h
    rw [exec_announce, onUnit_acting _ _ hs]
    rcases h with h | h
    · rw [announce_of_stranger h, ceMisrouted]
    · rw [announce_of_other, ceMisrouted]
      rintro ⟨hen, hown, hsrc⟩
      rcases h with h | h | h
      · rw [hen] at h; cases h
      · rw [hown] at h; cases h
      · exact hsrc h
  case fold =>
    intro s b c p k w m hs hm hgood hl hd hk
    have hexec : exec (.chunkFold b c p k w) s = after s (chunkFold s.dev b c p k w) := by rw [exec_chunkFold, onUnit_acting _ _ hs]
    rw [hexec, chunkFold_of_due hm hgood ⟨hl, hd, hk⟩]
    exact ⟨fun h => by rw [if_neg (by rw [h]; decide)], fun h => by rw [if_pos h]⟩
  case foldIdle =>
    intro s b c p k w m hs hm
    rw [exec_chunkFold, onUnit_acting _ _ hs]
    refine ⟨fun hgood h => ?_, fun hbad => by rw [chunkFold_of_bad hm hbad, ceFail]⟩
    rw [chunkFold_of_idle hm hgood]
    rintro ⟨hl, hd, hk⟩
    rcases h with h | h | h
    · rw [hl] at h; cases h
    · rw [hd] at h; cases h
    · exact absurd hk (Nat.not_lt.2 h)

end Sys2Proof.Machine

/-! The collective engine (chapter 15): READs and what answers them, multicasts, clip totals and unreachable members. -/

namespace Sys2Proof.Machine

/-! ### READs served (R461, R468) -/

section
variable {d : Dev} {src l i f body : Nat}

theorem serveData_of_clean {a n : Nat} (h : ueIn d.mem a n = []) : serveData d src f l i a n =
    replyData (readThrough d (ownerHalf a) 64 0 a n).2 src f l i (memRead d.mem a n) := by
  unfold serveData
  dsimp only
  rw [h]
  rfl

theorem serveData_of_bad {a n : Nat} (h : ueIn d.mem a n ≠ []) : serveData d src f l i a n = (readThrough d (ownerHalf a) 64 0 a n).2 :=
  if_neg (by simpa using h)

theorem ReadsOnly.out {d e : Dev} (h : ReadsOnly d e) : e.out = d.out := by
  obtain ⟨_, _, _, _, _, _, _, _, -, rfl⟩ := h
  rfl

/-- What a READ of a version slot comes to (R461). -/
theorem ceServe_of_slot {e : Nat} (hp : parOf d (fld body 127 104) = some e) (hm : (grpRankOf d (parGroup d e) src).isSome = true) :
    let v := fld body 103 72
    let x := vslotAt d e (ringSlot d e v)
    ceServe d src l i 0 f body = if x.ver = some v ∧ (x.state = 2 ∨ x.state = 3) then
        serveData d src f l i (slotCopy d e v + fld body 71 32) (fld body 31 0)
      else replyStatus d src f l i 1 := by
  have hm' : ¬ (grpRankOf d (parGroup d e) src).isNone = true := by rw [Option.isNone_iff_eq_none]; exact fun h => by rw [h] at hm; cases hm
  unfold ceServe holds
  dsimp only
  rw [if_pos rfl, hp]
  dsimp only
  rw [if_neg hm']
  simp only [Bool.and_eq_true, Bool.or_eq_true, beq_iff_eq]

/-- The announced staging that a READ of SPACE 1 names. -/
abbrev stagingRead (d : Dev) (body : Nat) : Option Staging := d.ce.staging.find? (fun s =>
  s.bucket == fld body 127 104 && s.step % 256 == fld body 103 96 && s.place == fld body 95 80 && s.announced)

/-- The address a READ of SPACE 1 names in a staging. -/
abbrev stagingAddr (d : Dev) (x : Staging) (body : Nat) : Nat :=
  x.base + (if bitAt body 79 then 32 * bktNblk d (fld body 127 104) else 0) + fld body 63 32

theorem ceServe_of_unstaged {sp r : Nat} (hsp : sp ≠ 0) (hr : grpRankOf d (bktGroup d (fld body 127 104)) src = some r)
    (h : stagingRead d body = none) : ceServe d src l i sp f body = replyStatus d src f l i 2 := by
  unfold stagingRead at h
  unfold ceServe
  dsimp only
  rw [if_neg hsp, hr]
  dsimp only
  rw [h]

theorem ceServe_of_staged {sp r : Nat} {x : Staging} (hsp : sp ≠ 0) (hr : grpRankOf d (bktGroup d (fld body 127 104)) src = some r)
    (h : stagingRead d body = some x) : ceServe d src l i sp f body =
      let e := serveData d src f l i (stagingAddr d x body) (fld body 31 0)
      if (ueIn d.mem (stagingAddr d x body) (fld body 31 0)).isEmpty then partRead e x r (fld body 31 0)
      else ceFail e (bktPent d (fld body 127 104)) (fld body 127 104) := by
  unfold stagingRead at h
  unfold ceServe
  dsimp only
  rw [if_neg hsp, hr]
  dsimp only
  rw [h]

end

/-! ### READ-DATA (R459 to R461) -/

section
variable {d : Dev} {src l i st k : Nat} {bs : List Byte} {r : CeRead}

/-- The outstanding READ that a READ-DATA answers. -/
abbrev readAnswered (d : Dev) (src l i k : Nat) : Option CeRead :=
  d.ce.reads.find? (fun r => r.sent && r.ridx == i && r.rlap == l && r.dst == src && !r.got.contains k)

/-- The device with a READ taken out. -/
abbrev readOut (d : Dev) (r : CeRead) : Dev := { d with ce := { d.ce with reads := d.ce.reads.filter (fun x => x.what != r.what) } }

/-- The bytes of a READ-DATA landed and counted. -/
abbrev readLanded (d : Dev) (r : CeRead) (k : Nat) (bs : List Byte) : Dev := bump (landRead (readOut d r) r (8192 * k) bs) 0xA052 0 bs.length

theorem readData_of_stale (h : readAnswered d src l i k = none) : readData d src l i st k bs = ceStale d 0xFFFF src := by
  unfold readAnswered at h
  unfold readData
  rw [h]

theorem readData_of_good (h : readAnswered d src l i k = some r) : readData d src l i 0 k bs =
    if (r.got ++ [k]).length = max 1 (ceilDiv r.len 8192) then pumpReads (readLanded d r k bs) r.unit 1
    else { readLanded d r k bs with ce := { (readLanded d r k bs).ce with
      reads := (readLanded d r k bs).ce.reads ++ [{ r with got := r.got ++ [k] }] } } := by
  unfold readAnswered at h
  unfold readData
  rw [h]
  rfl

theorem readData_of_gather {e v q o : Nat} (h : readAnswered d src l i k = some r) (hst : st ≠ 0) (hw : r.what = .gather e v q o) :
    readData d src l i st k bs = pumpReads (stopWaiters (raise (readOut d r) 0x8683 e v) e v 0x8683) r.unit 1 := by
  unfold readAnswered at h
  unfold readData
  rw [h]
  dsimp only
  unfold readOut
  simp only [if_pos hst, hw]

theorem readData_of_share {b c p q n o : Nat} (h : readAnswered d src l i k = some r) (hst : st ≠ 0) (hw : r.what = .share b c p q n o) :
    readData d src l i st k bs = pumpReads (stopBinders (raise (readOut d r) 0x8A0A b src) (bktPent d b) 0x8A0A) r.unit 1 := by
  unfold readAnswered at h
  unfold readData
  rw [h]
  dsimp only
  unfold readOut
  simp only [if_pos hst, hw]

end

/-! ### Multicasts (R463 to R465) -/

section
variable {d : Dev} {src p v o off n e : Nat} {bs : List Byte}

/-- A multicast's children here. -/
abbrev mcastChildren (d : Dev) (e o : Nat) : List Nat := treeChildren d (parGroup d e) o (parRank d e)

/-- The record of a multicast in the retention buffer. -/
abbrev mcastOf (d : Dev) (e v o : Nat) : Option Mcast := d.ce.mcasts.find? (fun m => m.entry == e && m.ver == v && m.origin == o)

/-- A multicast message sent on to the children and retained. -/
def mcastForwarded (d : Dev) (e v o off : Nat) (bs : List Byte) : Dev :=
  if (mcastChildren d e o).isEmpty then d
  else
    let m := (mcastOf d e v o).getD
      { entry := e, ver := v, origin := o, acks := (mcastChildren d e o).foldl (fun t c => tset t c 0) [], sent := 0, total := parVbytes d e }
    let known := d.ce.mcasts.any (fun m => m.entry == e && m.ver == v && m.origin == o)
    let d0 := if known then d else { d with ce := { d.ce with mcasts := d.ce.mcasts ++ [m] } }
    setMcast (mcastSend d0 e v o off (m.acks.map Prod.fst) bs) { m with sent := m.sent + bs.length }

/-- A multicast message landed in a prefetch buffer and counted. -/
def mcastLanded (d x : Dev) (e v o off : Nat) (bs : List Byte) : Dev :=
  match bufOf x e v with
  | some b =>
    if b.pushed.contains o && !b.complete then
      bump (setBuf (bufWrite x b (o * parVbytes d e + off) bs) { b with missing := b.missing - bs.length }) 0xA052 0 bs.length
    else x
  | none => x

/-- The bytes of an origin's shard that have come, with this message. -/
abbrev mcastGot (d : Dev) (e v o : Nat) (bs : List Byte) : Nat := pushedOf d e v o + bs.length

/-- An acknowledgement is due: at every 64 KiB and at the end. -/
abbrev ackDueAt (d : Dev) (e v o : Nat) (bs : List Byte) : Prop :=
  mcastGot d e v o bs / 65536 ≠ pushedOf d e v o / 65536 ∨ mcastGot d e v o bs = parVbytes d e

theorem mdata_of_no_par (h : parOf d p = none) : mdata d src p v o off bs = ceMisrouted d 0xFFFF src := by
  unfold mdata
  rw [h]

theorem mdata_of_stranger (h : parOf d p = some e) (hr : grpRankOf d (parGroup d e) src = none) :
    mdata d src p v o off bs = ceMisrouted d (parGroup d e) src := by
  unfold mdata
  rw [h]
  exact if_pos (by rw [hr]; rfl)

theorem not_isNone_of_isSome {α : Type} {x : Option α} (h : x.isSome = true) : ¬ x.isNone = true := by
  cases x with
  | none => cases h
  | some _ => exact Bool.false_ne_true

theorem mdata_of_full (h : parOf d p = some e) (hm : (grpRankOf d (parGroup d e) src).isSome = true) (hc : mcastChildren d e o ≠ [])
    (hfull : cfg d 0xA030 0 < retained d (parGroup d e) + bs.length) : mdata d src p v o off bs = d := by
  unfold mdata
  rw [h]
  dsimp only
  rw [if_neg (not_isNone_of_isSome hm)]
  refine if_pos ?_
  rw [decide_eq_true hfull, Bool.and_true, Bool.not_eq_true', List.isEmpty_eq_false_iff]
  exact hc

/-- A multicast message that is taken goes on, lands, and may be acknowledged. -/
theorem mdata_of_taken (h : parOf d p = some e) (hm : (grpRankOf d (parGroup d e) src).isSome = true)
    (hroom : mcastChildren d e o = [] ∨ retained d (parGroup d e) + bs.length ≤ cfg d 0xA030 0) : mdata d src p v o off bs =
      let x := mcastLanded d (setPushed (mcastForwarded d e v o off bs) e v o (mcastGot d e v o bs)) e v o off bs
      if ackDueAt d e v o bs then
        relaySend x src 8 2 0 (p % 256) (mcastArg d 2 e v) (leBytes 16 (mcastWord o (mcastGot d e v o bs)))
      else x := by
  unfold mdata
  rw [h]
  dsimp only
  rw [if_neg (not_isNone_of_isSome hm), if_neg]
  · rfl
  · rw [Bool.and_eq_true, decide_eq_true_eq, Bool.not_eq_true', List.isEmpty_eq_false_iff]
    rintro ⟨hc, hfull⟩
    exact hroom.elim hc (fun h => absurd hfull (Nat.not_lt.2 h))

theorem mcastForwarded_of_leaf (h : mcastChildren d e o = []) : mcastForwarded d e v o off bs = d := if_pos (by rw [h]; rfl)

theorem mcastForwarded_of_known {m : Mcast} (hc : mcastChildren d e o ≠ []) (hm : mcastOf d e v o = some m) :
    mcastForwarded d e v o off bs = setMcast (mcastSend d e v o off (m.acks.map Prod.fst) bs) { m with sent := m.sent + bs.length } := by
  have hknown : d.ce.mcasts.any (fun m => m.entry == e && m.ver == v && m.origin == o) = true := by
    rw [List.any_eq_true]
    have hfind : d.ce.mcasts.find? (fun m => m.entry == e && m.ver == v && m.origin == o) = some m := hm
    have hkey := List.find?_some hfind
    exact ⟨m, List.mem_of_find?_eq_some hfind, hkey⟩
  unfold mcastForwarded
  rw [if_neg (by simpa using hc)]
  dsimp only
  rw [hm, hknown, if_pos rfl]
  rfl

theorem relaySend_relay (d : Dev) (dst kind role rsp flow arg : Nat) (body : List Byte) :
    RelayOnly d (relaySend d dst kind role rsp flow arg body) := routeMsg_relay d _ _

theorem mcastSend_relay (d : Dev) (e v o off : Nat) (cs : List Nat) (bs : List Byte) : RelayOnly d (mcastSend d e v o off cs bs) :=
  foldl_relay d (fun x _ => relaySend_relay x _ _ _ _ _ _ _) cs

theorem mcastForwarded_wv (d : Dev) (e v o off : Nat) (bs : List Byte) : (mcastForwarded d e v o off bs).wv = d.wv := by
  unfold mcastForwarded
  split
  · rfl
  · dsimp only
    refine (mcastSend_relay _ e v o off _ bs).wv.trans ?_
    split <;> rfl

theorem mcastLanded_of_none {x : Dev} (h : bufOf x e v = none) : mcastLanded d x e v o off bs = x := by
  unfold mcastLanded
  rw [h]

theorem mcastLanded_of_prefetch {x : Dev} {b : Gbuf} (h : bufOf x e v = some b) (hp : b.pushed.contains o = true) (hc : b.complete = false) :
    mcastLanded d x e v o off bs =
      bump (setBuf (bufWrite x b (o * parVbytes d e + off) bs) { b with missing := b.missing - bs.length }) 0xA052 0 bs.length := by
  unfold mcastLanded
  rw [h]
  exact if_pos (by rw [hp, hc]; rfl)

theorem bufOf_pushed (d : Dev) (e v o off n : Nat) (bs : List Byte) :
    bufOf (setPushed (mcastForwarded d e v o off bs) e v o n) e v = bufOf d e v := by
  have hwv : (setPushed (mcastForwarded d e v o off bs) e v o n).wv = d.wv := mcastForwarded_wv d e v o off bs
  rw [bufOf, hwv, bufOf]

/-! ### Acknowledgements, FETCH and autotomy (R465, R466) -/

theorem mack_of_no_par (h : parOf d p = none) : mack d src p v o n = ceMisrouted d 0xFFFF src := by
  unfold mack
  rw [h]

theorem mack_of_stranger (h : parOf d p = some e) (hr : grpRankOf d (parGroup d e) src = none) :
    mack d src p v o n = ceMisrouted d (parGroup d e) src := by
  unfold mack
  rw [h]
  dsimp only
  rw [hr]

/-- A multicast record with a child's count raised. -/
abbrev mcastAcked (m : Mcast) (r n : Nat) : Mcast := { m with acks := tset m.acks r (max n (tget 0 m.acks r)) }

/-- Every byte of the multicast has been sent and acknowledged. -/
abbrev mcastWhole (m : Mcast) : Prop := m.sent = m.total ∧ m.acks.all (fun a => decide (m.total ≤ a.2)) = true

/-- The device with a multicast's record freed. -/
def mcastFreed (d : Dev) (m : Mcast) (e v o : Nat) : Dev :=
  { endRec (setMcast d m) (.retention e v o) with
    ce := { (setMcast d m).ce with mcasts := (setMcast d m).ce.mcasts.filter (fun x => !(x.entry == e && x.ver == v && x.origin == o)) } }

section
variable {r : Nat} {m : Mcast} (hp : parOf d p = some e) (hr : grpRankOf d (parGroup d e) src = some r) (hm : mcastOf d e v o = some m)
  (ha : (tfind m.acks r).isSome = true)
include hp hr hm ha

theorem mack_of_bad (hbad : eccBad d (.retention e v o) = true) : mack d src p v o n = ceFail d e v := by
  unfold mcastOf at hm
  unfold mack
  rw [hp]
  dsimp only
  rw [hr]
  dsimp only
  rw [hm]
  dsimp only
  rw [if_neg (not_isNone_of_isSome ha), if_pos hbad]

theorem mack_of_child (hgood : eccBad d (.retention e v o) = false) : mack d src p v o n =
    if mcastWhole (mcastAcked m r n) then mcastFreed d (mcastAcked m r n) e v o
    else if o = parRank d e then mcastPump (parVbytes d e / 8192 + 1) (setMcast d (mcastAcked m r n)) (mcastAcked m r n)
    else setMcast d (mcastAcked m r n) := by
  unfold mcastOf at hm
  unfold mack
  rw [hp]
  dsimp only
  rw [hr]
  dsimp only
  rw [hm]
  dsimp only
  rw [if_neg (not_isNone_of_isSome ha), if_neg (by rw [hgood]; decide)]
  rfl

end

theorem mcastFreed_spec (d : Dev) (m : Mcast) (e v o : Nat) :
    (∀ x ∈ (mcastFreed d m e v o).ce.mcasts, ¬ (x.entry = e ∧ x.ver = v ∧ x.origin = o)) ∧
    (mcastFreed d m e v o).mem.bytes = d.mem.bytes ∧ (mcastFreed d m e v o).out = d.out := by
  refine ⟨fun x hx => ?_, rfl, rfl⟩
  have hkey := (List.mem_filter.1 hx).2
  simp only [Bool.not_eq_true', Bool.and_eq_false_iff, beq_eq_false_iff_ne] at hkey
  rintro ⟨he, hv, ho⟩
  rcases hkey with (hkey | hkey) | hkey
  · exact hkey he
  · exact hkey hv
  · exact hkey ho

theorem ceFetch_of_no_par (h : parOf d p = none) : ceFetch d src p v o = ceMisrouted d 0xFFFF src := by
  unfold ceFetch
  rw [h]

theorem ceFetch_of_stranger (h : parOf d p = some e) (hr : grpRankOf d (parGroup d e) src = none) :
    ceFetch d src p v o = ceMisrouted d (parGroup d e) src := by
  unfold ceFetch
  rw [h]
  exact if_pos (by rw [hr]; rfl)

theorem ceFetch_of_pushed {b : Gbuf} (h : parOf d p = some e) (hm : (grpRankOf d (parGroup d e) src).isSome = true)
    (hb : bufOf d e v = some b) (hp : b.pushed.contains o = true) : ceFetch d src p v o =
      readShard (setBuf d { b with pushed := b.pushed.filter (fun r => r != o) }) e v o (pushedOf d e v o) := by
  unfold ceFetch
  rw [h]
  dsimp only
  rw [if_neg (not_isNone_of_isSome hm), hb]
  exact if_pos hp

theorem ceFetch_of_unpushed (h : parOf d p = some e) (hm : (grpRankOf d (parGroup d e) src).isSome = true)
    (hb : ∀ b, bufOf d e v = some b → b.pushed.contains o = false) : ceFetch d src p v o = d := by
  unfold ceFetch
  rw [h]
  dsimp only
  rw [if_neg (not_isNone_of_isSome hm)]
  cases hbuf : bufOf d e v with
  | none => rfl
  | some b => exact if_neg (by rw [hb b hbuf]; decide)

end

section
variable {d : Dev} {g us r n : Nat} {m : Mcast}

/-- The multicasts of a group that still have bytes to send. -/
abbrev mcastsHeld (d : Dev) (g : Nat) : List Mcast :=
  d.ce.mcasts.filter (fun m => parGroup d m.entry == g && !m.acks.isEmpty && decide (m.sent < m.total))

theorem autotomy_of_early (h : us < cfg d 0xA031 0) : autotomy d g us = d := by
  unfold autotomy
  dsimp only
  split
  · rfl
  · exact if_pos (.inl h)

/-- The device with a child removed from a group's trees, told so, and reported (R466). -/
def childRemoved (d : Dev) (g : Nat) (m : Mcast) (r n : Nat) : Dev :=
  let told := (r :: treeBeneath d g m.origin 64 r).foldl (fun x k =>
    relaySend x (grpMember d g k) 8 2 0 (parPid d m.entry % 256) (mcastArg d 3 m.entry m.ver) (leBytes 16 (mcastWord m.origin 0))) d
  let noted := setObj (bump told 0xA056 0 1) 0xA060 0
    (grpMember d g r * 2 ^ 116 + g * 2 ^ 100 + parPid d m.entry * 2 ^ 76 + m.ver * 2 ^ 44 + n)
  let raised := raise noted 0x4A08 (grpMember d g r) g
  setMcast { raised with ce := { raised.ce with removed := raised.ce.removed ++ [(g, r)] } } { m with acks := tdel m.acks r }

theorem autotomy_of_full (hms : mcastsHeld d g = [m]) (hus : cfg d 0xA031 0 ≤ us)
    (hfull : cfg d 0xA030 0 < retained d g + min 8192 (m.total - m.sent))
    (hr : m.acks.find? (fun a => a.2 == (m.acks.map Prod.snd).foldl min m.sent) = some (r, n)) : autotomy d g us =
      if m.origin = parRank d m.entry then mcastPump (m.total / 8192 + 1) (childRemoved d g m r n) { m with acks := tdel m.acks r }
      else childRemoved d g m r n := by
  unfold mcastsHeld at hms
  unfold autotomy
  dsimp only
  rw [hms]
  dsimp only [List.foldl_nil]
  have hgo : ¬ (us < cfg d 0xA031 0 ∨ retained d g + min 8192 (m.total - m.sent) ≤ cfg d 0xA030 0) := by omega
  refine (if_neg hgo).trans ?_
  rw [hr]
  rfl

theorem childRemoved_spec (d : Dev) (g : Nat) (m : Mcast) (r n : Nat) : Logged (childRemoved d g m r n) 0x4A08 (grpMember d g r) g ∧
    (g, r) ∈ (childRemoved d g m r n).ce.removed := by
  unfold childRemoved
  dsimp only
  generalize setObj _ 0xA060 0 _ = x
  have hlog : LoggedWithin 1 (raise x 0x4A08 (grpMember d g r) g) 0x4A08 (grpMember d g r) g := raise_loggedWithin _ _ _ _
  generalize raise x 0x4A08 (grpMember d g r) g = y at hlog
  exact ⟨(hlog.of_log_eq (by rfl)).logged, List.mem_append_right _ (List.mem_singleton_self _)⟩

end

/-! ### Clip totals and unreachable members (R456, R458, R462, R467) -/

section
variable {d : Dev} {src g l r : Nat} {q : F32}

/-- How many steps a clip total is ahead of the group's next one. -/
abbrev clipAhead (d : Dev) (g l : Nat) : Nat := (l + (256 - clipNext d g % 256)) % 256

/-- The member's total of a step has come. -/
abbrev clipHeld (d : Dev) (g l r : Nat) : Bool :=
  d.up.totals.any (fun t => t.1 == g && t.2.1 == clipNext d g + clipAhead d g l && t.2.2.1 == r)

theorem clip_of_stranger (h : grpRankOf d (clipGroup d g) src = none) : clip d src g l q = ceMisrouted d (clipGroup d g) src := by
  unfold clip
  rw [h]

/-- What a member's clip total comes to. -/
theorem clip_of_member (hlo : 1 ≤ g) (hhi : g ≤ 15) (hr : grpRankOf d (clipGroup d g) src = some r) : clip d src g l q =
    if 128 ≤ clipAhead d g l then ceStale d (clipGroup d g) src
    else if 4 ≤ clipAhead d g l then (clipEntries d g).foldl (fun z e => stopBinders z e 0x8A05) (raise d 0x8A05 g src)
    else if clipHeld d g l r then d
    else clipForm { d with up := { d.up with totals := d.up.totals ++ [(g, clipNext d g + clipAhead d g l, r, q)] } } g
      (clipNext d g + clipAhead d g l) := by
  unfold clip
  rw [hr]
  exact if_neg (by omega)

theorem pumpReads_of_all_sent (h : ∀ r ∈ d.ce.reads, r.sent = true) (unit fuel : Nat) : pumpReads d unit fuel = d := by
  cases fuel with
  | zero => rfl
  | succ fuel =>
    have hnone : d.ce.reads.find? (fun r => r.unit == unit && !r.sent) = none := by
      refine List.find?_eq_none.2 fun r hr => ?_
      simp [h r hr]
    unfold pumpReads
    rw [hnone]

/-- The device with an UNREACH counted and reported (R462). -/
def unreachNoted (d : Dev) (h : Nat) : Dev := raise (bump d 0xA059 0 1) 0x8A0A (fld h 55 44) h

/-- The outstanding READs that an UNREACH ends. -/
abbrev readsEnded (d : Dev) (h : Nat) : List CeRead := d.ce.reads.filter (fun r => r.sent && r.dst == fld h 55 44 && r.flow == fld h 23 16)

/-- The device without the READs that an UNREACH ends. -/
def readsDropped (d : Dev) (h : Nat) : Dev :=
  { unreachNoted d h with ce := { (unreachNoted d h).ce with reads := (unreachNoted d h).ce.reads.filter (fun r => !(readsEnded d h).contains r) } }

/-- Only stops of contexts follow. -/
def StopsOnly (d e : Dev) : Prop := e.ce = d.ce ∧ e.mem = d.mem ∧ e.ev = d.ev

theorem foldl_stopBinders_stops (es : List Nat) (d : Dev) (code : Nat) : StopsOnly d (es.foldl (fun x e => stopBinders x e code) d) := by
  refine List.foldlRecOn es _ (motive := fun x => StopsOnly d x) ⟨rfl, rfl, rfl⟩ fun x hx e _ => ?_
  obtain ⟨hce, hmem, hev⟩ := hx
  have hfaults := stopBinders_faults x e code
  have hev' : (stopBinders x e code).ev = x.ev := foldl_keeps Dev.ev (fun d c => (unitFault_frame d c code).1) _ x
  obtain ⟨_, _, _, _, _, heq⟩ := hfaults
  exact ⟨(congrArg Dev.ce heq :).trans hce, (congrArg Dev.mem heq :).trans hmem, hev'.trans hev⟩

theorem unreachNoted_spec (d : Dev) (h : Nat) : (unreachNoted d h).ce = d.ce ∧ (unreachNoted d h).mem = d.mem ∧
    LoggedWithin 1 (unreachNoted d h) 0x8A0A (fld h 55 44) h :=
  ⟨raise_ce .., raise_mem .., raise_loggedWithin ..⟩

/-- The entries whose contexts an UNREACH of a READ stops. -/
abbrev readEntries (d : Dev) (h : Nat) : List Nat := (readsEnded d h).map (fun r => match r.what with
  | .gather e _ _ _ => e
  | .share b _ _ _ _ _ => bktPent d b)

theorem ceUnreach_of_read {h : Nat} (hk : fld h 63 60 = 6) : ceUnreach d h =
    (readEntries d h).foldl (fun x e => stopBinders x e 0x8A0A) (pumpReads (pumpReads (readsDropped d h) 0 4096) 1 4096) := if_pos hk

theorem ceUnreach_of_other {h : Nat} (hk : fld h 63 60 ≠ 6) : ∃ es : List Nat, ceUnreach d h =
    es.foldl (fun x e => stopBinders x e 0x8A0A) (unreachNoted d h) := ⟨_, if_neg hk⟩

/-- What an UNREACH leaves of the collective engine. -/
structure UnreachTaken (d : Dev) (h : Nat) (reads : List CeRead) (e : Dev) : Prop where
  logged : Logged e 0x8A0A (fld h 55 44) h
  reads : e.ce.reads = reads
  bytes : e.mem.bytes = d.mem.bytes

theorem ceUnreach_read_taken {h : Nat} (hk : fld h 63 60 = 6) (hsent : ∀ r ∈ d.ce.reads, r.sent = true) :
    UnreachTaken d h (d.ce.reads.filter (fun r => !(r.dst == fld h 55 44 && r.flow == fld h 23 16))) (ceUnreach d h) := by
  obtain ⟨hce, hmem, hlog⟩ := unreachNoted_spec d h
  have hreads : (readsDropped d h).ce.reads = d.ce.reads.filter (fun r => !(r.dst == fld h 55 44 && r.flow == fld h 23 16)) := by
    change (unreachNoted d h).ce.reads.filter (fun r => !(readsEnded d h).contains r) = _
    rw [hce]
    refine List.filter_congr fun r hr => ?_
    have hmem : (readsEnded d h).contains r = (r.dst == fld h 55 44 && r.flow == fld h 23 16) := by
      rw [Bool.eq_iff_iff, List.contains_iff_mem, List.mem_filter, hsent r hr, Bool.true_and]
      exact and_iff_right hr
    rw [hmem]
  have hall : ∀ r ∈ (readsDropped d h).ce.reads, r.sent = true := by
    rw [hreads]
    exact fun r hr => hsent r (List.mem_of_mem_filter hr)
  have hlog' : LoggedWithin 1 (readsDropped d h) 0x8A0A (fld h 55 44) h := hlog.of_log_eq (by rfl)
  have hbytes : (readsDropped d h).mem.bytes = d.mem.bytes := congrArg Mem.bytes hmem
  rw [ceUnreach_of_read hk, pumpReads_of_all_sent hall, pumpReads_of_all_sent hall]
  generalize readsDropped d h = x at hreads hlog' hbytes
  obtain ⟨hce', hmem', hev'⟩ := foldl_stopBinders_stops (readEntries d h) x 0x8A0A
  exact ⟨(hlog'.of_log_eq (congrArg Ev.log hev')).logged, (congrArg Ce.reads hce').trans hreads, (congrArg Mem.bytes hmem').trans hbytes⟩

theorem ceUnreach_other_taken {h : Nat} (hk : fld h 63 60 ≠ 6) : UnreachTaken d h d.ce.reads (ceUnreach d h) := by
  obtain ⟨hce, hmem, hlog⟩ := unreachNoted_spec d h
  obtain ⟨es, hes⟩ := ceUnreach_of_other (d := d) hk
  rw [hes]
  generalize unreachNoted d h = x at hce hmem hlog
  obtain ⟨hce', hmem', hev'⟩ := foldl_stopBinders_stops es x 0x8A0A
  exact ⟨(hlog.of_log_eq (congrArg Ev.log hev')).logged, congrArg Ce.reads (hce'.trans hce), congrArg Mem.bytes (hmem'.trans hmem)⟩

end

/-- Settles O33, message by message. How an UNREACH is matched with what it answers and the flow of a CLIP are the model's choice
(log 46), and so is a sender that sends nothing of a read that cannot be delivered (log 97). -/
theorem collectiveMessages : Obligations.CollectiveMessages := by
  refine ⟨?slot, ?staged, ?clean, ?bad, ?stale, ?landed, ?misrouted, ?mdata, ?mack, ?mackBad, ?fetch, ?autotomy, ?early, ?clip, ?clipStranger,
    ?unreach⟩
  case slot =>
    intro s src l i f body e hs hp hm
    have h := ceServe_of_slot (l := l) (i := i) (f := f) hp hm
    dsimp only at h ⊢
    rw [exec_read, onUnit_acting _ _ hs, h]
    refine ⟨fun hv hst => by rw [if_pos ⟨hv, hst⟩], fun hn => ?_⟩
    rw [if_neg]
    rintro ⟨hv, hst⟩
    rcases hn with hn | ⟨h2, h3⟩
    · exact hn hv
    · exact hst.elim h2 h3
  case staged =>
    intro s src l i f body sp r hs hsp
    dsimp only
    intro hr
    have hexec : exec (.read src l i sp f body) s = after s (ceServe s.dev src l i sp f body) := by rw [exec_read, onUnit_acting _ _ hs]
    rw [hexec]
    refine ⟨fun hnone => by rw [ceServe_of_unstaged hsp hr hnone], fun x hx => ?_⟩
    have h := ceServe_of_staged (l := l) (i := i) (f := f) hsp hr hx
    dsimp only at h
    rw [h]
    exact ⟨fun hue => by rw [if_pos (by rw [hue]; rfl)], fun hue => by rw [if_neg (by simpa using hue)]⟩
  case clean => exact fun d src f l i a n h => serveData_of_clean h
  case bad =>
    intro d src f l i a n h
    have hreads : ReadsOnly d (readThrough d (ownerHalf a) 64 0 a n).2 := readThrough_reads _ _ _ _ _ _ _
    rw [serveData_of_bad h]
    exact ⟨hreads.out, hreads.memByte⟩
  case stale =>
    intro s src l i st k bs hs h
    rw [exec_readData, onUnit_acting _ _ hs, readData_of_stale h, ceStale]
  case landed =>
    intro s src l i k bs r hs h
    have hexec (st : Nat) : exec (.readData src l i st k bs) s = after s (readData s.dev src l i st k bs) := by
      rw [exec_readData, onUnit_acting _ _ hs]
    dsimp only
    refine ⟨fun hn => ?_, fun hn => ?_, fun st e v q o hst hw => ?_, fun st b c p q n o hst hw => ?_⟩
    · rw [hexec, readData_of_good h, if_neg hn]
    · rw [hexec, readData_of_good h, if_pos hn]
    · rw [hexec, readData_of_gather h hst hw]
    · rw [hexec, readData_of_share h hst hw]
  case misrouted =>
    intro s src p v o off n bs hs c hc
    simp only [List.mem_cons, List.not_mem_nil, or_false] at hc
    rcases hc with rfl | rfl | rfl
    · rw [exec_mdata, onUnit_acting _ _ hs]
      exact ⟨fun h => by rw [mdata_of_no_par h, ceMisrouted], fun e h hr => by rw [mdata_of_stranger h hr, ceMisrouted]⟩
    · rw [exec_mack, onUnit_acting _ _ hs]
      exact ⟨fun h => by rw [mack_of_no_par h, ceMisrouted], fun e h hr => by rw [mack_of_stranger h hr, ceMisrouted]⟩
    · rw [exec_fetch, onUnit_acting _ _ hs]
      exact ⟨fun h => by rw [ceFetch_of_no_par h, ceMisrouted], fun e h hr => by rw [ceFetch_of_stranger h hr, ceMisrouted]⟩
  case mdata =>
    intro s src p v o off e bs hs hp hm
    have hexec : exec (.mdata src p v o off bs) s = after s (mdata s.dev src p v o off bs) := by rw [exec_mdata, onUnit_acting _ _ hs]
    have hnotDue (hq : mcastGot s.dev e v o bs / 65536 = pushedOf s.dev e v o / 65536) (hl : mcastGot s.dev e v o bs ≠ parVbytes s.dev e) :
        ¬ ackDueAt s.dev e v o bs := fun h => h.elim (fun h => h hq) hl
    dsimp only
    rw [hexec]
    refine ⟨fun hc hfull => by rw [mdata_of_full hp hm hc hfull], fun hc hb hq hl => ?_, fun hc hb (hdue : ackDueAt s.dev e v o bs) => ?_, fun b hc hb hpush hcomp hq hl => ?_,
      fun m hc hroom hm' hb => ?_⟩
    · rw [mdata_of_taken hp hm (.inl hc), mcastLanded_of_none ((bufOf_pushed ..).trans hb), mcastForwarded_of_leaf hc]
      dsimp only
      rw [if_neg (hnotDue hq hl)]
    · rw [mdata_of_taken hp hm (.inl hc), mcastLanded_of_none ((bufOf_pushed ..).trans hb), mcastForwarded_of_leaf hc]
      dsimp only
      rw [if_pos hdue]
    · rw [mdata_of_taken hp hm (.inl hc), mcastLanded_of_prefetch ((bufOf_pushed ..).trans hb) hpush hcomp, mcastForwarded_of_leaf hc]
      dsimp only
      rw [if_neg (hnotDue hq hl)]
    · rw [mdata_of_taken hp hm (.inr hroom), mcastLanded_of_none ((bufOf_pushed ..).trans hb), mcastForwarded_of_known hc hm']
      dsimp only
      exact ⟨fun hq hl => by rw [if_neg (hnotDue hq hl)], fun (hdue : ackDueAt s.dev e v o bs) => by rw [if_pos hdue]⟩
  case mack =>
    intro s src p v o n e r m hs hp hr hm ha hgood
    have hexec : exec (.mack src p v o n) s = after s (mack s.dev src p v o n) := by rw [exec_mack, onUnit_acting _ _ hs]
    dsimp only
    rw [hexec, mack_of_child hp hr hm ha hgood]
    refine ⟨fun hsent hall => ⟨mcastFreed s.dev (mcastAcked m r n) e v o, ?_, mcastFreed_spec _ _ _ _ _⟩, fun h => ?_⟩
    · rw [if_pos ⟨hsent, hall⟩]
    · rw [if_neg]
      rintro ⟨hsent, hall⟩
      rcases h with h | h
      · exact h hsent
      · rw [hall] at h; cases h
  case mackBad =>
    intro s src p v o n e r m hs hp hr hm ha hbad
    rw [exec_mack, onUnit_acting _ _ hs, mack_of_bad hp hr hm ha hbad]
  case fetch =>
    intro s src p v o e hs hp hm
    have hexec : exec (.fetch src p v o) s = after s (ceFetch s.dev src p v o) := by rw [exec_fetch, onUnit_acting _ _ hs]
    rw [hexec]
    exact ⟨fun b hb hpush => by rw [ceFetch_of_pushed hp hm hb hpush], fun hb => by rw [ceFetch_of_unpushed hp hm hb]⟩
  case autotomy =>
    intro s g us m r n hs hms hus hfull hr
    obtain ⟨hlog, hremoved⟩ := childRemoved_spec s.dev g m r n
    refine ⟨autotomy s.dev g us, childRemoved s.dev g m r n, ?_, hlog, ?_, hremoved⟩
    · rw [exec_autotomy, onUnit_acting _ _ hs]
    · rw [autotomy_of_full hms hus hfull hr]
      split
      · exact .inr ⟨_, _, rfl⟩
      · exact .inl rfl
  case early =>
    intro s g us hs h
    rw [exec_autotomy, onUnit_acting _ _ hs, autotomy_of_early h]
  case clip =>
    intro s src g l r q hs hlo hhi hr
    have hexec : exec (.clip src g l q) s = after s (clip s.dev src g l q) := by rw [exec_clip, onUnit_acting _ _ hs]
    dsimp only
    rw [hexec, clip_of_member hlo hhi hr]
    refine ⟨fun (hx : clipAhead s.dev g l < 4) (ht : clipHeld s.dev g l r = false) => ?_,
      fun (hx : clipAhead s.dev g l < 4) (ht : clipHeld s.dev g l r = true) => ?_,
      fun (hx : 4 ≤ clipAhead s.dev g l) (hx' : clipAhead s.dev g l < 128) => ?_, fun (hx : 128 ≤ clipAhead s.dev g l) => ?_⟩
    · rw [if_neg (by omega), if_neg (by omega), if_neg (by rw [ht]; decide)]
    · rw [if_neg (by omega), if_neg (by omega), if_pos ht]
    · rw [if_neg (by omega), if_pos hx]
    · rw [if_pos hx, ceStale]
  case clipStranger =>
    intro s src g l q hs h
    rw [exec_clip, onUnit_acting _ _ hs, clip_of_stranger h, ceMisrouted]
  case unreach =>
    intro s h hs hk hsent
    have hne : fld h 63 60 ≠ 9 := by omega
    have hexec : exec (.unreachReceive h) s = after s (ceUnreach s.dev h) := by
      rw [exec_unreachReceive, onUnit_acting _ _ hs, unreachReceive, if_neg hne]
    rcases hk with hk | hk
    · obtain ⟨hlog, hreads, hbytes⟩ := ceUnreach_read_taken hk hsent
      exact ⟨ceUnreach s.dev h, hexec, hlog, fun _ => hreads, fun h8 => by omega, hbytes⟩
    · obtain ⟨hlog, hreads, hbytes⟩ := ceUnreach_other_taken (d := s.dev) (h := h) (by omega)
      exact ⟨ceUnreach s.dev h, hexec, hlog, fun h6 => by omega, fun _ => hreads, hbytes⟩

end Sys2Proof.Machine

/-! The expert exchange (chapter 16): doorbells, the messages of a tag, and the end of a dispatch and of a combine. -/

namespace Sys2Proof.Machine

/-! ### Doorbells (R480, R481, R486) -/

/-- The oldest doorbell of a layer and a kind. -/
abbrev oldestBell (d : Dev) (l : Nat) (combine : Bool) : Option ExBell :=
  d.ex.bells.find? (fun b => b.layer == l && b.combine == combine)

/-- The device once a bell is taken. -/
abbrev bellTaken (d : Dev) (b : ExBell) : Dev := { d with ex := { d.ex with bells := d.ex.bells.erase b } }

/-- The wait of 1 that takes a dispatch doorbell. -/
abbrev dispatchWait (d : Dev) (l : Nat) (b : ExBell) : Bool × Dev := semTake (bellTaken d b) (exCluster d l) (exDbd d l) 14 1

/-- The wait of 1 that takes a combine doorbell. -/
abbrev combineWait (d : Dev) (l : Nat) (b : ExBell) : Bool × Dev := semTake (bellTaken d b) (exCluster d l) (exDbc d l) 14 1

/-- The records a dispatch reads can be read (R493). -/
abbrev DispatchReadable (d : Dev) (l : Nat) (b : ExBell) : Prop :=
  placesBad d l = false ∧ eccBad d (.pending l b.bwd b.tag) = false ∧ (b.bwd = true → eccBad d (.route (exRouteKey d l b.tag)) = false)

/-- The records a combine reads can be read (R493). -/
abbrev CombineReadable (d : Dev) (l : Nat) (b : ExBell) : Prop :=
  placesBad d l = false ∧ eccBad d (.pending l b.bwd b.tag) = false

/-- The route store slot of a tag is empty or holds this tag. -/
abbrev RouteFree (d : Dev) (l tag : Nat) : Prop :=
  tfind d.ex.routes (exRouteKey d l tag) = none ∨ ∃ es, tfind d.ex.routes (exRouteKey d l tag) = some (tag, es)

theorem takeBell_of_bell {d : Dev} {l : Nat} {c : Bool} {b : ExBell} (h : oldestBell d l c = some b) :
    takeBell d l c = some (b, bellTaken d b) := by
  unfold oldestBell at h
  rw [takeBell, h]
  rfl

theorem takeBell_of_none {d : Dev} {l : Nat} {c : Bool} (h : oldestBell d l c = none) : takeBell d l c = none := by
  unfold oldestBell at h
  rw [takeBell, h]
  rfl

/-- The test for an earlier tag in a route store slot (R481). -/
abbrev routeHeld (d : Dev) (l tag : Nat) : Bool :=
  match tfind d.ex.routes (exRouteKey d l tag) with
  | some r => r.1 != tag
  | none => false

theorem routeHeld_of_free {d : Dev} {l tag : Nat} (h : RouteFree d l tag) : routeHeld d l tag = false := by
  rcases h with h | ⟨es, h⟩ <;> simp [routeHeld, h]

theorem routeHeld_of_other {d : Dev} {l tag : Nat} (h : ∃ r, tfind d.ex.routes (exRouteKey d l tag) = some r ∧ r.1 ≠ tag) :
    routeHeld d l tag = true := by
  obtain ⟨r, h, hr⟩ := h
  simp [routeHeld, h, hr]

section
variable {d : Dev} {l w : Nat} {b : ExBell}

theorem dispatchDoorbell_of_none (h : oldestBell d l false = none) : dispatchDoorbell d l w = d := by
  rw [dispatchDoorbell, takeBell_of_none h]

/-- A doorbell's dispatch, test by test (R480, R481, R493). -/
theorem dispatchDoorbell_of_bell (h : oldestBell d l false = some b) : dispatchDoorbell d l w =
    if b.bad then exBadBell (bellTaken d b) b
    else if !b.bwd && routeHeld d l b.tag then exHold d l w
    else if !(dispatchWait d l b).1 then { (dispatchWait d l b).2 with ex := d.ex }
    else if placesBad d l || eccBad d (.pending l b.bwd b.tag) || (b.bwd && eccBad d (.route (exRouteKey d l b.tag))) then
      exFail (dispatchWait d l b).2 l b.tag
    else if b.bwd then dispatchBwd (dispatchWait d l b).2 b else dispatchFwd (dispatchWait d l b).2 b := by
  rw [dispatchDoorbell, takeBell_of_bell h] <;> rfl

theorem dispatchDoorbell_of_bad (h : oldestBell d l false = some b) (hb : b.bad = true) :
    dispatchDoorbell d l w = exBadBell (bellTaken d b) b := by
  rw [dispatchDoorbell_of_bell h, if_pos hb]

theorem dispatchDoorbell_of_held (h : oldestBell d l false = some b) (hb : b.bad = false) (hf : b.bwd = false)
    (hr : ∃ r, tfind d.ex.routes (exRouteKey d l b.tag) = some r ∧ r.1 ≠ b.tag) : dispatchDoorbell d l w = exHold d l w := by
  rw [dispatchDoorbell_of_bell h, if_neg (by simp [hb]), if_pos (by rw [hf, routeHeld_of_other hr]; rfl)]

/-- A good bell whose route store slot is its own goes as far as its wait. -/
theorem dispatchDoorbell_of_free (h : oldestBell d l false = some b) (hb : b.bad = false) (hr : b.bwd = true ∨ RouteFree d l b.tag) :
    dispatchDoorbell d l w = if !(dispatchWait d l b).1 then { (dispatchWait d l b).2 with ex := d.ex }
    else if placesBad d l || eccBad d (.pending l b.bwd b.tag) || (b.bwd && eccBad d (.route (exRouteKey d l b.tag))) then
      exFail (dispatchWait d l b).2 l b.tag
    else if b.bwd then dispatchBwd (dispatchWait d l b).2 b else dispatchFwd (dispatchWait d l b).2 b := by
  have hnot : ¬ (!b.bwd && routeHeld d l b.tag) = true := by
    rcases hr with hr | hr
    · simp [hr]
    · rw [routeHeld_of_free hr, Bool.and_false]
      exact Bool.false_ne_true
  rw [dispatchDoorbell_of_bell h, if_neg (by simp [hb]), if_neg hnot]

theorem dispatchReadable_iff : DispatchReadable d l b ↔
    ¬ (placesBad d l || eccBad d (.pending l b.bwd b.tag) || (b.bwd && eccBad d (.route (exRouteKey d l b.tag)))) = true := by
  simp only [DispatchReadable, Bool.or_eq_true, Bool.and_eq_true, not_or, not_and, Bool.not_eq_true, and_assoc]

theorem combineReadable_iff : CombineReadable d l b ↔ ¬ (placesBad d l || eccBad d (.pending l b.bwd b.tag)) = true := by
  simp only [CombineReadable, Bool.or_eq_true, not_or, Bool.not_eq_true]

theorem dispatchDoorbell_of_wait (h : oldestBell d l false = some b) (hb : b.bad = false) (hr : b.bwd = true ∨ RouteFree d l b.tag)
    (hw : (dispatchWait d l b).1 = false) : dispatchDoorbell d l w = { (dispatchWait d l b).2 with ex := d.ex } := by
  rw [dispatchDoorbell_of_free h hb hr, if_pos (by rw [hw]; rfl)]

theorem dispatchDoorbell_of_unreadable (h : oldestBell d l false = some b) (hb : b.bad = false)
    (hr : b.bwd = true ∨ RouteFree d l b.tag) (hw : (dispatchWait d l b).1 = true) (hg : ¬ DispatchReadable d l b) :
    dispatchDoorbell d l w = exFail (dispatchWait d l b).2 l b.tag := by
  rw [dispatchDoorbell_of_free h hb hr, if_neg (by simp [hw]), if_pos (by rwa [dispatchReadable_iff, not_not] at hg)]

theorem dispatchDoorbell_of_granted (h : oldestBell d l false = some b) (hb : b.bad = false)
    (hr : b.bwd = true ∨ RouteFree d l b.tag) (hw : (dispatchWait d l b).1 = true) (hg : DispatchReadable d l b) :
    dispatchDoorbell d l w = if b.bwd then dispatchBwd (dispatchWait d l b).2 b else dispatchFwd (dispatchWait d l b).2 b := by
  rw [dispatchDoorbell_of_free h hb hr, if_neg (by simp [hw]), if_neg (dispatchReadable_iff.mp hg)]

theorem combineDoorbell_of_none (h : oldestBell d l true = none) : combineDoorbell d l = d := by
  rw [combineDoorbell, takeBell_of_none h]

/-- The tag's record as a combine doorbell finds it. -/
abbrev combineTag (d : Dev) (l : Nat) (b : ExBell) : ExTag := exTagAt (combineWait d l b).2 l b.bwd b.tag

/-- The result rows of slot `i` for rank `r` at a combine doorbell. -/
abbrev combineRows (d : Dev) (l : Nat) (b : ExBell) (y : Dev) (i r : Nat) : Option (List (List Byte)) × Dev :=
  exReadRows l (b.a0 + exQoff d l + exPlace d l i r 0) (exW d l) (exEbytes d l) ((tget [] (combineTag d l b).counts r).getD i 0) y

/-- The rows of slot `i` go back to rank `r`. -/
abbrev combineSend (d : Dev) (l : Nat) (b : ExBell) (y : Dev) (i r : Nat) : Dev :=
  match (combineRows d l b y i r).1 with
  | some bs => exSendRows (combineRows d l b y i r).2 (grpMember d (exGroup d l) r) 2 l b.tag b.bwd i 0 (exEbytes d l) bs
  | none => (combineRows d l b y i r).2

/-- What a granted combine doorbell comes to: the counted rows go back, tokens without a kept entry get their row. -/
abbrev combineGranted (d : Dev) (l : Nat) (b : ExBell) : Dev :=
  (List.range (exNtok d l)).foldl (fun x k =>
    if (((combineTag d l b).entries.drop (k * exK d l)).take (exK d l)).all (fun e => e.drop) then exToken x l b.bwd b.tag k else x)
    ((List.range (exLocal d l)).foldl (fun x i => (List.range (exRanks d l)).foldl (fun y r => combineSend d l b y i r) x)
      (setExTag (combineWait d l b).2 { combineTag d l b with combined := true }))

/-- A combine doorbell, test by test (R480, R486, R493). -/
theorem combineDoorbell_of_bell (h : oldestBell d l true = some b) : combineDoorbell d l =
    if b.bad then exBadBell (bellTaken d b) b
    else if !(combineWait d l b).1 then { (combineWait d l b).2 with ex := d.ex }
    else if placesBad d l || eccBad d (.pending l b.bwd b.tag) then exFail (combineWait d l b).2 l b.tag
    else combineGranted d l b := by
  rw [combineDoorbell, takeBell_of_bell h] <;> rfl

theorem combineDoorbell_of_bad (h : oldestBell d l true = some b) (hb : b.bad = true) :
    combineDoorbell d l = exBadBell (bellTaken d b) b := by
  rw [combineDoorbell_of_bell h, if_pos hb]

theorem combineDoorbell_of_wait (h : oldestBell d l true = some b) (hb : b.bad = false) (hw : (combineWait d l b).1 = false) :
    combineDoorbell d l = { (combineWait d l b).2 with ex := d.ex } := by
  rw [combineDoorbell_of_bell h, if_neg (by simp [hb]), if_pos (by rw [hw]; rfl)]

theorem combineDoorbell_of_unreadable (h : oldestBell d l true = some b) (hb : b.bad = false) (hw : (combineWait d l b).1 = true)
    (hg : ¬ CombineReadable d l b) : combineDoorbell d l = exFail (combineWait d l b).2 l b.tag := by
  rw [combineDoorbell_of_bell h, if_neg (by simp [hb]), if_neg (by simp [hw]), if_pos (by rwa [combineReadable_iff, not_not] at hg)]

theorem combineDoorbell_of_granted (h : oldestBell d l true = some b) (hb : b.bad = false) (hw : (combineWait d l b).1 = true)
    (hg : CombineReadable d l b) : combineDoorbell d l = combineGranted d l b := by
  rw [combineDoorbell_of_bell h, if_neg (by simp [hb]), if_neg (by simp [hw]), if_neg (combineReadable_iff.mp hg)]

end

/-! ### The tests of an EXPERT message (R491) -/

section
variable {d : Dev} {src l tag r : Nat} {bwd ok : Bool} {go : Nat → Dev → Dev}

/-- The layer is enabled and the source a member of its group. -/
abbrev ExMember (d : Dev) (src l : Nat) : Prop := exEn d l = true ∧ ∃ r, grpRankOf d (exGroup d l) src = some r

theorem exAdmit_of_open (he : exEn d l = true) (hr : grpRankOf d (exGroup d l) src = some r) (ho : exCheck d l bwd tag = .open_) :
    exAdmit d src l bwd tag true go = go r d := by
  unfold exAdmit
  rw [he, hr]
  dsimp only
  rw [if_neg (by decide), ho]

theorem exAdmit_of_stale (hm : ExMember d src l) (ho : exCheck d l bwd tag = .stale) :
    exAdmit d src l bwd tag true go = raiseStep (bump d 0xA854 0 1) 0x4A83 l tag := by
  obtain ⟨he, r, hr⟩ := hm
  unfold exAdmit
  rw [he, hr]
  dsimp only
  rw [if_neg (by decide), ho]

theorem exAdmit_of_ahead (hm : ExMember d src l) (ho : exCheck d l bwd tag = .ahead) :
    exAdmit d src l bwd tag true go = raiseFault d 0x8A84 l tag (exCtx d l) := by
  obtain ⟨he, r, hr⟩ := hm
  unfold exAdmit
  rw [he, hr]
  dsimp only
  rw [if_neg (by decide), ho]

theorem exAdmit_of_misrouted (h : ¬ (ExMember d src l ∧ ok = true)) : exAdmit d src l bwd tag ok go = exMisrouted d l := by
  unfold exAdmit
  split
  next r he hr =>
    have hok : ok = false := by
      cases ok
      · rfl
      · exact absurd ⟨⟨he, r, hr⟩, rfl⟩ h
    rw [hok]
    rfl
  next => rfl

end

/-! ### EXPERT messages (R484, R485, R487) -/

section
variable {d : Dev} {src l tag r i p k w : Nat} {b : Bool} {bs : List Byte}

theorem expertRows_of_unopened (he : exEn d l = true) (hr : grpRankOf d (exGroup d l) src = some r) (hi : i < exLocal d l)
    (ho : exCheck d l b tag = .open_) (ha : (exTagAt d l b tag).a0 = none) : expertRows d src l b tag i p k bs w =
    if exRoom d l bs.length then
      setExTag d { exTagAt d l b tag with pend := (exTagAt d l b tag).pend ++ exParts r i p k (exSent d l b) bs }
    else exHold d l w := by
  rw [expertRows, decide_eq_true hi, exAdmit_of_open he hr ho]
  dsimp only
  rw [ha]

theorem expertRows_of_opened {a : Nat} (he : exEn d l = true) (hr : grpRankOf d (exGroup d l) src = some r) (hi : i < exLocal d l)
    (ho : exCheck d l b tag = .open_) (ha : (exTagAt d l b tag).a0 = some a) : expertRows d src l b tag i p k bs w =
    setExTag ((exParts r i p k (exSent d l b) bs).foldl (fun y q => exLand y (exTagAt d l b tag) a q.1 q.2) d)
      { exTagAt d l b tag with landed := (exTagAt d l b tag).landed ++ (exParts r i p k (exSent d l b) bs).map Prod.fst } := by
  rw [expertRows, decide_eq_true hi, exAdmit_of_open he hr ho]
  dsimp only
  rw [ha]

end

/-! ### The end of a dispatch and of a combine (R485, R488) -/

section
variable {d : Dev} {l tag : Nat} {b : Bool}

/-- The slots and ranks a dispatch of a layer receives rows for. -/
abbrev exCells (d : Dev) (l : Nat) : List (Nat × Nat) :=
  (List.range (exLocal d l)).flatMap (fun i => (List.range (exRanks d l)).map (fun r => (i, r)))

/-- The rows rank `r` counted for slot `i`. -/
abbrev exCounted (d : Dev) (l : Nat) (b : Bool) (tag r i : Nat) : Nat := (tget [] (exTagAt d l b tag).counts r).getD i 0

/-- Every rank's count and every counted row part are in. -/
abbrev DispatchIn (d : Dev) (l : Nat) (b : Bool) (tag : Nat) : Prop :=
  (∀ r < exRanks d l, (tfind (exTagAt d l b tag).counts r).isSome = true) ∧
  (∀ c ∈ exCells d l, ∀ p < exCounted d l b tag c.2 c.1, ∀ k < exPartsOf (exSent d l b),
    (exTagAt d l b tag).landed.contains (exKey c.2 c.1 p k) = true)

theorem dispatchIn_iff : DispatchIn d l b tag ↔
    ((List.range (exRanks d l)).all (fun r => (tfind (exTagAt d l b tag).counts r).isSome) &&
      (exCells d l).all (fun c => (List.range (exCounted d l b tag c.2 c.1)).all (fun p =>
        (List.range (exPartsOf (exSent d l b))).all (fun k => (exTagAt d l b tag).landed.contains (exKey c.2 c.1 p k))))) = true := by
  simp only [DispatchIn, Bool.and_eq_true, List.all_eq_true, List.mem_range]

theorem dispatchDone_of_unopened (h : (exTagAt d l b tag).a0 = none) : dispatchDone d l b tag = d := by
  unfold dispatchDone
  dsimp only
  rw [h]

/-- The device at the end of a dispatch (R485): the count array and the fill are written, and DND is signalled. -/
abbrev dispatchEnded (d : Dev) (l : Nat) (b : Bool) (tag a : Nat) : Dev :=
  semSignal (setExTag ((exCells d l).foldl (fun x c => exWrite x l
    ((a + exRoff d l + exPlace d l c.1 c.2 (exCounted d l b tag c.2 c.1)) % 2 ^ 48)
    (List.replicate ((exCap d l - exCounted d l b tag c.2 c.1) * exW d l) 0#8)) (exWrite d l
      ((a + exAoff d l + 8 * (exNtok d l * exK d l)) % 2 ^ 48) ((exCells d l).flatMap (fun c => leBytes 2 (exCounted d l b tag c.2 c.1)))))
    { exTagAt d l b tag with dispatched := true }) (exCluster d l) (exDnd d l) 1 (exCtx d l)

theorem dispatchDone_of_opened {a : Nat} (h : (exTagAt d l b tag).a0 = some a) : dispatchDone d l b tag =
    if !(exTagAt d l b tag).dispatched && (List.range (exRanks d l)).all (fun r => (tfind (exTagAt d l b tag).counts r).isSome) &&
      (exCells d l).all (fun c => (List.range (exCounted d l b tag c.2 c.1)).all (fun p =>
        (List.range (exPartsOf (exSent d l b))).all (fun k => (exTagAt d l b tag).landed.contains (exKey c.2 c.1 p k))))
    then dispatchEnded d l b tag a else d := by
  unfold dispatchDone dispatchEnded exCells exCounted
  dsimp only
  rw [h]

theorem dispatchDone_of_in {a : Nat} (h : (exTagAt d l b tag).a0 = some a) (hd : (exTagAt d l b tag).dispatched = false)
    (hin : DispatchIn d l b tag) : dispatchDone d l b tag = dispatchEnded d l b tag a := by
  rw [dispatchDone_of_opened h, if_pos]
  rw [Bool.and_assoc, dispatchIn_iff.mp hin, hd]
  rfl

theorem dispatchDone_of_not_in {a : Nat} (h : (exTagAt d l b tag).a0 = some a)
    (hn : (exTagAt d l b tag).dispatched = true ∨ ¬ DispatchIn d l b tag) : dispatchDone d l b tag = d := by
  rw [dispatchDone_of_opened h, if_neg]
  rw [Bool.and_assoc, Bool.and_eq_true, ← dispatchIn_iff]
  rintro ⟨hd, hin⟩
  rcases hn with hn | hn
  · rw [hn] at hd
    cases hd
  · exact hn hin

/-- Every part of a combine is over (R488). -/
abbrev CombineOver (d : Dev) (l : Nat) (b : Bool) (tag : Nat) : Prop :=
  (exTagAt d l b tag).combined = true ∧ (exTagAt d l b tag).dispatched = true ∧
    ∀ k < exNtok d l, (exTagAt d l b tag).written.contains k = true

theorem combineOver_iff : CombineOver d l b tag ↔ ((exTagAt d l b tag).combined && (exTagAt d l b tag).dispatched &&
    (List.range (exNtok d l)).all (fun k => (exTagAt d l b tag).written.contains k)) = true := by
  simp only [CombineOver, Bool.and_eq_true, List.all_eq_true, List.mem_range, and_assoc]

/-- The tag closed, and the route store slot of a BWD freed. -/
abbrev combineClosed (d : Dev) (l : Nat) (b : Bool) (tag : Nat) : Dev :=
  if b then { endRec (exClose d l b tag) (.route (exRouteKey d l tag)) with
    ex := { (exClose d l b tag).ex with routes := tdel (exClose d l b tag).ex.routes (exRouteKey d l tag) } }
  else exClose d l b tag

theorem combineDone_of_over (h : CombineOver d l b tag) :
    combineDone d l b tag = semSignal (combineClosed d l b tag) (exCluster d l) (exDnc d l) 1 (exCtx d l) :=
  if_pos (combineOver_iff.mp h)

theorem combineDone_of_not_over (h : ¬ CombineOver d l b tag) : combineDone d l b tag = d :=
  if_neg (mt combineOver_iff.mpr h)

end

/-- Settles O34, doorbell by doorbell and message by message. That waiting messages are presented again is the model's choice
(log 48), as are the bell records (log 49) and the arguments of 0x8A89 (log 96). -/
theorem exchangeCommands : Obligations.ExchangeCommands := by
  refine ⟨?dispatch, ?combine, ?none, ?rows, ?count, ?result, ?refused, ?done, ?unopened, ?finished⟩
  case dispatch =>
    intro s l w b hs h
    dsimp only
    rw [exec_dispatchDoorbell, onUnit_acting _ _ hs]
    refine ⟨fun hb => ?_, fun hb hf hr => ?_, fun hb hr hw => ?_, fun hb hr hw hg => ?_, fun hb hf hw hg => ?_, fun hb hf hr hw hg => ?_⟩
    · rw [dispatchDoorbell_of_bad h hb, exBadBell]
    · rw [dispatchDoorbell_of_held h hb hf hr, exHold]
    · rw [dispatchDoorbell_of_wait h hb hr hw]
    · rw [dispatchDoorbell_of_unreadable h hb hr hw hg, exFail]
    · rw [dispatchDoorbell_of_granted h hb (.inl hf) hw hg, if_pos hf]
    · rw [dispatchDoorbell_of_granted h hb (.inr hr) hw hg, if_neg (by simp [hf])]
  case combine =>
    intro s l b hs h
    dsimp only
    rw [exec_combineDoorbell, onUnit_acting _ _ hs]
    refine ⟨fun hb => ?_, fun hb hw => ?_, fun hb hw hg => ?_, fun hb hw hg => ?_⟩
    · rw [combineDoorbell_of_bad h hb, exBadBell]
    · rw [combineDoorbell_of_wait h hb hw]
    · rw [combineDoorbell_of_unreadable h hb hw hg, exFail]
    · rw [combineDoorbell_of_granted h hb hw hg] <;> rfl
  case none =>
    intro s l w hs
    refine ⟨fun h => ?_, fun h => ?_⟩
    · rw [exec_dispatchDoorbell, onUnit_acting _ _ hs, dispatchDoorbell_of_none h]
    · rw [exec_combineDoorbell, onUnit_acting _ _ hs, combineDoorbell_of_none h]
  case rows =>
    intro s src l tag i p k w r b bs hs he hr hi ho
    dsimp only
    rw [exec_expertRows, onUnit_acting _ _ hs]
    refine ⟨fun ha hroom => ?_, fun ha hroom => ?_, fun a ha => ?_⟩
    · rw [expertRows_of_unopened he hr hi ho ha, if_pos hroom]
    · rw [expertRows_of_unopened he hr hi ho ha, if_neg (by simp [hroom]), exHold]
    · rw [expertRows_of_opened he hr hi ho ha]
  case count =>
    intro s src l tag r b cs hs he hr ho
    rw [exec_expertCount, onUnit_acting _ _ hs, expertCount, exAdmit_of_open he hr ho]
  case result =>
    intro s src l tag i p k w r b bs hs he hr hslot ho
    rw [exec_expertResult, onUnit_acting _ _ hs, expertResult, hslot, exAdmit_of_open he hr ho]
    refine ⟨fun hroom => ?_, fun hroom => ?_⟩
    · rw [if_neg (by simp [hroom])]
    · rw [if_pos (by simp [hroom]), exHold]
  case refused =>
    intro s src l tag i p k w b bs cs hs
    dsimp only
    rw [exec_expertRows, exec_expertCount, exec_expertResult, onUnit_acting _ _ hs, onUnit_acting _ _ hs, onUnit_acting _ _ hs,
      expertRows, expertCount, expertResult]
    refine ⟨fun h => ?_, fun h => ?_, fun h => ?_, fun ho => ⟨fun hm hi => ?_, fun hm => ?_, fun hm hi => ?_⟩,
      fun ho => ⟨fun hm hi => ?_, fun hm => ?_, fun hm hi => ?_⟩⟩
    · rw [exAdmit_of_misrouted (by rwa [decide_eq_true_iff]), exMisrouted]
    · rw [exAdmit_of_misrouted (fun hm => h hm.1), exMisrouted]
    · rw [exAdmit_of_misrouted h, exMisrouted]
    · rw [decide_eq_true hi, exAdmit_of_stale hm ho]
    · rw [exAdmit_of_stale hm ho]
    · rw [hi, exAdmit_of_stale hm ho]
    · rw [decide_eq_true hi, exAdmit_of_ahead hm ho]
    · rw [exAdmit_of_ahead hm ho]
    · rw [hi, exAdmit_of_ahead hm ho]
  case done =>
    intro s l tag a b hs ha
    dsimp only
    rw [exec_dispatchDone, onUnit_acting _ _ hs]
    exact ⟨fun hd hin => by rw [dispatchDone_of_in ha hd hin], fun hn => by rw [dispatchDone_of_not_in ha hn]⟩
  case unopened =>
    intro s l tag b hs ha
    rw [exec_dispatchDone, onUnit_acting _ _ hs, dispatchDone_of_unopened ha]
  case finished =>
    intro s l tag b hs
    dsimp only
    rw [exec_combineDone, onUnit_acting _ _ hs]
    exact ⟨fun h => by rw [combineDone_of_over h], fun h => by rw [combineDone_of_not_over h]⟩

end Sys2Proof.Machine

/-! The host Ethernet port (chapter 18): its link, the management queue, pauses and the clock. -/

namespace Sys2Proof.Machine

/-! ### Link and management queue (R507 to R510) -/

section
variable {d : Dev}

theorem hpLinkUp_of_down (hl : d.hp.linkUp = false) (hp : ∀ n ∈ d.pw.lostPlls, n < 38) : hpLinkUp d =
    txDrain (raise (setObj { d with hp := { d.hp with linkUp := true } } 0xB011 0 2) 0x0B02 0 0) := by
  refine if_neg ?_
  simpa [hl] using hp

theorem hpLinkUp_of_kept (h : d.hp.linkUp = true ∨ ∃ n ∈ d.pw.lostPlls, 38 ≤ n) : hpLinkUp d = d := by
  refine if_pos ?_
  simpa using h

/-- The address an ARP request or a neighbour solicitation is compared with. -/
abbrev hpAddress (d : Dev) (v6 : Bool) : Nat := if v6 then cfg d 0xB021 0 else cfg d 0xB020 0

theorem arpRequest_of_own {v6 : Bool} {t r : Nat} (h0 : hpAddress d v6 ≠ 0) (ht : t = hpAddress d v6) :
    arpRequest d v6 t r = hostSend (hpRx d) 1 [b2n v6, t, cfg d 0xB001 0, r] [] :=
  if_pos ⟨h0, ht.symm⟩

theorem arpRequest_of_other {v6 : Bool} {t r : Nat} (h : hpAddress d v6 = 0 ∨ t ≠ hpAddress d v6) :
    arpRequest d v6 t r = hpDiscard (hpRx d) := by
  refine if_neg ?_
  rintro ⟨h0, ht⟩
  exact h.elim h0 (fun hn => hn ht.symm)

/-! ### Pauses (R511, R512) -/

variable {p q u : Nat}

theorem pfcPause_of_ignored (h : bitAt (cfg d 0xB025 0) p = false) : pfcPause d p q = hpRx d :=
  if_pos (by simp [h])

theorem pfcPause_of_quanta (h : bitAt (cfg d 0xB025 0) p = true) (hq : q ≠ 0) : pfcPause d p q = setPfc (hpRx d) p
    { pfcAt d p with paused := true, since := if (pfcAt d p).paused then (pfcAt d p).since else d.uptime } :=
  (if_neg (by simp [h])).trans (if_neg hq)

theorem pfcPause_of_resume (h : bitAt (cfg d 0xB025 0) p = true) : pfcPause d p 0 =
    txDrain (setPfc (hpRx d) p { pfcAt d p with paused := false }) :=
  (if_neg (by simp [h])).trans (if_pos rfl)

/-- A priority's share of the receive buffer (R512). -/
abbrev pfcShare (d : Dev) : Nat := 8388608 / max 1 (popCount 8 (cfg d 0xB025 0))

/-- The peer is paused, or kept paused, at `u` bytes held for priority `p` (R512). -/
abbrev PauseDue (d : Dev) (p u : Nat) : Prop := pfcShare d * 3 < u * 4 ∨ ((pfcAt d p).sent = true ∧ pfcShare d < u * 2)

theorem pfcPauseRefresh_of_due (h : bitAt (cfg d 0xB025 0) p = true) (hd : PauseDue d p u) :
    pfcPauseRefresh d p u = hostSend (setPfc d p { pfcAt d p with sent := true }) 8 [p, 0xFFFF] [] :=
  (if_neg (by simp [h])).trans (if_pos hd)

theorem pfcPauseRefresh_of_drained (h : bitAt (cfg d 0xB025 0) p = true) (hu : u * 2 < pfcShare d) (hsent : (pfcAt d p).sent = true) :
    pfcPauseRefresh d p u = hostSend (setPfc d p { pfcAt d p with sent := false }) 8 [p, 0] [] := by
  have hnot : ¬ PauseDue d p u := by
    unfold PauseDue
    generalize pfcShare d = n at hu ⊢
    rintro (h | ⟨-, h⟩) <;> omega
  exact (if_neg (by simp [h])).trans ((if_neg hnot).trans (if_pos ⟨hsent, hu⟩))

theorem pfcPauseRefresh_of_kept (h : bitAt (cfg d 0xB025 0) p = false ∨
    (¬ PauseDue d p u ∧ ¬ ((pfcAt d p).sent = true ∧ u * 2 < pfcShare d))) : pfcPauseRefresh d p u = d := by
  by_cases hb : bitAt (cfg d 0xB025 0) p = true
  · rcases h with h | ⟨hdue, hlow⟩
    · exact absurd (hb.symm.trans h) (by decide)
    · exact (if_neg (by simp [hb])).trans ((if_neg hdue).trans (if_neg hlow))
  · exact if_pos (by simpa using hb)

/-! ### PTP (R520 to R523) -/

variable {dom src o r t3 t4 : Nat}

theorem ptpSync_of_other {b : Bool} (h : ¬ ptpMine d dom src = true) : ptpSync d dom src q b o r = hpRx d :=
  if_pos (by simpa using h)

theorem ptpSync_of_mine {b : Bool} (h : ptpMine d dom src = true) : ptpSync d dom src q b o r =
    if b then setPtp (hpRx d) { d.hp.ptp with sync := some (q, r) } else ptpMeasure (hpRx d) o r :=
  if_neg (by simp [h])

theorem ptpFollowUp_of_sync (h : ptpMine d dom src = true) (hs : d.hp.ptp.sync = some (q, r)) :
    ptpFollowUp d dom src q o = ptpMeasure (hpRx d) o r := by
  unfold ptpFollowUp
  dsimp only
  rw [hs]
  exact if_pos (by simp [h])

theorem ptpFollowUp_of_other (h : ¬ ptpMine d dom src = true ∨ ∀ r, d.hp.ptp.sync ≠ some (q, r)) :
    ptpFollowUp d dom src q o = hpRx d := by
  unfold ptpFollowUp
  dsimp only
  split
  next k rx hs =>
    refine if_neg ?_
    rw [Bool.and_eq_true, beq_iff_eq]
    rintro ⟨hm, rfl⟩
    exact h.elim (fun hn => hn hm) (fun hn => hn rx hs)
  next => rfl

/-- The path delay a Delay_Resp measures (R520). -/
abbrev ptpPath (d : Dev) (t3 t4 : Nat) : Int := (((d.hp.ptp.t2 : Int) - d.hp.ptp.t1) + ((t4 : Int) - t3)) / 2

/-- The offset that remains with that delay. -/
abbrev ptpRest (d : Dev) (t3 t4 : Nat) : Int := (d.hp.ptp.t2 : Int) - d.hp.ptp.t1 - ptpPath d t3 t4

theorem ptpDelayResp_of_mine (h : ptpMine d dom src = true) (hs : d.hp.ptp.haveSync = true) (hr : d.hp.ptp.delayReq = some (t3, q)) :
    ptpDelayResp d dom src q t4 = ptpCorrect (setObj (setPtp (hpRx d)
      { d.hp.ptp with delay := ptpPath d t3 t4, offset := ptpRest d t3 t4, delayReq := none }) 0xB044 0 (ofSigned 32 (ptpRest d t3 t4)))
      (ptpRest d t3 t4) := by
  unfold ptpDelayResp
  dsimp only
  rw [hr]
  exact if_pos (by simp [h, hs])

theorem ptpDelayResp_of_other (h : ptpMine d dom src = false ∨ d.hp.ptp.haveSync = false ∨ ∀ t, d.hp.ptp.delayReq ≠ some (t, q)) :
    ptpDelayResp d dom src q t4 = hpRx d := by
  unfold ptpDelayResp
  dsimp only
  split
  next t k hr =>
    refine if_neg ?_
    rw [Bool.and_eq_true, Bool.and_eq_true, beq_iff_eq]
    rintro ⟨⟨hm, rfl⟩, hs⟩
    rcases h with h | h | h
    · exact absurd (hm.symm.trans h) (by decide)
    · exact absurd (hs.symm.trans h) (by decide)
    · exact h t hr
  next => rfl

/-- The Announce's sender is the chosen time transmitter, or is better than it, or none is chosen (R520). -/
abbrev Better (d : Dev) (l : List Nat) : Prop :=
  ∀ b, d.hp.ptp.best = some b → b.getLast? = l.getLast? ∨ listBefore l b = true

theorem ptpAnnounce_of_better {l : List Nat} (hd : dom = cfg d 0xB040 0) (h : Better d l) :
    ptpAnnounce d dom l = setPtp (hpRx d) { d.hp.ptp with best := some l } := by
  refine (if_neg (not_not_intro hd)).trans ?_
  split
  next b hb => exact if_pos (h b hb)
  next => rfl

theorem ptpAnnounce_of_other {l : List Nat} (h : dom ≠ cfg d 0xB040 0 ∨ ¬ Better d l) : ptpAnnounce d dom l = hpRx d := by
  by_cases hd : dom = cfg d 0xB040 0
  · refine (if_neg (not_not_intro hd)).trans ?_
    have hn := h.resolve_left (not_not_intro hd)
    split
    next b hb =>
      refine if_neg (fun hok => hn (fun c hc => ?_))
      rwa [← Option.some.inj (hb.symm.trans hc)]
    next hb => exact absurd (fun b hc => absurd (hb.symm.trans hc) (by simp)) hn
  · exact if_pos hd

end

/-- Settles O35, command by command. That the link trains again by itself and only the link's state changes is the model's choice
(log 51), as are the correction of the clock at a Delay_Resp (log 52) and the fill level that PFC_PAUSE_REFRESH names (log 53). -/
theorem hostPortCommands : Obligations.HostPortCommands := by
  refine ⟨?link, ?down, ?queue, ?arp, ?unmatched, ?pause, ?expiry, ?refresh, ?storm, ?sync, ?delay, ?announce, ?timeout⟩
  case link =>
    intro s hs
    rw [exec_hpLinkDown, exec_hpLinkUp, onUnit_acting _ _ hs, onUnit_acting _ _ hs]
    refine ⟨fun h => ?_, fun h => ?_, fun h hp => ?_, fun h => ?_⟩
    · rw [hpLinkDown, if_pos h]
    · rw [hpLinkDown, if_neg (by simp [h])]
    · rw [hpLinkUp_of_down h hp]
    · rw [hpLinkUp_of_kept h]
  case down =>
    intro s c n t r v k l o x y b bs ns hl i hi
    have hexec (f : Dev → Dev) : after s (onHost s.dev f) = after s s.dev := by rw [onHost_down _ _ hl]
    simp only [List.mem_cons, List.not_mem_nil, or_false] at hi
    rcases hi with rfl | rfl | rfl | rfl | rfl | rfl | rfl | rfl | rfl | rfl | rfl | rfl | rfl <;> exact hexec _
  case queue =>
    intro s c n bs hs hl
    dsimp only
    rw [exec_mgmtQueueFrame, onHost_acting _ _ hs hl, mgmtQueueFrame]
    exact ⟨fun h => by rw [if_neg (by omega)]; rfl, fun h => by rw [if_pos h]; rfl⟩
  case arp =>
    intro s v t r hs hl
    dsimp only
    rw [exec_arpRequest, onHost_acting _ _ hs hl]
    exact ⟨fun h0 ht => by rw [arpRequest_of_own h0 ht]; rfl, fun h => by rw [arpRequest_of_other h]; rfl⟩
  case unmatched =>
    intro s hs hl
    rw [exec_unmatchedFrame, onHost_acting _ _ hs hl, unmatchedFrame, hpDiscard, hpRx]
  case pause =>
    intro s p q hs hl
    dsimp only
    rw [exec_pfcPause, exec_pfcPause, onHost_acting _ _ hs hl, onHost_acting _ _ hs hl]
    refine ⟨fun h => ?_, fun h hq => ?_, fun h => ?_⟩
    · rw [pfcPause_of_ignored h, hpRx]
    · rw [pfcPause_of_quanta h hq, hpRx]
    · rw [pfcPause_of_resume h, hpRx]
  case expiry =>
    intro s p hs
    rw [exec_pauseQuantaExpiry, onUnit_acting _ _ hs, pauseQuantaExpiry]
  case refresh =>
    intro s p u hs
    dsimp only
    rw [exec_pfcPauseRefresh, onUnit_acting _ _ hs]
    refine ⟨fun h hd => ?_, fun h hu hsent => ?_, fun h => ?_⟩
    · rw [pfcPauseRefresh_of_due h hd]
    · rw [pfcPauseRefresh_of_drained h hu hsent]
    · rw [pfcPauseRefresh_of_kept h]
  case storm =>
    intro s p hs
    dsimp only
    rw [exec_pfcStorm, onUnit_acting _ _ hs, pfcStorm]
    exact ⟨fun h => by rw [if_pos h], fun h => by rw [if_neg h]⟩
  case sync =>
    intro s dom src q o r hs hl
    dsimp only
    have hexec (b : Bool) : exec (.ptpSync dom src q b o r) s = after s (ptpSync s.dev dom src q b o r) := by
      rw [exec_ptpSync, onHost_acting _ _ hs hl]
    rw [exec_ptpFollowUp, onHost_acting _ _ hs hl]
    refine ⟨fun h => ?_, fun h => ?_, fun h b => ?_, fun h hsync => ?_, fun h => ?_⟩
    · rw [hexec, ptpSync_of_mine h, if_neg (by decide), hpRx]
    · rw [hexec, ptpSync_of_mine h, if_pos rfl, hpRx]
    · rw [hexec, ptpSync_of_other h, hpRx]
    · rw [ptpFollowUp_of_sync h hsync, hpRx]
    · rw [ptpFollowUp_of_other h, hpRx]
  case delay =>
    intro s dom src q t3 t4 hs hl
    dsimp only
    rw [exec_ptpDelayResp, onHost_acting _ _ hs hl]
    exact ⟨fun h hsync hr => by rw [ptpDelayResp_of_mine h hsync hr, hpRx], fun h => by rw [ptpDelayResp_of_other h, hpRx]⟩
  case announce =>
    intro s dom l hs hl
    dsimp only
    rw [exec_ptpAnnounce, onHost_acting _ _ hs hl]
    exact ⟨fun hd h => by rw [ptpAnnounce_of_better hd h, hpRx], fun h => by rw [ptpAnnounce_of_other h, hpRx]⟩
  case timeout =>
    intro s hs
    dsimp only
    rw [exec_ptpAnnounceTimeout, onUnit_acting _ _ hs, ptpAnnounceTimeout]
    exact ⟨fun h => by rw [if_pos h], fun h1 h2 => by rw [if_neg (not_or.mpr ⟨h1, h2⟩)]⟩

end Sys2Proof.Machine

/-! RoCE queue pairs (chapter 18): a queue pair that has no row. -/

namespace Sys2Proof.Machine

/-- A number of a queue pair whose row of HpQp would stand at the key of HpRxFrames. -/
def strayPair : Nat := (0xB050 - 0xB030) * 256 - 1

/-- A started device with its link up, and in that row a pair in use that may serve one READ at a time. -/
def pairState : State := { startedState with
  dev := { setObj startedState.dev 0xB030 (strayPair + 1) (2 ^ 255) with hp := { startedState.dev.hp with linkUp := true } } }

/-- The pair once a packet for it has been counted. -/
abbrev pairCounted : Dev := setQp (bump pairState.dev 0xB050 0 1) strayPair (qpStart pairState.dev strayPair)

/-- Counting the packet makes the row read as all ones: 16 READs are allowed, the second is taken, and refused for its key. -/
theorem out_rdmaRead_strayPair : (rdmaRead pairState.dev strayPair 0 0 0 0 1 false).out = [.host 5 [strayPair, 0, 0, 2] []] := by
  decide +kernel

theorem out_qpInvalid_strayPair : (qpInvalid pairCounted strayPair 0).out = [.host 5 [strayPair, 0, 0, 1] []] := by decide +kernel

/-- Refutes O36: the statement speaks of the queue pair of every number, and reads MAXRD from the row before the packet.
HpQp has 128 rows; the key of "row" `strayPair` is that of HpRxFrames, which the packet itself counts up, so a READ over the row's
MAXRD of 1 is not answered with NAK Invalid Request. (The reset of a pair that drops its waiting frames, log 66, plays no part.) -/
theorem not_queuePairCommands : ¬ Obligations.QueuePairCommands := by
  intro ⟨_, hpackets, _⟩
  obtain ⟨-, hread, -⟩ := hpackets pairState strayPair (by decide +kernel) (by decide +kernel) (by decide +kernel) (by decide +kernel)
  obtain ⟨-, hbusy, -⟩ := hread 0 0 0 0 1 false
  have hexec := hbusy (.inl (by decide +kernel)) (by decide +kernel)
  dsimp only at hexec
  rw [if_neg (by simp), exec_rdmaRead, onHost_acting _ _ (by decide +kernel) (by decide +kernel)] at hexec
  have hout := (congrArg Dev.out (after_inj hexec)).trans out_qpInvalid_strayPair
  rw [out_rdmaRead_strayPair] at hout
  exact absurd hout (by decide +kernel)

end Sys2Proof.Machine
